-- ==== Sys2Proof/Word.lean ====
section
/-! DEFINITION. The word types of the processor (spec/10_state.md rules R51, R55, R111, R120) and the
widths an operand can have (spec/30_encoding.md rule R320). -/

namespace Sys2Proof

/-- A byte: the unit of memory and of the instruction stream (rule R200). -/
abbrev Byte := BitVec 8
/-- A 64-bit value: a general register, an offset, a linear address (rules R51, R54, R200). -/
abbrev Word := BitVec 64
/-- A number 0 to 15 of a general or vector register (rules R51, R111). -/
abbrev Reg := Fin 16

/-- The operand widths of the general-purpose instructions (rule R320). -/
inductive Width where
  | w8 | w16 | w32 | w64
deriving DecidableEq, Repr

/-- The number of bits of a width. -/
def Width.bits : Width → Nat
  | .w8 => 8 | .w16 => 16 | .w32 => 32 | .w64 => 64

/-- The number of bytes of a width. -/
def Width.bytes : Width → Nat
  | .w8 => 1 | .w16 => 2 | .w32 => 4 | .w64 => 8

/-- The address sizes and stack-address sizes (rules R320, R230). -/
inductive ASize where
  | a16 | a32 | a64
deriving DecidableEq, Repr

/-- The number of bits of an address size. -/
def ASize.bits : ASize → Nat
  | .a16 => 16 | .a32 => 32 | .a64 => 64

/-- The width of a register that holds an address of this size. -/
def ASize.width : ASize → Width
  | .a16 => .w16 | .a32 => .w32 | .a64 => .w64

/-- The segment registers in the order of their numbers 0 to 5 (rules R55, R341). -/
inductive SReg where
  | es | cs | ss | ds | fs | gs
deriving DecidableEq, Repr

/-- The number of a segment register (rule R341). -/
def SReg.num : SReg → Fin 6
  | .es => 0 | .cs => 1 | .ss => 2 | .ds => 3 | .fs => 4 | .gs => 5

/-- The vector lengths (rule R360: VEX.L, and the legacy encodings' 128 bits). -/
inductive VLen where
  | l128 | l256
deriving DecidableEq, Repr

/-- The number of bits of a vector length. -/
def VLen.bits : VLen → Nat
  | .l128 => 128 | .l256 => 256

end Sys2Proof
end

