-- ==== Sys2Proof/Config.lean ====
section
/-! DEFINITION. What an implementation of the architecture fixes (spec/00_scope.md rule R20) and the
values the spec leaves free. The constants of one processor are plain data (`Config.Params`), a field of
the state that no instruction writes, so that a statement about every state is a statement about every
processor; the functions the spec leaves open are opaque constants without a body. -/

namespace Sys2Proof.Config

/-- One row of CPUID_TABLE (rule R20; spec/43_c_cmps-crc32.md rule R574). -/
structure CpuidRow where
  leaf : BitVec 32
  sub : BitVec 32
  eax : BitVec 32
  ebx : BitVec 32
  ecx : BitVec 32
  edx : BitVec 32
deriving DecidableEq, Repr

/-- The optional extensions of rule R2, one constructor for each CPUID feature flag. -/
inductive Feature where
  | fpu | vme | de | pse | tsc | msr | pae | mce | cx8 | sep | pge | cmov | pse36 | clfsh | mmx | fxsr | sse | sse2
  | sse3 | pclmulqdq | monitor | ssse3 | fma | cmpxchg16b | pcid | sse41 | sse42 | movbe | popcnt | aes | xsave
  | avx | f16c | rdrand | fsgsbase | bmi1 | hle | avx2 | smep | bmi2 | invpcid | rtm | fdsDeprecated | rdseed | adx | smap
  | prefetchwt1 | pku | xsaveopt | xsavec | xg1 | xss | lahf64 | lzcnt | prefetchw | syscall | nx | page1gb | rdtscp | lm
deriving DecidableEq, Repr

/-- The four result registers of CPUID. -/
inductive CpuidReg where
  | eax | ebx | ecx | edx
deriving DecidableEq, Repr

/-- Where CPUID reports a feature: leaf, subleaf, register, bit (spec/43_c_cmps-crc32.md rules R575 to R578). -/
def Feature.place : Feature → BitVec 32 × BitVec 32 × CpuidReg × Nat
  | .fpu => (1, 0, .edx, 0) | .vme => (1, 0, .edx, 1) | .de => (1, 0, .edx, 2) | .pse => (1, 0, .edx, 3)
  | .tsc => (1, 0, .edx, 4) | .msr => (1, 0, .edx, 5) | .pae => (1, 0, .edx, 6) | .mce => (1, 0, .edx, 7)
  | .cx8 => (1, 0, .edx, 8) | .sep => (1, 0, .edx, 11) | .pge => (1, 0, .edx, 13) | .cmov => (1, 0, .edx, 15)
  | .pse36 => (1, 0, .edx, 17) | .clfsh => (1, 0, .edx, 19) | .mmx => (1, 0, .edx, 23) | .fxsr => (1, 0, .edx, 24)
  | .sse => (1, 0, .edx, 25) | .sse2 => (1, 0, .edx, 26)
  | .sse3 => (1, 0, .ecx, 0) | .pclmulqdq => (1, 0, .ecx, 1) | .monitor => (1, 0, .ecx, 3) | .ssse3 => (1, 0, .ecx, 9)
  | .fma => (1, 0, .ecx, 12) | .cmpxchg16b => (1, 0, .ecx, 13) | .pcid => (1, 0, .ecx, 17) | .sse41 => (1, 0, .ecx, 19)
  | .sse42 => (1, 0, .ecx, 20) | .movbe => (1, 0, .ecx, 22) | .popcnt => (1, 0, .ecx, 23) | .aes => (1, 0, .ecx, 25)
  | .xsave => (1, 0, .ecx, 26) | .avx => (1, 0, .ecx, 28) | .f16c => (1, 0, .ecx, 29) | .rdrand => (1, 0, .ecx, 30)
  | .fsgsbase => (7, 0, .ebx, 0) | .bmi1 => (7, 0, .ebx, 3) | .hle => (7, 0, .ebx, 4) | .avx2 => (7, 0, .ebx, 5)
  | .smep => (7, 0, .ebx, 7) | .bmi2 => (7, 0, .ebx, 8) | .invpcid => (7, 0, .ebx, 10) | .rtm => (7, 0, .ebx, 11)
  | .fdsDeprecated => (7, 0, .ebx, 13) | .rdseed => (7, 0, .ebx, 18) | .adx => (7, 0, .ebx, 19) | .smap => (7, 0, .ebx, 20)
  | .prefetchwt1 => (7, 0, .ecx, 0) | .pku => (7, 0, .ecx, 3)
  | .xsaveopt => (0xD, 1, .eax, 0) | .xsavec => (0xD, 1, .eax, 1) | .xg1 => (0xD, 1, .eax, 2) | .xss => (0xD, 1, .eax, 3)
  | .lahf64 => (0x80000001, 0, .ecx, 0) | .lzcnt => (0x80000001, 0, .ecx, 5) | .prefetchw => (0x80000001, 0, .ecx, 8)
  | .syscall => (0x80000001, 0, .edx, 11) | .nx => (0x80000001, 0, .edx, 20) | .page1gb => (0x80000001, 0, .edx, 26)
  | .rdtscp => (0x80000001, 0, .edx, 27) | .lm => (0x80000001, 0, .edx, 29)

/-- The CPUID table of the processor the model starts with: every extension of rule R2 present except HLE
(spec/92_eei_decisions.md D61), VMX and SMX (rule R12); cache descriptors, cache parameters and topology of one core with
64-byte lines, and a brand string. DESIGN CHOICE, log entry 3. -/
def defaultCpuid : List CpuidRow :=
  [ { leaf := 0, sub := 0, eax := 0xD, ebx := 0x756E6547, ecx := 0x6C65746E, edx := 0x49656E69 },
    { leaf := 1, sub := 0, eax := 0x000306C3, ebx := 0x00000800, ecx := 0x76DA320B, edx := 0x0788A9FF },
    { leaf := 5, sub := 0, eax := 64, ebx := 64, ecx := 3, edx := 0 },
    { leaf := 7, sub := 0, eax := 0, ebx := 0x001C0DA9, ecx := 0x00000009, edx := 0 },
    { leaf := 0xD, sub := 0, eax := 7, ebx := 832, ecx := 832, edx := 0 },
    { leaf := 0xD, sub := 1, eax := 0xF, ebx := 832, ecx := 0, edx := 0 },
    { leaf := 0xD, sub := 2, eax := 256, ebx := 576, ecx := 0, edx := 0 },
    { leaf := 0x80000000, sub := 0, eax := 0x80000008, ebx := 0, ecx := 0, edx := 0 },
    { leaf := 0x80000001, sub := 0, eax := 0, ebx := 0, ecx := 0x00000121, edx := 0x2C100800 },
    { leaf := 0x80000008, sub := 0, eax := 0x00003027, ebx := 0, ecx := 0, edx := 0 },
    { leaf := 2, sub := 0, eax := 0x76036301, ebx := 0x00F0B5FF, ecx := 0, edx := 0x00C10000 },
    { leaf := 4, sub := 0, eax := 0x00000121, ebx := 0x01C0003F, ecx := 0x3F, edx := 0 },
    { leaf := 4, sub := 1, eax := 0x00000122, ebx := 0x01C0003F, ecx := 0x3F, edx := 0 },
    { leaf := 4, sub := 2, eax := 0x00000143, ebx := 0x01C0003F, ecx := 0x1FF, edx := 0 },
    { leaf := 4, sub := 3, eax := 0x00000163, ebx := 0x03C0003F, ecx := 0x1FFF, edx := 6 },
    { leaf := 0xB, sub := 0, eax := 0, ebx := 1, ecx := 0x100, edx := 0 },
    { leaf := 0xB, sub := 1, eax := 0, ebx := 1, ecx := 0x201, edx := 0 },
    { leaf := 0x80000002, sub := 0, eax := 0x756E6547, ebx := 0x20656E69, ecx := 0x65746E49, edx := 0x2952286C },
    { leaf := 0x80000003, sub := 0, eax := 0x55504320, ebx := 0, ecx := 0, edx := 0 },
    { leaf := 0x80000004, sub := 0, eax := 0, ebx := 0, ecx := 0, edx := 0 },
    { leaf := 0x80000006, sub := 0, eax := 0, ebx := 0, ecx := 0x01006040, edx := 0 } ]

/-- One entry of MSR_IMPLEMENTED (rule R20): the address, the bits that are reserved (a write that sets one faults), the bits a
write leaves as they are, and the value after reset. -/
structure MsrSpec where
  addr : BitVec 32
  reserved : BitVec 64 := 0
  readOnly : BitVec 64 := 0
  init : BitVec 64 := 0
deriving DecidableEq, Repr

/-- The parameters of rule R20 that are numbers, flags or tables, as plain data. -/
structure Params where
  /-- CPUID_TABLE (rule R20, decision D22). -/
  cpuid : List CpuidRow := defaultCpuid
  /-- MSR_IMPLEMENTED (rule R20, decision D47): what the processor has beside the registers of spec/10_state.md rule R100, and the
  masks it gives to those. -/
  msrs : List MsrSpec := []
  /-- Does XINUSE[1] look at the XMM registers reachable in the current mode only (spec/10_state.md rule R165), or at all sixteen in
  every mode (spec/59_w_wait-xtest.md rule R1204)? The two rules differ; log entry 58. -/
  xinuseReachable : Bool := false
  /-- MAX_RTM_NEST_COUNT (rule R20; default 7). -/
  maxRtmNest : Nat := 7
  /-- PUSH_SREG32_ZERO_EXTENDS (rule R20, decision D45). -/
  pushSreg32Zext : Bool := false
  /-- X87_ENV_RESERVED: the reserved halves are FFFFH when true, 0 when false (rule R20, R127). -/
  x87EnvOnes : Bool := false
  /-- #AC(0) for a 16- or 32-byte operand of an unaligned move (LDDQU, MOVDQU, MOVUPD, MOVUPS and their VEX forms) that is not on
  an 8-byte boundary (spec/20_memory.md rule R220, U11). -/
  acWide : Bool := false
  /-- PMC_VALID: the indices RDPMC accepts (rules R20, R102). -/
  pmcValid : List (BitVec 32) := [0, 1, 2, 3, 0x40000000, 0x40000001, 0x40000002]
  /-- PMC_MSCB: the most significant counter bit RDPMC returns (rules R20, R102). -/
  pmcMscb : Nat := 39
  /-- RTM_ABORT_STATUS of an abort by nest overflow (rule R20; default 0). -/
  rtmNestStatus : BitVec 32 := 0
  /-- RTM_ABORT_STATUS of an abort by a fault. -/
  rtmFaultStatus : BitVec 32 := 0
  /-- RTM_ABORT_STATUS of an abort by an external event. -/
  rtmAsyncStatus : BitVec 32 := 0
  /-- RTM_ABORT_STATUS of an abort by a debug breakpoint or a single step. -/
  rtmDebugStatus : BitVec 32 := 0
  /-- The microcode update signature CPUID puts into IA32_BIOS_SIGN_ID (spec/43_c_cmps-crc32.md rule R574). -/
  microcode : BitVec 32 := 0
deriving DecidableEq, Repr

/-- The row of the table for a leaf and subleaf; the subleaf matters only where the table lists several. -/
def Params.row? (p : Params) (leaf sub : BitVec 32) : Option CpuidRow :=
  p.cpuid.find? (fun r => r.leaf == leaf && r.sub == sub)

/-- One register of a row. -/
def CpuidRow.reg (r : CpuidRow) : CpuidReg → BitVec 32
  | .eax => r.eax | .ebx => r.ebx | .ecx => r.ecx | .edx => r.edx

/-- Does the processor report the feature (rule R2)? -/
def Params.has (p : Params) (f : Feature) : Bool :=
  match p.row? f.place.1 f.place.2.1 with
  | some r => (r.reg f.place.2.2.1).getLsbD f.place.2.2.2
  | none => false

/-- The entry of MSR_IMPLEMENTED for an address. -/
def Params.msr? (p : Params) (a : BitVec 32) : Option MsrSpec := p.msrs.find? (fun m => m.addr == a)

/-- The value an MSR has after reset: 0 except as MSR_IMPLEMENTED states (spec/10_state.md rule R100). -/
def Params.msrInit (p : Params) (a : BitVec 32) : BitVec 64 :=
  match p.msr? a with
  | some m => m.init
  | none => 0

/-- MAXPHYADDR = CPUID.80000008H:EAX[7:0] (rule R20). A table without that leaf gives 36: the spec leaves the case open.
DESIGN CHOICE, log entry 3. -/
def Params.maxPhyAddr (p : Params) : Nat :=
  match p.row? 0x80000008 0 with
  | some r => (r.eax.extractLsb' 0 8).toNat
  | none => 36

/-- CPUID.01H:EAX, the processor signature that RDX holds after reset (rule R190). A table without that leaf gives 0: the spec
leaves the case open. DESIGN CHOICE, log entry 3. -/
def Params.signature (p : Params) : BitVec 32 :=
  match p.row? 1 0 with
  | some r => r.eax
  | none => 0

/-- MONITOR_LINE_SIZE = CPUID.05H:EBX[15:0] (rule R20, decision D33). A table without that leaf gives 64: the spec leaves the case
open. DESIGN CHOICE, log entry 3. -/
def Params.monitorLine (p : Params) : Nat :=
  match p.row? 5 0 with
  | some r => (r.ebx.extractLsb' 0 16).toNat
  | none => 64

/-- The x87 functions whose results the spec leaves open (rule R20, X87_TRANSCENDENTAL). -/
inductive X87Fn where
  | f2xm1 | fsin | fcos | fsincosSin | fsincosCos | fptan | fpatan | fyl2x | fyl2xp1
deriving DecidableEq, Repr

end Sys2Proof.Config

namespace Sys2Proof

/-- The k-th free value of width w: an undefined flag or result, a port's or the random source's answer
(rule R61, R103, R270; spec/93_implementation_defined.md treatment "any value"). No body: nothing is known of it.
Log entry 1. -/
opaque Config.freeBits (w : Nat) : Nat → BitVec w

/-- The amount, less one, by which the time-stamp counter grew before the k-th reading (rule R101, D50). Log entry 4. -/
opaque Config.tscStep : Nat → Nat

/-- The count RDPMC reads at the k-th free draw for an index (rule R102, D48). Log entry 5. -/
opaque Config.pmcRead : Nat → BitVec 32 → BitVec 64

/-- RCP_APPROX on ordinary operands (rule R20, D46). Log entry 6. -/
opaque Config.rcpApprox : BitVec 32 → BitVec 32

/-- RSQRT_APPROX on ordinary operands (rule R20, D46). Log entry 6. -/
opaque Config.rsqrtApprox : BitVec 32 → BitVec 32

/-- The value of an x87 transcendental function on ordinary operands, by function, ST(0), ST(1) and the rounding control (rule
R20, U8), before the limits of the exponent range: its sign, a 64-bit significand, the exponent of that significand's last bit,
and whether it was rounded up. Log entry 7. -/
opaque Config.x87Transcendental : Config.X87Fn → BitVec 80 → BitVec 80 → BitVec 2 → Bool × BitVec 64 × Int × Bool

/-- FPREM_N less 32: a number 0 to 31 (rule R20: FPREM_N in 32 to 63, OPEN). Log entry 8. -/
opaque Config.fpremExtra : Fin 32

/-- One less than the significand bits the reserved precision-control code 01 selects (spec/10_state.md rule R122). Log entry 33. -/
opaque Config.reservedPrecision : Fin 64

end Sys2Proof
end

