-- ==== Sys2Proof/Machine/State.lean ====
section
/-! DEFINITION. The state of one logical processor with its memory (spec/10_state.md rules R50 to R166,
spec/20_memory.md rule R200), the reasons a step can stop, and the state after RESET# (rule R190). All of it is
plain data. A field marked "the model's own" is not the spec's; INVENTORY.md lists every field. -/

namespace Sys2Proof.Machine

/-- Why a step of the machine stops for good. -/
inductive Fault where
  /-- Raised by event delivery when an #AC raised by the pushes of a handler's own frame repeats without end (rules
  R2029, R2030). Safe: the spec describes no next state. -/
  | alignmentCheckLoop
deriving DecidableEq, Repr

/-- Why the model declines to go on. -/
inductive Refusal where
  /-- Raised by the arm of an instruction that has no meaning yet. Safe. -/
  | notModelled (mnemonic : String)
  /-- Raised by CALL, JMP, IRET, INT and event delivery at a task switch, which no document defines (rule R2024,
  decision D20: "stops with the condition task switch requested"). Safe. -/
  | taskSwitchRequested
  /-- Raised by the compare instructions when a reserved bit of the predicate is 1 (U4: "DEFAULT: Reserved", treatment
  refuse). Safe. -/
  | reservedPredicate
  /-- Raised by POP to memory addressed through ESP when ESP wraps to 0 on a 16-bit stack (U17, treatment refuse). Safe. -/
  | popEspWrap
deriving DecidableEq, Repr

/-- The flags of RFLAGS (rule R60). Bit 1 reads 1 and the other reserved bits read 0, so they are no data. -/
structure Flags where
  cf : Bool := false
  pf : Bool := false
  af : Bool := false
  zf : Bool := false
  sf : Bool := false
  tf : Bool := false
  ifl : Bool := false
  df : Bool := false
  of : Bool := false
  iopl : BitVec 2 := 0
  nt : Bool := false
  rf : Bool := false
  vm : Bool := false
  ac : Bool := false
  vif : Bool := false
  vip : Bool := false
  id : Bool := false
deriving DecidableEq, Repr

/-- A segment register: the visible selector and the descriptor cache (rule R55). `valid` is the descriptor valid
bit that loading a NULL selector clears (rules R2045, R2047). -/
structure SegCache where
  sel : BitVec 16
  base : Word
  limit : BitVec 32
  typ : BitVec 4
  s : Bool
  dpl : BitVec 2
  p : Bool
  avl : Bool
  l : Bool
  db : Bool
  g : Bool
  valid : Bool
deriving DecidableEq, Repr

/-- GDTR or IDTR (rule R57). -/
structure TableReg where
  base : Word
  limit : BitVec 16
deriving DecidableEq, Repr

/-- Control, debug, table and protection-key registers (rules R57, R58, R80 to R87, R95). `pdpte` holds the four PAE
page-directory pointers loaded with CR3 (spec/20_memory.md rule R241). -/
structure Sys where
  gdtr : TableReg
  idtr : TableReg
  ldtr : SegCache
  tr : SegCache
  cr0 : Word
  cr2 : Word
  cr3 : Word
  cr4 : Word
  cr8 : Word
  xcr0 : Word
  pkru : BitVec 32
  dr0 : Word
  dr1 : Word
  dr2 : Word
  dr3 : Word
  dr6 : Word
  dr7 : Word
  pdpte : Vector Word 4
deriving DecidableEq, Repr

/-- The model-specific registers of rule R100; IA32_FS_BASE and IA32_GS_BASE are the bases of FS and GS. `other` holds the values
written to the registers that MSR_IMPLEMENTED names beside them, by address; one not listed holds its value after reset. -/
structure Msrs where
  tsc : Word
  sysenterCs : Word
  sysenterEsp : Word
  sysenterEip : Word
  dsArea : Word
  tscDeadline : Word
  x2apic : Vector Word 62
  xss : Word
  efer : Word
  star : Word
  lstar : Word
  cstar : Word
  fmask : Word
  kernelGsBase : Word
  tscAux : Word
  miscEnable : Word
  biosSignId : Word
  other : List (BitVec 32 × Word)
deriving DecidableEq, Repr

/-- The x87 status word less ES and B, which are computed from the flags and masks (rule R121). -/
structure Fsw where
  ie : Bool := false
  de : Bool := false
  ze : Bool := false
  oe : Bool := false
  ue : Bool := false
  pe : Bool := false
  sf : Bool := false
  c0 : Bool := false
  c1 : Bool := false
  c2 : Bool := false
  c3 : Bool := false
  top : Fin 8 := 0
deriving DecidableEq, Repr

/-- The x87 unit (rules R120 to R124); MM0 to MM7 are bits 63:0 of `fpr` (rule R128). `fpr` and `ftw` go by physical
register number. -/
structure Fpu where
  fpr : Vector (BitVec 80) 8
  fcw : BitVec 16
  fsw : Fsw
  ftw : BitVec 16
  fip : Word
  fcs : BitVec 16
  fdp : Word
  fds : BitVec 16
  fop : BitVec 11
deriving DecidableEq, Repr

/-- Why interrupts are held back for one instruction (rule R163). -/
inductive Inhibit where
  | none | sti | movSs
deriving DecidableEq, Repr

/-- Running, waiting and blocking flags (rules R160 to R163) and the debug conditions met by the last instruction
(rules R11 item 3, R2081): bits 0 to 3 are B0 to B3, bit 14 is BS, as in DR6. `afterMovSs` says that the last instruction was MOV SS
or POP SS, whether or not it opened a window (rule R2081 (b)). `repEntry` holds the flags at which a repeated
string instruction under way was entered (spec/55_r_rcl-rsqrtss.md rule R998, decision D51). -/
structure Activity where
  halted : Bool := false
  shutdown : Bool := false
  nmiBlocked : Bool := false
  monitorArmed : Bool := false
  monitorLow : Nat := 0
  monitorSize : Nat := 0
  mwaitWaiting : Bool := false
  mwaitMaskedBreak : Bool := false
  inhibit : Inhibit := .none
  afterMovSs : Bool := false
  pendingDb : BitVec 16 := 0
  repEntry : Option Flags := none
deriving DecidableEq, Repr

/-- Memory: the bytes that differ from what an unlisted address reads as, addresses strictly rising
(spec/20_memory.md rule R200). -/
abbrev Memory := List Host.Cell

/-- What an outermost XBEGIN saves and an abort restores (rule R164, spec/59_w_wait-xtest.md rule R1196): the registers, and
memory so that the writes of the region are discarded. -/
structure RtmSnapshot where
  gpr : Vector Word 16
  flags : Flags
  seg : Vector SegCache 6
  cpl : BitVec 2
  sys : Sys
  msr : Msrs
  mxcsr : BitVec 32
  ymm : Vector (BitVec 256) 16
  fpu : Fpu
  mem : Memory
deriving DecidableEq, Repr

/-- Transactional state (rule R164): RTM_ACTIVE is `snapshot` being present. -/
structure Rtm where
  nest : Nat := 0
  fallback : Word := 0
  snapshot : Option RtmSnapshot := none
deriving DecidableEq, Repr

/-- XRSTOR_INFO, the record XRSTOR and XRSTORS make for the modified optimisation of XSAVEOPT and XSAVES, which is never applied
(spec/59_w_wait-xtest.md rule R1204, decision D64): CPL, VMX non-root operation, the linear address of the area and the
compaction mask. -/
structure XrstorInfo where
  cpl : BitVec 2 := 0
  vmxnr : Bool := false
  laxa : Word := 0
  compmask : Word := 0
deriving DecidableEq, Repr

/-- External events the host presents at an instruction boundary (spec/60_exceptions.md rule R2070), with another agent's
store to the monitored range or a wake-up of MWAIT for no visible reason (`wake`: rule R162, decision D41), and, each with the
status bits the host chose, an abort of a transaction it asks for and the failure of the next commit
(spec/59_w_wait-xtest.md rules R1196 (c), R1198). -/
structure Pins where
  reset : Bool := false
  init : Bool := false
  smi : Bool := false
  nmi : Bool := false
  intr : Option (BitVec 8) := none
  wake : Bool := false
  rtmAbort : Option (BitVec 32) := none
  rtmCommitFail : Option (BitVec 32) := none
deriving DecidableEq, Repr

/-- One access to the port space (spec/20_memory.md rule R270), kept in the order performed. -/
inductive IoEvent where
  | read (port : BitVec 16) (bytes : Nat) (value : BitVec 32)
  | write (port : BitVec 16) (bytes : Nat) (value : BitVec 32)
deriving DecidableEq, Repr

/-- The whole state. `cfg`, `ripNext`, `fopNext`, `io` and `free` are the model's own: the constant parameters of rule R20,
the value rip_next of rule R54 and the opcode bits of rule R124 for the instruction being executed, the port accesses
handed to the host (latest first), and the number of free values drawn so far. -/
structure State where
  cfg : Config.Params
  gpr : Vector Word 16
  rip : Word
  ripNext : Word
  fopNext : BitVec 11
  flags : Flags
  seg : Vector SegCache 6
  cpl : BitVec 2
  sys : Sys
  msr : Msrs
  mxcsr : BitVec 32
  ymm : Vector (BitVec 256) 16
  fpu : Fpu
  xrstor : XrstorInfo
  act : Activity
  rtm : Rtm
  mem : Memory
  pins : Pins
  io : List IoEvent
  free : Nat
deriving DecidableEq, Repr

/-- A data segment after reset (rule R190): present, read/write, accessed, 16-bit. -/
def SegCache.resetData : SegCache :=
  { sel := 0, base := 0, limit := 0xFFFF, typ := 3, s := true, dpl := 0, p := true, avl := false, l := false,
    db := false, g := false, valid := true }

/-- CS after reset (rule R190). -/
def SegCache.resetCode : SegCache :=
  { SegCache.resetData with sel := 0xF000, base := 0xFFFF0000 }

/-- LDTR (type 2, not usable: spec/70_reset_and_hazards.md rule R2202 (f)) or TR (type 3, busy 16-bit TSS) after reset
(rule R190). -/
def SegCache.resetSystem (typ : BitVec 4) (valid : Bool) : SegCache :=
  { SegCache.resetData with s := false, typ := typ, valid := valid }

/-- The control, debug and table registers after reset (rule R190). -/
def Sys.reset : Sys :=
  { gdtr := { base := 0, limit := 0xFFFF }, idtr := { base := 0, limit := 0xFFFF },
    ldtr := .resetSystem 2 false, tr := .resetSystem 3 true,
    cr0 := 0x60000010, cr2 := 0, cr3 := 0, cr4 := 0, cr8 := 0, xcr0 := 1, pkru := 0,
    dr0 := 0, dr1 := 0, dr2 := 0, dr3 := 0, dr6 := 0xFFFF0FF0, dr7 := 0x400,
    pdpte := Vector.replicate 4 0 }

/-- The model-specific registers after reset (rules R100, R190): 0 except as MSR_IMPLEMENTED states. -/
def Msrs.resetWith (cfg : Config.Params) : Msrs :=
  { tsc := 0, sysenterCs := cfg.msrInit 0x174, sysenterEsp := cfg.msrInit 0x175, sysenterEip := cfg.msrInit 0x176,
    dsArea := cfg.msrInit 0x600, tscDeadline := cfg.msrInit 0x6E0, x2apic := Vector.replicate 62 0, xss := 0, efer := 0,
    star := cfg.msrInit 0xC0000081, lstar := cfg.msrInit 0xC0000082, cstar := cfg.msrInit 0xC0000083,
    fmask := cfg.msrInit 0xC0000084, kernelGsBase := cfg.msrInit 0xC0000102, tscAux := cfg.msrInit 0xC0000103,
    miscEnable := cfg.msrInit 0x1A0 &&& ~~~(0x400000 : Word), biosSignId := 0, other := [] }

/-- The x87 unit after reset (rule R190). -/
def Fpu.reset : Fpu :=
  { fpr := Vector.replicate 8 0, fcw := 0x40, fsw := {}, ftw := 0x5555, fip := 0, fcs := 0, fdp := 0, fds := 0, fop := 0 }

/-- The state after RESET# of a processor with the given parameters; memory and ports are not touched
(spec/70_reset_and_hazards.md rule R2200). -/
def State.resetWith (cfg : Config.Params) (mem : Memory) (io : List IoEvent) (free : Nat) : State :=
  { cfg := cfg
    gpr := (Vector.replicate 16 (0 : Word)).set 2 (cfg.signature.setWidth 64)
    rip := 0xFFF0
    ripNext := 0xFFF0
    fopNext := 0
    flags := {}
    seg := (Vector.replicate 6 SegCache.resetData).set 1 SegCache.resetCode
    cpl := 0
    sys := .reset
    msr := .resetWith cfg
    mxcsr := 0x1F80
    ymm := Vector.replicate 16 0
    fpu := .reset
    xrstor := {}
    act := {}
    rtm := {}
    mem := mem
    pins := {}
    io := io
    free := free }

/-- The machine right after reset, with the parameters of `Config.Params`'s defaults and nothing listed in memory. -/
def State.reset : State := State.resetWith {} [] [] 0

end Sys2Proof.Machine
end

