-- ==== Sys2Proof/Machine/Base.lean ====
section
/-! DEFINITION. The monad an instruction runs in, the operating mode (spec/10_state.md rule R90), general registers
(R51, R52), the flags image (R60) and the control bits the other files test. -/

namespace Sys2Proof

/-- The low bits of a value that an address size keeps (rule R211). -/
def ASize.trunc (a : ASize) (v : Word) : Word :=
  match a with
  | .a16 => (v.setWidth 16).setWidth 64
  | .a32 => (v.setWidth 32).setWidth 64
  | .a64 => v

end Sys2Proof

namespace Sys2Proof.Machine

/-- A processor exception an instruction raises (spec/60_exceptions.md rule R2001). `code` is its error code, `cr2` the
address a page fault reports, `dr6` the conditions a debug exception reports; `keep` says that the state at the raise is
kept but for rIP (gathers, decision D59). -/
structure Exc where
  vec : BitVec 8
  code : Option (BitVec 32) := none
  cr2 : Option Word := none
  dr6 : BitVec 16 := 0
  keep : Bool := false
deriving DecidableEq, Repr

/-- Why an instruction's meaning ends early. -/
inductive Stop where
  | exc (e : Exc)
  | fault (f : Fault)
  | refuse (r : Refusal)
deriving DecidableEq, Repr

/-- A meaning under way: it reads and writes the state, or stops. -/
abbrev M := EStateM Stop State

/-- Raise an exception. -/
def raise {α : Type} (e : Exc) : M α := throw (.exc e)

/-- #UD (rule R2010). -/
def raiseUD {α : Type} : M α := raise { vec := 6 }
/-- #NM (rule R2011). -/
def raiseNM {α : Type} : M α := raise { vec := 7 }
/-- #DE. -/
def raiseDE {α : Type} : M α := raise { vec := 0 }
/-- #GP with an error code. -/
def raiseGP {α : Type} (code : BitVec 32 := 0) : M α := raise { vec := 13, code := some code }
/-- #SS with an error code. -/
def raiseSS {α : Type} (code : BitVec 32 := 0) : M α := raise { vec := 12, code := some code }
/-- #NP with an error code. -/
def raiseNP {α : Type} (code : BitVec 32) : M α := raise { vec := 11, code := some code }
/-- #TS with an error code. -/
def raiseTS {α : Type} (code : BitVec 32) : M α := raise { vec := 10, code := some code }
/-- #AC (rule R2015). -/
def raiseAC {α : Type} (code : BitVec 32 := 0) : M α := raise { vec := 17, code := some code }
/-- #MF (rule R2016). -/
def raiseMF {α : Type} : M α := raise { vec := 16 }
/-- #XM, or #UD when CR4.OSXMMEXCPT = 0 is decided by the caller (rule R2019). -/
def raiseXM {α : Type} : M α := raise { vec := 19 }

/-- Raise the exception unless the condition holds. -/
def ensure (c : Bool) (otherwise : M Unit) : M Unit := if c then pure () else otherwise

/-- The operating modes (rule R90). -/
inductive Mode where
  | real | v86 | prot | compat | long
deriving DecidableEq, Repr

namespace State

/-- CR0.PE. -/
def pe (s : State) : Bool := s.sys.cr0.getLsbD 0
/-- CR0.PG. -/
def pg (s : State) : Bool := s.sys.cr0.getLsbD 31
/-- IA32_EFER.LMA. -/
def lma (s : State) : Bool := s.msr.efer.getLsbD 10
/-- A bit of CR0. -/
def cr0Bit (s : State) (i : Nat) : Bool := s.sys.cr0.getLsbD i
/-- A bit of CR4. -/
def cr4Bit (s : State) (i : Nat) : Bool := s.sys.cr4.getLsbD i
/-- The contents of a segment register. -/
def segOf (s : State) (r : SReg) : SegCache := s.seg.get r.num

/-- The operating mode (rule R90). -/
def mode (s : State) : Mode :=
  if !s.pe then .real
  else if s.lma then (if (s.segOf .cs).l then .long else .compat)
  else if s.flags.vm then .v86 else .prot

/-- 64-bit mode. -/
def isLong (s : State) : Bool := decide (s.mode = .long)
/-- Real-address or virtual-8086 mode. -/
def isLegacySeg (s : State) : Bool := decide (s.mode = .real ∨ s.mode = .v86)
/-- Does CPUID report the feature (rule R2)? -/
def has (s : State) (f : Config.Feature) : Bool := s.cfg.has f

/-- The 64 bits of a general register. -/
def gp (s : State) (r : Reg) : Word := s.gpr.get r
/-- Write the 64 bits of a general register. -/
def setGp (s : State) (r : Reg) (v : Word) : State := { s with gpr := s.gpr.set r v }
/-- Write a segment register. -/
def setSeg (s : State) (r : SReg) (c : SegCache) : State := { s with seg := s.seg.set r.num c }

end State

/-- The low n bits of `old` replaced by `v`. -/
def mergeLow {n : Nat} (old : Word) (v : BitVec n) : Word :=
  ((old >>> n) <<< n) ||| v.setWidth 64

/-- The value a register of width w holds after a write of v over `old` (rule R52): 8- and 16-bit writes keep the other
bits, a 32-bit write zero-extends in 64-bit mode and keeps bits 63:32 elsewhere (log entry 9). -/
def regWrite (long : Bool) (w : Width) (old : Word) (v : BitVec w.bits) : Word :=
  match w with
  | .w32 => if long then v.setWidth 64 else mergeLow old v
  | _ => mergeLow old v

/-- Read a general register at a width (rule R51). -/
def readReg (w : Width) (r : Reg) : M (BitVec w.bits) := do return ((← get).gp r).setWidth w.bits

/-- Write a general register at a width (rule R52). -/
def writeReg (w : Width) (r : Reg) (v : BitVec w.bits) : M Unit :=
  modify fun s => s.setGp r (regWrite s.isLong w (s.gp r) v)

/-- RAX, RCX, RDX, RBX, RSP, RBP, RSI, RDI by number (rule R51). -/
abbrev rAX : Reg := 0
/-- Number of RCX. -/
abbrev rCX : Reg := 1
/-- Number of RDX. -/
abbrev rDX : Reg := 2
/-- Number of RBX. -/
abbrev rBX : Reg := 3
/-- Number of RSP. -/
abbrev rSP : Reg := 4
/-- Number of RBP. -/
abbrev rBP : Reg := 5
/-- Number of RSI. -/
abbrev rSI : Reg := 6
/-- Number of RDI. -/
abbrev rDI : Reg := 7

/-- A free value of width w; the counter moves on (rules R61, R103; log entry 1). -/
def freeValue (w : Nat) : M (BitVec w) := do
  let s ← get
  set { s with free := s.free + 1 }
  return Config.freeBits w s.free

/-- A free bit. -/
def freeBit : M Bool := do return (← freeValue 1).getLsbD 0

/-- The image of RFLAGS (rule R60): bit 1 is 1, the other reserved bits are 0. -/
def Flags.image (f : Flags) : Word :=
  let b (v : Bool) (i : Nat) : Word := if v then (1 : Word) <<< i else 0
  b f.cf 0 ||| 2 ||| b f.pf 2 ||| b f.af 4 ||| b f.zf 6 ||| b f.sf 7 ||| b f.tf 8 ||| b f.ifl 9 ||| b f.df 10 |||
  b f.of 11 ||| (f.iopl.setWidth 64 <<< 12) ||| b f.nt 14 ||| b f.rf 16 ||| b f.vm 17 ||| b f.ac 18 ||| b f.vif 19 |||
  b f.vip 20 ||| b f.id 21

/-- The flags of an image (rule R60): values in reserved bits are ignored. -/
def Flags.ofImage (v : Word) : Flags :=
  { cf := v.getLsbD 0, pf := v.getLsbD 2, af := v.getLsbD 4, zf := v.getLsbD 6, sf := v.getLsbD 7, tf := v.getLsbD 8,
    ifl := v.getLsbD 9, df := v.getLsbD 10, of := v.getLsbD 11, iopl := v.extractLsb' 12 2, nt := v.getLsbD 14,
    rf := v.getLsbD 16, vm := v.getLsbD 17, ac := v.getLsbD 18, vif := v.getLsbD 19, vip := v.getLsbD 20, id := v.getLsbD 21 }

/-- The flags whose image is `new` where `mask` has a 1 and `old` elsewhere. -/
def Flags.load (old : Flags) (mask new : Word) : Flags :=
  Flags.ofImage ((old.image &&& ~~~mask) ||| (new &&& mask))

/-- A 64-bit address is the sign extension of its low 48 bits (spec/20_memory.md rule R216). -/
def canonical (a : Word) : Bool := decide ((a.setWidth 48).signExtend 64 = a)

/-- Read a register at an address size, zero-extended. -/
def readAddr (a : ASize) (r : Reg) : M Word := do return ASize.trunc a ((← get).gp r)

/-- Write a register at an address size (rule R52). -/
def writeAddr (a : ASize) (r : Reg) (v : Word) : M Unit := writeReg a.width r (v.setWidth a.width.bits)

/-- The status word of the x87 unit less ES and B (rule R121). -/
def Fsw.flags6 (w : Fsw) : BitVec 6 :=
  let b (v : Bool) (i : Nat) : BitVec 6 := if v then (1 : BitVec 6) <<< i else 0
  b w.ie 0 ||| b w.de 1 ||| b w.ze 2 ||| b w.oe 3 ||| b w.ue 4 ||| b w.pe 5

/-- ES: an exception flag is set whose mask is 0 (rule R121). -/
def Fpu.es (f : Fpu) : Bool := decide (f.fsw.flags6 &&& ~~~(f.fcw.setWidth 6) ≠ 0)

end Sys2Proof.Machine
end

