-- ==== Sys2Proof/Machine/Flags.lean ====
section
/-! DEFINITION. The computations of the status flags (spec/10_state.md rules R60, R61, R70 to R73) and the conditions tested on
them (spec/49_j_jcc-lzcnt.md rule R722). -/

namespace Sys2Proof.Machine

/-- PF: the number of 1 bits of the low byte is even (rule R70). -/
def evenParity (b : BitVec 8) : Bool :=
  !(b.getLsbD 0 ^^ b.getLsbD 1 ^^ b.getLsbD 2 ^^ b.getLsbD 3 ^^ b.getLsbD 4 ^^ b.getLsbD 5 ^^ b.getLsbD 6 ^^ b.getLsbD 7)

/-- SZP(n, r) (rule R70). -/
def Flags.szp {n : Nat} (f : Flags) (r : BitVec n) : Flags :=
  { f with sf := r.msb, zf := decide (r = 0), pf := evenParity (r.setWidth 8) }

/-- The sum of rule R71. -/
def addWith {n : Nat} (a b : BitVec n) (cin : Bool) : BitVec n := a + b + BitVec.ofNat n cin.toNat

/-- flags_add(n, a, b, cin) (rule R71). -/
def Flags.add {n : Nat} (f : Flags) (a b : BitVec n) (cin : Bool) : Flags :=
  let r := addWith a b cin
  { f.szp r with
    cf := decide (2 ^ n ≤ a.toNat + b.toNat + cin.toNat)
    of := decide (a.msb = b.msb) && decide (r.msb ≠ a.msb)
    af := decide (16 ≤ a.toNat % 16 + b.toNat % 16 + cin.toNat) }

/-- The difference of rule R72. -/
def subWith {n : Nat} (a b : BitVec n) (bin : Bool) : BitVec n := a - b - BitVec.ofNat n bin.toNat

/-- flags_sub(n, a, b, bin) (rule R72). -/
def Flags.sub {n : Nat} (f : Flags) (a b : BitVec n) (bin : Bool) : Flags :=
  let r := subWith a b bin
  { f.szp r with
    cf := decide (a.toNat < b.toNat + bin.toNat)
    of := decide (a.msb ≠ b.msb) && decide (r.msb ≠ a.msb)
    af := decide (a.toNat % 16 < b.toNat % 16 + bin.toNat) }

/-- flags_logic(n, r) (rule R73); AF is the undefined value `af`. -/
def Flags.logic {n : Nat} (f : Flags) (r : BitVec n) (af : Bool) : Flags :=
  { f.szp r with cf := false, of := false, af := af }

/-- The six status flags of `g`, the other flags of `f` (rule R61). -/
def Flags.withStatus (f g : Flags) : Flags :=
  { f with cf := g.cf, pf := g.pf, af := g.af, zf := g.zf, sf := g.sf, of := g.of }

/-- The sixteen conditions in the order of their codes (rules R61, R722). -/
inductive Cond where
  | o | no | b | ae | e | ne | be | a | s | ns | p | np | l | ge | le | g
deriving DecidableEq, Repr

/-- Does the condition hold (rule R722)? -/
def Flags.holds (f : Flags) : Cond → Bool
  | .o => f.of
  | .no => !f.of
  | .b => f.cf
  | .ae => !f.cf
  | .e => f.zf
  | .ne => !f.zf
  | .be => f.cf || f.zf
  | .a => !f.cf && !f.zf
  | .s => f.sf
  | .ns => !f.sf
  | .p => f.pf
  | .np => !f.pf
  | .l => f.sf != f.of
  | .ge => f.sf == f.of
  | .le => f.zf || f.sf != f.of
  | .g => !f.zf && f.sf == f.of

/-- Change the flags. -/
def modifyFlags (g : Flags → Flags) : M Unit := modify fun s => { s with flags := g s.flags }

/-- Set the flags of a logic result; AF is undefined (rule R73). -/
def setLogic {n : Nat} (r : BitVec n) : M Unit := do
  let af ← freeBit
  modifyFlags fun f => f.logic r af

/-- Six undefined status flags, drawn in the order CF, PF, AF, ZF, SF, OF (rule R61); every other flag is `f`'s. -/
def undefStatus (f : Flags) : M Flags := do
  let cf ← freeBit
  let pf ← freeBit
  let af ← freeBit
  let zf ← freeBit
  let sf ← freeBit
  let of ← freeBit
  return { f with cf := cf, pf := pf, af := af, zf := zf, sf := sf, of := of }

end Sys2Proof.Machine
end

