-- ==== Sys2Proof/Machine/Memory.lean ====
section
/-! DEFINITION. Physical memory, paging, segmentation and the checked access to memory operands (spec/20_memory.md
rules R200 to R251). -/

namespace Sys2Proof.Machine

/-- What a byte of memory that is not listed reads as: the spec leaves the contents after reset to the platform (R190).
DESIGN CHOICE, unsafe, log entry 2. -/
def Memory.unlisted : Byte := 0

/-- Read one byte at a physical address. -/
def Memory.read : Memory → Nat → Byte
  | [], _ => Memory.unlisted
  | c :: t, a => if c.1 = a then c.2 else Memory.read t a

/-- Write one byte, keeping the canonical form: addresses strictly rising, no byte equal to an unlisted one. -/
def Memory.write : Memory → Nat → Byte → Memory
  | [], a, b => if b = Memory.unlisted then [] else [(a, b)]
  | c :: t, a, b =>
    if a < c.1 then (if b = Memory.unlisted then c :: t else (a, b) :: c :: t)
    else if a = c.1 then (if b = Memory.unlisted then t else (a, b) :: t)
    else c :: Memory.write t a b

/-- All addresses of the list are above `lo`. -/
def Memory.above (lo : Nat) : Memory → Bool
  | [] => true
  | c :: _ => decide (lo < c.1)

/-- The canonical form. -/
def Memory.wf : Memory → Bool
  | [] => true
  | c :: t => decide (c.2 ≠ Memory.unlisted) && Memory.above c.1 t && Memory.wf t

/-- The little-endian value of the bytes at the listed addresses, the first the least significant (rule R201). -/
def Memory.readList (m : Memory) : List Nat → Nat
  | [] => 0
  | a :: as => (m.read a).toNat + 256 * m.readList as

/-- Write a value little-endian to the listed addresses. -/
def Memory.writeList (m : Memory) : List Nat → Nat → Memory
  | [], _ => m
  | a :: as, v => (m.write a (BitVec.ofNat 8 v)).writeList as (v / 256)

/-- The n addresses from a on. -/
def addrRange (a n : Nat) : List Nat := List.range' a n

/-- PhysRead (rule R200): the value of the bytes at the listed physical addresses. -/
def physRead (as : List Nat) : M Nat := do return (← get).mem.readList as

/-- Does one of the addresses lie in the range MONITOR armed (spec/10_state.md rule R162)? -/
def Activity.watches (a : Activity) (as : List Nat) : Bool :=
  a.monitorArmed && as.any (fun x => decide (a.monitorLow ≤ x ∧ x < a.monitorLow + a.monitorSize))

/-- A store to the listed addresses disarms the monitor if one of them is monitored (spec/10_state.md rule R162). -/
def Activity.stored (a : Activity) (as : List Nat) : Activity :=
  { a with monitorArmed := a.monitorArmed && !a.watches as }

/-- PhysWrite (rule R200), total: a store to the monitored range disarms the monitor (spec/10_state.md rule R162). -/
def State.physWrite (s : State) (as : List Nat) (v : Nat) : State :=
  { s with mem := s.mem.writeList as v, act := s.act.stored as }

/-- PhysWrite as a step of a meaning. -/
def physWrite (as : List Nat) (v : Nat) : M Unit := modify fun s => s.physWrite as v

/-! Paging. -/

/-- The kinds of access of rule R203; a read-modify-write operand is checked as a write (rule R203). -/
inductive Kind where
  | read | write | exec
deriving DecidableEq, Repr

/-- Is the access a write? -/
def Kind.isWrite : Kind → Bool
  | .write => true
  | _ => false

/-- Is the access an instruction fetch? -/
def Kind.isExec : Kind → Bool
  | .exec => true
  | _ => false

/-- The paging modes of rule R241. -/
inductive Paging where
  | off | bits32 | pae | level4
deriving DecidableEq, Repr

/-- The paging mode in force (rules R240, R241). -/
def State.paging (s : State) : Paging :=
  if !s.pg then .off
  else if !s.cr4Bit 5 then .bits32
  else if s.msr.efer.getLsbD 8 then .level4 else .pae

/-- One level of a walk: the position and width of its index in the linear address, whether an entry with PS = 1 maps a
page, and the reserved bits of an entry that points to a table and of one that maps a page (rules R241, R242). -/
structure Level where
  shift : Nat
  width : Nat
  large : Bool
  tableRsv : Word
  pageRsv : Word
deriving DecidableEq, Repr

/-- Bits hi to lo set. -/
def bitsMask (hi lo : Nat) : Word := BitVec.ofNat 64 (2 ^ (hi + 1) - 2 ^ lo)

/-- Reserved bits of an 8-byte entry: MAXPHYADDR to 51, and XD unless IA32_EFER.NXE (rule R242). -/
def State.rsv8 (s : State) : Word :=
  (if s.cfg.maxPhyAddr < 52 then bitsMask 51 s.cfg.maxPhyAddr else 0) ||| (if s.msr.efer.getLsbD 11 then 0 else bitsMask 63 63)

/-- Reserved bits of a 4-MByte page-directory entry: with PSE-36 bits 20:13 give bits 39:32 of the address (rule R241). -/
def State.rsvBig32 (s : State) : Word :=
  if s.has .pse36 then
    bitsMask 21 21 ||| (if s.cfg.maxPhyAddr < 40 then bitsMask 20 (s.cfg.maxPhyAddr - 19) else 0)
  else bitsMask 21 13

/-- The levels of the walk below the top table (rule R241). A PS bit that maps no page is reserved where the feature it
needs is absent, and ignored in a page-directory entry with CR4.PSE = 0 and in a PML4 entry, for which rules R241 and R242 name
neither a page size nor a reserved bit 7 (DEDUCED, log entry 10). -/
def State.levels (s : State) : Paging → List Level
  | .off => []
  | .bits32 =>
    [ { shift := 22, width := 10, large := s.cr4Bit 4, tableRsv := 0, pageRsv := s.rsvBig32 },
      { shift := 12, width := 10, large := false, tableRsv := 0, pageRsv := 0 } ]
  | .pae =>
    [ { shift := 21, width := 9, large := true, tableRsv := s.rsv8, pageRsv := s.rsv8 ||| bitsMask 20 13 },
      { shift := 12, width := 9, large := false, tableRsv := s.rsv8, pageRsv := s.rsv8 } ]
  | .level4 =>
    [ { shift := 39, width := 9, large := false, tableRsv := s.rsv8, pageRsv := s.rsv8 },
      { shift := 30, width := 9, large := s.has .page1gb,
        tableRsv := s.rsv8 ||| (if s.has .page1gb then 0 else bitsMask 7 7), pageRsv := s.rsv8 ||| bitsMask 29 13 },
      { shift := 21, width := 9, large := true, tableRsv := s.rsv8, pageRsv := s.rsv8 ||| bitsMask 20 13 },
      { shift := 12, width := 9, large := false, tableRsv := s.rsv8, pageRsv := s.rsv8 } ]

/-- What a walk gathers on its way: permissions (rule R243) and the addresses of the entries used, the last first. -/
structure Trail where
  writable : Bool := true
  user : Bool := true
  nx : Bool := false
  entries : List Nat := []
deriving DecidableEq, Repr

/-- The end of a walk (rule R243). -/
inductive Walk where
  | notPresent
  | reserved
  | page (pa : Nat) (pkey : Nat) (t : Trail)
deriving DecidableEq, Repr

/-- The physical address an entry gives: bits MAXPHYADDR-1:12 (rule R241). -/
def frameOf (maxPhy : Nat) (e : Word) : Nat := e.toNat % 2 ^ maxPhy / 4096 * 4096

/-- The physical address of a byte in the page that an entry maps at a level with 2^shift bytes below it. -/
def pageAddr (maxPhy : Nat) (p32 : Bool) (shift : Nat) (e lin : Word) : Nat :=
  let base := frameOf maxPhy e / 2 ^ shift * 2 ^ shift
  let high := if p32 && decide (shift = 22) then (e.toNat / 2 ^ 13 % 256) * 2 ^ 32 else 0
  (base + high) % 2 ^ maxPhy + lin.toNat % 2 ^ shift

/-- Walk the tables from the one at `base` (rule R243). -/
def walk (m : Memory) (maxPhy : Nat) (nxe p32 : Bool) (lin : Word) : List Level → Nat → Trail → Walk
  | [], _, _ => .notPresent
  | l :: rest, base, t =>
    let esz := if p32 then 4 else 8
    let ea := base + (lin.toNat / 2 ^ l.shift % 2 ^ l.width) * esz
    let e : Word := BitVec.ofNat 64 (m.readList (addrRange ea esz))
    let leaf := rest.isEmpty || (l.large && e.getLsbD 7)
    let t' : Trail :=
      { writable := t.writable && e.getLsbD 1, user := t.user && e.getLsbD 2,
        nx := t.nx || (nxe && !p32 && e.getLsbD 63), entries := ea :: t.entries }
    if !e.getLsbD 0 then .notPresent
    else if e &&& (if leaf then l.pageRsv else l.tableRsv) ≠ 0 then .reserved
    else if leaf then .page (pageAddr maxPhy p32 l.shift e lin) (e.extractLsb' 59 4).toNat t'
    else walk m maxPhy nxe p32 lin rest (frameOf maxPhy e) t'

/-- The walk of a linear address in the current paging mode. -/
def State.walkOf (s : State) (lin : Word) : Walk :=
  let n := s.cfg.maxPhyAddr
  let nxe := s.msr.efer.getLsbD 11
  match s.paging with
  | .off => .page lin.toNat 0 {}
  | .bits32 => walk s.mem n nxe true lin (s.levels .bits32) (frameOf n (s.sys.cr3 &&& 0xFFFFF000)) {}
  | .pae =>
    let e := s.sys.pdpte[lin.toNat / 2 ^ 30 % 4]'(Nat.mod_lt _ (by decide))
    if e.getLsbD 0 then walk s.mem n nxe false lin (s.levels .pae) (frameOf n e) {} else .notPresent
  | .level4 => walk s.mem n nxe false lin (s.levels .level4) (frameOf n s.sys.cr3) {}

/-- The verdict of rule R244. -/
inductive Right where
  | ok | denied | keyDenied
deriving DecidableEq, Repr

/-- The access rights of rule R244. -/
def State.right (s : State) (k : Kind) (user implicitSup : Bool) (pkey : Nat) (t : Trail) : Right :=
  let w := k.isWrite
  let x := k.isExec
  let wp := s.cr0Bit 16
  let base :=
    if user then !t.user || (w && !t.writable) || (x && t.nx)
    else (w && !t.writable && wp) || (x && t.nx) || (x && t.user && s.cr4Bit 20)
      || (!x && t.user && s.cr4Bit 21 && (!s.flags.ac || implicitSup))
  let keyed := s.cr4Bit 22 && decide (s.paging = .level4) && t.user && !x
  let ad := s.sys.pkru.getLsbD (2 * pkey)
  let wd := s.sys.pkru.getLsbD (2 * pkey + 1)
  if base then .denied
  else if keyed && (ad || (w && wd && (user || wp))) then .keyDenied
  else .ok

/-- The error code of a page fault (rule R245). -/
def State.pfCode (s : State) (k : Kind) (user present rsvd key : Bool) : BitVec 32 :=
  let b (v : Bool) (i : Nat) : BitVec 32 := if v then (1 : BitVec 32) <<< i else 0
  let nxe := s.msr.efer.getLsbD 11
  b present 0 ||| b (k.isWrite) 1 ||| b user 2 ||| b rsvd 3 |||
  b (k.isExec && (nxe || s.cr4Bit 20)) 4 ||| b key 5

/-- Set the accessed bit of every entry used and the dirty bit of the leaf on a write (rule R246). -/
def Memory.markUsed (m : Memory) (write : Bool) : List Nat → Memory
  | [] => m
  | leaf :: tables =>
    let m1 := m.write leaf (m.read leaf ||| (if write then 0x60 else 0x20))
    tables.foldl (fun acc a => acc.write a (acc.read a ||| 0x20)) m1

/-- The entries whose bytes setting their accessed and dirty bits changes: the processor stores to these. -/
def Memory.newlyUsed (m : Memory) (write : Bool) (entries : List Nat) : List Nat :=
  entries.filter fun a => decide ((m.markUsed write entries).read a ≠ m.read a)

/-- The state after a walk that succeeded: accessed and dirty bits are set (rule R246), which is a store (R162). -/
def State.walked (s : State) (write : Bool) (entries : List Nat) : State :=
  { s with mem := s.mem.markUsed write entries, act := s.act.stored (s.mem.newlyUsed write entries) }

/-- The page fault of rule R2014 at a linear address. -/
def raisePF {α : Type} (lin : Word) (code : BitVec 32) : M α := raise { vec := 14, code := some code, cr2 := some lin }

/-- Translate (rule R240). -/
def translate (k : Kind) (user implicitSup : Bool) (lin : Word) : M Nat := do
  let s ← get
  match s.walkOf lin with
  | .notPresent => raisePF lin (s.pfCode k user false false false)
  | .reserved => raisePF lin (s.pfCode k user true true false)
  | .page pa pkey t =>
    if s.paging = .off then return pa
    match s.right k user implicitSup pkey t with
    | .denied => raisePF lin (s.pfCode k user true false false)
    | .keyDenied => raisePF lin (s.pfCode k user true false true)
    | .ok =>
      set (s.walked k.isWrite t.entries)
      return pa

/-- A linear address outside IA-32e mode has 32 bits, and in compatibility mode too (rule R210). -/
def State.linTrunc (s : State) (lin : Word) : Word := if s.isLong then lin else (lin.setWidth 32).setWidth 64

/-- Translate the n bytes from a linear address on, at most two pages, the lower first (rules R203, R245). -/
def translateRange (trunc : Word → Word) (k : Kind) (user implicitSup : Bool) (lin : Word) (n : Nat) : M (List Nat) := do
  let room := 4096 - lin.toNat % 4096
  if n ≤ room then
    return addrRange (← translate k user implicitSup lin) n
  else
    let lo ← translate k user implicitSup lin
    let hi ← translate k user implicitSup (trunc (lin + BitVec.ofNat 64 room))
    return addrRange lo room ++ addrRange hi (n - room)

/-- An access with supervisor rights to a descriptor table, the TSS or the IDT, by linear address (rule R203): no segment
check, no #AC, no data breakpoint. -/
def sysResolve (k : Kind) (lin : Word) (n : Nat) : M (List Nat) := do
  let s ← get
  let trunc : Word → Word := if s.lma then id else fun a => (a.setWidth 32).setWidth 64
  translateRange trunc k false true (trunc lin) n

/-- Read with supervisor rights. -/
def sysRead (lin : Word) (n : Nat) : M Nat := do physRead (← sysResolve .read lin n)

/-! Segmentation. -/

/-- The linear address of an offset in a segment (rules R210, R215). -/
def State.linear (s : State) (r : SReg) (c : SegCache) (off : Word) : Word :=
  match s.mode with
  | .long => (if r = .fs ∨ r = .gs then c.base else 0) + off
  | _ => ((c.base + off).setWidth 32).setWidth 64

/-- A selector that names no descriptor: 0000H to 0003H (spec/60_exceptions.md rule R2041). -/
def isNull (sel : BitVec 16) : Bool := decide (sel &&& 0xFFFC = 0)

/-- A code segment. -/
def SegCache.isCode (c : SegCache) : Bool := c.s && c.typ.getLsbD 3
/-- A writable data segment. -/
def SegCache.writable (c : SegCache) : Bool := c.s && !c.typ.getLsbD 3 && c.typ.getLsbD 1
/-- A data segment or a readable code segment. -/
def SegCache.readable (c : SegCache) : Bool := c.s && (!c.typ.getLsbD 3 || c.typ.getLsbD 1)
/-- An expand-down data segment. -/
def SegCache.expandDown (c : SegCache) : Bool := c.s && !c.typ.getLsbD 3 && c.typ.getLsbD 2

/-- Is [off, off+n-1] inside the limit (rule R213)? -/
def SegCache.inLimit (c : SegCache) (off : Word) (n : Nat) : Bool :=
  if c.expandDown then
    decide (c.limit.toNat < off.toNat ∧ off.toNat + n - 1 ≤ (if c.db then 0xFFFFFFFF else 0xFFFF))
  else decide (off.toNat + n - 1 ≤ c.limit.toNat)

/-- The verdict of the segment checks. -/
inductive SegVerdict where
  | ok | general | limit
deriving DecidableEq, Repr

/-- The segment checks of an access to [off, off+n-1] (rules R212, R213, R215, R216). -/
def State.segVerdict (s : State) (r : SReg) (c : SegCache) (k : Kind) (off : Word) (n : Nat) : SegVerdict :=
  match s.mode with
  | .long =>
    let lin := s.linear r c off
    if canonical lin && canonical (lin + BitVec.ofNat 64 (n - 1)) then .ok else .limit
  | .real => if decide (off.toNat + n - 1 ≤ c.limit.toNat) then .ok else .limit
  | .v86 => if decide (off.toNat + n - 1 ≤ 0xFFFF) then .ok else .limit
  | _ =>
    if decide (r ≠ .cs ∧ r ≠ .ss) && (isNull c.sel || !c.valid) then .general
    else if k.isWrite && !c.writable then .general
    else if decide (k = .read) && !c.readable then .general
    else if c.inLimit off n then .ok else .limit

/-- #SS(0) for a violation through SS, #GP(0) otherwise (rules R213, R216). -/
def raiseLimit {α : Type} (r : SReg) : M α := if r = .ss then raiseSS else raiseGP

/-- Is alignment checking enabled (rule R220)? -/
def State.alignChecked (s : State) : Bool := s.cr0Bit 18 && s.flags.ac && decide (s.cpl = 3)

/-! Breakpoints (spec/60_exceptions.md rule R2081). -/

/-- The four breakpoint addresses. -/
def Sys.dr (y : Sys) : Fin 4 → Word
  | 0 => y.dr0 | 1 => y.dr1 | 2 => y.dr2 | 3 => y.dr3

/-- Is breakpoint k enabled in DR7 (spec/10_state.md rule R95)? -/
def Sys.bpOn (y : Sys) (k : Fin 4) : Bool := y.dr7.getLsbD (2 * k.val) || y.dr7.getLsbD (2 * k.val + 1)
/-- R/Wk of DR7. -/
def Sys.bpKind (y : Sys) (k : Fin 4) : BitVec 2 := y.dr7.extractLsb' (16 + 4 * k.val) 2
/-- LENk of DR7. -/
def Sys.bpLen (y : Sys) (k : Fin 4) : BitVec 2 := y.dr7.extractLsb' (18 + 4 * k.val) 2
/-- The size LENk stands for. -/
def bpBytes (len : BitVec 2) : Nat := if len = 0 then 1 else if len = 1 then 2 else if len = 2 then 8 else 4

/-- Does an access to n bytes at `a` overlap breakpoint k's range? -/
def Sys.bpHits (y : Sys) (k : Fin 4) (a n : Nat) : Bool :=
  let sz := bpBytes (y.bpLen k)
  let lo := (y.dr k).toNat / sz * sz
  decide (a < lo + sz ∧ lo < a + n)

/-- The breakpoint bits B0 to B3 that the predicate sets. -/
def bpMask (p : Fin 4 → Bool) : BitVec 16 :=
  (if p 0 then 1 else 0) ||| (if p 1 then 2 else 0) ||| (if p 2 then 4 else 0) ||| (if p 3 then 8 else 0)

/-- Data breakpoints an access meets (rule R2081 (c)). -/
def State.dataBreaks (s : State) (write : Bool) (lin : Word) (n : Nat) : BitVec 16 :=
  bpMask fun k => s.sys.bpOn k && s.sys.bpHits k lin.toNat n
    && (decide (s.sys.bpKind k = 3) || (write && decide (s.sys.bpKind k = 1)))

/-- Port breakpoints an access to n ports from `port` on meets: DR7 has a kind for them when CR4.DE = 1 (rule R2081 (d)). -/
def State.portBreaks (s : State) (port : BitVec 16) (n : Nat) : BitVec 16 :=
  if s.cr4Bit 3 then bpMask fun k => s.sys.bpOn k && decide (s.sys.bpKind k = 2) && s.sys.bpHits k port.toNat n else 0

/-- Record debug conditions for the trap after the instruction. -/
def notePending (b : BitVec 16) : M Unit :=
  modify fun s => { s with act := { s.act with pendingDb := s.act.pendingDb ||| b } }

/-- MemRead and MemWrite up to the transfer (rule R203): segment checks, required alignment (#GP), #AC, translation; the
physical addresses of the n bytes. `nat` is the natural alignment of #AC (1: never), `must` the required one (1: none). -/
def resolveIn (r : SReg) (c : SegCache) (user : Bool) (k : Kind) (nat must : Nat) (off : Word) (n : Nat) :
    M (List Nat) := do
  let s ← get
  match s.segVerdict r c k off n with
  | .general => raiseGP
  | .limit => raiseLimit r
  | .ok =>
    let lin := s.linear r c off
    if lin.toNat % must ≠ 0 then raiseGP
    else if s.alignChecked && decide (lin.toNat % nat ≠ 0) then raiseAC
    else
      let as ← translateRange s.linTrunc k user false lin n
      notePending (s.dataBreaks (k.isWrite) lin n)
      return as

/-- The checked physical addresses of an operand at r:off. -/
def resolve (r : SReg) (k : Kind) (nat must : Nat) (off : Word) (n : Nat) : M (List Nat) := do
  let s ← get
  resolveIn r (s.segOf r) (decide (s.cpl = 3)) k nat must off n

/-- MemRead (rule R203) of n bytes with natural alignment `nat`. -/
def memRead (r : SReg) (off : Word) (n nat : Nat) : M Nat := do physRead (← resolve r .read nat 1 off n)

/-- MemWrite (rule R203) of n bytes with natural alignment `nat`. -/
def memWrite (r : SReg) (off : Word) (n nat : Nat) (v : Nat) : M Unit := do physWrite (← resolve r .write nat 1 off n) v

end Sys2Proof.Machine
end

