-- ==== Sys2Proof/Machine/Ops.lean ====
section
/-! DEFINITION. The stack (spec/20_memory.md rule R230), descriptors and segment loads (spec/60_exceptions.md rules R2040 to
R2048), taking an exception, an interrupt or a software interrupt (rules R2020 to R2030), aborting a transaction
(spec/59_w_wait-xtest.md rule R1196), and how a meaning becomes a step: its exceptions are delivered, its state is kept
(rules R2002, R2003, R2081). -/

namespace Sys2Proof.Machine

/-! The stack. -/

/-- StackAddrSize of a stack segment (rule R230). -/
def State.stackSizeOf (s : State) (c : SegCache) : ASize :=
  match s.mode with
  | .long => .a64
  | _ => if c.db then .a32 else .a16

/-- StackAddrSize. -/
def State.stackSize (s : State) : ASize := s.stackSizeOf (s.segOf .ss)

/-- The stack pointer, truncated to the stack-address size. -/
def State.sp (s : State) : Word := s.stackSize.trunc (s.gp rSP)

/-- Write the stack pointer at a stack-address size; the bits above keep their value (rule R230). -/
def State.setSp (s : State) (a : ASize) (v : Word) : State :=
  s.setGp rSP (mergeLow (s.gp rSP) (v.setWidth a.bits))

/-- Write the stack pointer. -/
def writeSp (v : Word) : M Unit := modify fun s => s.setSp s.stackSize v

/-- The checked addresses of pushes of the given sizes below `sp`, in order, and the final stack pointer: every check comes
before any write (rule R2003). `ac` says whether #AC is looked for. -/
def pushPlan (c : SegCache) (a : ASize) (user ac : Bool) : Word → List Nat → M (List (List Nat) × Word)
  | sp, [] => return ([], sp)
  | sp, n :: ns => do
    let t := a.trunc (sp - BitVec.ofNat 64 n)
    let as ← resolveIn .ss c user .write (if ac then n else 1) 1 t n
    let (rest, fin) ← pushPlan c a user ac t ns
    return (as :: rest, fin)

/-- Store the pushed values at their addresses. -/
def pushStore : List (List Nat) → List Nat → M Unit
  | as :: ass, v :: vs => do physWrite as v; pushStore ass vs
  | _, _ => return ()

/-- The checked addresses of pushes of the given sizes onto the current stack segment from a stack pointer on, in order, and the
final stack pointer (rule R230). -/
def pushFrom (sp : Word) (ns : List Nat) : M (List (List Nat) × Word) := do
  let s ← get
  pushPlan (s.segOf .ss) s.stackSize (decide (s.cpl = 3)) true sp ns

/-- The same from the current stack pointer. -/
def pushSlots (ns : List Nat) : M (List (List Nat) × Word) := do pushFrom (← get).sp ns

/-- Store the values of checked pushes and move the stack pointer. -/
def pushCommit (p : List (List Nat) × Word) (vs : List Nat) : M Unit := do
  pushStore p.1 vs
  writeSp p.2

/-- Push several items (bytes, value), the first pushed first; all faults come before any write, and the stack pointer
changes last (rules R230, R2003). -/
def pushList (items : List (Nat × Nat)) : M Unit := do
  pushCommit (← pushSlots (items.map (·.1))) (items.map (·.2))

/-- Push(v) of n bytes (rule R230). -/
def push (n v : Nat) : M Unit := pushList [(n, v)]

/-- Read n bytes at an offset of the stack above the stack pointer. -/
def stackPeek (sp : Word) (n : Nat) : M Nat := do memRead .ss ((← get).stackSize.trunc sp) n n

/-- Pop() of n bytes (rule R230). -/
def pop (n : Nat) : M Nat := do
  let s ← get
  let v ← stackPeek s.sp n
  writeSp (s.stackSize.trunc (s.sp + BitVec.ofNat 64 n))
  return v

/-! Descriptors and selectors. -/

/-- The error code that names a selector (rule R2004). -/
def selCode (sel : BitVec 16) (ext : Bool := false) : BitVec 32 :=
  ((sel &&& 0xFFFC).setWidth 32) ||| (if ext then 1 else 0)

/-- The error code that names a vector (rule R2004). -/
def idtCode (vec : BitVec 8) (ext : Bool) : BitVec 32 :=
  (vec.setWidth 32 <<< 3) ||| 2 ||| (if ext then 1 else 0)

/-- The error code whose only possibly non-zero bit is EXT (rule R2004). -/
def extCode (ext : Bool) : BitVec 32 := if ext then 1 else 0

/-- RPL of a selector. -/
def rpl (sel : BitVec 16) : BitVec 2 := sel.setWidth 2

/-- A selector with another RPL. -/
def withRpl (sel : BitVec 16) (r : BitVec 2) : BitVec 16 := (sel &&& 0xFFFC) ||| r.setWidth 16

/-- The cache a descriptor's 16 bytes fill (rules R2040, R2043): bytes 8 to 11 count for a system descriptor in IA-32e mode
only, and are 0 otherwise. -/
def descCache (sel : BitVec 16) (d : BitVec 128) : SegCache :=
  let l20 : BitVec 20 := d.extractLsb' 48 4 ++ d.extractLsb' 0 16
  { sel := sel
    base := d.extractLsb' 64 32 ++ (d.extractLsb' 56 8 ++ d.extractLsb' 16 24)
    limit := if d.getLsbD 55 then l20 ++ (0xFFF : BitVec 12) else l20.setWidth 32
    typ := d.extractLsb' 40 4, s := d.getLsbD 44, dpl := d.extractLsb' 45 2, p := d.getLsbD 47, avl := d.getLsbD 52,
    l := d.getLsbD 53, db := d.getLsbD 54, g := d.getLsbD 55, valid := true }

/-- TI of a selector: the descriptor is in the LDT (rule R2041). -/
def inLdt (sel : BitVec 16) : Bool := sel.getLsbD 2

/-- The linear address a selector's index gives in its table (rule R2041). -/
def State.descBase (s : State) (sel : BitVec 16) : Word :=
  (if inLdt sel then s.sys.ldtr.base else s.sys.gdtr.base) + BitVec.ofNat 64 (sel.toNat / 8 * 8)

/-- Does a descriptor of `size` bytes lie in non-canonical space or overlap it (IA-32e mode; spec/42_c_call-cmpps.md rule R553,
spec/55_r_rcl-rsqrtss.md rule R1002)? The test covers every byte (spec/20_memory.md rule R216). -/
def State.descStray (s : State) (sel : BitVec 16) (size : Nat) : Bool :=
  s.lma && (s.sys.ldtr.valid || !inLdt sel) && !(canonical (s.descBase sel) && canonical (s.descBase sel + BitVec.ofNat 64 (size - 1)))

/-- Linear address of a descriptor of `size` bytes, if its table holds it (rule R2041) and, in IA-32e mode, it is canonical
(spec/55_r_rcl-rsqrtss.md rule R1002). -/
def State.descAddr (s : State) (sel : BitVec 16) (size : Nat) : Option Word :=
  let limit := if inLdt sel then s.sys.ldtr.limit.toNat else s.sys.gdtr.limit.toNat
  if inLdt sel && !s.sys.ldtr.valid then none
  else if decide (sel.toNat / 8 * 8 + (size - 1) ≤ limit) && !s.descStray sel size then some (s.descBase sel)
  else none

/-- FetchDescriptor (rule R2041); `none` is "fail". -/
def fetchDesc (sel : BitVec 16) (size : Nat) : M (Option (Word × BitVec 128)) := do
  match (← get).descAddr sel size with
  | none => return none
  | some a => return some (a, BitVec.ofNat 128 (← sysRead a size))

/-- What a load of a segment register puts there, once its checks have passed: the cache, and the linear address of the byte of
the descriptor in which the load sets the accessed bit, where that bit is still 0 (rule R2048). -/
structure SegLoad where
  cache : SegCache
  mark : Option Word
deriving DecidableEq, Repr

/-- The load of a cache that no descriptor in memory gives. -/
def SegLoad.plain (c : SegCache) : SegLoad := { cache := c, mark := none }

/-- The load from the code or data descriptor d at linear address a: the cache holds it marked accessed (rule R2048). -/
def SegLoad.ofDesc (sel : BitVec 16) (a : Word) (d : BitVec 128) : SegLoad :=
  let c := descCache sel d
  { cache := { c with typ := c.typ ||| 1 }, mark := if c.typ.getLsbD 0 then none else some (a + 5) }

/-- The checked address of the byte to mark, or nothing: this can still fault, so it comes before every write of the instruction
(rules R2003, R2048). -/
def SegLoad.resolve (l : SegLoad) : M (List Nat) :=
  match l.mark with
  | none => return []
  | some a => sysResolve .write a 1

/-- The state with the accessed bit set in the byte at the resolved address (rule R2048). -/
def State.marked (s : State) (as : List Nat) : State := s.physWrite as (s.mem.readList as ||| 1)

/-- Set the accessed bit in the byte at the resolved address. -/
def markAccessed (as : List Nat) : M Unit := modify fun s => s.marked as

/-- A segment register after a load in real-address mode (spec/20_memory.md rule R212). -/
def SegCache.realLoad (c : SegCache) (sel : BitVec 16) : SegCache :=
  { c with sel := sel, base := (sel.setWidth 64) <<< 4, valid := true }

/-- A segment register after a load in virtual-8086 mode (spec/20_memory.md rule R212). -/
def SegCache.v86Load (sel : BitVec 16) : SegCache :=
  { SegCache.resetData with sel := sel, base := (sel.setWidth 64) <<< 4, dpl := 3 }

/-- A segment register after a load of a NULL selector (rules R2045, R2047). -/
def SegCache.nullLoad (c : SegCache) (sel : BitVec 16) : SegCache := { c with sel := sel, valid := false }

/-- Write a segment register. -/
def writeSeg (r : SReg) (c : SegCache) : M Unit := modify fun s => s.setSeg r c

/-- LoadSegReg for SS outside real-address and virtual-8086 mode (rule R2045). -/
def checkStackSeg (sel : BitVec 16) : M SegLoad := do
  let s ← get
  if isNull sel then
    if s.isLong && decide (s.cpl ≠ 3) && decide (rpl sel = s.cpl) then return .plain ((s.segOf .ss).nullLoad sel) else raiseGP
  else
    match ← fetchDesc sel 8 with
    | none => raiseGP (selCode sel)
    | some (a, d) =>
      let c := descCache sel d
      if decide (rpl sel ≠ s.cpl) || !c.writable || decide (c.dpl ≠ s.cpl) then raiseGP (selCode sel)
      else if !c.p then raiseSS (selCode sel)
      else return .ofDesc sel a d

/-- LoadSegReg for DS, ES, FS, GS outside real-address and virtual-8086 mode (rule R2045). -/
def checkDataSeg (r : SReg) (sel : BitVec 16) : M SegLoad := do
  let s ← get
  if isNull sel then return .plain ((s.segOf r).nullLoad sel)
  else
    match ← fetchDesc sel 8 with
    | none => raiseGP (selCode sel)
    | some (a, d) =>
      let c := descCache sel d
      let conforming := c.isCode && c.typ.getLsbD 2
      if !c.readable then raiseGP (selCode sel)
      else if !conforming && decide (c.dpl < rpl sel ∨ c.dpl < s.cpl) then raiseGP (selCode sel)
      else if !c.p then raiseNP (selCode sel)
      else return .ofDesc sel a d

/-- What a load of `sel` into a data or stack segment register puts there, after all its checks (rule R2045; spec/20_memory.md
rule R212). -/
def checkSegLoad (r : SReg) (sel : BitVec 16) : M SegLoad := do
  let s ← get
  match s.mode with
  | .real => return .plain ((s.segOf r).realLoad sel)
  | .v86 => return .plain (SegCache.v86Load sel)
  | _ => if r = .ss then checkStackSeg sel else checkDataSeg r sel

/-- LoadSegReg (rule R2045): the checks, the accessed bit, the register. -/
def loadSeg (r : SReg) (sel : BitVec 16) : M Unit := do
  let l ← checkSegLoad r sel
  markAccessed (← l.resolve)
  writeSeg r l.cache

/-- The state with CS loaded from a checked code segment, at a privilege level, and rIP at an offset (rule R2046). -/
def State.withCode (s : State) (d : SegLoad) (cpl : BitVec 2) (off : Word) : State :=
  { (s.setSeg .cs { d.cache with sel := withRpl d.cache.sel cpl }) with cpl := cpl, rip := off }

/-- Load CS from a checked code segment with a privilege level, and go to an offset (rule R2046). -/
def loadCode (d : SegLoad) (cpl : BitVec 2) (off : Word) : M Unit := modify fun s => s.withCode d cpl off

/-! Transactions. -/

/-- The state an outermost XBEGIN saves (spec/10_state.md rule R164). -/
def State.snapshot (s : State) : RtmSnapshot :=
  { gpr := s.gpr, flags := s.flags, seg := s.seg, cpl := s.cpl, sys := s.sys, msr := s.msr, mxcsr := s.mxcsr,
    ymm := s.ymm, fpu := s.fpu, mem := s.mem }

/-- RtmAbort (spec/59_w_wait-xtest.md rule R1196): registers and memory of the snapshot, the status in EAX with bit 5 for a
nested transaction, rIP at the fallback address. The time-stamp counter goes on (spec/10_state.md rule R101). -/
def State.rtmAbort (s : State) (status : BitVec 32) : State :=
  match s.rtm.snapshot with
  | none => s
  | some n =>
    let status := status ||| (if 1 < s.rtm.nest then 32 else 0)
    let s1 : State :=
      { s with
        gpr := n.gpr, flags := n.flags, seg := n.seg, cpl := n.cpl, sys := n.sys,
        msr := { n.msr with tsc := s.msr.tsc }, mxcsr := n.mxcsr, ymm := n.ymm, fpu := n.fpu, mem := n.mem,
        rip := s.rtm.fallback, rtm := {}, act := { s.act with pendingDb := 0, inhibit := .none, afterMovSs := false, repEntry := none } }
    s1.setGp rAX (regWrite s1.isLong .w32 (s1.gp rAX) status)

/-! Delivery. -/

/-- The kinds of event of rule R2020. -/
inductive EventKind where
  | softInt | int3 | into | exception | external | nmi
deriving DecidableEq, Repr

/-- An event to deliver (rule R2020): its vector, error code, return pointer, the RF bit of the pushed image (rule R2002)
and the DR6 conditions of a debug exception. `retCs` is given where the return pointer is not the current CS. -/
structure Event where
  kind : EventKind
  vec : BitVec 8
  code : Option (BitVec 32) := none
  ret : Word
  retCs : Option (BitVec 16) := none
  rf : Bool := false
  dr6 : BitVec 16 := 0
deriving DecidableEq, Repr

/-- INT n, INT 3 or INTO. -/
def Event.isSoft (e : Event) : Bool := decide (e.kind = .softInt ∨ e.kind = .int3 ∨ e.kind = .into)
/-- EXT (rule R2004). -/
def Event.ext (e : Event) : Bool := !e.isSoft

/-- The flags image pushed (rule R2002). -/
def Event.flagsImage (e : Event) (s : State) : Word := ({ s.flags with rf := e.rf }).image

/-- The CS selector pushed. -/
def Event.cs (e : Event) (s : State) : BitVec 16 := e.retCs.getD (s.segOf .cs).sel

/-- The error code as an item of n bytes to push, if the event has one. -/
def Event.codeItem (e : Event) (n : Nat) : List (Nat × Nat) :=
  match e.code with
  | some c => [(n, (c.toNat % 2 ^ (8 * n)))]
  | none => []

/-- Have the pushes of the given sizes room in a stack segment (rules R2026 to R2028)? -/
def State.pushRoom (s : State) (c : SegCache) (a : ASize) : Word → List Nat → Bool
  | _, [] => true
  | sp, n :: ns =>
    let t := a.trunc (sp - BitVec.ofNat 64 n)
    decide (s.segVerdict .ss c .write t n = .ok) && s.pushRoom c a t ns

/-- REAL-ADDRESS-MODE (rule R2021): the vector entry is read after the pushes. -/
def deliverReal (e : Event) : M Unit := do
  let s ← get
  let v := e.vec.toNat
  ensure (decide (v * 4 + 3 ≤ s.sys.idtr.limit.toNat)) raiseGP
  let sizes := [2, 2, 2]
  ensure (s.pushRoom (s.segOf .ss) s.stackSize s.sp sizes) raiseSS
  pushList [(2, (e.flagsImage s).toNat % 2 ^ 16), (2, (e.cs s).toNat), (2, e.ret.toNat % 2 ^ 16)]
  let entry ← sysRead (s.sys.idtr.base + BitVec.ofNat 64 (v * 4)) 4
  modify fun s => { s with flags := { s.flags with ifl := false, tf := false, ac := false } }
  writeSeg .cs ((s.segOf .cs).realLoad (BitVec.ofNat 16 (entry / 2 ^ 16)))
  modify fun s => { s with rip := BitVec.ofNat 64 (entry % 2 ^ 16) }

/-- The fields of an interrupt, trap or task gate (rule R2042). -/
structure Gate where
  typ : BitVec 4
  s : Bool
  dpl : BitVec 2
  p : Bool
  sel : BitVec 16
  off : Word
  ist : BitVec 3
deriving DecidableEq, Repr

/-- The gate in the 16 bytes of a descriptor; a 16-bit gate has no upper offset (rule R2042). -/
def gateOf (ia32e : Bool) (d : BitVec 128) : Gate :=
  let typ : BitVec 4 := d.extractLsb' 40 4
  let lo : BitVec 16 := d.extractLsb' 0 16
  let mid : BitVec 16 := d.extractLsb' 48 16
  let off32 : BitVec 32 := mid ++ lo
  { typ := typ, s := d.getLsbD 44, dpl := d.extractLsb' 45 2, p := d.getLsbD 47, sel := d.extractLsb' 16 16,
    ist := d.extractLsb' 32 3
    off := if ia32e then d.extractLsb' 64 32 ++ off32
           else if typ.getLsbD 3 then off32.setWidth 64 else lo.setWidth 64 }

/-- An interrupt gate (types 6 and EH), which clears IF. -/
def Gate.isInterrupt (g : Gate) : Bool := !g.typ.getLsbD 0
/-- A 32-bit (or 64-bit) gate. -/
def Gate.is32 (g : Gate) : Bool := g.typ.getLsbD 3

/-- TASK-GATE up to the task switch, which no document defines (rule R2024, decision D20). Entry 0 of the GDT is never fetched
(rule R2041). -/
def taskGate (sel : BitVec 16) (ext : Bool) : M Unit := do
  ensure (!inLdt sel && !isNull sel) (raiseGP (selCode sel ext))
  match ← fetchDesc sel 8 with
  | none => raiseGP (selCode sel ext)
  | some (_, d) =>
    let c := descCache sel d
    ensure (!c.s && decide (c.typ = 1 ∨ c.typ = 9)) (raiseGP (selCode sel ext))
    ensure c.p (raiseNP (selCode sel ext))
    throw (.refuse .taskSwitchRequested)

/-- The inner stack outside IA-32e mode: SS and ESP for a privilege level from the current TSS (rules R2026, R2027). -/
def innerStack (dpl : BitVec 2) (ext : Bool) : M (SegLoad × Word) := do
  let s ← get
  let tr := s.sys.tr
  let is32 := tr.typ.getLsbD 3
  let off := if is32 then dpl.toNat * 8 + 4 else dpl.toNat * 4 + 2
  ensure (decide (off + (if is32 then 5 else 3) ≤ tr.limit.toNat)) (raiseTS (selCode tr.sel ext))
  let espLen := if is32 then 4 else 2
  let ss : BitVec 16 := BitVec.ofNat 16 (← sysRead (tr.base + BitVec.ofNat 64 (off + espLen)) 2)
  let esp ← sysRead (tr.base + BitVec.ofNat 64 off) espLen
  ensure (!isNull ss) (raiseTS (extCode ext))
  ensure (decide (rpl ss = dpl)) (raiseTS (selCode ss ext))
  match ← fetchDesc ss 8 with
  | none => raiseTS (selCode ss ext)
  | some (a, d) =>
    let c := descCache ss d
    ensure (decide (c.dpl = dpl) && c.writable) (raiseTS (selCode ss ext))
    ensure c.p (raiseSS (selCode ss ext))
    return (.ofDesc ss a d, BitVec.ofNat 64 esp)

/-- Eight bytes of the TSS at an offset, or #TS: beyond its limit (rules R2026, R2028), or in non-canonical space (rule R2023; the
error code names the TSS: DEDUCED, log entry 59). -/
def tssWord (off : Nat) (ext : Bool) : M Word := do
  let tr := (← get).sys.tr
  let bad : M Unit := raiseTS (selCode tr.sel ext)
  let a := tr.base + BitVec.ofNat 64 off
  ensure (decide (off + 7 ≤ tr.limit.toNat)) bad
  ensure (canonical a && canonical (a + 7)) bad
  return BitVec.ofNat 64 (← sysRead a 8)

/-- The flags after delivery through an interrupt or trap gate (rules R2026 to R2028). -/
def Flags.afterGate (f : Flags) (g : Gate) : Flags :=
  { f with ifl := f.ifl && !g.isInterrupt, tf := false, vm := false, rf := false, nt := false }

/-- The frame of delivery through a gate with slots of n bytes: the flags, CS and the return pointer. -/
def Event.frame (e : Event) (s : State) (n : Nat) : List (Nat × Nat) :=
  [(n, (e.flagsImage s).toNat % 2 ^ (8 * n)), (n, (e.cs s).toNat), (n, e.ret.toNat % 2 ^ (8 * n))]

/-- The old stack pointer in slots of n bytes: SS, then rSP. -/
def State.oldStack (s : State) (n : Nat) : List (Nat × Nat) :=
  [(n, (s.segOf .ss).sel.toNat), (n, (s.gp rSP).toNat % 2 ^ (8 * n))]

/-- The segment selectors that delivery from virtual-8086 mode pushes first (rule R2027). -/
def State.v86Selectors (s : State) (n : Nat) : List (Nat × Nat) :=
  [(n, (s.segOf .gs).sel.toNat), (n, (s.segOf .fs).sel.toNat), (n, (s.segOf .ds).sel.toNat), (n, (s.segOf .es).sel.toNat)]

/-- The data segment registers made NULL (rule R2027). -/
def State.nullData (s : State) : State :=
  (((s.setSeg .gs ((s.segOf .gs).nullLoad 0)).setSeg .fs ((s.segOf .fs).nullLoad 0)).setSeg .ds
    ((s.segOf .ds).nullLoad 0)).setSeg .es ((s.segOf .es).nullLoad 0)

/-- What delivery pushes before and after it loads CS: nothing before, to an inner level (rule R2026); everything, from
virtual-8086 mode (R2027); all but the error code, at the same level (R2028). -/
def Event.parts (e : Event) (s : State) (n : Nat) (inner : Bool) : List (Nat × Nat) × List (Nat × Nat) :=
  if s.flags.vm then (s.v86Selectors n ++ s.oldStack n ++ e.frame s n ++ e.codeItem n, [])
  else if inner then ([], s.oldStack n ++ e.frame s n ++ e.codeItem n)
  else (e.frame s n, e.codeItem n)

/-- Does the code segment take delivery to an inner level (rule R2025)? -/
def State.goesInner (s : State) (cs : SegCache) : Bool := !cs.typ.getLsbD 2 && decide (cs.dpl < s.cpl)

/-- The state after delivery through a 16- or 32-bit gate has stored its frame: the inner stack, the stack pointer, the data
segments from virtual-8086 mode, CS, rIP and the flags (rules R2026 to R2028). -/
def State.enterGate (t : State) (v86 : Bool) (g : Gate) (cs : SegLoad) (cpl : BitVec 2) (newStack : Option (SegLoad × Word))
    (size : ASize) (sp : Word) : State :=
  let t := match newStack with
    | some (l, esp) => (t.setSeg .ss l.cache).setGp rSP (mergeLow (t.gp rSP) (esp.setWidth 32))
    | none => t
  let t := t.setSp size sp
  let t := if v86 then t.nullData else t
  { t.withCode cs cpl g.off with flags := t.flags.afterGate g }

/-- Delivery outside IA-32e mode through a 16- or 32-bit gate whose code segment is `cs`: every check, then the writes, in the
order of the listings (rules R2026 to R2028, R2003). -/
def deliverLegacyGate (e : Event) (g : Gate) (cs : SegLoad) : M Unit := do
  let s ← get
  let n := if g.is32 then 4 else 2
  let inner := s.goesInner cs.cache
  let (pre, post) := e.parts s n inner
  let cpl := if inner then cs.cache.dpl else s.cpl
  let newStack ← (if inner then some <$> innerStack cpl e.ext else pure none)
  let (ss, esp) := newStack.getD (.plain (s.segOf .ss), s.gp rSP)
  modify fun t => { t with flags := { t.flags with vm := false }, cpl := cpl }
  let p ← get
  let size := p.stackSizeOf ss.cache
  ensure (p.pushRoom ss.cache size (size.trunc esp) ((pre ++ post).map (·.1)))
    (raiseSS (if inner then selCode ss.cache.sel e.ext else extCode e.ext))
  ensure (decide (g.off.toNat ≤ cs.cache.limit.toNat)) (raiseGP (extCode e.ext))
  let sas ← ss.resolve
  let (as1, sp1) ← pushPlan ss.cache size (decide (cpl = 3)) (decide (g.dpl = 3)) (size.trunc esp) (pre.map (·.1))
  let cas ← cs.resolve
  let (as2, sp) ← pushPlan ss.cache size (decide (cpl = 3)) (decide (g.dpl = 3)) sp1 (post.map (·.1))
  markAccessed sas
  pushStore as1 (pre.map (·.2))
  markAccessed cas
  pushStore as2 (post.map (·.2))
  modify fun t => t.enterGate s.flags.vm g cs cpl newStack size sp

/-- The state after delivery through a 64-bit gate has stored its frame (rules R2026, R2028): SS is NULL after a change of level or
a switch of stacks by the IST. -/
def State.enterLongGate (t : State) (g : Gate) (inner : Bool) (cpl : BitVec 2) (sp : Word) : State :=
  let t := t.setGp rSP sp
  let t := if inner || decide (g.ist ≠ 0) then
      t.setSeg .ss { (t.segOf .ss).nullLoad (cpl.setWidth 16) with dpl := cpl } else t
  { t with rip := g.off, flags := t.flags.afterGate g }

/-- Delivery in IA-32e mode through a 64-bit gate (rules R2026, R2028). A non-canonical RSP raises #SS(EXT) as the listings say; the
list of rule R2029 has #TS there (DEDUCED, log entry 59). -/
def deliverLongGate (e : Event) (g : Gate) (cs : SegLoad) : M Unit := do
  let s ← get
  let ext := e.ext
  let inner := s.goesInner cs.cache
  let newCpl := if inner then cs.cache.dpl else s.cpl
  let rsp ← (if g.ist ≠ 0 then tssWord (g.ist.toNat * 8 + 28) ext
             else if inner then tssWord (newCpl.toNat * 8 + 4) ext
             else pure (s.gp rSP))
  ensure (canonical rsp) (raiseSS (extCode ext))
  ensure (canonical g.off) (raiseGP (extCode ext))
  let items := s.oldStack 8 ++ e.frame s 8 ++ e.codeItem 8
  let (pre, post) := if inner then ([], items) else (items, [])
  loadCode cs newCpl s.rip
  let (as1, sp1) ← pushPlan (s.segOf .ss) .a64 (decide (newCpl = 3)) (decide (g.dpl = 3)) (rsp &&& ~~~15) (pre.map (·.1))
  let cas ← cs.resolve
  let (as2, sp) ← pushPlan (s.segOf .ss) .a64 (decide (newCpl = 3)) (decide (g.dpl = 3)) sp1 (post.map (·.1))
  pushStore as1 (pre.map (·.2))
  markAccessed cas
  pushStore as2 (post.map (·.2))
  modify fun t => t.enterLongGate g inner newCpl sp

/-- TRAP-OR-INTERRUPT-GATE (rule R2025). -/
def deliverGate (e : Event) (ia32e : Bool) (g : Gate) : M Unit := do
  let s ← get
  let ext := e.ext
  let bad : M Unit := raiseGP (selCode g.sel ext)
  ensure (!isNull g.sel) (raiseGP (extCode ext))
  match ← fetchDesc g.sel 8 with
  | none => bad
  | some (a, d) =>
    let cs := descCache g.sel d
    ensure (cs.isCode && decide (cs.dpl ≤ s.cpl)) bad
    ensure (!ia32e || (cs.l && !cs.db)) bad
    ensure cs.p (raiseNP (selCode g.sel ext))
    ensure (!s.flags.vm || (s.goesInner cs && decide (cs.dpl = 0))) bad
    let l := SegLoad.ofDesc g.sel a d
    if ia32e then deliverLongGate e g l else deliverLegacyGate e g l

/-- PROTECTED-MODE and IA-32e-MODE (rules R2022, R2023). -/
def deliverTable (e : Event) (ia32e : Bool) : M Unit := do
  let s ← get
  let sz := if ia32e then 16 else 8
  let bad : M Unit := raiseGP (idtCode e.vec e.ext)
  ensure (!(ia32e && decide (e.kind = .into) && s.isLong)) raiseUD
  ensure (decide (e.vec.toNat * sz + (sz - 1) ≤ s.sys.idtr.limit.toNat)) bad
  let d ← sysRead (s.sys.idtr.base + BitVec.ofNat 64 (e.vec.toNat * sz)) sz
  let g := gateOf ia32e (BitVec.ofNat 128 d)
  let isGate := decide (g.typ = 14 ∨ g.typ = 15) || (!ia32e && decide (g.typ = 5 ∨ g.typ = 6 ∨ g.typ = 7))
  ensure (!g.s && isGate) bad
  ensure (!(e.isSoft && decide (g.dpl < s.cpl))) bad
  ensure g.p (raiseNP (idtCode e.vec e.ext))
  if g.typ = 5 then taskGate g.sel e.ext else deliverGate e ia32e g

/-- Does the event trigger the monitor: an interrupt or a debug exception (spec/10_state.md rule R162)? -/
def Event.disarms (e : Event) : Bool :=
  decide (e.kind = .external ∨ e.kind = .nmi) || (decide (e.kind = .exception) && decide (e.vec = 1))

/-- What successful delivery does beside the frame: NMIs are blocked by an NMI (rule R2071), HALT and MWAIT end (rule R2060),
a debug exception reports in DR6 and clears DR7.GD when general detect raised it (rule R2081). -/
def State.afterDelivery (s : State) (e : Event) : State :=
  let act := { s.act with
    nmiBlocked := s.act.nmiBlocked || decide (e.kind = .nmi), halted := false, mwaitWaiting := false,
    mwaitMaskedBreak := false, repEntry := none, monitorArmed := s.act.monitorArmed && !e.disarms }
  let dr6 := s.sys.dr6 ||| e.dr6.setWidth 64
  let dr7 := if e.dr6.getLsbD 13 then s.sys.dr7 &&& ~~~(0x2000 : Word) else s.sys.dr7
  { s with act := act, sys := { s.sys with dr6 := dr6, dr7 := dr7 } }

/-- Deliver once (rule R2020): the event is delivered or a nested exception is raised. -/
def deliverOnce (e : Event) : M Unit := do
  let s ← get
  if !s.pe then deliverReal e
  else if s.flags.vm && decide (s.flags.iopl ≠ 3) && decide (e.kind = .softInt) then raiseGP
  else if !s.lma then deliverTable e false
  else deliverTable e true
  modify fun s => s.afterDelivery e

/-- The contributory exceptions (rule R2030). -/
def isContributory (v : BitVec 8) : Bool := decide (v = 0 ∨ v = 10 ∨ v = 11 ∨ v = 12 ∨ v = 13)

/-- What a second exception raised while delivering an event leads to (rule R2030). -/
inductive Nesting where
  | second | double | shutdown
deriving DecidableEq, Repr

/-- The classification of rule R2030. -/
def nestingOf (e : Event) (second : BitVec 8) : Nesting :=
  let serious := isContributory second || decide (second = 14)
  if e.kind = .exception then
    if e.vec = 8 then (if serious then .shutdown else .second)
    else if isContributory e.vec && isContributory second then .double
    else if e.vec = 14 && serious then .double
    else .second
  else .second

/-- A page fault writes CR2 when it is raised (rule R2014). -/
def State.noteCr2 (s : State) (e : Exc) : State :=
  match e.cr2 with
  | some a => { s with sys := { s.sys with cr2 := a } }
  | none => s

/-- An exception as an event: the return address is the faulting instruction and the image has RF = 1 (rule R2002). -/
def Exc.event (e : Exc) (s : State) : Event :=
  { kind := .exception, vec := e.vec, code := e.code, ret := s.rip, rf := true, dr6 := e.dr6 }

/-- The double fault: error code 0, and a return pointer that is not defined (rule R2030; log entry 11). -/
def doubleFault (s : State) : Event × State :=
  ({ kind := .exception, vec := 8, code := some 0, ret := Config.freeBits 64 s.free,
     retCs := some (Config.freeBits 16 (s.free + 1)), rf := s.flags.rf },
   { s with free := s.free + 2 })

/-- #SS and #AC raised by a push of delivery carry EXT (rules R2004, R2029). -/
def Exc.nestedIn (x : Exc) (e : Event) : Exc :=
  if x.vec = 12 ∨ x.vec = 17 then { x with code := x.code.map (· ||| extCode e.ext) } else x

/-- Deliver (rule R2020) with the double-fault rule R2030. A nested exception finds the registers as before delivery;
memory already written stays (decision D79). The bound on nesting is reached only by an #AC that repeats for ever. -/
def deliver : Nat → Event → State → Host.Outcome State Fault Refusal
  | 0, _, _ => .fault .alignmentCheckLoop
  | k + 1, e, s =>
    match (deliverOnce e).run s with
    | .ok _ t => .next t
    | .error (.exc x0) t =>
      let x := x0.nestedIn e
      let s1 := ({ s with mem := t.mem, free := t.free }).noteCr2 x
      match nestingOf e x.vec with
      | .second => deliver k (x.event s1) s1
      | .double => let (d, s2) := doubleFault s1; deliver k d s2
      | .shutdown => .next { s1 with act := { s1.act with shutdown := true } }
    | .error (.fault f) _ => .fault f
    | .error (.refuse r) _ => .refused r

/-- The bound on nested deliveries. -/
def nestBound : Nat := 32

/-- Take an exception: in a transaction the transaction is aborted instead (spec/59_w_wait-xtest.md rule R1196 (a)). -/
def takeException (e : Exc) (s : State) : Host.Outcome State Fault Refusal :=
  if s.rtm.snapshot.isSome then .next (s.rtmAbort s.cfg.rtmFaultStatus)
  else let s1 := s.noteCr2 e; deliver nestBound (e.event s1) s1

/-- Take an external event: in a transaction the transaction is aborted first (spec/59_w_wait-xtest.md rule R1196 (b)). -/
def takeExternal (kind : EventKind) (vec : BitVec 8) (s : State) : Host.Outcome State Fault Refusal :=
  let s1 := s.rtmAbort s.cfg.rtmAsyncStatus
  deliver nestBound { kind := kind, vec := vec, ret := s1.rip, rf := s1.flags.rf } s1

/-- INT n, INT 3 or INTO: deliver with the next instruction as return address (rules R11, R2002); in a transaction the
transaction is aborted instead. -/
def takeSoftware (kind : EventKind) (vec : BitVec 8) (s : State) : Host.Outcome State Fault Refusal :=
  if s.rtm.snapshot.isSome then .next (s.rtmAbort s.cfg.rtmFaultStatus)
  else
    let s1 := { s with flags := { s.flags with rf := false }, act := { s.act with inhibit := .none, afterMovSs := false } }
    deliver nestBound { kind := kind, vec := vec, ret := s.ripNext } s1

/-! From a meaning to a step. -/

/-- What a faulting instruction leaves of the activity `a` before it: NMIs it unblocked stay so, and a monitor it disarmed by a
store. -/
def Activity.afterFault (a b : Activity) : Activity :=
  { a with nmiBlocked := b.nmiBlocked, monitorArmed := a.monitorArmed && b.monitorArmed }

/-- The state a meaning starts from: rIP at the next instruction, RF cleared (spec/10_state.md rule R60), the interrupt
window of the previous instruction over (R163). -/
def State.begin (s : State) : State :=
  { s with rip := s.ripNext, flags := { s.flags with rf := false }, act := { s.act with inhibit := .none, afterMovSs := false, repEntry := none } }

/-- The state after an instruction that completed: the single-step condition is left pending when TF was 1 at its start,
unless it loaded SS (rule R2081 (a)); the interrupt window is not set again by an instruction executed under it (rule R163), but a
load of SS is remembered all the same (rule R2081 (b)); a debug condition met in a transaction aborts it (rule R2081 (g)). -/
def State.finish (s0 s1 : State) : State :=
  let single : BitVec 16 := if s0.flags.tf && decide (s1.act.inhibit ≠ .movSs) then 0x4000 else 0
  let inhibit := if s0.act.inhibit = .none then s1.act.inhibit else .none
  let pending := s1.act.pendingDb ||| single
  let s2 := { s1 with act := { s1.act with
    pendingDb := pending, inhibit := inhibit, afterMovSs := decide (s1.act.inhibit = .movSs) } }
  if s2.rtm.snapshot.isSome && decide (pending ≠ 0) then s2.rtmAbort (s2.cfg.rtmDebugStatus ||| 16) else s2

/-- The state a fault finds: that before the instruction, but for accessed and dirty bits, the monitor their stores disarm, the
flags of MXCSR, NMI unblocking and the free values drawn (rule R2003 (a), (e), (f)); a gather keeps its progress (rule R2003
(b)). -/
def State.rollback (s0 s1 : State) (keep : Bool) : State :=
  if keep then { s1 with rip := s0.rip, flags := s0.flags, act := s0.act.afterFault s1.act }
  else { s0 with mem := s1.mem, free := s1.free, mxcsr := s1.mxcsr, act := s0.act.afterFault s1.act }

/-- Run the body of an instruction as a step (rules R11, R2002, R2003). -/
def run (body : M Unit) (s : State) : Host.Outcome State Fault Refusal :=
  match body.run s.begin with
  | .ok _ t => .next (s.finish t)
  | .error (.exc e) t => takeException e (s.rollback t e.keep)
  | .error (.fault f) _ => .fault f
  | .error (.refuse r) _ => .refused r

/-- RESET# (spec/70_reset_and_hazards.md rule R2200): memory and ports are not touched. -/
def State.doReset (s : State) : State :=
  State.resetWith s.cfg (match s.rtm.snapshot with | some n => n.mem | none => s.mem) s.io s.free

/-- INIT# (spec/70_reset_and_hazards.md rule R2203). A transaction is aborted first (spec/59_w_wait-xtest.md rule R1196 (b)). -/
def State.doInit (s0 : State) : State :=
  let s := s0.rtmAbort 0
  let r := State.resetWith s.cfg s.mem s.io s.free
  { r with
    fpu := s.fpu, ymm := s.ymm, mxcsr := s.mxcsr
    msr := { s.msr with efer := 0 }
    sys := { r.sys with xcr0 := s.sys.xcr0, cr2 := s.sys.cr2, cr0 := (s.sys.cr0 &&& 0x60000000) ||| 0x10 } }

end Sys2Proof.Machine
end

