-- ==== Sys2Proof/Syntax.lean ====
section
/-! DEFINITION. The instructions as syntax (spec/opcode_table.json, one constructor of `Instr` for each row) and the operand
shapes their encodings admit (spec/30_encoding.md rules R305, R340). The prefix rows LOCK, REP, REPE, REPNE, XACQUIRE and
XRELEASE carry the instruction they qualify. Registers and sizes are resolved by the decoder; nothing here is an encoding. -/

namespace Sys2Proof

/-- A general register as an operand of any width: its low part, or for a byte operand bits 15:8 of RAX, RCX, RDX or RBX
(rule R335: AH, CH, DH, BH). -/
inductive Gp where
  | lo (r : Reg)
  | hi (r : Fin 4)
deriving DecidableEq, Repr

/-- A memory operand (rule R330): the segment override, the address size, base, index, scale exponent and displacement,
sign-extended from its low 32 bits; `rip` marks RIP-relative addressing. -/
structure MemRef where
  ovr : Option SReg
  asz : ASize
  base : Option Reg
  index : Option Reg
  scale : Fin 4
  disp : BitVec 32
  rip : Bool
deriving DecidableEq, Repr

/-- A vector-indexed memory operand (rule R331). -/
structure VMem where
  ovr : Option SReg
  asz : ASize
  base : Option Reg
  index : Reg
  scale : Fin 4
  disp : BitVec 32
deriving DecidableEq, Repr

/-- A `moffs` operand (rule R305). -/
structure Moffs where
  ovr : Option SReg
  asz : ASize
  off : Word
deriving DecidableEq, Repr

/-- A general register or memory. -/
inductive Rm where
  | reg (r : Gp)
  | mem (m : MemRef)
deriving DecidableEq, Repr

/-- An XMM or YMM register or memory. -/
inductive Xm where
  | reg (r : Reg)
  | mem (m : MemRef)
deriving DecidableEq, Repr

/-- An MMX register or memory. -/
inductive Mm where
  | reg (r : Fin 8)
  | mem (m : MemRef)
deriving DecidableEq, Repr

/-- ADD and its kin: r/m, r; r, r/m; r/m, imm (sign-extended to 32 bits; to 64 on use). -/
inductive AluOps where
  | mr (w : Width) (dst : Rm) (src : Gp)
  | rm (w : Width) (dst : Gp) (src : Rm)
  | mi (w : Width) (dst : Rm) (imm : BitVec 32)
deriving DecidableEq, Repr

/-- The count of a shift or rotate. -/
inductive Count where
  | one
  | cl
  | imm (n : BitVec 8)
deriving DecidableEq, Repr

/-- A shift or rotate. -/
structure ShiftOps where
  w : Width
  dst : Rm
  cnt : Count
deriving DecidableEq, Repr

/-- SHLD, SHRD. -/
structure DShiftOps where
  w : Width
  dst : Rm
  src : Reg
  cnt : Count
deriving DecidableEq, Repr

/-- One r/m operand. -/
structure RmOp where
  w : Width
  rm : Rm
deriving DecidableEq, Repr

/-- r/m, r. -/
structure MrOps where
  w : Width
  dst : Rm
  src : Gp
deriving DecidableEq, Repr

/-- r, r/m. -/
structure RegRm where
  w : Width
  dst : Reg
  src : Rm
deriving DecidableEq, Repr

/-- IMUL: one, two or three operands. -/
inductive ImulOps where
  | one (w : Width) (src : Rm)
  | two (w : Width) (dst : Reg) (src : Rm)
  | three (w : Width) (dst : Reg) (src : Rm) (imm : BitVec 32)
deriving DecidableEq, Repr

/-- The bit offset of BT and its kin. -/
inductive BitSrc where
  | reg (r : Reg)
  | imm (n : BitVec 8)
deriving DecidableEq, Repr

/-- BT and its kin. -/
structure BitOps where
  w : Width
  dst : Rm
  src : BitSrc
deriving DecidableEq, Repr

/-- TEST: r/m, r; r/m, imm. -/
inductive TestOps where
  | mr (w : Width) (a : Rm) (b : Gp)
  | mi (w : Width) (a : Rm) (imm : BitVec 32)
deriving DecidableEq, Repr

/-- MOVSX, MOVZX, MOVSXD: destination width, source width. -/
structure ExtOps where
  w : Width
  dst : Reg
  sw : Width
  src : Rm
deriving DecidableEq, Repr

/-- CRC32: destination width 32 or 64, source width. -/
structure CrcOps where
  w : Width
  dst : Reg
  sw : Width
  src : Rm
deriving DecidableEq, Repr

/-- A general register of some width. -/
structure RegOp where
  w : Width
  reg : Reg
deriving DecidableEq, Repr

/-- r, m. -/
structure RegMem where
  w : Width
  reg : Reg
  mem : MemRef
deriving DecidableEq, Repr

/-- MOVBE. -/
inductive MovbeOps where
  | load (w : Width) (reg : Reg) (mem : MemRef)
  | store (w : Width) (mem : MemRef) (reg : Reg)
deriving DecidableEq, Repr

/-- VEX-encoded general-register instruction with three operands. -/
structure Vg3 where
  w : Width
  dst : Reg
  a : Reg
  b : Rm
deriving DecidableEq, Repr

/-- RORX. -/
structure RorxOps where
  w : Width
  dst : Reg
  src : Rm
  imm : BitVec 8
deriving DecidableEq, Repr

/-- PUSH. -/
inductive PushOps where
  | rm (w : Width) (src : Rm)
  | imm (w : Width) (v : BitVec 32)
  | seg (w : Width) (r : SReg)
deriving DecidableEq, Repr

/-- POP Sreg, and a load of a segment register with an operand size. -/
structure SegOp where
  w : Width
  seg : SReg
deriving DecidableEq, Repr

/-- MOV between general registers, memory and immediates. -/
inductive MovOps where
  | mr (w : Width) (dst : Rm) (src : Gp)
  | rm (w : Width) (dst : Gp) (src : Rm)
  | mi (w : Width) (dst : Rm) (imm : Word)
  | fromMoffs (w : Width) (src : Moffs)
  | toMoffs (w : Width) (dst : Moffs)
deriving DecidableEq, Repr

/-- MOV to and from a segment register. -/
inductive MovSegOps where
  | load (seg : SReg) (src : Rm)
  | store (w : Width) (dst : Rm) (seg : SReg)
deriving DecidableEq, Repr

/-- MOV to and from a control register. -/
inductive MovCrOps where
  | load (cr : Fin 16) (src : Reg)
  | store (dst : Reg) (cr : Fin 16)
deriving DecidableEq, Repr

/-- MOV to and from a debug register. -/
inductive MovDrOps where
  | load (dr : Fin 8) (src : Reg)
  | store (dst : Reg) (dr : Fin 8)
deriving DecidableEq, Repr

/-- A conditional near jump: the operand size that truncates the target, and the displacement. -/
structure JccOps where
  w : Width
  rel : BitVec 32
deriving DecidableEq, Repr

/-- LOOP, LOOPE, LOOPNE, JCXZ: operand size, size of the count register, displacement. -/
structure LoopOps where
  w : Width
  a : ASize
  rel : BitVec 8
deriving DecidableEq, Repr

/-- JCXZ, JECXZ, JRCXZ: operand size and displacement. -/
structure JcxzOps where
  w : Width
  rel : BitVec 8
deriving DecidableEq, Repr

/-- A far pointer in the instruction. -/
structure FarPtr where
  w : Width
  sel : BitVec 16
  off : BitVec 32
deriving DecidableEq, Repr

/-- A far pointer in memory. -/
structure FarMem where
  w : Width
  mem : MemRef
deriving DecidableEq, Repr

/-- CALL. -/
inductive CallOps where
  | rel (w : Width) (d : BitVec 32)
  | ind (w : Width) (target : Rm)
  | ptr (p : FarPtr)
  | far (p : FarMem)
deriving DecidableEq, Repr

/-- Near JMP. -/
inductive JmpOps where
  | rel (w : Width) (d : BitVec 32)
  | ind (w : Width) (target : Rm)
deriving DecidableEq, Repr

/-- Far JMP. -/
inductive FarOps where
  | ptr (p : FarPtr)
  | far (p : FarMem)
deriving DecidableEq, Repr

/-- RET: operand size and the bytes released, if given. -/
structure RetOps where
  w : Width
  imm : Option (BitVec 16)
deriving DecidableEq, Repr

/-- ENTER: operand size, frame bytes, nesting level. -/
structure EnterOps where
  w : Width
  size : BitVec 16
  level : BitVec 8
deriving DecidableEq, Repr

/-- A port: an immediate byte or DX. -/
inductive Port where
  | imm (n : BitVec 8)
  | dx
deriving DecidableEq, Repr

/-- IN, OUT. -/
structure IoOps where
  w : Width
  port : Port
deriving DecidableEq, Repr

/-- A string instruction with explicit operands: a segment override is present. -/
structure StrOps where
  w : Width
  a : ASize
  ovr : SReg
deriving DecidableEq, Repr

/-- A string instruction under a repeat prefix. -/
structure RepArgs where
  w : Width
  a : ASize
  ovr : Option SReg
deriving DecidableEq, Repr

/-- The string instructions REP qualifies. -/
inductive RepOp where
  | ins (o : RepArgs)
  | movs (o : RepArgs)
  | outs (o : RepArgs)
  | lods (o : RepArgs)
  | stos (o : RepArgs)
deriving DecidableEq, Repr

/-- The string instructions REPE and REPNE qualify. -/
inductive RepCmpOp where
  | cmps (o : RepArgs)
  | scas (o : RepArgs)
deriving DecidableEq, Repr

/-- XLAT with a segment override. -/
structure XlatOps where
  a : ASize
  ovr : SReg
deriving DecidableEq, Repr

/-- An address-size register operand with a segment: MONITOR. -/
structure MonOps where
  a : ASize
  ovr : Option SReg
deriving DecidableEq, Repr

/-- XBEGIN. -/
structure XbeginOps where
  w : Width
  rel : BitVec 32
deriving DecidableEq, Repr

/-- The instructions LOCK may qualify whose destination is r/m, r or r/m, imm. -/
inductive LockAlu where
  | add | or | adc | sbb | and | sub | xor
deriving DecidableEq, Repr

/-- The bit instructions LOCK may qualify. -/
inductive LockBit where
  | bts | btr | btc
deriving DecidableEq, Repr

/-- The one-operand instructions LOCK may qualify. -/
inductive LockUn where
  | inc | dec | neg | not
deriving DecidableEq, Repr

/-- What LOCK may qualify, with a memory destination (rule R312). -/
inductive Lockable where
  | aluReg (op : LockAlu) (w : Width) (m : MemRef) (r : Gp)
  | aluImm (op : LockAlu) (w : Width) (m : MemRef) (imm : BitVec 32)
  | bit (op : LockBit) (w : Width) (m : MemRef) (src : BitSrc)
  | un (op : LockUn) (w : Width) (m : MemRef)
  | cmpxchg (w : Width) (m : MemRef) (r : Gp)
  | xadd (w : Width) (m : MemRef) (r : Gp)
  | xchg (w : Width) (m : MemRef) (r : Gp)
  | cmpxchg8b (m : MemRef)
  | cmpxchg16b (m : MemRef)
deriving DecidableEq, Repr

/-- What XACQUIRE may qualify (spec/59_w_wait-xtest.md rule R1193). -/
inductive AcquireOp where
  | locked (op : Lockable)
  | xchg (w : Width) (m : MemRef) (r : Gp)
deriving DecidableEq, Repr

/-- What XRELEASE may qualify (spec/59_w_wait-xtest.md rule R1193). -/
inductive ReleaseOp where
  | locked (op : Lockable)
  | xchg (w : Width) (m : MemRef) (r : Gp)
  | movReg (w : Width) (m : MemRef) (r : Gp)
  | movImm (w : Width) (m : MemRef) (imm : BitVec 32)
deriving DecidableEq, Repr

/-- FADD and its kin: m32fp, m64fp, ST(0) with ST(i), ST(i) with ST(0). -/
inductive FpArith where
  | m32 (m : MemRef)
  | m64 (m : MemRef)
  | st0 (i : Fin 8)
  | sti (i : Fin 8)
deriving DecidableEq, Repr

/-- FCOM, FCOMP and FST: m32fp, m64fp, ST(i). -/
inductive FpCom where
  | m32 (m : MemRef)
  | m64 (m : MemRef)
  | st (i : Fin 8)
deriving DecidableEq, Repr

/-- FLD and FSTP: m32fp, m64fp, m80fp, ST(i). -/
inductive FpLd where
  | m32 (m : MemRef)
  | m64 (m : MemRef)
  | m80 (m : MemRef)
  | st (i : Fin 8)
deriving DecidableEq, Repr

/-- FIADD and its kin, FICOM, FIST: m16int, m32int. -/
inductive FpInt where
  | m16 (m : MemRef)
  | m32 (m : MemRef)
deriving DecidableEq, Repr

/-- FILD, FISTP, FISTTP: m16int, m32int, m64int. -/
inductive FpInt64 where
  | m16 (m : MemRef)
  | m32 (m : MemRef)
  | m64 (m : MemRef)
deriving DecidableEq, Repr

/-- FLDENV, FNSTENV, FRSTOR, FNSAVE: the operand size chooses the image. -/
structure FpEnv where
  w : Width
  mem : MemRef
deriving DecidableEq, Repr

/-- FNSTSW: m2byte or AX. -/
inductive FpSw where
  | mem (m : MemRef)
  | ax
deriving DecidableEq, Repr

/-- xmm, xmm/m. -/
structure XX where
  dst : Reg
  src : Xm
deriving DecidableEq, Repr

/-- xmm, xmm/m, imm8. -/
structure XXI where
  dst : Reg
  src : Xm
  imm : BitVec 8
deriving DecidableEq, Repr

/-- PCMPESTRI, PCMPESTRM, PCMPISTRI: the width of the length and index registers, xmm, xmm/m, imm8. -/
structure StrCmp where
  w : Width
  dst : Reg
  src : Xm
  imm : BitVec 8
deriving DecidableEq, Repr

/-- mm, mm/m or xmm, xmm/m. -/
inductive MX where
  | mm (dst : Fin 8) (src : Mm)
  | xx (dst : Reg) (src : Xm)
deriving DecidableEq, Repr

/-- mm, mm/m, imm8 or xmm, xmm/m, imm8. -/
inductive MXI where
  | mm (dst : Fin 8) (src : Mm) (imm : BitVec 8)
  | xx (dst : Reg) (src : Xm) (imm : BitVec 8)
deriving DecidableEq, Repr

/-- The packed shifts: count in a register, memory or an immediate. -/
inductive MShift where
  | mm (dst : Fin 8) (cnt : Mm)
  | xx (dst : Reg) (cnt : Xm)
  | mmI (dst : Fin 8) (imm : BitVec 8)
  | xxI (dst : Reg) (imm : BitVec 8)
deriving DecidableEq, Repr

/-- mm, mm/m64, imm8: PSHUFW. -/
structure MMI where
  dst : Fin 8
  src : Mm
  imm : BitVec 8
deriving DecidableEq, Repr

/-- xmm, imm8: PSLLDQ, PSRLDQ. -/
structure XI where
  dst : Reg
  imm : BitVec 8
deriving DecidableEq, Repr

/-- A move xmm, xmm/m or xmm/m, xmm. -/
inductive XMov where
  | load (dst : Reg) (src : Xm)
  | store (dst : Xm) (src : Reg)
deriving DecidableEq, Repr

/-- A move xmm, m or m, xmm. -/
inductive XMemMov where
  | load (dst : Reg) (m : MemRef)
  | store (m : MemRef) (src : Reg)
deriving DecidableEq, Repr

/-- xmm, m. -/
structure XMem where
  dst : Reg
  mem : MemRef
deriving DecidableEq, Repr

/-- m, xmm. -/
structure MemX where
  mem : MemRef
  src : Reg
deriving DecidableEq, Repr

/-- xmm, xmm. -/
structure XReg where
  dst : Reg
  src : Reg
deriving DecidableEq, Repr

/-- MASKMOVQ: the address size and segment of the implied memory operand, source and mask. -/
structure MMask where
  a : ASize
  ovr : Option SReg
  src : Fin 8
  mask : Fin 8
deriving DecidableEq, Repr

/-- MASKMOVDQU, VMASKMOVDQU: the address size and segment of the implied memory operand, source and mask. -/
structure XMask where
  a : ASize
  ovr : Option SReg
  src : Reg
  mask : Reg
deriving DecidableEq, Repr

/-- m64, mm: MOVNTQ. -/
structure MemM where
  mem : MemRef
  src : Fin 8
deriving DecidableEq, Repr

/-- mm, xmm/m. -/
structure MXm where
  dst : Fin 8
  src : Xm
deriving DecidableEq, Repr

/-- xmm, mm/m64. -/
structure XMm where
  dst : Reg
  src : Mm
deriving DecidableEq, Repr

/-- r32 or r64, xmm/m. -/
structure GX where
  w : Width
  dst : Reg
  src : Xm
deriving DecidableEq, Repr

/-- xmm, r/m32 or r/m64. -/
structure XG where
  dst : Reg
  w : Width
  src : Rm
deriving DecidableEq, Repr

/-- A general register from a mask of an mm or xmm register: PMOVMSKB. -/
inductive GMask where
  | mm (dst : Reg) (src : Fin 8)
  | xx (dst : Reg) (src : Reg)
deriving DecidableEq, Repr

/-- r/m, xmm, imm8: PEXTRB, PEXTRD, PEXTRQ, EXTRACTPS. -/
structure ExtrOps where
  dst : Rm
  src : Reg
  imm : BitVec 8
deriving DecidableEq, Repr

/-- PEXTRW: 0F C5 from mm, 66 0F C5 from xmm, 66 0F 3A 15 from xmm to r/m16. -/
inductive PextrwOps where
  | mm (dst : Reg) (src : Fin 8) (imm : BitVec 8)
  | xx (dst : Reg) (src : Reg) (imm : BitVec 8)
  | xrm (dst : Rm) (src : Reg) (imm : BitVec 8)
deriving DecidableEq, Repr

/-- xmm, r/m, imm8: PINSRB, PINSRD, PINSRQ. -/
structure InsOps where
  dst : Reg
  src : Rm
  imm : BitVec 8
deriving DecidableEq, Repr

/-- PINSRW. -/
inductive PinsrwOps where
  | mm (dst : Fin 8) (src : Rm) (imm : BitVec 8)
  | xx (dst : Reg) (src : Rm) (imm : BitVec 8)
deriving DecidableEq, Repr

/-- MOVD and MOVQ between a general register or memory and an mm or xmm register. -/
inductive MovdOps where
  | toMm (dst : Fin 8) (src : Rm)
  | fromMm (dst : Rm) (src : Fin 8)
  | toX (dst : Reg) (src : Rm)
  | fromX (dst : Rm) (src : Reg)
deriving DecidableEq, Repr

/-- MOVQ between mm or xmm registers and memory. -/
inductive MovqOps where
  | mmLoad (dst : Fin 8) (src : Mm)
  | mmStore (dst : Mm) (src : Fin 8)
  | xLoad (dst : Reg) (src : Xm)
  | xStore (dst : Xm) (src : Reg)
deriving DecidableEq, Repr

/-- MOVDQ2Q. -/
structure Dq2qOps where
  dst : Fin 8
  src : Reg
deriving DecidableEq, Repr

/-- MOVQ2DQ. -/
structure Q2dqOps where
  dst : Reg
  src : Fin 8
deriving DecidableEq, Repr

/-- VEX: vector, vector/m. -/
structure VX where
  l : VLen
  dst : Reg
  src : Xm
deriving DecidableEq, Repr

/-- VEX: vector, vector/m, imm8. -/
structure VXI where
  l : VLen
  dst : Reg
  src : Xm
  imm : BitVec 8
deriving DecidableEq, Repr

/-- VEX: vector, vector, vector/m. -/
structure VVX where
  l : VLen
  dst : Reg
  a : Reg
  b : Xm
deriving DecidableEq, Repr

/-- VEX: vector, vector, vector/m, imm8. -/
structure VVXI where
  l : VLen
  dst : Reg
  a : Reg
  b : Xm
  imm : BitVec 8
deriving DecidableEq, Repr

/-- VEX: vector, vector, vector/m, vector (imm8[7:4]). -/
structure VVXR where
  l : VLen
  dst : Reg
  a : Reg
  b : Xm
  c : Reg
deriving DecidableEq, Repr

/-- VEX packed shifts: count in xmm/m128 or an immediate. -/
inductive VShift where
  | vec (l : VLen) (dst a : Reg) (cnt : Xm)
  | imm (l : VLen) (dst src : Reg) (n : BitVec 8)
deriving DecidableEq, Repr

/-- VEX: vector, vector, imm8: VPSLLDQ, VPSRLDQ. -/
structure VVI where
  l : VLen
  dst : Reg
  src : Reg
  imm : BitVec 8
deriving DecidableEq, Repr

/-- VEX moves. -/
inductive VMov where
  | load (l : VLen) (dst : Reg) (src : Xm)
  | store (l : VLen) (dst : Xm) (src : Reg)
deriving DecidableEq, Repr

/-- VMOVHPD and its kin. -/
inductive VHalfMov where
  | load (dst a : Reg) (m : MemRef)
  | store (m : MemRef) (src : Reg)
deriving DecidableEq, Repr

/-- VEX: vector, m. -/
structure VXMem where
  l : VLen
  dst : Reg
  mem : MemRef
deriving DecidableEq, Repr

/-- VEX: m, vector. -/
structure VMemX where
  l : VLen
  mem : MemRef
  src : Reg
deriving DecidableEq, Repr

/-- VEX masked moves. -/
inductive VMaskMov where
  | load (l : VLen) (dst mask : Reg) (m : MemRef)
  | store (l : VLen) (m : MemRef) (mask src : Reg)
deriving DecidableEq, Repr

/-- VEX: xmm, xmm, xmm. -/
structure VReg3 where
  dst : Reg
  a : Reg
  b : Reg
deriving DecidableEq, Repr

/-- VEX: a general register from a mask of a vector. -/
structure VGMask where
  l : VLen
  dst : Reg
  src : Reg
deriving DecidableEq, Repr

/-- VEX: xmm, xmm, r/m. -/
structure VXG where
  dst : Reg
  a : Reg
  w : Width
  src : Rm
deriving DecidableEq, Repr

/-- VEX: xmm, xmm, r/m, imm8. -/
structure VInsOps where
  dst : Reg
  a : Reg
  src : Rm
  imm : BitVec 8
deriving DecidableEq, Repr

/-- VMOVD and VMOVQ with a general register or memory. -/
inductive VMovd where
  | load (dst : Reg) (src : Rm)
  | store (dst : Rm) (src : Reg)
deriving DecidableEq, Repr

/-- VMOVSS, VMOVSD. -/
inductive VScalarMov where
  | reg (dst a b : Reg)
  | load (dst : Reg) (m : MemRef)
  | store (m : MemRef) (src : Reg)
deriving DecidableEq, Repr

/-- VEX: xmm/m, vector, imm8: VEXTRACTF128, VEXTRACTI128, VCVTPS2PH. -/
structure VExtOps where
  l : VLen
  dst : Xm
  src : Reg
  imm : BitVec 8
deriving DecidableEq, Repr

/-- VPERMILPS, VPERMILPD: control in a vector or an immediate. -/
inductive VPermil where
  | vec (o : VVX)
  | imm (o : VXI)
deriving DecidableEq, Repr

/-- The gathers. -/
structure VGather where
  l : VLen
  dst : Reg
  mask : Reg
  mem : VMem
deriving DecidableEq, Repr

/-- The instructions: one constructor for each row of spec/opcode_table.json, with the rule that states it. -/
inductive Instr where
  | aaa  -- AAA, R500
  | aad (o : BitVec 8)  -- AAD, R501
  | aam (o : BitVec 8)  -- AAM, R502
  | aas  -- AAS, R503
  | adc (o : AluOps)  -- ADC, R504
  | adcx (o : RegRm)  -- ADCX, R505
  | add (o : AluOps)  -- ADD, R506
  | addpd (o : XX)  -- ADDPD, R507
  | vaddpd (o : VVX)  -- VADDPD, R507
  | addps (o : XX)  -- ADDPS, R508
  | vaddps (o : VVX)  -- VADDPS, R508
  | addsd (o : XX)  -- ADDSD, R509
  | vaddsd (o : VVX)  -- VADDSD, R509
  | addss (o : XX)  -- ADDSS, R510
  | vaddss (o : VVX)  -- VADDSS, R510
  | addsubpd (o : XX)  -- ADDSUBPD, R511
  | vaddsubpd (o : VVX)  -- VADDSUBPD, R511
  | addsubps (o : XX)  -- ADDSUBPS, R512
  | vaddsubps (o : VVX)  -- VADDSUBPS, R512
  | adox (o : RegRm)  -- ADOX, R513
  | aesdec (o : XX)  -- AESDEC, R514
  | vaesdec (o : VVX)  -- VAESDEC, R514
  | aesdeclast (o : XX)  -- AESDECLAST, R515
  | vaesdeclast (o : VVX)  -- VAESDECLAST, R515
  | aesenc (o : XX)  -- AESENC, R516
  | vaesenc (o : VVX)  -- VAESENC, R516
  | aesenclast (o : XX)  -- AESENCLAST, R517
  | vaesenclast (o : VVX)  -- VAESENCLAST, R517
  | aesimc (o : XX)  -- AESIMC, R518
  | vaesimc (o : VX)  -- VAESIMC, R518
  | aeskeygenassist (o : XXI)  -- AESKEYGENASSIST, R519
  | vaeskeygenassist (o : VXI)  -- VAESKEYGENASSIST, R519
  | and (o : AluOps)  -- AND, R520
  | andn (o : Vg3)  -- ANDN, R521
  | andpd (o : XX)  -- ANDPD, R522
  | vandpd (o : VVX)  -- VANDPD, R522
  | andps (o : XX)  -- ANDPS, R523
  | vandps (o : VVX)  -- VANDPS, R523
  | andnpd (o : XX)  -- ANDNPD, R524
  | vandnpd (o : VVX)  -- VANDNPD, R524
  | andnps (o : XX)  -- ANDNPS, R525
  | vandnps (o : VVX)  -- VANDNPS, R525
  | arpl (o : MrOps)  -- ARPL, R526
  | blendpd (o : XXI)  -- BLENDPD, R527
  | vblendpd (o : VVXI)  -- VBLENDPD, R527
  | bextr (o : Vg3)  -- BEXTR, R528
  | blendps (o : XXI)  -- BLENDPS, R529
  | vblendps (o : VVXI)  -- VBLENDPS, R529
  | blendvpd (o : XX)  -- BLENDVPD, R530
  | vblendvpd (o : VVXR)  -- VBLENDVPD, R530
  | blendvps (o : XX)  -- BLENDVPS, R531
  | vblendvps (o : VVXR)  -- VBLENDVPS, R531
  | blsi (o : RegRm)  -- BLSI, R532
  | blsmsk (o : RegRm)  -- BLSMSK, R533
  | blsr (o : RegRm)  -- BLSR, R534
  | bound (o : RegMem)  -- BOUND, R535
  | bsf (o : RegRm)  -- BSF, R536
  | bsr (o : RegRm)  -- BSR, R537
  | bswap (o : RegOp)  -- BSWAP, R538
  | bt (o : BitOps)  -- BT, R540
  | btc (o : BitOps)  -- BTC, R541
  | btr (o : BitOps)  -- BTR, R542
  | bts (o : BitOps)  -- BTS, R543
  | bzhi (o : Vg3)  -- BZHI, R544
  | call (o : CallOps)  -- CALL, R545
  | cbw  -- CBW, R554
  | cwde  -- CWDE, R554
  | cdqe  -- CDQE, R554
  | clac  -- CLAC, R555
  | clc  -- CLC, R556
  | cld  -- CLD, R557
  | clflush (o : MemRef)  -- CLFLUSH, R558
  | cli  -- CLI, R559
  | clts  -- CLTS, R560
  | cmc  -- CMC, R561
  | cmovo (o : RegRm)  -- CMOVO, R562
  | cmovno (o : RegRm)  -- CMOVNO, R562
  | cmovb (o : RegRm)  -- CMOVB, R562
  | cmovae (o : RegRm)  -- CMOVAE, R562
  | cmove (o : RegRm)  -- CMOVE, R562
  | cmovne (o : RegRm)  -- CMOVNE, R562
  | cmovbe (o : RegRm)  -- CMOVBE, R562
  | cmova (o : RegRm)  -- CMOVA, R562
  | cmovs (o : RegRm)  -- CMOVS, R562
  | cmovns (o : RegRm)  -- CMOVNS, R562
  | cmovp (o : RegRm)  -- CMOVP, R562
  | cmovnp (o : RegRm)  -- CMOVNP, R562
  | cmovl (o : RegRm)  -- CMOVL, R562
  | cmovge (o : RegRm)  -- CMOVGE, R562
  | cmovle (o : RegRm)  -- CMOVLE, R562
  | cmovg (o : RegRm)  -- CMOVG, R562
  | cmp (o : AluOps)  -- CMP, R563
  | cmppd (o : XXI)  -- CMPPD, R565
  | vcmppd (o : VVXI)  -- VCMPPD, R565
  | cmpps (o : XXI)  -- CMPPS, R566
  | vcmpps (o : VVXI)  -- VCMPPS, R566
  | cmps (o : StrOps)  -- CMPS, R567
  | cmpsb (o : ASize)  -- CMPSB, R567
  | cmpsw (o : ASize)  -- CMPSW, R567
  | cmpsdStr (o : ASize)  -- CMPSD, R567
  | cmpsq (o : ASize)  -- CMPSQ, R567
  | cmpsdSse (o : XXI)  -- CMPSD, R568
  | vcmpsd (o : VVXI)  -- VCMPSD, R568
  | cmpss (o : XXI)  -- CMPSS, R569
  | vcmpss (o : VVXI)  -- VCMPSS, R569
  | cmpxchg (o : MrOps)  -- CMPXCHG, R570
  | cmpxchg8b (o : MemRef)  -- CMPXCHG8B, R571
  | cmpxchg16b (o : MemRef)  -- CMPXCHG16B, R571
  | comisd (o : XX)  -- COMISD, R572
  | vcomisd (o : VX)  -- VCOMISD, R572
  | comiss (o : XX)  -- COMISS, R573
  | vcomiss (o : VX)  -- VCOMISS, R573
  | cpuid  -- CPUID, R574
  | crc32 (o : CrcOps)  -- CRC32, R579
  | cvtdq2pd (o : XX)  -- CVTDQ2PD, R581
  | vcvtdq2pd (o : VX)  -- VCVTDQ2PD, R581
  | cvtdq2ps (o : XX)  -- CVTDQ2PS, R582
  | vcvtdq2ps (o : VX)  -- VCVTDQ2PS, R582
  | cvtpd2dq (o : XX)  -- CVTPD2DQ, R583
  | vcvtpd2dq (o : VX)  -- VCVTPD2DQ, R583
  | cvtpd2ps (o : XX)  -- CVTPD2PS, R584
  | vcvtpd2ps (o : VX)  -- VCVTPD2PS, R584
  | cvtps2dq (o : XX)  -- CVTPS2DQ, R585
  | vcvtps2dq (o : VX)  -- VCVTPS2DQ, R585
  | cvtps2pd (o : XX)  -- CVTPS2PD, R586
  | vcvtps2pd (o : VX)  -- VCVTPS2PD, R586
  | cvttpd2dq (o : XX)  -- CVTTPD2DQ, R587
  | vcvttpd2dq (o : VX)  -- VCVTTPD2DQ, R587
  | cvttps2dq (o : XX)  -- CVTTPS2DQ, R588
  | vcvttps2dq (o : VX)  -- VCVTTPS2DQ, R588
  | cvtpd2pi (o : MXm)  -- CVTPD2PI, R589
  | cvttpd2pi (o : MXm)  -- CVTTPD2PI, R590
  | cvtpi2pd (o : XMm)  -- CVTPI2PD, R591
  | cvtpi2ps (o : XMm)  -- CVTPI2PS, R592
  | cvtps2pi (o : MXm)  -- CVTPS2PI, R593
  | cvttps2pi (o : MXm)  -- CVTTPS2PI, R594
  | cvtsd2si (o : GX)  -- CVTSD2SI, R595
  | vcvtsd2si (o : GX)  -- VCVTSD2SI, R595
  | cvttsd2si (o : GX)  -- CVTTSD2SI, R596
  | vcvttsd2si (o : GX)  -- VCVTTSD2SI, R596
  | cvtss2si (o : GX)  -- CVTSS2SI, R597
  | vcvtss2si (o : GX)  -- VCVTSS2SI, R597
  | cvttss2si (o : GX)  -- CVTTSS2SI, R598
  | vcvttss2si (o : GX)  -- VCVTTSS2SI, R598
  | cvtsi2sd (o : XG)  -- CVTSI2SD, R599
  | vcvtsi2sd (o : VXG)  -- VCVTSI2SD, R599
  | cvtsi2ss (o : XG)  -- CVTSI2SS, R600
  | vcvtsi2ss (o : VXG)  -- VCVTSI2SS, R600
  | cvtsd2ss (o : XX)  -- CVTSD2SS, R601
  | vcvtsd2ss (o : VVX)  -- VCVTSD2SS, R601
  | cvtss2sd (o : XX)  -- CVTSS2SD, R602
  | vcvtss2sd (o : VVX)  -- VCVTSS2SD, R602
  | cwd  -- CWD, R603
  | cdq  -- CDQ, R603
  | cqo  -- CQO, R603
  | daa  -- DAA, R604
  | das  -- DAS, R605
  | dec (o : RmOp)  -- DEC, R606
  | div (o : RmOp)  -- DIV, R607
  | divpd (o : XX)  -- DIVPD, R608
  | vdivpd (o : VVX)  -- VDIVPD, R608
  | divps (o : XX)  -- DIVPS, R609
  | vdivps (o : VVX)  -- VDIVPS, R609
  | divsd (o : XX)  -- DIVSD, R610
  | vdivsd (o : VVX)  -- VDIVSD, R610
  | divss (o : XX)  -- DIVSS, R611
  | vdivss (o : VVX)  -- VDIVSS, R611
  | dppd (o : XXI)  -- DPPD, R612
  | vdppd (o : VVXI)  -- VDPPD, R612
  | dpps (o : XXI)  -- DPPS, R613
  | vdpps (o : VVXI)  -- VDPPS, R613
  | emms  -- EMMS, R614
  | enter (o : EnterOps)  -- ENTER, R615
  | extractps (o : ExtrOps)  -- EXTRACTPS, R616
  | vextractps (o : ExtrOps)  -- VEXTRACTPS, R616
  | f2xm1  -- F2XM1, R618
  | fabs  -- FABS, R619
  | fadd (o : FpArith)  -- FADD, R620
  | faddp (o : Fin 8)  -- FADDP, R621
  | fiadd (o : FpInt)  -- FIADD, R622
  | fbld (o : MemRef)  -- FBLD, R623
  | fbstp (o : MemRef)  -- FBSTP, R624
  | fchs  -- FCHS, R625
  | fnclex  -- FNCLEX, R626
  | fclex  -- FCLEX, R627
  | fcmovb (o : Fin 8)  -- FCMOVB, R628
  | fcmove (o : Fin 8)  -- FCMOVE, R628
  | fcmovbe (o : Fin 8)  -- FCMOVBE, R628
  | fcmovu (o : Fin 8)  -- FCMOVU, R628
  | fcmovnb (o : Fin 8)  -- FCMOVNB, R628
  | fcmovne (o : Fin 8)  -- FCMOVNE, R628
  | fcmovnbe (o : Fin 8)  -- FCMOVNBE, R628
  | fcmovnu (o : Fin 8)  -- FCMOVNU, R628
  | fcom (o : FpCom)  -- FCOM, R629
  | fcomp (o : FpCom)  -- FCOMP, R630
  | fcompp  -- FCOMPP, R631
  | fcomi (o : Fin 8)  -- FCOMI, R632
  | fcomip (o : Fin 8)  -- FCOMIP, R632
  | fucomi (o : Fin 8)  -- FUCOMI, R633
  | fucomip (o : Fin 8)  -- FUCOMIP, R633
  | fcos  -- FCOS, R634
  | fdecstp  -- FDECSTP, R635
  | fdiv (o : FpArith)  -- FDIV, R636
  | fdivp (o : Fin 8)  -- FDIVP, R637
  | fidiv (o : FpInt)  -- FIDIV, R638
  | fdivr (o : FpArith)  -- FDIVR, R639
  | fdivrp (o : Fin 8)  -- FDIVRP, R640
  | fidivr (o : FpInt)  -- FIDIVR, R641
  | ffree (o : Fin 8)  -- FFREE, R642
  | ficom (o : FpInt)  -- FICOM, R643
  | ficomp (o : FpInt)  -- FICOMP, R643
  | fild (o : FpInt64)  -- FILD, R644
  | fincstp  -- FINCSTP, R645
  | fninit  -- FNINIT, R646
  | finit  -- FINIT, R647
  | fist (o : FpInt)  -- FIST, R648
  | fistp (o : FpInt64)  -- FISTP, R649
  | fisttp (o : FpInt64)  -- FISTTP, R650
  | fld (o : FpLd)  -- FLD, R651
  | fld1  -- FLD1, R652
  | fldl2t  -- FLDL2T, R653
  | fldl2e  -- FLDL2E, R654
  | fldpi  -- FLDPI, R655
  | fldlg2  -- FLDLG2, R656
  | fldln2  -- FLDLN2, R657
  | fldz  -- FLDZ, R658
  | fldcw (o : MemRef)  -- FLDCW, R659
  | fldenv (o : FpEnv)  -- FLDENV, R660
  | fmul (o : FpArith)  -- FMUL, R661
  | fmulp (o : Fin 8)  -- FMULP, R662
  | fimul (o : FpInt)  -- FIMUL, R663
  | fnop  -- FNOP, R664
  | fpatan  -- FPATAN, R665
  | fprem  -- FPREM, R666
  | fprem1  -- FPREM1, R667
  | fptan  -- FPTAN, R668
  | frndint  -- FRNDINT, R669
  | frstor (o : FpEnv)  -- FRSTOR, R670
  | fnsave (o : FpEnv)  -- FNSAVE, R671
  | fsave (o : FpEnv)  -- FSAVE, R672
  | fscale  -- FSCALE, R673
  | fsin  -- FSIN, R674
  | fsincos  -- FSINCOS, R675
  | fsqrt  -- FSQRT, R676
  | fst (o : FpCom)  -- FST, R677
  | fstp (o : FpLd)  -- FSTP, R678
  | fnstcw (o : MemRef)  -- FNSTCW, R679
  | fstcw (o : MemRef)  -- FSTCW, R680
  | fnstenv (o : FpEnv)  -- FNSTENV, R681
  | fstenv (o : FpEnv)  -- FSTENV, R682
  | fnstsw (o : FpSw)  -- FNSTSW, R683
  | fstsw (o : FpSw)  -- FSTSW, R684
  | fsub (o : FpArith)  -- FSUB, R685
  | fsubp (o : Fin 8)  -- FSUBP, R686
  | fisub (o : FpInt)  -- FISUB, R687
  | fsubr (o : FpArith)  -- FSUBR, R688
  | fsubrp (o : Fin 8)  -- FSUBRP, R689
  | fisubr (o : FpInt)  -- FISUBR, R690
  | ftst  -- FTST, R691
  | fucom (o : Fin 8)  -- FUCOM, R692
  | fucomp (o : Fin 8)  -- FUCOMP, R693
  | fucompp  -- FUCOMPP, R694
  | fxam  -- FXAM, R695
  | fxch (o : Fin 8)  -- FXCH, R696
  | fxrstor (o : MemRef)  -- FXRSTOR, R697
  | fxrstor64 (o : MemRef)  -- FXRSTOR64, R697
  | fxsave (o : MemRef)  -- FXSAVE, R698
  | fxsave64 (o : MemRef)  -- FXSAVE64, R698
  | fxtract  -- FXTRACT, R701
  | fyl2x  -- FYL2X, R702
  | fyl2xp1  -- FYL2XP1, R703
  | haddpd (o : XX)  -- HADDPD, R704
  | vhaddpd (o : VVX)  -- VHADDPD, R704
  | haddps (o : XX)  -- HADDPS, R705
  | vhaddps (o : VVX)  -- VHADDPS, R705
  | hsubpd (o : XX)  -- HSUBPD, R706
  | vhsubpd (o : VVX)  -- VHSUBPD, R706
  | hsubps (o : XX)  -- HSUBPS, R707
  | vhsubps (o : VVX)  -- VHSUBPS, R707
  | hlt  -- HLT, R708
  | idiv (o : RmOp)  -- IDIV, R709
  | imul (o : ImulOps)  -- IMUL, R710
  | inp (o : IoOps)  -- IN, R711
  | ins (o : StrOps)  -- INS, R712
  | insb (o : ASize)  -- INSB, R712
  | insw (o : ASize)  -- INSW, R712
  | insd (o : ASize)  -- INSD, R712
  | inc (o : RmOp)  -- INC, R713
  | insertps (o : XXI)  -- INSERTPS, R714
  | vinsertps (o : VVXI)  -- VINSERTPS, R714
  | intN (o : BitVec 8)  -- INT, R715
  | int3  -- INT, R716
  | into  -- INTO, R717
  | invd  -- INVD, R718
  | invlpg (o : MemRef)  -- INVLPG, R719
  | invpcid (o : RegMem)  -- INVPCID, R720
  | iret  -- IRET, R721
  | iretd  -- IRETD, R721
  | iretq  -- IRETQ, R721
  | jo (o : JccOps)  -- JO, R723
  | jno (o : JccOps)  -- JNO, R724
  | jb (o : JccOps)  -- JB, R725
  | jae (o : JccOps)  -- JAE, R726
  | je (o : JccOps)  -- JE, R727
  | jne (o : JccOps)  -- JNE, R728
  | jbe (o : JccOps)  -- JBE, R729
  | ja (o : JccOps)  -- JA, R730
  | js (o : JccOps)  -- JS, R731
  | jns (o : JccOps)  -- JNS, R732
  | jp (o : JccOps)  -- JP, R733
  | jnp (o : JccOps)  -- JNP, R734
  | jl (o : JccOps)  -- JL, R735
  | jge (o : JccOps)  -- JGE, R736
  | jle (o : JccOps)  -- JLE, R737
  | jg (o : JccOps)  -- JG, R738
  | jcxz (o : JcxzOps)  -- JCXZ, R739
  | jecxz (o : JcxzOps)  -- JECXZ, R739
  | jrcxz (o : JcxzOps)  -- JRCXZ, R739
  | jmpNear (o : JmpOps)  -- JMP, R740
  | jmpFar (o : FarOps)  -- JMP, R741
  | lahf  -- LAHF, R742
  | lar (o : RegRm)  -- LAR, R743
  | lddqu (o : XMem)  -- LDDQU, R744
  | vlddqu (o : VXMem)  -- VLDDQU, R744
  | ldmxcsr (o : MemRef)  -- LDMXCSR, R745
  | vldmxcsr (o : MemRef)  -- VLDMXCSR, R745
  | lds (o : RegMem)  -- LDS, R747
  | les (o : RegMem)  -- LES, R748
  | lfs (o : RegMem)  -- LFS, R749
  | lgs (o : RegMem)  -- LGS, R750
  | lss (o : RegMem)  -- LSS, R751
  | lea (o : RegMem)  -- LEA, R752
  | leave (o : Width)  -- LEAVE, R753
  | lfence  -- LFENCE, R754
  | lgdt (o : FarMem)  -- LGDT, R755
  | lidt (o : FarMem)  -- LIDT, R756
  | lldt (o : Rm)  -- LLDT, R757
  | lmsw (o : Rm)  -- LMSW, R758
  | ltr (o : Rm)  -- LTR, R759
  | lock (o : Lockable)  -- LOCK, R760
  | lods (o : StrOps)  -- LODS, R761
  | lodsb (o : ASize)  -- LODSB, R761
  | lodsw (o : ASize)  -- LODSW, R761
  | lodsd (o : ASize)  -- LODSD, R761
  | lodsq (o : ASize)  -- LODSQ, R761
  | loop (o : LoopOps)  -- LOOP, R762
  | loope (o : LoopOps)  -- LOOPE, R763
  | loopne (o : LoopOps)  -- LOOPNE, R764
  | lsl (o : RegRm)  -- LSL, R765
  | lzcnt (o : RegRm)  -- LZCNT, R766
  | maskmovdqu (o : XMask)  -- MASKMOVDQU, R767
  | vmaskmovdqu (o : XMask)  -- VMASKMOVDQU, R767
  | maskmovq (o : MMask)  -- MASKMOVQ, R768
  | maxpd (o : XX)  -- MAXPD, R769
  | vmaxpd (o : VVX)  -- VMAXPD, R769
  | maxps (o : XX)  -- MAXPS, R770
  | vmaxps (o : VVX)  -- VMAXPS, R770
  | maxsd (o : XX)  -- MAXSD, R771
  | vmaxsd (o : VVX)  -- VMAXSD, R771
  | maxss (o : XX)  -- MAXSS, R772
  | vmaxss (o : VVX)  -- VMAXSS, R772
  | minpd (o : XX)  -- MINPD, R773
  | vminpd (o : VVX)  -- VMINPD, R773
  | minps (o : XX)  -- MINPS, R774
  | vminps (o : VVX)  -- VMINPS, R774
  | minsd (o : XX)  -- MINSD, R775
  | vminsd (o : VVX)  -- VMINSD, R775
  | minss (o : XX)  -- MINSS, R776
  | vminss (o : VVX)  -- VMINSS, R776
  | mfence  -- MFENCE, R777
  | monitor (o : MonOps)  -- MONITOR, R778
  | mov (o : MovOps)  -- MOV, R779
  | movSeg (o : MovSegOps)  -- MOV, R780
  | movCr (o : MovCrOps)  -- MOV, R781
  | movDr (o : MovDrOps)  -- MOV, R782
  | movapd (o : XMov)  -- MOVAPD, R783
  | vmovapd (o : VMov)  -- VMOVAPD, R783
  | movaps (o : XMov)  -- MOVAPS, R784
  | vmovaps (o : VMov)  -- VMOVAPS, R784
  | movbe (o : MovbeOps)  -- MOVBE, R785
  | movd (o : MovdOps)  -- MOVD, R786
  | movqGp (o : MovdOps)  -- MOVQ, R786
  | vmovd (o : VMovd)  -- VMOVD, R786
  | vmovqGp (o : VMovd)  -- VMOVQ, R786
  | movddup (o : XX)  -- MOVDDUP, R787
  | vmovddup (o : VX)  -- VMOVDDUP, R787
  | movdqa (o : XMov)  -- MOVDQA, R788
  | vmovdqa (o : VMov)  -- VMOVDQA, R788
  | movdqu (o : XMov)  -- MOVDQU, R789
  | vmovdqu (o : VMov)  -- VMOVDQU, R789
  | movdq2q (o : Dq2qOps)  -- MOVDQ2Q, R790
  | movhlps (o : XReg)  -- MOVHLPS, R791
  | vmovhlps (o : VReg3)  -- VMOVHLPS, R791
  | movhpd (o : XMemMov)  -- MOVHPD, R792
  | vmovhpd (o : VHalfMov)  -- VMOVHPD, R792
  | movhps (o : XMemMov)  -- MOVHPS, R793
  | vmovhps (o : VHalfMov)  -- VMOVHPS, R793
  | movlhps (o : XReg)  -- MOVLHPS, R794
  | vmovlhps (o : VReg3)  -- VMOVLHPS, R794
  | movlpd (o : XMemMov)  -- MOVLPD, R795
  | vmovlpd (o : VHalfMov)  -- VMOVLPD, R795
  | movlps (o : XMemMov)  -- MOVLPS, R796
  | vmovlps (o : VHalfMov)  -- VMOVLPS, R796
  | movmskpd (o : XReg)  -- MOVMSKPD, R797
  | vmovmskpd (o : VGMask)  -- VMOVMSKPD, R797
  | movmskps (o : XReg)  -- MOVMSKPS, R798
  | vmovmskps (o : VGMask)  -- VMOVMSKPS, R798
  | movntdqa (o : XMem)  -- MOVNTDQA, R799
  | vmovntdqa (o : VXMem)  -- VMOVNTDQA, R799
  | movntdq (o : MemX)  -- MOVNTDQ, R800
  | vmovntdq (o : VMemX)  -- VMOVNTDQ, R800
  | movnti (o : RegMem)  -- MOVNTI, R801
  | movntpd (o : MemX)  -- MOVNTPD, R802
  | vmovntpd (o : VMemX)  -- VMOVNTPD, R802
  | movntps (o : MemX)  -- MOVNTPS, R803
  | vmovntps (o : VMemX)  -- VMOVNTPS, R803
  | movntq (o : MemM)  -- MOVNTQ, R804
  | movqX (o : MovqOps)  -- MOVQ, R805
  | vmovqX (o : VMov)  -- VMOVQ, R805
  | movq2dq (o : Q2dqOps)  -- MOVQ2DQ, R806
  | movs (o : StrOps)  -- MOVS, R807
  | movsb (o : ASize)  -- MOVSB, R807
  | movsw (o : ASize)  -- MOVSW, R807
  | movsdStr (o : ASize)  -- MOVSD, R807
  | movsq (o : ASize)  -- MOVSQ, R807
  | movsdSse (o : XMov)  -- MOVSD, R808
  | vmovsd (o : VScalarMov)  -- VMOVSD, R808
  | movshdup (o : XX)  -- MOVSHDUP, R809
  | vmovshdup (o : VX)  -- VMOVSHDUP, R809
  | movsldup (o : XX)  -- MOVSLDUP, R810
  | vmovsldup (o : VX)  -- VMOVSLDUP, R810
  | movss (o : XMov)  -- MOVSS, R811
  | vmovss (o : VScalarMov)  -- VMOVSS, R811
  | movsx (o : ExtOps)  -- MOVSX, R812
  | movsxd (o : ExtOps)  -- MOVSXD, R812
  | movupd (o : XMov)  -- MOVUPD, R813
  | vmovupd (o : VMov)  -- VMOVUPD, R813
  | movups (o : XMov)  -- MOVUPS, R814
  | vmovups (o : VMov)  -- VMOVUPS, R814
  | movzx (o : ExtOps)  -- MOVZX, R815
  | mpsadbw (o : XXI)  -- MPSADBW, R816
  | vmpsadbw (o : VVXI)  -- VMPSADBW, R816
  | mul (o : RmOp)  -- MUL, R817
  | mulpd (o : XX)  -- MULPD, R818
  | vmulpd (o : VVX)  -- VMULPD, R818
  | mulps (o : XX)  -- MULPS, R819
  | vmulps (o : VVX)  -- VMULPS, R819
  | mulsd (o : XX)  -- MULSD, R820
  | vmulsd (o : VVX)  -- VMULSD, R820
  | mulss (o : XX)  -- MULSS, R821
  | vmulss (o : VVX)  -- VMULSS, R821
  | mulx (o : Vg3)  -- MULX, R822
  | mwait  -- MWAIT, R823
  | neg (o : RmOp)  -- NEG, R824
  | nop (o : Option RmOp)  -- NOP, R825
  | not (o : RmOp)  -- NOT, R826
  | or (o : AluOps)  -- OR, R827
  | orpd (o : XX)  -- ORPD, R828
  | vorpd (o : VVX)  -- VORPD, R828
  | orps (o : XX)  -- ORPS, R829
  | vorps (o : VVX)  -- VORPS, R829
  | out (o : IoOps)  -- OUT, R830
  | outs (o : StrOps)  -- OUTS, R831
  | outsb (o : ASize)  -- OUTSB, R831
  | outsw (o : ASize)  -- OUTSW, R831
  | outsd (o : ASize)  -- OUTSD, R831
  | pabsb (o : MX)  -- PABSB, R833
  | vpabsb (o : VX)  -- VPABSB, R833
  | pabsw (o : MX)  -- PABSW, R834
  | vpabsw (o : VX)  -- VPABSW, R834
  | pabsd (o : MX)  -- PABSD, R835
  | vpabsd (o : VX)  -- VPABSD, R835
  | packsswb (o : MX)  -- PACKSSWB, R836
  | vpacksswb (o : VVX)  -- VPACKSSWB, R836
  | packssdw (o : MX)  -- PACKSSDW, R837
  | vpackssdw (o : VVX)  -- VPACKSSDW, R837
  | packusdw (o : XX)  -- PACKUSDW, R838
  | vpackusdw (o : VVX)  -- VPACKUSDW, R838
  | packuswb (o : MX)  -- PACKUSWB, R839
  | vpackuswb (o : VVX)  -- VPACKUSWB, R839
  | paddb (o : MX)  -- PADDB, R840
  | vpaddb (o : VVX)  -- VPADDB, R840
  | paddw (o : MX)  -- PADDW, R841
  | vpaddw (o : VVX)  -- VPADDW, R841
  | paddd (o : MX)  -- PADDD, R842
  | vpaddd (o : VVX)  -- VPADDD, R842
  | paddq (o : MX)  -- PADDQ, R843
  | vpaddq (o : VVX)  -- VPADDQ, R843
  | paddsb (o : MX)  -- PADDSB, R844
  | vpaddsb (o : VVX)  -- VPADDSB, R844
  | paddsw (o : MX)  -- PADDSW, R845
  | vpaddsw (o : VVX)  -- VPADDSW, R845
  | paddusb (o : MX)  -- PADDUSB, R846
  | vpaddusb (o : VVX)  -- VPADDUSB, R846
  | paddusw (o : MX)  -- PADDUSW, R847
  | vpaddusw (o : VVX)  -- VPADDUSW, R847
  | palignr (o : MXI)  -- PALIGNR, R848
  | vpalignr (o : VVXI)  -- VPALIGNR, R848
  | pand (o : MX)  -- PAND, R849
  | vpand (o : VVX)  -- VPAND, R849
  | pandn (o : MX)  -- PANDN, R850
  | vpandn (o : VVX)  -- VPANDN, R850
  | pause  -- PAUSE, R851
  | pavgb (o : MX)  -- PAVGB, R852
  | vpavgb (o : VVX)  -- VPAVGB, R852
  | pavgw (o : MX)  -- PAVGW, R853
  | vpavgw (o : VVX)  -- VPAVGW, R853
  | pblendvb (o : XX)  -- PBLENDVB, R854
  | vpblendvb (o : VVXR)  -- VPBLENDVB, R854
  | pblendw (o : XXI)  -- PBLENDW, R855
  | vpblendw (o : VVXI)  -- VPBLENDW, R855
  | pclmulqdq (o : XXI)  -- PCLMULQDQ, R856
  | vpclmulqdq (o : VVXI)  -- VPCLMULQDQ, R856
  | pcmpeqb (o : MX)  -- PCMPEQB, R857
  | vpcmpeqb (o : VVX)  -- VPCMPEQB, R857
  | pcmpeqw (o : MX)  -- PCMPEQW, R858
  | vpcmpeqw (o : VVX)  -- VPCMPEQW, R858
  | pcmpeqd (o : MX)  -- PCMPEQD, R859
  | vpcmpeqd (o : VVX)  -- VPCMPEQD, R859
  | pcmpeqq (o : XX)  -- PCMPEQQ, R860
  | vpcmpeqq (o : VVX)  -- VPCMPEQQ, R860
  | pcmpgtb (o : MX)  -- PCMPGTB, R861
  | vpcmpgtb (o : VVX)  -- VPCMPGTB, R861
  | pcmpgtw (o : MX)  -- PCMPGTW, R862
  | vpcmpgtw (o : VVX)  -- VPCMPGTW, R862
  | pcmpgtd (o : MX)  -- PCMPGTD, R863
  | vpcmpgtd (o : VVX)  -- VPCMPGTD, R863
  | pcmpgtq (o : XX)  -- PCMPGTQ, R864
  | vpcmpgtq (o : VVX)  -- VPCMPGTQ, R864
  | pcmpestri (o : StrCmp)  -- PCMPESTRI, R866
  | vpcmpestri (o : VXI)  -- VPCMPESTRI, R866
  | pcmpestrm (o : StrCmp)  -- PCMPESTRM, R867
  | vpcmpestrm (o : VXI)  -- VPCMPESTRM, R867
  | pcmpistri (o : StrCmp)  -- PCMPISTRI, R868
  | vpcmpistri (o : VXI)  -- VPCMPISTRI, R868
  | pcmpistrm (o : XXI)  -- PCMPISTRM, R869
  | vpcmpistrm (o : VXI)  -- VPCMPISTRM, R869
  | pdep (o : Vg3)  -- PDEP, R870
  | pext (o : Vg3)  -- PEXT, R871
  | pextrb (o : ExtrOps)  -- PEXTRB, R872
  | vpextrb (o : ExtrOps)  -- VPEXTRB, R872
  | pextrd (o : ExtrOps)  -- PEXTRD, R873
  | vpextrd (o : ExtrOps)  -- VPEXTRD, R873
  | pextrq (o : ExtrOps)  -- PEXTRQ, R874
  | vpextrq (o : ExtrOps)  -- VPEXTRQ, R874
  | pextrw (o : PextrwOps)  -- PEXTRW, R875
  | vpextrw (o : ExtrOps)  -- VPEXTRW, R875
  | phaddw (o : MX)  -- PHADDW, R876
  | vphaddw (o : VVX)  -- VPHADDW, R876
  | phaddd (o : MX)  -- PHADDD, R877
  | vphaddd (o : VVX)  -- VPHADDD, R877
  | phaddsw (o : MX)  -- PHADDSW, R878
  | vphaddsw (o : VVX)  -- VPHADDSW, R878
  | phminposuw (o : XX)  -- PHMINPOSUW, R879
  | vphminposuw (o : VX)  -- VPHMINPOSUW, R879
  | phsubw (o : MX)  -- PHSUBW, R880
  | vphsubw (o : VVX)  -- VPHSUBW, R880
  | phsubd (o : MX)  -- PHSUBD, R881
  | vphsubd (o : VVX)  -- VPHSUBD, R881
  | phsubsw (o : MX)  -- PHSUBSW, R882
  | vphsubsw (o : VVX)  -- VPHSUBSW, R882
  | pinsrb (o : InsOps)  -- PINSRB, R883
  | vpinsrb (o : VInsOps)  -- VPINSRB, R883
  | pinsrd (o : InsOps)  -- PINSRD, R884
  | vpinsrd (o : VInsOps)  -- VPINSRD, R884
  | pinsrq (o : InsOps)  -- PINSRQ, R885
  | vpinsrq (o : VInsOps)  -- VPINSRQ, R885
  | pinsrw (o : PinsrwOps)  -- PINSRW, R886
  | vpinsrw (o : VInsOps)  -- VPINSRW, R886
  | pmaddubsw (o : MX)  -- PMADDUBSW, R887
  | vpmaddubsw (o : VVX)  -- VPMADDUBSW, R887
  | pmaddwd (o : MX)  -- PMADDWD, R888
  | vpmaddwd (o : VVX)  -- VPMADDWD, R888
  | pmaxsb (o : XX)  -- PMAXSB, R889
  | vpmaxsb (o : VVX)  -- VPMAXSB, R889
  | pmaxsd (o : XX)  -- PMAXSD, R890
  | vpmaxsd (o : VVX)  -- VPMAXSD, R890
  | pmaxsw (o : MX)  -- PMAXSW, R891
  | vpmaxsw (o : VVX)  -- VPMAXSW, R891
  | pmaxub (o : MX)  -- PMAXUB, R892
  | vpmaxub (o : VVX)  -- VPMAXUB, R892
  | pmaxud (o : XX)  -- PMAXUD, R893
  | vpmaxud (o : VVX)  -- VPMAXUD, R893
  | pmaxuw (o : XX)  -- PMAXUW, R894
  | vpmaxuw (o : VVX)  -- VPMAXUW, R894
  | pminsb (o : XX)  -- PMINSB, R895
  | vpminsb (o : VVX)  -- VPMINSB, R895
  | pminsd (o : XX)  -- PMINSD, R896
  | vpminsd (o : VVX)  -- VPMINSD, R896
  | pminsw (o : MX)  -- PMINSW, R897
  | vpminsw (o : VVX)  -- VPMINSW, R897
  | pminub (o : MX)  -- PMINUB, R898
  | vpminub (o : VVX)  -- VPMINUB, R898
  | pminud (o : XX)  -- PMINUD, R899
  | vpminud (o : VVX)  -- VPMINUD, R899
  | pminuw (o : XX)  -- PMINUW, R900
  | vpminuw (o : VVX)  -- VPMINUW, R900
  | pmovmskb (o : GMask)  -- PMOVMSKB, R901
  | vpmovmskb (o : VGMask)  -- VPMOVMSKB, R901
  | pmovsxbw (o : XX)  -- PMOVSXBW, R902
  | vpmovsxbw (o : VX)  -- VPMOVSXBW, R902
  | pmovsxbd (o : XX)  -- PMOVSXBD, R903
  | vpmovsxbd (o : VX)  -- VPMOVSXBD, R903
  | pmovsxbq (o : XX)  -- PMOVSXBQ, R904
  | vpmovsxbq (o : VX)  -- VPMOVSXBQ, R904
  | pmovsxwd (o : XX)  -- PMOVSXWD, R905
  | vpmovsxwd (o : VX)  -- VPMOVSXWD, R905
  | pmovsxwq (o : XX)  -- PMOVSXWQ, R906
  | vpmovsxwq (o : VX)  -- VPMOVSXWQ, R906
  | pmovsxdq (o : XX)  -- PMOVSXDQ, R907
  | vpmovsxdq (o : VX)  -- VPMOVSXDQ, R907
  | pmovzxbw (o : XX)  -- PMOVZXBW, R908
  | vpmovzxbw (o : VX)  -- VPMOVZXBW, R908
  | pmovzxbd (o : XX)  -- PMOVZXBD, R909
  | vpmovzxbd (o : VX)  -- VPMOVZXBD, R909
  | pmovzxbq (o : XX)  -- PMOVZXBQ, R910
  | vpmovzxbq (o : VX)  -- VPMOVZXBQ, R910
  | pmovzxwd (o : XX)  -- PMOVZXWD, R911
  | vpmovzxwd (o : VX)  -- VPMOVZXWD, R911
  | pmovzxwq (o : XX)  -- PMOVZXWQ, R912
  | vpmovzxwq (o : VX)  -- VPMOVZXWQ, R912
  | pmovzxdq (o : XX)  -- PMOVZXDQ, R913
  | vpmovzxdq (o : VX)  -- VPMOVZXDQ, R913
  | pmuldq (o : XX)  -- PMULDQ, R914
  | vpmuldq (o : VVX)  -- VPMULDQ, R914
  | pmulhrsw (o : MX)  -- PMULHRSW, R915
  | vpmulhrsw (o : VVX)  -- VPMULHRSW, R915
  | pmulhuw (o : MX)  -- PMULHUW, R916
  | vpmulhuw (o : VVX)  -- VPMULHUW, R916
  | pmulhw (o : MX)  -- PMULHW, R917
  | vpmulhw (o : VVX)  -- VPMULHW, R917
  | pmulld (o : XX)  -- PMULLD, R918
  | vpmulld (o : VVX)  -- VPMULLD, R918
  | pmullw (o : MX)  -- PMULLW, R919
  | vpmullw (o : VVX)  -- VPMULLW, R919
  | pmuludq (o : MX)  -- PMULUDQ, R920
  | vpmuludq (o : VVX)  -- VPMULUDQ, R920
  | pop (o : RmOp)  -- POP, R921
  | popSeg (o : SegOp)  -- POP, R922
  | popa  -- POPA, R923
  | popad  -- POPAD, R924
  | popcnt (o : RegRm)  -- POPCNT, R925
  | popf  -- POPF, R927
  | popfd  -- POPFD, R928
  | popfq  -- POPFQ, R929
  | por (o : MX)  -- POR, R930
  | vpor (o : VVX)  -- VPOR, R930
  | pxor (o : MX)  -- PXOR, R931
  | vpxor (o : VVX)  -- VPXOR, R931
  | prefetcht0 (o : MemRef)  -- PREFETCHT0, R932
  | prefetcht1 (o : MemRef)  -- PREFETCHT1, R933
  | prefetcht2 (o : MemRef)  -- PREFETCHT2, R934
  | prefetchnta (o : MemRef)  -- PREFETCHNTA, R935
  | prefetchw (o : MemRef)  -- PREFETCHW, R936
  | prefetchwt1 (o : MemRef)  -- PREFETCHWT1, R937
  | psadbw (o : MX)  -- PSADBW, R938
  | vpsadbw (o : VVX)  -- VPSADBW, R938
  | pshufb (o : MX)  -- PSHUFB, R939
  | vpshufb (o : VVX)  -- VPSHUFB, R939
  | pshufd (o : XXI)  -- PSHUFD, R940
  | vpshufd (o : VXI)  -- VPSHUFD, R940
  | pshufhw (o : XXI)  -- PSHUFHW, R941
  | vpshufhw (o : VXI)  -- VPSHUFHW, R941
  | pshuflw (o : XXI)  -- PSHUFLW, R942
  | vpshuflw (o : VXI)  -- VPSHUFLW, R942
  | pshufw (o : MMI)  -- PSHUFW, R943
  | psignb (o : MX)  -- PSIGNB, R944
  | vpsignb (o : VVX)  -- VPSIGNB, R944
  | psignw (o : MX)  -- PSIGNW, R945
  | vpsignw (o : VVX)  -- VPSIGNW, R945
  | psignd (o : MX)  -- PSIGND, R946
  | vpsignd (o : VVX)  -- VPSIGND, R946
  | pslldq (o : XI)  -- PSLLDQ, R947
  | vpslldq (o : VVI)  -- VPSLLDQ, R947
  | psrldq (o : XI)  -- PSRLDQ, R948
  | vpsrldq (o : VVI)  -- VPSRLDQ, R948
  | psllw (o : MShift)  -- PSLLW, R950
  | vpsllw (o : VShift)  -- VPSLLW, R950
  | pslld (o : MShift)  -- PSLLD, R951
  | vpslld (o : VShift)  -- VPSLLD, R951
  | psllq (o : MShift)  -- PSLLQ, R952
  | vpsllq (o : VShift)  -- VPSLLQ, R952
  | psraw (o : MShift)  -- PSRAW, R953
  | vpsraw (o : VShift)  -- VPSRAW, R953
  | psrad (o : MShift)  -- PSRAD, R954
  | vpsrad (o : VShift)  -- VPSRAD, R954
  | psrlw (o : MShift)  -- PSRLW, R955
  | vpsrlw (o : VShift)  -- VPSRLW, R955
  | psrld (o : MShift)  -- PSRLD, R956
  | vpsrld (o : VShift)  -- VPSRLD, R956
  | psrlq (o : MShift)  -- PSRLQ, R957
  | vpsrlq (o : VShift)  -- VPSRLQ, R957
  | psubb (o : MX)  -- PSUBB, R958
  | vpsubb (o : VVX)  -- VPSUBB, R958
  | psubw (o : MX)  -- PSUBW, R959
  | vpsubw (o : VVX)  -- VPSUBW, R959
  | psubd (o : MX)  -- PSUBD, R960
  | vpsubd (o : VVX)  -- VPSUBD, R960
  | psubq (o : MX)  -- PSUBQ, R961
  | vpsubq (o : VVX)  -- VPSUBQ, R961
  | psubsb (o : MX)  -- PSUBSB, R962
  | vpsubsb (o : VVX)  -- VPSUBSB, R962
  | psubsw (o : MX)  -- PSUBSW, R963
  | vpsubsw (o : VVX)  -- VPSUBSW, R963
  | psubusb (o : MX)  -- PSUBUSB, R964
  | vpsubusb (o : VVX)  -- VPSUBUSB, R964
  | psubusw (o : MX)  -- PSUBUSW, R965
  | vpsubusw (o : VVX)  -- VPSUBUSW, R965
  | ptest (o : XX)  -- PTEST, R966
  | vptest (o : VX)  -- VPTEST, R966
  | punpckhbw (o : MX)  -- PUNPCKHBW, R967
  | vpunpckhbw (o : VVX)  -- VPUNPCKHBW, R967
  | punpckhwd (o : MX)  -- PUNPCKHWD, R968
  | vpunpckhwd (o : VVX)  -- VPUNPCKHWD, R968
  | punpckhdq (o : MX)  -- PUNPCKHDQ, R969
  | vpunpckhdq (o : VVX)  -- VPUNPCKHDQ, R969
  | punpckhqdq (o : XX)  -- PUNPCKHQDQ, R970
  | vpunpckhqdq (o : VVX)  -- VPUNPCKHQDQ, R970
  | punpcklbw (o : MX)  -- PUNPCKLBW, R971
  | vpunpcklbw (o : VVX)  -- VPUNPCKLBW, R971
  | punpcklwd (o : MX)  -- PUNPCKLWD, R972
  | vpunpcklwd (o : VVX)  -- VPUNPCKLWD, R972
  | punpckldq (o : MX)  -- PUNPCKLDQ, R973
  | vpunpckldq (o : VVX)  -- VPUNPCKLDQ, R973
  | punpcklqdq (o : XX)  -- PUNPCKLQDQ, R974
  | vpunpcklqdq (o : VVX)  -- VPUNPCKLQDQ, R974
  | push (o : PushOps)  -- PUSH, R975
  | pusha  -- PUSHA, R976
  | pushad  -- PUSHAD, R977
  | pushf  -- PUSHF, R979
  | pushfd  -- PUSHFD, R980
  | pushfq  -- PUSHFQ, R981
  | rcl (o : ShiftOps)  -- RCL, R983
  | rcr (o : ShiftOps)  -- RCR, R984
  | rol (o : ShiftOps)  -- ROL, R985
  | ror (o : ShiftOps)  -- ROR, R986
  | rcpps (o : XX)  -- RCPPS, R987
  | vrcpps (o : VX)  -- VRCPPS, R987
  | rcpss (o : XX)  -- RCPSS, R988
  | vrcpss (o : VVX)  -- VRCPSS, R988
  | rdfsbase (o : RegOp)  -- RDFSBASE, R989
  | rdgsbase (o : RegOp)  -- RDGSBASE, R990
  | rdmsr  -- RDMSR, R991
  | rdpkru  -- RDPKRU, R992
  | rdpmc  -- RDPMC, R993
  | rdrand (o : RegOp)  -- RDRAND, R994
  | rdseed (o : RegOp)  -- RDSEED, R995
  | rdtsc  -- RDTSC, R996
  | rdtscp  -- RDTSCP, R997
  | rep (o : RepOp)  -- REP, R998
  | repe (o : RepCmpOp)  -- REPE, R999
  | repne (o : RepCmpOp)  -- REPNE, R1000
  | retNear (o : RetOps)  -- RET, R1001
  | retFar (o : RetOps)  -- RET, R1002
  | rorx (o : RorxOps)  -- RORX, R1003
  | roundpd (o : XXI)  -- ROUNDPD, R1005
  | vroundpd (o : VXI)  -- VROUNDPD, R1005
  | roundps (o : XXI)  -- ROUNDPS, R1006
  | vroundps (o : VXI)  -- VROUNDPS, R1006
  | roundsd (o : XXI)  -- ROUNDSD, R1007
  | vroundsd (o : VVXI)  -- VROUNDSD, R1007
  | roundss (o : XXI)  -- ROUNDSS, R1008
  | vroundss (o : VVXI)  -- VROUNDSS, R1008
  | rsm  -- RSM, R1009
  | rsqrtps (o : XX)  -- RSQRTPS, R1010
  | vrsqrtps (o : VX)  -- VRSQRTPS, R1010
  | rsqrtss (o : XX)  -- RSQRTSS, R1011
  | vrsqrtss (o : VVX)  -- VRSQRTSS, R1011
  | sahf  -- SAHF, R1012
  | sal (o : ShiftOps)  -- SAL, R1014
  | sar (o : ShiftOps)  -- SAR, R1015
  | shl (o : ShiftOps)  -- SHL, R1016
  | shr (o : ShiftOps)  -- SHR, R1017
  | sarx (o : Vg3)  -- SARX, R1018
  | shlx (o : Vg3)  -- SHLX, R1019
  | shrx (o : Vg3)  -- SHRX, R1020
  | sbb (o : AluOps)  -- SBB, R1021
  | scas (o : StrOps)  -- SCAS, R1022
  | scasb (o : ASize)  -- SCASB, R1022
  | scasw (o : ASize)  -- SCASW, R1022
  | scasd (o : ASize)  -- SCASD, R1022
  | scasq (o : ASize)  -- SCASQ, R1022
  | seto (o : Rm)  -- SETO, R1024
  | setno (o : Rm)  -- SETNO, R1025
  | setb (o : Rm)  -- SETB, R1026
  | setae (o : Rm)  -- SETAE, R1027
  | sete (o : Rm)  -- SETE, R1028
  | setne (o : Rm)  -- SETNE, R1029
  | setbe (o : Rm)  -- SETBE, R1030
  | seta (o : Rm)  -- SETA, R1031
  | sets (o : Rm)  -- SETS, R1032
  | setns (o : Rm)  -- SETNS, R1033
  | setp (o : Rm)  -- SETP, R1034
  | setnp (o : Rm)  -- SETNP, R1035
  | setl (o : Rm)  -- SETL, R1036
  | setge (o : Rm)  -- SETGE, R1037
  | setle (o : Rm)  -- SETLE, R1038
  | setg (o : Rm)  -- SETG, R1039
  | sfence  -- SFENCE, R1040
  | sgdt (o : FarMem)  -- SGDT, R1041
  | shld (o : DShiftOps)  -- SHLD, R1042
  | shrd (o : DShiftOps)  -- SHRD, R1043
  | shufpd (o : XXI)  -- SHUFPD, R1044
  | vshufpd (o : VVXI)  -- VSHUFPD, R1044
  | shufps (o : XXI)  -- SHUFPS, R1045
  | vshufps (o : VVXI)  -- VSHUFPS, R1045
  | sidt (o : FarMem)  -- SIDT, R1046
  | sldt (o : RmOp)  -- SLDT, R1047
  | smsw (o : RmOp)  -- SMSW, R1048
  | sqrtpd (o : XX)  -- SQRTPD, R1049
  | vsqrtpd (o : VX)  -- VSQRTPD, R1049
  | sqrtps (o : XX)  -- SQRTPS, R1050
  | vsqrtps (o : VX)  -- VSQRTPS, R1050
  | sqrtsd (o : XX)  -- SQRTSD, R1051
  | vsqrtsd (o : VVX)  -- VSQRTSD, R1051
  | sqrtss (o : XX)  -- SQRTSS, R1052
  | vsqrtss (o : VVX)  -- VSQRTSS, R1052
  | stac  -- STAC, R1053
  | stc  -- STC, R1054
  | std  -- STD, R1055
  | sti  -- STI, R1056
  | stmxcsr (o : MemRef)  -- STMXCSR, R1057
  | vstmxcsr (o : MemRef)  -- VSTMXCSR, R1057
  | stos (o : StrOps)  -- STOS, R1058
  | stosb (o : ASize)  -- STOSB, R1058
  | stosw (o : ASize)  -- STOSW, R1058
  | stosd (o : ASize)  -- STOSD, R1058
  | stosq (o : ASize)  -- STOSQ, R1058
  | str (o : RmOp)  -- STR, R1059
  | sub (o : AluOps)  -- SUB, R1060
  | subpd (o : XX)  -- SUBPD, R1061
  | vsubpd (o : VVX)  -- VSUBPD, R1061
  | subps (o : XX)  -- SUBPS, R1062
  | vsubps (o : VVX)  -- VSUBPS, R1062
  | subsd (o : XX)  -- SUBSD, R1063
  | vsubsd (o : VVX)  -- VSUBSD, R1063
  | subss (o : XX)  -- SUBSS, R1064
  | vsubss (o : VVX)  -- VSUBSS, R1064
  | swapgs  -- SWAPGS, R1065
  | syscall  -- SYSCALL, R1066
  | sysenter  -- SYSENTER, R1067
  | sysexit (o : Width)  -- SYSEXIT, R1068
  | sysret (o : Width)  -- SYSRET, R1069
  | test (o : TestOps)  -- TEST, R1070
  | tzcnt (o : RegRm)  -- TZCNT, R1071
  | ucomisd (o : XX)  -- UCOMISD, R1072
  | vucomisd (o : VX)  -- VUCOMISD, R1072
  | ucomiss (o : XX)  -- UCOMISS, R1073
  | vucomiss (o : VX)  -- VUCOMISS, R1073
  | ud2  -- UD2, R1074
  | unpckhpd (o : XX)  -- UNPCKHPD, R1075
  | vunpckhpd (o : VVX)  -- VUNPCKHPD, R1075
  | unpckhps (o : XX)  -- UNPCKHPS, R1076
  | vunpckhps (o : VVX)  -- VUNPCKHPS, R1076
  | unpcklpd (o : XX)  -- UNPCKLPD, R1077
  | vunpcklpd (o : VVX)  -- VUNPCKLPD, R1077
  | unpcklps (o : XX)  -- UNPCKLPS, R1078
  | vunpcklps (o : VVX)  -- VUNPCKLPS, R1078
  | vbroadcastss (o : VX)  -- VBROADCASTSS, R1079
  | vbroadcastsd (o : VX)  -- VBROADCASTSD, R1080
  | vbroadcastf128 (o : VXMem)  -- VBROADCASTF128, R1081
  | vcvtph2ps (o : VX)  -- VCVTPH2PS, R1082
  | vcvtps2ph (o : VExtOps)  -- VCVTPS2PH, R1083
  | verr (o : Rm)  -- VERR, R1084
  | verw (o : Rm)  -- VERW, R1085
  | vextractf128 (o : VExtOps)  -- VEXTRACTF128, R1086
  | vextracti128 (o : VExtOps)  -- VEXTRACTI128, R1087
  | vfmadd132pd (o : VVX)  -- VFMADD132PD, R1089
  | vfmadd213pd (o : VVX)  -- VFMADD213PD, R1090
  | vfmadd231pd (o : VVX)  -- VFMADD231PD, R1091
  | vfmadd132ps (o : VVX)  -- VFMADD132PS, R1092
  | vfmadd213ps (o : VVX)  -- VFMADD213PS, R1093
  | vfmadd231ps (o : VVX)  -- VFMADD231PS, R1094
  | vfmadd132sd (o : VVX)  -- VFMADD132SD, R1095
  | vfmadd213sd (o : VVX)  -- VFMADD213SD, R1096
  | vfmadd231sd (o : VVX)  -- VFMADD231SD, R1097
  | vfmadd132ss (o : VVX)  -- VFMADD132SS, R1098
  | vfmadd213ss (o : VVX)  -- VFMADD213SS, R1099
  | vfmadd231ss (o : VVX)  -- VFMADD231SS, R1100
  | vfmaddsub132pd (o : VVX)  -- VFMADDSUB132PD, R1101
  | vfmaddsub213pd (o : VVX)  -- VFMADDSUB213PD, R1102
  | vfmaddsub231pd (o : VVX)  -- VFMADDSUB231PD, R1103
  | vfmaddsub132ps (o : VVX)  -- VFMADDSUB132PS, R1104
  | vfmaddsub213ps (o : VVX)  -- VFMADDSUB213PS, R1105
  | vfmaddsub231ps (o : VVX)  -- VFMADDSUB231PS, R1106
  | vfmsubadd132pd (o : VVX)  -- VFMSUBADD132PD, R1107
  | vfmsubadd213pd (o : VVX)  -- VFMSUBADD213PD, R1108
  | vfmsubadd231pd (o : VVX)  -- VFMSUBADD231PD, R1109
  | vfmsubadd132ps (o : VVX)  -- VFMSUBADD132PS, R1110
  | vfmsubadd213ps (o : VVX)  -- VFMSUBADD213PS, R1111
  | vfmsubadd231ps (o : VVX)  -- VFMSUBADD231PS, R1112
  | vfmsub132pd (o : VVX)  -- VFMSUB132PD, R1113
  | vfmsub213pd (o : VVX)  -- VFMSUB213PD, R1114
  | vfmsub231pd (o : VVX)  -- VFMSUB231PD, R1115
  | vfmsub132ps (o : VVX)  -- VFMSUB132PS, R1116
  | vfmsub213ps (o : VVX)  -- VFMSUB213PS, R1117
  | vfmsub231ps (o : VVX)  -- VFMSUB231PS, R1118
  | vfmsub132sd (o : VVX)  -- VFMSUB132SD, R1119
  | vfmsub213sd (o : VVX)  -- VFMSUB213SD, R1120
  | vfmsub231sd (o : VVX)  -- VFMSUB231SD, R1121
  | vfmsub132ss (o : VVX)  -- VFMSUB132SS, R1122
  | vfmsub213ss (o : VVX)  -- VFMSUB213SS, R1123
  | vfmsub231ss (o : VVX)  -- VFMSUB231SS, R1124
  | vfnmadd132pd (o : VVX)  -- VFNMADD132PD, R1125
  | vfnmadd213pd (o : VVX)  -- VFNMADD213PD, R1126
  | vfnmadd231pd (o : VVX)  -- VFNMADD231PD, R1127
  | vfnmadd132ps (o : VVX)  -- VFNMADD132PS, R1128
  | vfnmadd213ps (o : VVX)  -- VFNMADD213PS, R1129
  | vfnmadd231ps (o : VVX)  -- VFNMADD231PS, R1130
  | vfnmadd132sd (o : VVX)  -- VFNMADD132SD, R1131
  | vfnmadd213sd (o : VVX)  -- VFNMADD213SD, R1132
  | vfnmadd231sd (o : VVX)  -- VFNMADD231SD, R1133
  | vfnmadd132ss (o : VVX)  -- VFNMADD132SS, R1134
  | vfnmadd213ss (o : VVX)  -- VFNMADD213SS, R1135
  | vfnmadd231ss (o : VVX)  -- VFNMADD231SS, R1136
  | vfnmsub132pd (o : VVX)  -- VFNMSUB132PD, R1137
  | vfnmsub213pd (o : VVX)  -- VFNMSUB213PD, R1138
  | vfnmsub231pd (o : VVX)  -- VFNMSUB231PD, R1139
  | vfnmsub132ps (o : VVX)  -- VFNMSUB132PS, R1140
  | vfnmsub213ps (o : VVX)  -- VFNMSUB213PS, R1141
  | vfnmsub231ps (o : VVX)  -- VFNMSUB231PS, R1142
  | vfnmsub132sd (o : VVX)  -- VFNMSUB132SD, R1143
  | vfnmsub213sd (o : VVX)  -- VFNMSUB213SD, R1144
  | vfnmsub231sd (o : VVX)  -- VFNMSUB231SD, R1145
  | vfnmsub132ss (o : VVX)  -- VFNMSUB132SS, R1146
  | vfnmsub213ss (o : VVX)  -- VFNMSUB213SS, R1147
  | vfnmsub231ss (o : VVX)  -- VFNMSUB231SS, R1148
  | vgatherdpd (o : VGather)  -- VGATHERDPD, R1150
  | vgatherqpd (o : VGather)  -- VGATHERQPD, R1151
  | vgatherdps (o : VGather)  -- VGATHERDPS, R1152
  | vgatherqps (o : VGather)  -- VGATHERQPS, R1153
  | vpgatherdd (o : VGather)  -- VPGATHERDD, R1154
  | vpgatherqd (o : VGather)  -- VPGATHERQD, R1155
  | vpgatherdq (o : VGather)  -- VPGATHERDQ, R1156
  | vpgatherqq (o : VGather)  -- VPGATHERQQ, R1157
  | vinsertf128 (o : VVXI)  -- VINSERTF128, R1158
  | vinserti128 (o : VVXI)  -- VINSERTI128, R1159
  | vmaskmovps (o : VMaskMov)  -- VMASKMOVPS, R1160
  | vmaskmovpd (o : VMaskMov)  -- VMASKMOVPD, R1161
  | vpblendd (o : VVXI)  -- VPBLENDD, R1162
  | vpbroadcastb (o : VX)  -- VPBROADCASTB, R1163
  | vpbroadcastw (o : VX)  -- VPBROADCASTW, R1164
  | vpbroadcastd (o : VX)  -- VPBROADCASTD, R1165
  | vpbroadcastq (o : VX)  -- VPBROADCASTQ, R1166
  | vbroadcasti128 (o : VXMem)  -- VBROADCASTI128, R1167
  | vpermd (o : VVX)  -- VPERMD, R1168
  | vpermpd (o : VXI)  -- VPERMPD, R1169
  | vpermps (o : VVX)  -- VPERMPS, R1170
  | vpermq (o : VXI)  -- VPERMQ, R1171
  | vperm2i128 (o : VVXI)  -- VPERM2I128, R1172
  | vperm2f128 (o : VVXI)  -- VPERM2F128, R1173
  | vpermilpd (o : VPermil)  -- VPERMILPD, R1174
  | vpermilps (o : VPermil)  -- VPERMILPS, R1175
  | vpmaskmovd (o : VMaskMov)  -- VPMASKMOVD, R1176
  | vpmaskmovq (o : VMaskMov)  -- VPMASKMOVQ, R1177
  | vpsllvd (o : VVX)  -- VPSLLVD, R1178
  | vpsllvq (o : VVX)  -- VPSLLVQ, R1179
  | vpsravd (o : VVX)  -- VPSRAVD, R1180
  | vpsrlvd (o : VVX)  -- VPSRLVD, R1181
  | vpsrlvq (o : VVX)  -- VPSRLVQ, R1182
  | vtestps (o : VX)  -- VTESTPS, R1183
  | vtestpd (o : VX)  -- VTESTPD, R1184
  | vzeroall  -- VZEROALL, R1185
  | vzeroupper  -- VZEROUPPER, R1186
  | wait  -- WAIT, R1187
  | fwait  -- FWAIT, R1187
  | wbinvd  -- WBINVD, R1188
  | wrfsbase (o : RegOp)  -- WRFSBASE, R1189
  | wrgsbase (o : RegOp)  -- WRGSBASE, R1190
  | wrmsr  -- WRMSR, R1191
  | wrpkru  -- WRPKRU, R1192
  | xacquire (o : AcquireOp)  -- XACQUIRE, R1193
  | xrelease (o : ReleaseOp)  -- XRELEASE, R1193
  | xabort (o : BitVec 8)  -- XABORT, R1194
  | xadd (o : MrOps)  -- XADD, R1195
  | xbegin (o : XbeginOps)  -- XBEGIN, R1196
  | xchg (o : MrOps)  -- XCHG, R1197
  | xend  -- XEND, R1198
  | xgetbv  -- XGETBV, R1199
  | xlat (o : XlatOps)  -- XLAT, R1200
  | xlatb (o : ASize)  -- XLATB, R1200
  | xor (o : AluOps)  -- XOR, R1201
  | xorpd (o : XX)  -- XORPD, R1202
  | vxorpd (o : VVX)  -- VXORPD, R1202
  | xorps (o : XX)  -- XORPS, R1203
  | vxorps (o : VVX)  -- VXORPS, R1203
  | xrstor (o : MemRef)  -- XRSTOR, R1205
  | xrstor64 (o : MemRef)  -- XRSTOR64, R1205
  | xrstors (o : MemRef)  -- XRSTORS, R1206
  | xrstors64 (o : MemRef)  -- XRSTORS64, R1206
  | xsave (o : MemRef)  -- XSAVE, R1207
  | xsave64 (o : MemRef)  -- XSAVE64, R1207
  | xsavec (o : MemRef)  -- XSAVEC, R1208
  | xsavec64 (o : MemRef)  -- XSAVEC64, R1208
  | xsaveopt (o : MemRef)  -- XSAVEOPT, R1209
  | xsaveopt64 (o : MemRef)  -- XSAVEOPT64, R1209
  | xsaves (o : MemRef)  -- XSAVES, R1210
  | xsaves64 (o : MemRef)  -- XSAVES64, R1210
  | xsetbv  -- XSETBV, R1211
  | xtest  -- XTEST, R1212
deriving DecidableEq, Repr

end Sys2Proof
end

