-- ==== Sys2Proof/Machine/Operands.lean ====
section
/-! DEFINITION. Reading and writing operands: effective addresses (spec/30_encoding.md rule R330, spec/20_memory.md rules R210,
R211), general-register and memory operands of every width (spec/10_state.md rules R51, R52), vector and MMX registers (R111,
R112, R128). Every check of an operand comes before the first write of an instruction (spec/60_exceptions.md rule R2003): an
operand in memory is first resolved to the physical addresses of its bytes. -/

namespace Sys2Proof

/-- The segment of an operand (rule R210): SS for a base of BP, EBP, RBP, ESP or RSP, DS otherwise, unless overridden. -/
def segFor (ovr : Option SReg) (base : Option Reg) : SReg :=
  match ovr with
  | some r => r
  | none => if base = some 4 ∨ base = some 5 then .ss else .ds

/-- The segment of a memory operand. -/
def MemRef.seg (m : MemRef) : SReg := segFor m.ovr m.base

/-- The segment of a vector-indexed memory operand. -/
def VMem.seg (m : VMem) : SReg := segFor m.ovr m.base

/-- An immediate or displacement of 32 bits sign-extended to, or cut to, a width (rule R303). -/
def immOf (w : Width) (v : BitVec 32) : BitVec w.bits := v.signExtend w.bits

end Sys2Proof

namespace Sys2Proof.Machine

/-! Addresses. -/

/-- The value an address register contributes. -/
def State.addrReg (s : State) : Option Reg → Word
  | some r => s.gp r
  | none => 0

/-- The effective address (rules R330, R211): base plus scaled index plus displacement, cut to the address size; RIP-relative
addresses count from the next instruction. -/
def State.ea (s : State) (m : MemRef) : Word :=
  m.asz.trunc ((if m.rip then s.ripNext else s.addrReg m.base) + (s.addrReg m.index <<< m.scale.val) + m.disp.signExtend 64)

/-- The natural alignment #AC looks for (rule R220): that of the type up to 8 bytes, none for wider operands
(spec/61_exception_groups.md rules R2112, R2114, R2116; the unaligned moves ask `Align.loose`). -/
def naturalAlign (n : Nat) : Nat := if n ≤ 8 then n else 1

/-- Resolve a memory operand of n bytes with its natural alignment. -/
def resolveMem (k : Kind) (m : MemRef) (n : Nat) : M (List Nat) := do
  resolve m.seg k (naturalAlign n) 1 ((← get).ea m) n

/-- Resolve a memory operand that must be aligned to `must` bytes (rule R221). -/
def resolveAligned (k : Kind) (m : MemRef) (n must : Nat) : M (List Nat) := do
  resolve m.seg k (naturalAlign n) must ((← get).ea m) n

/-- Resolve a memory operand of n bytes for which #AC looks for alignment `nat`. -/
def resolveLoose (k : Kind) (m : MemRef) (n nat : Nat) : M (List Nat) := do
  resolve m.seg k nat 1 ((← get).ea m) n

/-- Read a memory operand of n bytes. -/
def readMem (m : MemRef) (n : Nat) : M Nat := do physRead (← resolveMem .read m n)

/-! General registers. -/

/-- Bits 15:8 of a register replaced (rule R51: AH, CH, DH, BH). -/
def setHighByte (old : Word) (v : BitVec 8) : Word := (old &&& ~~~(0xFF00 : Word)) ||| (v.setWidth 64 <<< 8)

/-- The register that holds AH, CH, DH or BH. -/
def highReg (r : Fin 4) : Reg := ⟨r.val, by omega⟩

/-- The value of a general-register operand. -/
def State.gpVal (s : State) (w : Width) : Gp → BitVec w.bits
  | .lo r => (s.gp r).setWidth w.bits
  | .hi r => (s.gp (highReg r) >>> 8).setWidth w.bits

/-- The state with a general-register operand written (rules R51, R52). -/
def State.setGpVal (s : State) (w : Width) (g : Gp) (v : BitVec w.bits) : State :=
  match g with
  | .lo r => s.setGp r (regWrite s.isLong w (s.gp r) v)
  | .hi r => s.setGp (highReg r) (setHighByte (s.gp (highReg r)) (v.setWidth 8))

/-- Read a general-register operand. -/
def readGp (w : Width) (g : Gp) : M (BitVec w.bits) := do return (← get).gpVal w g

/-- Write a general-register operand. -/
def writeGp (w : Width) (g : Gp) (v : BitVec w.bits) : M Unit := modify fun s => s.setGpVal w g v

/-! Operands in a register or in memory. -/

/-- An operand after its checks: a register, or the physical addresses of its bytes. -/
inductive Place where
  | reg (g : Gp)
  | mem (as : List Nat)
deriving DecidableEq, Repr

/-- Resolve an operand of a width for an access of kind k; a read-modify-write operand is resolved as a write (rule R203). -/
def place (k : Kind) (w : Width) : Rm → M Place
  | .reg g => return .reg g
  | .mem m => do return .mem (← resolveMem k m w.bytes)

/-- The value of a resolved operand. -/
def State.placeVal (s : State) (w : Width) : Place → BitVec w.bits
  | .reg g => s.gpVal w g
  | .mem as => BitVec.ofNat w.bits (s.mem.readList as)

/-- The state with a resolved operand written. -/
def State.setPlace (s : State) (w : Width) (p : Place) (v : BitVec w.bits) : State :=
  match p with
  | .reg g => s.setGpVal w g v
  | .mem as => s.physWrite as v.toNat

/-- Read a resolved operand. -/
def readPlace (w : Width) (p : Place) : M (BitVec w.bits) := do return (← get).placeVal w p

/-- Write a resolved operand. -/
def writePlace (w : Width) (p : Place) (v : BitVec w.bits) : M Unit := modify fun s => s.setPlace w p v

/-- Read an r/m operand. -/
def readRm (w : Width) (o : Rm) : M (BitVec w.bits) := do readPlace w (← place .read w o)

/-- Write an r/m operand. -/
def writeRm (w : Width) (o : Rm) (v : BitVec w.bits) : M Unit := do writePlace w (← place .write w o) v

/-! Vector registers. -/

/-- An XMM register. -/
def State.xmm (s : State) (r : Reg) : BitVec 128 := (s.ymm.get r).setWidth 128

/-- A YMM register. -/
def State.ymmOf (s : State) (r : Reg) : BitVec 256 := s.ymm.get r

/-- The low bits of a YMM register that a vector length names. -/
def State.vec (s : State) (l : VLen) (r : Reg) : BitVec l.bits := (s.ymm.get r).setWidth l.bits

/-- A legacy write of an XMM register keeps bits 255:128 (rule R112). -/
def State.setXmm (s : State) (r : Reg) (v : BitVec 128) : State :=
  { s with ymm := s.ymm.set r ((((s.ymm.get r) >>> 128) <<< 128) ||| v.setWidth 256) }

/-- A VEX write zeroes the bits above the vector length (rule R112). -/
def State.setVec {n : Nat} (s : State) (r : Reg) (v : BitVec n) : State :=
  { s with ymm := s.ymm.set r (v.setWidth 256) }

/-- Read an XMM register. -/
def readXmm (r : Reg) : M (BitVec 128) := do return (← get).xmm r
/-- Write an XMM register by a legacy instruction. -/
def writeXmm (r : Reg) (v : BitVec 128) : M Unit := modify fun s => s.setXmm r v
/-- Read a vector register at a vector length. -/
def readVec (l : VLen) (r : Reg) : M (BitVec l.bits) := do return (← get).vec l r
/-- Write a vector register by a VEX instruction. -/
def writeVec {n : Nat} (r : Reg) (v : BitVec n) : M Unit := modify fun s => s.setVec r v

/-- How a vector operand in memory is aligned (rule R221; spec/61_exception_groups.md rules R2111 to R2122): freely with the
natural #AC, to its size, freely with the #AC of the unaligned moves (on an 8-byte boundary where the parameter U11 says so), or
with no #AC at all. -/
inductive Align where
  | free | size | loose | silent
deriving DecidableEq, Repr

/-- The addresses of a vector operand of n bytes. -/
def resolveVec (k : Kind) (al : Align) (m : MemRef) (n : Nat) : M (List Nat) :=
  match al with
  | .free => resolveMem k m n
  | .size => resolveAligned k m n n
  | .loose => do resolveLoose k m n (if (← get).cfg.acWide then 8 else 1)
  | .silent => resolveLoose k m n 1

/-- Read n bytes of an xmm/m operand: the low bytes of the register, or memory. -/
def readXm (al : Align) (n : Nat) : Xm → M (BitVec (8 * n))
  | .reg r => do return ((← get).ymm.get r).setWidth (8 * n)
  | .mem m => do return BitVec.ofNat (8 * n) (← physRead (← resolveVec .read al m n))

/-! MMX registers. -/

/-- MM0 to MM7 are the low 64 bits of the physical x87 registers (rule R128). -/
def State.mm (s : State) (r : Fin 8) : BitVec 64 := (s.fpu.fpr.get r).setWidth 64

/-- A write of an MMX register sets bits 79:64 (rule R128). -/
def State.setMm (s : State) (r : Fin 8) (v : BitVec 64) : State :=
  { s with fpu := { s.fpu with fpr := s.fpu.fpr.set r ((0xFFFF : BitVec 16) ++ v) } }

/-- Read an MMX register. -/
def readMm (r : Fin 8) : M (BitVec 64) := do return (← get).mm r
/-- Write an MMX register. -/
def writeMm (r : Fin 8) (v : BitVec 64) : M Unit := modify fun s => s.setMm r v

/-- Read n bytes of an mm/m operand. -/
def readMmM (n : Nat) : Mm → M (BitVec (8 * n))
  | .reg r => do return ((← get).mm r).setWidth (8 * n)
  | .mem m => do return BitVec.ofNat (8 * n) (← readMem m n)

/-- What every MMX instruction but EMMS does to the x87 unit (rule R128): TOP 0 and all tags valid. -/
def Fpu.mmxUse (f : Fpu) : Fpu := { f with ftw := 0, fsw := { f.fsw with top := 0 } }

end Sys2Proof.Machine
end

