-- ==== Sys2Proof/Machine/Arith.lean ====
section
/-! DEFINITION. Integer arithmetic and logic: ADD to XOR, INC, DEC, NEG, NOT, multiply and divide, the decimal adjustments, the
sign extensions of the accumulator, the exchanges. Each meaning is one definition over a shared shape; a `...Body` is shared with
the LOCK, XACQUIRE and XRELEASE forms. -/

namespace Sys2Proof.Machine

/-- An operation on two operands of n bits: it may read and write flags and answers the result. -/
abbrev BinOp := (n : Nat) → BitVec n → BitVec n → M (BitVec n)

/-- An operation on one operand of n bits. -/
abbrev UnOp := (n : Nat) → BitVec n → M (BitVec n)

/-- DEST <- op(DEST, SRC): the destination is resolved for writing before anything is written (XG-MEM-RMW). -/
def aluRun (op : BinOp) : AluOps → M Unit
  | .mr w dst src => do
    let p ← place .write w dst
    let a ← readPlace w p
    let b ← readGp w src
    writePlace w p (← op w.bits a b)
  | .rm w dst src => do
    let b ← readRm w src
    let a ← readGp w dst
    writeGp w dst (← op w.bits a b)
  | .mi w dst imm => do
    let p ← place .write w dst
    let a ← readPlace w p
    writePlace w p (← op w.bits a (immOf w imm))

/-- op on two operands that are only read; the result is discarded (XG-MEM-R). -/
def aluTest (op : BinOp) : AluOps → M Unit
  | .mr w a b => do
    let x ← readRm w a
    let y ← readGp w b
    let _ ← op w.bits x y
  | .rm w a b => do
    let y ← readRm w b
    let x ← readGp w a
    let _ ← op w.bits x y
  | .mi w a imm => do
    let x ← readRm w a
    let _ ← op w.bits x (immOf w imm)

/-- DEST <- op(DEST) (XG-MEM-RMW). -/
def unRun (op : UnOp) (w : Width) (dst : Rm) : M Unit := do
  let p ← place .write w dst
  let a ← readPlace w p
  writePlace w p (← op w.bits a)

/-- Addition with the six flags of rule R71. -/
def opAdd : BinOp := fun _ a b => do
  modifyFlags fun f => f.add a b false
  return addWith a b false

/-- Addition with carry (spec/40_a_aaa-arpl.md rule R504). -/
def opAdc : BinOp := fun _ a b => do
  let c := (← get).flags.cf
  modifyFlags fun f => f.add a b c
  return addWith a b c

/-- Subtraction with the six flags of rule R72. -/
def opSub : BinOp := fun _ a b => do
  modifyFlags fun f => f.sub a b false
  return subWith a b false

/-- Subtraction with borrow (spec/56_s_sahf-sysret.md rule R1021). -/
def opSbb : BinOp := fun _ a b => do
  let c := (← get).flags.cf
  modifyFlags fun f => f.sub a b c
  return subWith a b c

/-- AND, with the flags of rule R73. -/
def opAnd : BinOp := fun _ a b => do setLogic (a &&& b); return a &&& b
/-- OR, with the flags of rule R73. -/
def opOr : BinOp := fun _ a b => do setLogic (a ||| b); return a ||| b
/-- XOR, with the flags of rule R73. -/
def opXor : BinOp := fun _ a b => do setLogic (a ^^^ b); return a ^^^ b

/-- Increment: CF is kept (spec/48_h_haddpd-iret.md rule R713). -/
def opInc : UnOp := fun _ a => do
  modifyFlags fun f => { f.add a 1 false with cf := f.cf }
  return addWith a 1 false

/-- Decrement: CF is kept (spec/45_d_daa-extractps.md rule R606). -/
def opDec : UnOp := fun _ a => do
  modifyFlags fun f => { f.sub a 1 false with cf := f.cf }
  return subWith a 1 false

/-- Negation with the flags of 0 - DEST (spec/51_m_movs-outs.md rule R824). -/
def opNeg : UnOp := fun _ a => do
  modifyFlags fun f => f.sub 0 a false
  return subWith 0 a false

/-- Inversion; no flag changes (spec/51_m_movs-outs.md rule R826). -/
def opNot : UnOp := fun _ a => return ~~~a

/-- ADD (spec/40_a_aaa-arpl.md rule R506). -/
def execAdd (o : AluOps) (s : State) : Host.Outcome State Fault Refusal := run (aluRun opAdd o) s
/-- ADC (spec/40_a_aaa-arpl.md rule R504). -/
def execAdc (o : AluOps) (s : State) : Host.Outcome State Fault Refusal := run (aluRun opAdc o) s
/-- SUB (spec/56_s_sahf-sysret.md rule R1060). -/
def execSub (o : AluOps) (s : State) : Host.Outcome State Fault Refusal := run (aluRun opSub o) s
/-- SBB (spec/56_s_sahf-sysret.md rule R1021). -/
def execSbb (o : AluOps) (s : State) : Host.Outcome State Fault Refusal := run (aluRun opSbb o) s
/-- AND (spec/40_a_aaa-arpl.md rule R520). -/
def execAnd (o : AluOps) (s : State) : Host.Outcome State Fault Refusal := run (aluRun opAnd o) s
/-- OR (spec/51_m_movs-outs.md rule R827). -/
def execOr (o : AluOps) (s : State) : Host.Outcome State Fault Refusal := run (aluRun opOr o) s
/-- XOR (spec/59_w_wait-xtest.md rule R1201). -/
def execXor (o : AluOps) (s : State) : Host.Outcome State Fault Refusal := run (aluRun opXor o) s
/-- CMP (spec/42_c_call-cmpps.md rule R563). -/
def execCmp (o : AluOps) (s : State) : Host.Outcome State Fault Refusal := run (aluTest opSub o) s

/-- TEST's operands as those of a two-operand instruction. -/
def testOps : TestOps → AluOps
  | .mr w a b => .mr w a b
  | .mi w a imm => .mi w a imm

/-- TEST (spec/57_t_test-vfnmsub.md rule R1070). -/
def execTest (o : TestOps) (s : State) : Host.Outcome State Fault Refusal := run (aluTest opAnd (testOps o)) s

/-- INC (spec/48_h_haddpd-iret.md rule R713). -/
def execInc (o : RmOp) (s : State) : Host.Outcome State Fault Refusal := run (unRun opInc o.w o.rm) s
/-- DEC (spec/45_d_daa-extractps.md rule R606). -/
def execDec (o : RmOp) (s : State) : Host.Outcome State Fault Refusal := run (unRun opDec o.w o.rm) s
/-- NEG (spec/51_m_movs-outs.md rule R824). -/
def execNeg (o : RmOp) (s : State) : Host.Outcome State Fault Refusal := run (unRun opNeg o.w o.rm) s
/-- NOT (spec/51_m_movs-outs.md rule R826). -/
def execNot (o : RmOp) (s : State) : Host.Outcome State Fault Refusal := run (unRun opNot o.w o.rm) s

/-- #UD unless CPUID reports the feature (spec/30_encoding.md rule R406). -/
def needFeature (f : Config.Feature) : M Unit := do ensure ((← get).has f) raiseUD

/-- #UD in 64-bit mode: the instruction is invalid there. -/
def notInLong : M Unit := do ensure (!(← get).isLong) raiseUD

/-- What a VEX-encoded general-register instruction needs (XG-VEXGPR, spec/61_exception_groups.md rule R2106). -/
def needVexGpr (f : Config.Feature) : M Unit := do
  ensure (!(← get).isLegacySeg) raiseUD
  needFeature f

/-- ADCX: only CF is written (spec/40_a_aaa-arpl.md rule R505). -/
def execAdcx (o : RegRm) (s : State) : Host.Outcome State Fault Refusal := run (do
  needFeature .adx
  let b ← readRm o.w o.src
  let a ← readReg o.w o.dst
  let c := (← get).flags.cf
  modifyFlags fun f => { f with cf := (f.add a b c).cf }
  writeReg o.w o.dst (addWith a b c)) s

/-- ADOX: only OF is written, as an unsigned carry (spec/40_a_aaa-arpl.md rule R513). -/
def execAdox (o : RegRm) (s : State) : Host.Outcome State Fault Refusal := run (do
  needFeature .adx
  let b ← readRm o.w o.src
  let a ← readReg o.w o.dst
  let c := (← get).flags.of
  modifyFlags fun f => { f with of := (f.add a b c).cf }
  writeReg o.w o.dst (addWith a b c)) s

/-! Multiply and divide. -/

/-- Write a double-width value: AX for bytes, else rDX:rAX (spec/51_m_movs-outs.md rule R817). -/
def writeDouble (w : Width) (v : Nat) : M Unit :=
  match w with
  | .w8 => writeReg .w16 rAX (BitVec.ofNat 16 v)
  | w => do
    writeReg w rAX (BitVec.ofNat w.bits v)
    writeReg w rDX (BitVec.ofNat w.bits (v / 2 ^ w.bits))

/-- Read the double-width dividend (spec/45_d_daa-extractps.md rule R607). -/
def readDouble (w : Width) : M Nat :=
  match w with
  | .w8 => do return (← readReg .w16 rAX).toNat
  | w => do return (← readReg w rDX).toNat * 2 ^ w.bits + (← readReg w rAX).toNat

/-- Write quotient and remainder: AL and AH for bytes, else rAX and rDX. -/
def writeQuotRem (w : Width) (q r : Nat) : M Unit :=
  match w with
  | .w8 => writeReg .w16 rAX (BitVec.ofNat 16 (r % 256 * 256 + q % 256))
  | w => do
    writeReg w rAX (BitVec.ofNat w.bits q)
    writeReg w rDX (BitVec.ofNat w.bits r)

/-- Set CF and OF; SF is `sf`, ZF, AF and PF are undefined. -/
def setProductFlags (cut : Bool) (sf : Bool) : M Unit := do
  let u ← undefStatus (← get).flags
  modifyFlags fun f => { f.withStatus u with cf := cut, of := cut, sf := sf }

/-- MUL (spec/51_m_movs-outs.md rule R817). -/
def execMul (o : RmOp) (s : State) : Host.Outcome State Fault Refusal := run (do
  let b ← readRm o.w o.rm
  let a ← readReg o.w rAX
  let p := a.toNat * b.toNat
  writeDouble o.w p
  let sf ← freeBit
  setProductFlags (decide (2 ^ o.w.bits ≤ p)) sf) s

/-- The product of signed multiplication, cut to n bits, and whether it was cut. -/
def signedProduct {n : Nat} (a b : BitVec n) : BitVec n × Bool :=
  let p := a.toInt * b.toInt
  let r := BitVec.ofInt n p
  (r, decide (r.toInt ≠ p))

/-- IMUL (spec/48_h_haddpd-iret.md rule R710). -/
def execImul (o : ImulOps) (s : State) : Host.Outcome State Fault Refusal := run (
  match o with
  | .one w src => do
    let b ← readRm w src
    let a ← readReg w rAX
    let (r, cut) := signedProduct a b
    writeDouble w (BitVec.ofInt (2 * w.bits) (a.toInt * b.toInt)).toNat
    setProductFlags cut r.msb
  | .two w dst src => do
    let b ← readRm w src
    let a ← readReg w dst
    let (r, cut) := signedProduct a b
    writeReg w dst r
    setProductFlags cut r.msb
  | .three w dst src imm => do
    let a ← readRm w src
    let (r, cut) := signedProduct a (immOf w imm)
    writeReg w dst r
    setProductFlags cut r.msb) s

/-- All six status flags become undefined (rule R61). -/
def clobberStatus : M Unit := do
  let u ← undefStatus (← get).flags
  modifyFlags fun f => f.withStatus u

/-- DIV (spec/45_d_daa-extractps.md rule R607). -/
def execDiv (o : RmOp) (s : State) : Host.Outcome State Fault Refusal := run (do
  let d := (← readRm o.w o.rm).toNat
  ensure (decide (d ≠ 0)) raiseDE
  let n ← readDouble o.w
  ensure (decide (n / d < 2 ^ o.w.bits)) raiseDE
  writeQuotRem o.w (n / d) (n % d)
  clobberStatus) s

/-- IDIV (spec/48_h_haddpd-iret.md rule R709). -/
def execIdiv (o : RmOp) (s : State) : Host.Outcome State Fault Refusal := run (do
  let w := o.w
  let d := (← readRm w o.rm).toInt
  ensure (decide (d ≠ 0)) raiseDE
  let n := (BitVec.ofNat (2 * w.bits) (← readDouble w)).toInt
  let q := n.tdiv d
  ensure (decide (-(2 ^ (w.bits - 1) : Int) ≤ q ∧ q < 2 ^ (w.bits - 1))) raiseDE
  writeQuotRem w (BitVec.ofInt w.bits q).toNat (BitVec.ofInt w.bits (n.tmod d)).toNat
  clobberStatus) s

/-- MULX: the low half first, then the high half; no flags (spec/51_m_movs-outs.md rule R822). -/
def execMulx (o : Vg3) (s : State) : Host.Outcome State Fault Refusal := run (do
  needVexGpr .bmi2
  let b ← readRm o.w o.b
  let a ← readReg o.w rDX
  let p := a.toNat * b.toNat
  writeReg o.w o.a (BitVec.ofNat o.w.bits p)
  writeReg o.w o.dst (BitVec.ofNat o.w.bits (p / 2 ^ o.w.bits))) s

/-! Decimal adjustment. -/

/-- AL. -/
def readAl : M (BitVec 8) := readReg .w8 rAX
/-- Write AL. -/
def writeAl (v : BitVec 8) : M Unit := writeReg .w8 rAX v

/-- Does AL need an adjustment: its low digit is above 9 or AF is set? -/
def needsAdjust (al : BitVec 8) (af : Bool) : Bool := decide (9 < al.toNat % 16) || af

/-- AAA (spec/40_a_aaa-arpl.md rule R500). -/
def execAaa (s : State) : Host.Outcome State Fault Refusal := run (do
  notInLong
  let adj := needsAdjust (← readAl) (← get).flags.af
  let ax ← readReg .w16 rAX
  writeReg .w16 rAX ((if adj then ax + 0x106 else ax) &&& 0xFF0F)
  let u ← undefStatus (← get).flags
  modifyFlags fun f => { f.withStatus u with af := adj, cf := adj }) s

/-- AAS (spec/40_a_aaa-arpl.md rule R503). -/
def execAas (s : State) : Host.Outcome State Fault Refusal := run (do
  notInLong
  let adj := needsAdjust (← readAl) (← get).flags.af
  let ax ← readReg .w16 rAX
  writeReg .w16 rAX ((if adj then ax - 6 - 0x100 else ax) &&& 0xFF0F)
  let u ← undefStatus (← get).flags
  modifyFlags fun f => { f.withStatus u with af := adj, cf := adj }) s

/-- SF, ZF and PF of a byte; OF, AF and CF are undefined. -/
def setByteResult (r : BitVec 8) : M Unit := do
  let u ← undefStatus (← get).flags
  modifyFlags fun f => (f.withStatus u).szp r

/-- AAD (spec/40_a_aaa-arpl.md rule R501). -/
def execAad (imm : BitVec 8) (s : State) : Host.Outcome State Fault Refusal := run (do
  notInLong
  let al ← readAl
  let ah : BitVec 8 ← readGp .w8 (.hi 0)
  let r : BitVec 8 := al + ah * imm
  writeReg .w16 rAX (r.setWidth 16)
  setByteResult r) s

/-- AAM (spec/40_a_aaa-arpl.md rule R502). -/
def execAam (imm : BitVec 8) (s : State) : Host.Outcome State Fault Refusal := run (do
  notInLong
  ensure (decide (imm ≠ 0)) raiseDE
  let al ← readAl
  let r : BitVec 8 := BitVec.ofNat 8 (al.toNat % imm.toNat)
  writeReg .w16 rAX (BitVec.ofNat 8 (al.toNat / imm.toNat) ++ r)
  setByteResult r) s

/-- DAA (spec/45_d_daa-extractps.md rule R604). -/
def execDaa (s : State) : Host.Outcome State Fault Refusal := run (do
  notInLong
  let al ← readAl
  let f0 := (← get).flags
  let low := needsAdjust al f0.af
  let high := decide (0x99 < al.toNat) || f0.cf
  let r := al + (if low then 6 else 0) + (if high then 0x60 else 0)
  writeAl r
  let of ← freeBit
  modifyFlags fun f => { f.szp r with cf := high, af := low, of := of }) s

/-- DAS (spec/45_d_daa-extractps.md rule R605). -/
def execDas (s : State) : Host.Outcome State Fault Refusal := run (do
  notInLong
  let al ← readAl
  let f0 := (← get).flags
  let low := needsAdjust al f0.af
  let high := decide (0x99 < al.toNat) || f0.cf
  let r := al - (if low then 6 else 0) - (if high then 0x60 else 0)
  let cf := high || (low && (f0.cf || decide (al.toNat < 6)))
  writeAl r
  let of ← freeBit
  modifyFlags fun f => { f.szp r with cf := cf, af := low, of := of }) s

/-! Sign extension of the accumulator (spec/42_c_call-cmpps.md rule R554, spec/44_c_cvtdq2pd-cwd.md rule R603). -/

/-- CBW. -/
def execCbw (s : State) : Host.Outcome State Fault Refusal := run (do
  writeReg .w16 rAX ((← readReg .w8 rAX).signExtend 16)) s
/-- CWDE. -/
def execCwde (s : State) : Host.Outcome State Fault Refusal := run (do
  writeReg .w32 rAX ((← readReg .w16 rAX).signExtend 32)) s
/-- CDQE. -/
def execCdqe (s : State) : Host.Outcome State Fault Refusal := run (do
  writeReg .w64 rAX ((← readReg .w32 rAX).signExtend 64)) s

/-- The sign of the accumulator spread over rDX. -/
def spreadSign (w : Width) : M Unit := do
  writeReg w rDX (if (← readReg w rAX).msb then BitVec.allOnes w.bits else 0)

/-- CWD. -/
def execCwd (s : State) : Host.Outcome State Fault Refusal := run (spreadSign .w16) s
/-- CDQ. -/
def execCdq (s : State) : Host.Outcome State Fault Refusal := run (spreadSign .w32) s
/-- CQO. -/
def execCqo (s : State) : Host.Outcome State Fault Refusal := run (spreadSign .w64) s

/-! Exchanges. -/

/-- XADD: the register is written first, the destination last (spec/59_w_wait-xtest.md rule R1195). -/
def xaddBody (w : Width) (dst : Rm) (src : Gp) : M Unit := do
  let p ← place .write w dst
  let d ← readPlace w p
  let r ← readGp w src
  let t ← opAdd w.bits d r
  writeGp w src d
  writePlace w p t

/-- XADD (spec/59_w_wait-xtest.md rule R1195). -/
def execXadd (o : MrOps) (s : State) : Host.Outcome State Fault Refusal := run (xaddBody o.w o.dst o.src) s

/-- XCHG (spec/59_w_wait-xtest.md rule R1197). -/
def xchgBody (w : Width) (dst : Rm) (src : Gp) : M Unit := do
  let p ← place .write w dst
  let a ← readPlace w p
  let b ← readGp w src
  writePlace w p b
  writeGp w src a

/-- XCHG (spec/59_w_wait-xtest.md rule R1197). -/
def execXchg (o : MrOps) (s : State) : Host.Outcome State Fault Refusal := run (xchgBody o.w o.dst o.src) s

/-- CMPXCHG: the destination is always written (spec/43_c_cmps-crc32.md rule R570). -/
def cmpxchgBody (w : Width) (dst : Rm) (src : Gp) : M Unit := do
  let p ← place .write w dst
  let d ← readPlace w p
  let a ← readReg w rAX
  let r ← readGp w src
  let _ ← opSub w.bits a d
  if a = d then writePlace w p r
  else
    writePlace w p d
    writeReg w rAX d

/-- CMPXCHG (spec/43_c_cmps-crc32.md rule R570). -/
def execCmpxchg (o : MrOps) (s : State) : Host.Outcome State Fault Refusal := run (cmpxchgBody o.w o.dst o.src) s

/-- CMPXCHG8B and CMPXCHG16B on halves of width w (spec/43_c_cmps-crc32.md rule R571). -/
def cmpxchgPair (w : Width) (must : Nat) (m : MemRef) : M Unit := do
  let as ← resolveAligned .write m (2 * w.bytes) must
  let d ← physRead as
  let pair (hi lo : Reg) : M Nat := do return (← readReg w hi).toNat * 2 ^ w.bits + (← readReg w lo).toNat
  let a ← pair rDX rAX
  let n ← pair rCX rBX
  modifyFlags fun f => { f with zf := decide (a = d) }
  if a = d then physWrite as n
  else
    physWrite as d
    writeReg w rAX (BitVec.ofNat w.bits d)
    writeReg w rDX (BitVec.ofNat w.bits (d / 2 ^ w.bits))

/-- CMPXCHG8B (rule R571). -/
def cmpxchg8bBody (m : MemRef) : M Unit := do
  needFeature .cx8
  cmpxchgPair .w32 1 m

/-- CMPXCHG16B (rule R571): an absent feature is #GP(0), as printed (spec/90_conflicts.md C9). -/
def cmpxchg16bBody (m : MemRef) : M Unit := do
  ensure ((← get).has .cmpxchg16b) raiseGP
  cmpxchgPair .w64 16 m

/-- CMPXCHG8B (spec/43_c_cmps-crc32.md rule R571). -/
def execCmpxchg8b (o : MemRef) (s : State) : Host.Outcome State Fault Refusal := run (cmpxchg8bBody o) s
/-- CMPXCHG16B (spec/43_c_cmps-crc32.md rule R571). -/
def execCmpxchg16b (o : MemRef) (s : State) : Host.Outcome State Fault Refusal := run (cmpxchg16bBody o) s

/-- The bytes of a value in the opposite order (spec/41_b_blendpd-bzhi.md rule R538). -/
def byteSwap {n : Nat} (v : BitVec n) : BitVec n :=
  BitVec.ofNat n ((List.range (n / 8)).foldl (fun acc k => acc * 256 + v.toNat / 2 ^ (8 * k) % 256) 0)

/-- The value left in a register whose operand of width w is undefined: a free value where the operand reaches; a 32-bit operand
in 64-bit mode leaves all 64 bits free (U2, U3; log entry 1). -/
def undefReg (w : Width) (r : Reg) : M Unit := do
  let v ← freeValue 64
  modify fun s =>
    s.setGp r (if s.isLong && decide (w = .w32) then v else mergeLow (s.gp r) (v.setWidth w.bits))

/-- BSWAP; a 16-bit register is left undefined (spec/41_b_blendpd-bzhi.md rule R538, U3). -/
def execBswap (o : RegOp) (s : State) : Host.Outcome State Fault Refusal := run (do
  if o.w = .w16 then undefReg .w16 o.reg
  else writeReg o.w o.reg (byteSwap (← readReg o.w o.reg))) s

/-- ARPL (spec/40_a_aaa-arpl.md rule R526). -/
def execArpl (o : MrOps) (s : State) : Host.Outcome State Fault Refusal := run (do
  let s0 ← get
  ensure (!s0.isLegacySeg && !s0.isLong) raiseUD
  let p ← place .write .w16 o.dst
  let d ← readPlace .w16 p
  let r ← readGp .w16 o.src
  let up := decide (rpl d < rpl r)
  modifyFlags fun f => { f with zf := up }
  if up then writePlace .w16 p (withRpl d (rpl r))) s

end Sys2Proof.Machine
end

