-- ==== Sys2Proof/Machine/Bits.lean ====
section
/-! DEFINITION. Shifts, rotates, bit tests, bit counts, the bit-field instructions and CRC32. -/

namespace Sys2Proof.Machine

/-! Shifts and rotates. -/

/-- The count as given (rules R982, R1013). -/
def countOf : Count → M (BitVec 8)
  | .one => return 1
  | .cl => readReg .w8 rCX
  | .imm n => return n

/-- The masked count: 6 bits for 64-bit operands, else 5 (rules R982, R1013). -/
def maskCount (w : Width) (c : BitVec 8) : Nat :=
  match w with
  | .w64 => c.toNat % 64
  | _ => c.toNat % 32

/-- What a shift or rotate by a masked count of at least one does: the new value and the flags; `raw` is the count before
masking. -/
abbrev ShiftOp := (n : Nat) → (raw m : Nat) → BitVec n → M (BitVec n)

/-- A shift or rotate: a masked count of 0 changes nothing, but the destination is still checked for writing (R982, R1013). -/
def shiftRun (op : ShiftOp) (o : ShiftOps) : M Unit := do
  let p ← place .write o.w o.dst
  let a ← readPlace o.w p
  let c ← countOf o.cnt
  let m := maskCount o.w c
  if m ≠ 0 then writePlace o.w p (← op o.w.bits c.toNat m a)

/-- OF: defined for a count of one, undefined otherwise. -/
def shiftOf (one : Bool) (v : Bool) : M Bool := do
  let u ← freeBit
  return if one then v else u

/-- The flags of a shift (spec/56_s_sahf-sysret.md rule R1013); AF is undefined. -/
def setShiftFlags {n : Nat} (r : BitVec n) (cf of : Bool) : M Unit := do
  let af ← freeBit
  modifyFlags fun f => { f.szp r with cf := cf, of := of, af := af }

/-- CF of a logical shift: undefined when the count reaches the size (rule R1013). -/
def shiftCf (n m : Nat) (v : Bool) : M Bool := do
  let u ← freeBit
  return if n ≤ m then u else v

/-- SHL and SAL (spec/56_s_sahf-sysret.md rules R1014, R1016). -/
def opShl : ShiftOp := fun n _ m a => do
  let r := a <<< m
  let cf ← shiftCf n m (a.getLsbD (n - m))
  setShiftFlags r cf (← shiftOf (decide (m = 1)) (r.msb ^^ cf))
  return r

/-- SHR (spec/56_s_sahf-sysret.md rule R1017). -/
def opShr : ShiftOp := fun n _ m a => do
  let r := a >>> m
  let cf ← shiftCf n m (a.getLsbD (m - 1))
  setShiftFlags r cf (← shiftOf (decide (m = 1)) a.msb)
  return r

/-- SAR (spec/56_s_sahf-sysret.md rule R1015). -/
def opSar : ShiftOp := fun _ _ m a => do
  let r := a.sshiftRight m
  setShiftFlags r ((a.sshiftRight (m - 1)).getLsbD 0) (← shiftOf (decide (m = 1)) false)
  return r

/-- SAL (spec/56_s_sahf-sysret.md rule R1014). -/
def execSal (o : ShiftOps) (s : State) : Host.Outcome State Fault Refusal := run (shiftRun opShl o) s
/-- SHL (spec/56_s_sahf-sysret.md rule R1016). -/
def execShl (o : ShiftOps) (s : State) : Host.Outcome State Fault Refusal := run (shiftRun opShl o) s
/-- SHR (spec/56_s_sahf-sysret.md rule R1017). -/
def execShr (o : ShiftOps) (s : State) : Host.Outcome State Fault Refusal := run (shiftRun opShr o) s
/-- SAR (spec/56_s_sahf-sysret.md rule R1015). -/
def execSar (o : ShiftOps) (s : State) : Host.Outcome State Fault Refusal := run (shiftRun opSar o) s

/-- Set CF and OF (rule R982). -/
def setRotateFlags (cf of : Bool) : M Unit := modifyFlags fun f => { f with cf := cf, of := of }

/-- ROL (spec/55_r_rcl-rsqrtss.md rule R985). -/
def opRol : ShiftOp := fun _ _ m a => do
  let r := a.rotateLeft m
  setRotateFlags (r.getLsbD 0) (← shiftOf (decide (m = 1)) (r.msb ^^ r.getLsbD 0))
  return r

/-- ROR (spec/55_r_rcl-rsqrtss.md rule R986). -/
def opRor : ShiftOp := fun n _ m a => do
  let r := a.rotateRight m
  setRotateFlags r.msb (← shiftOf (decide (m = 1)) (r.msb ^^ r.getLsbD (n - 2)))
  return r

/-- CF and the operand as one value of n + 1 bits. -/
def withCarry {n : Nat} (cf : Bool) (a : BitVec n) : BitVec (n + 1) := (BitVec.cons cf a)

/-- RCL (spec/55_r_rcl-rsqrtss.md rule R983): OF is defined for an unmasked count of one. -/
def opRcl : ShiftOp := fun n raw m a => do
  let x := (withCarry (← get).flags.cf a).rotateLeft m
  let r : BitVec n := x.setWidth n
  setRotateFlags x.msb (← shiftOf (decide (raw = 1)) (r.msb ^^ x.msb))
  return r

/-- RCR (spec/55_r_rcl-rsqrtss.md rule R984): OF from the operand before the rotate. -/
def opRcr : ShiftOp := fun n raw m a => do
  let c := (← get).flags.cf
  let x := (withCarry c a).rotateRight m
  setRotateFlags x.msb (← shiftOf (decide (raw = 1)) (a.msb ^^ c))
  return x.setWidth n

/-- ROL (spec/55_r_rcl-rsqrtss.md rule R985). -/
def execRol (o : ShiftOps) (s : State) : Host.Outcome State Fault Refusal := run (shiftRun opRol o) s
/-- ROR (spec/55_r_rcl-rsqrtss.md rule R986). -/
def execRor (o : ShiftOps) (s : State) : Host.Outcome State Fault Refusal := run (shiftRun opRor o) s
/-- RCL (spec/55_r_rcl-rsqrtss.md rule R983). -/
def execRcl (o : ShiftOps) (s : State) : Host.Outcome State Fault Refusal := run (shiftRun opRcl o) s
/-- RCR (spec/55_r_rcl-rsqrtss.md rule R984). -/
def execRcr (o : ShiftOps) (s : State) : Host.Outcome State Fault Refusal := run (shiftRun opRcr o) s

/-- SHLD and SHRD: `f` gives result and carry from destination, source and count. A count above the size leaves destination and
flags undefined (spec/56_s_sahf-sysret.md rules R1042, R1043, U21). -/
def doubleShift (o : DShiftOps) (f : BitVec o.w.bits → BitVec o.w.bits → Nat → BitVec o.w.bits × Bool) : M Unit := do
  let p ← place .write o.w o.dst
  let a ← readPlace o.w p
  let b ← readReg o.w o.src
  let m := maskCount o.w (← countOf o.cnt)
  if m = 0 then return ()
  else if o.w.bits < m then
    writePlace o.w p (← freeValue o.w.bits)
    clobberStatus
  else
    let (r, cf) := f a b m
    setShiftFlags r cf (← shiftOf (decide (m = 1)) (a.msb ^^ r.msb))
    writePlace o.w p r

/-- SHLD (spec/56_s_sahf-sysret.md rule R1042). -/
def execShld (o : DShiftOps) (s : State) : Host.Outcome State Fault Refusal := run (
  doubleShift o fun a b m =>
    let x := (a ++ b) <<< m
    (x.extractLsb' o.w.bits o.w.bits, a.getLsbD (o.w.bits - m))) s

/-- SHRD (spec/56_s_sahf-sysret.md rule R1043). -/
def execShrd (o : DShiftOps) (s : State) : Host.Outcome State Fault Refusal := run (
  doubleShift o fun a b m =>
    let x := (b ++ a) >>> m
    (x.extractLsb' 0 o.w.bits, a.getLsbD (m - 1))) s

/-- The three shifts without flags of BMI2: r/m is shifted by the masked count in the other register (spec/56_s_sahf-sysret.md
rule R1018). -/
def shiftX (o : Vg3) (f : BitVec o.w.bits → Nat → BitVec o.w.bits) : M Unit := do
  needVexGpr .bmi2
  let a ← readRm o.w o.b
  let c ← readReg o.w o.a
  writeReg o.w o.dst (f a (maskCount o.w (c.setWidth 8)))

/-- SARX (spec/56_s_sahf-sysret.md rule R1018). -/
def execSarx (o : Vg3) (s : State) : Host.Outcome State Fault Refusal := run (shiftX o fun a m => a.sshiftRight m) s
/-- SHLX (spec/56_s_sahf-sysret.md rule R1019). -/
def execShlx (o : Vg3) (s : State) : Host.Outcome State Fault Refusal := run (shiftX o fun a m => a <<< m) s
/-- SHRX (spec/56_s_sahf-sysret.md rule R1020). -/
def execShrx (o : Vg3) (s : State) : Host.Outcome State Fault Refusal := run (shiftX o fun a m => a >>> m) s

/-- RORX (spec/55_r_rcl-rsqrtss.md rule R1003). -/
def execRorx (o : RorxOps) (s : State) : Host.Outcome State Fault Refusal := run (do
  needVexGpr .bmi2
  let a ← readRm o.w o.src
  writeReg o.w o.dst (a.rotateRight (maskCount o.w o.imm))) s

/-! Bit tests. -/

/-- The bit offset as a signed integer: a register's value, or an immediate's low bits (rule R539). -/
def bitOffset (w : Width) : BitSrc → M Int
  | .reg r => do return (← readReg w r).toInt
  | .imm n => return ((n.toNat % w.bits : Nat) : Int)

/-- The place that holds the bit and the bit's number in it: a memory operand is the operand-sized word that contains the bit
(rule R539, decision D12). DESIGN CHOICE (log 61): rule R220 gives the alignment of #AC for 2 and 4 bytes; at operand size 64 it
is 8. -/
def bitPlace (k : Kind) (o : BitOps) : M (Place × Nat) := do
  let off ← bitOffset o.w o.src
  let n : Int := o.w.bits
  let bit := (off % n).toNat
  match o.dst with
  | .reg g => return (.reg g, bit)
  | .mem m =>
    let s ← get
    let ea := m.asz.trunc (s.ea m + BitVec.ofInt 64 (off.fdiv n * o.w.bytes))
    return (.mem (← resolve m.seg k (naturalAlign o.w.bytes) 1 ea o.w.bytes), bit)

/-- CF is the bit; OF, SF, AF and PF are undefined, ZF is kept (rule R540). -/
def setBitFlags (b : Bool) : M Unit := do
  let u ← undefStatus (← get).flags
  modifyFlags fun f => { f.withStatus u with cf := b, zf := f.zf }

/-- BT, reading only (rule R540). -/
def bitTest (o : BitOps) : M Unit := do
  let (p, i) ← bitPlace .read o
  setBitFlags ((← readPlace o.w p).getLsbD i)

/-- BTS, BTR, BTC: the word read, the new value of the bit given the old (rules R541 to R543). -/
def bitChange (f : Bool → Bool) (o : BitOps) : M Unit := do
  let (p, i) ← bitPlace .write o
  let a ← readPlace o.w p
  let b := a.getLsbD i
  let one : BitVec o.w.bits := BitVec.ofNat o.w.bits (2 ^ i)
  setBitFlags b
  writePlace o.w p (if f b then a ||| one else a &&& ~~~one)

/-- BT (spec/41_b_blendpd-bzhi.md rule R540). -/
def execBt (o : BitOps) (s : State) : Host.Outcome State Fault Refusal := run (bitTest o) s
/-- BTS (spec/41_b_blendpd-bzhi.md rule R543). -/
def execBts (o : BitOps) (s : State) : Host.Outcome State Fault Refusal := run (bitChange (fun _ => true) o) s
/-- BTR (spec/41_b_blendpd-bzhi.md rule R542). -/
def execBtr (o : BitOps) (s : State) : Host.Outcome State Fault Refusal := run (bitChange (fun _ => false) o) s
/-- BTC (spec/41_b_blendpd-bzhi.md rule R541). -/
def execBtc (o : BitOps) (s : State) : Host.Outcome State Fault Refusal := run (bitChange (fun b => !b) o) s

/-! Bit scans and counts. -/

/-- The number of the lowest 1 bit among bits i, i+1, …; k of them are looked at, and their number is the answer where none is. -/
def lowestFrom {n : Nat} (v : BitVec n) : Nat → Nat → Nat
  | 0, i => i
  | k + 1, i => if v.getLsbD i then i else lowestFrom v k (i + 1)

/-- Trailing zero bits of an n-bit value. -/
def trailing {n : Nat} (v : BitVec n) : Nat := lowestFrom v n 0

/-- Leading zero bits of an n-bit value. -/
def leading {n : Nat} (v : BitVec n) : Nat := trailing v.reverse

/-- BSF and BSR: with a zero source the destination is undefined (rules R536, R537, U2). -/
def bitScan (o : RegRm) (f : BitVec o.w.bits → Nat) : M Unit := do
  let a ← readRm o.w o.src
  let u ← undefStatus (← get).flags
  modifyFlags fun g => { g.withStatus u with zf := decide (a = 0) }
  if a = 0 then undefReg o.w o.dst else writeReg o.w o.dst (BitVec.ofNat o.w.bits (f a))

/-- BSF (spec/41_b_blendpd-bzhi.md rule R536). -/
def execBsf (o : RegRm) (s : State) : Host.Outcome State Fault Refusal := run (bitScan o trailing) s
/-- BSR (spec/41_b_blendpd-bzhi.md rule R537). -/
def execBsr (o : RegRm) (s : State) : Host.Outcome State Fault Refusal :=
  run (bitScan o fun a => o.w.bits - 1 - leading a) s

/-- TZCNT and LZCNT: CF for a zero source, ZF for a zero result; OF, SF, PF and AF are undefined (rules R766, R1071). -/
def bitCount (o : RegRm) (f : BitVec o.w.bits → Nat) : M Unit := do
  let a ← readRm o.w o.src
  let u ← undefStatus (← get).flags
  modifyFlags fun g => { g.withStatus u with cf := decide (a = 0), zf := decide (f a = 0) }
  writeReg o.w o.dst (BitVec.ofNat o.w.bits (f a))

/-- TZCNT; without BMI1 the bytes are BSF (spec/57_t_test-vfnmsub.md rule R1071). -/
def execTzcnt (o : RegRm) (s : State) : Host.Outcome State Fault Refusal := run (do
  if (← get).has .bmi1 then bitCount o trailing else bitScan o trailing) s
/-- LZCNT; without LZCNT the bytes are BSR (spec/49_j_jcc-lzcnt.md rule R766). -/
def execLzcnt (o : RegRm) (s : State) : Host.Outcome State Fault Refusal := run (do
  if (← get).has .lzcnt then bitCount o leading else bitScan o fun a => o.w.bits - 1 - leading a) s

/-- The number of 1 bits. -/
def popcount {n : Nat} (v : BitVec n) : Nat := ((List.range n).filter v.getLsbD).length

/-- POPCNT (spec/54_p_pop-pxor.md rule R925). -/
def execPopcnt (o : RegRm) (s : State) : Host.Outcome State Fault Refusal := run (do
  needFeature .popcnt
  let a ← readRm o.w o.src
  modifyFlags fun f => { f with of := false, sf := false, zf := decide (a = 0), af := false, cf := false, pf := false }
  writeReg o.w o.dst (BitVec.ofNat o.w.bits (popcount a))) s

/-! BMI1 and BMI2. -/

/-- ANDN (spec/40_a_aaa-arpl.md rule R521). -/
def execAndn (o : Vg3) (s : State) : Host.Outcome State Fault Refusal := run (do
  needVexGpr .bmi1
  let b ← readRm o.w o.b
  let a ← readReg o.w o.a
  let r := ~~~a &&& b
  let u ← undefStatus (← get).flags
  modifyFlags fun f => { f.withStatus u with sf := r.msb, zf := decide (r = 0), of := false, cf := false }
  writeReg o.w o.dst r) s

/-- BLSI, BLSMSK, BLSR: SF from the result, OF 0; AF and PF undefined (rules R532 to R534). -/
def lowestBit (o : RegRm) (f : BitVec o.w.bits → BitVec o.w.bits) (zf : BitVec o.w.bits → Bool) (cf : Bool → Bool) : M Unit := do
  needVexGpr .bmi1
  let a ← readRm o.w o.src
  let r := f a
  let u ← undefStatus (← get).flags
  modifyFlags fun g => { g.withStatus u with sf := r.msb, zf := zf r, cf := cf (decide (a = 0)), of := false }
  writeReg o.w o.dst r

/-- BLSI (spec/41_b_blendpd-bzhi.md rule R532). -/
def execBlsi (o : RegRm) (s : State) : Host.Outcome State Fault Refusal :=
  run (lowestBit o (fun a => -a &&& a) (fun r => decide (r = 0)) (fun z => !z)) s
/-- BLSMSK (spec/41_b_blendpd-bzhi.md rule R533). -/
def execBlsmsk (o : RegRm) (s : State) : Host.Outcome State Fault Refusal :=
  run (lowestBit o (fun a => (a - 1) ^^^ a) (fun _ => false) (fun z => z)) s
/-- BLSR (spec/41_b_blendpd-bzhi.md rule R534). -/
def execBlsr (o : RegRm) (s : State) : Host.Outcome State Fault Refusal :=
  run (lowestBit o (fun a => (a - 1) &&& a) (fun r => decide (r = 0)) (fun z => z)) s

/-- BEXTR (spec/41_b_blendpd-bzhi.md rule R528). -/
def execBextr (o : Vg3) (s : State) : Host.Outcome State Fault Refusal := run (do
  needVexGpr .bmi1
  let a ← readRm o.w o.b
  let c ← readReg o.w o.a
  let start := c.toNat % 256
  let len := c.toNat / 256 % 256
  let r : BitVec o.w.bits := BitVec.ofNat o.w.bits (a.toNat / 2 ^ start % 2 ^ len)
  let u ← undefStatus (← get).flags
  modifyFlags fun f => { f.withStatus u with zf := decide (r = 0), cf := false, of := false }
  writeReg o.w o.dst r) s

/-- BZHI (spec/41_b_blendpd-bzhi.md rule R544). -/
def execBzhi (o : Vg3) (s : State) : Host.Outcome State Fault Refusal := run (do
  needVexGpr .bmi2
  let a ← readRm o.w o.b
  let c ← readReg o.w o.a
  let k := c.toNat % 256
  let r : BitVec o.w.bits := BitVec.ofNat o.w.bits (a.toNat % 2 ^ k)
  let u ← undefStatus (← get).flags
  modifyFlags fun f =>
    { f.withStatus u with sf := r.msb, zf := decide (r = 0), cf := decide (o.w.bits ≤ k), of := false }
  writeReg o.w o.dst r) s

/-- PDEP: bits m, m+1, … of the mask, the next source bit being k (spec/52_p_pabsb-pextrw.md rule R870). -/
def deposit {n : Nat} (src mask : BitVec n) : Nat → Nat → Nat → Nat
  | 0, _, _ => 0
  | j + 1, m, k =>
    if mask.getLsbD m then (if src.getLsbD k then 2 ^ m else 0) + deposit src mask j (m + 1) (k + 1)
    else deposit src mask j (m + 1) k

/-- PEXT: bits m, m+1, … of the mask, the next result bit being k (spec/52_p_pabsb-pextrw.md rule R871). -/
def extractBits {n : Nat} (src mask : BitVec n) : Nat → Nat → Nat → Nat
  | 0, _, _ => 0
  | j + 1, m, k =>
    if mask.getLsbD m then (if src.getLsbD m then 2 ^ k else 0) + extractBits src mask j (m + 1) (k + 1)
    else extractBits src mask j (m + 1) k

/-- PDEP (spec/52_p_pabsb-pextrw.md rule R870). -/
def execPdep (o : Vg3) (s : State) : Host.Outcome State Fault Refusal := run (do
  needVexGpr .bmi2
  let m ← readRm o.w o.b
  let a ← readReg o.w o.a
  writeReg o.w o.dst (BitVec.ofNat o.w.bits (deposit a m o.w.bits 0 0))) s

/-- PEXT (spec/52_p_pabsb-pextrw.md rule R871). -/
def execPext (o : Vg3) (s : State) : Host.Outcome State Fault Refusal := run (do
  needVexGpr .bmi2
  let m ← readRm o.w o.b
  let a ← readReg o.w o.a
  writeReg o.w o.dst (BitVec.ofNat o.w.bits (extractBits a m o.w.bits 0 0))) s

/-! CRC32. -/

/-- The remainder modulo the polynomial 11EDC6F41H of a value whose k bits above bit 31 are still to be divided (rule R579). -/
def mod2 : Nat → Nat → Nat
  | 0, v => v
  | k + 1, v => mod2 k (if v.testBit (k + 32) then v ^^^ (0x11EDC6F41 * 2 ^ k) else v)

/-- CRC32's new accumulator from the old and m bits of source (spec/43_c_cmps-crc32.md rule R579). -/
def crcStep {m : Nat} (acc : BitVec 32) (src : BitVec m) : BitVec 32 :=
  (BitVec.ofNat 32 (mod2 m ((src.reverse.toNat * 2 ^ 32) ^^^ (acc.reverse.toNat * 2 ^ m)))).reverse

/-- CRC32 (spec/43_c_cmps-crc32.md rule R579). -/
def execCrc32 (o : CrcOps) (s : State) : Host.Outcome State Fault Refusal := run (do
  needFeature .sse42
  let v ← readRm o.sw o.src
  let a ← readReg .w32 o.dst
  writeReg o.w o.dst ((crcStep a v).setWidth o.w.bits)) s

end Sys2Proof.Machine
end

