-- ==== Sys2Proof/Machine/Move.lean ====
section
/-! DEFINITION. Data movement: MOV and its kin, the loads of far pointers, the stack instructions, the flag instructions, the
hints and fences, CMOVcc and SETcc. -/

namespace Sys2Proof.Machine

/-! MOV. -/

/-- The addresses of a moffs operand. -/
def resolveMoffs (k : Kind) (w : Width) (m : Moffs) : M (List Nat) := do
  resolve (segFor m.ovr none) k (naturalAlign w.bytes) 1 (m.asz.trunc m.off) w.bytes

/-- DEST <- SRC (rule R779). -/
def movBody : MovOps → M Unit
  | .mr w dst src => do writeRm w dst (← readGp w src)
  | .rm w dst src => do writeGp w dst (← readRm w src)
  | .mi w dst imm => writeRm w dst (imm.setWidth w.bits)
  | .fromMoffs w src => do
    let v ← physRead (← resolveMoffs .read w src)
    writeReg w rAX (BitVec.ofNat w.bits v)
  | .toMoffs w dst => do
    let v ← readReg w rAX
    physWrite (← resolveMoffs .write w dst) v.toNat

/-- MOV (spec/50_m_maskmovdqu-movq2dq.md rule R779). -/
def execMov (o : MovOps) (s : State) : Host.Outcome State Fault Refusal := run (movBody o) s

/-- Interrupts are held back for the instruction after a load of SS by MOV or POP (spec/10_state.md rule R163). -/
def inhibitAfterSs (r : SReg) : M Unit :=
  modify fun s => if r = .ss then { s with act := { s.act with inhibit := .movSs } } else s

/-- MOV to and from a segment register (spec/50_m_maskmovdqu-movq2dq.md rule R780). -/
def execMovSeg (o : MovSegOps) (s : State) : Host.Outcome State Fault Refusal := run (
  match o with
  | .load r src => do
    ensure (decide (r ≠ .cs)) raiseUD
    let sel ← readRm .w16 src
    loadSeg r sel
    inhibitAfterSs r
  | .store w (.reg g) r => do writeGp w g (((← get).segOf r).sel.setWidth w.bits)
  | .store _ dst r => do writeRm .w16 dst (((← get).segOf r).sel)) s

/-- MOVSX (spec/51_m_movs-outs.md rule R812). -/
def execMovsx (o : ExtOps) (s : State) : Host.Outcome State Fault Refusal := run (do
  writeReg o.w o.dst ((← readRm o.sw o.src).signExtend o.w.bits)) s
/-- MOVSXD (spec/51_m_movs-outs.md rule R812). -/
def execMovsxd (o : ExtOps) (s : State) : Host.Outcome State Fault Refusal := run (do
  let v ← readRm o.sw o.src
  writeReg o.w o.dst (v.signExtend o.w.bits)) s
/-- MOVZX (spec/51_m_movs-outs.md rule R815). -/
def execMovzx (o : ExtOps) (s : State) : Host.Outcome State Fault Refusal := run (do
  writeReg o.w o.dst ((← readRm o.sw o.src).setWidth o.w.bits)) s

/-- MOVBE (spec/50_m_maskmovdqu-movq2dq.md rule R785). -/
def execMovbe (o : MovbeOps) (s : State) : Host.Outcome State Fault Refusal := run (do
  needFeature .movbe
  match o with
  | .load w r m => writeReg w r (byteSwap (← readRm w (.mem m)))
  | .store w m r => writeRm w (.mem m) (byteSwap (← readReg w r))) s

/-- MOVNTI (spec/50_m_maskmovdqu-movq2dq.md rule R801). -/
def execMovnti (o : RegMem) (s : State) : Host.Outcome State Fault Refusal := run (do
  needFeature .sse2
  writeRm o.w (.mem o.mem) (← readReg o.w o.reg)) s

/-- LEA (spec/49_j_jcc-lzcnt.md rule R752). -/
def execLea (o : RegMem) (s : State) : Host.Outcome State Fault Refusal := run (do
  writeReg o.w o.reg (((← get).ea o.mem).setWidth o.w.bits)) s

/-- XLAT (spec/59_w_wait-xtest.md rule R1200). -/
def xlatBody (a : ASize) (r : SReg) : M Unit := do
  let s ← get
  let al ← readAl
  writeAl (BitVec.ofNat 8 (← memRead r (a.trunc (s.gp rBX + al.setWidth 64)) 1 1))

/-- XLAT with a segment override (spec/59_w_wait-xtest.md rule R1200). -/
def execXlat (o : XlatOps) (s : State) : Host.Outcome State Fault Refusal := run (xlatBody o.a o.ovr) s
/-- XLATB (spec/59_w_wait-xtest.md rule R1200). -/
def execXlatb (a : ASize) (s : State) : Host.Outcome State Fault Refusal := run (xlatBody a .ds) s

/-! Far pointers. -/

/-- A far pointer in memory: the offset, then the selector, one operand that does not wrap (spec/49_j_jcc-lzcnt.md rule R746,
spec/20_memory.md rule R211). -/
def readFarPtr (w : Width) (m : MemRef) : M (Word × BitVec 16) := do
  let s ← get
  let off ← memRead m.seg (s.ea m) w.bytes w.bytes
  let sel ← memRead m.seg (s.ea m + BitVec.ofNat 64 w.bytes) 2 2
  return (BitVec.ofNat 64 off, BitVec.ofNat 16 sel)

/-- The check of LSS alone: in 64-bit mode a descriptor in non-canonical space is #GP(0), where every other load of a segment
register raises #GP(selector) (rule R746). -/
def checkLss (r : SReg) (sel : BitVec 16) : M Unit := do
  let s ← get
  ensure (!(decide (r = .ss) && s.isLong && !isNull sel && s.descStray sel 8)) raiseGP

/-- Load a segment register and a general register (rule R746). -/
def loadFarPtr (r : SReg) (o : RegMem) : M Unit := do
  let (off, sel) ← readFarPtr o.w o.mem
  checkLss r sel
  loadSeg r sel
  writeReg o.w o.reg (off.setWidth o.w.bits)

/-- LDS, invalid in 64-bit mode (spec/49_j_jcc-lzcnt.md rule R747). -/
def execLds (o : RegMem) (s : State) : Host.Outcome State Fault Refusal := run (do notInLong; loadFarPtr .ds o) s
/-- LES, invalid in 64-bit mode (spec/49_j_jcc-lzcnt.md rule R748). -/
def execLes (o : RegMem) (s : State) : Host.Outcome State Fault Refusal := run (do notInLong; loadFarPtr .es o) s
/-- LFS (spec/49_j_jcc-lzcnt.md rule R749). -/
def execLfs (o : RegMem) (s : State) : Host.Outcome State Fault Refusal := run (loadFarPtr .fs o) s
/-- LGS (spec/49_j_jcc-lzcnt.md rule R750). -/
def execLgs (o : RegMem) (s : State) : Host.Outcome State Fault Refusal := run (loadFarPtr .gs o) s
/-- LSS (spec/49_j_jcc-lzcnt.md rule R751). -/
def execLss (o : RegMem) (s : State) : Host.Outcome State Fault Refusal := run (loadFarPtr .ss o) s

/-! The stack. -/

/-- PUSH of a selector with a 32-bit operand size: only two bytes of the slot are written, unless the processor zero-extends
(rule R975, decision D45). -/
def pushSel32 (sel : BitVec 16) : M Unit := do
  let s ← get
  if s.cfg.pushSreg32Zext then push 4 sel.toNat
  else
    let t := s.stackSize.trunc (s.sp - 4)
    memWrite .ss t 2 2 sel.toNat
    writeSp t

/-- PUSH (spec/54_p_pop-pxor.md rule R975). -/
def execPush (o : PushOps) (s : State) : Host.Outcome State Fault Refusal := run (
  match o with
  | .rm w src => do push w.bytes (← readRm w src).toNat
  | .imm w v => push w.bytes (immOf w v).toNat
  | .seg w r => do
    let s ← get
    ensure (!s.isLong || decide (r = .fs ∨ r = .gs)) raiseUD
    let sel := (s.segOf r).sel
    if w = .w32 then pushSel32 sel else push w.bytes sel.toNat) s

/-- POP to memory addressed through ESP when a 16-bit stack pointer wraps to 0 (U17). -/
def State.popWraps (s : State) (m : MemRef) (n : Nat) : Bool :=
  decide (s.stackSize = .a16) && decide (m.base = some rSP) && decide (s.stackSize.trunc (s.sp + BitVec.ofNat 64 n) = 0)

/-- POP (spec/54_p_pop-pxor.md rule R921): a destination in memory is addressed with the incremented stack pointer. -/
def execPop (o : RmOp) (s : State) : Host.Outcome State Fault Refusal := run (
  match o.rm with
  | .reg g => do
    let v ← pop o.w.bytes
    writeGp o.w g (BitVec.ofNat o.w.bits v)
  | .mem m => do
    let wraps := (← get).popWraps m o.w.bytes
    let v ← pop o.w.bytes
    if wraps then throw (.refuse .popEspWrap)
    writeRm o.w (.mem m) (BitVec.ofNat o.w.bits v)) s

/-- POP Sreg (spec/54_p_pop-pxor.md rule R922). -/
def execPopSeg (o : SegOp) (s : State) : Host.Outcome State Fault Refusal := run (do
  let s ← get
  ensure (decide (o.seg ≠ .cs) && (!s.isLong || decide (o.seg = .fs ∨ o.seg = .gs))) raiseUD
  let v ← stackPeek s.sp o.w.bytes
  loadSeg o.seg (BitVec.ofNat 16 v)
  modify fun t => t.setSp s.stackSize (s.sp + BitVec.ofNat 64 o.w.bytes)
  inhibitAfterSs o.seg) s

/-- PUSHA and PUSHAD (spec/54_p_pop-pxor.md rules R976, R977). -/
def pushAll (w : Width) : M Unit := do
  notInLong
  let s ← get
  let odd := decide (s.sp = 7 ∨ s.sp = 9 ∨ s.sp = 11 ∨ s.sp = 13 ∨ s.sp = 15)
  ensure (!(s.isLegacySeg && odd)) raiseGP
  pushList ([rAX, rCX, rDX, rBX, rSP, rBP, rSI, rDI].map fun r => (w.bytes, (s.gpVal w (.lo r)).toNat))

/-- PUSHA (spec/54_p_pop-pxor.md rule R976). -/
def execPusha (s : State) : Host.Outcome State Fault Refusal := run (pushAll .w16) s
/-- PUSHAD (spec/54_p_pop-pxor.md rule R977). -/
def execPushad (s : State) : Host.Outcome State Fault Refusal := run (pushAll .w32) s

/-- Pop registers in order; the slot of the stack pointer is skipped. -/
def popRegs (w : Width) : List Reg → M Unit
  | [] => return ()
  | r :: rs => do
    let v ← pop w.bytes
    if r ≠ rSP then writeReg w r (BitVec.ofNat w.bits v)
    popRegs w rs

/-- POPA and POPAD (spec/54_p_pop-pxor.md rules R923, R924). -/
def popAll (w : Width) : M Unit := do
  notInLong
  popRegs w [rDI, rSI, rBP, rSP, rBX, rDX, rCX, rAX]

/-- POPA (spec/54_p_pop-pxor.md rule R923). -/
def execPopa (s : State) : Host.Outcome State Fault Refusal := run (popAll .w16) s
/-- POPAD (spec/54_p_pop-pxor.md rule R924). -/
def execPopad (s : State) : Host.Outcome State Fault Refusal := run (popAll .w32) s

/-- PushFlags (spec/54_p_pop-pxor.md rule R978): VM and RF are clear in the image. -/
def pushFlags (n : Nat) : M Unit := do
  let s ← get
  ensure (!(s.pe && s.flags.vm && decide (s.flags.iopl ≠ 3))) raiseGP
  push n ((s.flags.image &&& 0xFCFFFF).toNat % 2 ^ (8 * n))

/-- PUSHF (spec/54_p_pop-pxor.md rule R979). -/
def execPushf (s : State) : Host.Outcome State Fault Refusal := run (pushFlags 2) s
/-- PUSHFD (spec/54_p_pop-pxor.md rule R980). -/
def execPushfd (s : State) : Host.Outcome State Fault Refusal := run (pushFlags 4) s
/-- PUSHFQ (spec/54_p_pop-pxor.md rule R981). -/
def execPushfq (s : State) : Host.Outcome State Fault Refusal := run (pushFlags 8) s

/-- The flags POPF may write with a 16-bit operand: W16 of rule R926. -/
def flagsW16 : Word := 0x7FD5
/-- The flags POPF may write with a wider operand: W32 of rule R926. -/
def flagsW32 : Word := 0x247FD5
/-- IOPL in the image. -/
def flagsIopl : Word := 0x3000
/-- IF in the image. -/
def flagsIf : Word := 0x200

/-- PopFlags (spec/54_p_pop-pxor.md rule R926). -/
def popFlags (n : Nat) : M Unit := do
  let s ← get
  let f := s.flags
  if s.pe && f.vm && decide (f.iopl ≠ 3) then
    ensure (s.cr4Bit 0 && decide (n = 2)) raiseGP
    let t : Word := BitVec.ofNat 64 (← pop 2)
    ensure (!(f.vip && t.getLsbD 9)) raiseGP
    modifyFlags fun f => { f.load (flagsW16 &&& ~~~(flagsIopl ||| flagsIf)) t with vif := t.getLsbD 9 }
  else
    let t : Word := BitVec.ofNat 64 (← pop n)
    let mask := if n = 2 then flagsW16 else flagsW32
    let mask := if s.pe && decide (s.cpl ≠ 0) then mask &&& ~~~flagsIopl else mask
    let mask := if s.pe && decide (f.iopl < s.cpl) then mask &&& ~~~flagsIf else mask
    modifyFlags fun f => f.load mask t

/-- POPF (spec/54_p_pop-pxor.md rule R927). -/
def execPopf (s : State) : Host.Outcome State Fault Refusal := run (popFlags 2) s
/-- POPFD (spec/54_p_pop-pxor.md rule R928). -/
def execPopfd (s : State) : Host.Outcome State Fault Refusal := run (popFlags 4) s
/-- POPFQ (spec/54_p_pop-pxor.md rule R929). -/
def execPopfq (s : State) : Host.Outcome State Fault Refusal := run (popFlags 8) s

/-- The frame pointers an inner ENTER copies (rule R615): k of them, each n bytes below the last from `bp` down, pushed one after
another from `sp`. For each the checked addresses it is read from and stored to, and the final stack pointer. -/
def enterCopies (a : ASize) (n : Nat) : Nat → Word → Word → M (List (List Nat × List Nat) × Word)
  | 0, _, sp => return ([], sp)
  | k + 1, bp, sp => do
    let bp := a.trunc (bp - BitVec.ofNat 64 n)
    let src ← resolve .ss .read n 1 bp n
    let (dst, sp) ← pushFrom sp [n]
    let (rest, fin) ← enterCopies a n k bp sp
    return ((src, dst.headD []) :: rest, fin)

/-- The state with values copied between resolved addresses, one after the other. -/
def State.copied (s : State) (l : List (List Nat × List Nat)) : State :=
  l.foldl (fun t p => t.physWrite p.2 (t.mem.readList p.1)) s

/-- Look for the faults a write of one byte at a stack address would raise; nothing is stored and no data breakpoint is met
(rule R615). -/
def probeStack (sp : Word) : M Unit := do
  let s ← get
  let _ ← resolve .ss .write 1 1 sp 1
  modify fun t => { t with act := { t.act with pendingDb := s.act.pendingDb } }

/-- The state with rBP at a frame and a new stack pointer (rule R615). -/
def State.framed (s : State) (a : ASize) (frame sp : Word) : State :=
  (s.setGp rBP (regWrite s.isLong a.width (s.gp rBP) (frame.setWidth a.width.bits))).setSp a sp

/-- ENTER (spec/45_d_daa-extractps.md rule R615): every check of the frame, and the probe at the final stack pointer, come before
the first store (spec/60_exceptions.md rule R2003). In 64-bit mode every push is a quadword. The first push stores rBP at the
operand size: with a 32-bit operand size on a 16-bit stack EBP[31:0], where the listing prints Push(BP) (DESIGN CHOICE, log
entry 60). -/
def execEnter (o : EnterOps) (s : State) : Host.Outcome State Fault Refusal := run (do
  let s ← get
  let a := s.stackSize
  let n := if s.isLong then 8 else o.w.bytes
  let level := o.level.toNat % 32
  let (first, frame) ← pushFrom s.sp [n]
  let (copies, sp) ← enterCopies a n (level - 1) (a.trunc (s.gp rBP)) frame
  let (last, sp) ← pushFrom sp (if level = 0 then [] else [n])
  let fin := a.trunc (sp - o.size.setWidth 64)
  probeStack fin
  pushStore first [(s.gp rBP).toNat % 2 ^ (8 * n)]
  modify fun t => t.copied copies
  pushStore last [frame.toNat % 2 ^ (8 * n)]
  modify fun t => t.framed a frame fin) s

/-- LEAVE (spec/49_j_jcc-lzcnt.md rule R753): in real-address and virtual-8086 mode a frame pointer outside the segment is
#GP. -/
def execLeave (w : Width) (s : State) : Host.Outcome State Fault Refusal := run (do
  let s ← get
  let bp := s.stackSize.trunc (s.gp rBP)
  ensure (!s.isLegacySeg || decide (s.segVerdict .ss (s.segOf .ss) .read bp w.bytes = .ok)) raiseGP
  writeSp bp
  let v ← pop w.bytes
  writeReg w rBP (BitVec.ofNat w.bits v)) s

/-! Flags. -/

/-- LAHF and SAHF are invalid in 64-bit mode without their feature (rules R742, R1012). -/
def needLahf : M Unit := do
  let s ← get
  ensure (!s.isLong || s.has .lahf64) raiseUD

/-- LAHF (spec/49_j_jcc-lzcnt.md rule R742). -/
def execLahf (s : State) : Host.Outcome State Fault Refusal := run (do
  needLahf
  writeGp .w8 (.hi 0) (((← get).flags.image &&& 0xD7).setWidth 8)) s
/-- SAHF (spec/56_s_sahf-sysret.md rule R1012). -/
def execSahf (s : State) : Host.Outcome State Fault Refusal := run (do
  needLahf
  let ah : BitVec 8 ← readGp .w8 (.hi 0)
  modifyFlags fun f => f.load 0xD5 (ah.setWidth 64)) s
/-- CLC (spec/42_c_call-cmpps.md rule R556). -/
def execClc (s : State) : Host.Outcome State Fault Refusal := run (modifyFlags fun f => { f with cf := false }) s
/-- CLD (spec/42_c_call-cmpps.md rule R557). -/
def execCld (s : State) : Host.Outcome State Fault Refusal := run (modifyFlags fun f => { f with df := false }) s
/-- CMC (spec/42_c_call-cmpps.md rule R561). -/
def execCmc (s : State) : Host.Outcome State Fault Refusal := run (modifyFlags fun f => { f with cf := !f.cf }) s
/-- STC (spec/56_s_sahf-sysret.md rule R1054). -/
def execStc (s : State) : Host.Outcome State Fault Refusal := run (modifyFlags fun f => { f with cf := true }) s
/-- STD (spec/56_s_sahf-sysret.md rule R1055). -/
def execStd (s : State) : Host.Outcome State Fault Refusal := run (modifyFlags fun f => { f with df := true }) s

/-- What CLI and STI may write: IF, VIF, or nothing (#GP). -/
inductive IfTarget where
  | real | virtual | none
deriving DecidableEq, Repr

/-- Which flag CLI and STI write (spec/42_c_call-cmpps.md rule R559, spec/56_s_sahf-sysret.md rule R1056). -/
def State.ifTarget (s : State) : IfTarget :=
  if !s.pe then .real
  else if s.flags.vm then
    (if s.flags.iopl = 3 then .real else if s.cr4Bit 0 then .virtual else .none)
  else if s.cpl ≤ s.flags.iopl then .real
  else if decide (s.cpl = 3) && s.cr4Bit 1 then .virtual
  else .none

/-- CLI (spec/42_c_call-cmpps.md rule R559). -/
def execCli (s : State) : Host.Outcome State Fault Refusal := run (do
  match (← get).ifTarget with
  | .real => modifyFlags fun f => { f with ifl := false }
  | .virtual => modifyFlags fun f => { f with vif := false }
  | .none => raiseGP) s

/-- STI (spec/56_s_sahf-sysret.md rule R1056). -/
def execSti (s : State) : Host.Outcome State Fault Refusal := run (do
  let s ← get
  match s.ifTarget with
  | .real =>
    set { s with
      flags := { s.flags with ifl := true }
      act := if s.flags.ifl then s.act else { s.act with inhibit := .sti } }
  | .virtual => do
    ensure (!s.flags.vip) raiseGP
    modifyFlags fun f => { f with vif := true }
  | .none => raiseGP) s

/-- CLAC and STAC are #UD above CPL 0 and in virtual-8086 mode (rules R555, R1053). -/
def needSmapRing0 : M Unit := do
  let s ← get
  ensure (!(s.pe && (s.flags.vm || decide (s.cpl ≠ 0)))) raiseUD
  needFeature .smap

/-- CLAC (spec/42_c_call-cmpps.md rule R555). -/
def execClac (s : State) : Host.Outcome State Fault Refusal := run (do
  needSmapRing0
  modifyFlags fun f => { f with ac := false }) s
/-- STAC (spec/56_s_sahf-sysret.md rule R1053). -/
def execStac (s : State) : Host.Outcome State Fault Refusal := run (do
  needSmapRing0
  modifyFlags fun f => { f with ac := true }) s

/-! Hints and fences: no state changes but rIP. -/

/-- NOP; the multi-byte form needs a processor of family 6 or 15 (spec/51_m_movs-outs.md rule R825). -/
def execNop (o : Option RmOp) (s : State) : Host.Outcome State Fault Refusal := run (do
  let family := (← get).cfg.signature.extractLsb' 8 4
  ensure (o.isNone || decide (family = 6 ∨ family = 15)) raiseUD) s
/-- PAUSE (spec/52_p_pabsb-pextrw.md rule R851). -/
def execPause (s : State) : Host.Outcome State Fault Refusal := run (return ()) s
/-- PREFETCHT0: a hint that makes no access (spec/54_p_pop-pxor.md rule R932, decision D44). -/
def execPrefetcht0 (_m : MemRef) (s : State) : Host.Outcome State Fault Refusal := run (return ()) s
/-- PREFETCHT1 (spec/54_p_pop-pxor.md rule R933). -/
def execPrefetcht1 (_m : MemRef) (s : State) : Host.Outcome State Fault Refusal := run (return ()) s
/-- PREFETCHT2 (spec/54_p_pop-pxor.md rule R934). -/
def execPrefetcht2 (_m : MemRef) (s : State) : Host.Outcome State Fault Refusal := run (return ()) s
/-- PREFETCHNTA (spec/54_p_pop-pxor.md rule R935). -/
def execPrefetchnta (_m : MemRef) (s : State) : Host.Outcome State Fault Refusal := run (return ()) s
/-- PREFETCHW (spec/54_p_pop-pxor.md rule R936). -/
def execPrefetchw (_m : MemRef) (s : State) : Host.Outcome State Fault Refusal := run (return ()) s
/-- PREFETCHWT1 (spec/54_p_pop-pxor.md rule R937). -/
def execPrefetchwt1 (_m : MemRef) (s : State) : Host.Outcome State Fault Refusal := run (return ()) s
/-- LFENCE (spec/49_j_jcc-lzcnt.md rule R754). -/
def execLfence (s : State) : Host.Outcome State Fault Refusal := run (needFeature .sse2) s
/-- MFENCE (spec/50_m_maskmovdqu-movq2dq.md rule R777). -/
def execMfence (s : State) : Host.Outcome State Fault Refusal := run (needFeature .sse2) s
/-- SFENCE (spec/56_s_sahf-sysret.md rule R1040). -/
def execSfence (s : State) : Host.Outcome State Fault Refusal := run (needFeature .sse) s

/-! Conditions. -/

/-- CMOVcc: the source is read whether or not the condition holds; a 32-bit destination loses its upper half in IA-32e mode
(spec/42_c_call-cmpps.md rule R562). -/
def cmovBody (c : Cond) (o : RegRm) : M Unit := do
  needFeature .cmov
  let v ← readRm o.w o.src
  let s ← get
  if s.flags.holds c then writeReg o.w o.dst v
  else if o.w = .w32 ∧ s.lma then set (s.setGp o.dst ((s.gp o.dst).setWidth 32 |>.setWidth 64))

/-- SETcc (spec/56_s_sahf-sysret.md rule R1023). -/
def setBody (c : Cond) (dst : Rm) : M Unit := do
  writeRm .w8 dst (if (← get).flags.holds c then 1 else 0)


/-! CMOVcc and SETcc, by condition. -/

/-- CMOVO (spec/42_c_call-cmpps.md rule R562). -/
def execCmovo (o : RegRm) (s : State) : Host.Outcome State Fault Refusal := run (cmovBody .o o) s
/-- CMOVNO (spec/42_c_call-cmpps.md rule R562). -/
def execCmovno (o : RegRm) (s : State) : Host.Outcome State Fault Refusal := run (cmovBody .no o) s
/-- CMOVB (spec/42_c_call-cmpps.md rule R562). -/
def execCmovb (o : RegRm) (s : State) : Host.Outcome State Fault Refusal := run (cmovBody .b o) s
/-- CMOVAE (spec/42_c_call-cmpps.md rule R562). -/
def execCmovae (o : RegRm) (s : State) : Host.Outcome State Fault Refusal := run (cmovBody .ae o) s
/-- CMOVE (spec/42_c_call-cmpps.md rule R562). -/
def execCmove (o : RegRm) (s : State) : Host.Outcome State Fault Refusal := run (cmovBody .e o) s
/-- CMOVNE (spec/42_c_call-cmpps.md rule R562). -/
def execCmovne (o : RegRm) (s : State) : Host.Outcome State Fault Refusal := run (cmovBody .ne o) s
/-- CMOVBE (spec/42_c_call-cmpps.md rule R562). -/
def execCmovbe (o : RegRm) (s : State) : Host.Outcome State Fault Refusal := run (cmovBody .be o) s
/-- CMOVA (spec/42_c_call-cmpps.md rule R562). -/
def execCmova (o : RegRm) (s : State) : Host.Outcome State Fault Refusal := run (cmovBody .a o) s
/-- CMOVS (spec/42_c_call-cmpps.md rule R562). -/
def execCmovs (o : RegRm) (s : State) : Host.Outcome State Fault Refusal := run (cmovBody .s o) s
/-- CMOVNS (spec/42_c_call-cmpps.md rule R562). -/
def execCmovns (o : RegRm) (s : State) : Host.Outcome State Fault Refusal := run (cmovBody .ns o) s
/-- CMOVP (spec/42_c_call-cmpps.md rule R562). -/
def execCmovp (o : RegRm) (s : State) : Host.Outcome State Fault Refusal := run (cmovBody .p o) s
/-- CMOVNP (spec/42_c_call-cmpps.md rule R562). -/
def execCmovnp (o : RegRm) (s : State) : Host.Outcome State Fault Refusal := run (cmovBody .np o) s
/-- CMOVL (spec/42_c_call-cmpps.md rule R562). -/
def execCmovl (o : RegRm) (s : State) : Host.Outcome State Fault Refusal := run (cmovBody .l o) s
/-- CMOVGE (spec/42_c_call-cmpps.md rule R562). -/
def execCmovge (o : RegRm) (s : State) : Host.Outcome State Fault Refusal := run (cmovBody .ge o) s
/-- CMOVLE (spec/42_c_call-cmpps.md rule R562). -/
def execCmovle (o : RegRm) (s : State) : Host.Outcome State Fault Refusal := run (cmovBody .le o) s
/-- CMOVG (spec/42_c_call-cmpps.md rule R562). -/
def execCmovg (o : RegRm) (s : State) : Host.Outcome State Fault Refusal := run (cmovBody .g o) s
/-- SETO (spec/56_s_sahf-sysret.md rule R1024). -/
def execSeto (o : Rm) (s : State) : Host.Outcome State Fault Refusal := run (setBody .o o) s
/-- SETNO (spec/56_s_sahf-sysret.md rule R1025). -/
def execSetno (o : Rm) (s : State) : Host.Outcome State Fault Refusal := run (setBody .no o) s
/-- SETB (spec/56_s_sahf-sysret.md rule R1026). -/
def execSetb (o : Rm) (s : State) : Host.Outcome State Fault Refusal := run (setBody .b o) s
/-- SETAE (spec/56_s_sahf-sysret.md rule R1027). -/
def execSetae (o : Rm) (s : State) : Host.Outcome State Fault Refusal := run (setBody .ae o) s
/-- SETE (spec/56_s_sahf-sysret.md rule R1028). -/
def execSete (o : Rm) (s : State) : Host.Outcome State Fault Refusal := run (setBody .e o) s
/-- SETNE (spec/56_s_sahf-sysret.md rule R1029). -/
def execSetne (o : Rm) (s : State) : Host.Outcome State Fault Refusal := run (setBody .ne o) s
/-- SETBE (spec/56_s_sahf-sysret.md rule R1030). -/
def execSetbe (o : Rm) (s : State) : Host.Outcome State Fault Refusal := run (setBody .be o) s
/-- SETA (spec/56_s_sahf-sysret.md rule R1031). -/
def execSeta (o : Rm) (s : State) : Host.Outcome State Fault Refusal := run (setBody .a o) s
/-- SETS (spec/56_s_sahf-sysret.md rule R1032). -/
def execSets (o : Rm) (s : State) : Host.Outcome State Fault Refusal := run (setBody .s o) s
/-- SETNS (spec/56_s_sahf-sysret.md rule R1033). -/
def execSetns (o : Rm) (s : State) : Host.Outcome State Fault Refusal := run (setBody .ns o) s
/-- SETP (spec/56_s_sahf-sysret.md rule R1034). -/
def execSetp (o : Rm) (s : State) : Host.Outcome State Fault Refusal := run (setBody .p o) s
/-- SETNP (spec/56_s_sahf-sysret.md rule R1035). -/
def execSetnp (o : Rm) (s : State) : Host.Outcome State Fault Refusal := run (setBody .np o) s
/-- SETL (spec/56_s_sahf-sysret.md rule R1036). -/
def execSetl (o : Rm) (s : State) : Host.Outcome State Fault Refusal := run (setBody .l o) s
/-- SETGE (spec/56_s_sahf-sysret.md rule R1037). -/
def execSetge (o : Rm) (s : State) : Host.Outcome State Fault Refusal := run (setBody .ge o) s
/-- SETLE (spec/56_s_sahf-sysret.md rule R1038). -/
def execSetle (o : Rm) (s : State) : Host.Outcome State Fault Refusal := run (setBody .le o) s
/-- SETG (spec/56_s_sahf-sysret.md rule R1039). -/
def execSetg (o : Rm) (s : State) : Host.Outcome State Fault Refusal := run (setBody .g o) s

end Sys2Proof.Machine
end

