-- ==== Sys2Proof/Machine/Control.lean ====
section
/-! DEFINITION. Control transfer: jumps, loops, near and far CALL, JMP and RET, call gates, software interrupts, IRET, BOUND
and UD2 (specification files 42, 48, 49 and 55; spec/60_exceptions.md rules R2035 to R2048). -/

namespace Sys2Proof.Machine

/-! Near transfers. -/

/-- A branch target cut to the operand size (rules R546, R722). -/
def cutTarget (w : Width) (t : Word) : Word :=
  match w with
  | .w64 => t
  | .w32 => (t.setWidth 32).setWidth 64
  | _ => (t.setWidth 16).setWidth 64

/-- #GP(0) unless the offset lies in the code segment, or is canonical in 64-bit mode (rules R546, R722, R740). -/
def checkTarget (t : Word) : M Unit := do
  let s ← get
  ensure (decide (s.segVerdict .cs (s.segOf .cs) .exec t 1 = .ok)) raiseGP

/-- Continue at an offset of the code segment. -/
def setRip (t : Word) : M Unit := modify fun s => { s with rip := t }

/-- Check a near target and go there. -/
def jumpNear (w : Width) (t : Word) : M Unit := do
  checkTarget (cutTarget w t)
  setRip (cutTarget w t)

/-- The address of the instruction after this one, plus a displacement. -/
def relTarget {n : Nat} (d : BitVec n) : M Word := do return (← get).ripNext + d.signExtend 64

/-- Jcc (spec/49_j_jcc-lzcnt.md rule R722). -/
def jccBody (c : Cond) (o : JccOps) : M Unit := do
  if (← get).flags.holds c then jumpNear o.w (← relTarget o.rel)

/-- JCXZ, JECXZ and JRCXZ: jump if the count register is 0 (spec/49_j_jcc-lzcnt.md rule R739). -/
def jcxzBody (a : ASize) (o : JcxzOps) : M Unit := do
  if (← readAddr a rCX) = 0 then jumpNear o.w (← relTarget o.rel)

/-- JCXZ (spec/49_j_jcc-lzcnt.md rule R739). -/
def execJcxz (o : JcxzOps) (s : State) : Host.Outcome State Fault Refusal := run (jcxzBody .a16 o) s
/-- JECXZ (spec/49_j_jcc-lzcnt.md rule R739). -/
def execJecxz (o : JcxzOps) (s : State) : Host.Outcome State Fault Refusal := run (jcxzBody .a32 o) s
/-- JRCXZ (spec/49_j_jcc-lzcnt.md rule R739). -/
def execJrcxz (o : JcxzOps) (s : State) : Host.Outcome State Fault Refusal := run (jcxzBody .a64 o) s

/-- LOOP and its kin: the count goes down, and the branch is taken if it is not 0 and the flags allow it
(spec/49_j_jcc-lzcnt.md rule R762). -/
def loopBody (cond : Flags → Bool) (o : LoopOps) : M Unit := do
  let n := o.a.trunc ((← readAddr o.a rCX) - 1)
  writeAddr o.a rCX n
  if decide (n ≠ 0) && cond (← get).flags then jumpNear o.w (← relTarget o.rel)

/-- LOOP (spec/49_j_jcc-lzcnt.md rule R762). -/
def execLoop (o : LoopOps) (s : State) : Host.Outcome State Fault Refusal := run (loopBody (fun _ => true) o) s
/-- LOOPE (spec/49_j_jcc-lzcnt.md rule R763). -/
def execLoope (o : LoopOps) (s : State) : Host.Outcome State Fault Refusal := run (loopBody (fun f => f.zf) o) s
/-- LOOPNE (spec/49_j_jcc-lzcnt.md rule R764). -/
def execLoopne (o : LoopOps) (s : State) : Host.Outcome State Fault Refusal := run (loopBody (fun f => !f.zf) o) s

/-- JMP (near) (spec/49_j_jcc-lzcnt.md rule R740). -/
def execJmpNear (o : JmpOps) (s : State) : Host.Outcome State Fault Refusal := run (
  match o with
  | .rel w d => do jumpNear w (← relTarget d)
  | .ind w target => do jumpNear w ((← readRm w target).setWidth 64)) s

/-- Near CALL: the target is checked, then the return address pushed (spec/42_c_call-cmpps.md rule R546). -/
def callNear (w : Width) (t : Word) : M Unit := do
  checkTarget (cutTarget w t)
  push w.bytes ((← get).ripNext.toNat % 2 ^ w.bits)
  setRip (cutTarget w t)

/-- RET (near) (spec/55_r_rcl-rsqrtss.md rule R1001). -/
def execRetNear (o : RetOps) (s : State) : Host.Outcome State Fault Refusal := run (do
  let t : Word := BitVec.ofNat 64 (← pop o.w.bytes)
  checkTarget t
  writeSp ((← get).sp + (o.imm.getD 0).setWidth 64)
  setRip t) s

/-! Far transfers: descriptors. -/

/-- C of a code segment. -/
def SegCache.conforming (c : SegCache) : Bool := c.typ.getLsbD 2

/-- The 8-byte descriptor a far transfer names: #GP(0) for a NULL selector, #GP(selector) outside the table (rule R2046). -/
def farDesc (sel : BitVec 16) : M (Word × BitVec 128) := do
  ensure (!isNull sel) raiseGP
  match ← fetchDesc sel 8 with
  | none => raiseGP (selCode sel)
  | some r => return r

/-- Is the offset inside the new code segment: canonical for a 64-bit one, within the limit for any other (rules R549, R741,
R1002)? -/
def State.targetOk (s : State) (c : SegCache) (off : Word) : Bool :=
  if s.lma && c.l then canonical off else decide (off.toNat ≤ c.limit.toNat)

/-- A code segment that a far CALL or JMP names directly (rules R549, R741). -/
def directCode (d : SegLoad) : M SegLoad := do
  let s ← get
  let c := d.cache
  let bad : M Unit := raiseGP (selCode c.sel)
  ensure (!(s.lma && c.l && c.db)) bad
  if c.conforming then ensure (decide (c.dpl ≤ s.cpl)) bad
  else ensure (decide (rpl c.sel ≤ s.cpl) && decide (c.dpl = s.cpl)) bad
  ensure c.p (raiseNP (selCode c.sel))
  return d

/-- A call gate (rule R2042). -/
structure CallGate where
  is32 : Bool
  sel : BitVec 16
  off : Word
  count : Nat
deriving DecidableEq, Repr

/-- What the selector of a far transfer leads to (rule R548). -/
inductive FarTarget where
  | code (d : SegLoad)
  | gate (g : CallGate)
deriving DecidableEq, Repr

/-- The checks of a call gate itself (rules R550, R741). -/
def openGate (sel : BitVec 16) : M CallGate := do
  let s ← get
  match ← fetchDesc sel (if s.lma then 16 else 8) with
  | none => raiseGP (selCode sel)
  | some (_, d) =>
    let g := gateOf s.lma d
    ensure (!(s.lma && decide (d.extractLsb' 104 5 ≠ 0))) (raiseGP (selCode sel))
    ensure (decide (s.cpl ≤ g.dpl) && decide (rpl sel ≤ g.dpl)) (raiseGP (selCode sel))
    ensure g.p (raiseNP (selCode sel))
    return { is32 := g.is32, sel := g.sel, off := g.off, count := (d.extractLsb' 32 5).toNat }

/-- A task gate or a TSS, which must be in the GDT: its checks, and then a task switch, which the model refuses (rules R552, R553,
R741; decision D20). -/
def farTask (sel : BitVec 16) (d : BitVec 128) : M Unit := do
  let s ← get
  let c := descCache sel d
  ensure (decide (s.cpl ≤ c.dpl) && decide (rpl sel ≤ c.dpl)) (raiseGP (selCode sel))
  if c.typ = 5 then
    ensure c.p (raiseNP (selCode sel))
    taskGate (d.extractLsb' 16 16) false
  else
    ensure (!inLdt sel && decide (c.typ = 1 ∨ c.typ = 9)) (raiseGP (selCode sel))
    ensure c.p (raiseNP (selCode sel))
    throw (.refuse .taskSwitchRequested)

/-- Selector dispatch of a far CALL or JMP in protected or IA-32e mode (rules R548, R741). -/
def farTarget (sel : BitVec 16) : M FarTarget := do
  let s ← get
  let (a, d) ← farDesc sel
  let c := descCache sel d
  if c.isCode then return .code (← directCode (.ofDesc sel a d))
  else
    ensure (!c.s) (raiseGP (selCode sel))
    if c.typ = 0xC ∨ (s.lma = false ∧ c.typ = 4) then return .gate (← openGate sel)
    else
      ensure (!s.lma && decide (c.typ = 5 ∨ c.typ = 1 ∨ c.typ = 3 ∨ c.typ = 9 ∨ c.typ = 0xB)) (raiseGP (selCode sel))
      farTask sel d
      raiseGP (selCode sel)

/-- The code segment behind a call gate: `fits` says whether its type and DPL serve (rules R550, R741). -/
def gateCode (g : CallGate) (fits : SegCache → Bool) : M SegLoad := do
  let s ← get
  let bad : M Unit := raiseGP (selCode g.sel)
  let (a, d) ← farDesc g.sel
  let c := descCache g.sel d
  ensure (c.isCode && fits c) bad
  ensure (!s.lma || (c.l && !c.db)) bad
  ensure c.p (raiseNP (selCode g.sel))
  return .ofDesc g.sel a d

/-! Far JMP. -/

/-- A far transfer in real-address or virtual-8086 mode: the new CS (spec/20_memory.md rule R212), whose offset must lie in
the segment (rules R547, R741). -/
def legacyCode (sel : BitVec 16) (off : Word) : M SegCache := do
  let s ← get
  let c := if s.pe then SegCache.v86Load sel else (s.segOf .cs).realLoad sel
  ensure (decide (s.segVerdict .cs c .exec off 1 = .ok)) raiseGP
  return c

/-- Mark a checked code segment accessed and continue in it (rules R2046, R2048). -/
def enterCode (d : SegLoad) (cpl : BitVec 2) (off : Word) : M Unit := do
  markAccessed (← d.resolve)
  loadCode d cpl off

/-- JMP (far) (spec/49_j_jcc-lzcnt.md rule R741). -/
def jmpFar (w : Width) (sel : BitVec 16) (off0 : Word) : M Unit := do
  let s ← get
  let off := cutTarget w off0
  if s.isLegacySeg then
    let c ← legacyCode sel off
    writeSeg .cs c
    setRip off
  else
    match ← farTarget sel with
    | .code d => do
      ensure (s.targetOk d.cache off) raiseGP
      enterCode d s.cpl off
    | .gate g => do
      let d ← gateCode g fun c => if c.conforming then decide (c.dpl ≤ s.cpl) else decide (c.dpl = s.cpl)
      ensure (s.targetOk d.cache g.off) raiseGP
      enterCode d s.cpl g.off

/-- The operand of a far transfer: a pointer in the instruction is invalid in 64-bit mode (rules R548, R741). -/
def farPtr (p : FarPtr) : M (Word × BitVec 16) := do
  notInLong
  return (p.off.setWidth 64, p.sel)

/-- JMP (far) (spec/49_j_jcc-lzcnt.md rule R741). -/
def execJmpFar (o : FarOps) (s : State) : Host.Outcome State Fault Refusal := run (
  match o with
  | .ptr p => do
    let (off, sel) ← farPtr p
    jmpFar p.w sel off
  | .far p => do
    let (off, sel) ← readFarPtr p.w p.mem
    jmpFar p.w sel off) s

/-! Far CALL. -/

/-- The return address as two items of n bytes: CS, then rIP. -/
def State.returnItems (s : State) (n : Nat) : List (Nat × Nat) :=
  [(n, (s.segOf .cs).sel.toNat), (n, s.ripNext.toNat % 2 ^ (8 * n))]

/-- #SS(0) unless the current stack has room for items of the given sizes (rules R547, R549, R550). -/
def needRoom (ns : List Nat) : M Unit := do
  let s ← get
  ensure (s.pushRoom (s.segOf .ss) s.stackSize s.sp ns) raiseSS

/-- The room a far CALL in real-address or virtual-8086 mode asks for: 4 bytes, or 6 bytes for the 32-bit form (rule R547,
conflict C6). -/
def legacyRoom (w : Width) : List Nat := if w = .w32 then [4, 2] else [w.bytes, w.bytes]

/-- The size in bytes of the slots a call through a gate pushes (rule R550). -/
def CallGate.slot (g : CallGate) (lma : Bool) : Nat := if lma then 8 else if g.is32 then 4 else 2

/-- SAME-PRIVILEGE call through a gate (rule R550): the checks on the new stack address size, then CS, then the pushes. Entering
64-bit mode from compatibility mode, RSP[63:32] are undefined (U37). -/
def callSame (g : CallGate) (d : SegLoad) : M Unit := do
  let s ← get
  let n := g.slot s.lma
  if s.lma && !s.isLong then
    let hi ← freeValue 32
    modify fun t => t.setGp rSP (hi ++ (t.gp rSP).setWidth 32)
  loadCode d s.cpl g.off
  needRoom [n, n]
  ensure (s.targetOk d.cache g.off) raiseGP
  let as ← d.resolve
  let p ← pushSlots [n, n]
  markAccessed as
  pushCommit p ((s.returnItems n).map (·.2))

/-- The parameters a call gate copies: k items of n bytes from the old stack upward (rule R551). -/
def gateParams (n : Nat) (sp : Word) : Nat → M (List (Nat × Nat))
  | 0 => return []
  | k + 1 => do
    let v ← stackPeek sp n
    return (n, v) :: (← gateParams n (sp + BitVec.ofNat 64 n) k)

/-- SS after a change to a privilege level in IA-32e mode: a NULL selector with that RPL (rules R551, R2026). -/
def State.nullStack (s : State) (cpl : BitVec 2) : SegCache := { (s.segOf .ss).nullLoad (cpl.setWidth 16) with dpl := cpl }

/-- MORE-PRIVILEGE call through a 64-bit gate (rule R551). -/
def callInnerLong (g : CallGate) (d : SegLoad) : M Unit := do
  let s ← get
  let cpl := d.cache.dpl
  let rsp ← tssWord (cpl.toNat * 8 + 4) false
  ensure (canonical (rsp - 32) && canonical (rsp - 1)) raiseSS
  ensure (canonical g.off) raiseGP
  loadCode d cpl g.off
  let as ← d.resolve
  let (ass, sp) ← pushPlan (s.nullStack cpl) .a64 false false rsp [8, 8, 8, 8]
  markAccessed as
  pushStore ass ((s.oldStack 8 ++ s.returnItems 8).map (·.2))
  modify fun t => (t.setSeg .ss (s.nullStack cpl)).setGp rSP sp

/-- MORE-PRIVILEGE call through a 16- or 32-bit gate (rule R551): every check in the order of the listing, then the writes. The
parameters are read before the new frame is stored. -/
def callInnerLegacy (g : CallGate) (d : SegLoad) : M Unit := do
  let s ← get
  let n := g.slot false
  let cpl := d.cache.dpl
  let (ss, esp) ← innerStack cpl false
  let size := s.stackSizeOf ss.cache
  ensure (s.pushRoom ss.cache size (size.trunc esp) (List.replicate (4 + g.count) n)) (raiseSS (selCode ss.cache.sel))
  ensure (s.targetOk d.cache g.off) raiseGP
  let sas ← ss.resolve
  let cas ← d.resolve
  let (as1, sp1) ← pushPlan ss.cache size false false (size.trunc esp) [n, n]
  let params ← gateParams n s.sp g.count
  let (as2, sp) ← pushPlan ss.cache size false false sp1 (List.replicate (g.count + 2) n)
  markAccessed sas
  markAccessed cas
  pushStore (as1 ++ as2) ((s.oldStack n ++ params.reverse ++ s.returnItems n).map (·.2))
  modify fun t =>
    (((t.withCode d cpl g.off).setSeg .ss ss.cache).setGp rSP (mergeLow (t.gp rSP) (esp.setWidth 32))).setSp size sp

/-- MORE-PRIVILEGE call through a gate (rule R551). -/
def callInner (g : CallGate) (d : SegLoad) : M Unit := do
  if (← get).lma then callInnerLong g d else callInnerLegacy g d

/-- Far CALL (spec/42_c_call-cmpps.md rules R547 to R552). -/
def callFar (w : Width) (sel : BitVec 16) (off0 : Word) : M Unit := do
  let s ← get
  let off := cutTarget w off0
  let n := w.bytes
  if s.isLegacySeg then
    needRoom (legacyRoom w)
    ensure (decide (off.toNat < 2 ^ 16)) raiseGP
    let c ← legacyCode sel off
    pushList (s.returnItems n)
    writeSeg .cs c
    setRip off
  else
    match ← farTarget sel with
    | .code d => do
      needRoom [n, n]
      ensure (s.targetOk d.cache off) raiseGP
      let p ← pushSlots [n, n]
      let as ← d.resolve
      pushCommit p ((s.returnItems n).map (·.2))
      markAccessed as
      loadCode d s.cpl off
    | .gate g => do
      let d ← gateCode g fun c => decide (c.dpl ≤ s.cpl)
      if !d.cache.conforming && decide (d.cache.dpl < s.cpl) then callInner g d else callSame g d

/-- CALL (spec/42_c_call-cmpps.md rules R545 to R553). -/
def execCall (o : CallOps) (s : State) : Host.Outcome State Fault Refusal := run (
  match o with
  | .rel w d => do callNear w (← relTarget d)
  | .ind w target => do callNear w ((← readRm w target).setWidth 64)
  | .ptr p => do
    let (off, sel) ← farPtr p
    callFar p.w sel off
  | .far p => do
    let (off, sel) ← readFarPtr p.w p.mem
    callFar p.w sel off) s

/-! Far returns. -/

/-- The code segment a far return names (rules R721, R1002). -/
def returnCode (sel : BitVec 16) : M SegLoad := do
  let s ← get
  let bad : M Unit := raiseGP (selCode sel)
  let (a, d) ← farDesc sel
  let c := descCache sel d
  ensure c.isCode bad
  ensure (!(s.lma && c.l && c.db)) bad
  ensure (decide (s.cpl ≤ rpl sel)) bad
  ensure (if c.conforming then decide (c.dpl ≤ rpl sel) else decide (c.dpl = rpl sel)) bad
  ensure c.p (raiseNP (selCode sel))
  return .ofDesc sel a d

/-- The stack segment a return names for the privilege level of its code segment: a NULL selector serves a 64-bit segment below
level 3. One that is not present raises `absent` (rules R721, R1002). -/
def returnStack (absent : BitVec 32 → M Unit) (code : SegLoad) (ssel : BitVec 16) : M SegLoad := do
  let s ← get
  let cpl := rpl code.cache.sel
  if isNull ssel then
    ensure (s.lma && code.cache.l && decide (cpl ≠ 3) && decide (rpl ssel = cpl)) raiseGP
    return .plain { (s.segOf .ss).nullLoad ssel with dpl := cpl }
  else
    match ← fetchDesc ssel 8 with
    | none => raiseGP (selCode ssel)
    | some (a, d) =>
      let c := descCache ssel d
      ensure (decide (rpl ssel = cpl) && c.writable && decide (c.dpl = cpl)) (raiseGP (selCode ssel))
      ensure c.p (absent (selCode ssel))
      return .ofDesc ssel a d

/-- #SS(0) unless the top n bytes of the stack lie within its limits, or are canonical in 64-bit mode (rules R721, R1002). -/
def needTop (n : Nat) : M Unit := do
  let s ← get
  ensure (decide (s.segVerdict .ss (s.segOf .ss) .read s.sp n ≠ .limit)) raiseSS

/-- A data segment register that the outer level may not use becomes NULL (rules R721, R1002). -/
def SegCache.hideFrom (c : SegCache) (cpl : BitVec 2) : SegCache :=
  if c.valid && c.s && !(c.isCode && c.conforming) && decide (c.dpl < cpl) then c.nullLoad 0 else c

/-- The four data segment registers after a return to an outer level. -/
def State.hideSegs (s : State) (cpl : BitVec 2) : State :=
  [SReg.es, .fs, .gs, .ds].foldl (fun t r => t.setSeg r ((t.segOf r).hideFrom cpl)) s

/-- A stack pointer popped at an operand size (rules R721, R1002): 16 and 32 bits write ESP. -/
def loadSpPopped (w : Width) (long : Bool) (v : Nat) : M Unit :=
  modify fun s =>
    s.setGp rSP (if w = .w64 then BitVec.ofNat 64 v else regWrite long .w32 (s.gp rSP) (BitVec.ofNat 32 v))

/-- RET (far) in protected and IA-32e mode (spec/55_r_rcl-rsqrtss.md rule R1002). -/
def retFarTable (w : Width) (imm : Word) : M Unit := do
  let s ← get
  let n := w.bytes
  let slot (k : Nat) : Word := s.sp + BitVec.ofNat 64 (k * n)
  needTop (2 * n)
  let sel : BitVec 16 := BitVec.ofNat 16 (← stackPeek (slot 1) n)
  let off : Word := BitVec.ofNat 64 (← stackPeek (slot 0) n)
  let d ← returnCode sel
  if rpl sel = s.cpl then
    ensure (s.targetOk d.cache off) raiseGP
    enterCode d s.cpl off
    modify fun t => t.setSp s.stackSize (slot 2 + imm)
  else
    needTop (4 * n + imm.toNat)
    let ssel : BitVec 16 := BitVec.ofNat 16 (← stackPeek (slot 3 + imm) n)
    let sp ← stackPeek (slot 2 + imm) n
    let ss ← returnStack (fun c => raiseSS c) d ssel
    ensure (s.targetOk d.cache off) raiseGP
    let cas ← d.resolve
    let sas ← ss.resolve
    markAccessed cas
    loadCode d (rpl sel) off
    loadSpPopped w s.isLong sp
    markAccessed sas
    writeSeg .ss ss.cache
    modify fun t => t.hideSegs (rpl sel)
    writeSp ((← get).sp + imm)

/-- RET (far) in real-address and virtual-8086 mode (rule R1002). -/
def retFarLegacy (w : Width) (imm : Word) : M Unit := do
  needTop (2 * w.bytes)
  let off : Word := BitVec.ofNat 64 (← pop w.bytes)
  let sel : BitVec 16 := BitVec.ofNat 16 (← pop w.bytes)
  ensure (decide ((← get).segVerdict .cs ((← get).segOf .cs) .exec off 1 = .ok)) raiseGP
  let c ← legacyCode sel off
  writeSeg .cs c
  setRip off
  writeSp ((← get).sp + imm)

/-- RET (far) (spec/55_r_rcl-rsqrtss.md rule R1002). -/
def execRetFar (o : RetOps) (s : State) : Host.Outcome State Fault Refusal := run (do
  let imm : Word := (o.imm.getD 0).setWidth 64
  if (← get).isLegacySeg then retFarLegacy o.w imm else retFarTable o.w imm) s

/-! IRET. -/

/-- The flags real-address IRET takes from a 32-bit image (rule R721). -/
def iretReal32 : Word := 0x257FD5

/-- The flags a return in protected or IA-32e mode takes from the image (rule R721). VM is never set here: an image with VM
leads to virtual-8086 mode, and IRET does not set VM in IA-32e mode (spec/10_state.md rule R90). -/
def iretMask (w : Width) (cpl iopl : BitVec 2) : Word :=
  let wide := decide (w ≠ .w16)
  (0x4DD5 : Word) ||| (if wide then 0x250000 else 0) ||| (if cpl ≤ iopl then 0x200 else 0) |||
    (if cpl = 0 then 0x3000 ||| (if wide then 0x180000 else 0) else 0)

/-- Load the flags of an image under a mask. -/
def loadFlags (mask image : Word) : M Unit := modifyFlags fun f => f.load mask image

/-- IRET in real-address mode (rule R721). -/
def iretRealMode (w : Width) : M Unit := do
  needTop (3 * w.bytes)
  let off : Word := BitVec.ofNat 64 (← pop w.bytes)
  let sel : BitVec 16 := BitVec.ofNat 16 (← pop w.bytes)
  let image : Word := BitVec.ofNat 64 (← pop w.bytes)
  let c ← legacyCode sel off
  writeSeg .cs c
  setRip off
  loadFlags (if w = .w16 then flagsW16 else iretReal32) image

/-- IRET in virtual-8086 mode (rule R721): IOPL, VM, VIP and VIF stay. -/
def iretV86 (w : Width) : M Unit := do
  ensure (decide ((← get).flags.iopl = 3)) raiseGP
  needTop (3 * w.bytes)
  let off : Word := BitVec.ofNat 64 (← pop w.bytes)
  let sel : BitVec 16 := BitVec.ofNat 16 (← pop w.bytes)
  let image : Word := BitVec.ofNat 64 (← pop w.bytes)
  let c ← legacyCode sel off
  writeSeg .cs c
  setRip off
  loadFlags ((if w = .w16 then flagsW16 else iretReal32) &&& ~~~flagsIopl) image

/-- RETURN-TO-VIRTUAL-8086-MODE (rule R721): ESP, SS, ES, DS, FS and GS follow the flags on the stack. -/
def iretToV86 (sel : BitVec 16) (off image : Word) : M Unit := do
  let s ← get
  let slot (k : Nat) : Word := s.sp + BitVec.ofNat 64 (k * 4)
  needTop 36
  let esp ← stackPeek (slot 3) 4
  let selAt (k : Nat) : M (BitVec 16) := do return BitVec.ofNat 16 (← stackPeek (slot k) 4)
  let ss ← selAt 4
  let es ← selAt 5
  let ds ← selAt 6
  let fs ← selAt 7
  let gs ← selAt 8
  ensure (decide (off.toNat ≤ 0xFFFF)) raiseGP
  modify fun t =>
    let put (t : State) (r : SReg) (v : BitVec 16) : State := t.setSeg r (SegCache.v86Load v)
    let t := put (put (put (put (put (put t .cs sel) .ss ss) .es es) .ds ds) .fs fs) .gs gs
    let t := t.setGp rSP (mergeLow (t.gp rSP) (BitVec.ofNat 32 esp))
    { t with flags := Flags.ofImage image, cpl := 3, rip := off }

/-- IRET in protected and IA-32e mode (rule R721): the frame is rIP, CS, the flags, and, to an outer level or from 64-bit mode,
rSP and SS. -/
def iretTable (w : Width) : M Unit := do
  let s ← get
  let n := w.bytes
  let slot (k : Nat) : Word := s.sp + BitVec.ofNat 64 (k * n)
  if s.flags.nt then
    if s.lma then raiseGP else throw (.refuse .taskSwitchRequested)
  needTop (3 * n)
  let off : Word := BitVec.ofNat 64 (← stackPeek (slot 0) n)
  let sel : BitVec 16 := BitVec.ofNat 16 (← stackPeek (slot 1) n)
  let image : Word := BitVec.ofNat 64 (← stackPeek (slot 2) n)
  if !s.lma && image.getLsbD 17 && decide (s.cpl = 0) then iretToV86 sel off image
  else
    let d ← returnCode sel
    let outer := decide (rpl sel ≠ s.cpl)
    let newStack ← (if outer || s.isLong then do
        needTop (5 * n)
        let sp ← stackPeek (slot 3) n
        let ss ← returnStack (fun c => raiseNP c) d (BitVec.ofNat 16 (← stackPeek (slot 4) n))
        pure (some (sp, ss))
      else pure none)
    ensure (s.targetOk d.cache off) raiseGP
    let cas ← d.resolve
    let sas ← (match newStack with
      | some (_, ss) => ss.resolve
      | none => pure [])
    markAccessed cas
    loadCode d (rpl sel) off
    loadFlags (iretMask w s.cpl s.flags.iopl) image
    match newStack with
    | some (sp, ss) => do
      loadSpPopped w s.isLong sp
      markAccessed sas
      writeSeg .ss ss.cache
    | none => modify fun t => t.setSp s.stackSize (slot 3)
    if outer then modify fun t => t.hideSegs (rpl sel)

/-- IRET: NMIs are unblocked even if it faults (spec/48_h_haddpd-iret.md rule R721). -/
def iretBody (w : Width) : M Unit := do
  modify fun s => { s with act := { s.act with nmiBlocked := false } }
  match (← get).mode with
  | .real => iretRealMode w
  | .v86 => iretV86 w
  | _ => iretTable w

/-- IRET (spec/48_h_haddpd-iret.md rule R721). -/
def execIret (s : State) : Host.Outcome State Fault Refusal := run (iretBody .w16) s
/-- IRETD (spec/48_h_haddpd-iret.md rule R721). -/
def execIretd (s : State) : Host.Outcome State Fault Refusal := run (iretBody .w32) s
/-- IRETQ (spec/48_h_haddpd-iret.md rule R721). -/
def execIretq (s : State) : Host.Outcome State Fault Refusal := run (iretBody .w64) s

/-! Interrupts and exceptions by instruction. -/

/-- INT n (spec/48_h_haddpd-iret.md rule R715). -/
def execIntN (v : BitVec 8) (s : State) : Host.Outcome State Fault Refusal := takeSoftware .softInt v s
/-- INT 3 (spec/48_h_haddpd-iret.md rule R716). -/
def execInt3 (s : State) : Host.Outcome State Fault Refusal := takeSoftware .int3 3 s
/-- INTO (spec/48_h_haddpd-iret.md rule R717). -/
def execInto (s : State) : Host.Outcome State Fault Refusal :=
  if s.isLong then run raiseUD s else if s.flags.of then takeSoftware .into 4 s else run (return ()) s

/-- BOUND (spec/41_b_blendpd-bzhi.md rule R535). -/
def execBound (o : RegMem) (s : State) : Host.Outcome State Fault Refusal := run (do
  notInLong
  let s ← get
  let at2 := s.ea o.mem + BitVec.ofNat 64 o.w.bytes
  let lo : BitVec o.w.bits := BitVec.ofNat _ (← memRead o.mem.seg (s.ea o.mem) o.w.bytes o.w.bytes)
  let hi : BitVec o.w.bits := BitVec.ofNat _ (← memRead o.mem.seg at2 o.w.bytes o.w.bytes)
  let i ← readReg o.w o.reg
  ensure (decide (lo.toInt ≤ i.toInt ∧ i.toInt ≤ hi.toInt)) (raise { vec := 5 })) s

/-- UD2 (spec/57_t_test-vfnmsub.md rule R1074). -/
def execUd2 (s : State) : Host.Outcome State Fault Refusal := run raiseUD s

/-! Conditional jumps. -/

/-- JO (spec/49_j_jcc-lzcnt.md rule R723). -/
def execJo (o : JccOps) (s : State) : Host.Outcome State Fault Refusal := run (jccBody .o o) s
/-- JNO (spec/49_j_jcc-lzcnt.md rule R724). -/
def execJno (o : JccOps) (s : State) : Host.Outcome State Fault Refusal := run (jccBody .no o) s
/-- JB (spec/49_j_jcc-lzcnt.md rule R725). -/
def execJb (o : JccOps) (s : State) : Host.Outcome State Fault Refusal := run (jccBody .b o) s
/-- JAE (spec/49_j_jcc-lzcnt.md rule R726). -/
def execJae (o : JccOps) (s : State) : Host.Outcome State Fault Refusal := run (jccBody .ae o) s
/-- JE (spec/49_j_jcc-lzcnt.md rule R727). -/
def execJe (o : JccOps) (s : State) : Host.Outcome State Fault Refusal := run (jccBody .e o) s
/-- JNE (spec/49_j_jcc-lzcnt.md rule R728). -/
def execJne (o : JccOps) (s : State) : Host.Outcome State Fault Refusal := run (jccBody .ne o) s
/-- JBE (spec/49_j_jcc-lzcnt.md rule R729). -/
def execJbe (o : JccOps) (s : State) : Host.Outcome State Fault Refusal := run (jccBody .be o) s
/-- JA (spec/49_j_jcc-lzcnt.md rule R730). -/
def execJa (o : JccOps) (s : State) : Host.Outcome State Fault Refusal := run (jccBody .a o) s
/-- JS (spec/49_j_jcc-lzcnt.md rule R731). -/
def execJs (o : JccOps) (s : State) : Host.Outcome State Fault Refusal := run (jccBody .s o) s
/-- JNS (spec/49_j_jcc-lzcnt.md rule R732). -/
def execJns (o : JccOps) (s : State) : Host.Outcome State Fault Refusal := run (jccBody .ns o) s
/-- JP (spec/49_j_jcc-lzcnt.md rule R733). -/
def execJp (o : JccOps) (s : State) : Host.Outcome State Fault Refusal := run (jccBody .p o) s
/-- JNP (spec/49_j_jcc-lzcnt.md rule R734). -/
def execJnp (o : JccOps) (s : State) : Host.Outcome State Fault Refusal := run (jccBody .np o) s
/-- JL (spec/49_j_jcc-lzcnt.md rule R735). -/
def execJl (o : JccOps) (s : State) : Host.Outcome State Fault Refusal := run (jccBody .l o) s
/-- JGE (spec/49_j_jcc-lzcnt.md rule R736). -/
def execJge (o : JccOps) (s : State) : Host.Outcome State Fault Refusal := run (jccBody .ge o) s
/-- JLE (spec/49_j_jcc-lzcnt.md rule R737). -/
def execJle (o : JccOps) (s : State) : Host.Outcome State Fault Refusal := run (jccBody .le o) s
/-- JG (spec/49_j_jcc-lzcnt.md rule R738). -/
def execJg (o : JccOps) (s : State) : Host.Outcome State Fault Refusal := run (jccBody .g o) s

end Sys2Proof.Machine
end

