-- ==== Sys2Proof/Machine/Float.lean ====
section
/-! DEFINITION. Floating-point arithmetic (spec/00_scope.md rule R30): values are unpacked to exact integers scaled by a power of
two, computed exactly, and rounded once. The operations on the 80-bit format are in Machine/X87.lean, over the same core. -/

namespace Sys2Proof.Machine

/-! Values and rounding. -/

/-- A floating-point datum: a NaN, an infinity, or (-1)^neg * m * 2^e. -/
inductive Fp where
  | nan (signalling : Bool)
  | inf (neg : Bool)
  | fin (neg : Bool) (m : Nat) (e : Int)
deriving DecidableEq, Repr

/-- What a rounding depends on: the number of significand bits and the least and greatest exponent of the last place. -/
structure Target where
  prec : Nat
  qmin : Int
  qmax : Int
deriving DecidableEq, Repr

/-- The number of bits of a number. -/
def bitLen (m : Nat) : Nat := if m = 0 then 0 else m.log2 + 1

/-- Does a rounding away from zero follow: `odd` the last kept bit, `r` the cut part of 2^sh (rule R30 (b))? -/
def roundsAway (rc : BitVec 2) (neg odd : Bool) (r sh : Nat) : Bool :=
  if r = 0 then false
  else match rc.toNat with
    | 0 => decide (2 ^ (sh - 1) < r) || (decide (r = 2 ^ (sh - 1)) && odd)
    | 1 => neg
    | 2 => !neg
    | _ => false

/-- m * 2^e rounded to a multiple of 2^q: the multiple, whether it is inexact, whether it was rounded away from zero. -/
def roundAt (rc : BitVec 2) (neg : Bool) (m : Nat) (e q : Int) : Nat × Bool × Bool :=
  if q ≤ e then (m * 2 ^ (e - q).toNat, false, false)
  else
    let sh := (q - e).toNat
    let lo := m / 2 ^ sh
    let r := m % 2 ^ sh
    let up := roundsAway rc neg (decide (lo % 2 = 1)) r sh
    (if up then lo + 1 else lo, decide (r ≠ 0), up)

/-- A rounded magnitude m * 2^q with what the rounding met: inexactness, rounding away, tininess after rounding, overflow; and
the result for an unbounded exponent range. -/
structure Rounded where
  m : Nat
  q : Int
  inexact : Bool
  up : Bool
  tiny : Bool
  big : Bool
  freeM : Nat
  freeQ : Int
  freeInexact : Bool
  freeUp : Bool
deriving DecidableEq, Repr

/-- A significand that rounded up to 2^prec is renormalised. -/
def renorm (prec m : Nat) (q : Int) : Nat × Int := if m = 2 ^ prec then (2 ^ (prec - 1), q + 1) else (m, q)

/-- Round m * 2^e, m not 0, to a target (rule R30 (b), (c)). -/
def roundTo (t : Target) (rc : BitVec 2) (neg : Bool) (m : Nat) (e : Int) : Rounded :=
  let q1 := e + bitLen m - t.prec
  let (m1, ix1, up1) := roundAt rc neg m e q1
  let (fm, fq) := renorm t.prec m1 q1
  let (m2, ix, up) := roundAt rc neg m e (max q1 t.qmin)
  let (rm, rq) := renorm t.prec m2 (max q1 t.qmin)
  { m := rm, q := rq, inexact := ix, up := up, tiny := decide (fq < t.qmin), big := decide (t.qmax < rq),
    freeM := fm, freeQ := fq, freeInexact := ix1, freeUp := up1 }

/-- Does an overflow round to infinity (rule R30 (c))? -/
def overflowsToInf (rc : BitVec 2) (neg : Bool) : Bool :=
  match rc.toNat with
  | 0 => true
  | 1 => neg
  | 2 => !neg
  | _ => false

/-! Exact arithmetic. -/

/-- The outcome of an operation before rounding. -/
inductive Exact where
  | invalid
  | divZero (neg : Bool)
  | inf (neg : Bool)
  | fin (neg : Bool) (m : Nat) (e : Int)
deriving DecidableEq, Repr

/-- A datum that is not a NaN, as an outcome. -/
def Fp.exact : Fp → Exact
  | .nan _ => .invalid
  | .inf n => .inf n
  | .fin n m e => .fin n m e

/-- The magnitude as a signed number. -/
def signed (neg : Bool) (m : Nat) : Int := if neg then -(m : Int) else m

/-- The sum of two finite numbers; an exact zero takes the common sign, else the sign of the rounding mode (IEEE 754). -/
def addFin (rc : BitVec 2) (n1 : Bool) (m1 : Nat) (e1 : Int) (n2 : Bool) (m2 : Nat) (e2 : Int) : Exact :=
  let e := min e1 e2
  let v := signed n1 (m1 * 2 ^ (e1 - e).toNat) + signed n2 (m2 * 2 ^ (e2 - e).toNat)
  if v = 0 then .fin (if n1 = n2 then n1 else decide (rc = 1)) 0 0
  else .fin (decide (v < 0)) v.natAbs e

/-- Addition. -/
def exactAdd (rc : BitVec 2) : Fp → Fp → Exact
  | .inf a, .inf b => if a = b then .inf a else .invalid
  | .inf a, _ => .inf a
  | _, .inf b => .inf b
  | .fin n1 m1 e1, .fin n2 m2 e2 => addFin rc n1 m1 e1 n2 m2 e2
  | _, _ => .invalid

/-- The datum with its sign changed. -/
def Fp.neg : Fp → Fp
  | .nan q => .nan q
  | .inf n => .inf !n
  | .fin n m e => .fin (!n) m e

/-- Is it a zero? -/
def Fp.isZero : Fp → Bool
  | .fin _ m _ => decide (m = 0)
  | _ => false

/-- The sign of a datum that is not a NaN. -/
def Fp.isNeg : Fp → Bool
  | .nan _ => false
  | .inf n => n
  | .fin n _ _ => n

/-- Subtraction. -/
def exactSub (rc : BitVec 2) (a b : Fp) : Exact := exactAdd rc a b.neg

/-- Multiplication. -/
def exactMul : Fp → Fp → Exact
  | .fin n1 m1 e1, .fin n2 m2 e2 => .fin (n1 != n2) (m1 * m2) (e1 + e2)
  | .nan _, _ => .invalid
  | _, .nan _ => .invalid
  | a, b => if a.isZero || b.isZero then .invalid else .inf (a.isNeg != b.isNeg)

/-- Quotient bits kept beyond any target's precision; the last bit is sticky. -/
def guardBits : Nat := 70

/-- Division. -/
def exactDiv : Fp → Fp → Exact
  | .inf _, .inf _ => .invalid
  | .inf a, .fin b _ _ => .inf (a != b)
  | .fin a _ _, .inf b => .fin (a != b) 0 0
  | .fin n1 m1 e1, .fin n2 m2 e2 =>
    if m2 = 0 then (if m1 = 0 then .invalid else .divZero (n1 != n2))
    else
      let k := bitLen m2 + guardBits
      let q := m1 * 2 ^ k / m2
      let r := m1 * 2 ^ k % m2
      if m1 = 0 then .fin (n1 != n2) 0 0
      else .fin (n1 != n2) (2 * q + (if r = 0 then 0 else 1)) (e1 - e2 - k - 1)
  | _, _ => .invalid

/-- The integer square root, from bit k - 1 down. -/
def isqrt (n : Nat) : Nat → Nat → Nat
  | 0, r => r
  | k + 1, r => if (r + 2 ^ k) * (r + 2 ^ k) ≤ n then isqrt n k (r + 2 ^ k) else isqrt n k r

/-- Square root. -/
def exactSqrt : Fp → Exact
  | .nan _ => .invalid
  | .inf n => if n then .invalid else .inf false
  | .fin n m e =>
    if m = 0 then .fin n 0 0
    else if n then .invalid
    else
      let k := 2 * guardBits + (e % 2).toNat
      let v := m * 2 ^ k
      let r := isqrt v (bitLen v / 2 + 1) 0
      .fin false (2 * r + (if r * r = v then 0 else 1)) ((e - k) / 2 - 1)

/-- a * b + c with the product exact (rule R30 (e)). -/
def exactFma (rc : BitVec 2) (a b c : Fp) : Exact :=
  match exactMul a b with
  | .fin n m e => exactAdd rc (.fin n m e) c
  | .inf n => exactAdd rc (.inf n) c
  | x => x

/-- The results of a comparison. -/
inductive Order where
  | unordered | less | equal | greater
deriving DecidableEq, Repr

/-- Compare (rule R30: UnorderedCompare, OrderedCompare). -/
def Fp.compare : Fp → Fp → Order
  | .nan _, _ => .unordered
  | _, .nan _ => .unordered
  | .inf a, .inf b => if a = b then .equal else if a then .less else .greater
  | .inf a, _ => if a then .less else .greater
  | _, .inf b => if b then .greater else .less
  | .fin n1 m1 e1, .fin n2 m2 e2 =>
    let e := min e1 e2
    let x := signed n1 (m1 * 2 ^ (e1 - e).toNat)
    let y := signed n2 (m2 * 2 ^ (e2 - e).toNat)
    if x < y then .less else if x = y then .equal else .greater

/-- A finite number rounded to an integer, and whether that is inexact. -/
def roundInt (rc : BitVec 2) (neg : Bool) (m : Nat) (e : Int) : Int × Bool :=
  let (v, ix, _) := roundAt rc neg m e 0
  (signed neg v, ix)

/-! The interchange formats. -/

/-- A format of rule R30 (a): exponent bits and fraction bits. -/
structure FpFmt where
  ebits : Nat
  fbits : Nat
deriving DecidableEq, Repr

/-- binary16. -/
def f16 : FpFmt := ⟨5, 10⟩
/-- binary32. -/
def f32 : FpFmt := ⟨8, 23⟩
/-- binary64. -/
def f64 : FpFmt := ⟨11, 52⟩

namespace FpFmt

/-- The width in bits. -/
def width (f : FpFmt) : Nat := 1 + f.ebits + f.fbits
/-- The exponent bias. -/
def bias (f : FpFmt) : Int := 2 ^ (f.ebits - 1) - 1
/-- The greatest exponent field. -/
def emax (f : FpFmt) : Nat := 2 ^ f.ebits - 1
/-- The target of a rounding. -/
def target (f : FpFmt) : Target :=
  { prec := f.fbits + 1, qmin := 1 - f.bias - f.fbits, qmax := (f.emax : Int) - 1 - f.bias - f.fbits }

/-- The sign bit. -/
def sign (f : FpFmt) (v : Nat) : Bool := decide (v / 2 ^ (f.ebits + f.fbits) % 2 = 1)
/-- The exponent field. -/
def expo (f : FpFmt) (v : Nat) : Nat := v / 2 ^ f.fbits % 2 ^ f.ebits
/-- The fraction field. -/
def frac (f : FpFmt) (v : Nat) : Nat := v % 2 ^ f.fbits

/-- An encoding from its fields. -/
def make (f : FpFmt) (neg : Bool) (e m : Nat) : Nat := (if neg then 2 ^ (f.ebits + f.fbits) else 0) + e * 2 ^ f.fbits + m

/-- Is it a NaN? -/
def isNan (f : FpFmt) (v : Nat) : Bool := decide (f.expo v = f.emax ∧ f.frac v ≠ 0)
/-- Is it a signalling NaN? -/
def isSnan (f : FpFmt) (v : Nat) : Bool := f.isNan v && decide (f.frac v < 2 ^ (f.fbits - 1))
/-- Is it a denormal number? -/
def isDenormal (f : FpFmt) (v : Nat) : Bool := decide (f.expo v = 0 ∧ f.frac v ≠ 0)

/-- The datum an encoding stands for. -/
def unpack (f : FpFmt) (v : Nat) : Fp :=
  let n := f.sign v
  let x := f.frac v
  if f.expo v = f.emax then (if x = 0 then .inf n else .nan (decide (x < 2 ^ (f.fbits - 1))))
  else if f.expo v = 0 then .fin n x f.target.qmin
  else .fin n (2 ^ f.fbits + x) ((f.expo v : Int) - f.bias - f.fbits)

/-- An infinity. -/
def infinity (f : FpFmt) (neg : Bool) : Nat := f.make neg f.emax 0
/-- A zero. -/
def zero (f : FpFmt) (neg : Bool) : Nat := f.make neg 0 0
/-- The greatest finite number. -/
def largest (f : FpFmt) (neg : Bool) : Nat := f.make neg (f.emax - 1) (2 ^ f.fbits - 1)
/-- The QNaN floating-point indefinite (rule R30 (a)). -/
def indefinite (f : FpFmt) : Nat := f.make true f.emax (2 ^ (f.fbits - 1))
/-- A NaN made quiet: its top fraction bit set (rule R30 (d)). -/
def quiet (f : FpFmt) (v : Nat) : Nat := f.make (f.sign v) f.emax (2 ^ (f.fbits - 1) + v % 2 ^ (f.fbits - 1))

/-- The encoding of m * 2^q with m below 2^prec, and at least 2^(prec-1) unless q is the least exponent. -/
def pack (f : FpFmt) (neg : Bool) (m : Nat) (q : Int) : Nat :=
  if m < 2 ^ f.fbits then f.make neg 0 m else f.make neg (q + f.bias + f.fbits).toNat (m - 2 ^ f.fbits)

end FpFmt

/-! SSE and AVX operations. -/

/-- IE, DE, ZE, OE, UE, PE (spec/10_state.md rule R110). -/
abbrev FpFlags := BitVec 6

/-- The result of an operation on one element: an encoding and the exceptions it meets. -/
structure FpOut where
  bits : Nat
  flags : FpFlags
deriving DecidableEq, Repr

/-- What MXCSR says to an operation: rounding control, DAZ, FTZ, the masks of overflow and underflow. -/
structure FpControl where
  rc : BitVec 2
  daz : Bool
  ftz : Bool
  om : Bool
  um : Bool
deriving DecidableEq, Repr

/-- The fields of MXCSR (spec/10_state.md rule R110). -/
def mxcsrEnv (v : BitVec 32) : FpControl :=
  { rc := v.extractLsb' 13 2, daz := v.getLsbD 6, ftz := v.getLsbD 15, om := v.getLsbD 10, um := v.getLsbD 11 }

/-- One exception flag. -/
def flagIf (b : Bool) (v : FpFlags) : FpFlags := if b then v else 0

/-- A denormal operand is read as zero with DAZ (rule R30 (b)). -/
def FpControl.read (env : FpControl) (f : FpFmt) (v : Nat) : Nat := if env.daz && f.isDenormal v then f.zero (f.sign v) else v

/-- Round a finite result (rule R30 (b), (c)). -/
def FpControl.round (env : FpControl) (f : FpFmt) (neg : Bool) (m : Nat) (e : Int) : FpOut :=
  if m = 0 then { bits := f.zero neg, flags := 0 }
  else
    let r := roundTo f.target env.rc neg m e
    if r.big then
      { bits := if overflowsToInf env.rc neg then f.infinity neg else f.largest neg
        flags := 8 ||| flagIf (env.om || r.freeInexact) 32 }
    else if r.tiny && env.um && env.ftz then { bits := f.zero neg, flags := 48 }
    else
      { bits := f.pack neg r.m r.q
        flags := flagIf r.inexact 32 ||| flagIf (r.tiny && (!env.um || r.inexact)) 16 }

/-- Encode an outcome; `de` says that an operand is denormal: DE is set beside ZE, both being found before the result (rule R30
(c)). DEDUCED (log 62): an invalid operation reports IE alone. -/
def FpControl.encode (env : FpControl) (f : FpFmt) (de : Bool) : Exact → FpOut
  | .invalid => { bits := f.indefinite, flags := 1 }
  | .divZero n => { bits := f.infinity n, flags := 4 ||| flagIf de 2 }
  | .inf n => { bits := f.infinity n, flags := flagIf de 2 }
  | .fin n m e => let r := env.round f n m e; { r with flags := r.flags ||| flagIf de 2 }

/-- The NaN that a two-operand operation answers: the first operand if it is one, else the second, made quiet (rule R30
(d)). -/
def FpFmt.pickNan (f : FpFmt) (a b : Nat) : Nat := if f.isNan a then f.quiet a else f.quiet b

/-- A two-operand operation (rule R30 (b) to (d)). DEDUCED (log 62): beside a NaN a denormal operand is not reported. -/
def fpBinary (f : FpFmt) (op : BitVec 2 → Fp → Fp → Exact) (env : FpControl) (a0 b0 : Nat) : FpOut :=
  let a := env.read f a0
  let b := env.read f b0
  if f.isNan a || f.isNan b then { bits := f.pickNan a b, flags := flagIf (f.isSnan a || f.isSnan b) 1 }
  else env.encode f (f.isDenormal a || f.isDenormal b) (op env.rc (f.unpack a) (f.unpack b))

/-- FpAdd (rule R30). -/
def fpAdd (f : FpFmt) : FpControl → Nat → Nat → FpOut := fpBinary f exactAdd
/-- FpSub (rule R30). -/
def fpSub (f : FpFmt) : FpControl → Nat → Nat → FpOut := fpBinary f exactSub
/-- FpMul (rule R30). -/
def fpMul (f : FpFmt) : FpControl → Nat → Nat → FpOut := fpBinary f (fun _ => exactMul)
/-- FpDiv (rule R30). -/
def fpDiv (f : FpFmt) : FpControl → Nat → Nat → FpOut := fpBinary f (fun _ => exactDiv)

/-- FpSqrt (rule R30). -/
def fpSqrt (f : FpFmt) (env : FpControl) (a0 : Nat) : FpOut :=
  let a := env.read f a0
  if f.isNan a then { bits := f.quiet a, flags := flagIf (f.isSnan a) 1 }
  else env.encode f (f.isDenormal a) (exactSqrt (f.unpack a))

/-- MIN and MAX: the second operand when either is a NaN or both are zeros; `less` selects the order (rule R30 (d); the pages of
MINPS and MAXPS). -/
def fpMinMax (f : FpFmt) (pick : Order) (env : FpControl) (a0 b0 : Nat) : FpOut :=
  let a := env.read f a0
  let b := env.read f b0
  let o := (f.unpack a).compare (f.unpack b)
  { bits := if o = pick then a else b
    flags := if o = .unordered then 1 else flagIf (f.isDenormal a || f.isDenormal b) 2 }

/-- A comparison with its exceptions: an SNaN always, a QNaN when `signalQ` (rule R30). -/
def fpCompare (f : FpFmt) (signalQ : Bool) (env : FpControl) (a0 b0 : Nat) : Order × FpFlags :=
  let a := env.read f a0
  let b := env.read f b0
  let o := (f.unpack a).compare (f.unpack b)
  if o = .unordered then (o, flagIf (signalQ || f.isSnan a || f.isSnan b) 1)
  else (o, flagIf (f.isDenormal a || f.isDenormal b) 2)

/-- A NaN carried into another format: the leading fraction bits are kept, and it is made quiet. -/
def FpFmt.convertNan (f g : FpFmt) (v : Nat) : Nat :=
  g.quiet (g.make (f.sign v) g.emax
    (if f.fbits ≤ g.fbits then f.frac v * 2 ^ (g.fbits - f.fbits) else f.frac v / 2 ^ (f.fbits - g.fbits)))

/-- Conversion between formats (rule R30). -/
def fpConvert (f g : FpFmt) (env : FpControl) (a0 : Nat) : FpOut :=
  let a := env.read f a0
  if f.isNan a then { bits := f.convertNan g a, flags := flagIf (f.isSnan a) 1 }
  else env.encode g (f.isDenormal a) (f.unpack a).exact

/-- Conversion to a signed integer of n bits, with the integer indefinite for what does not fit (rule R30 (a), (c)). -/
def fpToInt (f : FpFmt) (n : Nat) (env : FpControl) (a0 : Nat) : FpOut :=
  let a := env.read f a0
  let bad : FpOut := { bits := 2 ^ (n - 1), flags := 1 }
  match f.unpack a with
  | .fin neg m e =>
    let (v, ix) := roundInt env.rc neg m e
    if v < -(2 ^ (n - 1) : Int) ∨ (2 ^ (n - 1) : Int) ≤ v then bad
    else { bits := (BitVec.ofInt n v).toNat, flags := flagIf ix 32 }
  | _ => bad

/-- Conversion from a signed integer. -/
def fpFromInt (f : FpFmt) (env : FpControl) (v : Int) : FpOut := env.encode f false (.fin (decide (v < 0)) v.natAbs 0)

/-- Rounding to an integral value in the format: `quietP` suppresses the precision exception (the ROUNDPS page). -/
def fpRoundInt (f : FpFmt) (quietP : Bool) (env : FpControl) (a0 : Nat) : FpOut :=
  let a := env.read f a0
  match f.unpack a with
  | .nan sn => { bits := f.quiet a, flags := flagIf sn 1 }
  | .inf n => { bits := f.infinity n, flags := 0 }
  | .fin neg m e =>
    let (v, ix) := roundInt env.rc neg m e
    { bits := (env.round f neg v.natAbs 0).bits, flags := flagIf (ix && !quietP) 32 }

end Sys2Proof.Machine
end

