-- ==== Sys2Proof/Machine/Simd.lean ====
section
/-! DEFINITION. What the SSE, AVX and MMX instructions share: the conditions under which they run (spec/61_exception_groups.md
rules R2110 to R2129), elements of a vector (spec/10_state.md rule R111), and the runners that read the operands of a form,
apply an operation and write the result (rule R112: a legacy form keeps bits 255:128, a VEX form zeroes what it does not
write). -/

namespace Sys2Proof.Machine

/-! Conditions. -/

/-- Steps 1 and 2 of rule R2110 for a legacy SSE instruction. -/
def needSse (f : Config.Feature) : M Unit := do
  let s ← get
  ensure (!s.cr0Bit 2 && s.cr4Bit 9 && s.has f) raiseUD
  ensure (!s.cr0Bit 3) raiseNM

/-- Steps 1 and 2 of rule R2110 for a VEX-encoded instruction. -/
def needVex (fs : List Config.Feature) : M Unit := do
  let s ← get
  ensure (!s.isLegacySeg && s.cr4Bit 18 && s.sys.xcr0.getLsbD 1 && s.sys.xcr0.getLsbD 2 && fs.all s.has) raiseUD
  ensure (!s.cr0Bit 3) raiseNM

/-- #MF for a pending x87 exception (spec/60_exceptions.md rule R2016). -/
def needNoPending : M Unit := do ensure (!(← get).fpu.es) raiseMF

/-- The conditions of an MMX-register form (rules R2124, R2128, R2129). -/
def needMmx (f : Config.Feature) : M Unit := do
  let s ← get
  ensure (!s.cr0Bit 2 && s.has f) raiseUD
  ensure (!s.cr0Bit 3) raiseNM
  needNoPending

/-- The x87-to-MMX transition of an instruction that completes (spec/10_state.md rule R128). -/
def enterMmx : M Unit := modify fun s => { s with fpu := s.fpu.mmxUse }

/-- AVX at either length. -/
def avx (_ : VLen) : List Config.Feature := [.avx]
/-- AVX for 128 bits, AVX2 for 256: the integer instructions. -/
def avxInt : VLen → List Config.Feature
  | .l128 => [.avx]
  | .l256 => [.avx2]
/-- AVX2 at either length. -/
def avx2 (_ : VLen) : List Config.Feature := [.avx2]

/-! Elements. -/

/-- Element i of width w. -/
def lane {n : Nat} (w : Nat) (v : BitVec n) (i : Nat) : BitVec w := v.extractLsb' (w * i) w

/-- The elements of width w, element 0 first. -/
def lanes {n : Nat} (w : Nat) (v : BitVec n) : List (BitVec w) := (List.range (n / w)).map (lane w v)

/-- The number whose base-2^w digits are the elements. -/
def packNat {w : Nat} : List (BitVec w) → Nat
  | [] => 0
  | x :: xs => x.toNat + 2 ^ w * packNat xs

/-- The vector with the given elements; missing ones are 0. -/
def ofLanes (n : Nat) {w : Nat} (l : List (BitVec w)) : BitVec n := BitVec.ofNat n (packNat l)

/-- An operation on vectors of any width. -/
abbrev Op1 := (n : Nat) → BitVec n → BitVec n
/-- An operation on two vectors of any width. -/
abbrev Op2 := (n : Nat) → BitVec n → BitVec n → BitVec n

/-- Apply f to each element. -/
def each (w : Nat) (f : BitVec w → BitVec w) : Op1 := fun n a => ofLanes n ((lanes w a).map f)
/-- Apply f to each pair of elements. -/
def zip (w : Nat) (f : BitVec w → BitVec w → BitVec w) : Op2 := fun n a b => ofLanes n (List.zipWith f (lanes w a) (lanes w b))

/-- Apply a 128-bit operation to each 128-bit half. -/
def halves1 (f : BitVec 128 → BitVec 128) : (l : VLen) → BitVec l.bits → BitVec l.bits
  | .l128, a => f a
  | .l256, a => f (lane 128 a 1) ++ f (lane 128 a 0)

/-- Apply a two-operand 128-bit operation to each 128-bit half. -/
def halves2 (f : BitVec 128 → BitVec 128 → BitVec 128) : (l : VLen) → BitVec l.bits → BitVec l.bits → BitVec l.bits
  | .l128, a, b => f a b
  | .l256, a, b => f (lane 128 a 1) (lane 128 b 1) ++ f (lane 128 a 0) (lane 128 b 0)

/-- The low bits of `old` replaced. -/
def withLow {n m : Nat} (old : BitVec n) (v : BitVec m) : BitVec n := ((old >>> m) <<< m) ||| v.setWidth n

/-- The number of bytes of a vector length. -/
def vbytes : VLen → Nat
  | .l128 => 16
  | .l256 => 32

/-- Read an operand of a vector length. -/
def readVx (l : VLen) (o : Xm) : M (BitVec l.bits) := do return (← readXm .free (vbytes l) o).setWidth l.bits

/-! Runners of operations without floating-point exceptions. -/

/-- xmm <- f(xmm, xmm/m128) (Type 4). -/
def xxRun (fx : Config.Feature) (f : BitVec 128 → BitVec 128 → BitVec 128) (o : XX) : M Unit := do
  needSse fx
  let b ← readXm .size 16 o.src
  writeXmm o.dst (f (← readXmm o.dst) b)

/-- xmm <- f(xmm, xmm/m128, imm8) (Type 4). -/
def xxiRun (fx : Config.Feature) (f : BitVec 8 → BitVec 128 → BitVec 128 → BitVec 128) (o : XXI) : M Unit :=
  xxRun fx (f o.imm) { dst := o.dst, src := o.src }

/-- xmm <- f(low n bytes of xmm/m) (Type 5). -/
def xnRun (fx : Config.Feature) (n : Nat) (f : BitVec (8 * n) → BitVec 128) (o : XX) : M Unit := do
  needSse fx
  writeXmm o.dst (f (← readXm .free n o.src))

/-- mm <- f(mm, mm/m) of n bytes, or xmm <- f(xmm, xmm/m128) (rules R2114, R2129). -/
def mxnRun (n : Nat) (fm fx : Config.Feature) (f : Op2) : MX → M Unit
  | .mm dst src => do
    needMmx fm
    let b ← readMmM n src
    writeMm dst (f 64 (← readMm dst) (b.setWidth 64))
    enterMmx
  | .xx dst src => xxRun fx (f 128) { dst := dst, src := src }

/-- mm <- f(mm, mm/m64), or xmm <- f(xmm, xmm/m128). -/
def mxRun (fm fx : Config.Feature) (f : Op2) : MX → M Unit := mxnRun 8 fm fx f

/-- vector <- f(vector, vector/m) for each 128-bit half (Type 4). -/
def vvxRun (fs : VLen → List Config.Feature) (f : BitVec 128 → BitVec 128 → BitVec 128) (o : VVX) : M Unit := do
  needVex (fs o.l)
  let b ← readVx o.l o.b
  writeVec o.dst (halves2 f o.l (← readVec o.l o.a) b)

/-- vector <- f(vector, vector/m, imm8) for each 128-bit half. -/
def vvxiRun (fs : VLen → List Config.Feature) (f : BitVec 8 → BitVec 128 → BitVec 128 → BitVec 128) (o : VVXI) : M Unit :=
  vvxRun fs (f o.imm) { l := o.l, dst := o.dst, a := o.a, b := o.b }

/-- vector <- f(vector/m) for each 128-bit half (Type 4). -/
def vxRun (fs : VLen → List Config.Feature) (f : BitVec 128 → BitVec 128) (o : VX) : M Unit := do
  needVex (fs o.l)
  writeVec o.dst (halves1 f o.l (← readVx o.l o.src))

/-- vector <- f(vector/m, imm8) for each 128-bit half. -/
def vxiRun (fs : VLen → List Config.Feature) (f : BitVec 8 → BitVec 128 → BitVec 128) (o : VXI) : M Unit :=
  vxRun fs (f o.imm) { l := o.l, dst := o.dst, src := o.src }

/-! Floating-point operations. -/

/-- A result with the exceptions met on the way. -/
structure FpVec (n : Nat) where
  val : BitVec n
  flags : FpFlags

/-- The flags an operation leaves in MXCSR: an unmasked pre-computation exception hides the others (spec/60_exceptions.md rule
R2019). -/
def reported (mxcsr : BitVec 32) (fl : FpFlags) : FpFlags :=
  if fl &&& 7 &&& ~~~(mxcsr.extractLsb' 7 6) ≠ 0 then fl &&& 7 else fl

/-- Put the exceptions of all elements into MXCSR, and raise #XM or #UD for an unmasked one (spec/60_exceptions.md rule
R2019). -/
def commitFlags (fl0 : FpFlags) : M Unit := do
  let s ← get
  let fl := reported s.mxcsr fl0
  set { s with mxcsr := s.mxcsr ||| fl.setWidth 32 }
  if fl &&& ~~~(s.mxcsr.extractLsb' 7 6) ≠ 0 then (if s.cr4Bit 10 then raiseXM else raiseUD)

/-- A result whose exceptions are committed. -/
def commit {n : Nat} (r : FpVec n) : M (BitVec n) := do
  commitFlags r.flags
  return r.val

/-- What MXCSR says now. -/
def fpEnv : M FpControl := do return mxcsrEnv (← get).mxcsr

/-- The vector of the results of the elements. -/
def gatherOut (n w : Nat) (l : List FpOut) : FpVec n :=
  { val := ofLanes n (l.map fun r => BitVec.ofNat w r.bits), flags := l.foldl (fun acc r => acc ||| r.flags) 0 }

/-- An operation on one element. -/
abbrev Fp1 := FpControl → Nat → FpOut
/-- An operation on two elements. -/
abbrev Fp2 := FpControl → Nat → Nat → FpOut

/-- Apply an operation to each element. -/
def fpEach (w : Nat) (op : Fp1) (env : FpControl) {n : Nat} (a : BitVec n) : FpVec n :=
  gatherOut n w ((lanes w a).map fun x => op env x.toNat)

/-- Apply an operation to each pair of elements. -/
def fpZip (w : Nat) (op : Fp2) (env : FpControl) {n : Nat} (a b : BitVec n) : FpVec n :=
  gatherOut n w (List.zipWith (fun x y => op env x.toNat y.toNat) (lanes w a) (lanes w b))

/-- A packed operation: its environment and two vectors of any width. -/
abbrev FpOp2 := FpControl → (n : Nat) → BitVec n → BitVec n → FpVec n

/-- A packed operation on elements of a format. -/
def packed (w : Nat) (op : Fp2) : FpOp2 := fun env _ a b => fpZip w op env a b

/-- Apply a packed operation to each 128-bit half. -/
def fpHalves (f : FpOp2) (env : FpControl) : (l : VLen) → BitVec l.bits → BitVec l.bits → FpVec l.bits
  | .l128, a, b => f env 128 a b
  | .l256, a, b =>
    let hi := f env 128 (lane 128 a 1) (lane 128 b 1)
    let lo := f env 128 (lane 128 a 0) (lane 128 b 0)
    { val := hi.val ++ lo.val, flags := hi.flags ||| lo.flags }

/-- xmm <- f(xmm, xmm/m128) with floating-point exceptions (Type 2). -/
def xxFp (fx : Config.Feature) (f : FpOp2) (o : XX) : M Unit := do
  needSse fx
  let b ← readXm .size 16 o.src
  writeXmm o.dst (← commit (f (← fpEnv) 128 (← readXmm o.dst) b))

/-- vector <- f(vector, vector/m) with floating-point exceptions (Type 2). -/
def vvxFp (f : FpOp2) (o : VVX) : M Unit := do
  needVex [.avx]
  let b ← readVx o.l o.b
  writeVec o.dst (← commit (fpHalves f (← fpEnv) o.l (← readVec o.l o.a) b))

/-- xmm <- f(xmm/m128) with floating-point exceptions (Type 2). -/
def xFp1 (fx : Config.Feature) (w : Nat) (op : Fp1) (o : XX) : M Unit := do
  needSse fx
  let b : BitVec 128 ← readXm .size 16 o.src
  writeXmm o.dst (← commit (fpEach w op (← fpEnv) b))

/-- vector <- f(vector/m) with floating-point exceptions (Type 2). -/
def vFp1 (w : Nat) (op : Fp1) (o : VX) : M Unit := do
  needVex [.avx]
  let b ← readVx o.l o.src
  writeVec o.dst (← commit (fpEach w op (← fpEnv) b))

/-- One element as a vector. -/
def one (w : Nat) (r : FpOut) : FpVec w := { val := BitVec.ofNat w r.bits, flags := r.flags }

/-- The low element of xmm <- op(its low element, xmm/m of n bytes); the other bits are kept (Type 3). The result has w bits. -/
def xxScalar (fx : Config.Feature) (n w : Nat) (op : Fp2) (o : XX) : M Unit := do
  needSse fx
  let b ← readXm .free n o.src
  let a ← readXmm o.dst
  let r ← commit (one w (op (← fpEnv) (a.toNat % 2 ^ (8 * n)) b.toNat))
  writeXmm o.dst (withLow a r)

/-- xmm <- op on the low elements, with the other bits of the first source (Type 3). -/
def vvxScalar (fs : List Config.Feature) (n w : Nat) (op : Fp2) (o : VVX) : M Unit := do
  needVex fs
  let b ← readXm .free n o.b
  let a ← readXmm o.a
  let r ← commit (one w (op (← fpEnv) (a.toNat % 2 ^ (8 * n)) b.toNat))
  writeVec o.dst (withLow a r)

/-- A one-operand operation as a two-operand one that ignores its first operand. -/
def onSecond (op : Fp1) : Fp2 := fun env _ b => op env b

end Sys2Proof.Machine
end

