-- ==== Sys2Proof/Machine/Packed.lean ====
section
/-! DEFINITION. The packed-integer instructions: MMX, SSE2 to SSE4.2, AVX and AVX2 (spec/52_p_pabsb-pextrw.md rule R832 and the
rules that follow it to spec/54_p_pop-pxor.md rule R974). An operation is written once on elements; the runners of
Machine/Simd.lean apply it to each operand form. -/

namespace Sys2Proof.Machine

/-! Elements. -/

/-- SatS8, SatS16 (rule R832 (c)). -/
def satS (w : Nat) (x : Int) : BitVec w :=
  BitVec.ofInt w (max (-(2 ^ (w - 1) : Int)) (min x (2 ^ (w - 1) - 1)))

/-- SatU8, SatU16 (rule R832 (c)). -/
def satU (w : Nat) (x : Int) : BitVec w := BitVec.ofInt w (max 0 (min x (2 ^ w - 1)))

/-- All ones or 0. -/
def maskOf (w : Nat) (b : Bool) : BitVec w := if b then BitVec.allOnes w else 0

/-- The absolute value as an unsigned number (rule R833). -/
def absElem {w : Nat} (x : BitVec w) : BitVec w := if x.msb then 0 - x else x

/-- Neighbouring elements in pairs. -/
def pairUp {α : Type} : List α → List (α × α)
  | x :: y :: l => (x, y) :: pairUp l
  | _ => []

/-- Elements of two lists in turn. -/
def interleave {α : Type} : List α → List α → List α
  | x :: xs, y :: ys => x :: y :: interleave xs ys
  | _, _ => []

/-! Operations on vectors. -/

/-- One operand, of which the destination's old value is no part. -/
def srcOnly (f : Op1) : Op2 := fun n _ b => f n b

/-- Bitwise AND (rule R849). -/
def andVec : Op2 := fun _ a b => a &&& b
/-- Bitwise OR (rule R930). -/
def orVec : Op2 := fun _ a b => a ||| b
/-- Bitwise XOR (rule R931). -/
def xorVec : Op2 := fun _ a b => a ^^^ b
/-- (NOT a) AND b (rule R850). -/
def andNot : Op2 := fun _ a b => ~~~a &&& b

/-- PACKSSWB and its kin: the elements of a, then of b, narrowed (rule R836). -/
def packTo (w : Nat) (sat : Int → BitVec (w / 2)) : Op2 := fun n a b =>
  ofLanes n ((lanes w a ++ lanes w b).map fun x => sat x.toInt)

/-- PHADDW and its kin: pairs of a, then of b (rule R876). -/
def horizontal (w : Nat) (f : BitVec w → BitVec w → BitVec w) : Op2 := fun n a b =>
  ofLanes n ((pairUp (lanes w a) ++ pairUp (lanes w b)).map fun (x, y) => f x y)

/-- PMADDUBSW on one word: unsigned bytes of a, signed bytes of b (rule R887). -/
def maddUbs (a b : BitVec 16) : BitVec 16 :=
  let p (i : Nat) : Int := ((lane 8 a i).toNat : Int) * (lane 8 b i).toInt
  satS 16 (p 1 + p 0)

/-- PMADDWD on one doubleword (rule R888). -/
def maddWd (a b : BitVec 32) : BitVec 32 :=
  let p (i : Nat) : Int := (lane 16 a i).toInt * (lane 16 b i).toInt
  BitVec.ofInt 32 (p 0 + p 1)

/-- PMULHRSW on one word (rule R915). -/
def mulHrs (a b : BitVec 16) : BitVec 16 :=
  let t : BitVec 32 := ((a.signExtend 32 * b.signExtend 32).sshiftRight 14) + 1
  t.extractLsb' 1 16

/-- The high half of a signed product of words (rule R917). -/
def mulHigh (a b : BitVec 16) : BitVec 16 := (a.signExtend 32 * b.signExtend 32).extractLsb' 16 16
/-- The high half of an unsigned product of words (rule R916). -/
def mulHighU (a b : BitVec 16) : BitVec 16 := (a.setWidth 32 * b.setWidth 32).extractLsb' 16 16
/-- The signed product of the low doublewords (rule R914). -/
def mulLowS (a b : BitVec 64) : BitVec 64 := (a.setWidth 32).signExtend 64 * (b.setWidth 32).signExtend 64
/-- The unsigned product of the low doublewords (rule R920). -/
def mulLowU (a b : BitVec 64) : BitVec 64 := (a.setWidth 32).setWidth 64 * (b.setWidth 32).setWidth 64

/-- PSADBW on one quadword (rule R938). -/
def sadBytes (a b : BitVec 64) : BitVec 64 :=
  BitVec.ofNat 64 (List.zipWith (fun (x y : BitVec 8) => ((x.toNat : Int) - y.toNat).natAbs) (lanes 8 a) (lanes 8 b)).sum

/-- PSIGNB and its kin on one element (rule R944). -/
def signElem {w : Nat} (a b : BitVec w) : BitVec w := if b.msb then 0 - a else if b = 0 then 0 else a

/-- Rounded average (rule R852). -/
def avgElem {w : Nat} (a b : BitVec w) : BitVec w := BitVec.ofNat w ((a.toNat + b.toNat + 1) / 2)

/-- PSHUFB (rule R939). -/
def shuffleBytes : Op2 := fun n a b =>
  ofLanes n ((lanes 8 b).map fun c => if c.msb then (0 : BitVec 8) else lane 8 a (c.toNat % (n / 8)))

/-- PALIGNR (rule R848). -/
def alignRight (imm : BitVec 8) : Op2 := fun n a b => ((a ++ b) >>> (8 * imm.toNat)).setWidth n

/-- PUNPCKH (rule R967). -/
def unpackHigh (w : Nat) : Op2 := fun n a b =>
  ofLanes n (interleave ((lanes w a).drop (n / w / 2)) ((lanes w b).drop (n / w / 2)))
/-- PUNPCKL (rule R971). -/
def unpackLow (w : Nat) : Op2 := fun n a b =>
  ofLanes n (interleave ((lanes w a).take (n / w / 2)) ((lanes w b).take (n / w / 2)))

/-- The element an immediate's 2-bit field i selects. -/
def selectBy {n : Nat} (w : Nat) (imm : BitVec 8) (v : BitVec n) (i : Nat) : BitVec w :=
  lane w v (imm.extractLsb' (2 * i) 2).toNat

/-- PSHUFD on 128 bits (rule R940). -/
def shuffleD (imm : BitVec 8) (v : BitVec 128) : BitVec 128 := ofLanes 128 ((List.range 4).map (selectBy 32 imm v))
/-- PSHUFW on 64 bits (rule R943). -/
def shuffleW (imm : BitVec 8) (v : BitVec 64) : BitVec 64 := ofLanes 64 ((List.range 4).map (selectBy 16 imm v))
/-- PSHUFHW on 128 bits (rule R941). -/
def shuffleHw (imm : BitVec 8) (v : BitVec 128) : BitVec 128 := shuffleW imm (lane 64 v 1) ++ lane 64 v 0
/-- PSHUFLW on 128 bits (rule R942). -/
def shuffleLw (imm : BitVec 8) (v : BitVec 128) : BitVec 128 := lane 64 v 1 ++ shuffleW imm (lane 64 v 0)

/-- PHMINPOSUW (rule R879): the least word, the lowest index of equal ones. -/
def minPos (v : BitVec 128) : BitVec 128 :=
  let best := (lanes 16 v).zipIdx.foldl
    (fun (acc : BitVec 16 × Nat) (x : BitVec 16 × Nat) => if x.1.toNat < acc.1.toNat then x else acc) (lane 16 v 0, 0)
  BitVec.ofNat 128 (best.1.toNat + 65536 * best.2)

/-- MPSADBW on 128 bits (spec/51_m_movs-outs.md rule R816); `sel` holds the offsets of both operands. -/
def mpsad (sel : BitVec 3) (a b : BitVec 128) : BitVec 128 :=
  let b1 := if sel.getLsbD 2 then 4 else 0
  let b2 := 4 * (sel.extractLsb' 0 2).toNat
  ofLanes 128 ((List.range 8).map fun j =>
    BitVec.ofNat 16 ((List.range 4).map fun k =>
      (((lane 8 a (b1 + j + k)).toNat : Int) - (lane 8 b (b2 + k)).toNat).natAbs).sum)

/-- MPSADBW on both halves: bits 5:3 of the immediate serve the high half. -/
def mpsadVec (imm : BitVec 8) : (l : VLen) → BitVec l.bits → BitVec l.bits → BitVec l.bits
  | .l128, a, b => mpsad (imm.extractLsb' 0 3) a b
  | .l256, a, b => mpsad (imm.extractLsb' 3 3) (lane 128 a 1) (lane 128 b 1) ++ mpsad (imm.extractLsb' 0 3) (lane 128 a 0) (lane 128 b 0)

/-- PBLENDW on 128 bits (rule R855). -/
def blendW (imm : BitVec 8) (a b : BitVec 128) : BitVec 128 :=
  ofLanes 128 ((List.range 8).map fun i => if imm.getLsbD i then lane 16 b i else lane 16 a i)

/-- Blend elements by the top bits of a mask (rule R854). -/
def blendByTop (w : Nat) {n : Nat} (m a b : BitVec n) : BitVec n :=
  ofLanes n ((List.range (n / w)).map fun i => if (lane w m i).msb then lane w b i else lane w a i)

/-- Carry-less multiplication of quadwords (rule R856). -/
def clmul (a b : BitVec 64) : BitVec 128 :=
  (List.range 64).foldl (fun acc i => if b.getLsbD i then acc ^^^ (a.setWidth 128 <<< i) else acc) 0
/-- PCLMULQDQ (rule R856). -/
def clmulSel (imm : BitVec 8) (a b : BitVec 128) : BitVec 128 :=
  clmul (lane 64 a (if imm.getLsbD 0 then 1 else 0)) (lane 64 b (if imm.getLsbD 4 then 1 else 0))

/-- PMOVSX, PMOVZX: elements of w1 bits extended to w2 bits (rules R902, R908). -/
def extendTo (signed : Bool) (n w1 w2 : Nat) {m : Nat} (v : BitVec m) : BitVec n :=
  ofLanes n ((lanes w1 v).map fun x => if signed then x.signExtend w2 else x.setWidth w2)

/-! Shifts (rule R949). -/

/-- A shift count cut where it no longer matters. -/
def capCount (w c : Nat) : Nat := min c w
/-- Shift left. -/
def shl (w : Nat) (c : Nat) (x : BitVec w) : BitVec w := x <<< capCount w c
/-- Shift right logical. -/
def shr (w : Nat) (c : Nat) (x : BitVec w) : BitVec w := x >>> capCount w c
/-- Shift right arithmetic. -/
def sar (w : Nat) (c : Nat) (x : BitVec w) : BitVec w := x.sshiftRight (capCount w c)

/-- The legacy packed shifts. -/
def packedShift (w : Nat) (f : Nat → BitVec w → BitVec w) : MShift → M Unit
  | .mm dst cnt => do
    needMmx .mmx
    let c ← readMmM 8 cnt
    writeMm dst (each w (f c.toNat) 64 (← readMm dst))
    enterMmx
  | .mmI dst imm => do
    needMmx .mmx
    writeMm dst (each w (f imm.toNat) 64 (← readMm dst))
    enterMmx
  | .xx dst cnt => do
    needSse .sse2
    let c ← readXm .size 16 cnt
    writeXmm dst (each w (f (c.toNat % 2 ^ 64)) 128 (← readXmm dst))
  | .xxI dst imm => do
    needSse .sse2
    writeXmm dst (each w (f imm.toNat) 128 (← readXmm dst))

/-- The VEX packed shifts: the count is an xmm register or 128 bits of memory. -/
def vpackedShift (w : Nat) (f : Nat → BitVec w → BitVec w) : VShift → M Unit
  | .vec l dst a cnt => do
    needVex (avxInt l)
    let c ← readXm .free 16 cnt
    writeVec dst (each w (f (c.toNat % 2 ^ 64)) l.bits (← readVec l a))
  | .imm l dst src imm => do
    needVex (avxInt l)
    writeVec dst (each w (f imm.toNat) l.bits (← readVec l src))

/-- PSLLDQ, PSRLDQ on 128 bits (rules R947, R948). -/
def byteShift (left : Bool) (imm : BitVec 8) (v : BitVec 128) : BitVec 128 :=
  let c := 8 * min imm.toNat 16
  if left then v <<< c else v >>> c
/-- PSLLDQ, PSRLDQ. -/
def byteShiftRun (left : Bool) (o : XI) : M Unit := do
  needSse .sse2
  writeXmm o.dst (byteShift left o.imm (← readXmm o.dst))
/-- VPSLLDQ, VPSRLDQ. -/
def vbyteShiftRun (left : Bool) (o : VVI) : M Unit := do
  needVex (avxInt o.l)
  writeVec o.dst (halves1 (byteShift left o.imm) o.l (← readVec o.l o.src))

/-! Runners for other shapes. -/

/-- vector <- f(n bytes of xmm/m), n by vector length. -/
def vnRun (fs : VLen → List Config.Feature) (n : VLen → Nat) (f : {m : Nat} → BitVec m → BitVec 256) (o : VX) : M Unit := do
  needVex (fs o.l)
  writeVec o.dst (f (← readXm .free (n o.l) o.src))

/-- PTEST and its kin: ZF of the AND, CF of the AND with the complement (spec/54_p_pop-pxor.md rule R966). -/
def setTest {n : Nat} (dst src : BitVec n) : M Unit := modifyFlags fun f =>
  { f with
    zf := decide (src &&& dst = 0), cf := decide (src &&& ~~~dst = 0), af := false, of := false, pf := false, sf := false }

/-- The widest general register of the mode: 64 bits in 64-bit mode, else 32. -/
def State.wide (s : State) : Width := if s.isLong then .w64 else .w32

/-- Write a small value to a general register, zero-extended (rule R872). -/
def writeWide {n : Nat} (r : Reg) (v : BitVec n) : M Unit := do
  let w := (← get).wide
  writeReg w r (v.setWidth w.bits)

/-- An r/m destination of an extraction: memory takes the value, a register its zero extension. -/
def writeExtract (w : Width) (o : Rm) (v : BitVec w.bits) : M Unit :=
  match o with
  | .reg (.lo r) => writeWide r v
  | o => writeRm w o v

/-- PEXTRB and its kin. -/
def extractRun (enter : M Unit) (w : Width) (o : ExtrOps) : M Unit := do
  enter
  writeExtract w o.dst (lane w.bits (← readXmm o.src) (o.imm.toNat % (128 / w.bits)))

/-- The value PINSRB and its kin insert: the low bits of a register, or memory of that width. -/
def readInsert (w : Width) : Rm → M (BitVec w.bits)
  | .reg (.lo r) => readReg w r
  | o => readRm w o

/-- An element replaced. -/
def replaceLane {n w : Nat} (v : BitVec n) (i : Nat) (x : BitVec w) : BitVec n :=
  (v &&& ~~~((BitVec.allOnes w).setWidth n <<< (w * i))) ||| (x.setWidth n <<< (w * i))

/-- PINSRB and its kin. -/
def insertRun (fx : Config.Feature) (w : Width) (o : InsOps) : M Unit := do
  needSse fx
  let v ← readInsert w o.src
  writeXmm o.dst (replaceLane (← readXmm o.dst) (o.imm.toNat % (128 / w.bits)) v)

/-- VPINSRB and its kin. -/
def vinsertRun (w : Width) (o : VInsOps) : M Unit := do
  needVex [.avx]
  let v ← readInsert w o.src
  writeVec o.dst (replaceLane (← readXmm o.a) (o.imm.toNat % (128 / w.bits)) v)

/-- The top bits of the elements. -/
def topBits (w : Nat) {n : Nat} (v : BitVec n) : Nat :=
  (lanes w v).foldr (fun x acc => 2 * acc + x.msb.toNat) 0

/-! The meanings. -/

/-- PADDB (spec/52_p_pabsb-pextrw.md rule R840). -/
def execPaddb (o : MX) (s : State) : Host.Outcome State Fault Refusal := run (mxRun .mmx .sse2 (zip 8 fun x y => x + y) o) s
/-- VPADDB (spec/52_p_pabsb-pextrw.md rule R840). -/
def execVpaddb (o : VVX) (s : State) : Host.Outcome State Fault Refusal :=
  run (vvxRun avxInt ((zip 8 fun x y => x + y) 128) o) s
/-- PSUBB (spec/54_p_pop-pxor.md rule R958). -/
def execPsubb (o : MX) (s : State) : Host.Outcome State Fault Refusal := run (mxRun .mmx .sse2 (zip 8 fun x y => x - y) o) s
/-- VPSUBB (spec/54_p_pop-pxor.md rule R958). -/
def execVpsubb (o : VVX) (s : State) : Host.Outcome State Fault Refusal :=
  run (vvxRun avxInt ((zip 8 fun x y => x - y) 128) o) s
/-- PADDW (spec/52_p_pabsb-pextrw.md rule R841). -/
def execPaddw (o : MX) (s : State) : Host.Outcome State Fault Refusal := run (mxRun .mmx .sse2 (zip 16 fun x y => x + y) o) s
/-- VPADDW (spec/52_p_pabsb-pextrw.md rule R841). -/
def execVpaddw (o : VVX) (s : State) : Host.Outcome State Fault Refusal :=
  run (vvxRun avxInt ((zip 16 fun x y => x + y) 128) o) s
/-- PSUBW (spec/54_p_pop-pxor.md rule R959). -/
def execPsubw (o : MX) (s : State) : Host.Outcome State Fault Refusal := run (mxRun .mmx .sse2 (zip 16 fun x y => x - y) o) s
/-- VPSUBW (spec/54_p_pop-pxor.md rule R959). -/
def execVpsubw (o : VVX) (s : State) : Host.Outcome State Fault Refusal :=
  run (vvxRun avxInt ((zip 16 fun x y => x - y) 128) o) s
/-- PADDD (spec/52_p_pabsb-pextrw.md rule R842). -/
def execPaddd (o : MX) (s : State) : Host.Outcome State Fault Refusal := run (mxRun .mmx .sse2 (zip 32 fun x y => x + y) o) s
/-- VPADDD (spec/52_p_pabsb-pextrw.md rule R842). -/
def execVpaddd (o : VVX) (s : State) : Host.Outcome State Fault Refusal :=
  run (vvxRun avxInt ((zip 32 fun x y => x + y) 128) o) s
/-- PSUBD (spec/54_p_pop-pxor.md rule R960). -/
def execPsubd (o : MX) (s : State) : Host.Outcome State Fault Refusal := run (mxRun .mmx .sse2 (zip 32 fun x y => x - y) o) s
/-- VPSUBD (spec/54_p_pop-pxor.md rule R960). -/
def execVpsubd (o : VVX) (s : State) : Host.Outcome State Fault Refusal :=
  run (vvxRun avxInt ((zip 32 fun x y => x - y) 128) o) s
/-- PADDQ (spec/52_p_pabsb-pextrw.md rule R843). -/
def execPaddq (o : MX) (s : State) : Host.Outcome State Fault Refusal := run (mxRun .sse2 .sse2 (zip 64 fun x y => x + y) o) s
/-- VPADDQ (spec/52_p_pabsb-pextrw.md rule R843). -/
def execVpaddq (o : VVX) (s : State) : Host.Outcome State Fault Refusal :=
  run (vvxRun avxInt ((zip 64 fun x y => x + y) 128) o) s
/-- PSUBQ (spec/54_p_pop-pxor.md rule R961). -/
def execPsubq (o : MX) (s : State) : Host.Outcome State Fault Refusal := run (mxRun .sse2 .sse2 (zip 64 fun x y => x - y) o) s
/-- VPSUBQ (spec/54_p_pop-pxor.md rule R961). -/
def execVpsubq (o : VVX) (s : State) : Host.Outcome State Fault Refusal :=
  run (vvxRun avxInt ((zip 64 fun x y => x - y) 128) o) s
/-- PADDSB (spec/52_p_pabsb-pextrw.md rule R844). -/
def execPaddsb (o : MX) (s : State) : Host.Outcome State Fault Refusal :=
  run (mxRun .mmx .sse2 (zip 8 fun x y => satS 8 (x.toInt + y.toInt)) o) s
/-- VPADDSB (spec/52_p_pabsb-pextrw.md rule R844). -/
def execVpaddsb (o : VVX) (s : State) : Host.Outcome State Fault Refusal :=
  run (vvxRun avxInt ((zip 8 fun x y => satS 8 (x.toInt + y.toInt)) 128) o) s
/-- PADDUSB (spec/52_p_pabsb-pextrw.md rule R846). -/
def execPaddusb (o : MX) (s : State) : Host.Outcome State Fault Refusal :=
  run (mxRun .mmx .sse2 (zip 8 fun x y => satU 8 (x.toNat + y.toNat)) o) s
/-- VPADDUSB (spec/52_p_pabsb-pextrw.md rule R846). -/
def execVpaddusb (o : VVX) (s : State) : Host.Outcome State Fault Refusal :=
  run (vvxRun avxInt ((zip 8 fun x y => satU 8 (x.toNat + y.toNat)) 128) o) s
/-- PSUBSB (spec/54_p_pop-pxor.md rule R962). -/
def execPsubsb (o : MX) (s : State) : Host.Outcome State Fault Refusal :=
  run (mxRun .mmx .sse2 (zip 8 fun x y => satS 8 (x.toInt - y.toInt)) o) s
/-- VPSUBSB (spec/54_p_pop-pxor.md rule R962). -/
def execVpsubsb (o : VVX) (s : State) : Host.Outcome State Fault Refusal :=
  run (vvxRun avxInt ((zip 8 fun x y => satS 8 (x.toInt - y.toInt)) 128) o) s
/-- PSUBUSB (spec/54_p_pop-pxor.md rule R964). -/
def execPsubusb (o : MX) (s : State) : Host.Outcome State Fault Refusal :=
  run (mxRun .mmx .sse2 (zip 8 fun x y => satU 8 ((x.toNat : Int) - y.toNat)) o) s
/-- VPSUBUSB (spec/54_p_pop-pxor.md rule R964). -/
def execVpsubusb (o : VVX) (s : State) : Host.Outcome State Fault Refusal :=
  run (vvxRun avxInt ((zip 8 fun x y => satU 8 ((x.toNat : Int) - y.toNat)) 128) o) s
/-- PAVGB (spec/52_p_pabsb-pextrw.md rule R852). -/
def execPavgb (o : MX) (s : State) : Host.Outcome State Fault Refusal :=
  run (mxRun .sse .sse2 (zip 8 fun x y => avgElem x y) o) s
/-- VPAVGB (spec/52_p_pabsb-pextrw.md rule R852). -/
def execVpavgb (o : VVX) (s : State) : Host.Outcome State Fault Refusal :=
  run (vvxRun avxInt ((zip 8 fun x y => avgElem x y) 128) o) s
/-- PADDSW (spec/52_p_pabsb-pextrw.md rule R845). -/
def execPaddsw (o : MX) (s : State) : Host.Outcome State Fault Refusal :=
  run (mxRun .mmx .sse2 (zip 16 fun x y => satS 16 (x.toInt + y.toInt)) o) s
/-- VPADDSW (spec/52_p_pabsb-pextrw.md rule R845). -/
def execVpaddsw (o : VVX) (s : State) : Host.Outcome State Fault Refusal :=
  run (vvxRun avxInt ((zip 16 fun x y => satS 16 (x.toInt + y.toInt)) 128) o) s
/-- PADDUSW (spec/52_p_pabsb-pextrw.md rule R847). -/
def execPaddusw (o : MX) (s : State) : Host.Outcome State Fault Refusal :=
  run (mxRun .mmx .sse2 (zip 16 fun x y => satU 16 (x.toNat + y.toNat)) o) s
/-- VPADDUSW (spec/52_p_pabsb-pextrw.md rule R847). -/
def execVpaddusw (o : VVX) (s : State) : Host.Outcome State Fault Refusal :=
  run (vvxRun avxInt ((zip 16 fun x y => satU 16 (x.toNat + y.toNat)) 128) o) s
/-- PSUBSW (spec/54_p_pop-pxor.md rule R963). -/
def execPsubsw (o : MX) (s : State) : Host.Outcome State Fault Refusal :=
  run (mxRun .mmx .sse2 (zip 16 fun x y => satS 16 (x.toInt - y.toInt)) o) s
/-- VPSUBSW (spec/54_p_pop-pxor.md rule R963). -/
def execVpsubsw (o : VVX) (s : State) : Host.Outcome State Fault Refusal :=
  run (vvxRun avxInt ((zip 16 fun x y => satS 16 (x.toInt - y.toInt)) 128) o) s
/-- PSUBUSW (spec/54_p_pop-pxor.md rule R965). -/
def execPsubusw (o : MX) (s : State) : Host.Outcome State Fault Refusal :=
  run (mxRun .mmx .sse2 (zip 16 fun x y => satU 16 ((x.toNat : Int) - y.toNat)) o) s
/-- VPSUBUSW (spec/54_p_pop-pxor.md rule R965). -/
def execVpsubusw (o : VVX) (s : State) : Host.Outcome State Fault Refusal :=
  run (vvxRun avxInt ((zip 16 fun x y => satU 16 ((x.toNat : Int) - y.toNat)) 128) o) s
/-- PAVGW (spec/52_p_pabsb-pextrw.md rule R853). -/
def execPavgw (o : MX) (s : State) : Host.Outcome State Fault Refusal :=
  run (mxRun .sse .sse2 (zip 16 fun x y => avgElem x y) o) s
/-- VPAVGW (spec/52_p_pabsb-pextrw.md rule R853). -/
def execVpavgw (o : VVX) (s : State) : Host.Outcome State Fault Refusal :=
  run (vvxRun avxInt ((zip 16 fun x y => avgElem x y) 128) o) s
/-- PCMPEQB (spec/52_p_pabsb-pextrw.md rule R857). -/
def execPcmpeqb (o : MX) (s : State) : Host.Outcome State Fault Refusal :=
  run (mxRun .mmx .sse2 (zip 8 fun x y => maskOf 8 (x == y)) o) s
/-- VPCMPEQB (spec/52_p_pabsb-pextrw.md rule R857). -/
def execVpcmpeqb (o : VVX) (s : State) : Host.Outcome State Fault Refusal :=
  run (vvxRun avxInt ((zip 8 fun x y => maskOf 8 (x == y)) 128) o) s
/-- PCMPGTB (spec/52_p_pabsb-pextrw.md rule R861). -/
def execPcmpgtb (o : MX) (s : State) : Host.Outcome State Fault Refusal :=
  run (mxRun .mmx .sse2 (zip 8 fun x y => maskOf 8 (decide (y.toInt < x.toInt))) o) s
/-- VPCMPGTB (spec/52_p_pabsb-pextrw.md rule R861). -/
def execVpcmpgtb (o : VVX) (s : State) : Host.Outcome State Fault Refusal :=
  run (vvxRun avxInt ((zip 8 fun x y => maskOf 8 (decide (y.toInt < x.toInt))) 128) o) s
/-- PCMPEQW (spec/52_p_pabsb-pextrw.md rule R858). -/
def execPcmpeqw (o : MX) (s : State) : Host.Outcome State Fault Refusal :=
  run (mxRun .mmx .sse2 (zip 16 fun x y => maskOf 16 (x == y)) o) s
/-- VPCMPEQW (spec/52_p_pabsb-pextrw.md rule R858). -/
def execVpcmpeqw (o : VVX) (s : State) : Host.Outcome State Fault Refusal :=
  run (vvxRun avxInt ((zip 16 fun x y => maskOf 16 (x == y)) 128) o) s
/-- PCMPGTW (spec/52_p_pabsb-pextrw.md rule R862). -/
def execPcmpgtw (o : MX) (s : State) : Host.Outcome State Fault Refusal :=
  run (mxRun .mmx .sse2 (zip 16 fun x y => maskOf 16 (decide (y.toInt < x.toInt))) o) s
/-- VPCMPGTW (spec/52_p_pabsb-pextrw.md rule R862). -/
def execVpcmpgtw (o : VVX) (s : State) : Host.Outcome State Fault Refusal :=
  run (vvxRun avxInt ((zip 16 fun x y => maskOf 16 (decide (y.toInt < x.toInt))) 128) o) s
/-- PCMPEQD (spec/52_p_pabsb-pextrw.md rule R859). -/
def execPcmpeqd (o : MX) (s : State) : Host.Outcome State Fault Refusal :=
  run (mxRun .mmx .sse2 (zip 32 fun x y => maskOf 32 (x == y)) o) s
/-- VPCMPEQD (spec/52_p_pabsb-pextrw.md rule R859). -/
def execVpcmpeqd (o : VVX) (s : State) : Host.Outcome State Fault Refusal :=
  run (vvxRun avxInt ((zip 32 fun x y => maskOf 32 (x == y)) 128) o) s
/-- PCMPGTD (spec/52_p_pabsb-pextrw.md rule R863). -/
def execPcmpgtd (o : MX) (s : State) : Host.Outcome State Fault Refusal :=
  run (mxRun .mmx .sse2 (zip 32 fun x y => maskOf 32 (decide (y.toInt < x.toInt))) o) s
/-- VPCMPGTD (spec/52_p_pabsb-pextrw.md rule R863). -/
def execVpcmpgtd (o : VVX) (s : State) : Host.Outcome State Fault Refusal :=
  run (vvxRun avxInt ((zip 32 fun x y => maskOf 32 (decide (y.toInt < x.toInt))) 128) o) s
/-- PCMPEQQ (spec/52_p_pabsb-pextrw.md rule R860). -/
def execPcmpeqq (o : XX) (s : State) : Host.Outcome State Fault Refusal :=
  run (xxRun .sse41 ((zip 64 fun x y => maskOf 64 (x == y)) 128) o) s
/-- VPCMPEQQ (spec/52_p_pabsb-pextrw.md rule R860). -/
def execVpcmpeqq (o : VVX) (s : State) : Host.Outcome State Fault Refusal :=
  run (vvxRun avxInt ((zip 64 fun x y => maskOf 64 (x == y)) 128) o) s
/-- PCMPGTQ (spec/52_p_pabsb-pextrw.md rule R864). -/
def execPcmpgtq (o : XX) (s : State) : Host.Outcome State Fault Refusal :=
  run (xxRun .sse42 ((zip 64 fun x y => maskOf 64 (decide (y.toInt < x.toInt))) 128) o) s
/-- VPCMPGTQ (spec/52_p_pabsb-pextrw.md rule R864). -/
def execVpcmpgtq (o : VVX) (s : State) : Host.Outcome State Fault Refusal :=
  run (vvxRun avxInt ((zip 64 fun x y => maskOf 64 (decide (y.toInt < x.toInt))) 128) o) s
/-- PACKSSWB (spec/52_p_pabsb-pextrw.md rule R836). -/
def execPacksswb (o : MX) (s : State) : Host.Outcome State Fault Refusal := run (mxRun .mmx .sse2 (packTo 16 (satS 8)) o) s
/-- VPACKSSWB (spec/52_p_pabsb-pextrw.md rule R836). -/
def execVpacksswb (o : VVX) (s : State) : Host.Outcome State Fault Refusal :=
  run (vvxRun avxInt ((packTo 16 (satS 8)) 128) o) s
/-- PACKSSDW (spec/52_p_pabsb-pextrw.md rule R837). -/
def execPackssdw (o : MX) (s : State) : Host.Outcome State Fault Refusal := run (mxRun .mmx .sse2 (packTo 32 (satS 16)) o) s
/-- VPACKSSDW (spec/52_p_pabsb-pextrw.md rule R837). -/
def execVpackssdw (o : VVX) (s : State) : Host.Outcome State Fault Refusal :=
  run (vvxRun avxInt ((packTo 32 (satS 16)) 128) o) s
/-- PACKUSWB (spec/52_p_pabsb-pextrw.md rule R839). -/
def execPackuswb (o : MX) (s : State) : Host.Outcome State Fault Refusal := run (mxRun .mmx .sse2 (packTo 16 (satU 8)) o) s
/-- VPACKUSWB (spec/52_p_pabsb-pextrw.md rule R839). -/
def execVpackuswb (o : VVX) (s : State) : Host.Outcome State Fault Refusal :=
  run (vvxRun avxInt ((packTo 16 (satU 8)) 128) o) s
/-- PACKUSDW (spec/52_p_pabsb-pextrw.md rule R838). -/
def execPackusdw (o : XX) (s : State) : Host.Outcome State Fault Refusal := run (xxRun .sse41 ((packTo 32 (satU 16)) 128) o) s
/-- VPACKUSDW (spec/52_p_pabsb-pextrw.md rule R838). -/
def execVpackusdw (o : VVX) (s : State) : Host.Outcome State Fault Refusal :=
  run (vvxRun avxInt ((packTo 32 (satU 16)) 128) o) s
/-- PAND (spec/52_p_pabsb-pextrw.md rule R849). -/
def execPand (o : MX) (s : State) : Host.Outcome State Fault Refusal := run (mxRun .mmx .sse2 andVec o) s
/-- VPAND (spec/52_p_pabsb-pextrw.md rule R849). -/
def execVpand (o : VVX) (s : State) : Host.Outcome State Fault Refusal := run (vvxRun avxInt (andVec 128) o) s
/-- PANDN (spec/52_p_pabsb-pextrw.md rule R850). -/
def execPandn (o : MX) (s : State) : Host.Outcome State Fault Refusal := run (mxRun .mmx .sse2 andNot o) s
/-- VPANDN (spec/52_p_pabsb-pextrw.md rule R850). -/
def execVpandn (o : VVX) (s : State) : Host.Outcome State Fault Refusal := run (vvxRun avxInt (andNot 128) o) s
/-- POR (spec/54_p_pop-pxor.md rule R930). -/
def execPor (o : MX) (s : State) : Host.Outcome State Fault Refusal := run (mxRun .mmx .sse2 orVec o) s
/-- VPOR (spec/54_p_pop-pxor.md rule R930). -/
def execVpor (o : VVX) (s : State) : Host.Outcome State Fault Refusal := run (vvxRun avxInt (orVec 128) o) s
/-- PXOR (spec/54_p_pop-pxor.md rule R931). -/
def execPxor (o : MX) (s : State) : Host.Outcome State Fault Refusal := run (mxRun .mmx .sse2 xorVec o) s
/-- VPXOR (spec/54_p_pop-pxor.md rule R931). -/
def execVpxor (o : VVX) (s : State) : Host.Outcome State Fault Refusal := run (vvxRun avxInt (xorVec 128) o) s
/-- PABSB (spec/52_p_pabsb-pextrw.md rule R833). -/
def execPabsb (o : MX) (s : State) : Host.Outcome State Fault Refusal :=
  run (mxRun .ssse3 .ssse3 (srcOnly (each 8 absElem)) o) s
/-- VPABSB (spec/52_p_pabsb-pextrw.md rule R833). -/
def execVpabsb (o : VX) (s : State) : Host.Outcome State Fault Refusal := run (vxRun avxInt ((each 8 absElem) 128) o) s
/-- PSIGNB (spec/54_p_pop-pxor.md rule R944). -/
def execPsignb (o : MX) (s : State) : Host.Outcome State Fault Refusal :=
  run (mxRun .ssse3 .ssse3 (zip 8 fun x y => signElem x y) o) s
/-- VPSIGNB (spec/54_p_pop-pxor.md rule R944). -/
def execVpsignb (o : VVX) (s : State) : Host.Outcome State Fault Refusal :=
  run (vvxRun avxInt ((zip 8 fun x y => signElem x y) 128) o) s
/-- PABSW (spec/52_p_pabsb-pextrw.md rule R834). -/
def execPabsw (o : MX) (s : State) : Host.Outcome State Fault Refusal :=
  run (mxRun .ssse3 .ssse3 (srcOnly (each 16 absElem)) o) s
/-- VPABSW (spec/52_p_pabsb-pextrw.md rule R834). -/
def execVpabsw (o : VX) (s : State) : Host.Outcome State Fault Refusal := run (vxRun avxInt ((each 16 absElem) 128) o) s
/-- PSIGNW (spec/54_p_pop-pxor.md rule R945). -/
def execPsignw (o : MX) (s : State) : Host.Outcome State Fault Refusal :=
  run (mxRun .ssse3 .ssse3 (zip 16 fun x y => signElem x y) o) s
/-- VPSIGNW (spec/54_p_pop-pxor.md rule R945). -/
def execVpsignw (o : VVX) (s : State) : Host.Outcome State Fault Refusal :=
  run (vvxRun avxInt ((zip 16 fun x y => signElem x y) 128) o) s
/-- PABSD (spec/52_p_pabsb-pextrw.md rule R835). -/
def execPabsd (o : MX) (s : State) : Host.Outcome State Fault Refusal :=
  run (mxRun .ssse3 .ssse3 (srcOnly (each 32 absElem)) o) s
/-- VPABSD (spec/52_p_pabsb-pextrw.md rule R835). -/
def execVpabsd (o : VX) (s : State) : Host.Outcome State Fault Refusal := run (vxRun avxInt ((each 32 absElem) 128) o) s
/-- PSIGND (spec/54_p_pop-pxor.md rule R946). -/
def execPsignd (o : MX) (s : State) : Host.Outcome State Fault Refusal :=
  run (mxRun .ssse3 .ssse3 (zip 32 fun x y => signElem x y) o) s
/-- VPSIGND (spec/54_p_pop-pxor.md rule R946). -/
def execVpsignd (o : VVX) (s : State) : Host.Outcome State Fault Refusal :=
  run (vvxRun avxInt ((zip 32 fun x y => signElem x y) 128) o) s
/-- PHADDW (spec/53_p_phaddw-pmuludq.md rule R876). -/
def execPhaddw (o : MX) (s : State) : Host.Outcome State Fault Refusal :=
  run (mxRun .ssse3 .ssse3 (horizontal 16 fun x y => x + y) o) s
/-- VPHADDW (spec/53_p_phaddw-pmuludq.md rule R876). -/
def execVphaddw (o : VVX) (s : State) : Host.Outcome State Fault Refusal :=
  run (vvxRun avxInt ((horizontal 16 fun x y => x + y) 128) o) s
/-- PHADDD (spec/53_p_phaddw-pmuludq.md rule R877). -/
def execPhaddd (o : MX) (s : State) : Host.Outcome State Fault Refusal :=
  run (mxRun .ssse3 .ssse3 (horizontal 32 fun x y => x + y) o) s
/-- VPHADDD (spec/53_p_phaddw-pmuludq.md rule R877). -/
def execVphaddd (o : VVX) (s : State) : Host.Outcome State Fault Refusal :=
  run (vvxRun avxInt ((horizontal 32 fun x y => x + y) 128) o) s
/-- PHADDSW (spec/53_p_phaddw-pmuludq.md rule R878). -/
def execPhaddsw (o : MX) (s : State) : Host.Outcome State Fault Refusal :=
  run (mxRun .ssse3 .ssse3 (horizontal 16 fun x y => satS 16 (x.toInt + y.toInt)) o) s
/-- VPHADDSW (spec/53_p_phaddw-pmuludq.md rule R878). -/
def execVphaddsw (o : VVX) (s : State) : Host.Outcome State Fault Refusal :=
  run (vvxRun avxInt ((horizontal 16 fun x y => satS 16 (x.toInt + y.toInt)) 128) o) s
/-- PHSUBW (spec/53_p_phaddw-pmuludq.md rule R880). -/
def execPhsubw (o : MX) (s : State) : Host.Outcome State Fault Refusal :=
  run (mxRun .ssse3 .ssse3 (horizontal 16 fun x y => x - y) o) s
/-- VPHSUBW (spec/53_p_phaddw-pmuludq.md rule R880). -/
def execVphsubw (o : VVX) (s : State) : Host.Outcome State Fault Refusal :=
  run (vvxRun avxInt ((horizontal 16 fun x y => x - y) 128) o) s
/-- PHSUBD (spec/53_p_phaddw-pmuludq.md rule R881). -/
def execPhsubd (o : MX) (s : State) : Host.Outcome State Fault Refusal :=
  run (mxRun .ssse3 .ssse3 (horizontal 32 fun x y => x - y) o) s
/-- VPHSUBD (spec/53_p_phaddw-pmuludq.md rule R881). -/
def execVphsubd (o : VVX) (s : State) : Host.Outcome State Fault Refusal :=
  run (vvxRun avxInt ((horizontal 32 fun x y => x - y) 128) o) s
/-- PHSUBSW (spec/53_p_phaddw-pmuludq.md rule R882). -/
def execPhsubsw (o : MX) (s : State) : Host.Outcome State Fault Refusal :=
  run (mxRun .ssse3 .ssse3 (horizontal 16 fun x y => satS 16 (x.toInt - y.toInt)) o) s
/-- VPHSUBSW (spec/53_p_phaddw-pmuludq.md rule R882). -/
def execVphsubsw (o : VVX) (s : State) : Host.Outcome State Fault Refusal :=
  run (vvxRun avxInt ((horizontal 16 fun x y => satS 16 (x.toInt - y.toInt)) 128) o) s
/-- PMADDUBSW (spec/53_p_phaddw-pmuludq.md rule R887). -/
def execPmaddubsw (o : MX) (s : State) : Host.Outcome State Fault Refusal := run (mxRun .ssse3 .ssse3 (zip 16 maddUbs) o) s
/-- VPMADDUBSW (spec/53_p_phaddw-pmuludq.md rule R887). -/
def execVpmaddubsw (o : VVX) (s : State) : Host.Outcome State Fault Refusal := run (vvxRun avxInt ((zip 16 maddUbs) 128) o) s
/-- PMADDWD (spec/53_p_phaddw-pmuludq.md rule R888). -/
def execPmaddwd (o : MX) (s : State) : Host.Outcome State Fault Refusal := run (mxRun .mmx .sse2 (zip 32 maddWd) o) s
/-- VPMADDWD (spec/53_p_phaddw-pmuludq.md rule R888). -/
def execVpmaddwd (o : VVX) (s : State) : Host.Outcome State Fault Refusal := run (vvxRun avxInt ((zip 32 maddWd) 128) o) s
/-- PMAXSB (spec/53_p_phaddw-pmuludq.md rule R889). -/
def execPmaxsb (o : XX) (s : State) : Host.Outcome State Fault Refusal :=
  run (xxRun .sse41 ((zip 8 fun x y => if y.toInt < x.toInt then x else y) 128) o) s
/-- VPMAXSB (spec/53_p_phaddw-pmuludq.md rule R889). -/
def execVpmaxsb (o : VVX) (s : State) : Host.Outcome State Fault Refusal :=
  run (vvxRun avxInt ((zip 8 fun x y => if y.toInt < x.toInt then x else y) 128) o) s
/-- PMINSB (spec/53_p_phaddw-pmuludq.md rule R895). -/
def execPminsb (o : XX) (s : State) : Host.Outcome State Fault Refusal :=
  run (xxRun .sse41 ((zip 8 fun x y => if x.toInt < y.toInt then x else y) 128) o) s
/-- VPMINSB (spec/53_p_phaddw-pmuludq.md rule R895). -/
def execVpminsb (o : VVX) (s : State) : Host.Outcome State Fault Refusal :=
  run (vvxRun avxInt ((zip 8 fun x y => if x.toInt < y.toInt then x else y) 128) o) s
/-- PMAXSD (spec/53_p_phaddw-pmuludq.md rule R890). -/
def execPmaxsd (o : XX) (s : State) : Host.Outcome State Fault Refusal :=
  run (xxRun .sse41 ((zip 32 fun x y => if y.toInt < x.toInt then x else y) 128) o) s
/-- VPMAXSD (spec/53_p_phaddw-pmuludq.md rule R890). -/
def execVpmaxsd (o : VVX) (s : State) : Host.Outcome State Fault Refusal :=
  run (vvxRun avxInt ((zip 32 fun x y => if y.toInt < x.toInt then x else y) 128) o) s
/-- PMINSD (spec/53_p_phaddw-pmuludq.md rule R896). -/
def execPminsd (o : XX) (s : State) : Host.Outcome State Fault Refusal :=
  run (xxRun .sse41 ((zip 32 fun x y => if x.toInt < y.toInt then x else y) 128) o) s
/-- VPMINSD (spec/53_p_phaddw-pmuludq.md rule R896). -/
def execVpminsd (o : VVX) (s : State) : Host.Outcome State Fault Refusal :=
  run (vvxRun avxInt ((zip 32 fun x y => if x.toInt < y.toInt then x else y) 128) o) s
/-- PMAXSW (spec/53_p_phaddw-pmuludq.md rule R891). -/
def execPmaxsw (o : MX) (s : State) : Host.Outcome State Fault Refusal :=
  run (mxRun .sse .sse2 (zip 16 fun x y => if y.toInt < x.toInt then x else y) o) s
/-- VPMAXSW (spec/53_p_phaddw-pmuludq.md rule R891). -/
def execVpmaxsw (o : VVX) (s : State) : Host.Outcome State Fault Refusal :=
  run (vvxRun avxInt ((zip 16 fun x y => if y.toInt < x.toInt then x else y) 128) o) s
/-- PMINSW (spec/53_p_phaddw-pmuludq.md rule R897). -/
def execPminsw (o : MX) (s : State) : Host.Outcome State Fault Refusal :=
  run (mxRun .sse .sse2 (zip 16 fun x y => if x.toInt < y.toInt then x else y) o) s
/-- VPMINSW (spec/53_p_phaddw-pmuludq.md rule R897). -/
def execVpminsw (o : VVX) (s : State) : Host.Outcome State Fault Refusal :=
  run (vvxRun avxInt ((zip 16 fun x y => if x.toInt < y.toInt then x else y) 128) o) s
/-- PMAXUB (spec/53_p_phaddw-pmuludq.md rule R892). -/
def execPmaxub (o : MX) (s : State) : Host.Outcome State Fault Refusal :=
  run (mxRun .sse .sse2 (zip 8 fun x y => if y.toNat < x.toNat then x else y) o) s
/-- VPMAXUB (spec/53_p_phaddw-pmuludq.md rule R892). -/
def execVpmaxub (o : VVX) (s : State) : Host.Outcome State Fault Refusal :=
  run (vvxRun avxInt ((zip 8 fun x y => if y.toNat < x.toNat then x else y) 128) o) s
/-- PMINUB (spec/53_p_phaddw-pmuludq.md rule R898). -/
def execPminub (o : MX) (s : State) : Host.Outcome State Fault Refusal :=
  run (mxRun .sse .sse2 (zip 8 fun x y => if x.toNat < y.toNat then x else y) o) s
/-- VPMINUB (spec/53_p_phaddw-pmuludq.md rule R898). -/
def execVpminub (o : VVX) (s : State) : Host.Outcome State Fault Refusal :=
  run (vvxRun avxInt ((zip 8 fun x y => if x.toNat < y.toNat then x else y) 128) o) s
/-- PMAXUD (spec/53_p_phaddw-pmuludq.md rule R893). -/
def execPmaxud (o : XX) (s : State) : Host.Outcome State Fault Refusal :=
  run (xxRun .sse41 ((zip 32 fun x y => if y.toNat < x.toNat then x else y) 128) o) s
/-- VPMAXUD (spec/53_p_phaddw-pmuludq.md rule R893). -/
def execVpmaxud (o : VVX) (s : State) : Host.Outcome State Fault Refusal :=
  run (vvxRun avxInt ((zip 32 fun x y => if y.toNat < x.toNat then x else y) 128) o) s
/-- PMINUD (spec/53_p_phaddw-pmuludq.md rule R899). -/
def execPminud (o : XX) (s : State) : Host.Outcome State Fault Refusal :=
  run (xxRun .sse41 ((zip 32 fun x y => if x.toNat < y.toNat then x else y) 128) o) s
/-- VPMINUD (spec/53_p_phaddw-pmuludq.md rule R899). -/
def execVpminud (o : VVX) (s : State) : Host.Outcome State Fault Refusal :=
  run (vvxRun avxInt ((zip 32 fun x y => if x.toNat < y.toNat then x else y) 128) o) s
/-- PMAXUW (spec/53_p_phaddw-pmuludq.md rule R894). -/
def execPmaxuw (o : XX) (s : State) : Host.Outcome State Fault Refusal :=
  run (xxRun .sse41 ((zip 16 fun x y => if y.toNat < x.toNat then x else y) 128) o) s
/-- VPMAXUW (spec/53_p_phaddw-pmuludq.md rule R894). -/
def execVpmaxuw (o : VVX) (s : State) : Host.Outcome State Fault Refusal :=
  run (vvxRun avxInt ((zip 16 fun x y => if y.toNat < x.toNat then x else y) 128) o) s
/-- PMINUW (spec/53_p_phaddw-pmuludq.md rule R900). -/
def execPminuw (o : XX) (s : State) : Host.Outcome State Fault Refusal :=
  run (xxRun .sse41 ((zip 16 fun x y => if x.toNat < y.toNat then x else y) 128) o) s
/-- VPMINUW (spec/53_p_phaddw-pmuludq.md rule R900). -/
def execVpminuw (o : VVX) (s : State) : Host.Outcome State Fault Refusal :=
  run (vvxRun avxInt ((zip 16 fun x y => if x.toNat < y.toNat then x else y) 128) o) s
/-- PMULDQ (spec/53_p_phaddw-pmuludq.md rule R914). -/
def execPmuldq (o : XX) (s : State) : Host.Outcome State Fault Refusal := run (xxRun .sse41 ((zip 64 mulLowS) 128) o) s
/-- VPMULDQ (spec/53_p_phaddw-pmuludq.md rule R914). -/
def execVpmuldq (o : VVX) (s : State) : Host.Outcome State Fault Refusal := run (vvxRun avxInt ((zip 64 mulLowS) 128) o) s
/-- PMULUDQ (spec/53_p_phaddw-pmuludq.md rule R920). -/
def execPmuludq (o : MX) (s : State) : Host.Outcome State Fault Refusal := run (mxRun .sse2 .sse2 (zip 64 mulLowU) o) s
/-- VPMULUDQ (spec/53_p_phaddw-pmuludq.md rule R920). -/
def execVpmuludq (o : VVX) (s : State) : Host.Outcome State Fault Refusal := run (vvxRun avxInt ((zip 64 mulLowU) 128) o) s
/-- PMULHRSW (spec/53_p_phaddw-pmuludq.md rule R915). -/
def execPmulhrsw (o : MX) (s : State) : Host.Outcome State Fault Refusal := run (mxRun .ssse3 .ssse3 (zip 16 mulHrs) o) s
/-- VPMULHRSW (spec/53_p_phaddw-pmuludq.md rule R915). -/
def execVpmulhrsw (o : VVX) (s : State) : Host.Outcome State Fault Refusal := run (vvxRun avxInt ((zip 16 mulHrs) 128) o) s
/-- PMULHUW (spec/53_p_phaddw-pmuludq.md rule R916). -/
def execPmulhuw (o : MX) (s : State) : Host.Outcome State Fault Refusal := run (mxRun .sse .sse2 (zip 16 mulHighU) o) s
/-- VPMULHUW (spec/53_p_phaddw-pmuludq.md rule R916). -/
def execVpmulhuw (o : VVX) (s : State) : Host.Outcome State Fault Refusal := run (vvxRun avxInt ((zip 16 mulHighU) 128) o) s
/-- PMULHW (spec/53_p_phaddw-pmuludq.md rule R917). -/
def execPmulhw (o : MX) (s : State) : Host.Outcome State Fault Refusal := run (mxRun .mmx .sse2 (zip 16 mulHigh) o) s
/-- VPMULHW (spec/53_p_phaddw-pmuludq.md rule R917). -/
def execVpmulhw (o : VVX) (s : State) : Host.Outcome State Fault Refusal := run (vvxRun avxInt ((zip 16 mulHigh) 128) o) s
/-- PMULLD (spec/53_p_phaddw-pmuludq.md rule R918). -/
def execPmulld (o : XX) (s : State) : Host.Outcome State Fault Refusal :=
  run (xxRun .sse41 ((zip 32 fun x y => x * y) 128) o) s
/-- VPMULLD (spec/53_p_phaddw-pmuludq.md rule R918). -/
def execVpmulld (o : VVX) (s : State) : Host.Outcome State Fault Refusal :=
  run (vvxRun avxInt ((zip 32 fun x y => x * y) 128) o) s
/-- PMULLW (spec/53_p_phaddw-pmuludq.md rule R919). -/
def execPmullw (o : MX) (s : State) : Host.Outcome State Fault Refusal := run (mxRun .mmx .sse2 (zip 16 fun x y => x * y) o) s
/-- VPMULLW (spec/53_p_phaddw-pmuludq.md rule R919). -/
def execVpmullw (o : VVX) (s : State) : Host.Outcome State Fault Refusal :=
  run (vvxRun avxInt ((zip 16 fun x y => x * y) 128) o) s
/-- PSADBW (spec/54_p_pop-pxor.md rule R938). -/
def execPsadbw (o : MX) (s : State) : Host.Outcome State Fault Refusal := run (mxRun .sse .sse2 (zip 64 sadBytes) o) s
/-- VPSADBW (spec/54_p_pop-pxor.md rule R938). -/
def execVpsadbw (o : VVX) (s : State) : Host.Outcome State Fault Refusal := run (vvxRun avxInt ((zip 64 sadBytes) 128) o) s
/-- PSHUFB (spec/54_p_pop-pxor.md rule R939). -/
def execPshufb (o : MX) (s : State) : Host.Outcome State Fault Refusal := run (mxRun .ssse3 .ssse3 shuffleBytes o) s
/-- VPSHUFB (spec/54_p_pop-pxor.md rule R939). -/
def execVpshufb (o : VVX) (s : State) : Host.Outcome State Fault Refusal := run (vvxRun avxInt (shuffleBytes 128) o) s
/-- PUNPCKHBW (spec/54_p_pop-pxor.md rule R967). -/
def execPunpckhbw (o : MX) (s : State) : Host.Outcome State Fault Refusal := run (mxRun .mmx .sse2 (unpackHigh 8) o) s
/-- VPUNPCKHBW (spec/54_p_pop-pxor.md rule R967). -/
def execVpunpckhbw (o : VVX) (s : State) : Host.Outcome State Fault Refusal := run (vvxRun avxInt ((unpackHigh 8) 128) o) s
/-- PUNPCKLBW (spec/54_p_pop-pxor.md rule R971). -/
def execPunpcklbw (o : MX) (s : State) : Host.Outcome State Fault Refusal := run (mxnRun 4 .mmx .sse2 (unpackLow 8) o) s
/-- VPUNPCKLBW (spec/54_p_pop-pxor.md rule R971). -/
def execVpunpcklbw (o : VVX) (s : State) : Host.Outcome State Fault Refusal := run (vvxRun avxInt (unpackLow 8 128) o) s
/-- PUNPCKHWD (spec/54_p_pop-pxor.md rule R968). -/
def execPunpckhwd (o : MX) (s : State) : Host.Outcome State Fault Refusal := run (mxRun .mmx .sse2 (unpackHigh 16) o) s
/-- VPUNPCKHWD (spec/54_p_pop-pxor.md rule R968). -/
def execVpunpckhwd (o : VVX) (s : State) : Host.Outcome State Fault Refusal := run (vvxRun avxInt ((unpackHigh 16) 128) o) s
/-- PUNPCKLWD (spec/54_p_pop-pxor.md rule R972). -/
def execPunpcklwd (o : MX) (s : State) : Host.Outcome State Fault Refusal := run (mxnRun 4 .mmx .sse2 (unpackLow 16) o) s
/-- VPUNPCKLWD (spec/54_p_pop-pxor.md rule R972). -/
def execVpunpcklwd (o : VVX) (s : State) : Host.Outcome State Fault Refusal := run (vvxRun avxInt (unpackLow 16 128) o) s
/-- PUNPCKHDQ (spec/54_p_pop-pxor.md rule R969). -/
def execPunpckhdq (o : MX) (s : State) : Host.Outcome State Fault Refusal := run (mxRun .mmx .sse2 (unpackHigh 32) o) s
/-- VPUNPCKHDQ (spec/54_p_pop-pxor.md rule R969). -/
def execVpunpckhdq (o : VVX) (s : State) : Host.Outcome State Fault Refusal := run (vvxRun avxInt ((unpackHigh 32) 128) o) s
/-- PUNPCKLDQ (spec/54_p_pop-pxor.md rule R973). -/
def execPunpckldq (o : MX) (s : State) : Host.Outcome State Fault Refusal := run (mxnRun 4 .mmx .sse2 (unpackLow 32) o) s
/-- VPUNPCKLDQ (spec/54_p_pop-pxor.md rule R973). -/
def execVpunpckldq (o : VVX) (s : State) : Host.Outcome State Fault Refusal := run (vvxRun avxInt (unpackLow 32 128) o) s
/-- PUNPCKHQDQ (spec/54_p_pop-pxor.md rule R970). -/
def execPunpckhqdq (o : XX) (s : State) : Host.Outcome State Fault Refusal := run (xxRun .sse2 ((unpackHigh 64) 128) o) s
/-- VPUNPCKHQDQ (spec/54_p_pop-pxor.md rule R970). -/
def execVpunpckhqdq (o : VVX) (s : State) : Host.Outcome State Fault Refusal := run (vvxRun avxInt ((unpackHigh 64) 128) o) s
/-- PUNPCKLQDQ (spec/54_p_pop-pxor.md rule R974). -/
def execPunpcklqdq (o : XX) (s : State) : Host.Outcome State Fault Refusal := run (xxRun .sse2 ((unpackLow 64) 128) o) s
/-- VPUNPCKLQDQ (spec/54_p_pop-pxor.md rule R974). -/
def execVpunpcklqdq (o : VVX) (s : State) : Host.Outcome State Fault Refusal := run (vvxRun avxInt ((unpackLow 64) 128) o) s
/-- PHMINPOSUW (spec/53_p_phaddw-pmuludq.md rule R879). -/
def execPhminposuw (o : XX) (s : State) : Host.Outcome State Fault Refusal := run (xxRun .sse41 (fun _ b => minPos b) o) s
/-- VPHMINPOSUW (spec/53_p_phaddw-pmuludq.md rule R879). -/
def execVphminposuw (o : VX) (s : State) : Host.Outcome State Fault Refusal := run (vxRun avx minPos o) s
/-- PSHUFD (spec/54_p_pop-pxor.md rule R940). -/
def execPshufd (o : XXI) (s : State) : Host.Outcome State Fault Refusal := run (xxiRun .sse2 (fun i _ b => shuffleD i b) o) s
/-- VPSHUFD (spec/54_p_pop-pxor.md rule R940). -/
def execVpshufd (o : VXI) (s : State) : Host.Outcome State Fault Refusal := run (vxiRun avxInt shuffleD o) s
/-- PSHUFHW (spec/54_p_pop-pxor.md rule R941). -/
def execPshufhw (o : XXI) (s : State) : Host.Outcome State Fault Refusal :=
  run (xxiRun .sse2 (fun i _ b => shuffleHw i b) o) s
/-- VPSHUFHW (spec/54_p_pop-pxor.md rule R941). -/
def execVpshufhw (o : VXI) (s : State) : Host.Outcome State Fault Refusal := run (vxiRun avxInt shuffleHw o) s
/-- PSHUFLW (spec/54_p_pop-pxor.md rule R942). -/
def execPshuflw (o : XXI) (s : State) : Host.Outcome State Fault Refusal :=
  run (xxiRun .sse2 (fun i _ b => shuffleLw i b) o) s
/-- VPSHUFLW (spec/54_p_pop-pxor.md rule R942). -/
def execVpshuflw (o : VXI) (s : State) : Host.Outcome State Fault Refusal := run (vxiRun avxInt shuffleLw o) s
/-- PSHUFW (spec/54_p_pop-pxor.md rule R943). -/
def execPshufw (o : MMI) (s : State) : Host.Outcome State Fault Refusal := run (do
  needMmx .sse
  let b ← readMmM 8 o.src
  writeMm o.dst (shuffleW o.imm b)
  enterMmx) s
/-- PALIGNR (spec/52_p_pabsb-pextrw.md rule R848). -/
def execPalignr (o : MXI) (s : State) : Host.Outcome State Fault Refusal := run (do
  match o with
  | .mm dst src imm => mxRun .ssse3 .ssse3 (alignRight imm) (.mm dst src)
  | .xx dst src imm => mxRun .ssse3 .ssse3 (alignRight imm) (.xx dst src)) s
/-- VPALIGNR (spec/52_p_pabsb-pextrw.md rule R848). -/
def execVpalignr (o : VVXI) (s : State) : Host.Outcome State Fault Refusal :=
  run (vvxiRun avxInt (fun i => alignRight i 128) o) s
/-- PBLENDW (spec/52_p_pabsb-pextrw.md rule R855). -/
def execPblendw (o : XXI) (s : State) : Host.Outcome State Fault Refusal := run (xxiRun .sse41 blendW o) s
/-- VPBLENDW (spec/52_p_pabsb-pextrw.md rule R855). -/
def execVpblendw (o : VVXI) (s : State) : Host.Outcome State Fault Refusal := run (vvxiRun avxInt blendW o) s
/-- PBLENDVB (spec/52_p_pabsb-pextrw.md rule R854). -/
def execPblendvb (o : XX) (s : State) : Host.Outcome State Fault Refusal := run (do
  needSse .sse41
  let b ← readXm .size 16 o.src
  writeXmm o.dst (blendByTop 8 (← readXmm 0) (← readXmm o.dst) b)) s
/-- VPBLENDVB (spec/52_p_pabsb-pextrw.md rule R854). -/
def execVpblendvb (o : VVXR) (s : State) : Host.Outcome State Fault Refusal := run (do
  needVex (avxInt o.l)
  let b ← readVx o.l o.b
  writeVec o.dst (blendByTop 8 (← readVec o.l o.c) (← readVec o.l o.a) b)) s
/-- PCLMULQDQ (spec/52_p_pabsb-pextrw.md rule R856). -/
def execPclmulqdq (o : XXI) (s : State) : Host.Outcome State Fault Refusal := run (xxiRun .pclmulqdq clmulSel o) s
/-- VPCLMULQDQ (spec/52_p_pabsb-pextrw.md rule R856). -/
def execVpclmulqdq (o : VVXI) (s : State) : Host.Outcome State Fault Refusal :=
  run (vvxiRun (fun _ => [.pclmulqdq, .avx]) clmulSel o) s
/-- MPSADBW (spec/51_m_movs-outs.md rule R816). -/
def execMpsadbw (o : XXI) (s : State) : Host.Outcome State Fault Refusal :=
  run (xxiRun .sse41 (fun i => mpsad (i.extractLsb' 0 3)) o) s
/-- VMPSADBW (spec/51_m_movs-outs.md rule R816). -/
def execVmpsadbw (o : VVXI) (s : State) : Host.Outcome State Fault Refusal := run (do
  needVex (avxInt o.l)
  let b ← readVx o.l o.b
  writeVec o.dst (mpsadVec o.imm o.l (← readVec o.l o.a) b)) s
/-- PMOVSXBW (spec/53_p_phaddw-pmuludq.md rule R902). -/
def execPmovsxbw (o : XX) (s : State) : Host.Outcome State Fault Refusal := run (xnRun .sse41 8 (extendTo true 128 8 16) o) s
/-- VPMOVSXBW (spec/53_p_phaddw-pmuludq.md rule R902). -/
def execVpmovsxbw (o : VX) (s : State) : Host.Outcome State Fault Refusal :=
  run (vnRun avxInt (fun l => vbytes l / 2) (extendTo true 256 8 16) o) s
/-- PMOVSXBD (spec/53_p_phaddw-pmuludq.md rule R903). -/
def execPmovsxbd (o : XX) (s : State) : Host.Outcome State Fault Refusal := run (xnRun .sse41 4 (extendTo true 128 8 32) o) s
/-- VPMOVSXBD (spec/53_p_phaddw-pmuludq.md rule R903). -/
def execVpmovsxbd (o : VX) (s : State) : Host.Outcome State Fault Refusal :=
  run (vnRun avxInt (fun l => vbytes l / 4) (extendTo true 256 8 32) o) s
/-- PMOVSXBQ (spec/53_p_phaddw-pmuludq.md rule R904). -/
def execPmovsxbq (o : XX) (s : State) : Host.Outcome State Fault Refusal := run (xnRun .sse41 2 (extendTo true 128 8 64) o) s
/-- VPMOVSXBQ (spec/53_p_phaddw-pmuludq.md rule R904). -/
def execVpmovsxbq (o : VX) (s : State) : Host.Outcome State Fault Refusal :=
  run (vnRun avxInt (fun l => vbytes l / 8) (extendTo true 256 8 64) o) s
/-- PMOVSXWD (spec/53_p_phaddw-pmuludq.md rule R905). -/
def execPmovsxwd (o : XX) (s : State) : Host.Outcome State Fault Refusal := run (xnRun .sse41 8 (extendTo true 128 16 32) o) s
/-- VPMOVSXWD (spec/53_p_phaddw-pmuludq.md rule R905). -/
def execVpmovsxwd (o : VX) (s : State) : Host.Outcome State Fault Refusal :=
  run (vnRun avxInt (fun l => vbytes l / 2) (extendTo true 256 16 32) o) s
/-- PMOVSXWQ (spec/53_p_phaddw-pmuludq.md rule R906). -/
def execPmovsxwq (o : XX) (s : State) : Host.Outcome State Fault Refusal := run (xnRun .sse41 4 (extendTo true 128 16 64) o) s
/-- VPMOVSXWQ (spec/53_p_phaddw-pmuludq.md rule R906). -/
def execVpmovsxwq (o : VX) (s : State) : Host.Outcome State Fault Refusal :=
  run (vnRun avxInt (fun l => vbytes l / 4) (extendTo true 256 16 64) o) s
/-- PMOVSXDQ (spec/53_p_phaddw-pmuludq.md rule R907). -/
def execPmovsxdq (o : XX) (s : State) : Host.Outcome State Fault Refusal := run (xnRun .sse41 8 (extendTo true 128 32 64) o) s
/-- VPMOVSXDQ (spec/53_p_phaddw-pmuludq.md rule R907). -/
def execVpmovsxdq (o : VX) (s : State) : Host.Outcome State Fault Refusal :=
  run (vnRun avxInt (fun l => vbytes l / 2) (extendTo true 256 32 64) o) s
/-- PMOVZXBW (spec/53_p_phaddw-pmuludq.md rule R908). -/
def execPmovzxbw (o : XX) (s : State) : Host.Outcome State Fault Refusal := run (xnRun .sse41 8 (extendTo false 128 8 16) o) s
/-- VPMOVZXBW (spec/53_p_phaddw-pmuludq.md rule R908). -/
def execVpmovzxbw (o : VX) (s : State) : Host.Outcome State Fault Refusal :=
  run (vnRun avxInt (fun l => vbytes l / 2) (extendTo false 256 8 16) o) s
/-- PMOVZXBD (spec/53_p_phaddw-pmuludq.md rule R909). -/
def execPmovzxbd (o : XX) (s : State) : Host.Outcome State Fault Refusal := run (xnRun .sse41 4 (extendTo false 128 8 32) o) s
/-- VPMOVZXBD (spec/53_p_phaddw-pmuludq.md rule R909). -/
def execVpmovzxbd (o : VX) (s : State) : Host.Outcome State Fault Refusal :=
  run (vnRun avxInt (fun l => vbytes l / 4) (extendTo false 256 8 32) o) s
/-- PMOVZXBQ (spec/53_p_phaddw-pmuludq.md rule R910). -/
def execPmovzxbq (o : XX) (s : State) : Host.Outcome State Fault Refusal := run (xnRun .sse41 2 (extendTo false 128 8 64) o) s
/-- VPMOVZXBQ (spec/53_p_phaddw-pmuludq.md rule R910). -/
def execVpmovzxbq (o : VX) (s : State) : Host.Outcome State Fault Refusal :=
  run (vnRun avxInt (fun l => vbytes l / 8) (extendTo false 256 8 64) o) s
/-- PMOVZXWD (spec/53_p_phaddw-pmuludq.md rule R911). -/
def execPmovzxwd (o : XX) (s : State) : Host.Outcome State Fault Refusal :=
  run (xnRun .sse41 8 (extendTo false 128 16 32) o) s
/-- VPMOVZXWD (spec/53_p_phaddw-pmuludq.md rule R911). -/
def execVpmovzxwd (o : VX) (s : State) : Host.Outcome State Fault Refusal :=
  run (vnRun avxInt (fun l => vbytes l / 2) (extendTo false 256 16 32) o) s
/-- PMOVZXWQ (spec/53_p_phaddw-pmuludq.md rule R912). -/
def execPmovzxwq (o : XX) (s : State) : Host.Outcome State Fault Refusal :=
  run (xnRun .sse41 4 (extendTo false 128 16 64) o) s
/-- VPMOVZXWQ (spec/53_p_phaddw-pmuludq.md rule R912). -/
def execVpmovzxwq (o : VX) (s : State) : Host.Outcome State Fault Refusal :=
  run (vnRun avxInt (fun l => vbytes l / 4) (extendTo false 256 16 64) o) s
/-- PMOVZXDQ (spec/53_p_phaddw-pmuludq.md rule R913). -/
def execPmovzxdq (o : XX) (s : State) : Host.Outcome State Fault Refusal :=
  run (xnRun .sse41 8 (extendTo false 128 32 64) o) s
/-- VPMOVZXDQ (spec/53_p_phaddw-pmuludq.md rule R913). -/
def execVpmovzxdq (o : VX) (s : State) : Host.Outcome State Fault Refusal :=
  run (vnRun avxInt (fun l => vbytes l / 2) (extendTo false 256 32 64) o) s
/-- PSLLW (spec/54_p_pop-pxor.md rule R950). -/
def execPsllw (o : MShift) (s : State) : Host.Outcome State Fault Refusal := run (packedShift 16 (shl 16) o) s
/-- VPSLLW (spec/54_p_pop-pxor.md rule R950). -/
def execVpsllw (o : VShift) (s : State) : Host.Outcome State Fault Refusal := run (vpackedShift 16 (shl 16) o) s
/-- PSLLD (spec/54_p_pop-pxor.md rule R951). -/
def execPslld (o : MShift) (s : State) : Host.Outcome State Fault Refusal := run (packedShift 32 (shl 32) o) s
/-- VPSLLD (spec/54_p_pop-pxor.md rule R951). -/
def execVpslld (o : VShift) (s : State) : Host.Outcome State Fault Refusal := run (vpackedShift 32 (shl 32) o) s
/-- PSLLQ (spec/54_p_pop-pxor.md rule R952). -/
def execPsllq (o : MShift) (s : State) : Host.Outcome State Fault Refusal := run (packedShift 64 (shl 64) o) s
/-- VPSLLQ (spec/54_p_pop-pxor.md rule R952). -/
def execVpsllq (o : VShift) (s : State) : Host.Outcome State Fault Refusal := run (vpackedShift 64 (shl 64) o) s
/-- PSRAW (spec/54_p_pop-pxor.md rule R953). -/
def execPsraw (o : MShift) (s : State) : Host.Outcome State Fault Refusal := run (packedShift 16 (sar 16) o) s
/-- VPSRAW (spec/54_p_pop-pxor.md rule R953). -/
def execVpsraw (o : VShift) (s : State) : Host.Outcome State Fault Refusal := run (vpackedShift 16 (sar 16) o) s
/-- PSRAD (spec/54_p_pop-pxor.md rule R954). -/
def execPsrad (o : MShift) (s : State) : Host.Outcome State Fault Refusal := run (packedShift 32 (sar 32) o) s
/-- VPSRAD (spec/54_p_pop-pxor.md rule R954). -/
def execVpsrad (o : VShift) (s : State) : Host.Outcome State Fault Refusal := run (vpackedShift 32 (sar 32) o) s
/-- PSRLW (spec/54_p_pop-pxor.md rule R955). -/
def execPsrlw (o : MShift) (s : State) : Host.Outcome State Fault Refusal := run (packedShift 16 (shr 16) o) s
/-- VPSRLW (spec/54_p_pop-pxor.md rule R955). -/
def execVpsrlw (o : VShift) (s : State) : Host.Outcome State Fault Refusal := run (vpackedShift 16 (shr 16) o) s
/-- PSRLD (spec/54_p_pop-pxor.md rule R956). -/
def execPsrld (o : MShift) (s : State) : Host.Outcome State Fault Refusal := run (packedShift 32 (shr 32) o) s
/-- VPSRLD (spec/54_p_pop-pxor.md rule R956). -/
def execVpsrld (o : VShift) (s : State) : Host.Outcome State Fault Refusal := run (vpackedShift 32 (shr 32) o) s
/-- PSRLQ (spec/54_p_pop-pxor.md rule R957). -/
def execPsrlq (o : MShift) (s : State) : Host.Outcome State Fault Refusal := run (packedShift 64 (shr 64) o) s
/-- VPSRLQ (spec/54_p_pop-pxor.md rule R957). -/
def execVpsrlq (o : VShift) (s : State) : Host.Outcome State Fault Refusal := run (vpackedShift 64 (shr 64) o) s
/-- PSLLDQ (spec/54_p_pop-pxor.md rule R947). -/
def execPslldq (o : XI) (s : State) : Host.Outcome State Fault Refusal := run (byteShiftRun true o) s
/-- VPSLLDQ (spec/54_p_pop-pxor.md rule R947). -/
def execVpslldq (o : VVI) (s : State) : Host.Outcome State Fault Refusal := run (vbyteShiftRun true o) s
/-- PSRLDQ (spec/54_p_pop-pxor.md rule R948). -/
def execPsrldq (o : XI) (s : State) : Host.Outcome State Fault Refusal := run (byteShiftRun false o) s
/-- VPSRLDQ (spec/54_p_pop-pxor.md rule R948). -/
def execVpsrldq (o : VVI) (s : State) : Host.Outcome State Fault Refusal := run (vbyteShiftRun false o) s
/-- PTEST (spec/54_p_pop-pxor.md rule R966). -/
def execPtest (o : XX) (s : State) : Host.Outcome State Fault Refusal := run (do
  needSse .sse41
  let b : BitVec 128 ← readXm .size 16 o.src
  setTest (← readXmm o.dst) b) s
/-- VPTEST (spec/54_p_pop-pxor.md rule R966). -/
def execVptest (o : VX) (s : State) : Host.Outcome State Fault Refusal := run (do
  needVex [.avx]
  let b ← readVx o.l o.src
  setTest (← readVec o.l o.dst) b) s
/-- PEXTRB (spec/52_p_pabsb-pextrw.md rule R872). -/
def execPextrb (o : ExtrOps) (s : State) : Host.Outcome State Fault Refusal := run (extractRun (needSse .sse41) .w8 o) s
/-- VPEXTRB (spec/52_p_pabsb-pextrw.md rule R872). -/
def execVpextrb (o : ExtrOps) (s : State) : Host.Outcome State Fault Refusal := run (extractRun (needVex [.avx]) .w8 o) s
/-- PINSRB (spec/53_p_phaddw-pmuludq.md rule R883). -/
def execPinsrb (o : InsOps) (s : State) : Host.Outcome State Fault Refusal := run (insertRun .sse41 .w8 o) s
/-- VPINSRB (spec/53_p_phaddw-pmuludq.md rule R883). -/
def execVpinsrb (o : VInsOps) (s : State) : Host.Outcome State Fault Refusal := run (vinsertRun .w8 o) s
/-- PEXTRD (spec/52_p_pabsb-pextrw.md rule R873). -/
def execPextrd (o : ExtrOps) (s : State) : Host.Outcome State Fault Refusal := run (extractRun (needSse .sse41) .w32 o) s
/-- VPEXTRD (spec/52_p_pabsb-pextrw.md rule R873). -/
def execVpextrd (o : ExtrOps) (s : State) : Host.Outcome State Fault Refusal := run (extractRun (needVex [.avx]) .w32 o) s
/-- PINSRD (spec/53_p_phaddw-pmuludq.md rule R884). -/
def execPinsrd (o : InsOps) (s : State) : Host.Outcome State Fault Refusal := run (insertRun .sse41 .w32 o) s
/-- VPINSRD (spec/53_p_phaddw-pmuludq.md rule R884). -/
def execVpinsrd (o : VInsOps) (s : State) : Host.Outcome State Fault Refusal := run (vinsertRun .w32 o) s
/-- PEXTRQ (spec/52_p_pabsb-pextrw.md rule R874). -/
def execPextrq (o : ExtrOps) (s : State) : Host.Outcome State Fault Refusal := run (extractRun (needSse .sse41) .w64 o) s
/-- VPEXTRQ (spec/52_p_pabsb-pextrw.md rule R874). -/
def execVpextrq (o : ExtrOps) (s : State) : Host.Outcome State Fault Refusal := run (extractRun (needVex [.avx]) .w64 o) s
/-- PINSRQ (spec/53_p_phaddw-pmuludq.md rule R885). -/
def execPinsrq (o : InsOps) (s : State) : Host.Outcome State Fault Refusal := run (insertRun .sse41 .w64 o) s
/-- VPINSRQ (spec/53_p_phaddw-pmuludq.md rule R885). -/
def execVpinsrq (o : VInsOps) (s : State) : Host.Outcome State Fault Refusal := run (vinsertRun .w64 o) s
/-- VPEXTRW (spec/52_p_pabsb-pextrw.md rule R875). -/
def execVpextrw (o : ExtrOps) (s : State) : Host.Outcome State Fault Refusal := run (extractRun (needVex [.avx]) .w16 o) s
/-- VPINSRW (spec/53_p_phaddw-pmuludq.md rule R886). -/
def execVpinsrw (o : VInsOps) (s : State) : Host.Outcome State Fault Refusal := run (vinsertRun .w16 o) s
/-- PEXTRW: SSE for mm, SSE2 for 66 0F C5, SSE4.1 for 66 0F 3A 15 (spec/52_p_pabsb-pextrw.md rule R875). -/
def execPextrw (o : PextrwOps) (s : State) : Host.Outcome State Fault Refusal := run (do
  match o with
  | .mm dst src imm => do
    needMmx .sse
    writeWide dst (lane 16 (← readMm src) (imm.toNat % 4))
    enterMmx
  | .xx dst src imm => extractRun (needSse .sse2) .w16 { dst := .reg (.lo dst), src := src, imm := imm }
  | .xrm dst src imm => extractRun (needSse .sse41) .w16 { dst := dst, src := src, imm := imm }) s
/-- PINSRW (spec/53_p_phaddw-pmuludq.md rule R886). -/
def execPinsrw (o : PinsrwOps) (s : State) : Host.Outcome State Fault Refusal := run (do
  match o with
  | .mm dst src imm => do
    needMmx .sse
    let v ← readInsert .w16 src
    writeMm dst (replaceLane (← readMm dst) (imm.toNat % 4) v)
    enterMmx
  | .xx dst src imm => insertRun .sse2 .w16 { dst := dst, src := src, imm := imm }) s
/-- PMOVMSKB (spec/53_p_phaddw-pmuludq.md rule R901). -/
def execPmovmskb (o : GMask) (s : State) : Host.Outcome State Fault Refusal := run (do
  match o with
  | .mm dst src => do
    needMmx .sse
    writeWide dst (BitVec.ofNat 64 (topBits 8 (← readMm src)))
    enterMmx
  | .xx dst src => do
    needSse .sse2
    writeWide dst (BitVec.ofNat 64 (topBits 8 (← readXmm src)))) s
/-- VPMOVMSKB (spec/53_p_phaddw-pmuludq.md rule R901). -/
def execVpmovmskb (o : VGMask) (s : State) : Host.Outcome State Fault Refusal := run (do
  needVex (avxInt o.l)
  writeWide o.dst (BitVec.ofNat 64 (topBits 8 (← readVec o.l o.src)))) s

end Sys2Proof.Machine
end

