-- ==== Sys2Proof/Machine/Crypto.lean ====
section
/-! DEFINITION. The AES instructions (spec/40_a_aaa-arpl.md rules R514 to R519; the transformations are those of FIPS 197, which
no file of the spec defines: log entry 30) and the string comparisons (spec/52_p_pabsb-pextrw.md rules R865 to R869). -/

namespace Sys2Proof.Machine

/-! AES. Byte i of the state is row i mod 4, column i / 4. -/

/-- Multiplication by x modulo x^8 + x^4 + x^3 + x + 1 (PRESUMED, log entry 30). -/
def xtime (a : BitVec 8) : BitVec 8 := (a <<< 1) ^^^ (if a.msb then 0x1B else 0)

/-- Multiplication in GF(2^8) by the bits k-1 to 0 of b. -/
def gfMulBits (a b : BitVec 8) : Nat → BitVec 8
  | 0 => 0
  | k + 1 => xtime (gfMulBits a b k) ^^^ (if b.getLsbD (7 - k) then a else 0)
/-- Multiplication in GF(2^8) (PRESUMED, log entry 30). -/
def gfMul (a b : BitVec 8) : BitVec 8 := gfMulBits a b 8

/-- The inverse in GF(2^8), 0 for 0: the power 254. -/
def gfInv (a : BitVec 8) : BitVec 8 :=
  let a2 := gfMul a a
  let a3 := gfMul a2 a
  let a12 := gfMul (gfMul a3 a3) (gfMul a3 a3)
  let a15 := gfMul a12 a3
  let a30 := gfMul a15 a15
  let a60 := gfMul a30 a30
  let a120 := gfMul a60 a60
  let a240 := gfMul a120 a120
  gfMul (gfMul a240 a12) a2

/-- SubBytes on one byte (PRESUMED, log entry 30). -/
def subByte (a : BitVec 8) : BitVec 8 :=
  let x := gfInv a
  x ^^^ x.rotateLeft 1 ^^^ x.rotateLeft 2 ^^^ x.rotateLeft 3 ^^^ x.rotateLeft 4 ^^^ 0x63

/-- InvSubBytes on one byte (PRESUMED, log entry 30). -/
def invSubByte (a : BitVec 8) : BitVec 8 :=
  gfInv (a.rotateLeft 1 ^^^ a.rotateLeft 3 ^^^ a.rotateLeft 6 ^^^ 0x05)

/-- ShiftRows (PRESUMED, log entry 30): row r moves left by r columns. -/
def shiftRows (s : BitVec 128) : BitVec 128 :=
  ofLanes 128 ((List.range 16).map fun i => lane 8 s ((i + 4 * (i % 4)) % 16))
/-- InvShiftRows (PRESUMED, log entry 30): row r moves right by r columns. -/
def invShiftRows (s : BitVec 128) : BitVec 128 :=
  ofLanes 128 ((List.range 16).map fun i => lane 8 s ((i + 12 * (i % 4)) % 16))

/-- A column times the circulant matrix whose first row is c0 c1 c2 c3, row r. -/
def mixByte (c : List (BitVec 8)) (col : BitVec 32) (r : Nat) : BitVec 8 :=
  (List.range 4).foldl (fun acc k => acc ^^^ gfMul (c.getD ((k + 4 - r) % 4) 0) (lane 8 col k)) 0
/-- A circulant matrix times each column. -/
def mixBy (c : List (BitVec 8)) (s : BitVec 128) : BitVec 128 :=
  each 32 (fun col => ofLanes 32 ((List.range 4).map (mixByte c col))) 128 s
/-- MixColumns (PRESUMED, log entry 30). -/
def mixColumns : BitVec 128 → BitVec 128 := mixBy [2, 3, 1, 1]
/-- InvMixColumns (PRESUMED, log entry 30). -/
def invMixColumns : BitVec 128 → BitVec 128 := mixBy [14, 11, 13, 9]

/-- SubBytes and SubWord. -/
def subBytes (n : Nat) (v : BitVec n) : BitVec n := each 8 subByte n v
/-- InvSubBytes. -/
def invSubBytes (v : BitVec 128) : BitVec 128 := each 8 invSubByte 128 v

/-- AESENC (rule R516). -/
def aesEnc (s k : BitVec 128) : BitVec 128 := mixColumns (subBytes 128 (shiftRows s)) ^^^ k
/-- AESENCLAST (rule R517). -/
def aesEncLast (s k : BitVec 128) : BitVec 128 := subBytes 128 (shiftRows s) ^^^ k
/-- AESDEC (rule R514). -/
def aesDec (s k : BitVec 128) : BitVec 128 := invMixColumns (invSubBytes (invShiftRows s)) ^^^ k
/-- AESDECLAST (rule R515). -/
def aesDecLast (s k : BitVec 128) : BitVec 128 := invSubBytes (invShiftRows s) ^^^ k

/-- AESKEYGENASSIST (rule R519); RotWord moves each byte one place down. -/
def aesKeygen (imm : BitVec 8) (v : BitVec 128) : BitVec 128 :=
  let half (x : BitVec 32) : List (BitVec 32) := [subBytes 32 x, (subBytes 32 x).rotateRight 8 ^^^ imm.setWidth 32]
  ofLanes 128 (half (lane 32 v 1) ++ half (lane 32 v 3))

/-- The features of the VEX forms. -/
def aesAvx (_ : VLen) : List Config.Feature := [.aes, .avx]

/-! String comparison (rule R865). -/

/-- Which elements of an operand are valid. -/
abbrev Valid := Nat → Bool

/-- The element width the immediate names. -/
def strWidth (imm : BitVec 8) : Nat := if imm.getLsbD 0 then 16 else 8
/-- The number of elements. -/
def strCount (imm : BitVec 8) : Nat := 128 / strWidth imm
/-- Element i as a number: signed if the immediate says so. -/
def strElem (imm : BitVec 8) (v : BitVec 128) (i : Nat) : Int :=
  let x := lane (strWidth imm) v i
  if imm.getLsbD 1 then x.toInt else x.toNat

/-- BoolRes[i][j] with the validity override. -/
def strBool (imm : BitVec 8) (a b : BitVec 128) (va vb : Valid) (i j : Nat) : Bool :=
  let x := strElem imm a j
  let y := strElem imm b i
  match va j, vb i with
  | true, true =>
    if imm.extractLsb' 2 2 = 1 then (if j % 2 = 0 then decide (x ≤ y) else decide (y ≤ x)) else decide (x = y)
  | true, false => false
  | false, true => decide (imm.extractLsb' 2 2 = 3)
  | false, false => decide (imm.extractLsb' 2 2 = 2 ∨ imm.extractLsb' 2 2 = 3)

/-- IntRes1, bit i. -/
def strRes1 (imm : BitVec 8) (a b : BitVec 128) (va vb : Valid) (i : Nat) : Bool :=
  let n := strCount imm
  let f := strBool imm a b va vb
  match (imm.extractLsb' 2 2).toNat with
  | 0 => (List.range n).any (f i)
  | 1 => (List.range (n / 2)).any fun j => f i (2 * j) && f i (2 * j + 1)
  | 2 => f i i
  | _ => (List.range (n - i)).all fun k => f (i + k) k

/-- IntRes2, bit i. -/
def strRes2 (imm : BitVec 8) (a b : BitVec 128) (va vb : Valid) (i : Nat) : Bool :=
  let r := strRes1 imm a b va vb i
  match (imm.extractLsb' 4 2).toNat with
  | 1 => !r
  | 3 => if vb i then !r else r
  | _ => r

/-- The index result: N when no bit is set. -/
def strIndex (imm : BitVec 8) (res : Nat → Bool) : Nat :=
  let n := strCount imm
  let hits := (List.range n).filter res
  if imm.getLsbD 6 then hits.getLastD n else hits.headD n

/-- The mask result. -/
def strMask (imm : BitVec 8) (res : Nat → Bool) : BitVec 128 :=
  let n := strCount imm
  if imm.getLsbD 6 then ofLanes 128 ((List.range n).map fun i => maskOf (strWidth imm) (res i))
  else ofLanes 128 ((List.range n).map fun i => maskOf 1 (res i))

/-- The length an explicit length register gives (rule R866). -/
def strLength {n : Nat} (imm : BitVec 8) (x : BitVec n) : Nat := min x.toInt.natAbs (strCount imm)

/-- The elements before the first null one (rule R868). -/
def strBefore (imm : BitVec 8) (v : BitVec 128) : Valid := fun j =>
  (List.range (j + 1)).all fun k => decide (lane (strWidth imm) v k ≠ 0)

/-- A comparison ready to be reported: the operands' validity, and whether each operand is shorter than N. -/
structure StrRun where
  a : BitVec 128
  b : BitVec 128
  va : Valid
  vb : Valid
  shortA : Bool
  shortB : Bool

/-- With the lengths x and y that rAX and rDX hold (rule R866). -/
def strExplicit {n : Nat} (imm : BitVec 8) (x y : BitVec n) (a b : BitVec 128) : StrRun :=
  let la := strLength imm x
  let lb := strLength imm y
  { a := a, b := b, va := fun j => decide (j < la), vb := fun i => decide (i < lb),
    shortA := decide (la < strCount imm), shortB := decide (lb < strCount imm) }

/-- With null-terminated operands (rule R868). -/
def strImplicit (imm : BitVec 8) (a b : BitVec 128) : StrRun :=
  let last := strCount imm - 1
  { a := a, b := b, va := strBefore imm a, vb := strBefore imm b,
    shortA := !strBefore imm a last, shortB := !strBefore imm b last }

/-- IntRes2 of a comparison. -/
def StrRun.res (r : StrRun) (imm : BitVec 8) : Nat → Bool := strRes2 imm r.a r.b r.va r.vb

/-- The flags of a comparison (rule R866). -/
def StrRun.flags (r : StrRun) (imm : BitVec 8) (f : Flags) : Flags :=
  { f with
    cf := (List.range (strCount imm)).any (r.res imm), zf := r.shortB, sf := r.shortA, of := r.res imm 0, af := false,
    pf := false }

/-- Report an index in rCX. -/
def strToIndex (w : Width) (imm : BitVec 8) (r : StrRun) : M Unit := do
  writeReg w rCX (BitVec.ofNat w.bits (strIndex imm (r.res imm)))
  modifyFlags (r.flags imm)

/-- Report a mask in XMM0, by a legacy or a VEX write. -/
def strToMask (vex : Bool) (imm : BitVec 8) (r : StrRun) : M Unit := do
  let m := strMask imm (r.res imm)
  if vex then writeVec 0 m else writeXmm 0 m
  modifyFlags (r.flags imm)

/-- The operands of a legacy string comparison: no alignment is required. -/
def strOperands (dst : Reg) (src : Xm) : M (BitVec 128 × BitVec 128) := do
  let b : BitVec 128 ← readXm .free 16 src
  return (← readXmm dst, b)

/-! The meanings. -/

/-- AESENC (spec/40_a_aaa-arpl.md rule R516). -/
def execAesenc (o : XX) (s : State) : Host.Outcome State Fault Refusal := run (xxRun .aes aesEnc o) s
/-- VAESENC (spec/40_a_aaa-arpl.md rule R516). -/
def execVaesenc (o : VVX) (s : State) : Host.Outcome State Fault Refusal := run (vvxRun aesAvx aesEnc o) s
/-- AESENCLAST (spec/40_a_aaa-arpl.md rule R517). -/
def execAesenclast (o : XX) (s : State) : Host.Outcome State Fault Refusal := run (xxRun .aes aesEncLast o) s
/-- VAESENCLAST (spec/40_a_aaa-arpl.md rule R517). -/
def execVaesenclast (o : VVX) (s : State) : Host.Outcome State Fault Refusal := run (vvxRun aesAvx aesEncLast o) s
/-- AESDEC (spec/40_a_aaa-arpl.md rule R514). -/
def execAesdec (o : XX) (s : State) : Host.Outcome State Fault Refusal := run (xxRun .aes aesDec o) s
/-- VAESDEC (spec/40_a_aaa-arpl.md rule R514). -/
def execVaesdec (o : VVX) (s : State) : Host.Outcome State Fault Refusal := run (vvxRun aesAvx aesDec o) s
/-- AESDECLAST (spec/40_a_aaa-arpl.md rule R515). -/
def execAesdeclast (o : XX) (s : State) : Host.Outcome State Fault Refusal := run (xxRun .aes aesDecLast o) s
/-- VAESDECLAST (spec/40_a_aaa-arpl.md rule R515). -/
def execVaesdeclast (o : VVX) (s : State) : Host.Outcome State Fault Refusal := run (vvxRun aesAvx aesDecLast o) s
/-- AESIMC (spec/40_a_aaa-arpl.md rule R518). -/
def execAesimc (o : XX) (s : State) : Host.Outcome State Fault Refusal := run (xxRun .aes (fun _ b => invMixColumns b) o) s
/-- VAESIMC (spec/40_a_aaa-arpl.md rule R518). -/
def execVaesimc (o : VX) (s : State) : Host.Outcome State Fault Refusal := run (vxRun aesAvx invMixColumns o) s
/-- AESKEYGENASSIST (spec/40_a_aaa-arpl.md rule R519). -/
def execAeskeygenassist (o : XXI) (s : State) : Host.Outcome State Fault Refusal :=
  run (xxiRun .aes (fun i _ b => aesKeygen i b) o) s
/-- VAESKEYGENASSIST (spec/40_a_aaa-arpl.md rule R519). -/
def execVaeskeygenassist (o : VXI) (s : State) : Host.Outcome State Fault Refusal := run (vxiRun aesAvx aesKeygen o) s
/-- PCMPESTRI (spec/52_p_pabsb-pextrw.md rule R866). -/
def execPcmpestri (o : StrCmp) (s : State) : Host.Outcome State Fault Refusal := run (do
  needSse .sse42
  let (a, b) ← strOperands o.dst o.src
  strToIndex o.w o.imm (strExplicit o.imm (← readReg o.w rAX) (← readReg o.w rDX) a b)) s
/-- VPCMPESTRI (spec/52_p_pabsb-pextrw.md rule R866). -/
def execVpcmpestri (o : VXI) (s : State) : Host.Outcome State Fault Refusal := run (do
  needVex [.avx]
  let (a, b) ← strOperands o.dst o.src
  strToIndex .w32 o.imm (strExplicit o.imm (← readReg .w32 rAX) (← readReg .w32 rDX) a b)) s
/-- PCMPESTRM (spec/52_p_pabsb-pextrw.md rule R867). -/
def execPcmpestrm (o : StrCmp) (s : State) : Host.Outcome State Fault Refusal := run (do
  needSse .sse42
  let (a, b) ← strOperands o.dst o.src
  strToMask false o.imm (strExplicit o.imm (← readReg o.w rAX) (← readReg o.w rDX) a b)) s
/-- VPCMPESTRM (spec/52_p_pabsb-pextrw.md rule R867). -/
def execVpcmpestrm (o : VXI) (s : State) : Host.Outcome State Fault Refusal := run (do
  needVex [.avx]
  let (a, b) ← strOperands o.dst o.src
  strToMask true o.imm (strExplicit o.imm (← readReg .w32 rAX) (← readReg .w32 rDX) a b)) s
/-- PCMPISTRI (spec/52_p_pabsb-pextrw.md rule R868). -/
def execPcmpistri (o : StrCmp) (s : State) : Host.Outcome State Fault Refusal := run (do
  needSse .sse42
  let (a, b) ← strOperands o.dst o.src
  strToIndex o.w o.imm (strImplicit o.imm a b)) s
/-- VPCMPISTRI (spec/52_p_pabsb-pextrw.md rule R868). -/
def execVpcmpistri (o : VXI) (s : State) : Host.Outcome State Fault Refusal := run (do
  needVex [.avx]
  let (a, b) ← strOperands o.dst o.src
  strToIndex .w32 o.imm (strImplicit o.imm a b)) s
/-- PCMPISTRM (spec/52_p_pabsb-pextrw.md rule R869). -/
def execPcmpistrm (o : XXI) (s : State) : Host.Outcome State Fault Refusal := run (do
  needSse .sse42
  let (a, b) ← strOperands o.dst o.src
  strToMask false o.imm (strImplicit o.imm a b)) s
/-- VPCMPISTRM (spec/52_p_pabsb-pextrw.md rule R869). -/
def execVpcmpistrm (o : VXI) (s : State) : Host.Outcome State Fault Refusal := run (do
  needVex [.avx]
  let (a, b) ← strOperands o.dst o.src
  strToMask true o.imm (strImplicit o.imm a b)) s

end Sys2Proof.Machine
end

