-- ==== Sys2Proof/Machine/SseFp.lean ====
section
/-! DEFINITION. The floating-point instructions of SSE and AVX: arithmetic, comparison, conversion, rounding, dot product,
approximations (spec/40 to spec/57; spec/00_scope.md rule R30). Two rules hold for all: several elements are examined before an
unmasked exception is raised, and then no destination is written (spec/60_exceptions.md rule R2019). -/

namespace Sys2Proof.Machine

/-! Comparison. -/

/-- The predicates 0 to 15: whether each of greater, less, equal, unordered makes it true, in bits 3 to 0 (spec/42_c_call-cmpps.md
rule R564); predicates 16 to 31 repeat them. -/
def predicateTruth : List (BitVec 4) :=
  [0b0010, 0b0100, 0b0110, 0b0001, 0b1101, 0b1011, 0b1001, 0b1110, 0b0011, 0b0101, 0b0111, 0b0000, 0b1100, 0b1010, 0b1000,
    0b1111]

/-- Does predicate p hold of the order found (rule R564)? -/
def predicateHolds (p : Nat) (o : Order) : Bool :=
  (predicateTruth.getD (p % 16) 0).getLsbD (match o with
    | .greater => 3
    | .less => 2
    | .equal => 1
    | .unordered => 0)

/-- Does predicate p signal a QNaN: for 0 to 15 by rule R564, for 16 to 31 the other way round. -/
def predicateSignals (p : Nat) : Bool :=
  (([1, 2, 5, 6, 9, 10, 13, 14] : List Nat).contains (p % 16)) != decide (16 ≤ p)

/-- Compare two elements: all ones if the predicate holds (rule R564). -/
def fpPredicate (f : FpFmt) (p : Nat) : Fp2 := fun env a b =>
  let (o, fl) := fpCompare f (predicateSignals p) env a b
  { bits := if predicateHolds p o then 2 ^ f.width - 1 else 0, flags := fl }

/-- The predicate of an immediate; a reserved bit set is refused (spec/93_implementation_defined.md U4). -/
def predicate (n : Nat) (imm : BitVec 8) : M Nat :=
  if imm.toNat < 2 ^ n then return imm.toNat else throw (.refuse .reservedPredicate)

/-- CMPPD, CMPPS. -/
def cmpPacked (fx : Config.Feature) (f : FpFmt) (o : XXI) : M Unit := do
  needSse fx
  let p ← predicate 3 o.imm
  xxFp fx (packed f.width (fpPredicate f p)) { dst := o.dst, src := o.src }

/-- CMPSD, CMPSS. -/
def cmpScalar (fx : Config.Feature) (f : FpFmt) (o : XXI) : M Unit := do
  needSse fx
  let p ← predicate 3 o.imm
  xxScalar fx (f.width / 8) f.width (fpPredicate f p) { dst := o.dst, src := o.src }

/-- VCMPPD, VCMPPS. -/
def vcmpPacked (f : FpFmt) (o : VVXI) : M Unit := do
  needVex [.avx]
  let p ← predicate 5 o.imm
  vvxFp (packed f.width (fpPredicate f p)) { l := o.l, dst := o.dst, a := o.a, b := o.b }

/-- VCMPSD, VCMPSS. -/
def vcmpScalar (f : FpFmt) (o : VVXI) : M Unit := do
  needVex [.avx]
  let p ← predicate 5 o.imm
  vvxScalar [.avx] (f.width / 8) f.width (fpPredicate f p) { l := o.l, dst := o.dst, a := o.a, b := o.b }

/-- The flags of COMISD and its kin (spec/43_c_cmps-crc32.md rule R572). -/
def Flags.ofOrder (fl : Flags) (o : Order) : Flags :=
  { fl with
    zf := decide (o = .equal ∨ o = .unordered), pf := decide (o = .unordered), cf := decide (o = .less ∨ o = .unordered)
    of := false, af := false, sf := false }

/-- Compare the low elements a and b and set the flags. -/
def orderFlags (f : FpFmt) (signalQ : Bool) (a : BitVec 128) (b : Nat) : M Unit := do
  let (o, fl) := fpCompare f signalQ (← fpEnv) (a.toNat % 2 ^ f.width) b
  commitFlags fl
  modifyFlags fun g => g.ofOrder o

/-- COMISD, COMISS, UCOMISD, UCOMISS. -/
def comi (fx : Config.Feature) (f : FpFmt) (signalQ : Bool) (o : XX) : M Unit := do
  needSse fx
  let b ← readXm .free (f.width / 8) o.src
  orderFlags f signalQ (← readXmm o.dst) b.toNat

/-- VCOMISD, VCOMISS, VUCOMISD, VUCOMISS. -/
def vcomi (f : FpFmt) (signalQ : Bool) (o : VX) : M Unit := do
  needVex [.avx]
  let b ← readXm .free (f.width / 8) o.src
  orderFlags f signalQ (← readXmm o.dst) b.toNat

/-! Addition and subtraction in one instruction. -/

/-- ADDSUBPD, ADDSUBPS: even elements subtract, odd elements add (spec/40_a_aaa-arpl.md rule R511). -/
def fpAddSub (f : FpFmt) : FpOp2 := fun env n a b =>
  gatherOut n f.width (((lanes f.width a).zip (lanes f.width b)).zipIdx.map fun ((x, y), i) =>
    (if i % 2 = 0 then fpSub f else fpAdd f) env x.toNat y.toNat)

/-- The elements in neighbouring pairs. -/
def pairs {α : Type} : List α → List (α × α)
  | x :: y :: l => (x, y) :: pairs l
  | _ => []

/-- An operation with its operands exchanged. -/
def swapped (op : Fp2) : Fp2 := fun env a b => op env b a

/-- HADDPD and its kin: pairs of the first operand, then of the second; the operation takes the low element first, so HADDx,
whose listing prints the high element first, is `swapped` (spec/48_h_haddpd-iret.md rules R704 to R707). -/
def fpHorizontal (f : FpFmt) (op : Fp2) : FpOp2 := fun env n a b =>
  gatherOut n f.width ((pairs (lanes f.width a) ++ pairs (lanes f.width b)).map fun (x, y) => op env x.toNat y.toNat)

/-! Conversions. -/

/-- A conversion of elements of w1 bits into elements of w2 bits; what is missing is 0. -/
def fpMap {m : Nat} (n w1 w2 : Nat) (op : Fp1) (env : FpControl) (a : BitVec m) : FpVec n :=
  gatherOut n w2 ((lanes w1 a).map fun x => op env x.toNat)

/-- An operation that truncates. -/
def truncating (op : Fp1) : Fp1 := fun env => op { env with rc := 3 }

/-- From an integer of w bits. -/
def fromInt (w : Nat) (f : FpFmt) : Fp1 := fun env v => fpFromInt f env (BitVec.ofNat w v).toInt

/-- xmm <- the conversion of n bytes of xmm/m. -/
def xCvt (al : Align) (n w1 w2 : Nat) (op : Fp1) (o : XX) : M Unit := do
  needSse .sse2
  let b ← readXm al n o.src
  writeXmm o.dst (← commit (fpMap 128 w1 w2 op (← fpEnv) b))

/-- vector <- the conversion of n bytes of vector/m, n by vector length. -/
def vCvt (n : VLen → Nat) (w1 w2 : Nat) (op : Fp1) (o : VX) : M Unit := do
  needVex [.avx]
  let b ← readXm .free (n o.l) o.src
  writeVec o.dst (← commit (fpMap 256 w1 w2 op (← fpEnv) b))

/-- Half the bytes of a vector length. -/
def halfBytes (l : VLen) : Nat := vbytes l / 2

/-- mm <- the conversion of n bytes of xmm/m (spec/61_exception_groups.md rules R2125, R2126). -/
def mxCvt (fx : Config.Feature) (al : Align) (n w1 : Nat) (op : Fp1) (o : MXm) : M Unit := do
  needSse fx
  needNoPending
  let b ← readXm al n o.src
  writeMm o.dst (← commit (fpMap 64 w1 32 op (← fpEnv) b))
  enterMmx

/-- A general register <- the conversion of n bytes of xmm/m. -/
def gxCvt (enter : M Unit) (f : FpFmt) (trunc : Bool) (o : GX) : M Unit := do
  enter
  let b ← readXm .free (f.width / 8) o.src
  let op := fpToInt f o.w.bits
  let v ← commit (one o.w.bits ((if trunc then truncating op else op) (← fpEnv) b.toNat))
  writeReg o.w o.dst v

/-- xmm <- an integer converted into its low element. -/
def xgCvt (fx : Config.Feature) (f : FpFmt) (o : XG) : M Unit := do
  needSse fx
  let v ← readRm o.w o.src
  let r ← commit (one f.width (fromInt o.w.bits f (← fpEnv) v.toNat))
  writeXmm o.dst (withLow (← readXmm o.dst) r)

/-- The same with the other bits of a first source. -/
def vxgCvt (f : FpFmt) (o : VXG) : M Unit := do
  needVex [.avx]
  let v ← readRm o.w o.src
  let r ← commit (one f.width (fromInt o.w.bits f (← fpEnv) v.toNat))
  writeVec o.dst (withLow (← readXmm o.a) r)

/-- VCVTPH2PS converts denormals whatever DAZ says and signals only an SNaN (spec/57_t_test-vfnmsub.md rule R1082). -/
def fromHalf : Fp1 := fun env v =>
  let r := fpConvert f16 f32 { env with daz := false } v
  { r with flags := r.flags &&& 1 }

/-- VCVTPS2PH: rounding by bits 2:0 of the immediate; FTZ is not consulted (spec/57_t_test-vfnmsub.md rule R1083). -/
def toHalf (imm : BitVec 8) : Fp1 := fun env v =>
  fpConvert f32 f16 { env with rc := if imm.getLsbD 2 then env.rc else imm.extractLsb' 0 2, ftz := false } v

/-! ROUNDPD and its kin (spec/55_r_rcl-rsqrtss.md rule R1004). -/

/-- Round to an integer as the immediate says; bits 7:4 are ignored (D53). -/
def roundOp (f : FpFmt) (imm : BitVec 8) : Fp1 := fun env v =>
  fpRoundInt f (imm.getLsbD 3) { env with rc := if imm.getLsbD 2 then env.rc else imm.extractLsb' 0 2 } v

/-! Approximations (spec/55_r_rcl-rsqrtss.md rules R987, R1010). -/

/-- The environment of a correctly rounded stand-in: round to nearest, all masked. -/
def plainEnv : FpControl := { rc := 0, daz := false, ftz := true, om := true, um := true }

/-- |x * y - 1| <= 1.5 * 2^-12 for finite x and y. -/
def rcpWithin (x y : Fp) : Bool :=
  match exactMul x y with
  | .fin n m e => if n then false
      else
        let k : Int := -200
        let v := 8192 * m * 2 ^ (e - k * 2).toNat
        decide (8189 * 2 ^ 400 ≤ v) && decide (v ≤ 8195 * 2 ^ 400)
  | _ => false

/-- A result the bound of rule R987 admits for x: within the relative error below RCP_TINY_HI, a zero of its sign above
RCP_TINY_LO. -/
def rcpAdmits (x y : BitVec 32) : Bool :=
  let mag := x.toNat % 2 ^ 31
  (decide (mag < 0x7E800C01) && !f32.isDenormal y.toNat && rcpWithin (f32.unpack x.toNat) (f32.unpack y.toNat)) ||
  (decide (0x7E7FE800 < mag) && decide (y.toNat = f32.zero x.msb))

/-- The correctly rounded reciprocal, tiny results flushed. -/
def rcpExact (x : BitVec 32) : BitVec 32 := BitVec.ofNat 32 (fpDiv f32 plainEnv 0x3F800000 x.toNat).bits

/-- RcpApprox (rule R987): an open value within the bound (D46; log entry 6). -/
def rcpApprox (x : BitVec 32) : BitVec 32 :=
  match f32.unpack x.toNat with
  | .nan _ => BitVec.ofNat 32 (f32.quiet x.toNat)
  | .inf n => BitVec.ofNat 32 (f32.zero n)
  | .fin n _ _ =>
    if f32.expo x.toNat = 0 then BitVec.ofNat 32 (f32.infinity n)
    else
      let y := Config.rcpApprox x
      if rcpAdmits x y then y else rcpExact x

/-- A result the bound of rule R1010 admits for a positive x: |y * sqrt x - 1| <= 1.5 * 2^-12. -/
def rsqrtAdmits (x y : BitVec 32) : Bool :=
  match exactMul (f32.unpack y.toNat) (f32.unpack y.toNat) with
  | .fin _ m e => match exactMul (.fin false m e) (f32.unpack x.toNat) with
    | .fin _ m2 e2 =>
      let v := 8192 * 8192 * m2 * 2 ^ (e2 + 600).toNat
      !y.msb && decide (8189 * 8189 * 2 ^ 600 ≤ v) && decide (v ≤ 8195 * 8195 * 2 ^ 600)
    | _ => false
  | _ => false

/-- The reciprocal of the square root, each operation correctly rounded. -/
def rsqrtExact (x : BitVec 32) : BitVec 32 :=
  BitVec.ofNat 32 (fpDiv f32 plainEnv 0x3F800000 (fpSqrt f32 plainEnv x.toNat).bits).bits

/-- RsqrtApprox (rule R1010): an open value within the bound (D46; log entry 6). -/
def rsqrtApprox (x : BitVec 32) : BitVec 32 :=
  match f32.unpack x.toNat with
  | .nan _ => BitVec.ofNat 32 (f32.quiet x.toNat)
  | .inf n => if n then BitVec.ofNat 32 f32.indefinite else 0
  | .fin n _ _ =>
    if f32.expo x.toNat = 0 then BitVec.ofNat 32 (f32.infinity n)
    else if n then BitVec.ofNat 32 f32.indefinite
    else
      let y := Config.rsqrtApprox x
      if rsqrtAdmits x y then y else rsqrtExact x

/-- RCPPS, RSQRTPS. -/
def xApprox (f : BitVec 32 → BitVec 32) (o : XX) : M Unit := xxRun .sse (fun _ b => each 32 f 128 b) o
/-- VRCPPS, VRSQRTPS. -/
def vApprox (f : BitVec 32 → BitVec 32) (o : VX) : M Unit := vxRun avx (each 32 f 128) o
/-- RCPSS, RSQRTSS. -/
def xApproxScalar (f : BitVec 32 → BitVec 32) (o : XX) : M Unit := do
  needSse .sse
  let b ← readXm .free 4 o.src
  writeXmm o.dst (withLow (← readXmm o.dst) (f b))
/-- VRCPSS, VRSQRTSS. -/
def vApproxScalar (f : BitVec 32 → BitVec 32) (o : VVX) : M Unit := do
  needVex [.avx]
  let b ← readXm .free 4 o.b
  writeVec o.dst (withLow (← readXmm o.a) (f b))

/-! Dot products (spec/45_d_daa-extractps.md rules R612, R613). -/

/-- Operations in the order of their execution, the exceptions of each reported before the next (rule R613). -/
def inTurn : List FpOut → M (List Nat)
  | [] => return []
  | r :: rs => do
    commitFlags r.flags
    return r.bits :: (← inTurn rs)

/-- Operations whose exceptions are reported after the last of them: the products of rule R612. -/
def atOnce (rs : List FpOut) : M (List Nat) := do
  commitFlags (rs.foldl (fun acc r => acc ||| r.flags) 0)
  return rs.map FpOut.bits

/-- The sums of neighbours. -/
def dotSums (f : FpFmt) (l : List Nat) : M (List Nat) := do
  let env ← fpEnv
  inTurn ((pairs l).map fun (a, b) => fpAdd f env a b)

/-- The products that imm8[4+k] selects, +0.0 for the others. -/
def dotProducts (f : FpFmt) (imm : BitVec 8) (env : FpControl) (l : List (Nat × Nat)) : List FpOut :=
  l.zipIdx.map fun ((a, b), k) => if imm.getLsbD (4 + k) then fpMul f env a b else { bits := 0, flags := 0 }

/-- An element of the result: the sum where the immediate selects it, +0.0 elsewhere; of a NaN, any QNaN (U5). -/
def dotElement (f : FpFmt) (sel : Bool) (sum : Nat) : M (BitVec f.width) := do
  if sel then (if f.isNan sum then do
      let v ← freeValue f.width
      return BitVec.ofNat f.width (f.quiet v.toNat)
    else return BitVec.ofNat f.width sum)
  else return 0

/-- DP_primitive up to the sum: products, then sums of neighbours until one is left. -/
def dotPrimitive (f : FpFmt) (imm : BitVec 8) (a b : BitVec 128) : M (List Nat) := do
  let ps := dotProducts f imm (← fpEnv) (((lanes f.width a).map BitVec.toNat).zip ((lanes f.width b).map BitVec.toNat))
  if f.width = 64 then dotSums f (← atOnce ps) else dotSums f (← dotSums f (← inTurn ps))

/-- The results of all positions: for each 128 bits its sum in the positions imm8[k] selects. -/
def dotSpread (f : FpFmt) (imm : BitVec 8) (sums : List Nat) : M (List (BitVec f.width)) :=
  (sums.flatMap fun s => (List.range (128 / f.width)).map fun k => (k, s)).mapM
    fun (k, s) => dotElement f (imm.getLsbD k) s

/-- The sums of the 128-bit halves, the low half first. -/
def dotHalves (f : FpFmt) (imm : BitVec 8) : List (BitVec 128 × BitVec 128) → M (List Nat)
  | [] => return []
  | (a, b) :: l => do
    let x ← dotPrimitive f imm a b
    return x ++ (← dotHalves f imm l)

/-- DPPD and DPPS on operands of n bits, one 128-bit half after the other. -/
def dotProduct (f : FpFmt) (imm : BitVec 8) {n : Nat} (a b : BitVec n) : M (BitVec n) := do
  let sums ← dotHalves f imm ((lanes 128 a).zip (lanes 128 b))
  return ofLanes n (← dotSpread f imm sums)

/-- DPPD, DPPS. -/
def xDot (f : FpFmt) (o : XXI) : M Unit := do
  needSse .sse41
  let b : BitVec 128 ← readXm .size 16 o.src
  writeXmm o.dst (← dotProduct f o.imm (← readXmm o.dst) b)

/-- VDPPD, VDPPS. -/
def vDot (f : FpFmt) (o : VVXI) : M Unit := do
  needVex [.avx]
  let b ← readVx o.l o.b
  writeVec o.dst (← dotProduct f o.imm (← readVec o.l o.a) b)

/-! MXCSR (spec/49_j_jcc-lzcnt.md rule R745, spec/56_s_sahf-sysret.md rule R1057). -/

/-- LDMXCSR: a reserved bit set is #GP(0). -/
def loadMxcsr (m : MemRef) : M Unit := do
  let v : BitVec 32 := BitVec.ofNat 32 (← readMem m 4)
  ensure (decide (v.extractLsb' 16 16 = 0)) raiseGP
  modify fun s => { s with mxcsr := v }

/-- STMXCSR. -/
def storeMxcsr (m : MemRef) : M Unit := do
  let as ← resolveMem .write m 4
  modify fun s => s.physWrite as s.mxcsr.toNat

/-! The meanings. -/

/-- ADDPD (spec/40_a_aaa-arpl.md rule R507). -/
def execAddpd (o : XX) (s : State) : Host.Outcome State Fault Refusal := run (xxFp .sse2 (packed 64 (fpAdd f64)) o) s
/-- VADDPD (spec/40_a_aaa-arpl.md rule R507). -/
def execVaddpd (o : VVX) (s : State) : Host.Outcome State Fault Refusal := run (vvxFp (packed 64 (fpAdd f64)) o) s
/-- ADDPS (spec/40_a_aaa-arpl.md rule R508). -/
def execAddps (o : XX) (s : State) : Host.Outcome State Fault Refusal := run (xxFp .sse (packed 32 (fpAdd f32)) o) s
/-- VADDPS (spec/40_a_aaa-arpl.md rule R508). -/
def execVaddps (o : VVX) (s : State) : Host.Outcome State Fault Refusal := run (vvxFp (packed 32 (fpAdd f32)) o) s
/-- ADDSD (spec/40_a_aaa-arpl.md rule R509). -/
def execAddsd (o : XX) (s : State) : Host.Outcome State Fault Refusal := run (xxScalar .sse2 8 64 (fpAdd f64) o) s
/-- VADDSD (spec/40_a_aaa-arpl.md rule R509). -/
def execVaddsd (o : VVX) (s : State) : Host.Outcome State Fault Refusal := run (vvxScalar [.avx] 8 64 (fpAdd f64) o) s
/-- ADDSS (spec/40_a_aaa-arpl.md rule R510). -/
def execAddss (o : XX) (s : State) : Host.Outcome State Fault Refusal := run (xxScalar .sse 4 32 (fpAdd f32) o) s
/-- VADDSS (spec/40_a_aaa-arpl.md rule R510). -/
def execVaddss (o : VVX) (s : State) : Host.Outcome State Fault Refusal := run (vvxScalar [.avx] 4 32 (fpAdd f32) o) s
/-- SUBPD (spec/56_s_sahf-sysret.md rule R1061). -/
def execSubpd (o : XX) (s : State) : Host.Outcome State Fault Refusal := run (xxFp .sse2 (packed 64 (fpSub f64)) o) s
/-- VSUBPD (spec/56_s_sahf-sysret.md rule R1061). -/
def execVsubpd (o : VVX) (s : State) : Host.Outcome State Fault Refusal := run (vvxFp (packed 64 (fpSub f64)) o) s
/-- SUBPS (spec/56_s_sahf-sysret.md rule R1062). -/
def execSubps (o : XX) (s : State) : Host.Outcome State Fault Refusal := run (xxFp .sse (packed 32 (fpSub f32)) o) s
/-- VSUBPS (spec/56_s_sahf-sysret.md rule R1062). -/
def execVsubps (o : VVX) (s : State) : Host.Outcome State Fault Refusal := run (vvxFp (packed 32 (fpSub f32)) o) s
/-- SUBSD (spec/56_s_sahf-sysret.md rule R1063). -/
def execSubsd (o : XX) (s : State) : Host.Outcome State Fault Refusal := run (xxScalar .sse2 8 64 (fpSub f64) o) s
/-- VSUBSD (spec/56_s_sahf-sysret.md rule R1063). -/
def execVsubsd (o : VVX) (s : State) : Host.Outcome State Fault Refusal := run (vvxScalar [.avx] 8 64 (fpSub f64) o) s
/-- SUBSS (spec/56_s_sahf-sysret.md rule R1064). -/
def execSubss (o : XX) (s : State) : Host.Outcome State Fault Refusal := run (xxScalar .sse 4 32 (fpSub f32) o) s
/-- VSUBSS (spec/56_s_sahf-sysret.md rule R1064). -/
def execVsubss (o : VVX) (s : State) : Host.Outcome State Fault Refusal := run (vvxScalar [.avx] 4 32 (fpSub f32) o) s
/-- MULPD (spec/51_m_movs-outs.md rule R818). -/
def execMulpd (o : XX) (s : State) : Host.Outcome State Fault Refusal := run (xxFp .sse2 (packed 64 (fpMul f64)) o) s
/-- VMULPD (spec/51_m_movs-outs.md rule R818). -/
def execVmulpd (o : VVX) (s : State) : Host.Outcome State Fault Refusal := run (vvxFp (packed 64 (fpMul f64)) o) s
/-- MULPS (spec/51_m_movs-outs.md rule R819). -/
def execMulps (o : XX) (s : State) : Host.Outcome State Fault Refusal := run (xxFp .sse (packed 32 (fpMul f32)) o) s
/-- VMULPS (spec/51_m_movs-outs.md rule R819). -/
def execVmulps (o : VVX) (s : State) : Host.Outcome State Fault Refusal := run (vvxFp (packed 32 (fpMul f32)) o) s
/-- MULSD (spec/51_m_movs-outs.md rule R820). -/
def execMulsd (o : XX) (s : State) : Host.Outcome State Fault Refusal := run (xxScalar .sse2 8 64 (fpMul f64) o) s
/-- VMULSD (spec/51_m_movs-outs.md rule R820). -/
def execVmulsd (o : VVX) (s : State) : Host.Outcome State Fault Refusal := run (vvxScalar [.avx] 8 64 (fpMul f64) o) s
/-- MULSS (spec/51_m_movs-outs.md rule R821). -/
def execMulss (o : XX) (s : State) : Host.Outcome State Fault Refusal := run (xxScalar .sse 4 32 (fpMul f32) o) s
/-- VMULSS (spec/51_m_movs-outs.md rule R821). -/
def execVmulss (o : VVX) (s : State) : Host.Outcome State Fault Refusal := run (vvxScalar [.avx] 4 32 (fpMul f32) o) s
/-- DIVPD (spec/45_d_daa-extractps.md rule R608). -/
def execDivpd (o : XX) (s : State) : Host.Outcome State Fault Refusal := run (xxFp .sse2 (packed 64 (fpDiv f64)) o) s
/-- VDIVPD (spec/45_d_daa-extractps.md rule R608). -/
def execVdivpd (o : VVX) (s : State) : Host.Outcome State Fault Refusal := run (vvxFp (packed 64 (fpDiv f64)) o) s
/-- DIVPS (spec/45_d_daa-extractps.md rule R609). -/
def execDivps (o : XX) (s : State) : Host.Outcome State Fault Refusal := run (xxFp .sse (packed 32 (fpDiv f32)) o) s
/-- VDIVPS (spec/45_d_daa-extractps.md rule R609). -/
def execVdivps (o : VVX) (s : State) : Host.Outcome State Fault Refusal := run (vvxFp (packed 32 (fpDiv f32)) o) s
/-- DIVSD (spec/45_d_daa-extractps.md rule R610). -/
def execDivsd (o : XX) (s : State) : Host.Outcome State Fault Refusal := run (xxScalar .sse2 8 64 (fpDiv f64) o) s
/-- VDIVSD (spec/45_d_daa-extractps.md rule R610). -/
def execVdivsd (o : VVX) (s : State) : Host.Outcome State Fault Refusal := run (vvxScalar [.avx] 8 64 (fpDiv f64) o) s
/-- DIVSS (spec/45_d_daa-extractps.md rule R611). -/
def execDivss (o : XX) (s : State) : Host.Outcome State Fault Refusal := run (xxScalar .sse 4 32 (fpDiv f32) o) s
/-- VDIVSS (spec/45_d_daa-extractps.md rule R611). -/
def execVdivss (o : VVX) (s : State) : Host.Outcome State Fault Refusal := run (vvxScalar [.avx] 4 32 (fpDiv f32) o) s
/-- MINPD (spec/50_m_maskmovdqu-movq2dq.md rule R773). -/
def execMinpd (o : XX) (s : State) : Host.Outcome State Fault Refusal := run (xxFp .sse2 (packed 64 (fpMinMax f64 .less)) o) s
/-- VMINPD (spec/50_m_maskmovdqu-movq2dq.md rule R773). -/
def execVminpd (o : VVX) (s : State) : Host.Outcome State Fault Refusal := run (vvxFp (packed 64 (fpMinMax f64 .less)) o) s
/-- MINPS (spec/50_m_maskmovdqu-movq2dq.md rule R774). -/
def execMinps (o : XX) (s : State) : Host.Outcome State Fault Refusal := run (xxFp .sse (packed 32 (fpMinMax f32 .less)) o) s
/-- VMINPS (spec/50_m_maskmovdqu-movq2dq.md rule R774). -/
def execVminps (o : VVX) (s : State) : Host.Outcome State Fault Refusal := run (vvxFp (packed 32 (fpMinMax f32 .less)) o) s
/-- MINSD (spec/50_m_maskmovdqu-movq2dq.md rule R775). -/
def execMinsd (o : XX) (s : State) : Host.Outcome State Fault Refusal := run (xxScalar .sse2 8 64 (fpMinMax f64 .less) o) s
/-- VMINSD (spec/50_m_maskmovdqu-movq2dq.md rule R775). -/
def execVminsd (o : VVX) (s : State) : Host.Outcome State Fault Refusal :=
  run (vvxScalar [.avx] 8 64 (fpMinMax f64 .less) o) s
/-- MINSS (spec/50_m_maskmovdqu-movq2dq.md rule R776). -/
def execMinss (o : XX) (s : State) : Host.Outcome State Fault Refusal := run (xxScalar .sse 4 32 (fpMinMax f32 .less) o) s
/-- VMINSS (spec/50_m_maskmovdqu-movq2dq.md rule R776). -/
def execVminss (o : VVX) (s : State) : Host.Outcome State Fault Refusal :=
  run (vvxScalar [.avx] 4 32 (fpMinMax f32 .less) o) s
/-- MAXPD (spec/50_m_maskmovdqu-movq2dq.md rule R769). -/
def execMaxpd (o : XX) (s : State) : Host.Outcome State Fault Refusal :=
  run (xxFp .sse2 (packed 64 (fpMinMax f64 .greater)) o) s
/-- VMAXPD (spec/50_m_maskmovdqu-movq2dq.md rule R769). -/
def execVmaxpd (o : VVX) (s : State) : Host.Outcome State Fault Refusal := run (vvxFp (packed 64 (fpMinMax f64 .greater)) o) s
/-- MAXPS (spec/50_m_maskmovdqu-movq2dq.md rule R770). -/
def execMaxps (o : XX) (s : State) : Host.Outcome State Fault Refusal :=
  run (xxFp .sse (packed 32 (fpMinMax f32 .greater)) o) s
/-- VMAXPS (spec/50_m_maskmovdqu-movq2dq.md rule R770). -/
def execVmaxps (o : VVX) (s : State) : Host.Outcome State Fault Refusal := run (vvxFp (packed 32 (fpMinMax f32 .greater)) o) s
/-- MAXSD (spec/50_m_maskmovdqu-movq2dq.md rule R771). -/
def execMaxsd (o : XX) (s : State) : Host.Outcome State Fault Refusal := run (xxScalar .sse2 8 64 (fpMinMax f64 .greater) o) s
/-- VMAXSD (spec/50_m_maskmovdqu-movq2dq.md rule R771). -/
def execVmaxsd (o : VVX) (s : State) : Host.Outcome State Fault Refusal :=
  run (vvxScalar [.avx] 8 64 (fpMinMax f64 .greater) o) s
/-- MAXSS (spec/50_m_maskmovdqu-movq2dq.md rule R772). -/
def execMaxss (o : XX) (s : State) : Host.Outcome State Fault Refusal := run (xxScalar .sse 4 32 (fpMinMax f32 .greater) o) s
/-- VMAXSS (spec/50_m_maskmovdqu-movq2dq.md rule R772). -/
def execVmaxss (o : VVX) (s : State) : Host.Outcome State Fault Refusal :=
  run (vvxScalar [.avx] 4 32 (fpMinMax f32 .greater) o) s
/-- SQRTPD (spec/56_s_sahf-sysret.md rule R1049). -/
def execSqrtpd (o : XX) (s : State) : Host.Outcome State Fault Refusal := run (xFp1 .sse2 64 (fpSqrt f64) o) s
/-- VSQRTPD (spec/56_s_sahf-sysret.md rule R1049). -/
def execVsqrtpd (o : VX) (s : State) : Host.Outcome State Fault Refusal := run (vFp1 64 (fpSqrt f64) o) s
/-- SQRTPS (spec/56_s_sahf-sysret.md rule R1050). -/
def execSqrtps (o : XX) (s : State) : Host.Outcome State Fault Refusal := run (xFp1 .sse 32 (fpSqrt f32) o) s
/-- VSQRTPS (spec/56_s_sahf-sysret.md rule R1050). -/
def execVsqrtps (o : VX) (s : State) : Host.Outcome State Fault Refusal := run (vFp1 32 (fpSqrt f32) o) s
/-- SQRTSD (spec/56_s_sahf-sysret.md rule R1051). -/
def execSqrtsd (o : XX) (s : State) : Host.Outcome State Fault Refusal :=
  run (xxScalar .sse2 8 64 (onSecond (fpSqrt f64)) o) s
/-- VSQRTSD (spec/56_s_sahf-sysret.md rule R1051). -/
def execVsqrtsd (o : VVX) (s : State) : Host.Outcome State Fault Refusal :=
  run (vvxScalar [.avx] 8 64 (onSecond (fpSqrt f64)) o) s
/-- SQRTSS (spec/56_s_sahf-sysret.md rule R1052). -/
def execSqrtss (o : XX) (s : State) : Host.Outcome State Fault Refusal := run (xxScalar .sse 4 32 (onSecond (fpSqrt f32)) o) s
/-- VSQRTSS (spec/56_s_sahf-sysret.md rule R1052). -/
def execVsqrtss (o : VVX) (s : State) : Host.Outcome State Fault Refusal :=
  run (vvxScalar [.avx] 4 32 (onSecond (fpSqrt f32)) o) s
/-- ADDSUBPD (spec/40_a_aaa-arpl.md rule R511). -/
def execAddsubpd (o : XX) (s : State) : Host.Outcome State Fault Refusal := run (xxFp .sse3 (fpAddSub f64) o) s
/-- VADDSUBPD (spec/40_a_aaa-arpl.md rule R511). -/
def execVaddsubpd (o : VVX) (s : State) : Host.Outcome State Fault Refusal := run (vvxFp (fpAddSub f64) o) s
/-- ADDSUBPS (spec/40_a_aaa-arpl.md rule R512). -/
def execAddsubps (o : XX) (s : State) : Host.Outcome State Fault Refusal := run (xxFp .sse3 (fpAddSub f32) o) s
/-- VADDSUBPS (spec/40_a_aaa-arpl.md rule R512). -/
def execVaddsubps (o : VVX) (s : State) : Host.Outcome State Fault Refusal := run (vvxFp (fpAddSub f32) o) s
/-- HADDPD (spec/48_h_haddpd-iret.md rule R704). -/
def execHaddpd (o : XX) (s : State) : Host.Outcome State Fault Refusal := run (xxFp .sse3 (fpHorizontal f64 (swapped (fpAdd f64))) o) s
/-- VHADDPD (spec/48_h_haddpd-iret.md rule R704). -/
def execVhaddpd (o : VVX) (s : State) : Host.Outcome State Fault Refusal := run (vvxFp (fpHorizontal f64 (swapped (fpAdd f64))) o) s
/-- HADDPS (spec/48_h_haddpd-iret.md rule R705). -/
def execHaddps (o : XX) (s : State) : Host.Outcome State Fault Refusal := run (xxFp .sse3 (fpHorizontal f32 (swapped (fpAdd f32))) o) s
/-- VHADDPS (spec/48_h_haddpd-iret.md rule R705). -/
def execVhaddps (o : VVX) (s : State) : Host.Outcome State Fault Refusal := run (vvxFp (fpHorizontal f32 (swapped (fpAdd f32))) o) s
/-- HSUBPD (spec/48_h_haddpd-iret.md rule R706). -/
def execHsubpd (o : XX) (s : State) : Host.Outcome State Fault Refusal := run (xxFp .sse3 (fpHorizontal f64 (fpSub f64)) o) s
/-- VHSUBPD (spec/48_h_haddpd-iret.md rule R706). -/
def execVhsubpd (o : VVX) (s : State) : Host.Outcome State Fault Refusal := run (vvxFp (fpHorizontal f64 (fpSub f64)) o) s
/-- HSUBPS (spec/48_h_haddpd-iret.md rule R707). -/
def execHsubps (o : XX) (s : State) : Host.Outcome State Fault Refusal := run (xxFp .sse3 (fpHorizontal f32 (fpSub f32)) o) s
/-- VHSUBPS (spec/48_h_haddpd-iret.md rule R707). -/
def execVhsubps (o : VVX) (s : State) : Host.Outcome State Fault Refusal := run (vvxFp (fpHorizontal f32 (fpSub f32)) o) s
/-- CMPPD (spec/42_c_call-cmpps.md rule R565). -/
def execCmppd (o : XXI) (s : State) : Host.Outcome State Fault Refusal := run (cmpPacked .sse2 f64 o) s
/-- VCMPPD (spec/42_c_call-cmpps.md rule R565). -/
def execVcmppd (o : VVXI) (s : State) : Host.Outcome State Fault Refusal := run (vcmpPacked f64 o) s
/-- CMPPS (spec/42_c_call-cmpps.md rule R566). -/
def execCmpps (o : XXI) (s : State) : Host.Outcome State Fault Refusal := run (cmpPacked .sse f32 o) s
/-- VCMPPS (spec/42_c_call-cmpps.md rule R566). -/
def execVcmpps (o : VVXI) (s : State) : Host.Outcome State Fault Refusal := run (vcmpPacked f32 o) s
/-- CMPSD (spec/43_c_cmps-crc32.md rule R568). -/
def execCmpsdSse (o : XXI) (s : State) : Host.Outcome State Fault Refusal := run (cmpScalar .sse2 f64 o) s
/-- VCMPSD (spec/43_c_cmps-crc32.md rule R568). -/
def execVcmpsd (o : VVXI) (s : State) : Host.Outcome State Fault Refusal := run (vcmpScalar f64 o) s
/-- CMPSS (spec/43_c_cmps-crc32.md rule R569). -/
def execCmpss (o : XXI) (s : State) : Host.Outcome State Fault Refusal := run (cmpScalar .sse f32 o) s
/-- VCMPSS (spec/43_c_cmps-crc32.md rule R569). -/
def execVcmpss (o : VVXI) (s : State) : Host.Outcome State Fault Refusal := run (vcmpScalar f32 o) s
/-- COMISD (spec/43_c_cmps-crc32.md rule R572). -/
def execComisd (o : XX) (s : State) : Host.Outcome State Fault Refusal := run (comi .sse2 f64 true o) s
/-- VCOMISD (spec/43_c_cmps-crc32.md rule R572). -/
def execVcomisd (o : VX) (s : State) : Host.Outcome State Fault Refusal := run (vcomi f64 true o) s
/-- COMISS (spec/43_c_cmps-crc32.md rule R573). -/
def execComiss (o : XX) (s : State) : Host.Outcome State Fault Refusal := run (comi .sse f32 true o) s
/-- VCOMISS (spec/43_c_cmps-crc32.md rule R573). -/
def execVcomiss (o : VX) (s : State) : Host.Outcome State Fault Refusal := run (vcomi f32 true o) s
/-- UCOMISD (spec/57_t_test-vfnmsub.md rule R1072). -/
def execUcomisd (o : XX) (s : State) : Host.Outcome State Fault Refusal := run (comi .sse2 f64 false o) s
/-- VUCOMISD (spec/57_t_test-vfnmsub.md rule R1072). -/
def execVucomisd (o : VX) (s : State) : Host.Outcome State Fault Refusal := run (vcomi f64 false o) s
/-- UCOMISS (spec/57_t_test-vfnmsub.md rule R1073). -/
def execUcomiss (o : XX) (s : State) : Host.Outcome State Fault Refusal := run (comi .sse f32 false o) s
/-- VUCOMISS (spec/57_t_test-vfnmsub.md rule R1073). -/
def execVucomiss (o : VX) (s : State) : Host.Outcome State Fault Refusal := run (vcomi f32 false o) s
/-- CVTDQ2PD (spec/44_c_cvtdq2pd-cwd.md rule R581). -/
def execCvtdq2pd (o : XX) (s : State) : Host.Outcome State Fault Refusal := run (xCvt .free 8 32 64 (fromInt 32 f64) o) s
/-- VCVTDQ2PD (spec/44_c_cvtdq2pd-cwd.md rule R581). -/
def execVcvtdq2pd (o : VX) (s : State) : Host.Outcome State Fault Refusal := run (vCvt halfBytes 32 64 (fromInt 32 f64) o) s
/-- CVTDQ2PS (spec/44_c_cvtdq2pd-cwd.md rule R582). -/
def execCvtdq2ps (o : XX) (s : State) : Host.Outcome State Fault Refusal := run (xCvt .size 16 32 32 (fromInt 32 f32) o) s
/-- VCVTDQ2PS (spec/44_c_cvtdq2pd-cwd.md rule R582). -/
def execVcvtdq2ps (o : VX) (s : State) : Host.Outcome State Fault Refusal := run (vCvt vbytes 32 32 (fromInt 32 f32) o) s
/-- CVTPD2DQ (spec/44_c_cvtdq2pd-cwd.md rule R583). -/
def execCvtpd2dq (o : XX) (s : State) : Host.Outcome State Fault Refusal := run (xCvt .size 16 64 32 (fpToInt f64 32) o) s
/-- VCVTPD2DQ (spec/44_c_cvtdq2pd-cwd.md rule R583). -/
def execVcvtpd2dq (o : VX) (s : State) : Host.Outcome State Fault Refusal := run (vCvt vbytes 64 32 (fpToInt f64 32) o) s
/-- CVTTPD2DQ (spec/44_c_cvtdq2pd-cwd.md rule R587). -/
def execCvttpd2dq (o : XX) (s : State) : Host.Outcome State Fault Refusal :=
  run (xCvt .size 16 64 32 (truncating (fpToInt f64 32)) o) s
/-- VCVTTPD2DQ (spec/44_c_cvtdq2pd-cwd.md rule R587). -/
def execVcvttpd2dq (o : VX) (s : State) : Host.Outcome State Fault Refusal :=
  run (vCvt vbytes 64 32 (truncating (fpToInt f64 32)) o) s
/-- CVTPD2PS (spec/44_c_cvtdq2pd-cwd.md rule R584). -/
def execCvtpd2ps (o : XX) (s : State) : Host.Outcome State Fault Refusal := run (xCvt .size 16 64 32 (fpConvert f64 f32) o) s
/-- VCVTPD2PS (spec/44_c_cvtdq2pd-cwd.md rule R584). -/
def execVcvtpd2ps (o : VX) (s : State) : Host.Outcome State Fault Refusal := run (vCvt vbytes 64 32 (fpConvert f64 f32) o) s
/-- CVTPS2DQ (spec/44_c_cvtdq2pd-cwd.md rule R585). -/
def execCvtps2dq (o : XX) (s : State) : Host.Outcome State Fault Refusal := run (xCvt .size 16 32 32 (fpToInt f32 32) o) s
/-- VCVTPS2DQ (spec/44_c_cvtdq2pd-cwd.md rule R585). -/
def execVcvtps2dq (o : VX) (s : State) : Host.Outcome State Fault Refusal := run (vCvt vbytes 32 32 (fpToInt f32 32) o) s
/-- CVTTPS2DQ (spec/44_c_cvtdq2pd-cwd.md rule R588). -/
def execCvttps2dq (o : XX) (s : State) : Host.Outcome State Fault Refusal :=
  run (xCvt .size 16 32 32 (truncating (fpToInt f32 32)) o) s
/-- VCVTTPS2DQ (spec/44_c_cvtdq2pd-cwd.md rule R588). -/
def execVcvttps2dq (o : VX) (s : State) : Host.Outcome State Fault Refusal :=
  run (vCvt vbytes 32 32 (truncating (fpToInt f32 32)) o) s
/-- CVTPS2PD (spec/44_c_cvtdq2pd-cwd.md rule R586). -/
def execCvtps2pd (o : XX) (s : State) : Host.Outcome State Fault Refusal := run (xCvt .free 8 32 64 (fpConvert f32 f64) o) s
/-- VCVTPS2PD (spec/44_c_cvtdq2pd-cwd.md rule R586). -/
def execVcvtps2pd (o : VX) (s : State) : Host.Outcome State Fault Refusal :=
  run (vCvt halfBytes 32 64 (fpConvert f32 f64) o) s
/-- CVTPD2PI (spec/44_c_cvtdq2pd-cwd.md rule R589). -/
def execCvtpd2pi (o : MXm) (s : State) : Host.Outcome State Fault Refusal :=
  run (mxCvt .sse2 .size 16 64 (fpToInt f64 32) o) s
/-- CVTTPD2PI (spec/44_c_cvtdq2pd-cwd.md rule R590). -/
def execCvttpd2pi (o : MXm) (s : State) : Host.Outcome State Fault Refusal :=
  run (mxCvt .sse2 .size 16 64 (truncating (fpToInt f64 32)) o) s
/-- CVTPS2PI (spec/44_c_cvtdq2pd-cwd.md rule R593). -/
def execCvtps2pi (o : MXm) (s : State) : Host.Outcome State Fault Refusal := run (mxCvt .sse .free 8 32 (fpToInt f32 32) o) s
/-- CVTTPS2PI (spec/44_c_cvtdq2pd-cwd.md rule R594). -/
def execCvttps2pi (o : MXm) (s : State) : Host.Outcome State Fault Refusal :=
  run (mxCvt .sse .free 8 32 (truncating (fpToInt f32 32)) o) s
/-- CVTPI2PS (spec/44_c_cvtdq2pd-cwd.md rule R592). -/
def execCvtpi2ps (o : XMm) (s : State) : Host.Outcome State Fault Refusal := run (do
  needSse .sse
  needNoPending
  let b ← readMmM 8 o.src
  let r ← commit (fpMap 64 32 32 (fromInt 32 f32) (← fpEnv) b)
  writeXmm o.dst (withLow (← readXmm o.dst) r)
  enterMmx) s
/-- CVTPI2PD: with a memory source there is no transition to MMX operation (spec/44_c_cvtdq2pd-cwd.md rule R591). -/
def execCvtpi2pd (o : XMm) (s : State) : Host.Outcome State Fault Refusal := run (do
  needSse .sse2
  if let .reg _ := o.src then do
    needNoPending
    enterMmx
  let b ← readMmM 8 o.src
  writeXmm o.dst (← commit (fpMap 128 32 64 (fromInt 32 f64) (← fpEnv) b))) s
/-- CVTSD2SI (spec/44_c_cvtdq2pd-cwd.md rule R595). -/
def execCvtsd2si (o : GX) (s : State) : Host.Outcome State Fault Refusal := run (gxCvt (needSse .sse2) f64 false o) s
/-- VCVTSD2SI (spec/44_c_cvtdq2pd-cwd.md rule R595). -/
def execVcvtsd2si (o : GX) (s : State) : Host.Outcome State Fault Refusal := run (gxCvt (needVex [.avx]) f64 false o) s
/-- CVTSS2SI (spec/44_c_cvtdq2pd-cwd.md rule R597). -/
def execCvtss2si (o : GX) (s : State) : Host.Outcome State Fault Refusal := run (gxCvt (needSse .sse) f32 false o) s
/-- VCVTSS2SI (spec/44_c_cvtdq2pd-cwd.md rule R597). -/
def execVcvtss2si (o : GX) (s : State) : Host.Outcome State Fault Refusal := run (gxCvt (needVex [.avx]) f32 false o) s
/-- CVTTSD2SI (spec/44_c_cvtdq2pd-cwd.md rule R596). -/
def execCvttsd2si (o : GX) (s : State) : Host.Outcome State Fault Refusal := run (gxCvt (needSse .sse2) f64 true o) s
/-- VCVTTSD2SI (spec/44_c_cvtdq2pd-cwd.md rule R596). -/
def execVcvttsd2si (o : GX) (s : State) : Host.Outcome State Fault Refusal := run (gxCvt (needVex [.avx]) f64 true o) s
/-- CVTTSS2SI (spec/44_c_cvtdq2pd-cwd.md rule R598). -/
def execCvttss2si (o : GX) (s : State) : Host.Outcome State Fault Refusal := run (gxCvt (needSse .sse) f32 true o) s
/-- VCVTTSS2SI (spec/44_c_cvtdq2pd-cwd.md rule R598). -/
def execVcvttss2si (o : GX) (s : State) : Host.Outcome State Fault Refusal := run (gxCvt (needVex [.avx]) f32 true o) s
/-- CVTSI2SD (spec/44_c_cvtdq2pd-cwd.md rule R599). -/
def execCvtsi2sd (o : XG) (s : State) : Host.Outcome State Fault Refusal := run (xgCvt .sse2 f64 o) s
/-- VCVTSI2SD (spec/44_c_cvtdq2pd-cwd.md rule R599). -/
def execVcvtsi2sd (o : VXG) (s : State) : Host.Outcome State Fault Refusal := run (vxgCvt f64 o) s
/-- CVTSI2SS (spec/44_c_cvtdq2pd-cwd.md rule R600). -/
def execCvtsi2ss (o : XG) (s : State) : Host.Outcome State Fault Refusal := run (xgCvt .sse f32 o) s
/-- VCVTSI2SS (spec/44_c_cvtdq2pd-cwd.md rule R600). -/
def execVcvtsi2ss (o : VXG) (s : State) : Host.Outcome State Fault Refusal := run (vxgCvt f32 o) s
/-- CVTSD2SS (spec/44_c_cvtdq2pd-cwd.md rule R601). -/
def execCvtsd2ss (o : XX) (s : State) : Host.Outcome State Fault Refusal :=
  run (xxScalar .sse2 8 32 (onSecond (fpConvert f64 f32)) o) s
/-- VCVTSD2SS (spec/44_c_cvtdq2pd-cwd.md rule R601). -/
def execVcvtsd2ss (o : VVX) (s : State) : Host.Outcome State Fault Refusal :=
  run (vvxScalar [.avx] 8 32 (onSecond (fpConvert f64 f32)) o) s
/-- CVTSS2SD (spec/44_c_cvtdq2pd-cwd.md rule R602). -/
def execCvtss2sd (o : XX) (s : State) : Host.Outcome State Fault Refusal :=
  run (xxScalar .sse2 4 64 (onSecond (fpConvert f32 f64)) o) s
/-- VCVTSS2SD (spec/44_c_cvtdq2pd-cwd.md rule R602). -/
def execVcvtss2sd (o : VVX) (s : State) : Host.Outcome State Fault Refusal :=
  run (vvxScalar [.avx] 4 64 (onSecond (fpConvert f32 f64)) o) s
/-- VCVTPH2PS (spec/57_t_test-vfnmsub.md rule R1082). -/
def execVcvtph2ps (o : VX) (s : State) : Host.Outcome State Fault Refusal := run (do
  needVex [.f16c]
  let b ← readXm .silent (halfBytes o.l) o.src
  writeVec o.dst (← commit (fpMap 256 16 32 fromHalf (← fpEnv) b))) s
/-- VCVTPS2PH (spec/57_t_test-vfnmsub.md rule R1083). -/
def execVcvtps2ph (o : VExtOps) (s : State) : Host.Outcome State Fault Refusal := run (do
  needVex [.f16c]
  let v ← readVec o.l o.src
  match o.dst with
  | .reg r => writeVec r (← commit (fpMap 128 32 16 (toHalf o.imm) (← fpEnv) v))
  | .mem m => do
    let as ← resolve m.seg .write 1 1 ((← get).ea m) (halfBytes o.l)
    let r ← commit (fpMap 128 32 16 (toHalf o.imm) (← fpEnv) v)
    modify fun s => s.physWrite as r.toNat) s
/-- ROUNDPD (spec/55_r_rcl-rsqrtss.md rule R1005). -/
def execRoundpd (o : XXI) (s : State) : Host.Outcome State Fault Refusal :=
  run (xFp1 .sse41 64 (roundOp f64 o.imm) { dst := o.dst, src := o.src }) s
/-- VROUNDPD (spec/55_r_rcl-rsqrtss.md rule R1005). -/
def execVroundpd (o : VXI) (s : State) : Host.Outcome State Fault Refusal :=
  run (vFp1 64 (roundOp f64 o.imm) { l := o.l, dst := o.dst, src := o.src }) s
/-- ROUNDPS (spec/55_r_rcl-rsqrtss.md rule R1006). -/
def execRoundps (o : XXI) (s : State) : Host.Outcome State Fault Refusal :=
  run (xFp1 .sse41 32 (roundOp f32 o.imm) { dst := o.dst, src := o.src }) s
/-- VROUNDPS (spec/55_r_rcl-rsqrtss.md rule R1006). -/
def execVroundps (o : VXI) (s : State) : Host.Outcome State Fault Refusal :=
  run (vFp1 32 (roundOp f32 o.imm) { l := o.l, dst := o.dst, src := o.src }) s
/-- ROUNDSD (spec/55_r_rcl-rsqrtss.md rule R1007). -/
def execRoundsd (o : XXI) (s : State) : Host.Outcome State Fault Refusal :=
  run (xxScalar .sse41 8 64 (onSecond (roundOp f64 o.imm)) { dst := o.dst, src := o.src }) s
/-- VROUNDSD (spec/55_r_rcl-rsqrtss.md rule R1007). -/
def execVroundsd (o : VVXI) (s : State) : Host.Outcome State Fault Refusal :=
  run (vvxScalar [.avx] 8 64 (onSecond (roundOp f64 o.imm)) { l := o.l, dst := o.dst, a := o.a, b := o.b }) s
/-- ROUNDSS (spec/55_r_rcl-rsqrtss.md rule R1008). -/
def execRoundss (o : XXI) (s : State) : Host.Outcome State Fault Refusal :=
  run (xxScalar .sse41 4 32 (onSecond (roundOp f32 o.imm)) { dst := o.dst, src := o.src }) s
/-- VROUNDSS (spec/55_r_rcl-rsqrtss.md rule R1008). -/
def execVroundss (o : VVXI) (s : State) : Host.Outcome State Fault Refusal :=
  run (vvxScalar [.avx] 4 32 (onSecond (roundOp f32 o.imm)) { l := o.l, dst := o.dst, a := o.a, b := o.b }) s
/-- RCPPS (spec/55_r_rcl-rsqrtss.md rule R987). -/
def execRcpps (o : XX) (s : State) : Host.Outcome State Fault Refusal := run (xApprox rcpApprox o) s
/-- VRCPPS (spec/55_r_rcl-rsqrtss.md rule R987). -/
def execVrcpps (o : VX) (s : State) : Host.Outcome State Fault Refusal := run (vApprox rcpApprox o) s
/-- RCPSS (spec/55_r_rcl-rsqrtss.md rule R988). -/
def execRcpss (o : XX) (s : State) : Host.Outcome State Fault Refusal := run (xApproxScalar rcpApprox o) s
/-- VRCPSS (spec/55_r_rcl-rsqrtss.md rule R988). -/
def execVrcpss (o : VVX) (s : State) : Host.Outcome State Fault Refusal := run (vApproxScalar rcpApprox o) s
/-- RSQRTPS (spec/55_r_rcl-rsqrtss.md rule R1010). -/
def execRsqrtps (o : XX) (s : State) : Host.Outcome State Fault Refusal := run (xApprox rsqrtApprox o) s
/-- VRSQRTPS (spec/55_r_rcl-rsqrtss.md rule R1010). -/
def execVrsqrtps (o : VX) (s : State) : Host.Outcome State Fault Refusal := run (vApprox rsqrtApprox o) s
/-- RSQRTSS (spec/55_r_rcl-rsqrtss.md rule R1011). -/
def execRsqrtss (o : XX) (s : State) : Host.Outcome State Fault Refusal := run (xApproxScalar rsqrtApprox o) s
/-- VRSQRTSS (spec/55_r_rcl-rsqrtss.md rule R1011). -/
def execVrsqrtss (o : VVX) (s : State) : Host.Outcome State Fault Refusal := run (vApproxScalar rsqrtApprox o) s
/-- DPPD (spec/45_d_daa-extractps.md rule R612). -/
def execDppd (o : XXI) (s : State) : Host.Outcome State Fault Refusal := run (xDot f64 o) s
/-- DPPS (spec/45_d_daa-extractps.md rule R613). -/
def execDpps (o : XXI) (s : State) : Host.Outcome State Fault Refusal := run (xDot f32 o) s
/-- VDPPD (spec/45_d_daa-extractps.md rule R612). -/
def execVdppd (o : VVXI) (s : State) : Host.Outcome State Fault Refusal := run (vDot f64 o) s
/-- VDPPS (spec/45_d_daa-extractps.md rule R613). -/
def execVdpps (o : VVXI) (s : State) : Host.Outcome State Fault Refusal := run (vDot f32 o) s
/-- LDMXCSR (spec/49_j_jcc-lzcnt.md rule R745). -/
def execLdmxcsr (o : MemRef) (s : State) : Host.Outcome State Fault Refusal := run (needSse .sse *> loadMxcsr o) s
/-- VLDMXCSR (spec/49_j_jcc-lzcnt.md rule R745). -/
def execVldmxcsr (o : MemRef) (s : State) : Host.Outcome State Fault Refusal := run (needVex [.avx] *> loadMxcsr o) s
/-- STMXCSR (spec/56_s_sahf-sysret.md rule R1057). -/
def execStmxcsr (o : MemRef) (s : State) : Host.Outcome State Fault Refusal := run (needSse .sse *> storeMxcsr o) s
/-- VSTMXCSR (spec/56_s_sahf-sysret.md rule R1057). -/
def execVstmxcsr (o : MemRef) (s : State) : Host.Outcome State Fault Refusal := run (needVex [.avx] *> storeMxcsr o) s

end Sys2Proof.Machine
end

