-- ==== Sys2Proof/Machine/Fma.lean ====
section
/-! DEFINITION. Fused multiply-add (spec/57_t_test-vfnmsub.md rules R1088 to R1148): the exact product and one rounding, operands
in the order the suffix 132, 213 or 231 gives, the first operand also the destination. -/

namespace Sys2Proof.Machine

/-- Which operands are multiplied, and which is added (rule R1088): 132 multiplies operands 1 and 3, 213 operands 2 and 1, 231
operands 2 and 3. -/
inductive FmaOrder where
  | o132 | o213 | o231
deriving DecidableEq, Repr

/-- The factors and the addend. -/
def FmaOrder.pick {α : Type} (o : FmaOrder) (a b c : α) : α × α × α :=
  match o with
  | .o132 => (a, c, b)
  | .o213 => (b, a, c)
  | .o231 => (b, c, a)

/-- One fused operation on elements of operands 1, 2 and 3; `np` negates the product, `nc` the addend. A NaN operand gives the
first NaN in operand order, made quiet (rule R1088). -/
def fpFma (f : FpFmt) (o : FmaOrder) (np nc : Bool) (env : FpControl) (a0 b0 c0 : Nat) : FpOut :=
  let a := env.read f a0
  let b := env.read f b0
  let c := env.read f c0
  if f.isNan a || f.isNan b || f.isNan c then
    { bits := f.quiet (if f.isNan a then a else if f.isNan b then b else c)
      flags := flagIf (f.isSnan a || f.isSnan b || f.isSnan c) 1 }
  else
    let (x, y, z) := o.pick (f.unpack a) (f.unpack b) (f.unpack c)
    env.encode f (f.isDenormal a || f.isDenormal b || f.isDenormal c)
      (exactFma env.rc (if np then x.neg else x) y (if nc then z.neg else z))

/-- A packed fused operation: the signs of the addends of even and odd elements. -/
def fmaPacked (f : FpFmt) (o : FmaOrder) (np even odd : Bool) (x : VVX) : M Unit := do
  needVex [.fma]
  let c ← readVx x.l x.b
  let a ← readVec x.l x.dst
  let b ← readVec x.l x.a
  let env ← fpEnv
  let l := ((lanes f.width a).zip ((lanes f.width b).zip (lanes f.width c))).zipIdx
  let r ← commit (gatherOut x.l.bits f.width (l.map fun ((p, q, r), i) =>
    fpFma f o np (if i % 2 = 0 then even else odd) env p.toNat q.toNat r.toNat))
  writeVec x.dst r

/-- A scalar fused operation: bits 127:32 or 127:64 of operand 1 are kept. -/
def fmaScalar (f : FpFmt) (o : FmaOrder) (np nc : Bool) (x : VVX) : M Unit := do
  needVex [.fma]
  let c ← readXm .free (f.width / 8) x.b
  let a ← readXmm x.dst
  let b ← readXmm x.a
  let r ← commit (one f.width (fpFma f o np nc (← fpEnv) (a.toNat % 2 ^ f.width) (b.toNat % 2 ^ f.width) c.toNat))
  writeVec x.dst (withLow a r)

/-! The meanings. -/

/-- VFMADD132PD (spec/57_t_test-vfnmsub.md rule R1089). -/
def execVfmadd132pd (o : VVX) (s : State) : Host.Outcome State Fault Refusal :=
  run (fmaPacked f64 .o132 false false false o) s
/-- VFMADD132PS (spec/57_t_test-vfnmsub.md rule R1092). -/
def execVfmadd132ps (o : VVX) (s : State) : Host.Outcome State Fault Refusal :=
  run (fmaPacked f32 .o132 false false false o) s
/-- VFMADD132SD (spec/57_t_test-vfnmsub.md rule R1095). -/
def execVfmadd132sd (o : VVX) (s : State) : Host.Outcome State Fault Refusal := run (fmaScalar f64 .o132 false false o) s
/-- VFMADD132SS (spec/57_t_test-vfnmsub.md rule R1098). -/
def execVfmadd132ss (o : VVX) (s : State) : Host.Outcome State Fault Refusal := run (fmaScalar f32 .o132 false false o) s
/-- VFMADD213PD (spec/57_t_test-vfnmsub.md rule R1090). -/
def execVfmadd213pd (o : VVX) (s : State) : Host.Outcome State Fault Refusal :=
  run (fmaPacked f64 .o213 false false false o) s
/-- VFMADD213PS (spec/57_t_test-vfnmsub.md rule R1093). -/
def execVfmadd213ps (o : VVX) (s : State) : Host.Outcome State Fault Refusal :=
  run (fmaPacked f32 .o213 false false false o) s
/-- VFMADD213SD (spec/57_t_test-vfnmsub.md rule R1096). -/
def execVfmadd213sd (o : VVX) (s : State) : Host.Outcome State Fault Refusal := run (fmaScalar f64 .o213 false false o) s
/-- VFMADD213SS (spec/57_t_test-vfnmsub.md rule R1099). -/
def execVfmadd213ss (o : VVX) (s : State) : Host.Outcome State Fault Refusal := run (fmaScalar f32 .o213 false false o) s
/-- VFMADD231PD (spec/57_t_test-vfnmsub.md rule R1091). -/
def execVfmadd231pd (o : VVX) (s : State) : Host.Outcome State Fault Refusal :=
  run (fmaPacked f64 .o231 false false false o) s
/-- VFMADD231PS (spec/57_t_test-vfnmsub.md rule R1094). -/
def execVfmadd231ps (o : VVX) (s : State) : Host.Outcome State Fault Refusal :=
  run (fmaPacked f32 .o231 false false false o) s
/-- VFMADD231SD (spec/57_t_test-vfnmsub.md rule R1097). -/
def execVfmadd231sd (o : VVX) (s : State) : Host.Outcome State Fault Refusal := run (fmaScalar f64 .o231 false false o) s
/-- VFMADD231SS (spec/57_t_test-vfnmsub.md rule R1100). -/
def execVfmadd231ss (o : VVX) (s : State) : Host.Outcome State Fault Refusal := run (fmaScalar f32 .o231 false false o) s
/-- VFMSUB132PD (spec/57_t_test-vfnmsub.md rule R1113). -/
def execVfmsub132pd (o : VVX) (s : State) : Host.Outcome State Fault Refusal := run (fmaPacked f64 .o132 false true true o) s
/-- VFMSUB132PS (spec/57_t_test-vfnmsub.md rule R1116). -/
def execVfmsub132ps (o : VVX) (s : State) : Host.Outcome State Fault Refusal := run (fmaPacked f32 .o132 false true true o) s
/-- VFMSUB132SD (spec/57_t_test-vfnmsub.md rule R1119). -/
def execVfmsub132sd (o : VVX) (s : State) : Host.Outcome State Fault Refusal := run (fmaScalar f64 .o132 false true o) s
/-- VFMSUB132SS (spec/57_t_test-vfnmsub.md rule R1122). -/
def execVfmsub132ss (o : VVX) (s : State) : Host.Outcome State Fault Refusal := run (fmaScalar f32 .o132 false true o) s
/-- VFMSUB213PD (spec/57_t_test-vfnmsub.md rule R1114). -/
def execVfmsub213pd (o : VVX) (s : State) : Host.Outcome State Fault Refusal := run (fmaPacked f64 .o213 false true true o) s
/-- VFMSUB213PS (spec/57_t_test-vfnmsub.md rule R1117). -/
def execVfmsub213ps (o : VVX) (s : State) : Host.Outcome State Fault Refusal := run (fmaPacked f32 .o213 false true true o) s
/-- VFMSUB213SD (spec/57_t_test-vfnmsub.md rule R1120). -/
def execVfmsub213sd (o : VVX) (s : State) : Host.Outcome State Fault Refusal := run (fmaScalar f64 .o213 false true o) s
/-- VFMSUB213SS (spec/57_t_test-vfnmsub.md rule R1123). -/
def execVfmsub213ss (o : VVX) (s : State) : Host.Outcome State Fault Refusal := run (fmaScalar f32 .o213 false true o) s
/-- VFMSUB231PD (spec/57_t_test-vfnmsub.md rule R1115). -/
def execVfmsub231pd (o : VVX) (s : State) : Host.Outcome State Fault Refusal := run (fmaPacked f64 .o231 false true true o) s
/-- VFMSUB231PS (spec/57_t_test-vfnmsub.md rule R1118). -/
def execVfmsub231ps (o : VVX) (s : State) : Host.Outcome State Fault Refusal := run (fmaPacked f32 .o231 false true true o) s
/-- VFMSUB231SD (spec/57_t_test-vfnmsub.md rule R1121). -/
def execVfmsub231sd (o : VVX) (s : State) : Host.Outcome State Fault Refusal := run (fmaScalar f64 .o231 false true o) s
/-- VFMSUB231SS (spec/57_t_test-vfnmsub.md rule R1124). -/
def execVfmsub231ss (o : VVX) (s : State) : Host.Outcome State Fault Refusal := run (fmaScalar f32 .o231 false true o) s
/-- VFNMADD132PD (spec/57_t_test-vfnmsub.md rule R1125). -/
def execVfnmadd132pd (o : VVX) (s : State) : Host.Outcome State Fault Refusal :=
  run (fmaPacked f64 .o132 true false false o) s
/-- VFNMADD132PS (spec/57_t_test-vfnmsub.md rule R1128). -/
def execVfnmadd132ps (o : VVX) (s : State) : Host.Outcome State Fault Refusal :=
  run (fmaPacked f32 .o132 true false false o) s
/-- VFNMADD132SD (spec/57_t_test-vfnmsub.md rule R1131). -/
def execVfnmadd132sd (o : VVX) (s : State) : Host.Outcome State Fault Refusal := run (fmaScalar f64 .o132 true false o) s
/-- VFNMADD132SS (spec/57_t_test-vfnmsub.md rule R1134). -/
def execVfnmadd132ss (o : VVX) (s : State) : Host.Outcome State Fault Refusal := run (fmaScalar f32 .o132 true false o) s
/-- VFNMADD213PD (spec/57_t_test-vfnmsub.md rule R1126). -/
def execVfnmadd213pd (o : VVX) (s : State) : Host.Outcome State Fault Refusal :=
  run (fmaPacked f64 .o213 true false false o) s
/-- VFNMADD213PS (spec/57_t_test-vfnmsub.md rule R1129). -/
def execVfnmadd213ps (o : VVX) (s : State) : Host.Outcome State Fault Refusal :=
  run (fmaPacked f32 .o213 true false false o) s
/-- VFNMADD213SD (spec/57_t_test-vfnmsub.md rule R1132). -/
def execVfnmadd213sd (o : VVX) (s : State) : Host.Outcome State Fault Refusal := run (fmaScalar f64 .o213 true false o) s
/-- VFNMADD213SS (spec/57_t_test-vfnmsub.md rule R1135). -/
def execVfnmadd213ss (o : VVX) (s : State) : Host.Outcome State Fault Refusal := run (fmaScalar f32 .o213 true false o) s
/-- VFNMADD231PD (spec/57_t_test-vfnmsub.md rule R1127). -/
def execVfnmadd231pd (o : VVX) (s : State) : Host.Outcome State Fault Refusal :=
  run (fmaPacked f64 .o231 true false false o) s
/-- VFNMADD231PS (spec/57_t_test-vfnmsub.md rule R1130). -/
def execVfnmadd231ps (o : VVX) (s : State) : Host.Outcome State Fault Refusal :=
  run (fmaPacked f32 .o231 true false false o) s
/-- VFNMADD231SD (spec/57_t_test-vfnmsub.md rule R1133). -/
def execVfnmadd231sd (o : VVX) (s : State) : Host.Outcome State Fault Refusal := run (fmaScalar f64 .o231 true false o) s
/-- VFNMADD231SS (spec/57_t_test-vfnmsub.md rule R1136). -/
def execVfnmadd231ss (o : VVX) (s : State) : Host.Outcome State Fault Refusal := run (fmaScalar f32 .o231 true false o) s
/-- VFNMSUB132PD (spec/57_t_test-vfnmsub.md rule R1137). -/
def execVfnmsub132pd (o : VVX) (s : State) : Host.Outcome State Fault Refusal := run (fmaPacked f64 .o132 true true true o) s
/-- VFNMSUB132PS (spec/57_t_test-vfnmsub.md rule R1140). -/
def execVfnmsub132ps (o : VVX) (s : State) : Host.Outcome State Fault Refusal := run (fmaPacked f32 .o132 true true true o) s
/-- VFNMSUB132SD (spec/57_t_test-vfnmsub.md rule R1143). -/
def execVfnmsub132sd (o : VVX) (s : State) : Host.Outcome State Fault Refusal := run (fmaScalar f64 .o132 true true o) s
/-- VFNMSUB132SS (spec/57_t_test-vfnmsub.md rule R1146). -/
def execVfnmsub132ss (o : VVX) (s : State) : Host.Outcome State Fault Refusal := run (fmaScalar f32 .o132 true true o) s
/-- VFNMSUB213PD (spec/57_t_test-vfnmsub.md rule R1138). -/
def execVfnmsub213pd (o : VVX) (s : State) : Host.Outcome State Fault Refusal := run (fmaPacked f64 .o213 true true true o) s
/-- VFNMSUB213PS (spec/57_t_test-vfnmsub.md rule R1141). -/
def execVfnmsub213ps (o : VVX) (s : State) : Host.Outcome State Fault Refusal := run (fmaPacked f32 .o213 true true true o) s
/-- VFNMSUB213SD (spec/57_t_test-vfnmsub.md rule R1144). -/
def execVfnmsub213sd (o : VVX) (s : State) : Host.Outcome State Fault Refusal := run (fmaScalar f64 .o213 true true o) s
/-- VFNMSUB213SS (spec/57_t_test-vfnmsub.md rule R1147). -/
def execVfnmsub213ss (o : VVX) (s : State) : Host.Outcome State Fault Refusal := run (fmaScalar f32 .o213 true true o) s
/-- VFNMSUB231PD (spec/57_t_test-vfnmsub.md rule R1139). -/
def execVfnmsub231pd (o : VVX) (s : State) : Host.Outcome State Fault Refusal := run (fmaPacked f64 .o231 true true true o) s
/-- VFNMSUB231PS (spec/57_t_test-vfnmsub.md rule R1142). -/
def execVfnmsub231ps (o : VVX) (s : State) : Host.Outcome State Fault Refusal := run (fmaPacked f32 .o231 true true true o) s
/-- VFNMSUB231SD (spec/57_t_test-vfnmsub.md rule R1145). -/
def execVfnmsub231sd (o : VVX) (s : State) : Host.Outcome State Fault Refusal := run (fmaScalar f64 .o231 true true o) s
/-- VFNMSUB231SS (spec/57_t_test-vfnmsub.md rule R1148). -/
def execVfnmsub231ss (o : VVX) (s : State) : Host.Outcome State Fault Refusal := run (fmaScalar f32 .o231 true true o) s
/-- VFMADDSUB132PD (spec/57_t_test-vfnmsub.md rule R1101). -/
def execVfmaddsub132pd (o : VVX) (s : State) : Host.Outcome State Fault Refusal :=
  run (fmaPacked f64 .o132 false true false o) s
/-- VFMADDSUB132PS (spec/57_t_test-vfnmsub.md rule R1104). -/
def execVfmaddsub132ps (o : VVX) (s : State) : Host.Outcome State Fault Refusal :=
  run (fmaPacked f32 .o132 false true false o) s
/-- VFMADDSUB213PD (spec/57_t_test-vfnmsub.md rule R1102). -/
def execVfmaddsub213pd (o : VVX) (s : State) : Host.Outcome State Fault Refusal :=
  run (fmaPacked f64 .o213 false true false o) s
/-- VFMADDSUB213PS (spec/57_t_test-vfnmsub.md rule R1105). -/
def execVfmaddsub213ps (o : VVX) (s : State) : Host.Outcome State Fault Refusal :=
  run (fmaPacked f32 .o213 false true false o) s
/-- VFMADDSUB231PD (spec/57_t_test-vfnmsub.md rule R1103). -/
def execVfmaddsub231pd (o : VVX) (s : State) : Host.Outcome State Fault Refusal :=
  run (fmaPacked f64 .o231 false true false o) s
/-- VFMADDSUB231PS (spec/57_t_test-vfnmsub.md rule R1106). -/
def execVfmaddsub231ps (o : VVX) (s : State) : Host.Outcome State Fault Refusal :=
  run (fmaPacked f32 .o231 false true false o) s
/-- VFMSUBADD132PD (spec/57_t_test-vfnmsub.md rule R1107). -/
def execVfmsubadd132pd (o : VVX) (s : State) : Host.Outcome State Fault Refusal :=
  run (fmaPacked f64 .o132 false false true o) s
/-- VFMSUBADD132PS (spec/57_t_test-vfnmsub.md rule R1110). -/
def execVfmsubadd132ps (o : VVX) (s : State) : Host.Outcome State Fault Refusal :=
  run (fmaPacked f32 .o132 false false true o) s
/-- VFMSUBADD213PD (spec/57_t_test-vfnmsub.md rule R1108). -/
def execVfmsubadd213pd (o : VVX) (s : State) : Host.Outcome State Fault Refusal :=
  run (fmaPacked f64 .o213 false false true o) s
/-- VFMSUBADD213PS (spec/57_t_test-vfnmsub.md rule R1111). -/
def execVfmsubadd213ps (o : VVX) (s : State) : Host.Outcome State Fault Refusal :=
  run (fmaPacked f32 .o213 false false true o) s
/-- VFMSUBADD231PD (spec/57_t_test-vfnmsub.md rule R1109). -/
def execVfmsubadd231pd (o : VVX) (s : State) : Host.Outcome State Fault Refusal :=
  run (fmaPacked f64 .o231 false false true o) s
/-- VFMSUBADD231PS (spec/57_t_test-vfnmsub.md rule R1112). -/
def execVfmsubadd231ps (o : VVX) (s : State) : Host.Outcome State Fault Refusal :=
  run (fmaPacked f32 .o231 false false true o) s

end Sys2Proof.Machine
end

