-- ==== Sys2Proof/Machine/SseMove.lean ====
section
/-! DEFINITION. Moves, bitwise logic, shuffles, blends and broadcasts of vectors, SSE to AVX2 (spec/50_m_maskmovdqu-movq2dq.md
rules R767 to R806, spec/56_s_sahf-sysret.md rules R1044 and R1045, spec/57_t_test-vfnmsub.md rules R1075 to R1087,
spec/58_v_vgather-vzeroupper.md rules R1149 to R1186). Values are moved as bit patterns. -/

namespace Sys2Proof.Machine

/-! Moves. -/

/-- Store the low n bytes of a value to memory. -/
def storeVec (al : Align) (m : MemRef) (n : Nat) {k : Nat} (v : BitVec k) : M Unit := do
  physWrite (← resolveVec .write al m n) (v.toNat % 2 ^ (8 * n))

/-- The legacy full-register moves (rules R783, R789): a load, a store, or a copy of a register. -/
def xmovRun (fx : Config.Feature) (al : Align) : XMov → M Unit
  | .load dst src => do
    needSse fx
    writeXmm dst (← readXm al 16 src)
  | .store (.reg dst) src => do
    needSse fx
    writeXmm dst (← readXmm src)
  | .store (.mem m) src => do
    needSse fx
    storeVec al m 16 (← readXmm src)

/-- The VEX full-register moves. -/
def vmovRun (al : Align) : VMov → M Unit
  | .load l dst src => do
    needVex [.avx]
    writeVec dst (← readXm al (vbytes l) src)
  | .store l (.reg dst) src => do
    needVex [.avx]
    writeVec dst (← readVec l src)
  | .store l (.mem m) src => do
    needVex [.avx]
    storeVec al m (vbytes l) (← readVec l src)

/-- MOVSS, MOVSD (spec/51_m_movs-outs.md rules R808, R811), n bytes: a register source replaces the low bits, a load zeroes the
rest of the XMM register. -/
def scalarMov (fx : Config.Feature) (n : Nat) : XMov → M Unit
  | .load dst (.reg src) => do
    needSse fx
    writeXmm dst (withLow (← readXmm dst) ((← readXmm src).setWidth (8 * n)))
  | .load dst (.mem m) => do
    needSse fx
    writeXmm dst ((← readXm .free n (.mem m)).setWidth 128)
  | .store (.reg dst) src => do
    needSse fx
    writeXmm dst (withLow (← readXmm dst) ((← readXmm src).setWidth (8 * n)))
  | .store (.mem m) src => do
    needSse fx
    storeVec .free m n (← readXmm src)

/-- VMOVSS, VMOVSD. -/
def vscalarMov (n : Nat) : VScalarMov → M Unit
  | .reg dst a b => do
    needVex [.avx]
    writeVec dst (withLow (← readXmm a) ((← readXmm b).setWidth (8 * n)))
  | .load dst m => do
    needVex [.avx]
    writeVec dst (← readXm .free n (.mem m))
  | .store m src => do
    needVex [.avx]
    storeVec .free m n (← readXmm src)

/-- The two quadwords as a vector. -/
def quads (hi lo : BitVec 64) : BitVec 128 := hi ++ lo

/-- MOVHPD, MOVLPD and their kin (rules R792, R795): the quadword `high` names moves. -/
def halfMov (fx : Config.Feature) (high : Bool) : XMemMov → M Unit
  | .load dst m => do
    needSse fx
    let v : BitVec 64 ← readXm .free 8 (.mem m)
    let d ← readXmm dst
    writeXmm dst (if high then quads v (lane 64 d 0) else quads (lane 64 d 1) v)
  | .store m src => do
    needSse fx
    storeVec .free m 8 (lane 64 (← readXmm src) high.toNat)

/-- VMOVHPD, VMOVLPD and their kin. -/
def vhalfMov (high : Bool) : VHalfMov → M Unit
  | .load dst a m => do
    needVex [.avx]
    let v : BitVec 64 ← readXm .free 8 (.mem m)
    let d ← readXmm a
    writeVec dst (if high then quads v (lane 64 d 0) else quads (lane 64 d 1) v)
  | .store m src => do
    needVex [.avx]
    storeVec .free m 8 (lane 64 (← readXmm src) high.toNat)

/-- The non-temporal stores (rule R800). -/
def ntStore (fx : Config.Feature) (o : MemX) : M Unit := do
  needSse fx
  storeVec .size o.mem 16 (← readXmm o.src)

/-- The VEX non-temporal stores. -/
def vntStore (o : VMemX) : M Unit := do
  needVex [.avx]
  storeVec .size o.mem (vbytes o.l) (← readVec o.l o.src)

/-- MOVD and MOVQ between a general register or memory and an mm or xmm register (rule R786). -/
def movdRun (w : Width) : MovdOps → M Unit
  | .toMm dst src => do
    needMmx .mmx
    let v ← readRm w src
    writeMm dst (v.setWidth 64)
    enterMmx
  | .fromMm dst src => do
    needMmx .mmx
    let v ← readMm src
    writeRm w dst (v.setWidth w.bits)
    enterMmx
  | .toX dst src => do
    needSse .sse2
    writeXmm dst ((← readRm w src).setWidth 128)
  | .fromX dst src => do
    needSse .sse2
    writeRm w dst ((← readXmm src).setWidth w.bits)

/-- VMOVD and VMOVQ with a general register or memory. -/
def vmovdRun (w : Width) : VMovd → M Unit
  | .load dst src => do
    needVex [.avx]
    writeVec dst (← readRm w src)
  | .store dst src => do
    needVex [.avx]
    writeRm w dst ((← readXmm src).setWidth w.bits)

/-- MOVQ between mm or xmm registers and memory; a pending x87 exception is #MF for every form (rule R805;
spec/61_exception_groups.md rule R2129). -/
def movqRun : MovqOps → M Unit
  | .mmLoad dst src => do
    needMmx .mmx
    writeMm dst (← readMmM 8 src)
    enterMmx
  | .mmStore (.reg dst) src => do
    needMmx .mmx
    writeMm dst (← readMm src)
    enterMmx
  | .mmStore (.mem m) src => do
    needMmx .mmx
    physWrite (← resolveMem .write m 8) (← readMm src).toNat
    enterMmx
  | .xLoad dst src => do
    needSse .sse2
    needNoPending
    writeXmm dst ((← readXm .free 8 src).setWidth 128)
  | .xStore (.reg dst) src => do
    needSse .sse2
    needNoPending
    writeXmm dst (((← readXmm src).setWidth 64).setWidth 128)
  | .xStore (.mem m) src => do
    needSse .sse2
    needNoPending
    storeVec .free m 8 (← readXmm src)

/-- VMOVQ between xmm registers and memory (rule R805). -/
def vmovqRun : VMov → M Unit
  | .load _ dst src => do
    needVex [.avx]
    writeVec dst (← readXm .free 8 src)
  | .store _ (.reg dst) src => do
    needVex [.avx]
    writeVec dst ((← readXmm src).setWidth 64)
  | .store _ (.mem m) src => do
    needVex [.avx]
    storeVec .free m 8 (← readXmm src)

/-- The addresses of the bytes a mask selects, with their values: every byte is resolved before the first is written (rule R767,
decision D39); the operand does not wrap (spec/20_memory.md rule R211). -/
def maskedBytes (seg : SReg) (at0 : Word) : List (Bool × BitVec 8) → Nat → M (List (List Nat × Nat))
  | [], _ => return []
  | (sel, v) :: rest, i => do
    if sel then
      let as ← resolve seg .write 1 1 (at0 + BitVec.ofNat 64 i) 1
      return (as, v.toNat) :: (← maskedBytes seg at0 rest (i + 1))
    else maskedBytes seg at0 rest (i + 1)

/-- Write resolved parts in order. -/
def storeParts (l : List (List Nat × Nat)) : M Unit := l.forM fun p => physWrite p.1 p.2

/-- MASKMOVDQU and MASKMOVQ (rules R767, R768): the selected bytes of `src` go to seg:rDI. -/
def maskStore {n : Nat} (a : ASize) (ovr : Option SReg) (src mask : BitVec n) : M Unit := do
  let di ← readAddr a rDI
  storeParts (← maskedBytes (ovr.getD .ds) di (List.zip ((lanes 8 mask).map (·.msb)) (lanes 8 src)) 0)

/-- MOVMSKPD, MOVMSKPS: the sign bits of the elements (rule R797). -/
def signMask (w : Nat) (dst : Reg) {n : Nat} (v : BitVec n) : M Unit := writeWide dst (BitVec.ofNat 64 (topBits w v))

/-! Shuffles. -/

/-- SHUFPD on a vector of any width (spec/56_s_sahf-sysret.md rule R1044). -/
def shufPd (imm : BitVec 8) : Op2 := fun n a b =>
  ofLanes n ((List.range (n / 64)).map fun i =>
    lane 64 (if i % 2 = 0 then a else b) (i / 2 * 2 + (imm.getLsbD i).toNat))

/-- SHUFPS on 128 bits (spec/56_s_sahf-sysret.md rule R1045). -/
def shufPs (imm : BitVec 8) (a b : BitVec 128) : BitVec 128 :=
  ofLanes 128 [selectBy 32 imm a 0, selectBy 32 imm a 1, selectBy 32 imm b 2, selectBy 32 imm b 3]

/-- A blend by the bits of an immediate (spec/41_b_blendpd-bzhi.md rule R527). -/
def blendImm (w : Nat) (imm : BitVec 8) : Op2 := fun n a b =>
  ofLanes n ((List.range (n / w)).map fun i => if imm.getLsbD i then lane w b i else lane w a i)

/-- Each element of odd index, or of even index, twice (spec/51_m_movs-outs.md rules R809, R810). -/
def duplicate (w : Nat) (odd : Bool) : Op1 := fun n a =>
  ofLanes n ((List.range (n / w)).map fun i => lane w a (i / 2 * 2 + odd.toNat))

/-- INSERTPS after the element is chosen (spec/48_h_haddpd-iret.md rule R714). -/
def insertPs (imm : BitVec 8) (a : BitVec 128) (x : BitVec 32) : BitVec 128 :=
  let d := (imm.extractLsb' 4 2).toNat
  ofLanes 128 ((List.range 4).map fun k => if imm.getLsbD k then 0 else if k = d then x else lane 32 a k)

/-- The element INSERTPS takes: chosen by the immediate in a register, the doubleword in memory. -/
def insertPsSource (imm : BitVec 8) : Xm → M (BitVec 32)
  | .reg r => do return lane 32 (← readXmm r) (imm.extractLsb' 6 2).toNat
  | .mem m => readXm .free 4 (.mem m)

/-- The low element repeated. -/
def broadcast (n w : Nat) {k : Nat} (v : BitVec k) : BitVec n := ofLanes n (List.replicate (n / w) (v.setWidth w))

/-- VBROADCASTSS and its kin: n bytes; `fs` by whether the source is a register; #AC for 4 and 8 bytes only (Type 6,
spec/61_exception_groups.md rule R2116). -/
def broadcastRun (fs : Bool → List Config.Feature) (n : Nat) (o : VX) : M Unit := do
  needVex (fs (match o.src with | .reg _ => true | .mem _ => false))
  let v ← readXm (if n < 4 then .silent else .free) n o.src
  writeVec o.dst (broadcast o.l.bits (8 * n) v)

/-- A register source of VBROADCASTSS and VBROADCASTSD needs AVX2 (spec/57_t_test-vfnmsub.md, before rule R1079). -/
def avxOrAvx2 (isReg : Bool) : List Config.Feature := if isReg then [.avx, .avx2] else [.avx]

/-- VBROADCASTF128, VBROADCASTI128. -/
def broadcast128 (f : Config.Feature) (o : VXMem) : M Unit := do
  needVex [f]
  let v : BitVec 128 ← readXm .free 16 (.mem o.mem)
  writeVec o.dst (v ++ v)

/-- VEXTRACTF128, VEXTRACTI128 (spec/57_t_test-vfnmsub.md rule R1086). -/
def extract128 (f : Config.Feature) (o : VExtOps) : M Unit := do
  needVex [f]
  let v := lane 128 (← readVec .l256 o.src) (o.imm.getLsbD 0).toNat
  match o.dst with
  | .reg r => writeVec r v
  | .mem m => storeVec .free m 16 v

/-- VINSERTF128, VINSERTI128 (rule R1158). -/
def insert128 (f : Config.Feature) (o : VVXI) : M Unit := do
  needVex [f]
  let v : BitVec 128 ← readXm .free 16 o.b
  let a ← readVec .l256 o.a
  writeVec o.dst (if o.imm.getLsbD 0 then v ++ lane 128 a 0 else lane 128 a 1 ++ v)

/-- One half of VPERM2F128 (rule R1172): a 4-bit control. -/
def permHalf (c : BitVec 4) (a b : BitVec 256) : BitVec 128 :=
  if c.getLsbD 3 then 0 else lane 128 (if c.getLsbD 1 then b else a) (c.getLsbD 0).toNat

/-- VPERM2F128, VPERM2I128 (rule R1172). -/
def perm128 (f : Config.Feature) (o : VVXI) : M Unit := do
  needVex [f]
  let b : BitVec 256 ← readXm .free 32 o.b
  let a ← readVec .l256 o.a
  writeVec o.dst (permHalf (o.imm.extractLsb' 4 4) a b ++ permHalf (o.imm.extractLsb' 0 4) a b)

/-- VPERMD, VPERMPS (rule R1168): the indices in the first source, the data in the second. -/
def permDwords (o : VVX) : M Unit := do
  needVex [.avx2]
  let b : BitVec 256 ← readXm .free 32 o.b
  writeVec o.dst (ofLanes 256 ((lanes 32 (← readVec .l256 o.a)).map fun i => lane 32 b (i.toNat % 8)))

/-- VPERMQ, VPERMPD (rule R1169). -/
def permQwords (o : VXI) : M Unit := do
  needVex [.avx2]
  let b : BitVec 256 ← readXm .free 32 o.src
  writeVec o.dst (ofLanes 256 ((List.range 4).map (selectBy 64 o.imm b)))

/-- VPERMILPD (rule R1174): bit i of the control chooses in the 128-bit lane of element i. -/
def permilPd {n : Nat} (ctl : Nat → Bool) (v : BitVec n) : BitVec n :=
  ofLanes n ((List.range (n / 64)).map fun i => lane 64 v (i / 2 * 2 + (ctl i).toNat))

/-- VPERMILPS (rule R1175): the 2-bit control of element i chooses in its 128-bit lane. -/
def permilPs {n : Nat} (ctl : Nat → BitVec 2) (v : BitVec n) : BitVec n :=
  ofLanes n ((List.range (n / 32)).map fun i => lane 32 v (i / 4 * 4 + (ctl i).toNat))

/-- A variable shift of each element by the element of the second source, the whole of it a count (rule R1178). -/
def varShift (w : Nat) (f : Nat → BitVec w → BitVec w) (o : VVX) : M Unit := do
  needVex [.avx2]
  let b ← readVx o.l o.b
  writeVec o.dst (zip w (fun x c => f c.toNat x) o.l.bits (← readVec o.l o.a) b)

/-- VTESTPS, VTESTPD: as PTEST on the sign bits (rule R1183). -/
def signTest (w : Nat) (o : VX) : M Unit := do
  needVex [.avx]
  let b ← readVx o.l o.src
  let a ← readVec o.l o.dst
  setTest (BitVec.ofNat 8 (topBits w a)) (BitVec.ofNat 8 (topBits w b))

/-! Masked moves (rules R1160, R1176; decision D60): only enabled elements are accessed, without #AC, in ascending order. -/

/-- The addresses of the enabled elements of n bytes, or nothing for the others; the offsets do not wrap (spec/20_memory.md rule
R211). -/
def maskedParts (k : Kind) (m : MemRef) (n : Nat) : List Bool → Nat → M (List (Option (List Nat)))
  | [], _ => return []
  | e :: es, j => do
    if e then
      let s ← get
      let as ← resolve m.seg k 1 1 (s.ea m + BitVec.ofNat 64 (n * j)) n
      return some as :: (← maskedParts k m n es (j + 1))
    else return none :: (← maskedParts k m n es (j + 1))

/-- VMASKMOVPS and its kin, elements of n bytes. -/
def maskMov (f : Config.Feature) (n : Nat) : VMaskMov → M Unit
  | .load l dst mask m => do
    needVex [f]
    let ps ← maskedParts .read m n ((lanes (8 * n) (← readVec l mask)).map (·.msb)) 0
    let mem := (← get).mem
    let vs : List (BitVec (8 * n)) := ps.map fun p => match p with
      | some as => BitVec.ofNat (8 * n) (mem.readList as)
      | none => 0
    writeVec dst (ofLanes l.bits vs)
  | .store l m mask src => do
    needVex [f]
    let ps ← maskedParts .write m n ((lanes (8 * n) (← readVec l mask)).map (·.msb)) 0
    let vs := lanes (8 * n) (← readVec l src)
    storeParts ((List.zip ps vs).filterMap fun (p, v) => p.map fun as => (as, v.toNat))

/-! Gathers (rule R1149). -/

/-- The element numbers, index width and data width of a gather. -/
structure GatherShape where
  count : Nat
  iw : Nat
  dw : Nat
deriving DecidableEq, Repr

/-- Elements j of MASK from `from` on extended to all ones or 0 by their top bit, elements below `from` zeroed. -/
def gatherMask (g : GatherShape) (done : Nat) (mask : BitVec 256) : BitVec 256 :=
  (List.range g.count).foldl
    (fun acc j => replaceLane acc j (maskOf g.dw (decide (done ≤ j) && (lane g.dw mask j).msb))) mask

/-- The state kept when element f faults (decision D59). -/
def State.gatherPause (s : State) (g : GatherShape) (o : VGather) (done : Nat) : State :=
  { s with ymm := s.ymm.set o.mask (gatherMask g done (s.ymm.get o.mask)) }

/-- The address of element j: an index is sign-extended, the sum is cut to the address size. -/
def State.gatherAddr (s : State) (g : GatherShape) (o : VGather) (j : Nat) : Word :=
  o.mem.asz.trunc (s.addrReg o.mem.base
    + ((lane g.iw (s.ymm.get o.mem.index) j).signExtend 64 <<< o.mem.scale.val) + o.mem.disp.signExtend 64)

/-- The data breakpoints that the enabled elements below j match. -/
def State.gatherBreaks (s : State) (g : GatherShape) (o : VGather) (j : Nat) : BitVec 16 :=
  ((List.range j).filter fun i => (lane g.dw (s.ymm.get o.mask) i).msb).foldl
    (fun acc i => acc ||| s.dataBreaks false (s.linear o.mem.seg (s.segOf o.mem.seg) (s.gatherAddr g o i)) (g.dw / 8)) 0

/-- The fault of element f: a data breakpoint that an earlier element met comes first (rule R1149). -/
def gatherFault (met : BitVec 16) (e : Exc) : Exc :=
  if met ≠ 0 then { vec := 1, dr6 := met, keep := true } else { e with keep := true }

/-- The elements from j on, `left` of them, in ascending order (rule R1149 loop 2), without #AC ("This instruction does not
perform AC checks"). `s0` is the state at the start. -/
def gatherLoop (g : GatherShape) (o : VGather) (s0 : State) : Nat → Nat → M Unit
  | 0, _ => pure ()
  | left + 1, j => do
    let s ← get
    if (lane g.dw (s0.ymm.get o.mask) j).msb then
      match (resolve o.mem.seg .read 1 1 (s0.gatherAddr g o j) (g.dw / 8)).run s with
      | .ok as t =>
        let v : BitVec g.dw := BitVec.ofNat g.dw (t.mem.readList as)
        set { t with ymm := t.ymm.set o.dst (replaceLane (t.ymm.get o.dst) j v) }
      | .error (.exc e) t =>
        set (t.gatherPause g o j)
        raise (gatherFault (s0.gatherBreaks g o j) e)
      | .error x t =>
        set t
        throw x
    gatherLoop g o s0 left (j + 1)

/-- A gather: the loop, then the closing statements of rule R1149. -/
def gatherRun (g : VLen → GatherShape) (o : VGather) : M Unit := do
  ensure (decide (o.dst ≠ o.mask ∧ o.dst ≠ o.mem.index ∧ o.mask ≠ o.mem.index)) raiseUD
  needVex [.avx2]
  let s0 ← get
  let h := g o.l
  gatherLoop h o s0 h.count 0
  modify fun s =>
    { s with ymm := (s.ymm.set o.dst (((s.ymm.get o.dst).setWidth (h.dw * h.count)).setWidth 256)).set o.mask 0 }

/-- Rule R1150 and its kin: the data width times the count is the vector length, unless quadword indices choose doublewords. -/
def gatherShape (iw dw : Nat) (l : VLen) : GatherShape := { count := l.bits / max iw dw, iw := iw, dw := dw }

/-! Zeroing. -/

/-- The YMM registers with those of the mode changed: all sixteen in 64-bit mode, else the first eight (rule R1185). -/
def State.mapReachable (s : State) (f : BitVec 256 → BitVec 256) : Vector (BitVec 256) 16 :=
  s.ymm.mapIdx fun i v => if s.isLong || decide (i < 8) then f v else v

/-! The meanings. -/

/-- MOVAPD (spec/50_m_maskmovdqu-movq2dq.md rule R783). -/
def execMovapd (o : XMov) (s : State) : Host.Outcome State Fault Refusal := run (xmovRun .sse2 .size o) s
/-- VMOVAPD (spec/50_m_maskmovdqu-movq2dq.md rule R783). -/
def execVmovapd (o : VMov) (s : State) : Host.Outcome State Fault Refusal := run (vmovRun .size o) s
/-- MOVAPS (spec/50_m_maskmovdqu-movq2dq.md rule R784). -/
def execMovaps (o : XMov) (s : State) : Host.Outcome State Fault Refusal := run (xmovRun .sse .size o) s
/-- VMOVAPS (spec/50_m_maskmovdqu-movq2dq.md rule R784). -/
def execVmovaps (o : VMov) (s : State) : Host.Outcome State Fault Refusal := run (vmovRun .size o) s
/-- MOVDQA (spec/50_m_maskmovdqu-movq2dq.md rule R788). -/
def execMovdqa (o : XMov) (s : State) : Host.Outcome State Fault Refusal := run (xmovRun .sse2 .size o) s
/-- VMOVDQA (spec/50_m_maskmovdqu-movq2dq.md rule R788). -/
def execVmovdqa (o : VMov) (s : State) : Host.Outcome State Fault Refusal := run (vmovRun .size o) s
/-- MOVUPD (spec/51_m_movs-outs.md rule R813). -/
def execMovupd (o : XMov) (s : State) : Host.Outcome State Fault Refusal := run (xmovRun .sse2 .loose o) s
/-- VMOVUPD (spec/51_m_movs-outs.md rule R813). -/
def execVmovupd (o : VMov) (s : State) : Host.Outcome State Fault Refusal := run (vmovRun .loose o) s
/-- MOVUPS (spec/51_m_movs-outs.md rule R814). -/
def execMovups (o : XMov) (s : State) : Host.Outcome State Fault Refusal := run (xmovRun .sse .loose o) s
/-- VMOVUPS (spec/51_m_movs-outs.md rule R814). -/
def execVmovups (o : VMov) (s : State) : Host.Outcome State Fault Refusal := run (vmovRun .loose o) s
/-- MOVDQU (spec/50_m_maskmovdqu-movq2dq.md rule R789). -/
def execMovdqu (o : XMov) (s : State) : Host.Outcome State Fault Refusal := run (xmovRun .sse2 .loose o) s
/-- VMOVDQU (spec/50_m_maskmovdqu-movq2dq.md rule R789). -/
def execVmovdqu (o : VMov) (s : State) : Host.Outcome State Fault Refusal := run (vmovRun .loose o) s
/-- MOVSD (spec/51_m_movs-outs.md rule R808). -/
def execMovsdSse (o : XMov) (s : State) : Host.Outcome State Fault Refusal := run (scalarMov .sse2 8 o) s
/-- MOVSS (spec/51_m_movs-outs.md rule R811). -/
def execMovss (o : XMov) (s : State) : Host.Outcome State Fault Refusal := run (scalarMov .sse 4 o) s
/-- VMOVSD (spec/51_m_movs-outs.md rule R808). -/
def execVmovsd (o : VScalarMov) (s : State) : Host.Outcome State Fault Refusal := run (vscalarMov 8 o) s
/-- VMOVSS (spec/51_m_movs-outs.md rule R811). -/
def execVmovss (o : VScalarMov) (s : State) : Host.Outcome State Fault Refusal := run (vscalarMov 4 o) s
/-- MOVHPD (spec/50_m_maskmovdqu-movq2dq.md rule R792). -/
def execMovhpd (o : XMemMov) (s : State) : Host.Outcome State Fault Refusal := run (halfMov .sse2 true o) s
/-- VMOVHPD (spec/50_m_maskmovdqu-movq2dq.md rule R792). -/
def execVmovhpd (o : VHalfMov) (s : State) : Host.Outcome State Fault Refusal := run (vhalfMov true o) s
/-- MOVHPS (spec/50_m_maskmovdqu-movq2dq.md rule R793). -/
def execMovhps (o : XMemMov) (s : State) : Host.Outcome State Fault Refusal := run (halfMov .sse true o) s
/-- VMOVHPS (spec/50_m_maskmovdqu-movq2dq.md rule R793). -/
def execVmovhps (o : VHalfMov) (s : State) : Host.Outcome State Fault Refusal := run (vhalfMov true o) s
/-- MOVLPD (spec/50_m_maskmovdqu-movq2dq.md rule R795). -/
def execMovlpd (o : XMemMov) (s : State) : Host.Outcome State Fault Refusal := run (halfMov .sse2 false o) s
/-- VMOVLPD (spec/50_m_maskmovdqu-movq2dq.md rule R795). -/
def execVmovlpd (o : VHalfMov) (s : State) : Host.Outcome State Fault Refusal := run (vhalfMov false o) s
/-- MOVLPS (spec/50_m_maskmovdqu-movq2dq.md rule R796). -/
def execMovlps (o : XMemMov) (s : State) : Host.Outcome State Fault Refusal := run (halfMov .sse false o) s
/-- VMOVLPS (spec/50_m_maskmovdqu-movq2dq.md rule R796). -/
def execVmovlps (o : VHalfMov) (s : State) : Host.Outcome State Fault Refusal := run (vhalfMov false o) s
/-- MOVHLPS (spec/50_m_maskmovdqu-movq2dq.md rule R791). -/
def execMovhlps (o : XReg) (s : State) : Host.Outcome State Fault Refusal := run (do
  needSse .sse
  writeXmm o.dst (quads (lane 64 (← readXmm o.dst) 1) (lane 64 (← readXmm o.src) 1))) s
/-- MOVLHPS (spec/50_m_maskmovdqu-movq2dq.md rule R794). -/
def execMovlhps (o : XReg) (s : State) : Host.Outcome State Fault Refusal := run (do
  needSse .sse
  writeXmm o.dst (quads (lane 64 (← readXmm o.src) 0) (lane 64 (← readXmm o.dst) 0))) s
/-- VMOVHLPS (spec/50_m_maskmovdqu-movq2dq.md rule R791). -/
def execVmovhlps (o : VReg3) (s : State) : Host.Outcome State Fault Refusal := run (do
  needVex [.avx]
  writeVec o.dst (quads (lane 64 (← readXmm o.a) 1) (lane 64 (← readXmm o.b) 1))) s
/-- VMOVLHPS (spec/50_m_maskmovdqu-movq2dq.md rule R794). -/
def execVmovlhps (o : VReg3) (s : State) : Host.Outcome State Fault Refusal := run (do
  needVex [.avx]
  writeVec o.dst (quads (lane 64 (← readXmm o.b) 0) (lane 64 (← readXmm o.a) 0))) s
/-- MOVMSKPD (spec/50_m_maskmovdqu-movq2dq.md rule R797). -/
def execMovmskpd (o : XReg) (s : State) : Host.Outcome State Fault Refusal := run (do
  needSse .sse2
  signMask 64 o.dst (← readXmm o.src)) s
/-- VMOVMSKPD (spec/50_m_maskmovdqu-movq2dq.md rule R797). -/
def execVmovmskpd (o : VGMask) (s : State) : Host.Outcome State Fault Refusal := run (do
  needVex [.avx]
  signMask 64 o.dst (← readVec o.l o.src)) s
/-- MOVMSKPS (spec/50_m_maskmovdqu-movq2dq.md rule R798). -/
def execMovmskps (o : XReg) (s : State) : Host.Outcome State Fault Refusal := run (do
  needSse .sse
  signMask 32 o.dst (← readXmm o.src)) s
/-- VMOVMSKPS (spec/50_m_maskmovdqu-movq2dq.md rule R798). -/
def execVmovmskps (o : VGMask) (s : State) : Host.Outcome State Fault Refusal := run (do
  needVex [.avx]
  signMask 32 o.dst (← readVec o.l o.src)) s
/-- MOVNTDQ (spec/50_m_maskmovdqu-movq2dq.md rule R800). -/
def execMovntdq (o : MemX) (s : State) : Host.Outcome State Fault Refusal := run (ntStore .sse2 o) s
/-- VMOVNTDQ (spec/50_m_maskmovdqu-movq2dq.md rule R800). -/
def execVmovntdq (o : VMemX) (s : State) : Host.Outcome State Fault Refusal := run (vntStore o) s
/-- MOVNTPD (spec/50_m_maskmovdqu-movq2dq.md rule R802). -/
def execMovntpd (o : MemX) (s : State) : Host.Outcome State Fault Refusal := run (ntStore .sse2 o) s
/-- VMOVNTPD (spec/50_m_maskmovdqu-movq2dq.md rule R802). -/
def execVmovntpd (o : VMemX) (s : State) : Host.Outcome State Fault Refusal := run (vntStore o) s
/-- MOVNTPS (spec/50_m_maskmovdqu-movq2dq.md rule R803). -/
def execMovntps (o : MemX) (s : State) : Host.Outcome State Fault Refusal := run (ntStore .sse o) s
/-- VMOVNTPS (spec/50_m_maskmovdqu-movq2dq.md rule R803). -/
def execVmovntps (o : VMemX) (s : State) : Host.Outcome State Fault Refusal := run (vntStore o) s
/-- MOVNTDQA (spec/50_m_maskmovdqu-movq2dq.md rule R799). -/
def execMovntdqa (o : XMem) (s : State) : Host.Outcome State Fault Refusal := run (do
  needSse .sse41
  writeXmm o.dst (← readXm .size 16 (.mem o.mem))) s
/-- VMOVNTDQA (spec/50_m_maskmovdqu-movq2dq.md rule R799). -/
def execVmovntdqa (o : VXMem) (s : State) : Host.Outcome State Fault Refusal := run (do
  needVex (avxInt o.l)
  writeVec o.dst (← readXm .size (vbytes o.l) (.mem o.mem))) s
/-- LDDQU (spec/49_j_jcc-lzcnt.md rule R744). -/
def execLddqu (o : XMem) (s : State) : Host.Outcome State Fault Refusal := run (do
  needSse .sse3
  writeXmm o.dst (← readXm .loose 16 (.mem o.mem))) s
/-- VLDDQU (spec/49_j_jcc-lzcnt.md rule R744). -/
def execVlddqu (o : VXMem) (s : State) : Host.Outcome State Fault Refusal := run (do
  needVex [.avx]
  writeVec o.dst (← readXm .loose (vbytes o.l) (.mem o.mem))) s
/-- MOVNTQ (spec/50_m_maskmovdqu-movq2dq.md rule R804). -/
def execMovntq (o : MemM) (s : State) : Host.Outcome State Fault Refusal := run (do
  needMmx .sse
  physWrite (← resolveMem .write o.mem 8) (← readMm o.src).toNat
  enterMmx) s
/-- MOVD (spec/50_m_maskmovdqu-movq2dq.md rule R786). -/
def execMovd (o : MovdOps) (s : State) : Host.Outcome State Fault Refusal := run (movdRun .w32 o) s
/-- MOVQ (spec/50_m_maskmovdqu-movq2dq.md rule R786). -/
def execMovqGp (o : MovdOps) (s : State) : Host.Outcome State Fault Refusal := run (movdRun .w64 o) s
/-- VMOVD (spec/50_m_maskmovdqu-movq2dq.md rule R786). -/
def execVmovd (o : VMovd) (s : State) : Host.Outcome State Fault Refusal := run (vmovdRun .w32 o) s
/-- VMOVQ (spec/50_m_maskmovdqu-movq2dq.md rule R786). -/
def execVmovqGp (o : VMovd) (s : State) : Host.Outcome State Fault Refusal := run (vmovdRun .w64 o) s
/-- MOVQ (spec/50_m_maskmovdqu-movq2dq.md rule R805). -/
def execMovqX (o : MovqOps) (s : State) : Host.Outcome State Fault Refusal := run (movqRun o) s
/-- VMOVQ (spec/50_m_maskmovdqu-movq2dq.md rule R805). -/
def execVmovqX (o : VMov) (s : State) : Host.Outcome State Fault Refusal := run (vmovqRun o) s
/-- MOVDQ2Q (spec/50_m_maskmovdqu-movq2dq.md rule R790). -/
def execMovdq2q (o : Dq2qOps) (s : State) : Host.Outcome State Fault Refusal := run (do
  needSse .sse2
  needNoPending
  writeMm o.dst (lane 64 (← readXmm o.src) 0)
  enterMmx) s
/-- MOVQ2DQ (spec/50_m_maskmovdqu-movq2dq.md rule R806). -/
def execMovq2dq (o : Q2dqOps) (s : State) : Host.Outcome State Fault Refusal := run (do
  needSse .sse2
  needNoPending
  writeXmm o.dst ((← readMm o.src).setWidth 128)
  enterMmx) s
/-- MASKMOVDQU (spec/50_m_maskmovdqu-movq2dq.md rule R767). -/
def execMaskmovdqu (o : XMask) (s : State) : Host.Outcome State Fault Refusal := run (do
  needSse .sse2
  maskStore o.a o.ovr (← readXmm o.src) (← readXmm o.mask)) s
/-- VMASKMOVDQU (spec/50_m_maskmovdqu-movq2dq.md rule R767). -/
def execVmaskmovdqu (o : XMask) (s : State) : Host.Outcome State Fault Refusal := run (do
  needVex [.avx]
  maskStore o.a o.ovr (← readXmm o.src) (← readXmm o.mask)) s
/-- MASKMOVQ (spec/50_m_maskmovdqu-movq2dq.md rule R768). -/
def execMaskmovq (o : MMask) (s : State) : Host.Outcome State Fault Refusal := run (do
  needMmx .sse
  maskStore o.a o.ovr (← readMm o.src) (← readMm o.mask)
  enterMmx) s
/-- EMMS (spec/45_d_daa-extractps.md rule R614). -/
def execEmms (s : State) : Host.Outcome State Fault Refusal := run (do
  needMmx .mmx
  modify fun s => { s with fpu := { s.fpu with ftw := 0xFFFF } }) s
/-- ANDPD (spec/40_a_aaa-arpl.md rule R522). -/
def execAndpd (o : XX) (s : State) : Host.Outcome State Fault Refusal := run (xxRun .sse2 (andVec 128) o) s
/-- VANDPD (spec/40_a_aaa-arpl.md rule R522). -/
def execVandpd (o : VVX) (s : State) : Host.Outcome State Fault Refusal := run (vvxRun avx (andVec 128) o) s
/-- ANDPS (spec/40_a_aaa-arpl.md rule R523). -/
def execAndps (o : XX) (s : State) : Host.Outcome State Fault Refusal := run (xxRun .sse (andVec 128) o) s
/-- VANDPS (spec/40_a_aaa-arpl.md rule R523). -/
def execVandps (o : VVX) (s : State) : Host.Outcome State Fault Refusal := run (vvxRun avx (andVec 128) o) s
/-- ANDNPD (spec/40_a_aaa-arpl.md rule R524). -/
def execAndnpd (o : XX) (s : State) : Host.Outcome State Fault Refusal := run (xxRun .sse2 (andNot 128) o) s
/-- VANDNPD (spec/40_a_aaa-arpl.md rule R524). -/
def execVandnpd (o : VVX) (s : State) : Host.Outcome State Fault Refusal := run (vvxRun avx (andNot 128) o) s
/-- ANDNPS (spec/40_a_aaa-arpl.md rule R525). -/
def execAndnps (o : XX) (s : State) : Host.Outcome State Fault Refusal := run (xxRun .sse (andNot 128) o) s
/-- VANDNPS (spec/40_a_aaa-arpl.md rule R525). -/
def execVandnps (o : VVX) (s : State) : Host.Outcome State Fault Refusal := run (vvxRun avx (andNot 128) o) s
/-- ORPD (spec/51_m_movs-outs.md rule R828). -/
def execOrpd (o : XX) (s : State) : Host.Outcome State Fault Refusal := run (xxRun .sse2 (orVec 128) o) s
/-- VORPD (spec/51_m_movs-outs.md rule R828). -/
def execVorpd (o : VVX) (s : State) : Host.Outcome State Fault Refusal := run (vvxRun avx (orVec 128) o) s
/-- ORPS (spec/51_m_movs-outs.md rule R829). -/
def execOrps (o : XX) (s : State) : Host.Outcome State Fault Refusal := run (xxRun .sse (orVec 128) o) s
/-- VORPS (spec/51_m_movs-outs.md rule R829). -/
def execVorps (o : VVX) (s : State) : Host.Outcome State Fault Refusal := run (vvxRun avx (orVec 128) o) s
/-- XORPD (spec/59_w_wait-xtest.md rule R1202). -/
def execXorpd (o : XX) (s : State) : Host.Outcome State Fault Refusal := run (xxRun .sse2 (xorVec 128) o) s
/-- VXORPD (spec/59_w_wait-xtest.md rule R1202). -/
def execVxorpd (o : VVX) (s : State) : Host.Outcome State Fault Refusal := run (vvxRun avx (xorVec 128) o) s
/-- XORPS (spec/59_w_wait-xtest.md rule R1203). -/
def execXorps (o : XX) (s : State) : Host.Outcome State Fault Refusal := run (xxRun .sse (xorVec 128) o) s
/-- VXORPS (spec/59_w_wait-xtest.md rule R1203). -/
def execVxorps (o : VVX) (s : State) : Host.Outcome State Fault Refusal := run (vvxRun avx (xorVec 128) o) s
/-- BLENDPD (spec/41_b_blendpd-bzhi.md rule R527). -/
def execBlendpd (o : XXI) (s : State) : Host.Outcome State Fault Refusal :=
  run (xxiRun .sse41 (fun i => blendImm 64 i 128) o) s
/-- VBLENDPD (spec/41_b_blendpd-bzhi.md rule R527). -/
def execVblendpd (o : VVXI) (s : State) : Host.Outcome State Fault Refusal := run (do
  needVex [.avx]
  let b ← readVx o.l o.b
  writeVec o.dst (blendImm 64 o.imm o.l.bits (← readVec o.l o.a) b)) s
/-- BLENDVPD (spec/41_b_blendpd-bzhi.md rule R530). -/
def execBlendvpd (o : XX) (s : State) : Host.Outcome State Fault Refusal := run (do
  needSse .sse41
  let b ← readXm .size 16 o.src
  writeXmm o.dst (blendByTop 64 (← readXmm 0) (← readXmm o.dst) b)) s
/-- VBLENDVPD (spec/41_b_blendpd-bzhi.md rule R530). -/
def execVblendvpd (o : VVXR) (s : State) : Host.Outcome State Fault Refusal := run (do
  needVex [.avx]
  let b ← readVx o.l o.b
  writeVec o.dst (blendByTop 64 (← readVec o.l o.c) (← readVec o.l o.a) b)) s
/-- UNPCKHPD (spec/57_t_test-vfnmsub.md rule R1075). -/
def execUnpckhpd (o : XX) (s : State) : Host.Outcome State Fault Refusal := run (xxRun .sse2 ((unpackHigh 64) 128) o) s
/-- VUNPCKHPD (spec/57_t_test-vfnmsub.md rule R1075). -/
def execVunpckhpd (o : VVX) (s : State) : Host.Outcome State Fault Refusal := run (vvxRun avx ((unpackHigh 64) 128) o) s
/-- UNPCKLPD (spec/57_t_test-vfnmsub.md rule R1077). -/
def execUnpcklpd (o : XX) (s : State) : Host.Outcome State Fault Refusal := run (xxRun .sse2 ((unpackLow 64) 128) o) s
/-- VUNPCKLPD (spec/57_t_test-vfnmsub.md rule R1077). -/
def execVunpcklpd (o : VVX) (s : State) : Host.Outcome State Fault Refusal := run (vvxRun avx ((unpackLow 64) 128) o) s
/-- BLENDPS (spec/41_b_blendpd-bzhi.md rule R529). -/
def execBlendps (o : XXI) (s : State) : Host.Outcome State Fault Refusal :=
  run (xxiRun .sse41 (fun i => blendImm 32 i 128) o) s
/-- VBLENDPS (spec/41_b_blendpd-bzhi.md rule R529). -/
def execVblendps (o : VVXI) (s : State) : Host.Outcome State Fault Refusal := run (do
  needVex [.avx]
  let b ← readVx o.l o.b
  writeVec o.dst (blendImm 32 o.imm o.l.bits (← readVec o.l o.a) b)) s
/-- BLENDVPS (spec/41_b_blendpd-bzhi.md rule R531). -/
def execBlendvps (o : XX) (s : State) : Host.Outcome State Fault Refusal := run (do
  needSse .sse41
  let b ← readXm .size 16 o.src
  writeXmm o.dst (blendByTop 32 (← readXmm 0) (← readXmm o.dst) b)) s
/-- VBLENDVPS (spec/41_b_blendpd-bzhi.md rule R531). -/
def execVblendvps (o : VVXR) (s : State) : Host.Outcome State Fault Refusal := run (do
  needVex [.avx]
  let b ← readVx o.l o.b
  writeVec o.dst (blendByTop 32 (← readVec o.l o.c) (← readVec o.l o.a) b)) s
/-- UNPCKHPS (spec/57_t_test-vfnmsub.md rule R1076). -/
def execUnpckhps (o : XX) (s : State) : Host.Outcome State Fault Refusal := run (xxRun .sse ((unpackHigh 32) 128) o) s
/-- VUNPCKHPS (spec/57_t_test-vfnmsub.md rule R1076). -/
def execVunpckhps (o : VVX) (s : State) : Host.Outcome State Fault Refusal := run (vvxRun avx ((unpackHigh 32) 128) o) s
/-- UNPCKLPS (spec/57_t_test-vfnmsub.md rule R1078). -/
def execUnpcklps (o : XX) (s : State) : Host.Outcome State Fault Refusal := run (xxRun .sse ((unpackLow 32) 128) o) s
/-- VUNPCKLPS (spec/57_t_test-vfnmsub.md rule R1078). -/
def execVunpcklps (o : VVX) (s : State) : Host.Outcome State Fault Refusal := run (vvxRun avx ((unpackLow 32) 128) o) s
/-- SHUFPD (spec/56_s_sahf-sysret.md rule R1044). -/
def execShufpd (o : XXI) (s : State) : Host.Outcome State Fault Refusal := run (xxiRun .sse2 (fun i => shufPd i 128) o) s
/-- VSHUFPD (spec/56_s_sahf-sysret.md rule R1044). -/
def execVshufpd (o : VVXI) (s : State) : Host.Outcome State Fault Refusal := run (do
  needVex [.avx]
  let b ← readVx o.l o.b
  writeVec o.dst (shufPd o.imm o.l.bits (← readVec o.l o.a) b)) s
/-- SHUFPS (spec/56_s_sahf-sysret.md rule R1045). -/
def execShufps (o : XXI) (s : State) : Host.Outcome State Fault Refusal := run (xxiRun .sse shufPs o) s
/-- VSHUFPS (spec/56_s_sahf-sysret.md rule R1045). -/
def execVshufps (o : VVXI) (s : State) : Host.Outcome State Fault Refusal := run (vvxiRun avx shufPs o) s
/-- INSERTPS (spec/48_h_haddpd-iret.md rule R714). -/
def execInsertps (o : XXI) (s : State) : Host.Outcome State Fault Refusal := run (do
  needSse .sse41
  let x ← insertPsSource o.imm o.src
  writeXmm o.dst (insertPs o.imm (← readXmm o.dst) x)) s
/-- VINSERTPS (spec/48_h_haddpd-iret.md rule R714). -/
def execVinsertps (o : VVXI) (s : State) : Host.Outcome State Fault Refusal := run (do
  needVex [.avx]
  let x ← insertPsSource o.imm o.b
  writeVec o.dst (insertPs o.imm (← readXmm o.a) x)) s
/-- EXTRACTPS (spec/45_d_daa-extractps.md rule R616). -/
def execExtractps (o : ExtrOps) (s : State) : Host.Outcome State Fault Refusal := run (extractRun (needSse .sse41) .w32 o) s
/-- VEXTRACTPS (spec/45_d_daa-extractps.md rule R616). -/
def execVextractps (o : ExtrOps) (s : State) : Host.Outcome State Fault Refusal := run (extractRun (needVex [.avx]) .w32 o) s
/-- MOVDDUP (spec/50_m_maskmovdqu-movq2dq.md rule R787). -/
def execMovddup (o : XX) (s : State) : Host.Outcome State Fault Refusal := run (xnRun .sse3 8 (broadcast 128 64) o) s
/-- VMOVDDUP (spec/50_m_maskmovdqu-movq2dq.md rule R787). -/
def execVmovddup (o : VX) (s : State) : Host.Outcome State Fault Refusal := run (do
  needVex [.avx]
  match o.l with
  | .l128 => writeVec o.dst (broadcast 128 64 (← readXm .free 8 o.src))
  | .l256 => writeVec o.dst (duplicate 64 false 256 (← readXm .free 32 o.src))) s
/-- MOVSHDUP (spec/51_m_movs-outs.md rule R809). -/
def execMovshdup (o : XX) (s : State) : Host.Outcome State Fault Refusal :=
  run (xxRun .sse3 (fun _ b => duplicate 32 true 128 b) o) s
/-- VMOVSHDUP (spec/51_m_movs-outs.md rule R809). -/
def execVmovshdup (o : VX) (s : State) : Host.Outcome State Fault Refusal := run (vxRun avx (duplicate 32 true 128) o) s
/-- MOVSLDUP (spec/51_m_movs-outs.md rule R810). -/
def execMovsldup (o : XX) (s : State) : Host.Outcome State Fault Refusal :=
  run (xxRun .sse3 (fun _ b => duplicate 32 false 128 b) o) s
/-- VMOVSLDUP (spec/51_m_movs-outs.md rule R810). -/
def execVmovsldup (o : VX) (s : State) : Host.Outcome State Fault Refusal := run (vxRun avx (duplicate 32 false 128) o) s
/-- VBROADCASTSS (spec/57_t_test-vfnmsub.md rule R1079). -/
def execVbroadcastss (o : VX) (s : State) : Host.Outcome State Fault Refusal := run (broadcastRun avxOrAvx2 4 o) s
/-- VBROADCASTSD (spec/57_t_test-vfnmsub.md rule R1080). -/
def execVbroadcastsd (o : VX) (s : State) : Host.Outcome State Fault Refusal := run (broadcastRun avxOrAvx2 8 o) s
/-- VPBROADCASTB (spec/58_v_vgather-vzeroupper.md rule R1163). -/
def execVpbroadcastb (o : VX) (s : State) : Host.Outcome State Fault Refusal := run (broadcastRun (fun _ => [.avx2]) 1 o) s
/-- VPBROADCASTW (spec/58_v_vgather-vzeroupper.md rule R1164). -/
def execVpbroadcastw (o : VX) (s : State) : Host.Outcome State Fault Refusal := run (broadcastRun (fun _ => [.avx2]) 2 o) s
/-- VPBROADCASTD (spec/58_v_vgather-vzeroupper.md rule R1165). -/
def execVpbroadcastd (o : VX) (s : State) : Host.Outcome State Fault Refusal := run (broadcastRun (fun _ => [.avx2]) 4 o) s
/-- VPBROADCASTQ (spec/58_v_vgather-vzeroupper.md rule R1166). -/
def execVpbroadcastq (o : VX) (s : State) : Host.Outcome State Fault Refusal := run (broadcastRun (fun _ => [.avx2]) 8 o) s
/-- VBROADCASTF128 (spec/57_t_test-vfnmsub.md rule R1081). -/
def execVbroadcastf128 (o : VXMem) (s : State) : Host.Outcome State Fault Refusal := run (broadcast128 .avx o) s
/-- VBROADCASTI128 (spec/58_v_vgather-vzeroupper.md rule R1167). -/
def execVbroadcasti128 (o : VXMem) (s : State) : Host.Outcome State Fault Refusal := run (broadcast128 .avx2 o) s
/-- VEXTRACTF128 (spec/57_t_test-vfnmsub.md rule R1086). -/
def execVextractf128 (o : VExtOps) (s : State) : Host.Outcome State Fault Refusal := run (extract128 .avx o) s
/-- VEXTRACTI128 (spec/57_t_test-vfnmsub.md rule R1087). -/
def execVextracti128 (o : VExtOps) (s : State) : Host.Outcome State Fault Refusal := run (extract128 .avx2 o) s
/-- VINSERTF128 (spec/58_v_vgather-vzeroupper.md rule R1158). -/
def execVinsertf128 (o : VVXI) (s : State) : Host.Outcome State Fault Refusal := run (insert128 .avx o) s
/-- VINSERTI128 (spec/58_v_vgather-vzeroupper.md rule R1159). -/
def execVinserti128 (o : VVXI) (s : State) : Host.Outcome State Fault Refusal := run (insert128 .avx2 o) s
/-- VPERM2F128 (spec/58_v_vgather-vzeroupper.md rule R1173). -/
def execVperm2f128 (o : VVXI) (s : State) : Host.Outcome State Fault Refusal := run (perm128 .avx o) s
/-- VPERM2I128 (spec/58_v_vgather-vzeroupper.md rule R1172). -/
def execVperm2i128 (o : VVXI) (s : State) : Host.Outcome State Fault Refusal := run (perm128 .avx2 o) s
/-- VPERMD (spec/58_v_vgather-vzeroupper.md rule R1168). -/
def execVpermd (o : VVX) (s : State) : Host.Outcome State Fault Refusal := run (permDwords o) s
/-- VPERMPS (spec/58_v_vgather-vzeroupper.md rule R1170). -/
def execVpermps (o : VVX) (s : State) : Host.Outcome State Fault Refusal := run (permDwords o) s
/-- VPERMQ (spec/58_v_vgather-vzeroupper.md rule R1171). -/
def execVpermq (o : VXI) (s : State) : Host.Outcome State Fault Refusal := run (permQwords o) s
/-- VPERMPD (spec/58_v_vgather-vzeroupper.md rule R1169). -/
def execVpermpd (o : VXI) (s : State) : Host.Outcome State Fault Refusal := run (permQwords o) s
/-- VPERMILPD (spec/58_v_vgather-vzeroupper.md rule R1174). -/
def execVpermilpd (o : VPermil) (s : State) : Host.Outcome State Fault Refusal := run (do
  needVex [.avx]
  match o with
  | .vec o =>
    let b ← readVx o.l o.b
    writeVec o.dst (permilPd (fun i => b.getLsbD (64 * i + 1)) (← readVec o.l o.a))
  | .imm o =>
    let b ← readVx o.l o.src
    writeVec o.dst (permilPd (fun i => o.imm.getLsbD i) b)) s
/-- VPERMILPS (spec/58_v_vgather-vzeroupper.md rule R1175). -/
def execVpermilps (o : VPermil) (s : State) : Host.Outcome State Fault Refusal := run (do
  needVex [.avx]
  match o with
  | .vec o =>
    let b ← readVx o.l o.b
    writeVec o.dst (permilPs (fun i => b.extractLsb' (32 * i) 2) (← readVec o.l o.a))
  | .imm o =>
    let b ← readVx o.l o.src
    writeVec o.dst (permilPs (fun i => o.imm.extractLsb' (2 * (i % 4)) 2) b)) s
/-- VPBLENDD (spec/58_v_vgather-vzeroupper.md rule R1162). -/
def execVpblendd (o : VVXI) (s : State) : Host.Outcome State Fault Refusal := run (do
  needVex [.avx2]
  let b ← readVx o.l o.b
  writeVec o.dst (blendImm 32 o.imm o.l.bits (← readVec o.l o.a) b)) s
/-- VPSLLVD (spec/58_v_vgather-vzeroupper.md rule R1178). -/
def execVpsllvd (o : VVX) (s : State) : Host.Outcome State Fault Refusal := run (varShift 32 (shl 32) o) s
/-- VPSLLVQ (spec/58_v_vgather-vzeroupper.md rule R1179). -/
def execVpsllvq (o : VVX) (s : State) : Host.Outcome State Fault Refusal := run (varShift 64 (shl 64) o) s
/-- VPSRAVD (spec/58_v_vgather-vzeroupper.md rule R1180). -/
def execVpsravd (o : VVX) (s : State) : Host.Outcome State Fault Refusal := run (varShift 32 (sar 32) o) s
/-- VPSRLVD (spec/58_v_vgather-vzeroupper.md rule R1181). -/
def execVpsrlvd (o : VVX) (s : State) : Host.Outcome State Fault Refusal := run (varShift 32 (shr 32) o) s
/-- VPSRLVQ (spec/58_v_vgather-vzeroupper.md rule R1182). -/
def execVpsrlvq (o : VVX) (s : State) : Host.Outcome State Fault Refusal := run (varShift 64 (shr 64) o) s
/-- VTESTPS (spec/58_v_vgather-vzeroupper.md rule R1183). -/
def execVtestps (o : VX) (s : State) : Host.Outcome State Fault Refusal := run (signTest 32 o) s
/-- VTESTPD (spec/58_v_vgather-vzeroupper.md rule R1184). -/
def execVtestpd (o : VX) (s : State) : Host.Outcome State Fault Refusal := run (signTest 64 o) s
/-- VMASKMOVPS (spec/58_v_vgather-vzeroupper.md rule R1160). -/
def execVmaskmovps (o : VMaskMov) (s : State) : Host.Outcome State Fault Refusal := run (maskMov .avx 4 o) s
/-- VMASKMOVPD (spec/58_v_vgather-vzeroupper.md rule R1161). -/
def execVmaskmovpd (o : VMaskMov) (s : State) : Host.Outcome State Fault Refusal := run (maskMov .avx 8 o) s
/-- VPMASKMOVD (spec/58_v_vgather-vzeroupper.md rule R1176). -/
def execVpmaskmovd (o : VMaskMov) (s : State) : Host.Outcome State Fault Refusal := run (maskMov .avx2 4 o) s
/-- VPMASKMOVQ (spec/58_v_vgather-vzeroupper.md rule R1177). -/
def execVpmaskmovq (o : VMaskMov) (s : State) : Host.Outcome State Fault Refusal := run (maskMov .avx2 8 o) s
/-- VGATHERDPD (spec/58_v_vgather-vzeroupper.md rule R1150). -/
def execVgatherdpd (o : VGather) (s : State) : Host.Outcome State Fault Refusal := run (gatherRun (gatherShape 32 64) o) s
/-- VGATHERQPD (spec/58_v_vgather-vzeroupper.md rule R1151). -/
def execVgatherqpd (o : VGather) (s : State) : Host.Outcome State Fault Refusal := run (gatherRun (gatherShape 64 64) o) s
/-- VGATHERDPS (spec/58_v_vgather-vzeroupper.md rule R1152). -/
def execVgatherdps (o : VGather) (s : State) : Host.Outcome State Fault Refusal := run (gatherRun (gatherShape 32 32) o) s
/-- VGATHERQPS (spec/58_v_vgather-vzeroupper.md rule R1153). -/
def execVgatherqps (o : VGather) (s : State) : Host.Outcome State Fault Refusal := run (gatherRun (gatherShape 64 32) o) s
/-- VPGATHERDD (spec/58_v_vgather-vzeroupper.md rule R1154). -/
def execVpgatherdd (o : VGather) (s : State) : Host.Outcome State Fault Refusal := run (gatherRun (gatherShape 32 32) o) s
/-- VPGATHERQD (spec/58_v_vgather-vzeroupper.md rule R1155). -/
def execVpgatherqd (o : VGather) (s : State) : Host.Outcome State Fault Refusal := run (gatherRun (gatherShape 64 32) o) s
/-- VPGATHERDQ (spec/58_v_vgather-vzeroupper.md rule R1156). -/
def execVpgatherdq (o : VGather) (s : State) : Host.Outcome State Fault Refusal := run (gatherRun (gatherShape 32 64) o) s
/-- VPGATHERQQ (spec/58_v_vgather-vzeroupper.md rule R1157). -/
def execVpgatherqq (o : VGather) (s : State) : Host.Outcome State Fault Refusal := run (gatherRun (gatherShape 64 64) o) s
/-- VZEROALL (spec/58_v_vgather-vzeroupper.md rule R1185). -/
def execVzeroall (s : State) : Host.Outcome State Fault Refusal := run (do
  needVex [.avx]
  modify fun s => { s with ymm := s.mapReachable (fun _ => 0) }) s
/-- VZEROUPPER (spec/58_v_vgather-vzeroupper.md rule R1186). -/
def execVzeroupper (s : State) : Host.Outcome State Fault Refusal := run (do
  needVex [.avx]
  modify fun s => { s with ymm := s.mapReachable (fun v => (v.setWidth 128).setWidth 256) }) s

end Sys2Proof.Machine
end

