-- ==== Sys2Proof/Machine/Strings.lean ====
section
/-! DEFINITION. The ports (spec/20_memory.md rule R270, spec/60_exceptions.md rule R2050), IN and OUT, the string instructions
and their repetition (spec/55_r_rcl-rsqrtss.md rules R998 to R1000): a repeated string instruction is one step an iteration. -/

namespace Sys2Proof.Machine

/-! Ports. -/

/-- IoPermitted (rule R2050). -/
def ioPermitted (port : BitVec 16) (n : Nat) : M Bool := do
  let tr := (← get).sys.tr
  if tr.typ = 3 then return false
  else
    let base ← sysRead (tr.base + 102) 2
    let at8 := base + port.toNat / 8
    if tr.limit.toNat < at8 + 1 ∨ 65536 < port.toNat + n then return false
    else
      let w ← sysRead (tr.base + BitVec.ofNat 64 at8) 2
      return decide (w / 2 ^ (port.toNat % 8) % 2 ^ n = 0)

/-- The permission check of IN, INS, OUT and OUTS (rule R2050); a port breakpoint met is noted (rule R2081 (d)). -/
def ioCheck (port : BitVec 16) (n : Nat) : M Unit := do
  let s ← get
  if s.pe && (s.flags.vm || decide (s.flags.iopl < s.cpl)) then
    let ok ← ioPermitted port n
    ensure ok raiseGP
  notePending (s.portBreaks port n)

/-- PortRead (rule R270): the host's answer is a free value; the access is recorded. -/
def portRead (port : BitVec 16) (n : Nat) : M (BitVec 32) := do
  let v ← freeValue (8 * n)
  modify fun s => { s with io := .read port n (v.setWidth 32) :: s.io }
  return v.setWidth 32

/-- PortWrite (rule R270). -/
def portWrite (port : BitVec 16) (n : Nat) (v : BitVec 32) : M Unit :=
  modify fun s => { s with io := .write port n v :: s.io }

/-- The port an operand names. -/
def State.portNum (s : State) : Port → BitVec 16
  | .imm n => n.setWidth 16
  | .dx => (s.gp rDX).setWidth 16

/-- IN (spec/48_h_haddpd-iret.md rule R711). -/
def execInp (o : IoOps) (s : State) : Host.Outcome State Fault Refusal := run (do
  let port := (← get).portNum o.port
  ioCheck port o.w.bytes
  writeReg o.w rAX ((← portRead port o.w.bytes).setWidth o.w.bits)) s

/-- OUT (spec/51_m_movs-outs.md rule R830). -/
def execOut (o : IoOps) (s : State) : Host.Outcome State Fault Refusal := run (do
  let port := (← get).portNum o.port
  ioCheck port o.w.bytes
  portWrite port o.w.bytes ((← readReg o.w rAX).setWidth 32)) s

/-! One element. -/

/-- Move an index register by one element in the direction of DF (rules R567, R807). -/
def stepIndex (a : ASize) (r : Reg) (n : Nat) : M Unit := do
  let s ← get
  let d : Word := BitVec.ofNat 64 n
  writeAddr a r (if s.flags.df then s.gp r - d else s.gp r + d)

/-- One element of MOVS (spec/51_m_movs-outs.md rule R807). -/
def movsItem (w : Width) (a : ASize) (r : SReg) : M Unit := do
  let v ← memRead r (← readAddr a rSI) w.bytes w.bytes
  memWrite .es (← readAddr a rDI) w.bytes w.bytes v
  stepIndex a rSI w.bytes
  stepIndex a rDI w.bytes

/-- One element of CMPS (spec/43_c_cmps-crc32.md rule R567). -/
def cmpsItem (w : Width) (a : ASize) (r : SReg) : M Unit := do
  let x ← memRead r (← readAddr a rSI) w.bytes w.bytes
  let y ← memRead .es (← readAddr a rDI) w.bytes w.bytes
  let _ ← opSub w.bits (BitVec.ofNat w.bits x) (BitVec.ofNat w.bits y)
  stepIndex a rSI w.bytes
  stepIndex a rDI w.bytes

/-- One element of LODS (spec/49_j_jcc-lzcnt.md rule R761). -/
def lodsItem (w : Width) (a : ASize) (r : SReg) : M Unit := do
  let v ← memRead r (← readAddr a rSI) w.bytes w.bytes
  writeReg w rAX (BitVec.ofNat w.bits v)
  stepIndex a rSI w.bytes

/-- One element of STOS (spec/56_s_sahf-sysret.md rule R1058). -/
def stosItem (w : Width) (a : ASize) : M Unit := do
  let v ← readReg w rAX
  memWrite .es (← readAddr a rDI) w.bytes w.bytes v.toNat
  stepIndex a rDI w.bytes

/-- One element of SCAS (spec/56_s_sahf-sysret.md rule R1022). -/
def scasItem (w : Width) (a : ASize) : M Unit := do
  let y ← memRead .es (← readAddr a rDI) w.bytes w.bytes
  let _ ← opSub w.bits (← readReg w rAX) (BitVec.ofNat w.bits y)
  stepIndex a rDI w.bytes

/-- One element of INS: the destination is checked before the port is read (spec/48_h_haddpd-iret.md rule R712, decision
D28). -/
def insItem (w : Width) (a : ASize) : M Unit := do
  let port := (← get).portNum .dx
  ioCheck port w.bytes
  let as ← resolve .es .write w.bytes 1 (← readAddr a rDI) w.bytes
  physWrite as (← portRead port w.bytes).toNat
  stepIndex a rDI w.bytes

/-- One element of OUTS (spec/51_m_movs-outs.md rule R831). -/
def outsItem (w : Width) (a : ASize) (r : SReg) : M Unit := do
  let port := (← get).portNum .dx
  ioCheck port w.bytes
  let v ← memRead r (← readAddr a rSI) w.bytes w.bytes
  portWrite port w.bytes (BitVec.ofNat 32 v)
  stepIndex a rSI w.bytes

/-! Repetition. -/

/-- Repeat: nothing when the count is 0; else one element, the count goes down, and the instruction stays at rIP unless the count
has reached 0 or the flags say to stop. The steps of one execution hand on the flags at its entry, which a fault restores
(decision D51). RF is set while the instruction goes on, so that its instruction breakpoint is met once. -/
def repRun (a : ASize) (stops : Flags → Bool) (item : M Unit) (s : State) : Host.Outcome State Fault Refusal :=
  let entry := s.act.repEntry.getD s.flags
  run (do
    let n ← readAddr a rCX
    if n ≠ 0 then
      item
      writeAddr a rCX (n - 1)
      let t ← get
      if n ≠ 1 ∧ stops t.flags = false then
        set { t with rip := s.rip, flags := { t.flags with rf := true }, act := { t.act with repEntry := some entry } })
    { s with flags := entry }

/-- The segment of a repeated instruction's source. -/
def repSource (o : RepArgs) : SReg := o.ovr.getD .ds

/-- REP (spec/55_r_rcl-rsqrtss.md rule R998). -/
def execRep (o : RepOp) (s : State) : Host.Outcome State Fault Refusal :=
  match o with
  | .ins o => repRun o.a (fun _ => false) (insItem o.w o.a) s
  | .movs o => repRun o.a (fun _ => false) (movsItem o.w o.a (repSource o)) s
  | .outs o => repRun o.a (fun _ => false) (outsItem o.w o.a (repSource o)) s
  | .lods o => repRun o.a (fun _ => false) (lodsItem o.w o.a (repSource o)) s
  | .stos o => repRun o.a (fun _ => false) (stosItem o.w o.a) s

/-- The element a repeated comparison runs. -/
def cmpItem : RepCmpOp → M Unit
  | .cmps o => cmpsItem o.w o.a (repSource o)
  | .scas o => scasItem o.w o.a

/-- The address size of a repeated comparison. -/
def cmpSize : RepCmpOp → ASize
  | .cmps o => o.a
  | .scas o => o.a

/-- REPE (spec/55_r_rcl-rsqrtss.md rule R999). -/
def execRepe (o : RepCmpOp) (s : State) : Host.Outcome State Fault Refusal := repRun (cmpSize o) (fun f => !f.zf) (cmpItem o) s
/-- REPNE (spec/55_r_rcl-rsqrtss.md rule R1000). -/
def execRepne (o : RepCmpOp) (s : State) : Host.Outcome State Fault Refusal := repRun (cmpSize o) (fun f => f.zf) (cmpItem o) s

/-! The string instructions. -/

/-- MOVS with a segment override (spec/51_m_movs-outs.md rule R807). -/
def execMovs (o : StrOps) (s : State) : Host.Outcome State Fault Refusal := run (movsItem o.w o.a o.ovr) s
/-- MOVSB (spec/51_m_movs-outs.md rule R807). -/
def execMovsb (a : ASize) (s : State) : Host.Outcome State Fault Refusal := run (movsItem .w8 a .ds) s
/-- MOVSW (spec/51_m_movs-outs.md rule R807). -/
def execMovsw (a : ASize) (s : State) : Host.Outcome State Fault Refusal := run (movsItem .w16 a .ds) s
/-- MOVSD (spec/51_m_movs-outs.md rule R807). -/
def execMovsdStr (a : ASize) (s : State) : Host.Outcome State Fault Refusal := run (movsItem .w32 a .ds) s
/-- MOVSQ (spec/51_m_movs-outs.md rule R807). -/
def execMovsq (a : ASize) (s : State) : Host.Outcome State Fault Refusal := run (movsItem .w64 a .ds) s
/-- CMPS with a segment override (spec/43_c_cmps-crc32.md rule R567). -/
def execCmps (o : StrOps) (s : State) : Host.Outcome State Fault Refusal := run (cmpsItem o.w o.a o.ovr) s
/-- CMPSB (spec/43_c_cmps-crc32.md rule R567). -/
def execCmpsb (a : ASize) (s : State) : Host.Outcome State Fault Refusal := run (cmpsItem .w8 a .ds) s
/-- CMPSW (spec/43_c_cmps-crc32.md rule R567). -/
def execCmpsw (a : ASize) (s : State) : Host.Outcome State Fault Refusal := run (cmpsItem .w16 a .ds) s
/-- CMPSD (spec/43_c_cmps-crc32.md rule R567). -/
def execCmpsdStr (a : ASize) (s : State) : Host.Outcome State Fault Refusal := run (cmpsItem .w32 a .ds) s
/-- CMPSQ (spec/43_c_cmps-crc32.md rule R567). -/
def execCmpsq (a : ASize) (s : State) : Host.Outcome State Fault Refusal := run (cmpsItem .w64 a .ds) s
/-- LODS with a segment override (spec/49_j_jcc-lzcnt.md rule R761). -/
def execLods (o : StrOps) (s : State) : Host.Outcome State Fault Refusal := run (lodsItem o.w o.a o.ovr) s
/-- LODSB (spec/49_j_jcc-lzcnt.md rule R761). -/
def execLodsb (a : ASize) (s : State) : Host.Outcome State Fault Refusal := run (lodsItem .w8 a .ds) s
/-- LODSW (spec/49_j_jcc-lzcnt.md rule R761). -/
def execLodsw (a : ASize) (s : State) : Host.Outcome State Fault Refusal := run (lodsItem .w16 a .ds) s
/-- LODSD (spec/49_j_jcc-lzcnt.md rule R761). -/
def execLodsd (a : ASize) (s : State) : Host.Outcome State Fault Refusal := run (lodsItem .w32 a .ds) s
/-- LODSQ (spec/49_j_jcc-lzcnt.md rule R761). -/
def execLodsq (a : ASize) (s : State) : Host.Outcome State Fault Refusal := run (lodsItem .w64 a .ds) s
/-- STOS with a segment override (spec/56_s_sahf-sysret.md rule R1058). -/
def execStos (o : StrOps) (s : State) : Host.Outcome State Fault Refusal := run (stosItem o.w o.a) s
/-- STOSB (spec/56_s_sahf-sysret.md rule R1058). -/
def execStosb (a : ASize) (s : State) : Host.Outcome State Fault Refusal := run (stosItem .w8 a) s
/-- STOSW (spec/56_s_sahf-sysret.md rule R1058). -/
def execStosw (a : ASize) (s : State) : Host.Outcome State Fault Refusal := run (stosItem .w16 a) s
/-- STOSD (spec/56_s_sahf-sysret.md rule R1058). -/
def execStosd (a : ASize) (s : State) : Host.Outcome State Fault Refusal := run (stosItem .w32 a) s
/-- STOSQ (spec/56_s_sahf-sysret.md rule R1058). -/
def execStosq (a : ASize) (s : State) : Host.Outcome State Fault Refusal := run (stosItem .w64 a) s
/-- SCAS with a segment override (spec/56_s_sahf-sysret.md rule R1022). -/
def execScas (o : StrOps) (s : State) : Host.Outcome State Fault Refusal := run (scasItem o.w o.a) s
/-- SCASB (spec/56_s_sahf-sysret.md rule R1022). -/
def execScasb (a : ASize) (s : State) : Host.Outcome State Fault Refusal := run (scasItem .w8 a) s
/-- SCASW (spec/56_s_sahf-sysret.md rule R1022). -/
def execScasw (a : ASize) (s : State) : Host.Outcome State Fault Refusal := run (scasItem .w16 a) s
/-- SCASD (spec/56_s_sahf-sysret.md rule R1022). -/
def execScasd (a : ASize) (s : State) : Host.Outcome State Fault Refusal := run (scasItem .w32 a) s
/-- SCASQ (spec/56_s_sahf-sysret.md rule R1022). -/
def execScasq (a : ASize) (s : State) : Host.Outcome State Fault Refusal := run (scasItem .w64 a) s
/-- INS with a segment override (spec/48_h_haddpd-iret.md rule R712). -/
def execIns (o : StrOps) (s : State) : Host.Outcome State Fault Refusal := run (insItem o.w o.a) s
/-- INSB (spec/48_h_haddpd-iret.md rule R712). -/
def execInsb (a : ASize) (s : State) : Host.Outcome State Fault Refusal := run (insItem .w8 a) s
/-- INSW (spec/48_h_haddpd-iret.md rule R712). -/
def execInsw (a : ASize) (s : State) : Host.Outcome State Fault Refusal := run (insItem .w16 a) s
/-- INSD (spec/48_h_haddpd-iret.md rule R712). -/
def execInsd (a : ASize) (s : State) : Host.Outcome State Fault Refusal := run (insItem .w32 a) s
/-- OUTS with a segment override (spec/51_m_movs-outs.md rule R831). -/
def execOuts (o : StrOps) (s : State) : Host.Outcome State Fault Refusal := run (outsItem o.w o.a o.ovr) s
/-- OUTSB (spec/51_m_movs-outs.md rule R831). -/
def execOutsb (a : ASize) (s : State) : Host.Outcome State Fault Refusal := run (outsItem .w8 a .ds) s
/-- OUTSW (spec/51_m_movs-outs.md rule R831). -/
def execOutsw (a : ASize) (s : State) : Host.Outcome State Fault Refusal := run (outsItem .w16 a .ds) s
/-- OUTSD (spec/51_m_movs-outs.md rule R831). -/
def execOutsd (a : ASize) (s : State) : Host.Outcome State Fault Refusal := run (outsItem .w32 a .ds) s

end Sys2Proof.Machine
end

