-- ==== Sys2Proof/Machine/System.lean ====
section
/-! DEFINITION. System instructions: processor identification, control, debug and model-specific registers, descriptor-table
registers, segment inspection, fast system calls, caches and translation caches, counters and random numbers, HLT, MONITOR and
MWAIT (specification files 42 to 59; spec/10_state.md rules R55 to R103). The model holds no caches and no translation cache
(spec/20_memory.md rules R250, R260), so the instructions that act on them keep their checks only. -/

namespace Sys2Proof.Machine

/-! Privilege. -/

/-- May a privileged instruction run: real-address mode, or CPL 0 outside virtual-8086 mode? -/
def State.privileged (s : State) : Bool := !s.pe || (decide (s.cpl = 0) && !s.flags.vm)

/-- #GP(0) unless a privileged instruction may run. -/
def needCpl0 : M Unit := do ensure (← get).privileged raiseGP

/-- #UD in real-address and virtual-8086 mode: the instruction is not recognized there. -/
def needProtected : M Unit := do ensure (!(← get).isLegacySeg) raiseUD

/-- EAX and EDX from the halves of a 64-bit value; the high halves of RAX and RDX are cleared (rules R991, R996). -/
def writeEdxEax (v : Word) : M Unit := do
  writeReg .w64 rAX ((v.setWidth 32).setWidth 64)
  writeReg .w64 rDX (v >>> 32)

/-- EDX:EAX. -/
def readEdxEax : M Word := do
  let hi ← readReg .w32 rDX
  let lo ← readReg .w32 rAX
  return hi ++ lo

/-! Halting and caches. -/

/-- HLT (spec/48_h_haddpd-iret.md rule R708; spec/60_exceptions.md rule R2060). -/
def execHlt (s : State) : Host.Outcome State Fault Refusal := run (do
  needCpl0
  modify fun s => { s with act := { s.act with halted := true } }) s

/-- INVD (spec/48_h_haddpd-iret.md rule R718, decision D29). -/
def execInvd (s : State) : Host.Outcome State Fault Refusal := run needCpl0 s

/-- WBINVD (spec/59_w_wait-xtest.md rule R1188). -/
def execWbinvd (s : State) : Host.Outcome State Fault Refusal := run needCpl0 s

/-- INVLPG: no access to memory (spec/48_h_haddpd-iret.md rule R719). -/
def execInvlpg (_o : MemRef) (s : State) : Host.Outcome State Fault Refusal := run needCpl0 s

/-- Is the INVPCID type and descriptor legal (spec/48_h_haddpd-iret.md rule R720)? -/
def invpcidOk (pcide : Bool) (typ : Nat) (d : BitVec 128) : Bool :=
  decide (typ ≤ 3) && decide (d.extractLsb' 12 52 = 0)
    && !(decide (typ ≤ 1) && !pcide && decide (d.extractLsb' 0 12 ≠ 0))
    && !(decide (typ = 0) && !canonical (d.extractLsb' 64 64))

/-- INVPCID (spec/48_h_haddpd-iret.md rule R720); compatibility mode checks as protected mode does, where process-context identifiers
are never enabled. -/
def execInvpcid (o : RegMem) (s : State) : Host.Outcome State Fault Refusal := run (do
  needFeature .invpcid
  needCpl0
  let d : BitVec 128 := BitVec.ofNat 128 (← readMem o.mem 16)
  let t ← readReg o.w o.reg
  let s ← get
  ensure (invpcidOk (s.isLong && s.cr4Bit 17) t.toNat d) raiseGP) s

/-- CLFLUSH: the checks of a byte load, but an execute-only segment will do (spec/42_c_call-cmpps.md rule R558). -/
def execClflush (o : MemRef) (s : State) : Host.Outcome State Fault Refusal := run (do
  needFeature .clfsh
  let s ← get
  let c := s.segOf o.seg
  match s.segVerdict o.seg c .exec (s.ea o) 1 with
  | .general => raiseGP
  | .limit => raiseLimit o.seg
  | .ok => do
    let _ ← translate .read (decide (s.cpl = 3)) false (s.linear o.seg c (s.ea o))) s

/-! MONITOR and MWAIT. -/

/-- #UD unless MONITOR and MWAIT are present and allowed (rules R778, R823). -/
def needMonitor : M Unit := do
  needFeature .monitor
  let s ← get
  ensure (decide (s.cpl = 0) && decide (s.mode ≠ .v86)) raiseUD

/-- ECX, or RCX in 64-bit mode. -/
def monitorExt : M Word := do
  let s ← get
  return if s.isLong then s.gp rCX else (s.gp rCX).setWidth 32 |>.setWidth 64

/-- MONITOR (spec/50_m_maskmovdqu-movq2dq.md rule R778, decision D33). -/
def execMonitor (o : MonOps) (s : State) : Host.Outcome State Fault Refusal := run (do
  needMonitor
  ensure (decide ((← monitorExt) = 0)) raiseGP
  let as ← resolve (segFor o.ovr none) .read 1 1 (← readAddr o.a rAX) 1
  modify fun s =>
    let line := s.cfg.monitorLine
    { s with act := { s.act with monitorArmed := true, monitorSize := line, monitorLow := as.headD 0 / line * line } }) s

/-- CPUID.05H:ECX[bit 1]: MWAIT may wait for masked interrupts (rule R823). -/
def State.mwaitBreak (s : State) : Bool :=
  match s.cfg.row? 5 0 with
  | some r => r.ecx.getLsbD 1
  | none => false

/-- MWAIT (spec/51_m_movs-outs.md rule R823, decision D41). -/
def execMwait (s : State) : Host.Outcome State Fault Refusal := run (do
  needMonitor
  let ext ← monitorExt
  ensure (decide (ext >>> 1 = 0) && (!ext.getLsbD 0 || (← get).mwaitBreak)) raiseGP
  modify fun s =>
    if s.act.monitorArmed then
      { s with act := { s.act with mwaitWaiting := true, mwaitMaskedBreak := ext.getLsbD 0 } }
    else s) s

/-! CPUID. -/

/-- Leaves whose data depends on ECX (spec/43_c_cmps-crc32.md rule R574). -/
def hasSubleaves (leaf : BitVec 32) : Bool :=
  decide (leaf = 4 ∨ leaf = 7 ∨ leaf = 0xB ∨ leaf = 0xD ∨ leaf = 0xF ∨ leaf = 0x10 ∨ leaf = 0x14)

/-- A leaf's register of the table, 0 if the leaf is not there. -/
def State.cpuidEax (s : State) (leaf : BitVec 32) : BitVec 32 :=
  match s.cfg.row? leaf 0 with
  | some r => r.eax
  | none => 0

/-- The leaf whose data CPUID returns (rule R574). -/
def State.cpuidLeaf (s : State) (leaf : BitVec 32) : BitVec 32 :=
  if leaf ≤ s.cpuidEax 0 then leaf
  else if 0x80000000 ≤ leaf && leaf ≤ s.cpuidEax 0x80000000 then leaf
  else s.cpuidEax 0

/-- Size of the XSAVE area for the components enabled in XCR0 (rule R578). -/
def xsaveSize (xcr0 : Word) : BitVec 32 := if xcr0.getLsbD 2 then 832 else 576

/-- A row with the bits that mirror the running state (rules R576, R578). -/
def State.cpuidDynamic (s : State) (r : Config.CpuidRow) : Config.CpuidRow :=
  let setBit (v : BitVec 32) (i : Nat) (b : Bool) : BitVec 32 :=
    (v &&& ~~~((1 : BitVec 32) <<< i)) ||| (if b then (1 : BitVec 32) <<< i else 0)
  if r.leaf = 1 then { r with ecx := setBit r.ecx 27 (s.cr4Bit 18) }
  else if r.leaf = 7 ∧ r.sub = 0 then { r with ecx := setBit r.ecx 4 (s.cr4Bit 22) }
  else if r.leaf = 0xD ∧ r.sub.toNat ≤ 1 then { r with ebx := xsaveSize s.sys.xcr0 }
  else r

/-- What leaf 0BH gives for every sub-leaf, listed or not: the input in ECX[7:0], and the x2APIC ID in EDX (rule R578). -/
def State.cpuidTopology (s : State) (sub : BitVec 32) (r : Config.CpuidRow) : Config.CpuidRow :=
  match s.cfg.row? 0xB 0 with
  | some t => { r with ecx := (r.ecx &&& 0xFFFFFF00) ||| (sub &&& 0xFF), edx := t.edx }
  | none => r

/-- CpuidTable(leaf, sub) (rule R574). -/
def State.cpuidRow (s : State) (leaf sub : BitVec 32) : Config.CpuidRow :=
  let l := s.cpuidLeaf leaf
  let r := match s.cfg.row? l (if hasSubleaves l then sub else 0) with
    | some r => s.cpuidDynamic r
    | none => { leaf := l, sub := sub, eax := 0, ebx := 0, ecx := 0, edx := 0 }
  if l = 0xB then s.cpuidTopology sub r else r

/-- CPUID (spec/43_c_cmps-crc32.md rules R574 to R578). -/
def execCpuid (s : State) : Host.Outcome State Fault Refusal := run (
  modify fun s =>
    let r := s.cpuidRow ((s.gp rAX).setWidth 32) ((s.gp rCX).setWidth 32)
    let s := { s with msr := { s.msr with biosSignId := s.cfg.microcode ++ (0 : BitVec 32) } }
    (((s.setGp rAX (r.eax.setWidth 64)).setGp rBX (r.ebx.setWidth 64)).setGp rCX (r.ecx.setWidth 64)).setGp rDX
      (r.edx.setWidth 64)) s

/-! Control registers. -/

/-- A state with IA32_EFER.LMA recomputed (spec/10_state.md rule R90). -/
def State.withLma (s : State) : State :=
  let e := s.msr.efer &&& ~~~(0x400 : Word)
  { s with msr := { s.msr with efer := if e.getLsbD 8 && s.pg then e ||| 0x400 else e } }

/-- The bits of CR0 software can write; ET stays 1 (spec/10_state.md rule R80). -/
def cr0Writable : Word := 0xE005002F

/-- Is the new value of CR0 a legal combination (spec/50_m_maskmovdqu-movq2dq.md rule R781)? Paging in IA-32e mode needs
CR4.PAE. -/
def State.cr0Ok (s : State) (v : Word) : Bool :=
  let pg := v.getLsbD 31
  !(pg && !v.getLsbD 0) && !(v.getLsbD 29 && !v.getLsbD 30)
    && !(s.isLong && !pg) && !(decide (s.mode = .compat) && !pg && s.cr4Bit 17)
    && !(pg && s.msr.efer.getLsbD 8 && !s.cr4Bit 5)

/-- The bits of CR4 that exist: those of spec/10_state.md rule R84 whose feature is reported. -/
def State.cr4Known (s : State) : Word :=
  let b (i : Nat) (f : Config.Feature) : Word := if s.has f then (1 : Word) <<< i else 0
  b 0 .vme ||| b 1 .vme ||| b 2 .tsc ||| b 3 .de ||| b 4 .pse ||| b 5 .pae ||| b 6 .mce ||| b 7 .pge ||| (1 : Word) <<< 8
    ||| b 9 .fxsr ||| b 10 .sse ||| b 16 .fsgsbase ||| b 17 .pcid ||| b 18 .xsave ||| b 20 .smep ||| b 21 .smap ||| b 22 .pku

/-- Is the new value of CR4 legal (rule R781)? -/
def State.cr4Ok (s : State) (v : Word) : Bool :=
  decide (v &&& ~~~s.cr4Known = 0)
    && (if s.lma then
          !(v.getLsbD 17 && !s.cr4Bit 17 && decide (s.sys.cr3 &&& 0xFFF ≠ 0)) && !(s.cr4Bit 5 && !v.getLsbD 5)
        else !v.getLsbD 17)

/-- The reserved bits of CR3 above the physical-address width; bit 63 of a source is allowed with CR4.PCIDE (rules R82,
R781). -/
def State.cr3Reserved (s : State) : Word :=
  (if s.cfg.maxPhyAddr < 64 then bitsMask 63 s.cfg.maxPhyAddr else 0) &&&
    (if s.cr4Bit 17 then ~~~((1 : Word) <<< 63) else ~~~(0 : Word))

/-- The reserved bits of a PAE page-directory-pointer entry (spec/20_memory.md rule R242). -/
def State.pdpteReserved (s : State) : Word := 0x1E6 ||| bitsMask 63 s.cfg.maxPhyAddr

/-- Load the four PAE page-directory-pointer entries: #GP(0) for a reserved bit in a present one (rules R241, R781). -/
def loadPdptes (s : State) : M State := do
  let at' (i : Nat) : Word :=
    BitVec.ofNat 64 (s.mem.readList (addrRange ((s.sys.cr3 &&& 0xFFFFFFE0).toNat + 8 * i) 8))
  let v : Vector Word 4 := #v[at' 0, at' 1, at' 2, at' 3]
  ensure (v.toList.all fun e => !e.getLsbD 0 || decide (e &&& s.pdpteReserved = 0)) raiseGP
  return { s with sys := { s.sys with pdpte := v } }

/-- Install a state with a new control register; PAE paging coming into force, or a load of CR3 under it, loads the
page-directory pointers (rule R781). -/
def installPaging (loadsCr3 : Bool) (t : State) : M Unit := do
  let s ← get
  let t := t.withLma
  if t.paging = .pae ∧ (loadsCr3 ∨ s.paging ≠ .pae) then set (← loadPdptes t) else set t

/-- Write CR0. -/
def writeCr0 (v : Word) : M Unit := do
  let s ← get
  ensure (s.cr0Ok v) raiseGP
  installPaging false { s with sys := { s.sys with cr0 := (v &&& cr0Writable) ||| 0x10 } }

/-- Write CR3. -/
def writeCr3 (v : Word) : M Unit := do
  let s ← get
  ensure (!s.lma || decide (v &&& s.cr3Reserved = 0)) raiseGP
  let kept := v &&& ~~~(bitsMask 63 s.cfg.maxPhyAddr)
  installPaging true { s with sys := { s.sys with cr3 := kept } }

/-- Write CR4. -/
def writeCr4 (v : Word) : M Unit := do
  let s ← get
  ensure (s.cr4Ok v) raiseGP
  installPaging false { s with sys := { s.sys with cr4 := v } }

/-- #UD for a control register that does not exist (rule R83); CR8 exists in 64-bit mode only (rule R85). -/
def needCr (cr : Fin 16) : M Unit := do
  let s ← get
  ensure (decide (cr = 0 ∨ cr = 2 ∨ cr = 3 ∨ cr = 4) || (decide (cr = 8) && s.isLong)) raiseUD

/-- The width of a control or debug register move (rules R781, R782). -/
def State.crWidth (s : State) : Width := if s.isLong then .w64 else .w32

/-- Read a control register. -/
def Sys.cr (y : Sys) (cr : Fin 16) : Word :=
  if cr = 0 then y.cr0 else if cr = 2 then y.cr2 else if cr = 3 then y.cr3 else if cr = 4 then y.cr4 else y.cr8

/-- Write a control register. -/
def writeCr (cr : Fin 16) (v : Word) : M Unit := do
  if cr = 0 then writeCr0 v
  else if cr = 2 then modify fun s => { s with sys := { s.sys with cr2 := v } }
  else if cr = 3 then writeCr3 v
  else if cr = 4 then writeCr4 v
  else
    ensure (decide (v >>> 4 = 0)) raiseGP
    modify fun s => { s with sys := { s.sys with cr8 := v } }

/-- MOV to and from control registers; the status flags are undefined (spec/50_m_maskmovdqu-movq2dq.md rule R781, U1). -/
def execMovCr (o : MovCrOps) (s : State) : Host.Outcome State Fault Refusal := run (
  match o with
  | .store dst cr => do
    needCr cr
    needCpl0
    let s ← get
    writeReg s.crWidth dst ((s.sys.cr cr).setWidth s.crWidth.bits)
    clobberStatus
  | .load cr src => do
    needCr cr
    needCpl0
    let w := (← get).crWidth
    writeCr cr ((← readReg w src).setWidth 64)
    clobberStatus) s

/-- CLTS (spec/42_c_call-cmpps.md rule R560). -/
def execClts (s : State) : Host.Outcome State Fault Refusal := run (do
  needCpl0
  modify fun s => { s with sys := { s.sys with cr0 := s.sys.cr0 &&& ~~~(8 : Word) } }) s

/-- LMSW: PE can be set, not cleared (spec/49_j_jcc-lzcnt.md rule R758). -/
def execLmsw (o : Rm) (s : State) : Host.Outcome State Fault Refusal := run (do
  needCpl0
  let v ← readRm .w16 o
  modify fun s =>
    { s with sys := { s.sys with
        cr0 := (s.sys.cr0 &&& ~~~(0xE : Word)) ||| (v.setWidth 64 &&& 0xF) } }) s

/-! Debug registers. -/

/-- The bits of DR6 and DR7 that read as a constant (spec/10_state.md rule R95). -/
def drFixed (n : Nat) (v : Word) : Word :=
  if n = 6 then (v &&& ~~~(0x1000 : Word)) ||| 0xFFFE0FF0 else if n = 7 then v ||| 0x400 else v

/-- A debug register by its number after aliasing. -/
def Sys.drOf (y : Sys) (n : Nat) : Word :=
  match n with
  | 0 => y.dr0 | 1 => y.dr1 | 2 => y.dr2 | 3 => y.dr3 | 6 => y.dr6 | _ => y.dr7

/-- The registers with a debug register written. -/
def Sys.setDr (y : Sys) (n : Nat) (v : Word) : Sys :=
  match n with
  | 0 => { y with dr0 := v } | 1 => { y with dr1 := v } | 2 => { y with dr2 := v } | 3 => { y with dr3 := v }
  | 6 => { y with dr6 := v } | _ => { y with dr7 := v }

/-- The checks of a debug-register access; DR4 and DR5 are DR6 and DR7 when CR4.DE = 0 (rule R782, decision D37). -/
def openDr (dr : Fin 8) : M Nat := do
  needCpl0
  let s ← get
  let high := decide (dr = 4 ∨ dr = 5)
  ensure (!(high && s.cr4Bit 3)) raiseUD
  ensure (!s.sys.dr7.getLsbD 13) (raise { vec := 1, dr6 := 0x2000 })
  return if high then dr.val + 2 else dr.val

/-- MOV to and from debug registers; the status flags are undefined (spec/50_m_maskmovdqu-movq2dq.md rule R782, U1). -/
def execMovDr (o : MovDrOps) (s : State) : Host.Outcome State Fault Refusal := run (
  match o with
  | .store dst dr => do
    let n ← openDr dr
    let s ← get
    writeReg s.crWidth dst ((s.sys.drOf n).setWidth s.crWidth.bits)
    clobberStatus
  | .load dr src => do
    let n ← openDr dr
    let w := (← get).crWidth
    let v : Word := (← readReg w src).setWidth 64
    ensure (decide (n < 6) || decide (v >>> 32 = 0)) raiseGP
    modify fun s => { s with sys := s.sys.setDr n (drFixed n v) }
    clobberStatus) s

/-! Descriptor-table registers. -/

/-- LGDT and LIDT: limit and base from memory (rules R755, R756). -/
def readTable (o : FarMem) : M TableReg := do
  let limit ← readMem2 o.mem 0 2
  let base ← readMem2 o.mem 2 (if o.w = .w64 then 8 else 4)
  let mask : Word := if o.w = .w16 then 0x00FFFFFF else ~~~(0 : Word)
  return { limit := BitVec.ofNat 16 limit, base := BitVec.ofNat 64 base &&& mask }
where
  /-- Read n bytes at a distance into the operand, which does not wrap (spec/20_memory.md rule R211); no #AC. -/
  readMem2 (m : MemRef) (d n : Nat) : M Nat := do
    let s ← get
    memRead m.seg (s.ea m + BitVec.ofNat 64 d) n 1

/-- LGDT (spec/49_j_jcc-lzcnt.md rule R755). -/
def execLgdt (o : FarMem) (s : State) : Host.Outcome State Fault Refusal := run (do
  needCpl0
  let t ← readTable o
  modify fun s => { s with sys := { s.sys with gdtr := t } }) s

/-- LIDT (spec/49_j_jcc-lzcnt.md rule R756). -/
def execLidt (o : FarMem) (s : State) : Host.Outcome State Fault Refusal := run (do
  needCpl0
  let t ← readTable o
  modify fun s => { s with sys := { s.sys with idtr := t } }) s

/-- SGDT and SIDT: limit, then base; a 16-bit operand size stores 24 bits of base and a zero byte (rules R1041, R1046). The operand
does not wrap, and the natural alignment of the base field is 4 (spec/20_memory.md rules R211, R220). -/
def storeTable (o : FarMem) (t : TableReg) : M Unit := do
  let s ← get
  let n := if o.w = .w64 then 8 else 4
  let off := s.ea o.mem
  let a ← resolve o.mem.seg .write 2 1 off 2
  let b ← resolve o.mem.seg .write 4 1 (off + 2) n
  physWrite a t.limit.toNat
  physWrite b (if o.w = .w16 then t.base.toNat % 2 ^ 24 else t.base.toNat % 2 ^ (8 * n))

/-- SGDT (spec/56_s_sahf-sysret.md rule R1041). -/
def execSgdt (o : FarMem) (s : State) : Host.Outcome State Fault Refusal := run (do storeTable o (← get).sys.gdtr) s
/-- SIDT (spec/56_s_sahf-sysret.md rule R1046). -/
def execSidt (o : FarMem) (s : State) : Host.Outcome State Fault Refusal := run (do storeTable o (← get).sys.idtr) s

/-- Store a value into a register at the operand size, or its low 16 bits into memory (rules R1047, R1048, R1059). -/
def storeWord (o : RmOp) (v : Word) : M Unit :=
  match o.rm with
  | .reg g => writeGp o.w g (v.setWidth o.w.bits)
  | .mem m => writeRm .w16 (.mem m) (v.setWidth 16)

/-- SLDT (spec/56_s_sahf-sysret.md rule R1047). -/
def execSldt (o : RmOp) (s : State) : Host.Outcome State Fault Refusal := run (do
  needProtected
  storeWord o ((← get).sys.ldtr.sel.setWidth 64)) s

/-- STR (spec/56_s_sahf-sysret.md rule R1059). -/
def execStr (o : RmOp) (s : State) : Host.Outcome State Fault Refusal := run (do
  needProtected
  storeWord o ((← get).sys.tr.sel.setWidth 64)) s

/-- SMSW; outside 64-bit mode bits 31:16 of a 32-bit register are undefined (spec/56_s_sahf-sysret.md rule R1048, U22). -/
def execSmsw (o : RmOp) (s : State) : Host.Outcome State Fault Refusal := run (do
  let s ← get
  match s.isLong, o.w, o.rm with
  | false, .w32, .reg g =>
    let u ← freeValue 16
    writeGp .w32 g (u ++ s.sys.cr0.setWidth 16)
  | _, _, _ => storeWord o s.sys.cr0) s

/-- The descriptor LLDT or LTR names in the GDT: 16 bytes in IA-32e mode (rules R757, R759). -/
def gdtSystem (sel : BitVec 16) : M (Word × BitVec 128) := do
  let bad : M (Word × BitVec 128) := raiseGP (selCode sel)
  if sel.getLsbD 2 then bad
  else
    match ← fetchDesc sel (if (← get).lma then 16 else 8) with
    | none => bad
    | some r => return r

/-- LLDT (spec/49_j_jcc-lzcnt.md rule R757). -/
def execLldt (o : Rm) (s : State) : Host.Outcome State Fault Refusal := run (do
  needProtected
  needCpl0
  let sel ← readRm .w16 o
  if isNull sel then modify fun s => { s with sys := { s.sys with ldtr := s.sys.ldtr.nullLoad sel } }
  else
    let (_, d) ← gdtSystem sel
    let c := descCache sel d
    ensure (!c.s && decide (c.typ = 2)) (raiseGP (selCode sel))
    ensure c.p (raiseNP (selCode sel))
    modify fun s => { s with sys := { s.sys with ldtr := c } }) s

/-- LTR: the TSS is marked busy in memory and in TR (spec/49_j_jcc-lzcnt.md rule R759). -/
def execLtr (o : Rm) (s : State) : Host.Outcome State Fault Refusal := run (do
  needProtected
  needCpl0
  let sel ← readRm .w16 o
  ensure (!isNull sel) raiseGP
  let (a, d) ← gdtSystem sel
  let s ← get
  let c := descCache sel d
  ensure (!c.s && (decide (c.typ = 9) || (!s.lma && decide (c.typ = 1)))) (raiseGP (selCode sel))
  ensure (!s.lma || decide (d.extractLsb' 104 5 = 0)) (raiseGP (selCode sel))
  ensure c.p (raiseNP (selCode sel))
  let as ← sysResolve .write (a + 5) 1
  physWrite as ((← physRead as) ||| 2)
  modify fun s => { s with sys := { s.sys with tr := { c with typ := c.typ ||| 2 } } }) s

/-! Segment inspection. -/

/-- The descriptor of a selector that LAR, LSL, VERR or VERW inspects: none for a NULL selector or one outside its table; a
system descriptor of IA-32e mode takes 16 bytes, all of which are read (rules R743, R765, R1084, R2041). -/
def inspect (sel : BitVec 16) : M (Option (SegCache × BitVec 128)) := do
  if isNull sel then return none
  match ← fetchDesc sel 8 with
  | none => return none
  | some (_, d) =>
    let c := descCache sel d
    if (← get).lma && !c.s && decide (c.typ ≠ 0) then
      return (← fetchDesc sel 16).map fun r => (descCache sel r.2, r.2)
    else return some (c, d)

/-- May the segment be inspected from the current level: a conforming code segment always, any other if its DPL is not below
CPL and RPL (rule R743)? -/
def State.mayInspect (s : State) (c : SegCache) (sel : BitVec 16) : Bool :=
  (c.isCode && c.conforming) || (decide (s.cpl ≤ c.dpl) && decide (rpl sel ≤ c.dpl))

/-- Set ZF. -/
def setZf (z : Bool) : M Unit := modifyFlags fun f => { f with zf := z }

/-- The system types LAR accepts (rule R743, Table 3-61). -/
def larType (lma : Bool) (t : BitVec 4) : Bool :=
  decide (t = 9 ∨ t = 0xB ∨ t = 0xC) || (!lma && decide (t = 1 ∨ t = 2 ∨ t = 3 ∨ t = 4 ∨ t = 5))

/-- The system types LSL accepts (rule R765, Table 3-64). -/
def lslType (lma : Bool) (t : BitVec 4) : Bool :=
  decide (t = 2 ∨ t = 9 ∨ t = 0xB) || (if lma then decide (t = 0) else decide (t = 1 ∨ t = 3))

/-- LAR (spec/49_j_jcc-lzcnt.md rule R743); bits 19:16 are undefined for a destination wider than 16 bits (U10). -/
def execLar (o : RegRm) (s : State) : Host.Outcome State Fault Refusal := run (do
  needProtected
  let sel ← readRm .w16 o.src
  let s ← get
  match ← inspect sel with
  | none => setZf false
  | some (c, d) =>
    if s.mayInspect c sel && (c.s || larType s.lma c.typ) then
      let u ← freeValue 4
      let v : BitVec 32 := d.extractLsb' 32 32 &&& 0x00F0FF00
      writeReg o.w o.dst ((v ||| (u.setWidth 32 <<< 16)).setWidth o.w.bits)
      setZf true
    else setZf false) s

/-- LSL (spec/49_j_jcc-lzcnt.md rule R765). -/
def execLsl (o : RegRm) (s : State) : Host.Outcome State Fault Refusal := run (do
  needProtected
  let sel ← readRm .w16 o.src
  let s ← get
  match ← inspect sel with
  | none => setZf false
  | some (c, _) =>
    if s.mayInspect c sel && (c.s || lslType s.lma c.typ) then
      writeReg o.w o.dst (c.limit.setWidth o.w.bits)
      setZf true
    else setZf false) s

/-- VERR and VERW: ZF tells whether the segment may be used (rules R1084, R1085). -/
def verify (fits : SegCache → Bool) (o : Rm) : M Unit := do
  needProtected
  let sel ← readRm .w16 o
  let s ← get
  match ← inspect sel with
  | none => setZf false
  | some (c, _) => setZf (c.s && s.mayInspect c sel && fits c)

/-- VERR (spec/57_t_test-vfnmsub.md rule R1084). -/
def execVerr (o : Rm) (s : State) : Host.Outcome State Fault Refusal := run (verify SegCache.readable o) s
/-- VERW (spec/57_t_test-vfnmsub.md rule R1085). -/
def execVerw (o : Rm) (s : State) : Host.Outcome State Fault Refusal := run (verify SegCache.writable o) s

/-! Model-specific registers. -/

/-- The time-stamp counter when it is read: strictly above its last value (spec/10_state.md rule R101, decision D50). -/
def readTsc : M Word := do
  let s ← get
  let v := s.msr.tsc + BitVec.ofNat 64 (Config.tscStep s.free + 1)
  set { s with msr := { s.msr with tsc := v }, free := s.free + 1 }
  return v

/-- The number of an x2APIC register, 802H to 83FH (rule R100). -/
def x2apicIndex (a : BitVec 32) : Option (Fin 62) :=
  if h : 0x802 ≤ a.toNat ∧ a.toNat ≤ 0x83F then some ⟨a.toNat - 0x802, by omega⟩ else none

/-- The value of an MSR that MSR_IMPLEMENTED names beside those of rule R100 (spec/00_scope.md rule R20); `none`: no such MSR. -/
def State.otherMsr (s : State) (a : BitVec 32) : Option Word :=
  (s.cfg.msr? a).map fun m => (s.msr.other.lookup a).getD m.init

/-- The value of an MSR but the time-stamp counter (rule R100); `none`: no such MSR. IA32_BIOS_SIGN_ID is at 8BH. -/
def State.msrValue (s : State) (a : BitVec 32) : Option Word :=
  match a.toNat with
  | 0x8B => some s.msr.biosSignId
  | 0x174 => some s.msr.sysenterCs
  | 0x175 => some s.msr.sysenterEsp
  | 0x176 => some s.msr.sysenterEip
  | 0x1A0 => some s.msr.miscEnable
  | 0x600 => some s.msr.dsArea
  | 0x6E0 => some s.msr.tscDeadline
  | 0xDA0 => some s.msr.xss
  | 0xC0000080 => some s.msr.efer
  | 0xC0000081 => some s.msr.star
  | 0xC0000082 => some s.msr.lstar
  | 0xC0000083 => some s.msr.cstar
  | 0xC0000084 => some s.msr.fmask
  | 0xC0000100 => some (s.segOf .fs).base
  | 0xC0000101 => some (s.segOf .gs).base
  | 0xC0000102 => some s.msr.kernelGsBase
  | 0xC0000103 => some s.msr.tscAux
  | _ =>
    match x2apicIndex a with
    | some i => some (s.msr.x2apic.get i)
    | none => s.otherMsr a

/-- The MSRs that hold an address (rule R1191). -/
def msrCanonical (a : BitVec 32) : Bool :=
  decide (a = 0x600 ∨ a = 0xC0000100 ∨ a = 0xC0000101 ∨ a = 0xC0000102 ∨ a = 0xC0000082 ∨ a = 0x176 ∨ a = 0x175)

/-- The bits of IA32_EFER that exist; LMA is read-only (rule R88). -/
def State.eferKnown (s : State) : Word :=
  let b (i : Nat) (f : Config.Feature) : Word := if s.has f then (1 : Word) <<< i else 0
  b 0 .syscall ||| b 8 .lm ||| b 10 .lm ||| b 11 .nx

/-- The reserved bits of an MSR (rules R88, R100): IA32_XSS supports none; MSR_IMPLEMENTED may name more (spec/00_scope.md rule
R20). -/
def State.msrReserved (s : State) (a : BitVec 32) : Word :=
  (match s.cfg.msr? a with | some m => m.reserved | none => 0) |||
    (if a = 0xC0000080 then ~~~s.eferKnown else if a = 0xDA0 then ~~~(0 : Word) else 0)

/-- The read-only bits MSR_IMPLEMENTED gives an MSR: a write leaves them as they are (spec/00_scope.md rule R20). -/
def State.msrReadOnly (s : State) (a : BitVec 32) : Word :=
  match s.cfg.msr? a with
  | some m => m.readOnly
  | none => 0

/-- Is the new value of IA32_EFER legal under paging? IA-32e mode needs CR4.PAE, and CR4.PCIDE needs IA-32e mode
(spec/70_reset_and_hazards.md rule R2205 (b); the #GP(0) is PRESUMED, log entry 14). -/
def State.eferOk (s : State) (v : Word) : Bool :=
  !s.pg || (if v.getLsbD 8 then s.cr4Bit 5 else !s.cr4Bit 17)

/-- The state with an MSR written. -/
def State.setMsr (s : State) (a : BitVec 32) (v : Word) : State :=
  let m := s.msr
  match a.toNat with
  | 0x10 => { s with msr := { m with tsc := v } }
  | 0x8B => { s with msr := { m with biosSignId := v } }
  | 0x174 => { s with msr := { m with sysenterCs := v } }
  | 0x175 => { s with msr := { m with sysenterEsp := v } }
  | 0x176 => { s with msr := { m with sysenterEip := v } }
  | 0x1A0 => { s with msr := { m with miscEnable := v &&& ~~~(0x400000 : Word) } }
  | 0x600 => { s with msr := { m with dsArea := v } }
  | 0x6E0 => { s with msr := { m with tscDeadline := v } }
  | 0xDA0 => { s with msr := { m with xss := v } }
  | 0xC0000080 => ({ s with msr := { m with efer := v } } : State).withLma
  | 0xC0000081 => { s with msr := { m with star := v } }
  | 0xC0000082 => { s with msr := { m with lstar := v } }
  | 0xC0000083 => { s with msr := { m with cstar := v } }
  | 0xC0000084 => { s with msr := { m with fmask := v } }
  | 0xC0000100 => s.setSeg .fs { s.segOf .fs with base := v }
  | 0xC0000101 => s.setSeg .gs { s.segOf .gs with base := v }
  | 0xC0000102 => { s with msr := { m with kernelGsBase := v } }
  | 0xC0000103 => { s with msr := { m with tscAux := v } }
  | _ =>
    match x2apicIndex a with
    | some i => { s with msr := { m with x2apic := m.x2apic.set i.val v i.isLt } }
    | none => { s with msr := { m with other := (a, v) :: m.other.filter (fun p => p.1 != a) } }

/-- RDMSR (spec/55_r_rcl-rsqrtss.md rule R991). -/
def execRdmsr (s : State) : Host.Outcome State Fault Refusal := run (do
  needCpl0
  let a ← readReg .w32 rCX
  if a = 0x10 then writeEdxEax (← readTsc)
  else
    match (← get).msrValue a with
    | none => raiseGP
    | some v => writeEdxEax v) s

/-- Does the address name an MSR that can be written (spec/59_w_wait-xtest.md rule R1191)? -/
def State.msrWritable (s : State) (a : BitVec 32) : Bool :=
  (decide (a = 0x10) || (s.msrValue a).isSome) && decide (s.msrReadOnly a ≠ ~~~(0 : Word))

/-- The value a write of v leaves in an MSR: its read-only bits stay. -/
def State.msrMerge (s : State) (a : BitVec 32) (v : Word) : Word :=
  let old := if a = 0x10 then s.msr.tsc else (s.msrValue a).getD 0
  (old &&& s.msrReadOnly a) ||| (v &&& ~~~s.msrReadOnly a)

/-- WRMSR (spec/59_w_wait-xtest.md rule R1191). -/
def execWrmsr (s : State) : Host.Outcome State Fault Refusal := run (do
  needCpl0
  let a ← readReg .w32 rCX
  let v ← readEdxEax
  let s ← get
  ensure (s.msrWritable a) raiseGP
  ensure (decide (v &&& s.msrReserved a = 0)) raiseGP
  ensure (!msrCanonical a || canonical v) raiseGP
  ensure (decide (a ≠ 0xC0000080) || s.eferOk v) raiseGP
  modify fun s => s.setMsr a (s.msrMerge a v)) s

/-! Counters, random numbers, protection keys. -/

/-- #GP(0) where CR4.TSD keeps the time-stamp counter from user code (rule R996). -/
def needTsc : M Unit := do
  let s ← get
  ensure (!s.cr4Bit 2 || decide (s.cpl = 0) || !s.pe) raiseGP

/-- RDTSC (spec/55_r_rcl-rsqrtss.md rule R996). -/
def execRdtsc (s : State) : Host.Outcome State Fault Refusal := run (do
  needFeature .tsc
  needTsc
  writeEdxEax (← readTsc)) s

/-- RDTSCP (spec/55_r_rcl-rsqrtss.md rule R997). -/
def execRdtscp (s : State) : Host.Outcome State Fault Refusal := run (do
  needFeature .rdtscp
  needTsc
  writeEdxEax (← readTsc)
  writeReg .w64 rCX (((← get).msr.tscAux.setWidth 32).setWidth 64)) s

/-- RDPMC: the count is free, cut to the counter width (spec/55_r_rcl-rsqrtss.md rule R993, decision D48). -/
def execRdpmc (s : State) : Host.Outcome State Fault Refusal := run (do
  let s ← get
  ensure (s.cr4Bit 8 || decide (s.cpl = 0) || !s.pe) raiseGP
  let i ← readReg .w32 rCX
  ensure (s.cfg.pmcValid.contains i) raiseGP
  let v := BitVec.ofNat 64 ((Config.pmcRead s.free i).toNat % 2 ^ (s.cfg.pmcMscb + 1))
  set { s with free := s.free + 1 }
  writeReg .w32 rAX (v.setWidth 32)
  writeReg .w32 rDX ((v >>> 32).setWidth 32)) s

/-- RDRAND and RDSEED: a free answer (ready, data) (rules R994, R995, decision D49). -/
def readRandom (o : RegOp) : M Unit := do
  let ready ← freeBit
  let data ← freeValue o.w.bits
  writeReg o.w o.reg (if ready then data else 0)
  modifyFlags fun f => { f with cf := ready, of := false, sf := false, zf := false, af := false, pf := false }

/-- RDRAND (spec/55_r_rcl-rsqrtss.md rule R994). -/
def execRdrand (o : RegOp) (s : State) : Host.Outcome State Fault Refusal := run (do needFeature .rdrand; readRandom o) s
/-- RDSEED (spec/55_r_rcl-rsqrtss.md rule R995). -/
def execRdseed (o : RegOp) (s : State) : Host.Outcome State Fault Refusal := run (do needFeature .rdseed; readRandom o) s

/-- #UD unless CR4.PKE (rules R992, R1192). -/
def needPke : M Unit := do ensure ((← get).cr4Bit 22) raiseUD

/-- RDPKRU (spec/55_r_rcl-rsqrtss.md rule R992). -/
def execRdpkru (s : State) : Host.Outcome State Fault Refusal := run (do
  needPke
  ensure (decide ((← readReg .w32 rCX) = 0)) raiseGP
  writeEdxEax ((← get).sys.pkru.setWidth 64)) s

/-- WRPKRU (spec/59_w_wait-xtest.md rule R1192). -/
def execWrpkru (s : State) : Host.Outcome State Fault Refusal := run (do
  needPke
  ensure (decide ((← readReg .w32 rCX) = 0) && decide ((← readReg .w32 rDX) = 0)) raiseGP
  let v ← readReg .w32 rAX
  modify fun s => { s with sys := { s.sys with pkru := v } }) s

/-! FS and GS bases. -/

/-- #UD unless 64-bit mode, CR4.FSGSBASE and the feature (rules R989, R1189). -/
def needFsGsBase : M Unit := do
  let s ← get
  ensure (s.isLong && s.cr4Bit 16 && s.has .fsgsbase) raiseUD

/-- Read a segment base. -/
def readSegBase (r : SReg) (o : RegOp) : M Unit := do
  needFsGsBase
  writeReg o.w o.reg (((← get).segOf r).base.setWidth o.w.bits)

/-- Write a segment base. -/
def writeSegBase (r : SReg) (o : RegOp) : M Unit := do
  needFsGsBase
  let v : Word := (← readReg o.w o.reg).setWidth 64
  ensure (canonical v) raiseGP
  modify fun s => s.setSeg r { s.segOf r with base := v }

/-- RDFSBASE (spec/55_r_rcl-rsqrtss.md rule R989). -/
def execRdfsbase (o : RegOp) (s : State) : Host.Outcome State Fault Refusal := run (readSegBase .fs o) s
/-- RDGSBASE (spec/55_r_rcl-rsqrtss.md rule R990). -/
def execRdgsbase (o : RegOp) (s : State) : Host.Outcome State Fault Refusal := run (readSegBase .gs o) s
/-- WRFSBASE (spec/59_w_wait-xtest.md rule R1189). -/
def execWrfsbase (o : RegOp) (s : State) : Host.Outcome State Fault Refusal := run (writeSegBase .fs o) s
/-- WRGSBASE (spec/59_w_wait-xtest.md rule R1190). -/
def execWrgsbase (o : RegOp) (s : State) : Host.Outcome State Fault Refusal := run (writeSegBase .gs o) s

/-- SWAPGS (spec/56_s_sahf-sysret.md rule R1065). -/
def execSwapgs (s : State) : Host.Outcome State Fault Refusal := run (do
  let s ← get
  ensure s.isLong raiseUD
  ensure (decide (s.cpl = 0)) raiseGP
  let g := s.segOf .gs
  set (({ s with msr := { s.msr with kernelGsBase := g.base } } : State).setSeg .gs { g with base := s.msr.kernelGsBase })) s

/-! Fast system calls. -/

/-- The fixed code segment of the fast system calls (rules R1066 to R1069). -/
def fastCode (sel : BitVec 16) (dpl : BitVec 2) (long : Bool) : SegCache :=
  { sel := sel, base := 0, limit := 0xFFFFFFFF, typ := 11, s := true, dpl := dpl, p := true, avl := false, l := long,
    db := !long, g := true, valid := true }

/-- The fixed stack segment of the fast system calls. -/
def fastStack (sel : BitVec 16) (dpl : BitVec 2) : SegCache :=
  { sel := sel, base := 0, limit := 0xFFFFFFFF, typ := 3, s := true, dpl := dpl, p := true, avl := false, l := false,
    db := true, g := true, valid := true }

/-- The fixed segments and their privilege level. -/
def State.fastSegs (s : State) (cs ss : BitVec 16) (cpl : BitVec 2) (long : Bool) : State :=
  { (s.setSeg .cs (fastCode cs cpl long)).setSeg .ss (fastStack ss cpl) with cpl := cpl }

/-- SYSCALL (spec/56_s_sahf-sysret.md rule R1066). -/
def execSyscall (s : State) : Host.Outcome State Fault Refusal := run (do
  needFeature .syscall
  let s ← get
  ensure (s.isLong && s.msr.efer.getLsbD 0) raiseUD
  let image := s.flags.image
  let sel : BitVec 16 := s.msr.star.extractLsb' 32 16
  let t := ((s.setGp rCX s.ripNext).setGp 11 image).fastSegs (sel &&& 0xFFFC) (sel + 8) 0 true
  set { t with rip := s.msr.lstar, flags := Flags.ofImage (image &&& ~~~s.msr.fmask) }) s

/-- SYSENTER (spec/56_s_sahf-sysret.md rule R1067). -/
def execSysenter (s : State) : Host.Outcome State Fault Refusal := run (do
  needFeature .sep
  let s ← get
  let sel : BitVec 16 := s.msr.sysenterCs.setWidth 16
  ensure (s.pe && !isNull sel) raiseGP
  let cut (v : Word) : Word := if s.lma then v else (v.setWidth 32).setWidth 64
  let cs := sel &&& 0xFFFC
  let t := (s.setGp rSP (cut s.msr.sysenterEsp)).fastSegs cs (cs + 8) 0 s.lma
  set { t with rip := cut s.msr.sysenterEip, flags := { s.flags with vm := false, ifl := false } }) s

/-- SYSEXIT (spec/56_s_sahf-sysret.md rule R1068). -/
def execSysexit (w : Width) (s : State) : Host.Outcome State Fault Refusal := run (do
  needFeature .sep
  let s ← get
  let sel : BitVec 16 := s.msr.sysenterCs.setWidth 16
  ensure (s.pe && !isNull sel && s.privileged) raiseGP
  let wide := decide (w = .w64)
  ensure (!wide || (canonical (s.gp rCX) && canonical (s.gp rDX))) raiseGP
  let cut (v : Word) : Word := if wide then v else (v.setWidth 32).setWidth 64
  let cs := (sel + (if wide then 32 else 16)) ||| 3
  let t := (s.setGp rSP (cut (s.gp rCX))).fastSegs cs (cs + 8) 3 wide
  set { t with rip := cut (s.gp rDX) }) s

/-- SYSRET (spec/56_s_sahf-sysret.md rule R1069). -/
def execSysret (w : Width) (s : State) : Host.Outcome State Fault Refusal := run (do
  needFeature .syscall
  let s ← get
  ensure (s.isLong && s.msr.efer.getLsbD 0) raiseUD
  ensure (decide (s.cpl = 0) && canonical (s.gp rCX)) raiseGP
  let wide := decide (w = .w64)
  let base : BitVec 16 := s.msr.star.extractLsb' 48 16
  let cs := (if wide then base + 16 else base) ||| 3
  let t := s.fastSegs cs ((base + 8) ||| 3) 3 wide
  let rcx := s.gp rCX
  set { t with
    rip := if wide then rcx else (rcx.setWidth 32).setWidth 64
    flags := Flags.ofImage ((s.gp 11 &&& 0x3C7FD7) ||| 2) }) s

/-! Extended control registers. -/

/-- #UD unless XSAVE is there and CR4.OSXSAVE = 1 (rules R1199, R1211). -/
def needOsXsave : M Unit := do
  needFeature .xsave
  ensure ((← get).cr4Bit 18) raiseUD

/-- The state components XCR0 supports: x87, SSE, AVX (decision D63). -/
def xcr0Supported : Word := 7

/-- XSETBV (spec/59_w_wait-xtest.md rule R1211). -/
def execXsetbv (s : State) : Host.Outcome State Fault Refusal := run (do
  needOsXsave
  needCpl0
  let v ← readEdxEax
  ensure (decide ((← readReg .w32 rCX) = 0)) raiseGP
  ensure (decide (v &&& ~~~xcr0Supported = 0) && v.getLsbD 0 && !(v.getLsbD 2 && !v.getLsbD 1)) raiseGP
  modify fun s => { s with sys := { s.sys with xcr0 := v } }) s

/-- RSM outside system-management mode (spec/55_r_rcl-rsqrtss.md rule R1009, decision D54). -/
def execRsm (s : State) : Host.Outcome State Fault Refusal := run raiseUD s

end Sys2Proof.Machine
end

