-- ==== Sys2Proof/Machine/Tsx.lean ====
section
/-! DEFINITION. LOCK (spec/49_j_jcc-lzcnt.md rule R760), the elision hints XACQUIRE and XRELEASE, which the model never acts on
(spec/59_w_wait-xtest.md rule R1193, decision D61), and restricted transactional memory (rules R1194, R1196, R1198, R1212).
One processor executes the instructions in order, so a locked access is one step (spec/20_memory.md rule R281). -/

namespace Sys2Proof.Machine

/-! LOCK. -/

/-- The operation of a lockable two-operand instruction. -/
def lockAlu : LockAlu → BinOp
  | .add => opAdd
  | .or => opOr
  | .adc => opAdc
  | .sbb => opSbb
  | .and => opAnd
  | .sub => opSub
  | .xor => opXor

/-- The change a lockable bit instruction makes. -/
def lockBit : LockBit → Bool → Bool
  | .bts => fun _ => true
  | .btr => fun _ => false
  | .btc => fun b => !b

/-- The operation of a lockable one-operand instruction. -/
def lockUn : LockUn → UnOp
  | .inc => opInc
  | .dec => opDec
  | .neg => opNeg
  | .not => opNot

/-- The instruction that LOCK qualifies. -/
def lockBody : Lockable → M Unit
  | .aluReg op w m r => aluRun (lockAlu op) (.mr w (.mem m) r)
  | .aluImm op w m imm => aluRun (lockAlu op) (.mi w (.mem m) imm)
  | .bit op w m src => bitChange (lockBit op) { w := w, dst := .mem m, src := src }
  | .un op w m => unRun (lockUn op) w (.mem m)
  | .cmpxchg w m r => cmpxchgBody w (.mem m) r
  | .xadd w m r => xaddBody w (.mem m) r
  | .xchg w m r => xchgBody w (.mem m) r
  | .cmpxchg8b m => cmpxchg8bBody m
  | .cmpxchg16b m => cmpxchg16bBody m

/-- LOCK (spec/49_j_jcc-lzcnt.md rule R760). -/
def execLock (o : Lockable) (s : State) : Host.Outcome State Fault Refusal := run (lockBody o) s

/-- XACQUIRE: the instruction without the hint (spec/59_w_wait-xtest.md rule R1193). -/
def execXacquire (o : AcquireOp) (s : State) : Host.Outcome State Fault Refusal := run (
  match o with
  | .locked op => lockBody op
  | .xchg w m r => xchgBody w (.mem m) r) s

/-- XRELEASE: the instruction without the hint (spec/59_w_wait-xtest.md rule R1193). -/
def execXrelease (o : ReleaseOp) (s : State) : Host.Outcome State Fault Refusal := run (
  match o with
  | .locked op => lockBody op
  | .xchg w m r => xchgBody w (.mem m) r
  | .movReg w m r => movBody (.mr w (.mem m) r)
  | .movImm w m imm => movBody (.mi w (.mem m) (imm.signExtend 64))) s

/-! Transactions. -/

/-- XBEGIN (spec/59_w_wait-xtest.md rule R1196, decision D62): the fallback address counts from the next instruction. -/
def execXbegin (o : XbeginOps) (s : State) : Host.Outcome State Fault Refusal := run (do
  needFeature .rtm
  let s ← get
  if s.rtm.nest < s.cfg.maxRtmNest then
    if s.rtm.nest = 0 then
      let t := s.ripNext + o.rel.signExtend 64
      let fb := if s.isLong then t else cutTarget (if o.w = .w16 then .w16 else .w32) t
      checkTarget fb
      set { s with rtm := { nest := 1, fallback := fb, snapshot := some s.snapshot } }
    else set { s with rtm := { s.rtm with nest := s.rtm.nest + 1 } }
  else set (s.rtmAbort s.cfg.rtmNestStatus)) s

/-- XEND: the outermost commits, unless the host reports a commit failure with its abort status (spec/59_w_wait-xtest.md rule
R1198). -/
def execXend (s : State) : Host.Outcome State Fault Refusal := run (do
  needFeature .rtm
  let s ← get
  ensure s.rtm.snapshot.isSome raiseGP
  if s.rtm.nest ≤ 1 then
    match s.pins.rtmCommitFail with
    | some st => set ({ s with pins := { s.pins with rtmCommitFail := none } }.rtmAbort st)
    | none => set { s with rtm := {} }
  else set { s with rtm := { s.rtm with nest := s.rtm.nest - 1 } }) s

/-- XABORT: bit 0 of EAX and the argument in bits 31:24 (spec/59_w_wait-xtest.md rule R1194). -/
def execXabort (imm : BitVec 8) (s : State) : Host.Outcome State Fault Refusal := run (do
  needFeature .rtm
  modify fun s => s.rtmAbort ((imm.setWidth 32 <<< 24) ||| 1)) s

/-- XTEST (spec/59_w_wait-xtest.md rule R1212). -/
def execXtest (s : State) : Host.Outcome State Fault Refusal := run (do
  let s ← get
  ensure (s.has .hle || s.has .rtm) raiseUD
  modifyFlags fun f =>
    { f with zf := s.rtm.snapshot.isNone, cf := false, of := false, sf := false, pf := false, af := false }) s

end Sys2Proof.Machine
end

