-- ==== Sys2Proof/Machine/X80.lean ====
section
/-! DEFINITION. Arithmetic on the 80-bit format of the x87 unit (spec/00_scope.md rule R30 (f), spec/10_state.md rules R120 to
R126), over the exact arithmetic of Machine/Float.lean, and the functions of the x87 pages. -/

namespace Sys2Proof.Machine

/-! The format (rule R126). -/

/-- An encoding from its fields. -/
def make80 (neg : Bool) (e sig : Nat) : BitVec 80 := BitVec.ofNat 80 ((if neg then 2 ^ 79 else 0) + e * 2 ^ 64 + sig)
/-- The exponent field. -/
def exp80 (v : BitVec 80) : Nat := (v.extractLsb' 64 15).toNat
/-- The significand, J and the fraction. -/
def sig80 (v : BitVec 80) : Nat := (v.extractLsb' 0 64).toNat

/-- Real indefinite. -/
def indefinite80 : BitVec 80 := make80 true 0x7FFF 0xC000000000000000
/-- An infinity. -/
def inf80 (neg : Bool) : BitVec 80 := make80 neg 0x7FFF 0x8000000000000000
/-- A zero. -/
def zero80 (neg : Bool) : BitVec 80 := make80 neg 0 0
/-- One. -/
def one80 : BitVec 80 := make80 false 0x3FFF 0x8000000000000000

/-- The datum of an encoding; nothing for an unsupported one. -/
def unpack80 (v : BitVec 80) : Option Fp :=
  let n := v.msb
  let e := exp80 v
  let x := sig80 v
  if e = 0 then some (.fin n x (-16445))
  else if x < 2 ^ 63 then none
  else if e = 0x7FFF then (if x = 2 ^ 63 then some (.inf n) else some (.nan (decide (x < 0xC000000000000000))))
  else some (.fin n x ((e : Int) - 16446))

/-- A denormal, or a pseudo-denormal (rule R126). -/
def denormal80 (v : BitVec 80) : Bool := decide (exp80 v = 0 ∧ sig80 v ≠ 0)
/-- A NaN made quiet. -/
def quiet80 (v : BitVec 80) : BitVec 80 := v ||| 0x4000000000000000
/-- Is it a NaN? -/
def isNan80 (v : BitVec 80) : Bool :=
  match unpack80 v with
  | some (.nan _) => true
  | _ => false

/-- The tag of a value (rule R123, spec/47_f_fld-fyl2xp1.md rule R700): zero, valid or special. -/
def tagOf (v : BitVec 80) : BitVec 2 :=
  if exp80 v = 0 ∧ sig80 v = 0 then 1
  else if exp80 v ≠ 0 ∧ exp80 v ≠ 0x7FFF ∧ 2 ^ 63 ≤ sig80 v then 0
  else 2

/-! Operations. -/

/-- An operand: a register value, or a converted memory operand that was denormal in its own format. -/
structure XArg where
  v : BitVec 80
  den : Bool
deriving DecidableEq, Repr

/-- A register operand. -/
def xreg (v : BitVec 80) : XArg := { v := v, den := denormal80 v }

/-- What the control word says to an operation, with the free values it may need: a value, a bit for the sign of two NaNs with
one significand, and a bit that says whether a result of an open function is inexact. -/
structure XEnv where
  rc : BitVec 2
  prec : Nat
  masks : BitVec 6
  spare : BitVec 80
  coin : Bool
  pe : Bool
deriving DecidableEq, Repr

/-- A result, the exceptions met, and whether it was rounded up in magnitude (C1). -/
structure XOut where
  val : BitVec 80
  flags : FpFlags
  up : Bool
deriving DecidableEq, Repr

/-- The target of a rounding to p bits. -/
def target80 (p : Nat) : Target := { prec := p, qmin := -16381 - p, qmax := 16384 - p }

/-- The encoding of m * 2^q, m below 2^p, and at least 2^(p-1) unless it is denormal. -/
def pack80 (p : Nat) (neg : Bool) (m : Nat) (q : Int) : BitVec 80 :=
  let sig := m * 2 ^ (64 - p)
  if sig < 2 ^ 63 then make80 neg 0 sig else make80 neg (q + p + 16382).toNat sig

/-- An encoding with the exponent adjusted by d, for an unmasked overflow or underflow (rule R30 (f)); the spare value when the
adjusted exponent does not fit. -/
def XEnv.adjusted (env : XEnv) (neg : Bool) (m : Nat) (q d : Int) : BitVec 80 :=
  let e := q + d + env.prec + 16382
  if 1 ≤ e ∧ e ≤ 0x7FFE then pack80 env.prec neg m (q + d) else env.spare

/-- Round a finite result (rule R30 (c), (f)). -/
def XEnv.round (env : XEnv) (neg : Bool) (m : Nat) (e : Int) : XOut :=
  if m = 0 then { val := zero80 neg, flags := 0, up := false }
  else
    let r := roundTo (target80 env.prec) env.rc neg m e
    let wide (d : Int) (fl : FpFlags) : XOut :=
      { val := env.adjusted neg r.freeM r.freeQ d, flags := fl ||| flagIf r.freeInexact 32, up := r.freeUp }
    if r.big then
      if env.masks.getLsbD 3 then
        let toInf := overflowsToInf env.rc neg
        { val := if toInf then inf80 neg else pack80 env.prec neg (2 ^ env.prec - 1) (16384 - env.prec)
          flags := 40, up := toInf }
      else wide (-24576) 8
    else if r.tiny && !env.masks.getLsbD 4 then wide 24576 16
    else
      { val := pack80 env.prec neg r.m r.q
        flags := flagIf r.inexact 32 ||| flagIf (r.tiny && r.inexact) 16
        up := r.up }

/-- The masked response to an invalid operation. -/
def invalid80 : XOut := { val := indefinite80, flags := 1, up := false }
/-- An exact result. -/
def exact80 (v : BitVec 80) (fl : FpFlags := 0) : XOut := { val := v, flags := fl, up := false }

/-- Encode an outcome; `de` says that an operand is denormal: DE is set beside ZE (rule R30 (c)). DEDUCED (log 62): an invalid
operation reports IE alone. -/
def XEnv.encode (env : XEnv) (de : Bool) : Exact → XOut
  | .invalid => invalid80
  | .divZero n => { val := inf80 n, flags := 4 ||| flagIf de 2, up := false }
  | .inf n => { val := inf80 n, flags := flagIf de 2, up := false }
  | .fin n m e => let r := env.round n m e; { r with flags := r.flags ||| flagIf de 2 }

/-- The NaN of two operands: the larger significand, made quiet (rule R30 (d)). -/
def XEnv.pickNan (env : XEnv) (a b : BitVec 80) : BitVec 80 :=
  quiet80
    (if !isNan80 b then a
     else if !isNan80 a then b
     else if sig80 b < sig80 a then a
     else if sig80 a < sig80 b then b
     else if env.coin then a else b)

/-- A signalling NaN. -/
def isSnan80 (v : BitVec 80) : Bool := decide (unpack80 v = some (.nan true))

/-- The two-operand frame: unsupported encodings and NaNs, else f on the data. DEDUCED (log 62): beside a NaN or an unsupported
operand a denormal one is not reported. -/
def XEnv.two (env : XEnv) (a b : XArg) (f : Fp → Fp → XOut) : XOut :=
  match unpack80 a.v, unpack80 b.v with
  | some x, some y =>
    if isNan80 a.v || isNan80 b.v then
      { val := env.pickNan a.v b.v, flags := flagIf (isSnan80 a.v || isSnan80 b.v) 1, up := false }
    else f x y
  | _, _ => invalid80

/-- The one-operand frame. -/
def XEnv.one (a : XArg) (f : Fp → XOut) : XOut :=
  match unpack80 a.v with
  | some (.nan sn) => { val := quiet80 a.v, flags := flagIf sn 1, up := false }
  | some x => f x
  | none => invalid80

/-- A two-operand operation on the destination and the source. -/
abbrev XOp2 := XEnv → XArg → XArg → XOut

/-- An arithmetic operation from its exact outcome. -/
def xBinary (op : BitVec 2 → Fp → Fp → Exact) : XOp2 := fun env a b =>
  env.two a b fun x y => env.encode (a.den || b.den) (op env.rc x y)

/-- X87Add (spec/46_f_f2xm1-fisttp.md rule R620). -/
def xAdd : XOp2 := xBinary exactAdd
/-- X87Sub (spec/47_f_fld-fyl2xp1.md rule R685). -/
def xSub : XOp2 := xBinary exactSub
/-- X87Mul (spec/47_f_fld-fyl2xp1.md rule R661). -/
def xMul : XOp2 := xBinary fun _ => exactMul
/-- X87Div (spec/46_f_f2xm1-fisttp.md rule R636). -/
def xDiv : XOp2 := xBinary fun _ => exactDiv
/-- The operation with its operands exchanged: FSUBR, FDIVR. -/
def xRev (f : XOp2) : XOp2 := fun env a b => f env b a

/-- X87Sqrt (spec/47_f_fld-fyl2xp1.md rule R676). -/
def xSqrt (env : XEnv) (a : XArg) : XOut := XEnv.one a fun x => env.encode a.den (exactSqrt x)

/-- FRNDINT (spec/47_f_fld-fyl2xp1.md rule R669). -/
def xRoundInt (env : XEnv) (a : XArg) : XOut := XEnv.one a fun x =>
  match x with
  | .fin n m e =>
    let (v, ix, up) := roundAt env.rc n m e 0
    let r := env.round n v 0
    { r with flags := flagIf ix 32 ||| flagIf a.den 2, up := up }
  | _ => exact80 a.v

/-- A signed integer, converted exactly. -/
def ofInt80 (v : Int) : BitVec 80 :=
  ({ rc := 0, prec := 64, masks := 63, spare := 0, coin := false, pe := false : XEnv }.round (decide (v < 0)) v.natAbs 0).val

/-- A binary32 or binary64 operand, converted exactly. -/
def ofFmt80 (f : FpFmt) (v : Nat) : XArg :=
  match f.unpack v with
  | .nan _ => { v := make80 (f.sign v) 0x7FFF (2 ^ 63 + f.frac v * 2 ^ (63 - f.fbits)), den := false }
  | .inf n => { v := inf80 n, den := false }
  | .fin n m e =>
    { v := ({ rc := 0, prec := 64, masks := 63, spare := 0, coin := false, pe := false : XEnv }.round n m e).val
      den := f.isDenormal v }

/-! Stores. -/

/-- What a store to memory would write, with its exceptions. -/
structure XStore where
  val : Nat
  flags : FpFlags
  up : Bool
deriving DecidableEq, Repr

/-- Conversion to binary32 or binary64 (spec/47_f_fld-fyl2xp1.md rule R677). -/
def toFmt80 (f : FpFmt) (env : XEnv) (v : BitVec 80) : XStore :=
  match unpack80 v with
  | none => { val := f.indefinite, flags := 1, up := false }
  | some (.nan sn) =>
    { val := f.quiet (f.make v.msb f.emax (sig80 v % 2 ^ 63 / 2 ^ (63 - f.fbits))), flags := flagIf sn 1, up := false }
  | some (.inf n) => { val := f.infinity n, flags := 0, up := false }
  | some (.fin n m e) =>
    if m = 0 then { val := f.zero n, flags := 0, up := false }
    else
      let r := roundTo f.target env.rc n m e
      if r.big then
        let toInf := overflowsToInf env.rc n
        { val := if toInf then f.infinity n else f.largest n
          flags := 8 ||| flagIf (env.masks.getLsbD 3 || r.freeInexact) 32
          up := if env.masks.getLsbD 3 then toInf else r.freeUp }
      else
        { val := f.pack n r.m r.q
          flags := flagIf r.inexact 32 ||| flagIf (r.tiny && (r.inexact || !env.masks.getLsbD 4)) 16
          up := r.up }

/-- The rounded integer of a finite value, if there is one. -/
def intOf80 (rc : BitVec 2) (v : BitVec 80) : Option (Int × Bool × Bool) :=
  match unpack80 v with
  | some (.fin n m e) => let (k, ix, up) := roundAt rc n m e 0; some (signed n k, ix, up)
  | _ => none

/-- Conversion to a signed integer of n bits (spec/46_f_f2xm1-fisttp.md rule R648). -/
def toInt80 (n : Nat) (rc : BitVec 2) (v : BitVec 80) : XStore :=
  let bad : XStore := { val := 2 ^ (n - 1), flags := 1, up := false }
  match intOf80 rc v with
  | some (k, ix, up) =>
    if k < -(2 ^ (n - 1) : Int) ∨ (2 ^ (n - 1) : Int) ≤ k then bad
    else { val := (BitVec.ofInt n k).toNat, flags := flagIf ix 32, up := up }
  | none => bad

/-- The packed BCD digits of a number, digit 0 first, n bytes. -/
def bcdDigits : Nat → Nat → Nat
  | 0, _ => 0
  | n + 1, v => v % 10 + 16 * (v / 10 % 10) + 256 * bcdDigits n (v / 100)

/-- The packed BCD indefinite (rule R126). -/
def bcdIndefinite : Nat := 0xFFFFC000000000000000

/-- Conversion to packed BCD (spec/46_f_f2xm1-fisttp.md rule R624). -/
def toBcd80 (env : XEnv) (v : BitVec 80) : XStore :=
  let bad : XStore := { val := bcdIndefinite, flags := 1, up := false }
  match intOf80 env.rc v with
  | some (k, ix, up) =>
    if 10 ^ 18 ≤ k.natAbs then bad
    else { val := bcdDigits 9 k.natAbs + (if v.msb then 0x80 * 2 ^ 72 else 0), flags := flagIf ix 32, up := up }
  | none => bad

/-- The value of n bytes of packed BCD; nothing when a digit is above 9 (rule R623). -/
def bcdValue : Nat → Nat → Option Nat
  | 0, _ => some 0
  | n + 1, v =>
    match bcdValue n (v / 256) with
    | some r => if v % 16 ≤ 9 ∧ v / 16 % 16 ≤ 9 then some (v % 16 + 10 * (v / 16 % 16) + 100 * r) else none
    | none => none

/-! Comparison (spec/46_f_f2xm1-fisttp.md rules R629, R633). -/

/-- The order of two operands and the exceptions: a QNaN is invalid unless `quiet`. DEDUCED (log 62): beside a NaN or an
unsupported operand a denormal one is not reported. -/
def xCompare (quiet : Bool) (a b : XArg) : Order × FpFlags :=
  match unpack80 a.v, unpack80 b.v with
  | some x, some y =>
    let o := x.compare y
    if o = .unordered then (o, flagIf (!quiet || isSnan80 a.v || isSnan80 b.v) 1) else (o, flagIf (a.den || b.den) 2)
  | _, _ => (.unordered, 1)

/-! FSCALE, FXTRACT, FPREM (spec/47_f_fld-fyl2xp1.md rules R673, R701, R666). -/

/-- FSCALE; a scale factor beyond 2^17 acts as 2^17 would. -/
def xScale (env : XEnv) (a b : XArg) : XOut :=
  let e64 := { env with prec := 64 }
  let de := a.den || b.den
  env.two a b fun x y =>
    match x, y with
    | .inf n, .inf m => if m then invalid80 else exact80 (inf80 n)
    | .inf n, _ => exact80 (inf80 n) (flagIf de 2)
    | .fin n m _, .inf neg =>
      if neg then exact80 (zero80 n) (flagIf de 2) else if m = 0 then invalid80 else exact80 (inf80 n) (flagIf de 2)
    | .fin n m e, .fin yn ym ye =>
      let k := (roundInt 3 yn ym ye).1
      e64.encode de (.fin n m (e + max (-131072) (min k 131072)))
    | _, _ => invalid80

/-- The exponent of the leading bit of m * 2^e. -/
def leadOf (m : Nat) (e : Int) : Int := e + bitLen m - 1

/-- FXTRACT: the exponent, the significand, and the exceptions. The parts of an infinity are not stated: free values. -/
def xExtract (env : XEnv) (spare2 : BitVec 80) (a : XArg) : BitVec 80 × BitVec 80 × FpFlags :=
  match unpack80 a.v with
  | none => (indefinite80, indefinite80, 1)
  | some (.nan sn) => (quiet80 a.v, quiet80 a.v, flagIf sn 1)
  | some (.inf _) => (env.spare, spare2, 0)
  | some (.fin n m e) =>
    if m = 0 then (inf80 true, zero80 n, 4)
    else (ofInt80 (leadOf m e), make80 n 0x3FFF (m * 2 ^ (64 - bitLen m)), flagIf a.den 2)

/-- The quotient of FPREM, or of FPREM1 to the nearest even: a, b as multiples of one power of two. -/
def remQuotient (nearest : Bool) (a b : Nat) : Nat :=
  let q := a / b
  if nearest then (if 2 * (a % b) > b ∨ (2 * (a % b) = b ∧ q % 2 = 1) then q + 1 else q) else q

/-- How far a reduction came: complete with a quotient, partial, or without one (a NaN or invalid operand, for which the page
states no C0 to C3: log 48). -/
inductive Reduction where
  | complete (q : Nat)
  | incomplete
  | absent
deriving DecidableEq, Repr

/-- The result of a partial remainder: the value, its exceptions, and the reduction. -/
structure XRem where
  out : XOut
  quotient : Reduction
deriving DecidableEq, Repr

/-- FPREM and FPREM1. DESIGN CHOICE (log 63): the exponent of a denormal operand is that of its leading bit. -/
def xRem (nearest : Bool) (env : XEnv) (a b : XArg) : XRem :=
  let e64 := { env with prec := 64 }
  let de := flagIf (a.den || b.den) 2
  let bad (o : XOut) : XRem := { out := o, quotient := .absent }
  match unpack80 a.v, unpack80 b.v with
  | some x, some y =>
    if isNan80 a.v || isNan80 b.v then bad (env.two a b fun _ _ => invalid80)
    else match x, y with
    | .fin n m e, .inf _ =>
      let r := e64.round n m e
      { out := { r with flags := r.flags ||| de }, quotient := .complete 0 }
    | .fin n m e, .fin _ bm be =>
      if bm = 0 then bad invalid80
      else if m = 0 then { out := exact80 (zero80 n) de, quotient := .complete 0 }
      else
        let d := leadOf m e - leadOf bm be
        let lo := min e be
        let ai := m * 2 ^ (e - lo).toNat
        let bi := bm * 2 ^ (be - lo).toNat
        if d < 64 then
          let q := remQuotient nearest ai bi
          let r : Int := (ai : Int) - bi * q
          let neg := if r = 0 then n else (n != decide (r < 0))
          let o := e64.round neg r.natAbs lo
          { out := { o with flags := o.flags ||| de, up := false }, quotient := .complete q }
        else
          let sh := (d - (32 + Config.fpremExtra.val : Nat)).toNat
          let o := e64.round n (ai % (bi * 2 ^ sh)) lo
          { out := { o with flags := o.flags ||| de, up := false }, quotient := .incomplete }
    | _, _ => bad invalid80
  | _, _ => bad invalid80

/-! The open functions (rule R20, U8): the fixed cases of each page; elsewhere the open value, kept within the class of results
the page's table gives (log entry 7). -/

/-- A value of an open function before the limits of the exponent range: (-1)^neg * m * 2^e. -/
structure OpenValue where
  neg : Bool
  m : Nat
  e : Int
deriving DecidableEq, Repr

/-- A zero. -/
def OpenValue.zero (neg : Bool) : OpenValue := { neg := neg, m := 0, e := 0 }

/-- Has v the given sign, and does its magnitude lie between two bounds? -/
def OpenValue.within (sign : Option Bool) (lo hi : Fp) (v : OpenValue) : Bool :=
  (match sign with
   | some n => decide (v.neg = n)
   | none => true) &&
  decide (lo.compare (.fin false v.m v.e) ≠ .greater ∧ hi.compare (.fin false v.m v.e) ≠ .less)

/-- A value of an open function within `ok`, rounded into the exponent range with the exceptions of `listed` it meets; the free
bit `pe` says whether it is inexact before that. Overflow and underflow are those of `XEnv.round` (rule R30 (c), (f)). -/
def XEnv.openFn (env : XEnv) (fn : Config.X87Fn) (a b : BitVec 80) (de : Bool) (listed : FpFlags) (ok : OpenValue → Bool)
    (alt : OpenValue) : XOut :=
  let (neg, sig, e, up) := Config.x87Transcendental fn a b env.rc
  let w : OpenValue := { neg := neg, m := sig.toNat, e := e }
  let v := if ok w then w else alt
  let r := { env with prec := 64, masks := env.masks ||| ~~~listed }.round v.neg v.m v.e
  let tiny := decide (v.m = 0 ∨ v.e + bitLen v.m - 1 < -16382)
  { val := r.val
    flags := (r.flags ||| flagIf env.pe 32 ||| flagIf (tiny && env.pe) 16) &&& listed ||| flagIf de 2
    up := if r.flags.getLsbD 5 then r.up else env.pe && up }

/-- Twice 2^126 pi, with a sticky last bit. -/
def piBits : Nat := 0x1921fb54442d18469898cc51701b839a3

/-- k/4 of pi with a sign, rounded to 64 bits. -/
def XEnv.piQuarters (env : XEnv) (neg : Bool) (k : Nat) (de : Bool) : XOut :=
  let r := { env with prec := 64 }.round neg (k * piBits) (-129)
  { r with flags := r.flags ||| flagIf de 2 }

/-- pi/2 rounded down. -/
def halfPiDown : Fp := .fin false 0xC90FDAA22168C234 (-63)
/-- pi/2 rounded up. -/
def halfPiUp : Fp := .fin false 0xC90FDAA22168C235 (-63)
/-- pi rounded up. -/
def piUp : Fp := .fin false 0xC90FDAA22168C235 (-62)

/-- The magnitude compared with 1. -/
def cmpOne (m : Nat) (e : Int) : Order := (Fp.fin false m e).compare (.fin false 1 0)

/-- F2XM1 (spec/46_f_f2xm1-fisttp.md rule R618). -/
def x2xm1 (env : XEnv) (a : XArg) : XOut := XEnv.one a fun x =>
  match x with
  | .fin n m e =>
    if m = 0 then exact80 (zero80 n)
    else match cmpOne m e with
      | .equal => exact80 (if n then make80 true 0x3FFE 0x8000000000000000 else one80)
      | .less =>
        env.openFn .f2xm1 a.v 0 a.den 48
          (OpenValue.within (some n) (.fin false 0 0) (.fin false 1 (if n then -1 else 0))) (.zero n)
      | _ => { val := env.spare, flags := 0, up := env.pe }
  | _ => { val := env.spare, flags := 0, up := env.pe }

/-- |x| at least 2^63: out of the range of the trigonometric functions. DEDUCED (log 48): not an infinity, which the page's table
and its #IA line call invalid. -/
def bigAngle (v : BitVec 80) : Bool :=
  match unpack80 v with
  | some (.fin _ m e) => decide (m ≠ 0 ∧ 63 ≤ leadOf m e)
  | _ => false

/-- A trigonometric function of an operand in range: `atZero` for a zero, the open value within [0, hi] in magnitude. -/
def xTrig (fn : Config.X87Fn) (listed : FpFlags) (atZero : Bool → BitVec 80) (hi : Fp) (env : XEnv) (a : XArg) : XOut :=
  XEnv.one a fun x =>
    match x with
    | .fin n m _ =>
      if m = 0 then exact80 (atZero n)
      else env.openFn fn a.v 0 a.den listed (OpenValue.within none (.fin false 0 0) hi) (.zero n)
    | _ => invalid80

/-- FPATAN: arctan of a/b, a in ST(1), b in ST(0) (spec/47_f_fld-fyl2xp1.md rule R665). -/
def xAtan (env : XEnv) (a b : XArg) : XOut :=
  let de := a.den || b.den
  env.two a b fun y x =>
    let n := y.isNeg
    match y, x with
    | .inf _, .inf m => env.piQuarters n (if m then 3 else 1) de
    | .inf _, _ => env.piQuarters n 2 de
    | _, .inf m => if m then env.piQuarters n 4 de else exact80 (zero80 n) (flagIf de 2)
    | _, _ =>
      if y.isZero then (if x.isNeg then env.piQuarters n 4 de else exact80 (zero80 n) (flagIf de 2))
      else if x.isZero then env.piQuarters n 2 de
      else if x.isNeg then
        env.openFn .fpatan b.v a.v de 48 (OpenValue.within (some n) halfPiDown piUp) { neg := n, m := 4 * piBits, e := -129 }
      else env.openFn .fpatan b.v a.v de 48 (OpenValue.within (some n) (.fin false 0 0) halfPiUp) (.zero n)

/-- FYL2X: a * log2 b, a in ST(1), b in ST(0) (spec/47_f_fld-fyl2xp1.md rule R702). -/
def xYl2x (env : XEnv) (a b : XArg) : XOut :=
  let de := flagIf (a.den || b.den) 2
  env.two a b fun y x =>
    let n := y.isNeg
    match x with
    | .inf xn => if xn || y.isZero then invalid80 else exact80 (inf80 n) de
    | .fin xn m e =>
      if m = 0 then
        match y with
        | .inf _ => exact80 (inf80 (!n))
        | _ => if y.isZero then invalid80 else exact80 (inf80 (!n)) 4
      else if xn then invalid80
      else match cmpOne m e, y with
        | .equal, .inf _ => invalid80
        | .equal, _ => exact80 (zero80 n) de
        | .less, .inf _ => exact80 (inf80 (!n)) de
        | _, .inf _ => exact80 (inf80 n) de
        | o, _ =>
          let sgn := if o = .less then !n else n
          if y.isZero then exact80 (zero80 sgn) de
          else env.openFn .fyl2x b.v a.v (a.den || b.den) 56 (OpenValue.within (some sgn) (.fin false 0 0) (.inf false)) (.zero sgn)
    | .nan _ => invalid80

/-- Is the magnitude m * 2^e at most 1 - sqrt(2)/2? -/
def inLogRange (m : Nat) (e : Int) : Bool :=
  decide (m = 0) ||
  (decide (bitLen m + e ≤ -1) &&
   (let one := 2 ^ (-e).toNat
    decide (one * one ≤ 2 * ((one - m) * (one - m)))))

/-- FYL2XP1: a * log2(b + 1) (spec/47_f_fld-fyl2xp1.md rule R703). -/
def xYl2xp1 (env : XEnv) (a b : XArg) : XOut :=
  let de := flagIf (a.den || b.den) 2
  env.two a b fun y x =>
    let sgn := y.isNeg != x.isNeg
    match x with
    | .fin _ m e =>
      if inLogRange m e then
        match y with
        | .inf _ => if m = 0 then invalid80 else exact80 (inf80 sgn) de
        | _ =>
          if m = 0 || y.isZero then exact80 (zero80 sgn) de
          else env.openFn .fyl2xp1 b.v a.v (a.den || b.den) 56 (OpenValue.within (some sgn) (.fin false 0 0) (.inf false)) (.zero sgn)
      else { val := env.spare, flags := 0, up := env.pe }
    | _ => { val := env.spare, flags := 0, up := env.pe }

end Sys2Proof.Machine
end

