-- ==== Sys2Proof/Machine/X87.lean ====
section
/-! DEFINITION. The x87 instructions (spec/46_f_f2xm1-fisttp.md, spec/47_f_fld-fyl2xp1.md), by the common steps of rule R617:
#NM, #MF, the memory operand, the stack check, the operation, the stack update. A numeric exception sets its flag; an unmasked
one leaves the destination and the stack as they were (decision D23, log entry 31). -/

namespace Sys2Proof.Machine

/-! The register stack (spec/10_state.md rules R120, R123, R125). -/

/-- The physical register that is ST(i). -/
def Fpu.phys (f : Fpu) (i : Fin 8) : Fin 8 := f.fsw.top + i
/-- ST(i). -/
def Fpu.st (f : Fpu) (i : Fin 8) : BitVec 80 := f.fpr.get (f.phys i)
/-- The tag of a physical register. -/
def Fpu.tagAt (f : Fpu) (p : Fin 8) : BitVec 2 := f.ftw.extractLsb' (2 * p.val) 2
/-- Is ST(i) empty? -/
def Fpu.isEmpty (f : Fpu) (i : Fin 8) : Bool := decide (f.tagAt (f.phys i) = 3)
/-- The tag word with one tag changed. -/
def setTagAt (ftw : BitVec 16) (p : Fin 8) (t : BitVec 2) : BitVec 16 :=
  (ftw &&& ~~~((3 : BitVec 16) <<< (2 * p.val))) ||| (t.setWidth 16 <<< (2 * p.val))
/-- ST(i) with a given tag. -/
def Fpu.setStTag (f : Fpu) (i : Fin 8) (v : BitVec 80) (t : BitVec 2) : Fpu :=
  { f with fpr := f.fpr.set (f.phys i) v, ftw := setTagAt f.ftw (f.phys i) t }
/-- Write ST(i); the tag is set from the value. -/
def Fpu.setSt (f : Fpu) (i : Fin 8) (v : BitVec 80) : Fpu := f.setStTag i v (tagOf v)
/-- PopRegisterStack. -/
def Fpu.pop (f : Fpu) : Fpu :=
  { f with ftw := setTagAt f.ftw (f.phys 0) 3, fsw := { f.fsw with top := f.fsw.top + 1 } }
/-- n pops. -/
def Fpu.popN (f : Fpu) : Nat → Fpu
  | 0 => f
  | n + 1 => f.pop.popN n
/-- Push a value. -/
def Fpu.push (f : Fpu) (v : BitVec 80) : Fpu := Fpu.setSt { f with fsw := { f.fsw with top := f.fsw.top - 1 } } 0 v
/-- Would a push find its register not empty? -/
def Fpu.full (f : Fpu) : Bool := !f.isEmpty 7

/-- The status word (spec/10_state.md rule R121). -/
def Fpu.statusWord (f : Fpu) : BitVec 16 :=
  let w := f.fsw
  let b (v : Bool) (i : Nat) : BitVec 16 := if v then (1 : BitVec 16) <<< i else 0
  w.flags6.setWidth 16 ||| b w.sf 6 ||| b f.es 7 ||| b w.c0 8 ||| b w.c1 9 ||| b w.c2 10
    ||| (BitVec.ofNat 16 w.top.val <<< 11) ||| b w.c3 14 ||| b f.es 15
/-- The fields of a status word; ES and B are computed. -/
def fswOf (v : BitVec 16) : Fsw :=
  { ie := v.getLsbD 0, de := v.getLsbD 1, ze := v.getLsbD 2, oe := v.getLsbD 3, ue := v.getLsbD 4, pe := v.getLsbD 5,
    sf := v.getLsbD 6, c0 := v.getLsbD 8, c1 := v.getLsbD 9, c2 := v.getLsbD 10, c3 := v.getLsbD 14,
    top := ⟨v.toNat / 2048 % 8, by omega⟩ }

/-- FNINIT (spec/46_f_f2xm1-fisttp.md rule R646): the data registers are kept. -/
def Fpu.init (f : Fpu) : Fpu :=
  { f with fcw := 0x37F, fsw := {}, ftw := 0xFFFF, fip := 0, fcs := 0, fdp := 0, fds := 0, fop := 0 }

/-! Entry. -/

/-- Change the x87 unit. -/
def modifyFpu (g : Fpu → Fpu) : M Unit := modify fun s => { s with fpu := g s.fpu }
/-- The x87 unit. -/
def getFpu : M Fpu := do return (← get).fpu

/-- #UD without an x87 unit, #NM with CR0.EM or CR0.TS (rule R617 step 2). -/
def needFpu : M Unit := do
  let s ← get
  ensure (s.has .fpu) raiseUD
  ensure (!s.cr0Bit 2 && !s.cr0Bit 3) raiseNM

/-- Entry of a control instruction that waits: #NM, then #MF (rule R617 steps 2 and 3). -/
def waitFpu : M Unit := do
  needFpu
  needNoPending

/-- Entry of the other instructions: the instruction's address, its opcode and its memory operand are recorded
(spec/10_state.md rule R124). -/
def enterFpu (ip : Word) (mem : Option MemRef) : M Unit := do
  waitFpu
  modify fun s =>
    let f := { s.fpu with fip := ip, fcs := (s.segOf .cs).sel, fop := s.fopNext }
    { s with fpu := match mem with
        | some m => { f with fdp := s.ea m, fds := (s.segOf m.seg).sel }
        | none => f }

/-- Read an x87 memory operand of n bytes with natural alignment `nat` (rule R220). -/
def readFpu (m : MemRef) (n nat : Nat) : M Nat := do
  let s ← get
  physRead (← resolve m.seg .read nat 1 (s.ea m) n)

/-- Resolve an x87 memory operand that is written. -/
def placeFpu (m : MemRef) (n nat : Nat) : M (List Nat) := do
  let s ← get
  resolve m.seg .write nat 1 (s.ea m) n

/-! Numeric exceptions. -/

/-- Set exception flags. -/
def Fsw.raise (w : Fsw) (fl : FpFlags) : Fsw :=
  { w with
    ie := w.ie || fl.getLsbD 0, de := w.de || fl.getLsbD 1, ze := w.ze || fl.getLsbD 2, oe := w.oe || fl.getLsbD 3,
    ue := w.ue || fl.getLsbD 4, pe := w.pe || fl.getLsbD 5 }

/-- The exceptions of `among` that are unmasked. -/
def Fpu.unmasked (f : Fpu) (fl among : FpFlags) : Bool := decide (fl &&& among &&& ~~~(f.fcw.setWidth 6) ≠ 0)

/-- C0, C2 and C3 are left undefined (U1). -/
def freeCodes : M Unit := do
  let v ← freeValue 3
  modifyFpu fun f => { f with fsw := { f.fsw with c0 := v.getLsbD 0, c2 := v.getLsbD 1, c3 := v.getLsbD 2 } }

/-- C0 to C3 are left undefined (U1). -/
def freeAllCodes : M Unit := do
  let v ← freeValue 4
  modifyFpu fun f =>
    { f with fsw := { f.fsw with c0 := v.getLsbD 0, c1 := v.getLsbD 3, c2 := v.getLsbD 1, c3 := v.getLsbD 2 } }

/-- Report exceptions and C1; does the result go to its destination? An unmasked exception of `stop` withholds it; after an
unmasked IE, DE or ZE the exceptions of the result are not looked for (spec/00_scope.md rule R30 (c)). -/
def report (stop : FpFlags) (fl : FpFlags) (up : Bool) : M Bool := do
  let f ← getFpu
  let pre := f.unmasked fl 7
  modifyFpu fun g => { g with fsw := { g.fsw.raise (if pre then fl &&& 7 else fl) with c1 := !pre && up } }
  return !(pre || f.unmasked fl stop)

/-- The exceptions detected before the result: IE, DE, ZE. -/
abbrev preOnly : FpFlags := 7
/-- Those that withhold a store to memory: every numeric exception (spec/61_exception_groups.md rule R2131). -/
abbrev storeStop : FpFlags := 63

/-- A stack fault #IS (rule R617 step 5); is it masked? -/
def stackFault (overflow : Bool) : M Bool := do
  modifyFpu fun f => { f with fsw := { f.fsw with ie := true, sf := true, c1 := overflow } }
  return (← getFpu).fcw.getLsbD 0

/-- Run `body` unless one of the registers is empty; a masked stack underflow runs `masked` instead. -/
def needSt (is : List (Fin 8)) (masked body : M Unit) : M Unit := do
  let f ← getFpu
  if is.any f.isEmpty then
    if ← stackFault false then masked
  else body

/-- The same where the page leaves C0, C2 and C3 undefined, whatever the stack check finds (U1). -/
def needStFree (is : List (Fin 8)) (masked body : M Unit) : M Unit := do
  freeCodes
  needSt is masked body

/-- Run `body` unless the stack has no room for a push; a masked stack overflow runs `masked` instead. -/
def needFree (masked body : M Unit) : M Unit := do
  let f ← getFpu
  if f.full then
    if ← stackFault true then masked
  else body

/-- The precision PC names (spec/10_state.md rule R122); for the reserved code a free one. -/
def Fpu.precision (f : Fpu) : Nat :=
  match (f.fcw.extractLsb' 8 2).toNat with
  | 0 => 24
  | 2 => 53
  | 3 => 64
  | _ => Config.reservedPrecision.val + 1

/-- What the control word says, with precision control. -/
def xEnvPc : M XEnv := do
  let f ← getFpu
  let v ← freeValue 82
  return { rc := f.fcw.extractLsb' 10 2, prec := f.precision, masks := f.fcw.setWidth 6, spare := v.setWidth 80,
           coin := v.getLsbD 80, pe := v.getLsbD 81 }

/-- What the control word says to an instruction that precision control does not affect. -/
def xEnv : M XEnv := do return { (← xEnvPc) with prec := 64 }

/-- ST(i) as an operand. -/
def argSt (i : Fin 8) : M XArg := do return xreg ((← getFpu).st i)

/-! Arithmetic. -/

/-- Deliver a result to ST(i), then pop. -/
def deliverSt (r : XOut) (i : Fin 8) (pops : Nat) : M Unit := do
  if ← report preOnly r.flags r.up then modifyFpu fun f => (f.setSt i r.val).popN pops

/-- The masked response to a stack underflow: the indefinite in ST(i), then pop. -/
def underflowSt (i : Fin 8) (pops : Nat) : M Unit := modifyFpu fun f => (f.setSt i indefinite80).popN pops

/-- ST(i) <- ST(i) op src, then pop. -/
def arithSt (op : XOp2) (i : Fin 8) (src : XArg) (pops : Nat) : M Unit := do
  let env ← xEnvPc
  deliverSt (op env (← argSt i) src) i pops

/-- ST(i) <- ST(i) op ST(j), then pop. -/
def arithRegs (op : XOp2) (i j : Fin 8) (pops : Nat) : M Unit :=
  needStFree [i, j] (underflowSt i pops) do arithSt op i (← argSt j) pops

/-- FADD and its kin. -/
def fpArith (op : XOp2) (ip : Word) : FpArith → M Unit
  | .m32 m => do
    enterFpu ip (some m)
    let v ← readFpu m 4 4
    needStFree [0] (underflowSt 0 0) (arithSt op 0 (ofFmt80 f32 v) 0)
  | .m64 m => do
    enterFpu ip (some m)
    let v ← readFpu m 8 8
    needStFree [0] (underflowSt 0 0) (arithSt op 0 (ofFmt80 f64 v) 0)
  | .st0 i => do
    enterFpu ip none
    arithRegs op 0 i 0
  | .sti i => do
    enterFpu ip none
    arithRegs op i 0 0

/-- FADDP and its kin. -/
def fpArithPop (op : XOp2) (ip : Word) (i : Fin 8) : M Unit := do
  enterFpu ip none
  arithRegs op i 0 1

/-- A signed integer operand in memory. -/
def readInt (m : MemRef) (n : Nat) : M XArg := do
  return { v := ofInt80 (BitVec.ofNat (8 * n) (← readFpu m n n)).toInt, den := false }

/-- The memory operand of an integer form and its bytes. -/
def intOperand : FpInt → MemRef × Nat
  | .m16 m => (m, 2)
  | .m32 m => (m, 4)

/-- FIADD and its kin. -/
def fpArithInt (op : XOp2) (ip : Word) (o : FpInt) : M Unit := do
  let (m, n) := intOperand o
  enterFpu ip (some m)
  let v ← readInt m n
  needStFree [0] (underflowSt 0 0) (arithSt op 0 v 0)

/-- ST(0) <- f(ST(0)). -/
def fpUnary (env : M XEnv) (f : XEnv → XArg → XOut) (ip : Word) : M Unit := do
  enterFpu ip none
  needStFree [0] (underflowSt 0 0) do
    let e ← env
    deliverSt (f e (← argSt 0)) 0 0

/-- ST(1) <- f(ST(1), ST(0)), then pop. -/
def fpBinaryPop (f : XOp2) (ip : Word) : M Unit := do
  enterFpu ip none
  needStFree [1, 0] (underflowSt 1 1) do
    let e ← xEnv
    deliverSt (f e (← argSt 1) (← argSt 0)) 1 1

/-- A change of the sign bit: no exception but a stack underflow; C1 is 0. -/
def fpSign (g : BitVec 80 → BitVec 80) (ip : Word) : M Unit := do
  enterFpu ip none
  needStFree [0] (underflowSt 0 0) do
    modifyFpu fun f => Fpu.setSt { f with fsw := { f.fsw with c1 := false } } 0 (g (f.st 0))

/-! Loads. -/

/-- Push a value that may meet exceptions. -/
def pushValue (v : BitVec 80) (fl : FpFlags) : M Unit := do
  freeCodes
  needFree (modifyFpu fun f => f.push indefinite80) do
    if ← report preOnly fl false then modifyFpu fun f => f.push v

/-- Push a converted memory operand: an SNaN is made quiet (spec/47_f_fld-fyl2xp1.md rule R651). -/
def pushConverted (a : XArg) : M Unit :=
  pushValue (if isNan80 a.v then quiet80 a.v else a.v) (flagIf (isSnan80 a.v) 1 ||| flagIf a.den 2)

/-- FLD ST(i): an empty source is a stack underflow; with a full stack as well, C1 is not stated and free. -/
def loadSt (i : Fin 8) : M Unit := do
  let f ← getFpu
  if f.isEmpty i then
    freeCodes
    let c ← if f.full then freeBit else pure false
    if ← stackFault c then modifyFpu fun g => g.push indefinite80
  else pushValue (f.st i) 0

/-- Push a constant: `up` when the rounding control asks for the larger of the two neighbours (rules R652 to R658). -/
def pushConst (ip : Word) (e : Nat) (chop near : Nat) : M Unit := do
  enterFpu ip none
  let rc := (← getFpu).fcw.extractLsb' 10 2
  pushValue (make80 false e (if rc = 0 then near else if rc = 2 then chop + 1 else chop)) 0

/-- Push an exact constant. -/
def pushExact (ip : Word) (v : BitVec 80) : M Unit := do
  enterFpu ip none
  pushValue v 0

/-! Stores. -/

/-- Store a conversion of ST(0): `f` the conversion, `indef` the masked response to an empty register. -/
def storeSt (ip : Word) (m : MemRef) (n nat : Nat) (indef : Nat) (pops : Nat) (f : XEnv → BitVec 80 → XStore) : M Unit := do
  enterFpu ip (some m)
  let as ← placeFpu m n nat
  needStFree [0]
    (do physWrite as indef
        modifyFpu fun g => g.popN pops)
    (do let env ← xEnv
        let r := f env ((← getFpu).st 0)
        if ← report storeStop r.flags r.up then
          physWrite as r.val
          modifyFpu fun g => g.popN pops)

/-- Store as binary32. -/
def storeF32 (ip : Word) (m : MemRef) (pops : Nat) : M Unit := storeSt ip m 4 4 f32.indefinite pops (toFmt80 f32)
/-- Store as binary64. -/
def storeF64 (ip : Word) (m : MemRef) (pops : Nat) : M Unit := storeSt ip m 8 8 f64.indefinite pops (toFmt80 f64)
/-- Store as an integer of n bytes, rounded by RC. -/
def storeInt (ip : Word) (m : MemRef) (n pops : Nat) : M Unit :=
  storeSt ip m n n (2 ^ (8 * n - 1)) pops fun env v => toInt80 (8 * n) env.rc v
/-- Store as an integer of n bytes, truncated; C1 is 0 (spec/46_f_f2xm1-fisttp.md rule R650). -/
def storeChop (ip : Word) (m : MemRef) (n : Nat) : M Unit :=
  storeSt ip m n n (2 ^ (8 * n - 1)) 1 fun _ v => { toInt80 (8 * n) 3 v with up := false }

/-- Copy ST(0) and its tag to ST(i), then pop (spec/47_f_fld-fyl2xp1.md rule R677). -/
def copySt (ip : Word) (i : Fin 8) (pops : Nat) : M Unit := do
  enterFpu ip none
  needStFree [0] (underflowSt i pops) do
    modifyFpu fun f =>
      ({ f with fsw := { f.fsw with c1 := false } }.setStTag i (f.st 0) (f.tagAt (f.phys 0))).popN pops

/-! Comparisons. -/

/-- C3, C2, C0 for the order of ST(0) and the source; C1 is 0 (spec/46_f_f2xm1-fisttp.md rule R629). -/
def Fsw.withOrder (w : Fsw) (o : Order) : Fsw :=
  { w with
    c3 := decide (o = .equal ∨ o = .unordered), c2 := decide (o = .unordered), c0 := decide (o = .less ∨ o = .unordered)
    c1 := false }

/-- Compare ST(0) with an operand, then pop: the listings print the pop outside the test of IM
(spec/47_f_fld-fyl2xp1.md rule R692). -/
def compareWith (quiet : Bool) (b : XArg) (pops : Nat) : M Unit := do
  let (o, fl) := xCompare quiet (← argSt 0) b
  let ok ← report preOnly fl false
  modifyFpu fun f => Fpu.popN (if ok then { f with fsw := f.fsw.withOrder o } else f) pops

/-- The masked response to an empty operand: unordered, then pop. -/
def underflowCompare (pops : Nat) : M Unit :=
  modifyFpu fun f => Fpu.popN { f with fsw := f.fsw.withOrder .unordered } pops

/-- Compare ST(0) with ST(i), then pop. -/
def compareSt (quiet : Bool) (ip : Word) (i : Fin 8) (pops : Nat) : M Unit := do
  enterFpu ip none
  needSt [0, i] (underflowCompare pops) do compareWith quiet (← argSt i) pops

/-- FCOM and FCOMP. -/
def compareFp (ip : Word) (pops : Nat) : FpCom → M Unit
  | .m32 m => do
    enterFpu ip (some m)
    let v ← readFpu m 4 4
    needSt [0] (underflowCompare pops) (compareWith false (ofFmt80 f32 v) pops)
  | .m64 m => do
    enterFpu ip (some m)
    let v ← readFpu m 8 8
    needSt [0] (underflowCompare pops) (compareWith false (ofFmt80 f64 v) pops)
  | .st i => compareSt false ip i pops

/-- FICOM and FICOMP. -/
def compareInt (ip : Word) (pops : Nat) (o : FpInt) : M Unit := do
  let (m, n) := intOperand o
  enterFpu ip (some m)
  let v ← readInt m n
  needSt [0] (underflowCompare pops) (compareWith false v pops)

/-- ZF, PF, CF for an order (spec/46_f_f2xm1-fisttp.md rule R632). -/
def setOrderFlags (o : Order) : M Unit := modifyFlags fun f =>
  { f with
    zf := decide (o = .equal ∨ o = .unordered), pf := decide (o = .unordered), cf := decide (o = .less ∨ o = .unordered) }

/-- FCOMI and its kin (CPUID.CMOV, spec/43_c_cmps-crc32.md rule R577): C1, OF, SF and AF are 0 in every case; a denormal operand
is not reported; the pop is outside the test of IM (spec/46_f_f2xm1-fisttp.md rules R632, R633). -/
def compareEflags (quiet : Bool) (ip : Word) (i : Fin 8) (pops : Nat) : M Unit := do
  needFeature .cmov
  enterFpu ip none
  modifyFlags fun f => { f with of := false, sf := false, af := false }
  needSt [0, i]
    (do setOrderFlags .unordered
        modifyFpu fun f => f.popN pops)
    (do let (o, fl) := xCompare quiet (← argSt 0) (← argSt i)
        if ← report preOnly (fl &&& 1) false then setOrderFlags o
        modifyFpu fun f => f.popN pops)

/-! Results in two registers: the second is pushed. -/

/-- The masked response to a stack fault of an instruction that pushes a second result (log entry 31). -/
def faultTwo : M Unit := modifyFpu fun f => (f.setSt 0 indefinite80).push indefinite80

/-- Run `body` with ST(0) not empty and room for a push. -/
def needTwo (body : M Unit) : M Unit := needSt [0] faultTwo (needFree faultTwo body)

/-- Deliver ST(0) <- a, then push b. -/
def deliverTwo (a b : BitVec 80) (fl : FpFlags) (up : Bool) : M Unit := do
  if ← report preOnly fl up then modifyFpu fun f => (f.setSt 0 a).push b

/-- C2. -/
def setC2 (b : Bool) : M Unit := modifyFpu fun f => { f with fsw := { f.fsw with c2 := b } }

/-- A trigonometric instruction on ST(0): an operand out of range sets C2 and `out` is then C1: cleared, for nothing was rounded
up (spec/47_f_fld-fyl2xp1.md rules R668, R674, R675), but undefined for FCOS (spec/46_f_f2xm1-fisttp.md rule R634). -/
def trig (ip : Word) (out : M Bool) (empty : M Unit) (body : XArg → M Unit) : M Unit := do
  enterFpu ip none
  needStFree [0] empty do
    let a ← argSt 0
    if bigAngle a.v then
      let c ← out
      modifyFpu fun f => { f with fsw := { f.fsw with c1 := c, c2 := true } }
    else
      setC2 false
      body a

/-- FSIN and FCOS. -/
def trigOne (ip : Word) (out : M Bool) (f : XEnv → XArg → XOut) : M Unit :=
  trig ip out (modifyFpu fun g => g.setSt 0 indefinite80) fun a => do
    let r := f (← xEnv) a
    if ← report preOnly r.flags r.up then modifyFpu fun g => g.setSt 0 r.val

/-- FSIN on an operand in range (spec/47_f_fld-fyl2xp1.md rule R674). -/
def xSin (fn : Config.X87Fn) (listed : FpFlags) : XEnv → XArg → XOut := xTrig fn listed zero80 (.fin false 1 0)
/-- FCOS on an operand in range (spec/46_f_f2xm1-fisttp.md rule R634). -/
def xCos (fn : Config.X87Fn) (listed : FpFlags) : XEnv → XArg → XOut := xTrig fn listed (fun _ => one80) (.fin false 1 0)
/-- FPTAN on an operand in range (spec/47_f_fld-fyl2xp1.md rule R668). -/
def xTan : XEnv → XArg → XOut := xTrig .fptan 48 zero80 (.fin false 0xFFFFFFFFFFFFFFFF 16320)

/-- FPREM, FPREM1 (spec/47_f_fld-fyl2xp1.md rules R666, R667). -/
def partialRem (nearest : Bool) (ip : Word) : M Unit := do
  enterFpu ip none
  needStFree [0, 1] (underflowSt 0 0) do
    let r := xRem nearest (← xEnv) (← argSt 0) (← argSt 1)
    if ← report preOnly r.out.flags false then
      modifyFpu fun f => f.setSt 0 r.out.val
      match r.quotient with
      | .complete q =>
        modifyFpu fun f =>
          { f with fsw := { f.fsw with c2 := false, c0 := decide (q / 4 % 2 = 1), c3 := decide (q / 2 % 2 = 1),
                                       c1 := decide (q % 2 = 1) } }
      | .incomplete =>
        let c ← freeBit
        modifyFpu fun f => { f with fsw := { f.fsw with c1 := c, c2 := true } }
      | .absent => freeAllCodes

/-! Conditional moves (spec/46_f_f2xm1-fisttp.md rule R628). -/

/-- FCMOVcc. -/
def condMove (c : Cond) (ip : Word) (i : Fin 8) : M Unit := do
  needFeature .cmov
  enterFpu ip none
  needStFree [i] (underflowSt 0 0) do
    if (← get).flags.holds c then modifyFpu fun f => f.setStTag 0 (f.st i) (f.tagAt (f.phys i))

/-! Environment images (spec/10_state.md rule R127). -/

/-- A list of little-endian fields (bytes, value) as one number. -/
def packFields : List (Nat × Nat) → Nat
  | [] => 0
  | (n, v) :: l => v % 256 ^ n + 256 ^ n * packFields l
/-- The fields of the given sizes of a number. -/
def splitFields : List Nat → Nat → List Nat
  | [], _ => []
  | n :: l, v => v % 256 ^ n :: splitFields l (v / 256 ^ n)

/-- Are the protected-mode layouts used? -/
def State.protLayout (s : State) : Bool := s.pe && !s.isLegacySeg

/-- A selector as it is saved: 0 where the processor deprecates FPU CS and FPU DS (rule R124). -/
def State.savedSel (s : State) (v : BitVec 16) : Nat := if s.has .fdsDeprecated then 0 else v.toNat

/-- The linear address of the real-mode layouts. -/
def fpuLinear (sel : BitVec 16) (off : Word) : Nat := (sel.toNat * 16 + off.toNat) % 2 ^ 32

/-- The bytes of an environment: 28 or 14. -/
def envSize (w : Width) : Nat := if w = .w16 then 14 else 28
/-- The natural alignment of an environment (rule R220). -/
def envAlign (w : Width) : Nat := if w = .w16 then 2 else 4

/-- The environment image. -/
def State.envImage (s : State) (w : Width) : Nat :=
  let f := s.fpu
  let fcw := f.fcw.toNat
  let fsw := f.statusWord.toNat
  let ftw := f.ftw.toNat
  let ip := fpuLinear f.fcs f.fip
  let dp := fpuLinear f.fds f.fdp
  let rsv := if s.cfg.x87EnvOnes then 0xFFFF else 0
  let head := [(2, fcw), (2, rsv), (2, fsw), (2, rsv), (2, ftw), (2, rsv)]
  packFields
    (match decide (w = .w16), s.protLayout with
     | false, true =>
       head ++ [(4, f.fip.toNat), (2, s.savedSel f.fcs), (2, f.fop.toNat), (4, f.fdp.toNat), (2, s.savedSel f.fds), (2, 0)]
     | false, false =>
       head ++ [(2, ip), (2, 0), (4, f.fop.toNat + ip / 2 ^ 16 * 2 ^ 12), (2, dp), (2, 0), (4, dp / 2 ^ 16 * 2 ^ 12)]
     | true, true =>
       [(2, fcw), (2, fsw), (2, ftw), (2, f.fip.toNat), (2, s.savedSel f.fcs), (2, f.fdp.toNat), (2, s.savedSel f.fds)]
     | true, false =>
       [(2, fcw), (2, fsw), (2, ftw), (2, ip), (2, f.fop.toNat + ip / 2 ^ 16 % 16 * 2 ^ 12), (2, dp),
        (2, dp / 2 ^ 16 % 16 * 2 ^ 12)])

/-- The environment of an image. A real-mode layout has linear addresses and no selectors: those become 0; the 16-bit protected
layout has no opcode: it is kept (log entry 32). -/
def State.loadEnv (s : State) (w : Width) (v : Nat) : Fpu :=
  let f := s.fpu
  let b16 (x : Nat) : BitVec 16 := BitVec.ofNat 16 x
  let words (fcw fsw ftw : Nat) : Fpu := { f with fcw := b16 fcw, fsw := fswOf (b16 fsw), ftw := b16 ftw }
  let ptrs (g : Fpu) (ip cs dp ds : Nat) (op : BitVec 11) : Fpu :=
    { g with fip := BitVec.ofNat 64 ip, fcs := b16 cs, fdp := BitVec.ofNat 64 dp, fds := b16 ds, fop := op }
  match decide (w = .w16), s.protLayout with
  | false, true =>
    match splitFields [2, 2, 2, 2, 2, 2, 4, 2, 2, 4, 2] v with
    | [c, _, t, _, g, _, ip, cs, op, dp, ds] => ptrs (words c t g) ip cs dp ds (BitVec.ofNat 11 op)
    | _ => f
  | false, false =>
    match splitFields [2, 2, 2, 2, 2, 2, 2, 2, 4, 2, 2, 4] v with
    | [c, _, t, _, g, _, ip, _, x, dp, _, y] =>
      ptrs (words c t g) (ip + x / 2 ^ 12 % 2 ^ 16 * 2 ^ 16) 0 (dp + y / 2 ^ 12 % 2 ^ 16 * 2 ^ 16) 0 (BitVec.ofNat 11 x)
    | _ => f
  | true, true =>
    match splitFields [2, 2, 2, 2, 2, 2, 2] v with
    | [c, t, g, ip, cs, dp, ds] => ptrs (words c t g) ip cs dp ds f.fop
    | _ => f
  | true, false =>
    match splitFields [2, 2, 2, 2, 2, 2, 2] v with
    | [c, t, g, ip, x, dp, y] =>
      ptrs (words c t g) (ip + x / 2 ^ 12 * 2 ^ 16) 0 (dp + y / 2 ^ 12 * 2 ^ 16) 0 (BitVec.ofNat 11 x)
    | _ => f

/-- The eight registers in stack order, 10 bytes each. -/
def Fpu.stackImage (f : Fpu) : Nat := packFields ((List.finRange 8).map fun i => (10, (f.st i).toNat))
/-- The registers of a stack image; tags are not changed. -/
def Fpu.loadStack (f : Fpu) (v : Nat) : Fpu :=
  (List.finRange 8).foldl
    (fun g i => { g with fpr := g.fpr.set (g.phys i) (BitVec.ofNat 80 (v / 2 ^ (80 * i.val))) }) f

/-- FLDCW (spec/47_f_fld-fyl2xp1.md rule R659). -/
def loadCw (m : MemRef) : M Unit := do
  waitFpu
  let v ← readFpu m 2 2
  modifyFpu fun f => { f with fcw := BitVec.ofNat 16 v }
  freeAllCodes

/-- FNSTCW (rule R679). -/
def storeCw (m : MemRef) : M Unit := do
  needFpu
  physWrite (← placeFpu m 2 2) (← getFpu).fcw.toNat
  freeAllCodes

/-- FNSTENV (rule R681): the masks are set after the store. -/
def storeEnv (o : FpEnv) : M Unit := do
  needFpu
  let as ← placeFpu o.mem (envSize o.w) (envAlign o.w)
  let s ← get
  physWrite as (s.envImage o.w)
  modifyFpu fun f => { f with fcw := f.fcw ||| 0x3F }
  freeAllCodes

/-- FNSAVE (rule R671). -/
def saveState (o : FpEnv) : M Unit := do
  needFpu
  let n := envSize o.w
  let as ← placeFpu o.mem (n + 80) (envAlign o.w)
  let s ← get
  physWrite as (s.envImage o.w + 256 ^ n * s.fpu.stackImage)
  modifyFpu Fpu.init

/-- FNSTSW (rule R683). -/
def storeSw (o : FpSw) : M Unit := do
  needFpu
  match o with
  | .mem m => physWrite (← placeFpu m 2 2) (← getFpu).statusWord.toNat
  | .ax => writeReg .w16 rAX (← getFpu).statusWord
  freeAllCodes

/-- FNCLEX (spec/46_f_f2xm1-fisttp.md rule R626). -/
def clearExceptions : M Unit := do
  needFpu
  modifyFpu fun f =>
    { f with fsw := { f.fsw with ie := false, de := false, ze := false, oe := false, ue := false, pe := false, sf := false } }
  freeAllCodes

/-- FNINIT (spec/46_f_f2xm1-fisttp.md rule R646). -/
def initFpu : M Unit := do
  needFpu
  modifyFpu Fpu.init

/-- WAIT (spec/59_w_wait-xtest.md rule R1187). -/
def waitOnly : M Unit := do
  let s ← get
  ensure (!(s.cr0Bit 1 && s.cr0Bit 3)) raiseNM
  needNoPending
  freeAllCodes

/-- The 9B byte of FCLEX, FINIT, FSAVE, FSTCW, FSTENV and FSTSW is WAIT, a separate instruction of the byte stream (rule R627); as
one instruction the pair has both effects in turn. -/
def afterWait (body : M Unit) : M Unit := do
  waitOnly
  body

/-- FXAM's class (spec/47_f_fld-fyl2xp1.md rule R695): C3, C2, C0. -/
def Fpu.examine (f : Fpu) : Bool × Bool × Bool :=
  if f.isEmpty 0 then (true, false, true)
  else match unpack80 (f.st 0) with
    | none => (false, false, false)
    | some (.nan _) => (false, false, true)
    | some (.inf _) => (false, true, true)
    | some (.fin _ m _) =>
      if exp80 (f.st 0) ≠ 0 then (false, true, false) else if m = 0 then (true, false, false) else (true, true, false)

/-! The meanings. -/

/-- FADD (spec/46_f_f2xm1-fisttp.md rule R620). -/
def execFadd (o : FpArith) (s : State) : Host.Outcome State Fault Refusal := run (fpArith xAdd s.rip o) s
/-- FADDP (spec/46_f_f2xm1-fisttp.md rule R621). -/
def execFaddp (o : Fin 8) (s : State) : Host.Outcome State Fault Refusal := run (fpArithPop xAdd s.rip o) s
/-- FIADD (spec/46_f_f2xm1-fisttp.md rule R622). -/
def execFiadd (o : FpInt) (s : State) : Host.Outcome State Fault Refusal := run (fpArithInt xAdd s.rip o) s
/-- FMUL (spec/47_f_fld-fyl2xp1.md rule R661). -/
def execFmul (o : FpArith) (s : State) : Host.Outcome State Fault Refusal := run (fpArith xMul s.rip o) s
/-- FMULP (spec/47_f_fld-fyl2xp1.md rule R662). -/
def execFmulp (o : Fin 8) (s : State) : Host.Outcome State Fault Refusal := run (fpArithPop xMul s.rip o) s
/-- FIMUL (spec/47_f_fld-fyl2xp1.md rule R663). -/
def execFimul (o : FpInt) (s : State) : Host.Outcome State Fault Refusal := run (fpArithInt xMul s.rip o) s
/-- FSUB (spec/47_f_fld-fyl2xp1.md rule R685). -/
def execFsub (o : FpArith) (s : State) : Host.Outcome State Fault Refusal := run (fpArith xSub s.rip o) s
/-- FSUBP (spec/47_f_fld-fyl2xp1.md rule R686). -/
def execFsubp (o : Fin 8) (s : State) : Host.Outcome State Fault Refusal := run (fpArithPop xSub s.rip o) s
/-- FISUB (spec/47_f_fld-fyl2xp1.md rule R687). -/
def execFisub (o : FpInt) (s : State) : Host.Outcome State Fault Refusal := run (fpArithInt xSub s.rip o) s
/-- FSUBR (spec/47_f_fld-fyl2xp1.md rule R688). -/
def execFsubr (o : FpArith) (s : State) : Host.Outcome State Fault Refusal := run (fpArith (xRev xSub) s.rip o) s
/-- FSUBRP (spec/47_f_fld-fyl2xp1.md rule R689). -/
def execFsubrp (o : Fin 8) (s : State) : Host.Outcome State Fault Refusal := run (fpArithPop (xRev xSub) s.rip o) s
/-- FISUBR (spec/47_f_fld-fyl2xp1.md rule R690). -/
def execFisubr (o : FpInt) (s : State) : Host.Outcome State Fault Refusal := run (fpArithInt (xRev xSub) s.rip o) s
/-- FDIV (spec/46_f_f2xm1-fisttp.md rule R636). -/
def execFdiv (o : FpArith) (s : State) : Host.Outcome State Fault Refusal := run (fpArith xDiv s.rip o) s
/-- FDIVP (spec/46_f_f2xm1-fisttp.md rule R637). -/
def execFdivp (o : Fin 8) (s : State) : Host.Outcome State Fault Refusal := run (fpArithPop xDiv s.rip o) s
/-- FIDIV (spec/46_f_f2xm1-fisttp.md rule R638). -/
def execFidiv (o : FpInt) (s : State) : Host.Outcome State Fault Refusal := run (fpArithInt xDiv s.rip o) s
/-- FDIVR (spec/46_f_f2xm1-fisttp.md rule R639). -/
def execFdivr (o : FpArith) (s : State) : Host.Outcome State Fault Refusal := run (fpArith (xRev xDiv) s.rip o) s
/-- FDIVRP (spec/46_f_f2xm1-fisttp.md rule R640). -/
def execFdivrp (o : Fin 8) (s : State) : Host.Outcome State Fault Refusal := run (fpArithPop (xRev xDiv) s.rip o) s
/-- FIDIVR (spec/46_f_f2xm1-fisttp.md rule R641). -/
def execFidivr (o : FpInt) (s : State) : Host.Outcome State Fault Refusal := run (fpArithInt (xRev xDiv) s.rip o) s
/-- F2XM1 (spec/46_f_f2xm1-fisttp.md rule R618). -/
def execF2xm1 (s : State) : Host.Outcome State Fault Refusal := run (fpUnary xEnv x2xm1 s.rip) s
/-- FSQRT (spec/47_f_fld-fyl2xp1.md rule R676). -/
def execFsqrt (s : State) : Host.Outcome State Fault Refusal := run (fpUnary xEnvPc xSqrt s.rip) s
/-- FRNDINT (spec/47_f_fld-fyl2xp1.md rule R669). -/
def execFrndint (s : State) : Host.Outcome State Fault Refusal := run (fpUnary xEnv xRoundInt s.rip) s
/-- FABS (spec/46_f_f2xm1-fisttp.md rule R619). -/
def execFabs (s : State) : Host.Outcome State Fault Refusal :=
  run (fpSign (fun v => v &&& ~~~((1 : BitVec 80) <<< 79)) s.rip) s
/-- FCHS (spec/46_f_f2xm1-fisttp.md rule R625). -/
def execFchs (s : State) : Host.Outcome State Fault Refusal := run (fpSign (fun v => v ^^^ ((1 : BitVec 80) <<< 79)) s.rip) s
/-- FPATAN (spec/47_f_fld-fyl2xp1.md rule R665). -/
def execFpatan (s : State) : Host.Outcome State Fault Refusal := run (fpBinaryPop xAtan s.rip) s
/-- FYL2X (spec/47_f_fld-fyl2xp1.md rule R702). -/
def execFyl2x (s : State) : Host.Outcome State Fault Refusal := run (fpBinaryPop xYl2x s.rip) s
/-- FYL2XP1 (spec/47_f_fld-fyl2xp1.md rule R703). -/
def execFyl2xp1 (s : State) : Host.Outcome State Fault Refusal := run (fpBinaryPop xYl2xp1 s.rip) s
/-- FSCALE (spec/47_f_fld-fyl2xp1.md rule R673). -/
def execFscale (s : State) : Host.Outcome State Fault Refusal := run (do
  enterFpu s.rip none
  needStFree [0, 1] (underflowSt 0 0) do
    let e ← xEnv
    deliverSt (xScale e (← argSt 0) (← argSt 1)) 0 0) s
/-- FXTRACT (spec/47_f_fld-fyl2xp1.md rule R701). -/
def execFxtract (s : State) : Host.Outcome State Fault Refusal := run (do
  enterFpu s.rip none
  freeCodes
  needTwo do
    let (x, y, fl) := xExtract (← xEnv) (← freeValue 80) (← argSt 0)
    deliverTwo x y fl false) s
/-- FPREM (spec/47_f_fld-fyl2xp1.md rule R666). -/
def execFprem (s : State) : Host.Outcome State Fault Refusal := run (partialRem false s.rip) s
/-- FPREM1 (spec/47_f_fld-fyl2xp1.md rule R667). -/
def execFprem1 (s : State) : Host.Outcome State Fault Refusal := run (partialRem true s.rip) s
/-- FSIN (spec/47_f_fld-fyl2xp1.md rule R674). -/
def execFsin (s : State) : Host.Outcome State Fault Refusal := run (trigOne s.rip (pure false) (xSin .fsin 32)) s
/-- FCOS (spec/46_f_f2xm1-fisttp.md rule R634). -/
def execFcos (s : State) : Host.Outcome State Fault Refusal := run (trigOne s.rip freeBit (xCos .fcos 32)) s
/-- FSINCOS: C1 tells of the cosine, the last result written (spec/47_f_fld-fyl2xp1.md rule R675). -/
def execFsincos (s : State) : Host.Outcome State Fault Refusal := run (do
  trig s.rip (pure false) faultTwo fun a => needFree faultTwo do
    let env ← xEnv
    let x := xSin .fsincosSin 48 env a
    let y := xCos .fsincosCos 48 env a
    deliverTwo x.val y.val (x.flags ||| y.flags) y.up) s
/-- FPTAN (spec/47_f_fld-fyl2xp1.md rule R668). -/
def execFptan (s : State) : Host.Outcome State Fault Refusal := run (do
  trig s.rip (pure false) faultTwo fun a => needFree faultTwo do
    let r := xTan (← xEnv) a
    deliverTwo r.val one80 r.flags r.up) s
/-- FLD (spec/47_f_fld-fyl2xp1.md rule R651). -/
def execFld (o : FpLd) (s : State) : Host.Outcome State Fault Refusal := run (do
  match o with
  | .m32 m => do
    enterFpu s.rip (some m)
    pushConverted (ofFmt80 f32 (← readFpu m 4 4))
  | .m64 m => do
    enterFpu s.rip (some m)
    pushConverted (ofFmt80 f64 (← readFpu m 8 8))
  | .m80 m => do
    enterFpu s.rip (some m)
    pushValue (BitVec.ofNat 80 (← readFpu m 10 8)) 0
  | .st i => do
    enterFpu s.rip none
    loadSt i) s
/-- FILD (spec/46_f_f2xm1-fisttp.md rule R644). -/
def execFild (o : FpInt64) (s : State) : Host.Outcome State Fault Refusal := run (do
  let (m, n) : MemRef × Nat := match o with
    | .m16 m => (m, 2)
    | .m32 m => (m, 4)
    | .m64 m => (m, 8)
  enterFpu s.rip (some m)
  pushValue (← readInt m n).v 0) s
/-- FBLD: digits above 9 give a free value, U7 (spec/46_f_f2xm1-fisttp.md rule R623). -/
def execFbld (o : MemRef) (s : State) : Host.Outcome State Fault Refusal := run (do
  enterFpu s.rip (some o)
  let v ← readFpu o 10 8
  let x ← match bcdValue 9 v with
    | some k => pure (ofInt80 k ||| (if v / 2 ^ 79 % 2 = 1 then (1 : BitVec 80) <<< 79 else 0))
    | none => freeValue 80
  pushValue x 0) s
/-- FLD1 (spec/47_f_fld-fyl2xp1.md rule R652). -/
def execFld1 (s : State) : Host.Outcome State Fault Refusal := run (pushExact s.rip one80) s
/-- FLDZ (spec/47_f_fld-fyl2xp1.md rule R658). -/
def execFldz (s : State) : Host.Outcome State Fault Refusal := run (pushExact s.rip 0) s
/-- FLDL2T (spec/47_f_fld-fyl2xp1.md rule R653). -/
def execFldl2t (s : State) : Host.Outcome State Fault Refusal :=
  run (pushConst s.rip 0x4000 0xD49A784BCD1B8AFE 0xD49A784BCD1B8AFE) s
/-- FLDL2E (spec/47_f_fld-fyl2xp1.md rule R654). -/
def execFldl2e (s : State) : Host.Outcome State Fault Refusal :=
  run (pushConst s.rip 0x3FFF 0xB8AA3B295C17F0BB 0xB8AA3B295C17F0BC) s
/-- FLDPI (spec/47_f_fld-fyl2xp1.md rule R655). -/
def execFldpi (s : State) : Host.Outcome State Fault Refusal :=
  run (pushConst s.rip 0x4000 0xC90FDAA22168C234 0xC90FDAA22168C235) s
/-- FLDLG2 (spec/47_f_fld-fyl2xp1.md rule R656). -/
def execFldlg2 (s : State) : Host.Outcome State Fault Refusal :=
  run (pushConst s.rip 0x3FFD 0x9A209A84FBCFF798 0x9A209A84FBCFF799) s
/-- FLDLN2 (spec/47_f_fld-fyl2xp1.md rule R657). -/
def execFldln2 (s : State) : Host.Outcome State Fault Refusal :=
  run (pushConst s.rip 0x3FFE 0xB17217F7D1CF79AB 0xB17217F7D1CF79AC) s
/-- FST (spec/47_f_fld-fyl2xp1.md rule R677). -/
def execFst (o : FpCom) (s : State) : Host.Outcome State Fault Refusal := run (do
  match o with
  | .m32 m => storeF32 s.rip m 0
  | .m64 m => storeF64 s.rip m 0
  | .st i => copySt s.rip i 0) s
/-- FSTP (spec/47_f_fld-fyl2xp1.md rule R678). -/
def execFstp (o : FpLd) (s : State) : Host.Outcome State Fault Refusal := run (do
  match o with
  | .m32 m => storeF32 s.rip m 1
  | .m64 m => storeF64 s.rip m 1
  | .m80 m => storeSt s.rip m 10 8 indefinite80.toNat 1 fun _ v => { val := v.toNat, flags := 0, up := false }
  | .st i => copySt s.rip i 1) s
/-- FIST (spec/46_f_f2xm1-fisttp.md rule R648). -/
def execFist (o : FpInt) (s : State) : Host.Outcome State Fault Refusal := run (do
  let (m, n) := intOperand o
  storeInt s.rip m n 0) s
/-- FISTP (spec/46_f_f2xm1-fisttp.md rule R649). -/
def execFistp (o : FpInt64) (s : State) : Host.Outcome State Fault Refusal := run (do
  match o with
  | .m16 m => storeInt s.rip m 2 1
  | .m32 m => storeInt s.rip m 4 1
  | .m64 m => storeInt s.rip m 8 1) s
/-- FISTTP (spec/46_f_f2xm1-fisttp.md rule R650). -/
def execFisttp (o : FpInt64) (s : State) : Host.Outcome State Fault Refusal := run (do
  needFeature .sse3
  match o with
  | .m16 m => storeChop s.rip m 2
  | .m32 m => storeChop s.rip m 4
  | .m64 m => storeChop s.rip m 8) s
/-- FBSTP (spec/46_f_f2xm1-fisttp.md rule R624). -/
def execFbstp (o : MemRef) (s : State) : Host.Outcome State Fault Refusal :=
  run (storeSt s.rip o 10 8 bcdIndefinite 1 toBcd80) s
/-- FCOM (spec/46_f_f2xm1-fisttp.md rule R629). -/
def execFcom (o : FpCom) (s : State) : Host.Outcome State Fault Refusal := run (compareFp s.rip 0 o) s
/-- FCOMP (spec/46_f_f2xm1-fisttp.md rule R630). -/
def execFcomp (o : FpCom) (s : State) : Host.Outcome State Fault Refusal := run (compareFp s.rip 1 o) s
/-- FCOMPP (spec/46_f_f2xm1-fisttp.md rule R631). -/
def execFcompp (s : State) : Host.Outcome State Fault Refusal := run (compareSt false s.rip 1 2) s
/-- FUCOM (spec/47_f_fld-fyl2xp1.md rule R692). -/
def execFucom (o : Fin 8) (s : State) : Host.Outcome State Fault Refusal := run (compareSt true s.rip o 0) s
/-- FUCOMP (spec/47_f_fld-fyl2xp1.md rule R693). -/
def execFucomp (o : Fin 8) (s : State) : Host.Outcome State Fault Refusal := run (compareSt true s.rip o 1) s
/-- FUCOMPP (spec/47_f_fld-fyl2xp1.md rule R694). -/
def execFucompp (s : State) : Host.Outcome State Fault Refusal := run (compareSt true s.rip 1 2) s
/-- FICOM (spec/46_f_f2xm1-fisttp.md rule R643). -/
def execFicom (o : FpInt) (s : State) : Host.Outcome State Fault Refusal := run (compareInt s.rip 0 o) s
/-- FICOMP (spec/46_f_f2xm1-fisttp.md rule R643). -/
def execFicomp (o : FpInt) (s : State) : Host.Outcome State Fault Refusal := run (compareInt s.rip 1 o) s
/-- FCOMI (spec/46_f_f2xm1-fisttp.md rule R632). -/
def execFcomi (o : Fin 8) (s : State) : Host.Outcome State Fault Refusal := run (compareEflags false s.rip o 0) s
/-- FCOMIP (spec/46_f_f2xm1-fisttp.md rule R632). -/
def execFcomip (o : Fin 8) (s : State) : Host.Outcome State Fault Refusal := run (compareEflags false s.rip o 1) s
/-- FUCOMI (spec/46_f_f2xm1-fisttp.md rule R633). -/
def execFucomi (o : Fin 8) (s : State) : Host.Outcome State Fault Refusal := run (compareEflags true s.rip o 0) s
/-- FUCOMIP (spec/46_f_f2xm1-fisttp.md rule R633). -/
def execFucomip (o : Fin 8) (s : State) : Host.Outcome State Fault Refusal := run (compareEflags true s.rip o 1) s
/-- FTST (spec/47_f_fld-fyl2xp1.md rule R691). -/
def execFtst (s : State) : Host.Outcome State Fault Refusal := run (do
  enterFpu s.rip none
  needSt [0] (underflowCompare 0) (compareWith false (xreg 0) 0)) s
/-- FXAM (spec/47_f_fld-fyl2xp1.md rule R695). -/
def execFxam (s : State) : Host.Outcome State Fault Refusal := run (do
  enterFpu s.rip none
  modifyFpu fun f =>
    let (c3, c2, c0) := f.examine
    { f with fsw := { f.fsw with c3 := c3, c2 := c2, c0 := c0, c1 := (f.st 0).msb } }) s
/-- FXCH (spec/47_f_fld-fyl2xp1.md rule R696). -/
def execFxch (o : Fin 8) (s : State) : Host.Outcome State Fault Refusal := run (do
  enterFpu s.rip none
  let f ← getFpu
  let empty := f.isEmpty 0 || f.isEmpty o
  let ok ← if empty then stackFault false else pure true
  freeCodes
  if ok then
    let g := { f with fsw := (← getFpu).fsw }
    let h := if empty then g else { g with fsw := { g.fsw with c1 := false } }
    let reg (i : Fin 8) : BitVec 80 × BitVec 2 :=
      if f.isEmpty i then (indefinite80, 2) else (f.st i, f.tagAt (f.phys i))
    modifyFpu fun _ => (h.setStTag 0 (reg o).1 (reg o).2).setStTag o (reg 0).1 (reg 0).2) s
/-- FCMOVB (spec/46_f_f2xm1-fisttp.md rule R628). -/
def execFcmovb (o : Fin 8) (s : State) : Host.Outcome State Fault Refusal := run (condMove .b s.rip o) s
/-- FCMOVE (spec/46_f_f2xm1-fisttp.md rule R628). -/
def execFcmove (o : Fin 8) (s : State) : Host.Outcome State Fault Refusal := run (condMove .e s.rip o) s
/-- FCMOVBE (spec/46_f_f2xm1-fisttp.md rule R628). -/
def execFcmovbe (o : Fin 8) (s : State) : Host.Outcome State Fault Refusal := run (condMove .be s.rip o) s
/-- FCMOVU (spec/46_f_f2xm1-fisttp.md rule R628). -/
def execFcmovu (o : Fin 8) (s : State) : Host.Outcome State Fault Refusal := run (condMove .p s.rip o) s
/-- FCMOVNB (spec/46_f_f2xm1-fisttp.md rule R628). -/
def execFcmovnb (o : Fin 8) (s : State) : Host.Outcome State Fault Refusal := run (condMove .ae s.rip o) s
/-- FCMOVNE (spec/46_f_f2xm1-fisttp.md rule R628). -/
def execFcmovne (o : Fin 8) (s : State) : Host.Outcome State Fault Refusal := run (condMove .ne s.rip o) s
/-- FCMOVNBE (spec/46_f_f2xm1-fisttp.md rule R628). -/
def execFcmovnbe (o : Fin 8) (s : State) : Host.Outcome State Fault Refusal := run (condMove .a s.rip o) s
/-- FCMOVNU (spec/46_f_f2xm1-fisttp.md rule R628). -/
def execFcmovnu (o : Fin 8) (s : State) : Host.Outcome State Fault Refusal := run (condMove .np s.rip o) s
/-- FDECSTP (spec/46_f_f2xm1-fisttp.md rule R635). -/
def execFdecstp (s : State) : Host.Outcome State Fault Refusal := run (do
  enterFpu s.rip none
  freeCodes
  modifyFpu fun f => { f with fsw := { f.fsw with top := f.fsw.top - 1, c1 := false } }) s
/-- FINCSTP (spec/46_f_f2xm1-fisttp.md rule R645). -/
def execFincstp (s : State) : Host.Outcome State Fault Refusal := run (do
  enterFpu s.rip none
  freeCodes
  modifyFpu fun f => { f with fsw := { f.fsw with top := f.fsw.top + 1, c1 := false } }) s
/-- FFREE (spec/46_f_f2xm1-fisttp.md rule R642). -/
def execFfree (o : Fin 8) (s : State) : Host.Outcome State Fault Refusal := run (do
  enterFpu s.rip none
  freeAllCodes
  modifyFpu fun f => { f with ftw := setTagAt f.ftw (f.phys o) 3 }) s
/-- FNOP (spec/47_f_fld-fyl2xp1.md rule R664). -/
def execFnop (s : State) : Host.Outcome State Fault Refusal := run (do
  enterFpu s.rip none
  freeAllCodes) s
/-- FLDCW (spec/47_f_fld-fyl2xp1.md rule R659). -/
def execFldcw (o : MemRef) (s : State) : Host.Outcome State Fault Refusal := run (loadCw o) s
/-- FLDENV (spec/47_f_fld-fyl2xp1.md rule R660). -/
def execFldenv (o : FpEnv) (s : State) : Host.Outcome State Fault Refusal := run (do
  waitFpu
  let v ← readFpu o.mem (envSize o.w) (envAlign o.w)
  modify fun s => { s with fpu := s.loadEnv o.w v }) s
/-- FRSTOR (spec/47_f_fld-fyl2xp1.md rule R670). -/
def execFrstor (o : FpEnv) (s : State) : Host.Outcome State Fault Refusal := run (do
  waitFpu
  let n := envSize o.w
  let v ← readFpu o.mem (n + 80) (envAlign o.w)
  modify fun s => { s with fpu := (s.loadEnv o.w v).loadStack (v / 256 ^ n) }) s
/-- FNSTCW (spec/47_f_fld-fyl2xp1.md rule R679). -/
def execFnstcw (o : MemRef) (s : State) : Host.Outcome State Fault Refusal := run (storeCw o) s
/-- FNSTENV (spec/47_f_fld-fyl2xp1.md rule R681). -/
def execFnstenv (o : FpEnv) (s : State) : Host.Outcome State Fault Refusal := run (storeEnv o) s
/-- FNSAVE (spec/47_f_fld-fyl2xp1.md rule R671). -/
def execFnsave (o : FpEnv) (s : State) : Host.Outcome State Fault Refusal := run (saveState o) s
/-- FNSTSW (spec/47_f_fld-fyl2xp1.md rule R683). -/
def execFnstsw (o : FpSw) (s : State) : Host.Outcome State Fault Refusal := run (storeSw o) s
/-- FNCLEX (spec/46_f_f2xm1-fisttp.md rule R626). -/
def execFnclex (s : State) : Host.Outcome State Fault Refusal := run (clearExceptions) s
/-- FNINIT (spec/46_f_f2xm1-fisttp.md rule R646). -/
def execFninit (s : State) : Host.Outcome State Fault Refusal := run (initFpu) s
/-- FSTCW (spec/47_f_fld-fyl2xp1.md rule R680). -/
def execFstcw (o : MemRef) (s : State) : Host.Outcome State Fault Refusal := run (afterWait (storeCw o)) s
/-- FSTENV (spec/47_f_fld-fyl2xp1.md rule R682). -/
def execFstenv (o : FpEnv) (s : State) : Host.Outcome State Fault Refusal := run (afterWait (storeEnv o)) s
/-- FSAVE (spec/47_f_fld-fyl2xp1.md rule R672). -/
def execFsave (o : FpEnv) (s : State) : Host.Outcome State Fault Refusal := run (afterWait (saveState o)) s
/-- FSTSW (spec/47_f_fld-fyl2xp1.md rule R684). -/
def execFstsw (o : FpSw) (s : State) : Host.Outcome State Fault Refusal := run (afterWait (storeSw o)) s
/-- FCLEX (spec/46_f_f2xm1-fisttp.md rule R627). -/
def execFclex (s : State) : Host.Outcome State Fault Refusal := run (afterWait clearExceptions) s
/-- FINIT (spec/46_f_f2xm1-fisttp.md rule R647). -/
def execFinit (s : State) : Host.Outcome State Fault Refusal := run (afterWait initFpu) s
/-- WAIT (spec/59_w_wait-xtest.md rule R1187). -/
def execWait (s : State) : Host.Outcome State Fault Refusal := run (waitOnly) s
/-- FWAIT (spec/59_w_wait-xtest.md rule R1187). -/
def execFwait (s : State) : Host.Outcome State Fault Refusal := run (waitOnly) s

end Sys2Proof.Machine
end

