-- ==== Sys2Proof/Machine/Xsave.lean ====
section
/-! DEFINITION. FXSAVE and FXRSTOR (spec/47_f_fld-fyl2xp1.md rules R697 to R700) and the XSAVE family
(spec/59_w_wait-xtest.md rules R1199, R1204 to R1210). Every byte an instruction reads or writes is checked before anything is
changed. -/

namespace Sys2Proof.Machine

/-! Parts of an image. -/

/-- A field of an image: its offset, its bytes, its value. -/
structure Part where
  off : Nat
  size : Nat
  val : Nat
deriving DecidableEq, Repr

/-- In real-address mode an image of n bytes that runs past offset FFFFH is #GP in every segment (rule R1204 step 4;
spec/47_f_fld-fyl2xp1.md rule R697). -/
def needSpan (off : Word) (n : Nat) : M Unit := do
  ensure (!(decide ((← get).mode = .real) && decide (0xFFFF < off.toNat + n - 1))) raiseGP

/-- The checked addresses of n bytes at an offset of an image, which does not wrap (spec/20_memory.md rule R211). -/
def resolvePart (k : Kind) (m : MemRef) (off n : Nat) : M (List Nat) := do
  let s ← get
  let a := s.ea m + BitVec.ofNat 64 off
  needSpan a n
  resolve m.seg k 1 1 a n

/-- The fields of an image with their checked addresses, in order. -/
def placeParts (m : MemRef) : List Part → M (List (List Nat × Nat))
  | [] => return []
  | p :: ps => do
    let as ← resolvePart .write m p.off p.size
    return (as, p.val) :: (← placeParts m ps)

/-- Write checked fields in order. -/
def writeParts : List (List Nat × Nat) → M Unit
  | [] => return ()
  | p :: ps => do
    physWrite p.1 p.2
    writeParts ps

/-- The checked addresses of bytes that are read only if `c`. -/
def readIf (c : Bool) (m : MemRef) (off n : Nat) : M (List Nat) := if c then resolvePart .read m off n else return []

/-- Fields of w bytes every 16 bytes from an offset. -/
def slots (off w : Nat) (vs : List Nat) : List Part :=
  (vs.zip (List.range vs.length)).map fun (v, k) => { off := off + 16 * k, size := w, val := v }

/-- The XMM and YMM registers an image covers: sixteen in 64-bit mode, else eight. -/
def State.imageRegs (s : State) : List Reg := if s.isLong then List.finRange 16 else (List.finRange 8).map fun k => ⟨k.val, by omega⟩

/-- MXCSR_MASK: all defined bits (spec/10_state.md rule R110). -/
def mxcsrMask : Nat := 0xFFFF

/-- The abridged tag word: a bit is set where the physical register is not empty (rule R700). -/
def Fpu.abridged (f : Fpu) : Nat :=
  (List.finRange 8).foldl (fun n p => n + if f.tagAt p = 3 then 0 else 2 ^ p.val) 0

/-- Bytes 0 to 23 (rule R699); `wide` is the layout with 64-bit pointers. -/
def State.x87Head (s : State) (wide : Bool) : List Part :=
  let f := s.fpu
  [⟨0, 2, f.fcw.toNat⟩, ⟨2, 2, f.statusWord.toNat⟩, ⟨4, 1, f.abridged⟩, ⟨6, 2, f.fop.toNat⟩] ++
    (if wide then [⟨8, 8, f.fip.toNat⟩, ⟨16, 8, f.fdp.toNat⟩]
     else
       [⟨8, 4, f.fip.toNat % 2 ^ 32⟩, ⟨12, 2, s.savedSel f.fcs⟩, ⟨16, 4, f.fdp.toNat % 2 ^ 32⟩, ⟨20, 2, s.savedSel f.fds⟩])

/-- Bytes 32 to 159: the data registers in stack order. -/
def State.x87Regs (s : State) : List Part := slots 32 10 ((List.finRange 8).map fun i => (s.fpu.st i).toNat)

/-- Bytes 24 to 31. -/
def State.mxcsrParts (s : State) : List Part := [⟨24, 4, s.mxcsr.toNat⟩, ⟨28, 4, mxcsrMask⟩]

/-- The XMM registers from byte 160. -/
def State.xmmParts (s : State) : List Part := slots 160 16 (s.imageRegs.map fun r => (s.xmm r).toNat)

/-- The upper halves of the YMM registers from byte 576. -/
def State.avxParts (s : State) : List Part :=
  slots 576 16 (s.imageRegs.map fun r => ((s.ymmOf r).extractLsb' 128 128).toNat)

/-- The tag word of an abridged one and the data registers (rule R700). -/
def fullTags (fpr : Vector (BitVec 80) 8) (abridged : Nat) : BitVec 16 :=
  (List.finRange 8).foldl (fun t p => setTagAt t p (if abridged.testBit p.val then tagOf (fpr.get p) else 3)) 0

/-- The x87 unit of bytes 0 to 23 and 32 to 159 of an image. The layout with 64-bit pointers has no selectors, and the spec
states none after a load: they are the free bits `sel` (log entry 32). -/
def fpuOfImage (wide : Bool) (sel : BitVec 32) (head regs : Nat) : Fpu :=
  let fsw := fswOf (BitVec.ofNat 16 (head / 2 ^ 16))
  let fpr : Vector (BitVec 80) 8 := Vector.ofFn fun p : Fin 8 => BitVec.ofNat 80 (regs / 2 ^ (128 * (p - fsw.top).val))
  let ptr (off : Nat) : Word := BitVec.ofNat 64 (head / 2 ^ (8 * off) % 2 ^ (if wide then 64 else 32))
  let seg (off : Nat) (free : BitVec 16) : BitVec 16 := if wide then free else BitVec.ofNat 16 (head / 2 ^ (8 * off))
  { fpr := fpr, fcw := BitVec.ofNat 16 head, fsw := fsw, ftw := fullTags fpr (head / 2 ^ 32 % 256)
    fip := ptr 8, fcs := seg 12 (sel.extractLsb' 0 16), fdp := ptr 16, fds := seg 20 (sel.extractLsb' 16 16)
    fop := BitVec.ofNat 11 (head / 2 ^ 48) }

/-- Put an x87 image in place. -/
def loadX87 (wide : Bool) (head regs : Nat) : M Unit := do
  let sel ← freeValue 32
  modify fun s => { s with fpu := fpuOfImage wide sel head regs }

/-- Load the XMM registers an image covers from 16-byte slots. -/
def State.loadXmms (s : State) (v : Nat) : State :=
  s.imageRegs.foldl (fun t r => t.setXmm r (BitVec.ofNat 128 (v / 2 ^ (128 * r.val)))) s

/-- Load the upper halves of the YMM registers an image covers. -/
def State.loadHighs (s : State) (v : Nat) : State :=
  s.imageRegs.foldl
    (fun t r => t.setVec r (BitVec.ofNat 128 (v / 2 ^ (128 * r.val)) ++ t.xmm r)) s

/-! FXSAVE and FXRSTOR. -/

/-- #UD without the feature, #NM with CR0.EM or CR0.TS (rule R697). -/
def needFxsr : M Unit := do
  needFeature .fxsr
  let s ← get
  ensure (!s.cr0Bit 2 && !s.cr0Bit 3) raiseNM

/-- Put fields into an image of checked addresses. -/
def writeInto (as : List Nat) : List Part → M Unit
  | [] => return ()
  | p :: ps => do
    physWrite ((as.drop p.off).take p.size) p.val
    writeInto as ps

/-- FXSAVE (rule R698); with CR4.OSFXSR = 0 the bytes of MXCSR and the XMM registers are free (U9), MXCSR_MASK is not. -/
def fxsave (wide : Bool) (m : MemRef) : M Unit := do
  needFxsr
  let s ← get
  needSpan (s.ea m) 512
  let as ← resolve m.seg .write 1 16 (s.ea m) 512
  let v ← freeValue 2080
  let sse :=
    if s.cr4Bit 9 then s.mxcsrParts ++ s.xmmParts
    else
      [⟨24, 4, v.toNat % 2 ^ 32⟩, ⟨28, 4, mxcsrMask⟩] ++
        slots 160 16 ((List.range s.imageRegs.length).map fun k => v.toNat / 2 ^ (32 + 128 * k) % 2 ^ 128)
  writeInto as (s.x87Head wide ++ s.x87Regs ++ sse)

/-- Are reserved bits of an MXCSR image set? -/
def badMxcsr (v : Nat) : Bool := decide (mxcsrMask < v % 2 ^ 32)

/-- FXRSTOR (rule R697); with CR4.OSFXSR = 0 MXCSR and the XMM registers are free (U9). -/
def fxrstor (wide : Bool) (m : MemRef) : M Unit := do
  needFxsr
  let s ← get
  needSpan (s.ea m) 512
  let v ← physRead (← resolve m.seg .read 1 16 (s.ea m) 512)
  ensure (!badMxcsr (v / 2 ^ 192)) raiseGP
  let u ← freeValue 2064
  let (mx, xs) := if s.cr4Bit 9 then (v / 2 ^ 192 % 2 ^ 32, v / 2 ^ 1280) else (u.toNat % 2 ^ 16, u.toNat / 2 ^ 16)
  loadX87 wide v (v / 2 ^ 256)
  modify fun s => { s.loadXmms xs with mxcsr := BitVec.ofNat 32 mx }

/-! The XSAVE family. -/

/-- The initial configuration of the x87 state (rule R1204). -/
def Fpu.initial : Fpu := Fpu.init { Fpu.reset with fpr := Vector.replicate 8 0 }

/-- The XMM registers that XINUSE[1] looks at: all sixteen (rule R1204), or those reachable in the current mode (spec/10_state.md
rule R165); a parameter decides between the two rules (log entry 58). -/
def State.xinuseRegs (s : State) : List Reg := if s.cfg.xinuseReachable then s.imageRegs else List.finRange 16

/-- XINUSE (rule R1204, decision D64): a function of the registers. -/
def State.xinuse (s : State) : Word :=
  (if s.fpu = Fpu.initial then 0 else 1) |||
    (if s.xinuseRegs.any fun r => decide (s.xmm r ≠ 0) then 2 else 0) |||
    (if s.ymm.toList.any fun y => decide (y >>> 128 ≠ 0) then 4 else 0)

/-- The common checks up to the alignment (rule R1204 steps 1 to 4); `own` is the instruction's own feature, `sup` asks for
CPL 0. -/
def needXsave (own : Option Config.Feature) (sup : Bool) (m : MemRef) : M Unit := do
  needOsXsave
  match own with
  | some f => needFeature f
  | none => pure ()
  ensure (!(← get).cr0Bit 3) raiseNM
  if sup then needCpl0
  let s ← get
  ensure (decide ((s.linear m.seg (s.segOf m.seg) (s.ea m)).toNat % 64 = 0)) raiseGP

/-- RFBM: the components asked for; the supervisor forms add IA32_XSS. -/
def requested (sup : Bool) : M Word := do
  let v ← readEdxEax
  let s ← get
  return (if sup then s.sys.xcr0 ||| s.msr.xss else s.sys.xcr0) &&& v

/-- The fields of the legacy region: x87 state, MXCSR, XMM registers, in the order of their addresses. -/
def State.legacyParts (s : State) (wide x87 mx sse : Bool) : List Part :=
  (if x87 then s.x87Head wide else []) ++ (if mx then s.mxcsrParts else []) ++ (if x87 then s.x87Regs else []) ++
    (if sse then s.xmmParts else [])

/-- XSAVE and XSAVEOPT: the standard format; `opt` is the init optimization, which saves only components in use (rules R1207,
R1209). -/
def xsaveStd (own : Option Config.Feature) (opt wide : Bool) (m : MemRef) : M Unit := do
  needXsave own false m
  let rfbm ← requested false
  let s ← get
  let use := s.xinuse
  let saved (i : Nat) : Bool := rfbm.getLsbD i && (!opt || use.getLsbD i)
  let low ← placeParts m (s.legacyParts wide (saved 0) (rfbm.getLsbD 1 || rfbm.getLsbD 2) (saved 1))
  let head ← resolvePart .write m 512 8
  let high ← placeParts m (if saved 2 then s.avxParts else [])
  let old : Word := BitVec.ofNat 64 (← physRead head)
  writeParts low
  writeParts high
  physWrite head ((old &&& ~~~rfbm) ||| (use &&& rfbm)).toNat

/-- XSAVEC and XSAVES: the compacted format with the init optimization (rules R1208, R1210). -/
def xsaveCompact (own : Config.Feature) (sup wide : Bool) (m : MemRef) : M Unit := do
  needXsave (some own) sup m
  let rfbm ← requested sup
  let s ← get
  let use := s.xinuse ||| (if s.mxcsr = 0x1F80 then 0 else 2)
  let bv := use &&& rfbm
  let low ← placeParts m (s.legacyParts wide (bv.getLsbD 0) (bv.getLsbD 1) (bv.getLsbD 1))
  let head ← placeParts m [⟨512, 8, bv.toNat⟩, ⟨520, 8, (rfbm ||| 0x8000000000000000).toNat⟩]
  let high ← placeParts m (if bv.getLsbD 2 then s.avxParts else [])
  writeParts low
  writeParts high
  writeParts head

/-- The header checks of a restore (rules R1205, R1206): the fields are XSTATE_BV, XCOMP_BV and the reserved bytes that follow
(8 of them in the standard form, 48 in the compacted one). -/
def headerOk (sup hasCompact : Bool) (allowed bv comp : Word) (rest : Nat) : Bool :=
  if comp.getLsbD 63 then
    (sup || hasCompact) && decide (comp &&& 0x7FFFFFFFFFFFFFFF &&& ~~~allowed = 0) && decide (bv &&& ~~~comp = 0)
      && decide (rest = 0)
  else !sup && decide (bv &&& ~~~allowed = 0) && decide (comp = 0) && decide (rest = 0)

/-- Load a component from the image or put it into its initial configuration. -/
def component (asked present : Bool) (load init : M Unit) : M Unit := if asked then (if present then load else init) else pure ()

/-- XRSTOR_INFO after a restore from an area (rules R1204, R1205). -/
def State.xrstorInfo (s : State) (m : MemRef) (comp : Word) : XrstorInfo :=
  { cpl := s.cpl, vmxnr := false, laxa := s.linear m.seg (s.segOf m.seg) (s.ea m), compmask := comp }

/-- XRSTOR and XRSTORS (rules R1205, R1206). The header says which bytes of the legacy region are read, so it is read first; where it
can be read, the order in which the other bytes are probed shows in no fault. -/
def xrestore (own : Option Config.Feature) (sup wide : Bool) (m : MemRef) : M Unit := do
  needXsave own sup m
  let rfbm ← requested sup
  let head ← physRead (← resolvePart .read m 512 16)
  let bv : Word := BitVec.ofNat 64 head
  let comp : Word := BitVec.ofNat 64 (head / 2 ^ 64)
  let compact := comp.getLsbD 63
  let rest ← physRead (← resolvePart .read m 528 (if compact then 48 else 8))
  let s ← get
  let n := 16 * s.imageRegs.length
  let on (i : Nat) : Bool := rfbm.getLsbD i && bv.getLsbD i
  let mx := if compact then on 1 else rfbm.getLsbD 1 || rfbm.getLsbD 2
  let x87 ← readIf (on 0) m 0 24
  let mxAt ← readIf mx m 24 4
  let st ← readIf (on 0) m 32 128
  let sse ← readIf (on 1) m 160 n
  let ext ← readIf (on 2) m 576 n
  ensure (headerOk sup (s.has .xsavec) (if sup then s.sys.xcr0 ||| s.msr.xss else s.sys.xcr0) bv comp rest) raiseGP
  let mxcsr ← physRead mxAt
  ensure (!badMxcsr mxcsr) raiseGP
  component (rfbm.getLsbD 0) (bv.getLsbD 0) (do loadX87 wide (← physRead x87) (← physRead st))
    (modifyFpu fun _ => Fpu.initial)
  let xmms ← physRead sse
  component (rfbm.getLsbD 1) (bv.getLsbD 1) (modify fun s => s.loadXmms xmms)
    (modify fun s => { s.loadXmms 0 with mxcsr := if compact then 0x1F80 else s.mxcsr })
  let highs ← physRead ext
  component (rfbm.getLsbD 2) (bv.getLsbD 2) (modify fun s => s.loadHighs highs) (modify fun s => s.loadHighs 0)
  if mx then modify fun s => { s with mxcsr := BitVec.ofNat 32 mxcsr }
  modify fun s => { s with xrstor := s.xrstorInfo m comp }

/-! The meanings. -/


/-- FXSAVE (spec/47_f_fld-fyl2xp1.md rule R698). -/
def execFxsave (o : MemRef) (s : State) : Host.Outcome State Fault Refusal := run (fxsave false o) s

/-- FXRSTOR (spec/47_f_fld-fyl2xp1.md rule R697). -/
def execFxrstor (o : MemRef) (s : State) : Host.Outcome State Fault Refusal := run (fxrstor false o) s

/-- XSAVE (spec/59_w_wait-xtest.md rule R1207). -/
def execXsave (o : MemRef) (s : State) : Host.Outcome State Fault Refusal := run (xsaveStd none false false o) s

/-- XSAVEOPT (spec/59_w_wait-xtest.md rule R1209). -/
def execXsaveopt (o : MemRef) (s : State) : Host.Outcome State Fault Refusal := run (xsaveStd (some .xsaveopt) true false o) s

/-- XSAVEC (spec/59_w_wait-xtest.md rule R1208). -/
def execXsavec (o : MemRef) (s : State) : Host.Outcome State Fault Refusal := run (xsaveCompact .xsavec false false o) s

/-- XSAVES (spec/59_w_wait-xtest.md rule R1210). -/
def execXsaves (o : MemRef) (s : State) : Host.Outcome State Fault Refusal := run (xsaveCompact .xss true false o) s

/-- XRSTOR (spec/59_w_wait-xtest.md rule R1205). -/
def execXrstor (o : MemRef) (s : State) : Host.Outcome State Fault Refusal := run (xrestore none false false o) s

/-- XRSTORS (spec/59_w_wait-xtest.md rule R1206). -/
def execXrstors (o : MemRef) (s : State) : Host.Outcome State Fault Refusal := run (xrestore (some .xss) true false o) s

/-- FXSAVE64 (spec/47_f_fld-fyl2xp1.md rule R698). -/
def execFxsave64 (o : MemRef) (s : State) : Host.Outcome State Fault Refusal := run (fxsave true o) s

/-- FXRSTOR64 (spec/47_f_fld-fyl2xp1.md rule R697). -/
def execFxrstor64 (o : MemRef) (s : State) : Host.Outcome State Fault Refusal := run (fxrstor true o) s

/-- XSAVE64 (spec/59_w_wait-xtest.md rule R1207). -/
def execXsave64 (o : MemRef) (s : State) : Host.Outcome State Fault Refusal := run (xsaveStd none false true o) s

/-- XSAVEOPT64 (spec/59_w_wait-xtest.md rule R1209). -/
def execXsaveopt64 (o : MemRef) (s : State) : Host.Outcome State Fault Refusal :=
  run (xsaveStd (some .xsaveopt) true true o) s

/-- XSAVEC64 (spec/59_w_wait-xtest.md rule R1208). -/
def execXsavec64 (o : MemRef) (s : State) : Host.Outcome State Fault Refusal := run (xsaveCompact .xsavec false true o) s

/-- XSAVES64 (spec/59_w_wait-xtest.md rule R1210). -/
def execXsaves64 (o : MemRef) (s : State) : Host.Outcome State Fault Refusal := run (xsaveCompact .xss true true o) s

/-- XRSTOR64 (spec/59_w_wait-xtest.md rule R1205). -/
def execXrstor64 (o : MemRef) (s : State) : Host.Outcome State Fault Refusal := run (xrestore none false true o) s

/-- XRSTORS64 (spec/59_w_wait-xtest.md rule R1206). -/
def execXrstors64 (o : MemRef) (s : State) : Host.Outcome State Fault Refusal := run (xrestore (some .xss) true true o) s

/-- XGETBV (spec/59_w_wait-xtest.md rule R1199). -/
def execXgetbv (s : State) : Host.Outcome State Fault Refusal := run (do
  needOsXsave
  let s ← get
  let c ← readReg .w32 rCX
  if c = 0 then writeEdxEax s.sys.xcr0
  else if c = 1 && s.has .xg1 then writeEdxEax (s.sys.xcr0 &&& s.xinuse)
  else raiseGP) s

end Sys2Proof.Machine
end

