-- ==== Sys2Proof/Machine/Dispatch.lean ====
section
/-! DEFINITION. What each instruction does: one arm for each constructor. -/

namespace Sys2Proof.Machine

/-- Execute one instruction. The step has set `ripNext`. -/
def exec (i : Instr) (s : State) : Host.Outcome State Fault Refusal :=
  match i with
  | .aaa => Sys2Proof.Machine.execAaa s
  | .aad o => Sys2Proof.Machine.execAad o s
  | .aam o => Sys2Proof.Machine.execAam o s
  | .aas => Sys2Proof.Machine.execAas s
  | .adc o => Sys2Proof.Machine.execAdc o s
  | .adcx o => Sys2Proof.Machine.execAdcx o s
  | .add o => Sys2Proof.Machine.execAdd o s
  | .addpd o => Sys2Proof.Machine.execAddpd o s
  | .vaddpd o => Sys2Proof.Machine.execVaddpd o s
  | .addps o => Sys2Proof.Machine.execAddps o s
  | .vaddps o => Sys2Proof.Machine.execVaddps o s
  | .addsd o => Sys2Proof.Machine.execAddsd o s
  | .vaddsd o => Sys2Proof.Machine.execVaddsd o s
  | .addss o => Sys2Proof.Machine.execAddss o s
  | .vaddss o => Sys2Proof.Machine.execVaddss o s
  | .addsubpd o => Sys2Proof.Machine.execAddsubpd o s
  | .vaddsubpd o => Sys2Proof.Machine.execVaddsubpd o s
  | .addsubps o => Sys2Proof.Machine.execAddsubps o s
  | .vaddsubps o => Sys2Proof.Machine.execVaddsubps o s
  | .adox o => Sys2Proof.Machine.execAdox o s
  | .aesdec o => Sys2Proof.Machine.execAesdec o s
  | .vaesdec o => Sys2Proof.Machine.execVaesdec o s
  | .aesdeclast o => Sys2Proof.Machine.execAesdeclast o s
  | .vaesdeclast o => Sys2Proof.Machine.execVaesdeclast o s
  | .aesenc o => Sys2Proof.Machine.execAesenc o s
  | .vaesenc o => Sys2Proof.Machine.execVaesenc o s
  | .aesenclast o => Sys2Proof.Machine.execAesenclast o s
  | .vaesenclast o => Sys2Proof.Machine.execVaesenclast o s
  | .aesimc o => Sys2Proof.Machine.execAesimc o s
  | .vaesimc o => Sys2Proof.Machine.execVaesimc o s
  | .aeskeygenassist o => Sys2Proof.Machine.execAeskeygenassist o s
  | .vaeskeygenassist o => Sys2Proof.Machine.execVaeskeygenassist o s
  | .and o => Sys2Proof.Machine.execAnd o s
  | .andn o => Sys2Proof.Machine.execAndn o s
  | .andpd o => Sys2Proof.Machine.execAndpd o s
  | .vandpd o => Sys2Proof.Machine.execVandpd o s
  | .andps o => Sys2Proof.Machine.execAndps o s
  | .vandps o => Sys2Proof.Machine.execVandps o s
  | .andnpd o => Sys2Proof.Machine.execAndnpd o s
  | .vandnpd o => Sys2Proof.Machine.execVandnpd o s
  | .andnps o => Sys2Proof.Machine.execAndnps o s
  | .vandnps o => Sys2Proof.Machine.execVandnps o s
  | .arpl o => Sys2Proof.Machine.execArpl o s
  | .blendpd o => Sys2Proof.Machine.execBlendpd o s
  | .vblendpd o => Sys2Proof.Machine.execVblendpd o s
  | .bextr o => Sys2Proof.Machine.execBextr o s
  | .blendps o => Sys2Proof.Machine.execBlendps o s
  | .vblendps o => Sys2Proof.Machine.execVblendps o s
  | .blendvpd o => Sys2Proof.Machine.execBlendvpd o s
  | .vblendvpd o => Sys2Proof.Machine.execVblendvpd o s
  | .blendvps o => Sys2Proof.Machine.execBlendvps o s
  | .vblendvps o => Sys2Proof.Machine.execVblendvps o s
  | .blsi o => Sys2Proof.Machine.execBlsi o s
  | .blsmsk o => Sys2Proof.Machine.execBlsmsk o s
  | .blsr o => Sys2Proof.Machine.execBlsr o s
  | .bound o => Sys2Proof.Machine.execBound o s
  | .bsf o => Sys2Proof.Machine.execBsf o s
  | .bsr o => Sys2Proof.Machine.execBsr o s
  | .bswap o => Sys2Proof.Machine.execBswap o s
  | .bt o => Sys2Proof.Machine.execBt o s
  | .btc o => Sys2Proof.Machine.execBtc o s
  | .btr o => Sys2Proof.Machine.execBtr o s
  | .bts o => Sys2Proof.Machine.execBts o s
  | .bzhi o => Sys2Proof.Machine.execBzhi o s
  | .call o => Sys2Proof.Machine.execCall o s
  | .cbw => Sys2Proof.Machine.execCbw s
  | .cwde => Sys2Proof.Machine.execCwde s
  | .cdqe => Sys2Proof.Machine.execCdqe s
  | .clac => Sys2Proof.Machine.execClac s
  | .clc => Sys2Proof.Machine.execClc s
  | .cld => Sys2Proof.Machine.execCld s
  | .clflush o => Sys2Proof.Machine.execClflush o s
  | .cli => Sys2Proof.Machine.execCli s
  | .clts => Sys2Proof.Machine.execClts s
  | .cmc => Sys2Proof.Machine.execCmc s
  | .cmovo o => Sys2Proof.Machine.execCmovo o s
  | .cmovno o => Sys2Proof.Machine.execCmovno o s
  | .cmovb o => Sys2Proof.Machine.execCmovb o s
  | .cmovae o => Sys2Proof.Machine.execCmovae o s
  | .cmove o => Sys2Proof.Machine.execCmove o s
  | .cmovne o => Sys2Proof.Machine.execCmovne o s
  | .cmovbe o => Sys2Proof.Machine.execCmovbe o s
  | .cmova o => Sys2Proof.Machine.execCmova o s
  | .cmovs o => Sys2Proof.Machine.execCmovs o s
  | .cmovns o => Sys2Proof.Machine.execCmovns o s
  | .cmovp o => Sys2Proof.Machine.execCmovp o s
  | .cmovnp o => Sys2Proof.Machine.execCmovnp o s
  | .cmovl o => Sys2Proof.Machine.execCmovl o s
  | .cmovge o => Sys2Proof.Machine.execCmovge o s
  | .cmovle o => Sys2Proof.Machine.execCmovle o s
  | .cmovg o => Sys2Proof.Machine.execCmovg o s
  | .cmp o => Sys2Proof.Machine.execCmp o s
  | .cmppd o => Sys2Proof.Machine.execCmppd o s
  | .vcmppd o => Sys2Proof.Machine.execVcmppd o s
  | .cmpps o => Sys2Proof.Machine.execCmpps o s
  | .vcmpps o => Sys2Proof.Machine.execVcmpps o s
  | .cmps o => Sys2Proof.Machine.execCmps o s
  | .cmpsb o => Sys2Proof.Machine.execCmpsb o s
  | .cmpsw o => Sys2Proof.Machine.execCmpsw o s
  | .cmpsdStr o => Sys2Proof.Machine.execCmpsdStr o s
  | .cmpsq o => Sys2Proof.Machine.execCmpsq o s
  | .cmpsdSse o => Sys2Proof.Machine.execCmpsdSse o s
  | .vcmpsd o => Sys2Proof.Machine.execVcmpsd o s
  | .cmpss o => Sys2Proof.Machine.execCmpss o s
  | .vcmpss o => Sys2Proof.Machine.execVcmpss o s
  | .cmpxchg o => Sys2Proof.Machine.execCmpxchg o s
  | .cmpxchg8b o => Sys2Proof.Machine.execCmpxchg8b o s
  | .cmpxchg16b o => Sys2Proof.Machine.execCmpxchg16b o s
  | .comisd o => Sys2Proof.Machine.execComisd o s
  | .vcomisd o => Sys2Proof.Machine.execVcomisd o s
  | .comiss o => Sys2Proof.Machine.execComiss o s
  | .vcomiss o => Sys2Proof.Machine.execVcomiss o s
  | .cpuid => Sys2Proof.Machine.execCpuid s
  | .crc32 o => Sys2Proof.Machine.execCrc32 o s
  | .cvtdq2pd o => Sys2Proof.Machine.execCvtdq2pd o s
  | .vcvtdq2pd o => Sys2Proof.Machine.execVcvtdq2pd o s
  | .cvtdq2ps o => Sys2Proof.Machine.execCvtdq2ps o s
  | .vcvtdq2ps o => Sys2Proof.Machine.execVcvtdq2ps o s
  | .cvtpd2dq o => Sys2Proof.Machine.execCvtpd2dq o s
  | .vcvtpd2dq o => Sys2Proof.Machine.execVcvtpd2dq o s
  | .cvtpd2ps o => Sys2Proof.Machine.execCvtpd2ps o s
  | .vcvtpd2ps o => Sys2Proof.Machine.execVcvtpd2ps o s
  | .cvtps2dq o => Sys2Proof.Machine.execCvtps2dq o s
  | .vcvtps2dq o => Sys2Proof.Machine.execVcvtps2dq o s
  | .cvtps2pd o => Sys2Proof.Machine.execCvtps2pd o s
  | .vcvtps2pd o => Sys2Proof.Machine.execVcvtps2pd o s
  | .cvttpd2dq o => Sys2Proof.Machine.execCvttpd2dq o s
  | .vcvttpd2dq o => Sys2Proof.Machine.execVcvttpd2dq o s
  | .cvttps2dq o => Sys2Proof.Machine.execCvttps2dq o s
  | .vcvttps2dq o => Sys2Proof.Machine.execVcvttps2dq o s
  | .cvtpd2pi o => Sys2Proof.Machine.execCvtpd2pi o s
  | .cvttpd2pi o => Sys2Proof.Machine.execCvttpd2pi o s
  | .cvtpi2pd o => Sys2Proof.Machine.execCvtpi2pd o s
  | .cvtpi2ps o => Sys2Proof.Machine.execCvtpi2ps o s
  | .cvtps2pi o => Sys2Proof.Machine.execCvtps2pi o s
  | .cvttps2pi o => Sys2Proof.Machine.execCvttps2pi o s
  | .cvtsd2si o => Sys2Proof.Machine.execCvtsd2si o s
  | .vcvtsd2si o => Sys2Proof.Machine.execVcvtsd2si o s
  | .cvttsd2si o => Sys2Proof.Machine.execCvttsd2si o s
  | .vcvttsd2si o => Sys2Proof.Machine.execVcvttsd2si o s
  | .cvtss2si o => Sys2Proof.Machine.execCvtss2si o s
  | .vcvtss2si o => Sys2Proof.Machine.execVcvtss2si o s
  | .cvttss2si o => Sys2Proof.Machine.execCvttss2si o s
  | .vcvttss2si o => Sys2Proof.Machine.execVcvttss2si o s
  | .cvtsi2sd o => Sys2Proof.Machine.execCvtsi2sd o s
  | .vcvtsi2sd o => Sys2Proof.Machine.execVcvtsi2sd o s
  | .cvtsi2ss o => Sys2Proof.Machine.execCvtsi2ss o s
  | .vcvtsi2ss o => Sys2Proof.Machine.execVcvtsi2ss o s
  | .cvtsd2ss o => Sys2Proof.Machine.execCvtsd2ss o s
  | .vcvtsd2ss o => Sys2Proof.Machine.execVcvtsd2ss o s
  | .cvtss2sd o => Sys2Proof.Machine.execCvtss2sd o s
  | .vcvtss2sd o => Sys2Proof.Machine.execVcvtss2sd o s
  | .cwd => Sys2Proof.Machine.execCwd s
  | .cdq => Sys2Proof.Machine.execCdq s
  | .cqo => Sys2Proof.Machine.execCqo s
  | .daa => Sys2Proof.Machine.execDaa s
  | .das => Sys2Proof.Machine.execDas s
  | .dec o => Sys2Proof.Machine.execDec o s
  | .div o => Sys2Proof.Machine.execDiv o s
  | .divpd o => Sys2Proof.Machine.execDivpd o s
  | .vdivpd o => Sys2Proof.Machine.execVdivpd o s
  | .divps o => Sys2Proof.Machine.execDivps o s
  | .vdivps o => Sys2Proof.Machine.execVdivps o s
  | .divsd o => Sys2Proof.Machine.execDivsd o s
  | .vdivsd o => Sys2Proof.Machine.execVdivsd o s
  | .divss o => Sys2Proof.Machine.execDivss o s
  | .vdivss o => Sys2Proof.Machine.execVdivss o s
  | .dppd o => Sys2Proof.Machine.execDppd o s
  | .vdppd o => Sys2Proof.Machine.execVdppd o s
  | .dpps o => Sys2Proof.Machine.execDpps o s
  | .vdpps o => Sys2Proof.Machine.execVdpps o s
  | .emms => Sys2Proof.Machine.execEmms s
  | .enter o => Sys2Proof.Machine.execEnter o s
  | .extractps o => Sys2Proof.Machine.execExtractps o s
  | .vextractps o => Sys2Proof.Machine.execVextractps o s
  | .f2xm1 => Sys2Proof.Machine.execF2xm1 s
  | .fabs => Sys2Proof.Machine.execFabs s
  | .fadd o => Sys2Proof.Machine.execFadd o s
  | .faddp o => Sys2Proof.Machine.execFaddp o s
  | .fiadd o => Sys2Proof.Machine.execFiadd o s
  | .fbld o => Sys2Proof.Machine.execFbld o s
  | .fbstp o => Sys2Proof.Machine.execFbstp o s
  | .fchs => Sys2Proof.Machine.execFchs s
  | .fnclex => Sys2Proof.Machine.execFnclex s
  | .fclex => Sys2Proof.Machine.execFclex s
  | .fcmovb o => Sys2Proof.Machine.execFcmovb o s
  | .fcmove o => Sys2Proof.Machine.execFcmove o s
  | .fcmovbe o => Sys2Proof.Machine.execFcmovbe o s
  | .fcmovu o => Sys2Proof.Machine.execFcmovu o s
  | .fcmovnb o => Sys2Proof.Machine.execFcmovnb o s
  | .fcmovne o => Sys2Proof.Machine.execFcmovne o s
  | .fcmovnbe o => Sys2Proof.Machine.execFcmovnbe o s
  | .fcmovnu o => Sys2Proof.Machine.execFcmovnu o s
  | .fcom o => Sys2Proof.Machine.execFcom o s
  | .fcomp o => Sys2Proof.Machine.execFcomp o s
  | .fcompp => Sys2Proof.Machine.execFcompp s
  | .fcomi o => Sys2Proof.Machine.execFcomi o s
  | .fcomip o => Sys2Proof.Machine.execFcomip o s
  | .fucomi o => Sys2Proof.Machine.execFucomi o s
  | .fucomip o => Sys2Proof.Machine.execFucomip o s
  | .fcos => Sys2Proof.Machine.execFcos s
  | .fdecstp => Sys2Proof.Machine.execFdecstp s
  | .fdiv o => Sys2Proof.Machine.execFdiv o s
  | .fdivp o => Sys2Proof.Machine.execFdivp o s
  | .fidiv o => Sys2Proof.Machine.execFidiv o s
  | .fdivr o => Sys2Proof.Machine.execFdivr o s
  | .fdivrp o => Sys2Proof.Machine.execFdivrp o s
  | .fidivr o => Sys2Proof.Machine.execFidivr o s
  | .ffree o => Sys2Proof.Machine.execFfree o s
  | .ficom o => Sys2Proof.Machine.execFicom o s
  | .ficomp o => Sys2Proof.Machine.execFicomp o s
  | .fild o => Sys2Proof.Machine.execFild o s
  | .fincstp => Sys2Proof.Machine.execFincstp s
  | .fninit => Sys2Proof.Machine.execFninit s
  | .finit => Sys2Proof.Machine.execFinit s
  | .fist o => Sys2Proof.Machine.execFist o s
  | .fistp o => Sys2Proof.Machine.execFistp o s
  | .fisttp o => Sys2Proof.Machine.execFisttp o s
  | .fld o => Sys2Proof.Machine.execFld o s
  | .fld1 => Sys2Proof.Machine.execFld1 s
  | .fldl2t => Sys2Proof.Machine.execFldl2t s
  | .fldl2e => Sys2Proof.Machine.execFldl2e s
  | .fldpi => Sys2Proof.Machine.execFldpi s
  | .fldlg2 => Sys2Proof.Machine.execFldlg2 s
  | .fldln2 => Sys2Proof.Machine.execFldln2 s
  | .fldz => Sys2Proof.Machine.execFldz s
  | .fldcw o => Sys2Proof.Machine.execFldcw o s
  | .fldenv o => Sys2Proof.Machine.execFldenv o s
  | .fmul o => Sys2Proof.Machine.execFmul o s
  | .fmulp o => Sys2Proof.Machine.execFmulp o s
  | .fimul o => Sys2Proof.Machine.execFimul o s
  | .fnop => Sys2Proof.Machine.execFnop s
  | .fpatan => Sys2Proof.Machine.execFpatan s
  | .fprem => Sys2Proof.Machine.execFprem s
  | .fprem1 => Sys2Proof.Machine.execFprem1 s
  | .fptan => Sys2Proof.Machine.execFptan s
  | .frndint => Sys2Proof.Machine.execFrndint s
  | .frstor o => Sys2Proof.Machine.execFrstor o s
  | .fnsave o => Sys2Proof.Machine.execFnsave o s
  | .fsave o => Sys2Proof.Machine.execFsave o s
  | .fscale => Sys2Proof.Machine.execFscale s
  | .fsin => Sys2Proof.Machine.execFsin s
  | .fsincos => Sys2Proof.Machine.execFsincos s
  | .fsqrt => Sys2Proof.Machine.execFsqrt s
  | .fst o => Sys2Proof.Machine.execFst o s
  | .fstp o => Sys2Proof.Machine.execFstp o s
  | .fnstcw o => Sys2Proof.Machine.execFnstcw o s
  | .fstcw o => Sys2Proof.Machine.execFstcw o s
  | .fnstenv o => Sys2Proof.Machine.execFnstenv o s
  | .fstenv o => Sys2Proof.Machine.execFstenv o s
  | .fnstsw o => Sys2Proof.Machine.execFnstsw o s
  | .fstsw o => Sys2Proof.Machine.execFstsw o s
  | .fsub o => Sys2Proof.Machine.execFsub o s
  | .fsubp o => Sys2Proof.Machine.execFsubp o s
  | .fisub o => Sys2Proof.Machine.execFisub o s
  | .fsubr o => Sys2Proof.Machine.execFsubr o s
  | .fsubrp o => Sys2Proof.Machine.execFsubrp o s
  | .fisubr o => Sys2Proof.Machine.execFisubr o s
  | .ftst => Sys2Proof.Machine.execFtst s
  | .fucom o => Sys2Proof.Machine.execFucom o s
  | .fucomp o => Sys2Proof.Machine.execFucomp o s
  | .fucompp => Sys2Proof.Machine.execFucompp s
  | .fxam => Sys2Proof.Machine.execFxam s
  | .fxch o => Sys2Proof.Machine.execFxch o s
  | .fxrstor o => Sys2Proof.Machine.execFxrstor o s
  | .fxrstor64 o => Sys2Proof.Machine.execFxrstor64 o s
  | .fxsave o => Sys2Proof.Machine.execFxsave o s
  | .fxsave64 o => Sys2Proof.Machine.execFxsave64 o s
  | .fxtract => Sys2Proof.Machine.execFxtract s
  | .fyl2x => Sys2Proof.Machine.execFyl2x s
  | .fyl2xp1 => Sys2Proof.Machine.execFyl2xp1 s
  | .haddpd o => Sys2Proof.Machine.execHaddpd o s
  | .vhaddpd o => Sys2Proof.Machine.execVhaddpd o s
  | .haddps o => Sys2Proof.Machine.execHaddps o s
  | .vhaddps o => Sys2Proof.Machine.execVhaddps o s
  | .hsubpd o => Sys2Proof.Machine.execHsubpd o s
  | .vhsubpd o => Sys2Proof.Machine.execVhsubpd o s
  | .hsubps o => Sys2Proof.Machine.execHsubps o s
  | .vhsubps o => Sys2Proof.Machine.execVhsubps o s
  | .hlt => Sys2Proof.Machine.execHlt s
  | .idiv o => Sys2Proof.Machine.execIdiv o s
  | .imul o => Sys2Proof.Machine.execImul o s
  | .inp o => Sys2Proof.Machine.execInp o s
  | .ins o => Sys2Proof.Machine.execIns o s
  | .insb o => Sys2Proof.Machine.execInsb o s
  | .insw o => Sys2Proof.Machine.execInsw o s
  | .insd o => Sys2Proof.Machine.execInsd o s
  | .inc o => Sys2Proof.Machine.execInc o s
  | .insertps o => Sys2Proof.Machine.execInsertps o s
  | .vinsertps o => Sys2Proof.Machine.execVinsertps o s
  | .intN o => Sys2Proof.Machine.execIntN o s
  | .int3 => Sys2Proof.Machine.execInt3 s
  | .into => Sys2Proof.Machine.execInto s
  | .invd => Sys2Proof.Machine.execInvd s
  | .invlpg o => Sys2Proof.Machine.execInvlpg o s
  | .invpcid o => Sys2Proof.Machine.execInvpcid o s
  | .iret => Sys2Proof.Machine.execIret s
  | .iretd => Sys2Proof.Machine.execIretd s
  | .iretq => Sys2Proof.Machine.execIretq s
  | .jo o => Sys2Proof.Machine.execJo o s
  | .jno o => Sys2Proof.Machine.execJno o s
  | .jb o => Sys2Proof.Machine.execJb o s
  | .jae o => Sys2Proof.Machine.execJae o s
  | .je o => Sys2Proof.Machine.execJe o s
  | .jne o => Sys2Proof.Machine.execJne o s
  | .jbe o => Sys2Proof.Machine.execJbe o s
  | .ja o => Sys2Proof.Machine.execJa o s
  | .js o => Sys2Proof.Machine.execJs o s
  | .jns o => Sys2Proof.Machine.execJns o s
  | .jp o => Sys2Proof.Machine.execJp o s
  | .jnp o => Sys2Proof.Machine.execJnp o s
  | .jl o => Sys2Proof.Machine.execJl o s
  | .jge o => Sys2Proof.Machine.execJge o s
  | .jle o => Sys2Proof.Machine.execJle o s
  | .jg o => Sys2Proof.Machine.execJg o s
  | .jcxz o => Sys2Proof.Machine.execJcxz o s
  | .jecxz o => Sys2Proof.Machine.execJecxz o s
  | .jrcxz o => Sys2Proof.Machine.execJrcxz o s
  | .jmpNear o => Sys2Proof.Machine.execJmpNear o s
  | .jmpFar o => Sys2Proof.Machine.execJmpFar o s
  | .lahf => Sys2Proof.Machine.execLahf s
  | .lar o => Sys2Proof.Machine.execLar o s
  | .lddqu o => Sys2Proof.Machine.execLddqu o s
  | .vlddqu o => Sys2Proof.Machine.execVlddqu o s
  | .ldmxcsr o => Sys2Proof.Machine.execLdmxcsr o s
  | .vldmxcsr o => Sys2Proof.Machine.execVldmxcsr o s
  | .lds o => Sys2Proof.Machine.execLds o s
  | .les o => Sys2Proof.Machine.execLes o s
  | .lfs o => Sys2Proof.Machine.execLfs o s
  | .lgs o => Sys2Proof.Machine.execLgs o s
  | .lss o => Sys2Proof.Machine.execLss o s
  | .lea o => Sys2Proof.Machine.execLea o s
  | .leave o => Sys2Proof.Machine.execLeave o s
  | .lfence => Sys2Proof.Machine.execLfence s
  | .lgdt o => Sys2Proof.Machine.execLgdt o s
  | .lidt o => Sys2Proof.Machine.execLidt o s
  | .lldt o => Sys2Proof.Machine.execLldt o s
  | .lmsw o => Sys2Proof.Machine.execLmsw o s
  | .ltr o => Sys2Proof.Machine.execLtr o s
  | .lock o => Sys2Proof.Machine.execLock o s
  | .lods o => Sys2Proof.Machine.execLods o s
  | .lodsb o => Sys2Proof.Machine.execLodsb o s
  | .lodsw o => Sys2Proof.Machine.execLodsw o s
  | .lodsd o => Sys2Proof.Machine.execLodsd o s
  | .lodsq o => Sys2Proof.Machine.execLodsq o s
  | .loop o => Sys2Proof.Machine.execLoop o s
  | .loope o => Sys2Proof.Machine.execLoope o s
  | .loopne o => Sys2Proof.Machine.execLoopne o s
  | .lsl o => Sys2Proof.Machine.execLsl o s
  | .lzcnt o => Sys2Proof.Machine.execLzcnt o s
  | .maskmovdqu o => Sys2Proof.Machine.execMaskmovdqu o s
  | .vmaskmovdqu o => Sys2Proof.Machine.execVmaskmovdqu o s
  | .maskmovq o => Sys2Proof.Machine.execMaskmovq o s
  | .maxpd o => Sys2Proof.Machine.execMaxpd o s
  | .vmaxpd o => Sys2Proof.Machine.execVmaxpd o s
  | .maxps o => Sys2Proof.Machine.execMaxps o s
  | .vmaxps o => Sys2Proof.Machine.execVmaxps o s
  | .maxsd o => Sys2Proof.Machine.execMaxsd o s
  | .vmaxsd o => Sys2Proof.Machine.execVmaxsd o s
  | .maxss o => Sys2Proof.Machine.execMaxss o s
  | .vmaxss o => Sys2Proof.Machine.execVmaxss o s
  | .minpd o => Sys2Proof.Machine.execMinpd o s
  | .vminpd o => Sys2Proof.Machine.execVminpd o s
  | .minps o => Sys2Proof.Machine.execMinps o s
  | .vminps o => Sys2Proof.Machine.execVminps o s
  | .minsd o => Sys2Proof.Machine.execMinsd o s
  | .vminsd o => Sys2Proof.Machine.execVminsd o s
  | .minss o => Sys2Proof.Machine.execMinss o s
  | .vminss o => Sys2Proof.Machine.execVminss o s
  | .mfence => Sys2Proof.Machine.execMfence s
  | .monitor o => Sys2Proof.Machine.execMonitor o s
  | .mov o => Sys2Proof.Machine.execMov o s
  | .movSeg o => Sys2Proof.Machine.execMovSeg o s
  | .movCr o => Sys2Proof.Machine.execMovCr o s
  | .movDr o => Sys2Proof.Machine.execMovDr o s
  | .movapd o => Sys2Proof.Machine.execMovapd o s
  | .vmovapd o => Sys2Proof.Machine.execVmovapd o s
  | .movaps o => Sys2Proof.Machine.execMovaps o s
  | .vmovaps o => Sys2Proof.Machine.execVmovaps o s
  | .movbe o => Sys2Proof.Machine.execMovbe o s
  | .movd o => Sys2Proof.Machine.execMovd o s
  | .movqGp o => Sys2Proof.Machine.execMovqGp o s
  | .vmovd o => Sys2Proof.Machine.execVmovd o s
  | .vmovqGp o => Sys2Proof.Machine.execVmovqGp o s
  | .movddup o => Sys2Proof.Machine.execMovddup o s
  | .vmovddup o => Sys2Proof.Machine.execVmovddup o s
  | .movdqa o => Sys2Proof.Machine.execMovdqa o s
  | .vmovdqa o => Sys2Proof.Machine.execVmovdqa o s
  | .movdqu o => Sys2Proof.Machine.execMovdqu o s
  | .vmovdqu o => Sys2Proof.Machine.execVmovdqu o s
  | .movdq2q o => Sys2Proof.Machine.execMovdq2q o s
  | .movhlps o => Sys2Proof.Machine.execMovhlps o s
  | .vmovhlps o => Sys2Proof.Machine.execVmovhlps o s
  | .movhpd o => Sys2Proof.Machine.execMovhpd o s
  | .vmovhpd o => Sys2Proof.Machine.execVmovhpd o s
  | .movhps o => Sys2Proof.Machine.execMovhps o s
  | .vmovhps o => Sys2Proof.Machine.execVmovhps o s
  | .movlhps o => Sys2Proof.Machine.execMovlhps o s
  | .vmovlhps o => Sys2Proof.Machine.execVmovlhps o s
  | .movlpd o => Sys2Proof.Machine.execMovlpd o s
  | .vmovlpd o => Sys2Proof.Machine.execVmovlpd o s
  | .movlps o => Sys2Proof.Machine.execMovlps o s
  | .vmovlps o => Sys2Proof.Machine.execVmovlps o s
  | .movmskpd o => Sys2Proof.Machine.execMovmskpd o s
  | .vmovmskpd o => Sys2Proof.Machine.execVmovmskpd o s
  | .movmskps o => Sys2Proof.Machine.execMovmskps o s
  | .vmovmskps o => Sys2Proof.Machine.execVmovmskps o s
  | .movntdqa o => Sys2Proof.Machine.execMovntdqa o s
  | .vmovntdqa o => Sys2Proof.Machine.execVmovntdqa o s
  | .movntdq o => Sys2Proof.Machine.execMovntdq o s
  | .vmovntdq o => Sys2Proof.Machine.execVmovntdq o s
  | .movnti o => Sys2Proof.Machine.execMovnti o s
  | .movntpd o => Sys2Proof.Machine.execMovntpd o s
  | .vmovntpd o => Sys2Proof.Machine.execVmovntpd o s
  | .movntps o => Sys2Proof.Machine.execMovntps o s
  | .vmovntps o => Sys2Proof.Machine.execVmovntps o s
  | .movntq o => Sys2Proof.Machine.execMovntq o s
  | .movqX o => Sys2Proof.Machine.execMovqX o s
  | .vmovqX o => Sys2Proof.Machine.execVmovqX o s
  | .movq2dq o => Sys2Proof.Machine.execMovq2dq o s
  | .movs o => Sys2Proof.Machine.execMovs o s
  | .movsb o => Sys2Proof.Machine.execMovsb o s
  | .movsw o => Sys2Proof.Machine.execMovsw o s
  | .movsdStr o => Sys2Proof.Machine.execMovsdStr o s
  | .movsq o => Sys2Proof.Machine.execMovsq o s
  | .movsdSse o => Sys2Proof.Machine.execMovsdSse o s
  | .vmovsd o => Sys2Proof.Machine.execVmovsd o s
  | .movshdup o => Sys2Proof.Machine.execMovshdup o s
  | .vmovshdup o => Sys2Proof.Machine.execVmovshdup o s
  | .movsldup o => Sys2Proof.Machine.execMovsldup o s
  | .vmovsldup o => Sys2Proof.Machine.execVmovsldup o s
  | .movss o => Sys2Proof.Machine.execMovss o s
  | .vmovss o => Sys2Proof.Machine.execVmovss o s
  | .movsx o => Sys2Proof.Machine.execMovsx o s
  | .movsxd o => Sys2Proof.Machine.execMovsxd o s
  | .movupd o => Sys2Proof.Machine.execMovupd o s
  | .vmovupd o => Sys2Proof.Machine.execVmovupd o s
  | .movups o => Sys2Proof.Machine.execMovups o s
  | .vmovups o => Sys2Proof.Machine.execVmovups o s
  | .movzx o => Sys2Proof.Machine.execMovzx o s
  | .mpsadbw o => Sys2Proof.Machine.execMpsadbw o s
  | .vmpsadbw o => Sys2Proof.Machine.execVmpsadbw o s
  | .mul o => Sys2Proof.Machine.execMul o s
  | .mulpd o => Sys2Proof.Machine.execMulpd o s
  | .vmulpd o => Sys2Proof.Machine.execVmulpd o s
  | .mulps o => Sys2Proof.Machine.execMulps o s
  | .vmulps o => Sys2Proof.Machine.execVmulps o s
  | .mulsd o => Sys2Proof.Machine.execMulsd o s
  | .vmulsd o => Sys2Proof.Machine.execVmulsd o s
  | .mulss o => Sys2Proof.Machine.execMulss o s
  | .vmulss o => Sys2Proof.Machine.execVmulss o s
  | .mulx o => Sys2Proof.Machine.execMulx o s
  | .mwait => Sys2Proof.Machine.execMwait s
  | .neg o => Sys2Proof.Machine.execNeg o s
  | .nop o => Sys2Proof.Machine.execNop o s
  | .not o => Sys2Proof.Machine.execNot o s
  | .or o => Sys2Proof.Machine.execOr o s
  | .orpd o => Sys2Proof.Machine.execOrpd o s
  | .vorpd o => Sys2Proof.Machine.execVorpd o s
  | .orps o => Sys2Proof.Machine.execOrps o s
  | .vorps o => Sys2Proof.Machine.execVorps o s
  | .out o => Sys2Proof.Machine.execOut o s
  | .outs o => Sys2Proof.Machine.execOuts o s
  | .outsb o => Sys2Proof.Machine.execOutsb o s
  | .outsw o => Sys2Proof.Machine.execOutsw o s
  | .outsd o => Sys2Proof.Machine.execOutsd o s
  | .pabsb o => Sys2Proof.Machine.execPabsb o s
  | .vpabsb o => Sys2Proof.Machine.execVpabsb o s
  | .pabsw o => Sys2Proof.Machine.execPabsw o s
  | .vpabsw o => Sys2Proof.Machine.execVpabsw o s
  | .pabsd o => Sys2Proof.Machine.execPabsd o s
  | .vpabsd o => Sys2Proof.Machine.execVpabsd o s
  | .packsswb o => Sys2Proof.Machine.execPacksswb o s
  | .vpacksswb o => Sys2Proof.Machine.execVpacksswb o s
  | .packssdw o => Sys2Proof.Machine.execPackssdw o s
  | .vpackssdw o => Sys2Proof.Machine.execVpackssdw o s
  | .packusdw o => Sys2Proof.Machine.execPackusdw o s
  | .vpackusdw o => Sys2Proof.Machine.execVpackusdw o s
  | .packuswb o => Sys2Proof.Machine.execPackuswb o s
  | .vpackuswb o => Sys2Proof.Machine.execVpackuswb o s
  | .paddb o => Sys2Proof.Machine.execPaddb o s
  | .vpaddb o => Sys2Proof.Machine.execVpaddb o s
  | .paddw o => Sys2Proof.Machine.execPaddw o s
  | .vpaddw o => Sys2Proof.Machine.execVpaddw o s
  | .paddd o => Sys2Proof.Machine.execPaddd o s
  | .vpaddd o => Sys2Proof.Machine.execVpaddd o s
  | .paddq o => Sys2Proof.Machine.execPaddq o s
  | .vpaddq o => Sys2Proof.Machine.execVpaddq o s
  | .paddsb o => Sys2Proof.Machine.execPaddsb o s
  | .vpaddsb o => Sys2Proof.Machine.execVpaddsb o s
  | .paddsw o => Sys2Proof.Machine.execPaddsw o s
  | .vpaddsw o => Sys2Proof.Machine.execVpaddsw o s
  | .paddusb o => Sys2Proof.Machine.execPaddusb o s
  | .vpaddusb o => Sys2Proof.Machine.execVpaddusb o s
  | .paddusw o => Sys2Proof.Machine.execPaddusw o s
  | .vpaddusw o => Sys2Proof.Machine.execVpaddusw o s
  | .palignr o => Sys2Proof.Machine.execPalignr o s
  | .vpalignr o => Sys2Proof.Machine.execVpalignr o s
  | .pand o => Sys2Proof.Machine.execPand o s
  | .vpand o => Sys2Proof.Machine.execVpand o s
  | .pandn o => Sys2Proof.Machine.execPandn o s
  | .vpandn o => Sys2Proof.Machine.execVpandn o s
  | .pause => Sys2Proof.Machine.execPause s
  | .pavgb o => Sys2Proof.Machine.execPavgb o s
  | .vpavgb o => Sys2Proof.Machine.execVpavgb o s
  | .pavgw o => Sys2Proof.Machine.execPavgw o s
  | .vpavgw o => Sys2Proof.Machine.execVpavgw o s
  | .pblendvb o => Sys2Proof.Machine.execPblendvb o s
  | .vpblendvb o => Sys2Proof.Machine.execVpblendvb o s
  | .pblendw o => Sys2Proof.Machine.execPblendw o s
  | .vpblendw o => Sys2Proof.Machine.execVpblendw o s
  | .pclmulqdq o => Sys2Proof.Machine.execPclmulqdq o s
  | .vpclmulqdq o => Sys2Proof.Machine.execVpclmulqdq o s
  | .pcmpeqb o => Sys2Proof.Machine.execPcmpeqb o s
  | .vpcmpeqb o => Sys2Proof.Machine.execVpcmpeqb o s
  | .pcmpeqw o => Sys2Proof.Machine.execPcmpeqw o s
  | .vpcmpeqw o => Sys2Proof.Machine.execVpcmpeqw o s
  | .pcmpeqd o => Sys2Proof.Machine.execPcmpeqd o s
  | .vpcmpeqd o => Sys2Proof.Machine.execVpcmpeqd o s
  | .pcmpeqq o => Sys2Proof.Machine.execPcmpeqq o s
  | .vpcmpeqq o => Sys2Proof.Machine.execVpcmpeqq o s
  | .pcmpgtb o => Sys2Proof.Machine.execPcmpgtb o s
  | .vpcmpgtb o => Sys2Proof.Machine.execVpcmpgtb o s
  | .pcmpgtw o => Sys2Proof.Machine.execPcmpgtw o s
  | .vpcmpgtw o => Sys2Proof.Machine.execVpcmpgtw o s
  | .pcmpgtd o => Sys2Proof.Machine.execPcmpgtd o s
  | .vpcmpgtd o => Sys2Proof.Machine.execVpcmpgtd o s
  | .pcmpgtq o => Sys2Proof.Machine.execPcmpgtq o s
  | .vpcmpgtq o => Sys2Proof.Machine.execVpcmpgtq o s
  | .pcmpestri o => Sys2Proof.Machine.execPcmpestri o s
  | .vpcmpestri o => Sys2Proof.Machine.execVpcmpestri o s
  | .pcmpestrm o => Sys2Proof.Machine.execPcmpestrm o s
  | .vpcmpestrm o => Sys2Proof.Machine.execVpcmpestrm o s
  | .pcmpistri o => Sys2Proof.Machine.execPcmpistri o s
  | .vpcmpistri o => Sys2Proof.Machine.execVpcmpistri o s
  | .pcmpistrm o => Sys2Proof.Machine.execPcmpistrm o s
  | .vpcmpistrm o => Sys2Proof.Machine.execVpcmpistrm o s
  | .pdep o => Sys2Proof.Machine.execPdep o s
  | .pext o => Sys2Proof.Machine.execPext o s
  | .pextrb o => Sys2Proof.Machine.execPextrb o s
  | .vpextrb o => Sys2Proof.Machine.execVpextrb o s
  | .pextrd o => Sys2Proof.Machine.execPextrd o s
  | .vpextrd o => Sys2Proof.Machine.execVpextrd o s
  | .pextrq o => Sys2Proof.Machine.execPextrq o s
  | .vpextrq o => Sys2Proof.Machine.execVpextrq o s
  | .pextrw o => Sys2Proof.Machine.execPextrw o s
  | .vpextrw o => Sys2Proof.Machine.execVpextrw o s
  | .phaddw o => Sys2Proof.Machine.execPhaddw o s
  | .vphaddw o => Sys2Proof.Machine.execVphaddw o s
  | .phaddd o => Sys2Proof.Machine.execPhaddd o s
  | .vphaddd o => Sys2Proof.Machine.execVphaddd o s
  | .phaddsw o => Sys2Proof.Machine.execPhaddsw o s
  | .vphaddsw o => Sys2Proof.Machine.execVphaddsw o s
  | .phminposuw o => Sys2Proof.Machine.execPhminposuw o s
  | .vphminposuw o => Sys2Proof.Machine.execVphminposuw o s
  | .phsubw o => Sys2Proof.Machine.execPhsubw o s
  | .vphsubw o => Sys2Proof.Machine.execVphsubw o s
  | .phsubd o => Sys2Proof.Machine.execPhsubd o s
  | .vphsubd o => Sys2Proof.Machine.execVphsubd o s
  | .phsubsw o => Sys2Proof.Machine.execPhsubsw o s
  | .vphsubsw o => Sys2Proof.Machine.execVphsubsw o s
  | .pinsrb o => Sys2Proof.Machine.execPinsrb o s
  | .vpinsrb o => Sys2Proof.Machine.execVpinsrb o s
  | .pinsrd o => Sys2Proof.Machine.execPinsrd o s
  | .vpinsrd o => Sys2Proof.Machine.execVpinsrd o s
  | .pinsrq o => Sys2Proof.Machine.execPinsrq o s
  | .vpinsrq o => Sys2Proof.Machine.execVpinsrq o s
  | .pinsrw o => Sys2Proof.Machine.execPinsrw o s
  | .vpinsrw o => Sys2Proof.Machine.execVpinsrw o s
  | .pmaddubsw o => Sys2Proof.Machine.execPmaddubsw o s
  | .vpmaddubsw o => Sys2Proof.Machine.execVpmaddubsw o s
  | .pmaddwd o => Sys2Proof.Machine.execPmaddwd o s
  | .vpmaddwd o => Sys2Proof.Machine.execVpmaddwd o s
  | .pmaxsb o => Sys2Proof.Machine.execPmaxsb o s
  | .vpmaxsb o => Sys2Proof.Machine.execVpmaxsb o s
  | .pmaxsd o => Sys2Proof.Machine.execPmaxsd o s
  | .vpmaxsd o => Sys2Proof.Machine.execVpmaxsd o s
  | .pmaxsw o => Sys2Proof.Machine.execPmaxsw o s
  | .vpmaxsw o => Sys2Proof.Machine.execVpmaxsw o s
  | .pmaxub o => Sys2Proof.Machine.execPmaxub o s
  | .vpmaxub o => Sys2Proof.Machine.execVpmaxub o s
  | .pmaxud o => Sys2Proof.Machine.execPmaxud o s
  | .vpmaxud o => Sys2Proof.Machine.execVpmaxud o s
  | .pmaxuw o => Sys2Proof.Machine.execPmaxuw o s
  | .vpmaxuw o => Sys2Proof.Machine.execVpmaxuw o s
  | .pminsb o => Sys2Proof.Machine.execPminsb o s
  | .vpminsb o => Sys2Proof.Machine.execVpminsb o s
  | .pminsd o => Sys2Proof.Machine.execPminsd o s
  | .vpminsd o => Sys2Proof.Machine.execVpminsd o s
  | .pminsw o => Sys2Proof.Machine.execPminsw o s
  | .vpminsw o => Sys2Proof.Machine.execVpminsw o s
  | .pminub o => Sys2Proof.Machine.execPminub o s
  | .vpminub o => Sys2Proof.Machine.execVpminub o s
  | .pminud o => Sys2Proof.Machine.execPminud o s
  | .vpminud o => Sys2Proof.Machine.execVpminud o s
  | .pminuw o => Sys2Proof.Machine.execPminuw o s
  | .vpminuw o => Sys2Proof.Machine.execVpminuw o s
  | .pmovmskb o => Sys2Proof.Machine.execPmovmskb o s
  | .vpmovmskb o => Sys2Proof.Machine.execVpmovmskb o s
  | .pmovsxbw o => Sys2Proof.Machine.execPmovsxbw o s
  | .vpmovsxbw o => Sys2Proof.Machine.execVpmovsxbw o s
  | .pmovsxbd o => Sys2Proof.Machine.execPmovsxbd o s
  | .vpmovsxbd o => Sys2Proof.Machine.execVpmovsxbd o s
  | .pmovsxbq o => Sys2Proof.Machine.execPmovsxbq o s
  | .vpmovsxbq o => Sys2Proof.Machine.execVpmovsxbq o s
  | .pmovsxwd o => Sys2Proof.Machine.execPmovsxwd o s
  | .vpmovsxwd o => Sys2Proof.Machine.execVpmovsxwd o s
  | .pmovsxwq o => Sys2Proof.Machine.execPmovsxwq o s
  | .vpmovsxwq o => Sys2Proof.Machine.execVpmovsxwq o s
  | .pmovsxdq o => Sys2Proof.Machine.execPmovsxdq o s
  | .vpmovsxdq o => Sys2Proof.Machine.execVpmovsxdq o s
  | .pmovzxbw o => Sys2Proof.Machine.execPmovzxbw o s
  | .vpmovzxbw o => Sys2Proof.Machine.execVpmovzxbw o s
  | .pmovzxbd o => Sys2Proof.Machine.execPmovzxbd o s
  | .vpmovzxbd o => Sys2Proof.Machine.execVpmovzxbd o s
  | .pmovzxbq o => Sys2Proof.Machine.execPmovzxbq o s
  | .vpmovzxbq o => Sys2Proof.Machine.execVpmovzxbq o s
  | .pmovzxwd o => Sys2Proof.Machine.execPmovzxwd o s
  | .vpmovzxwd o => Sys2Proof.Machine.execVpmovzxwd o s
  | .pmovzxwq o => Sys2Proof.Machine.execPmovzxwq o s
  | .vpmovzxwq o => Sys2Proof.Machine.execVpmovzxwq o s
  | .pmovzxdq o => Sys2Proof.Machine.execPmovzxdq o s
  | .vpmovzxdq o => Sys2Proof.Machine.execVpmovzxdq o s
  | .pmuldq o => Sys2Proof.Machine.execPmuldq o s
  | .vpmuldq o => Sys2Proof.Machine.execVpmuldq o s
  | .pmulhrsw o => Sys2Proof.Machine.execPmulhrsw o s
  | .vpmulhrsw o => Sys2Proof.Machine.execVpmulhrsw o s
  | .pmulhuw o => Sys2Proof.Machine.execPmulhuw o s
  | .vpmulhuw o => Sys2Proof.Machine.execVpmulhuw o s
  | .pmulhw o => Sys2Proof.Machine.execPmulhw o s
  | .vpmulhw o => Sys2Proof.Machine.execVpmulhw o s
  | .pmulld o => Sys2Proof.Machine.execPmulld o s
  | .vpmulld o => Sys2Proof.Machine.execVpmulld o s
  | .pmullw o => Sys2Proof.Machine.execPmullw o s
  | .vpmullw o => Sys2Proof.Machine.execVpmullw o s
  | .pmuludq o => Sys2Proof.Machine.execPmuludq o s
  | .vpmuludq o => Sys2Proof.Machine.execVpmuludq o s
  | .pop o => Sys2Proof.Machine.execPop o s
  | .popSeg o => Sys2Proof.Machine.execPopSeg o s
  | .popa => Sys2Proof.Machine.execPopa s
  | .popad => Sys2Proof.Machine.execPopad s
  | .popcnt o => Sys2Proof.Machine.execPopcnt o s
  | .popf => Sys2Proof.Machine.execPopf s
  | .popfd => Sys2Proof.Machine.execPopfd s
  | .popfq => Sys2Proof.Machine.execPopfq s
  | .por o => Sys2Proof.Machine.execPor o s
  | .vpor o => Sys2Proof.Machine.execVpor o s
  | .pxor o => Sys2Proof.Machine.execPxor o s
  | .vpxor o => Sys2Proof.Machine.execVpxor o s
  | .prefetcht0 o => Sys2Proof.Machine.execPrefetcht0 o s
  | .prefetcht1 o => Sys2Proof.Machine.execPrefetcht1 o s
  | .prefetcht2 o => Sys2Proof.Machine.execPrefetcht2 o s
  | .prefetchnta o => Sys2Proof.Machine.execPrefetchnta o s
  | .prefetchw o => Sys2Proof.Machine.execPrefetchw o s
  | .prefetchwt1 o => Sys2Proof.Machine.execPrefetchwt1 o s
  | .psadbw o => Sys2Proof.Machine.execPsadbw o s
  | .vpsadbw o => Sys2Proof.Machine.execVpsadbw o s
  | .pshufb o => Sys2Proof.Machine.execPshufb o s
  | .vpshufb o => Sys2Proof.Machine.execVpshufb o s
  | .pshufd o => Sys2Proof.Machine.execPshufd o s
  | .vpshufd o => Sys2Proof.Machine.execVpshufd o s
  | .pshufhw o => Sys2Proof.Machine.execPshufhw o s
  | .vpshufhw o => Sys2Proof.Machine.execVpshufhw o s
  | .pshuflw o => Sys2Proof.Machine.execPshuflw o s
  | .vpshuflw o => Sys2Proof.Machine.execVpshuflw o s
  | .pshufw o => Sys2Proof.Machine.execPshufw o s
  | .psignb o => Sys2Proof.Machine.execPsignb o s
  | .vpsignb o => Sys2Proof.Machine.execVpsignb o s
  | .psignw o => Sys2Proof.Machine.execPsignw o s
  | .vpsignw o => Sys2Proof.Machine.execVpsignw o s
  | .psignd o => Sys2Proof.Machine.execPsignd o s
  | .vpsignd o => Sys2Proof.Machine.execVpsignd o s
  | .pslldq o => Sys2Proof.Machine.execPslldq o s
  | .vpslldq o => Sys2Proof.Machine.execVpslldq o s
  | .psrldq o => Sys2Proof.Machine.execPsrldq o s
  | .vpsrldq o => Sys2Proof.Machine.execVpsrldq o s
  | .psllw o => Sys2Proof.Machine.execPsllw o s
  | .vpsllw o => Sys2Proof.Machine.execVpsllw o s
  | .pslld o => Sys2Proof.Machine.execPslld o s
  | .vpslld o => Sys2Proof.Machine.execVpslld o s
  | .psllq o => Sys2Proof.Machine.execPsllq o s
  | .vpsllq o => Sys2Proof.Machine.execVpsllq o s
  | .psraw o => Sys2Proof.Machine.execPsraw o s
  | .vpsraw o => Sys2Proof.Machine.execVpsraw o s
  | .psrad o => Sys2Proof.Machine.execPsrad o s
  | .vpsrad o => Sys2Proof.Machine.execVpsrad o s
  | .psrlw o => Sys2Proof.Machine.execPsrlw o s
  | .vpsrlw o => Sys2Proof.Machine.execVpsrlw o s
  | .psrld o => Sys2Proof.Machine.execPsrld o s
  | .vpsrld o => Sys2Proof.Machine.execVpsrld o s
  | .psrlq o => Sys2Proof.Machine.execPsrlq o s
  | .vpsrlq o => Sys2Proof.Machine.execVpsrlq o s
  | .psubb o => Sys2Proof.Machine.execPsubb o s
  | .vpsubb o => Sys2Proof.Machine.execVpsubb o s
  | .psubw o => Sys2Proof.Machine.execPsubw o s
  | .vpsubw o => Sys2Proof.Machine.execVpsubw o s
  | .psubd o => Sys2Proof.Machine.execPsubd o s
  | .vpsubd o => Sys2Proof.Machine.execVpsubd o s
  | .psubq o => Sys2Proof.Machine.execPsubq o s
  | .vpsubq o => Sys2Proof.Machine.execVpsubq o s
  | .psubsb o => Sys2Proof.Machine.execPsubsb o s
  | .vpsubsb o => Sys2Proof.Machine.execVpsubsb o s
  | .psubsw o => Sys2Proof.Machine.execPsubsw o s
  | .vpsubsw o => Sys2Proof.Machine.execVpsubsw o s
  | .psubusb o => Sys2Proof.Machine.execPsubusb o s
  | .vpsubusb o => Sys2Proof.Machine.execVpsubusb o s
  | .psubusw o => Sys2Proof.Machine.execPsubusw o s
  | .vpsubusw o => Sys2Proof.Machine.execVpsubusw o s
  | .ptest o => Sys2Proof.Machine.execPtest o s
  | .vptest o => Sys2Proof.Machine.execVptest o s
  | .punpckhbw o => Sys2Proof.Machine.execPunpckhbw o s
  | .vpunpckhbw o => Sys2Proof.Machine.execVpunpckhbw o s
  | .punpckhwd o => Sys2Proof.Machine.execPunpckhwd o s
  | .vpunpckhwd o => Sys2Proof.Machine.execVpunpckhwd o s
  | .punpckhdq o => Sys2Proof.Machine.execPunpckhdq o s
  | .vpunpckhdq o => Sys2Proof.Machine.execVpunpckhdq o s
  | .punpckhqdq o => Sys2Proof.Machine.execPunpckhqdq o s
  | .vpunpckhqdq o => Sys2Proof.Machine.execVpunpckhqdq o s
  | .punpcklbw o => Sys2Proof.Machine.execPunpcklbw o s
  | .vpunpcklbw o => Sys2Proof.Machine.execVpunpcklbw o s
  | .punpcklwd o => Sys2Proof.Machine.execPunpcklwd o s
  | .vpunpcklwd o => Sys2Proof.Machine.execVpunpcklwd o s
  | .punpckldq o => Sys2Proof.Machine.execPunpckldq o s
  | .vpunpckldq o => Sys2Proof.Machine.execVpunpckldq o s
  | .punpcklqdq o => Sys2Proof.Machine.execPunpcklqdq o s
  | .vpunpcklqdq o => Sys2Proof.Machine.execVpunpcklqdq o s
  | .push o => Sys2Proof.Machine.execPush o s
  | .pusha => Sys2Proof.Machine.execPusha s
  | .pushad => Sys2Proof.Machine.execPushad s
  | .pushf => Sys2Proof.Machine.execPushf s
  | .pushfd => Sys2Proof.Machine.execPushfd s
  | .pushfq => Sys2Proof.Machine.execPushfq s
  | .rcl o => Sys2Proof.Machine.execRcl o s
  | .rcr o => Sys2Proof.Machine.execRcr o s
  | .rol o => Sys2Proof.Machine.execRol o s
  | .ror o => Sys2Proof.Machine.execRor o s
  | .rcpps o => Sys2Proof.Machine.execRcpps o s
  | .vrcpps o => Sys2Proof.Machine.execVrcpps o s
  | .rcpss o => Sys2Proof.Machine.execRcpss o s
  | .vrcpss o => Sys2Proof.Machine.execVrcpss o s
  | .rdfsbase o => Sys2Proof.Machine.execRdfsbase o s
  | .rdgsbase o => Sys2Proof.Machine.execRdgsbase o s
  | .rdmsr => Sys2Proof.Machine.execRdmsr s
  | .rdpkru => Sys2Proof.Machine.execRdpkru s
  | .rdpmc => Sys2Proof.Machine.execRdpmc s
  | .rdrand o => Sys2Proof.Machine.execRdrand o s
  | .rdseed o => Sys2Proof.Machine.execRdseed o s
  | .rdtsc => Sys2Proof.Machine.execRdtsc s
  | .rdtscp => Sys2Proof.Machine.execRdtscp s
  | .rep o => Sys2Proof.Machine.execRep o s
  | .repe o => Sys2Proof.Machine.execRepe o s
  | .repne o => Sys2Proof.Machine.execRepne o s
  | .retNear o => Sys2Proof.Machine.execRetNear o s
  | .retFar o => Sys2Proof.Machine.execRetFar o s
  | .rorx o => Sys2Proof.Machine.execRorx o s
  | .roundpd o => Sys2Proof.Machine.execRoundpd o s
  | .vroundpd o => Sys2Proof.Machine.execVroundpd o s
  | .roundps o => Sys2Proof.Machine.execRoundps o s
  | .vroundps o => Sys2Proof.Machine.execVroundps o s
  | .roundsd o => Sys2Proof.Machine.execRoundsd o s
  | .vroundsd o => Sys2Proof.Machine.execVroundsd o s
  | .roundss o => Sys2Proof.Machine.execRoundss o s
  | .vroundss o => Sys2Proof.Machine.execVroundss o s
  | .rsm => Sys2Proof.Machine.execRsm s
  | .rsqrtps o => Sys2Proof.Machine.execRsqrtps o s
  | .vrsqrtps o => Sys2Proof.Machine.execVrsqrtps o s
  | .rsqrtss o => Sys2Proof.Machine.execRsqrtss o s
  | .vrsqrtss o => Sys2Proof.Machine.execVrsqrtss o s
  | .sahf => Sys2Proof.Machine.execSahf s
  | .sal o => Sys2Proof.Machine.execSal o s
  | .sar o => Sys2Proof.Machine.execSar o s
  | .shl o => Sys2Proof.Machine.execShl o s
  | .shr o => Sys2Proof.Machine.execShr o s
  | .sarx o => Sys2Proof.Machine.execSarx o s
  | .shlx o => Sys2Proof.Machine.execShlx o s
  | .shrx o => Sys2Proof.Machine.execShrx o s
  | .sbb o => Sys2Proof.Machine.execSbb o s
  | .scas o => Sys2Proof.Machine.execScas o s
  | .scasb o => Sys2Proof.Machine.execScasb o s
  | .scasw o => Sys2Proof.Machine.execScasw o s
  | .scasd o => Sys2Proof.Machine.execScasd o s
  | .scasq o => Sys2Proof.Machine.execScasq o s
  | .seto o => Sys2Proof.Machine.execSeto o s
  | .setno o => Sys2Proof.Machine.execSetno o s
  | .setb o => Sys2Proof.Machine.execSetb o s
  | .setae o => Sys2Proof.Machine.execSetae o s
  | .sete o => Sys2Proof.Machine.execSete o s
  | .setne o => Sys2Proof.Machine.execSetne o s
  | .setbe o => Sys2Proof.Machine.execSetbe o s
  | .seta o => Sys2Proof.Machine.execSeta o s
  | .sets o => Sys2Proof.Machine.execSets o s
  | .setns o => Sys2Proof.Machine.execSetns o s
  | .setp o => Sys2Proof.Machine.execSetp o s
  | .setnp o => Sys2Proof.Machine.execSetnp o s
  | .setl o => Sys2Proof.Machine.execSetl o s
  | .setge o => Sys2Proof.Machine.execSetge o s
  | .setle o => Sys2Proof.Machine.execSetle o s
  | .setg o => Sys2Proof.Machine.execSetg o s
  | .sfence => Sys2Proof.Machine.execSfence s
  | .sgdt o => Sys2Proof.Machine.execSgdt o s
  | .shld o => Sys2Proof.Machine.execShld o s
  | .shrd o => Sys2Proof.Machine.execShrd o s
  | .shufpd o => Sys2Proof.Machine.execShufpd o s
  | .vshufpd o => Sys2Proof.Machine.execVshufpd o s
  | .shufps o => Sys2Proof.Machine.execShufps o s
  | .vshufps o => Sys2Proof.Machine.execVshufps o s
  | .sidt o => Sys2Proof.Machine.execSidt o s
  | .sldt o => Sys2Proof.Machine.execSldt o s
  | .smsw o => Sys2Proof.Machine.execSmsw o s
  | .sqrtpd o => Sys2Proof.Machine.execSqrtpd o s
  | .vsqrtpd o => Sys2Proof.Machine.execVsqrtpd o s
  | .sqrtps o => Sys2Proof.Machine.execSqrtps o s
  | .vsqrtps o => Sys2Proof.Machine.execVsqrtps o s
  | .sqrtsd o => Sys2Proof.Machine.execSqrtsd o s
  | .vsqrtsd o => Sys2Proof.Machine.execVsqrtsd o s
  | .sqrtss o => Sys2Proof.Machine.execSqrtss o s
  | .vsqrtss o => Sys2Proof.Machine.execVsqrtss o s
  | .stac => Sys2Proof.Machine.execStac s
  | .stc => Sys2Proof.Machine.execStc s
  | .std => Sys2Proof.Machine.execStd s
  | .sti => Sys2Proof.Machine.execSti s
  | .stmxcsr o => Sys2Proof.Machine.execStmxcsr o s
  | .vstmxcsr o => Sys2Proof.Machine.execVstmxcsr o s
  | .stos o => Sys2Proof.Machine.execStos o s
  | .stosb o => Sys2Proof.Machine.execStosb o s
  | .stosw o => Sys2Proof.Machine.execStosw o s
  | .stosd o => Sys2Proof.Machine.execStosd o s
  | .stosq o => Sys2Proof.Machine.execStosq o s
  | .str o => Sys2Proof.Machine.execStr o s
  | .sub o => Sys2Proof.Machine.execSub o s
  | .subpd o => Sys2Proof.Machine.execSubpd o s
  | .vsubpd o => Sys2Proof.Machine.execVsubpd o s
  | .subps o => Sys2Proof.Machine.execSubps o s
  | .vsubps o => Sys2Proof.Machine.execVsubps o s
  | .subsd o => Sys2Proof.Machine.execSubsd o s
  | .vsubsd o => Sys2Proof.Machine.execVsubsd o s
  | .subss o => Sys2Proof.Machine.execSubss o s
  | .vsubss o => Sys2Proof.Machine.execVsubss o s
  | .swapgs => Sys2Proof.Machine.execSwapgs s
  | .syscall => Sys2Proof.Machine.execSyscall s
  | .sysenter => Sys2Proof.Machine.execSysenter s
  | .sysexit o => Sys2Proof.Machine.execSysexit o s
  | .sysret o => Sys2Proof.Machine.execSysret o s
  | .test o => Sys2Proof.Machine.execTest o s
  | .tzcnt o => Sys2Proof.Machine.execTzcnt o s
  | .ucomisd o => Sys2Proof.Machine.execUcomisd o s
  | .vucomisd o => Sys2Proof.Machine.execVucomisd o s
  | .ucomiss o => Sys2Proof.Machine.execUcomiss o s
  | .vucomiss o => Sys2Proof.Machine.execVucomiss o s
  | .ud2 => Sys2Proof.Machine.execUd2 s
  | .unpckhpd o => Sys2Proof.Machine.execUnpckhpd o s
  | .vunpckhpd o => Sys2Proof.Machine.execVunpckhpd o s
  | .unpckhps o => Sys2Proof.Machine.execUnpckhps o s
  | .vunpckhps o => Sys2Proof.Machine.execVunpckhps o s
  | .unpcklpd o => Sys2Proof.Machine.execUnpcklpd o s
  | .vunpcklpd o => Sys2Proof.Machine.execVunpcklpd o s
  | .unpcklps o => Sys2Proof.Machine.execUnpcklps o s
  | .vunpcklps o => Sys2Proof.Machine.execVunpcklps o s
  | .vbroadcastss o => Sys2Proof.Machine.execVbroadcastss o s
  | .vbroadcastsd o => Sys2Proof.Machine.execVbroadcastsd o s
  | .vbroadcastf128 o => Sys2Proof.Machine.execVbroadcastf128 o s
  | .vcvtph2ps o => Sys2Proof.Machine.execVcvtph2ps o s
  | .vcvtps2ph o => Sys2Proof.Machine.execVcvtps2ph o s
  | .verr o => Sys2Proof.Machine.execVerr o s
  | .verw o => Sys2Proof.Machine.execVerw o s
  | .vextractf128 o => Sys2Proof.Machine.execVextractf128 o s
  | .vextracti128 o => Sys2Proof.Machine.execVextracti128 o s
  | .vfmadd132pd o => Sys2Proof.Machine.execVfmadd132pd o s
  | .vfmadd213pd o => Sys2Proof.Machine.execVfmadd213pd o s
  | .vfmadd231pd o => Sys2Proof.Machine.execVfmadd231pd o s
  | .vfmadd132ps o => Sys2Proof.Machine.execVfmadd132ps o s
  | .vfmadd213ps o => Sys2Proof.Machine.execVfmadd213ps o s
  | .vfmadd231ps o => Sys2Proof.Machine.execVfmadd231ps o s
  | .vfmadd132sd o => Sys2Proof.Machine.execVfmadd132sd o s
  | .vfmadd213sd o => Sys2Proof.Machine.execVfmadd213sd o s
  | .vfmadd231sd o => Sys2Proof.Machine.execVfmadd231sd o s
  | .vfmadd132ss o => Sys2Proof.Machine.execVfmadd132ss o s
  | .vfmadd213ss o => Sys2Proof.Machine.execVfmadd213ss o s
  | .vfmadd231ss o => Sys2Proof.Machine.execVfmadd231ss o s
  | .vfmaddsub132pd o => Sys2Proof.Machine.execVfmaddsub132pd o s
  | .vfmaddsub213pd o => Sys2Proof.Machine.execVfmaddsub213pd o s
  | .vfmaddsub231pd o => Sys2Proof.Machine.execVfmaddsub231pd o s
  | .vfmaddsub132ps o => Sys2Proof.Machine.execVfmaddsub132ps o s
  | .vfmaddsub213ps o => Sys2Proof.Machine.execVfmaddsub213ps o s
  | .vfmaddsub231ps o => Sys2Proof.Machine.execVfmaddsub231ps o s
  | .vfmsubadd132pd o => Sys2Proof.Machine.execVfmsubadd132pd o s
  | .vfmsubadd213pd o => Sys2Proof.Machine.execVfmsubadd213pd o s
  | .vfmsubadd231pd o => Sys2Proof.Machine.execVfmsubadd231pd o s
  | .vfmsubadd132ps o => Sys2Proof.Machine.execVfmsubadd132ps o s
  | .vfmsubadd213ps o => Sys2Proof.Machine.execVfmsubadd213ps o s
  | .vfmsubadd231ps o => Sys2Proof.Machine.execVfmsubadd231ps o s
  | .vfmsub132pd o => Sys2Proof.Machine.execVfmsub132pd o s
  | .vfmsub213pd o => Sys2Proof.Machine.execVfmsub213pd o s
  | .vfmsub231pd o => Sys2Proof.Machine.execVfmsub231pd o s
  | .vfmsub132ps o => Sys2Proof.Machine.execVfmsub132ps o s
  | .vfmsub213ps o => Sys2Proof.Machine.execVfmsub213ps o s
  | .vfmsub231ps o => Sys2Proof.Machine.execVfmsub231ps o s
  | .vfmsub132sd o => Sys2Proof.Machine.execVfmsub132sd o s
  | .vfmsub213sd o => Sys2Proof.Machine.execVfmsub213sd o s
  | .vfmsub231sd o => Sys2Proof.Machine.execVfmsub231sd o s
  | .vfmsub132ss o => Sys2Proof.Machine.execVfmsub132ss o s
  | .vfmsub213ss o => Sys2Proof.Machine.execVfmsub213ss o s
  | .vfmsub231ss o => Sys2Proof.Machine.execVfmsub231ss o s
  | .vfnmadd132pd o => Sys2Proof.Machine.execVfnmadd132pd o s
  | .vfnmadd213pd o => Sys2Proof.Machine.execVfnmadd213pd o s
  | .vfnmadd231pd o => Sys2Proof.Machine.execVfnmadd231pd o s
  | .vfnmadd132ps o => Sys2Proof.Machine.execVfnmadd132ps o s
  | .vfnmadd213ps o => Sys2Proof.Machine.execVfnmadd213ps o s
  | .vfnmadd231ps o => Sys2Proof.Machine.execVfnmadd231ps o s
  | .vfnmadd132sd o => Sys2Proof.Machine.execVfnmadd132sd o s
  | .vfnmadd213sd o => Sys2Proof.Machine.execVfnmadd213sd o s
  | .vfnmadd231sd o => Sys2Proof.Machine.execVfnmadd231sd o s
  | .vfnmadd132ss o => Sys2Proof.Machine.execVfnmadd132ss o s
  | .vfnmadd213ss o => Sys2Proof.Machine.execVfnmadd213ss o s
  | .vfnmadd231ss o => Sys2Proof.Machine.execVfnmadd231ss o s
  | .vfnmsub132pd o => Sys2Proof.Machine.execVfnmsub132pd o s
  | .vfnmsub213pd o => Sys2Proof.Machine.execVfnmsub213pd o s
  | .vfnmsub231pd o => Sys2Proof.Machine.execVfnmsub231pd o s
  | .vfnmsub132ps o => Sys2Proof.Machine.execVfnmsub132ps o s
  | .vfnmsub213ps o => Sys2Proof.Machine.execVfnmsub213ps o s
  | .vfnmsub231ps o => Sys2Proof.Machine.execVfnmsub231ps o s
  | .vfnmsub132sd o => Sys2Proof.Machine.execVfnmsub132sd o s
  | .vfnmsub213sd o => Sys2Proof.Machine.execVfnmsub213sd o s
  | .vfnmsub231sd o => Sys2Proof.Machine.execVfnmsub231sd o s
  | .vfnmsub132ss o => Sys2Proof.Machine.execVfnmsub132ss o s
  | .vfnmsub213ss o => Sys2Proof.Machine.execVfnmsub213ss o s
  | .vfnmsub231ss o => Sys2Proof.Machine.execVfnmsub231ss o s
  | .vgatherdpd o => Sys2Proof.Machine.execVgatherdpd o s
  | .vgatherqpd o => Sys2Proof.Machine.execVgatherqpd o s
  | .vgatherdps o => Sys2Proof.Machine.execVgatherdps o s
  | .vgatherqps o => Sys2Proof.Machine.execVgatherqps o s
  | .vpgatherdd o => Sys2Proof.Machine.execVpgatherdd o s
  | .vpgatherqd o => Sys2Proof.Machine.execVpgatherqd o s
  | .vpgatherdq o => Sys2Proof.Machine.execVpgatherdq o s
  | .vpgatherqq o => Sys2Proof.Machine.execVpgatherqq o s
  | .vinsertf128 o => Sys2Proof.Machine.execVinsertf128 o s
  | .vinserti128 o => Sys2Proof.Machine.execVinserti128 o s
  | .vmaskmovps o => Sys2Proof.Machine.execVmaskmovps o s
  | .vmaskmovpd o => Sys2Proof.Machine.execVmaskmovpd o s
  | .vpblendd o => Sys2Proof.Machine.execVpblendd o s
  | .vpbroadcastb o => Sys2Proof.Machine.execVpbroadcastb o s
  | .vpbroadcastw o => Sys2Proof.Machine.execVpbroadcastw o s
  | .vpbroadcastd o => Sys2Proof.Machine.execVpbroadcastd o s
  | .vpbroadcastq o => Sys2Proof.Machine.execVpbroadcastq o s
  | .vbroadcasti128 o => Sys2Proof.Machine.execVbroadcasti128 o s
  | .vpermd o => Sys2Proof.Machine.execVpermd o s
  | .vpermpd o => Sys2Proof.Machine.execVpermpd o s
  | .vpermps o => Sys2Proof.Machine.execVpermps o s
  | .vpermq o => Sys2Proof.Machine.execVpermq o s
  | .vperm2i128 o => Sys2Proof.Machine.execVperm2i128 o s
  | .vperm2f128 o => Sys2Proof.Machine.execVperm2f128 o s
  | .vpermilpd o => Sys2Proof.Machine.execVpermilpd o s
  | .vpermilps o => Sys2Proof.Machine.execVpermilps o s
  | .vpmaskmovd o => Sys2Proof.Machine.execVpmaskmovd o s
  | .vpmaskmovq o => Sys2Proof.Machine.execVpmaskmovq o s
  | .vpsllvd o => Sys2Proof.Machine.execVpsllvd o s
  | .vpsllvq o => Sys2Proof.Machine.execVpsllvq o s
  | .vpsravd o => Sys2Proof.Machine.execVpsravd o s
  | .vpsrlvd o => Sys2Proof.Machine.execVpsrlvd o s
  | .vpsrlvq o => Sys2Proof.Machine.execVpsrlvq o s
  | .vtestps o => Sys2Proof.Machine.execVtestps o s
  | .vtestpd o => Sys2Proof.Machine.execVtestpd o s
  | .vzeroall => Sys2Proof.Machine.execVzeroall s
  | .vzeroupper => Sys2Proof.Machine.execVzeroupper s
  | .wait => Sys2Proof.Machine.execWait s
  | .fwait => Sys2Proof.Machine.execFwait s
  | .wbinvd => Sys2Proof.Machine.execWbinvd s
  | .wrfsbase o => Sys2Proof.Machine.execWrfsbase o s
  | .wrgsbase o => Sys2Proof.Machine.execWrgsbase o s
  | .wrmsr => Sys2Proof.Machine.execWrmsr s
  | .wrpkru => Sys2Proof.Machine.execWrpkru s
  | .xacquire o => Sys2Proof.Machine.execXacquire o s
  | .xrelease o => Sys2Proof.Machine.execXrelease o s
  | .xabort o => Sys2Proof.Machine.execXabort o s
  | .xadd o => Sys2Proof.Machine.execXadd o s
  | .xbegin o => Sys2Proof.Machine.execXbegin o s
  | .xchg o => Sys2Proof.Machine.execXchg o s
  | .xend => Sys2Proof.Machine.execXend s
  | .xgetbv => Sys2Proof.Machine.execXgetbv s
  | .xlat o => Sys2Proof.Machine.execXlat o s
  | .xlatb o => Sys2Proof.Machine.execXlatb o s
  | .xor o => Sys2Proof.Machine.execXor o s
  | .xorpd o => Sys2Proof.Machine.execXorpd o s
  | .vxorpd o => Sys2Proof.Machine.execVxorpd o s
  | .xorps o => Sys2Proof.Machine.execXorps o s
  | .vxorps o => Sys2Proof.Machine.execVxorps o s
  | .xrstor o => Sys2Proof.Machine.execXrstor o s
  | .xrstor64 o => Sys2Proof.Machine.execXrstor64 o s
  | .xrstors o => Sys2Proof.Machine.execXrstors o s
  | .xrstors64 o => Sys2Proof.Machine.execXrstors64 o s
  | .xsave o => Sys2Proof.Machine.execXsave o s
  | .xsave64 o => Sys2Proof.Machine.execXsave64 o s
  | .xsavec o => Sys2Proof.Machine.execXsavec o s
  | .xsavec64 o => Sys2Proof.Machine.execXsavec64 o s
  | .xsaveopt o => Sys2Proof.Machine.execXsaveopt o s
  | .xsaveopt64 o => Sys2Proof.Machine.execXsaveopt64 o s
  | .xsaves o => Sys2Proof.Machine.execXsaves o s
  | .xsaves64 o => Sys2Proof.Machine.execXsaves64 o s
  | .xsetbv => Sys2Proof.Machine.execXsetbv s
  | .xtest => Sys2Proof.Machine.execXtest s

end Sys2Proof.Machine
end

