-- ==== Sys2Proof/WellFormed.lean ====
section
/-! DEFINITION. Which instructions can be encoded (spec/30_encoding.md rules R310 to R385): the checks on operands, sizes and
modes that the decoder's answers pass. The rows that are a second spelling of another row's bytes (FINIT, FCLEX, FSTCW,
FSTENV, FSAVE, FSTSW: a WAIT and the form without wait; SAL: SHL; FWAIT: WAIT; rule R400) are never decoded and are not
well-formed. -/

namespace Sys2Proof

/-- What the operating mode means for decoding (rules R302, R320, R360): 64-bit mode, 32-bit default sizes, and whether a
C4H or C5H byte can begin a VEX prefix outside 64-bit mode. -/
structure CMode where
  long : Bool
  d32 : Bool
  vex : Bool
deriving DecidableEq, Repr

/-- A register number outside 64-bit mode is below 8 (rule R335). -/
def CMode.reg (m : CMode) (r : Reg) : Bool := m.long || decide (r.val < 8)

/-- A width that some general operand can have (rule R320). -/
def CMode.width (m : CMode) (w : Width) : Bool := m.long || decide (w ≠ .w64)
/-- A width set by the operand size: 16, 32 or 64 bits. -/
def CMode.osize (m : CMode) (w : Width) : Bool := decide (w ≠ .w8) && m.width w
/-- 32 or 64 bits, by W alone (rule R321, operand letter y). -/
def CMode.ysize (m : CMode) (w : Width) : Bool := decide (w = .w32) || (m.long && decide (w = .w64))
/-- The width of a stack item (rule R321, d64): 32 bits cannot be encoded in 64-bit mode. -/
def CMode.stack (m : CMode) (w : Width) : Bool :=
  decide (w = .w16) || (if m.long then decide (w = .w64) else decide (w = .w32))
/-- The operand size of a near branch (rule R321, f64). -/
def CMode.branch (m : CMode) (w : Width) : Bool :=
  if m.long then decide (w = .w64) else decide (w = .w16 ∨ w = .w32)
/-- The address sizes of a mode (rule R320). -/
def CMode.addr (m : CMode) (a : ASize) : Bool := if m.long then decide (a ≠ .a16) else decide (a ≠ .a64)
/-- The segment overrides a mode records (rule R311). -/
def CMode.ovr (m : CMode) : Option SReg → Bool
  | none => true
  | some s => !m.long || decide (s = .ss ∨ s = .fs ∨ s = .gs)

/-- A displacement that is the sign extension of its low n bits. -/
def signedIn (n : Nat) (v : BitVec 32) : Bool := decide ((v.setWidth n).signExtend 32 = v)

/-- The base and index pairs of 16-bit addressing (rule R330). -/
def pair16 : Option Reg → Option Reg → Bool
  | some b, some i => decide ((b = 3 ∨ b = 5) ∧ (i = 6 ∨ i = 7))
  | some b, none => decide (b = 3 ∨ b = 5 ∨ b = 6 ∨ b = 7)
  | none, none => true
  | none, some _ => false

/-- A memory operand some ModRM and SIB bytes stand for (rule R330). -/
def MemRef.ok (m : CMode) (a : MemRef) : Bool :=
  m.ovr a.ovr && m.addr a.asz && a.base.all m.reg && a.index.all (fun i => m.reg i && decide (i ≠ 4)) &&
  (a.index.isSome || decide (a.scale = 0)) && (!a.rip || (m.long && a.base.isNone && a.index.isNone)) &&
  (decide (a.asz ≠ .a16) || (pair16 a.base a.index && decide (a.scale = 0) && signedIn 16 a.disp))

/-- A vector-indexed memory operand (rule R331). -/
def VMem.ok (m : CMode) (a : VMem) : Bool :=
  m.ovr a.ovr && m.addr a.asz && decide (a.asz ≠ .a16) && a.base.all m.reg && m.reg a.index

/-- A `moffs` operand (rule R305). -/
def Moffs.ok (m : CMode) (a : Moffs) : Bool :=
  m.ovr a.ovr && m.addr a.asz && decide (a.off.toNat < 2 ^ a.asz.bits)

/-- A general register at a width (rule R335): AH, CH, DH, BH are byte registers; SPL, BPL, SIL, DIL need REX. -/
def Gp.ok (m : CMode) (w : Width) : Gp → Bool
  | .lo r => m.reg r && (m.long || decide (w ≠ .w8) || decide (r.val < 4))
  | .hi _ => decide (w = .w8)

/-- Does the operand need a REX prefix by itself? -/
def Gp.rex (w : Width) : Gp → Bool
  | .lo r => decide (8 ≤ r.val) || (decide (w = .w8) && decide (4 ≤ r.val))
  | .hi _ => false
/-- AH, CH, DH or BH, which no REX prefix can accompany (rule R335). -/
def Gp.high : Gp → Bool
  | .lo _ => false
  | .hi _ => true
/-- Does the memory operand need a REX prefix? -/
def MemRef.rex (a : MemRef) : Bool := a.base.any (fun r => decide (8 ≤ r.val)) || a.index.any (fun r => decide (8 ≤ r.val))

/-- A general register or memory at a width. -/
def Rm.ok (m : CMode) (w : Width) : Rm → Bool
  | .reg r => r.ok m w
  | .mem a => a.ok m
/-- Does the operand need a REX prefix? -/
def Rm.rex (w : Width) : Rm → Bool
  | .reg r => r.rex w
  | .mem a => a.rex
/-- AH, CH, DH or BH. -/
def Rm.high : Rm → Bool
  | .reg r => r.high
  | .mem _ => false
/-- The operand is memory. -/
def Rm.isMem : Rm → Bool
  | .reg _ => false
  | .mem _ => true

/-- r/m with a register: both encodable, and not AH, CH, DH or BH beside an operand that needs REX. -/
def pairOk (m : CMode) (w : Width) (x : Rm) (wr : Width) (g : Gp) : Bool :=
  x.ok m w && g.ok m wr && !(x.high && g.rex wr) && !(g.high && x.rex w)

/-- An XMM or YMM register or memory. -/
def Xm.ok (m : CMode) : Xm → Bool
  | .reg r => m.reg r
  | .mem a => a.ok m
/-- An MMX register or memory. -/
def Mm.ok (m : CMode) : Mm → Bool
  | .reg _ => true
  | .mem a => a.ok m

/-- An immediate of an operand width, sign-extended to 32 bits (rule R303). -/
def immOk (w : Width) (v : BitVec 32) : Bool :=
  match w with
  | .w8 => signedIn 8 v
  | .w16 => signedIn 16 v
  | _ => true

/-- ADD and its kin. -/
def AluOps.ok (m : CMode) : AluOps → Bool
  | .mr w d s => m.width w && pairOk m w d w s
  | .rm w d s => m.width w && pairOk m w s w d
  | .mi w d i => m.width w && d.ok m w && immOk w i
/-- TEST. -/
def TestOps.ok (m : CMode) : TestOps → Bool
  | .mr w d s => m.width w && pairOk m w d w s
  | .mi w d i => m.width w && d.ok m w && immOk w i
/-- Shifts and rotates. -/
def ShiftOps.ok (m : CMode) (o : ShiftOps) : Bool := m.width o.w && o.dst.ok m o.w
/-- SHLD, SHRD: by CL or an immediate. -/
def DShiftOps.ok (m : CMode) (o : DShiftOps) : Bool :=
  m.osize o.w && o.dst.ok m o.w && m.reg o.src && decide (o.cnt ≠ .one)
/-- One r/m operand of any width. -/
def RmOp.ok (m : CMode) (o : RmOp) : Bool := m.width o.w && o.rm.ok m o.w
/-- One r/m operand of 16, 32 or 64 bits. -/
def RmOp.okWide (m : CMode) (o : RmOp) : Bool := m.osize o.w && o.rm.ok m o.w
/-- POP r/m. -/
def RmOp.okStack (m : CMode) (o : RmOp) : Bool := m.stack o.w && o.rm.ok m o.w
/-- r/m, r. -/
def MrOps.ok (m : CMode) (o : MrOps) : Bool := m.width o.w && pairOk m o.w o.dst o.w o.src
/-- ARPL: 16 bits, not in 64-bit mode. -/
def MrOps.okArpl (m : CMode) (o : MrOps) : Bool := !m.long && decide (o.w = .w16) && pairOk m o.w o.dst o.w o.src
/-- r, r/m by operand size. -/
def RegRm.ok (m : CMode) (o : RegRm) : Bool := m.osize o.w && m.reg o.dst && o.src.ok m o.w
/-- r, r/m of 32 or 64 bits by W. -/
def RegRm.okY (m : CMode) (o : RegRm) : Bool := m.ysize o.w && m.reg o.dst && o.src.ok m o.w
/-- The same under VEX. -/
def RegRm.okVex (m : CMode) (o : RegRm) : Bool := m.vex && o.okY m
/-- IMUL. -/
def ImulOps.ok (m : CMode) : ImulOps → Bool
  | .one w s => m.width w && s.ok m w
  | .two w d s => m.osize w && m.reg d && s.ok m w
  | .three w d s i => m.osize w && m.reg d && s.ok m w && immOk w i
/-- BT and its kin. -/
def BitOps.ok (m : CMode) (o : BitOps) : Bool :=
  m.osize o.w && o.dst.ok m o.w && (match o.src with | .reg r => m.reg r | .imm _ => true)
/-- MOVSX, MOVZX: from 8 or 16 bits. -/
def ExtOps.ok (m : CMode) (o : ExtOps) : Bool :=
  m.osize o.w && decide (o.sw = .w8 ∨ o.sw = .w16) && pairOk m o.sw o.src o.w (.lo o.dst)
/-- MOVSXD. -/
def ExtOps.okD (m : CMode) (o : ExtOps) : Bool :=
  m.long && m.osize o.w && decide (o.sw = if o.w = .w16 then .w16 else .w32) && m.reg o.dst && o.src.ok m o.sw
/-- CRC32: to r32 from 8, 16 or 32 bits, to r64 from 8 or 64 bits. -/
def CrcOps.ok (m : CMode) (o : CrcOps) : Bool :=
  m.ysize o.w && (if o.w = .w64 then decide (o.sw = .w8 ∨ o.sw = .w64) else decide (o.sw ≠ .w64)) &&
  o.src.ok m o.sw && m.reg o.dst && !(o.src.high && (decide (8 ≤ o.dst.val) || decide (o.w = .w64)))
/-- BSWAP, RDRAND, RDSEED. -/
def RegOp.ok (m : CMode) (o : RegOp) : Bool := m.osize o.w && m.reg o.reg
/-- RDFSBASE and its kin: 64-bit mode only. -/
def RegOp.okBase (m : CMode) (o : RegOp) : Bool := m.long && m.ysize o.w && m.reg o.reg
/-- r, m by operand size. -/
def RegMem.ok (m : CMode) (o : RegMem) : Bool := m.osize o.w && m.reg o.reg && o.mem.ok m
/-- r, m by W: MOVNTI. -/
def RegMem.okY (m : CMode) (o : RegMem) : Bool := m.ysize o.w && m.reg o.reg && o.mem.ok m
/-- BOUND, LES, LDS: not in 64-bit mode. -/
def RegMem.okLegacy (m : CMode) (o : RegMem) : Bool := !m.long && o.ok m
/-- INVPCID: the register has 64 bits in 64-bit mode and 32 elsewhere. -/
def RegMem.okMode (m : CMode) (o : RegMem) : Bool :=
  decide (o.w = if m.long then .w64 else .w32) && m.reg o.reg && o.mem.ok m
/-- MOVBE. -/
def MovbeOps.ok (m : CMode) : MovbeOps → Bool
  | .load w r a => m.osize w && m.reg r && a.ok m
  | .store w a r => m.osize w && m.reg r && a.ok m
/-- Three general operands under VEX. -/
def Vg3.ok (m : CMode) (o : Vg3) : Bool := m.vex && m.ysize o.w && m.reg o.dst && m.reg o.a && o.b.ok m o.w
/-- RORX. -/
def RorxOps.ok (m : CMode) (o : RorxOps) : Bool := m.vex && m.ysize o.w && m.reg o.dst && o.src.ok m o.w
/-- PUSH: CS, SS, DS and ES only outside 64-bit mode. -/
def PushOps.ok (m : CMode) : PushOps → Bool
  | .rm w s => m.stack w && s.ok m w
  | .imm w v => m.stack w && immOk w v
  | .seg w r => m.stack w && (!m.long || decide (r = .fs ∨ r = .gs))
/-- POP Sreg: never CS. -/
def SegOp.ok (m : CMode) (o : SegOp) : Bool :=
  m.stack o.w && decide (o.seg ≠ .cs) && (!m.long || decide (o.seg = .fs ∨ o.seg = .gs))
/-- MOV: an immediate for memory has at most 32 bits, sign-extended. -/
def MovOps.ok (m : CMode) : MovOps → Bool
  | .mr w d s => m.width w && pairOk m w d w s
  | .rm w d s => m.width w && pairOk m w s w d
  | .mi w d i => m.width w && d.ok m w && (match d with
      | .reg _ => decide (i.toNat < 2 ^ w.bits)
      | .mem _ => if w = .w64 then decide ((i.setWidth 32).signExtend 64 = i) else decide (i.toNat < 2 ^ w.bits))
  | .fromMoffs w a => m.width w && a.ok m
  | .toMoffs w a => m.width w && a.ok m
/-- MOV Sreg. -/
def MovSegOps.ok (m : CMode) : MovSegOps → Bool
  | .load r s => decide (r ≠ .cs) && s.ok m .w16
  | .store w d _ => (match d with | .reg _ => m.osize w | .mem _ => decide (w = .w16)) && d.ok m w
/-- MOV CR: 0, 2, 3, 4 and 8; 8 needs REX.R. -/
def MovCrOps.ok (m : CMode) : MovCrOps → Bool
  | .load c r => m.reg r && (m.long || decide (c.val < 8))
  | .store r c => m.reg r && (m.long || decide (c.val < 8))
/-- MOV DR. -/
def MovDrOps.ok (m : CMode) : MovDrOps → Bool
  | .load _ r => m.reg r
  | .store r _ => m.reg r
/-- A conditional jump. -/
def JccOps.ok (m : CMode) (o : JccOps) : Bool := m.branch o.w && (m.long || immOk o.w o.rel)
/-- LOOP and its kin. -/
def LoopOps.ok (m : CMode) (o : LoopOps) : Bool := m.branch o.w && m.addr o.a
/-- JCXZ, JECXZ, JRCXZ. -/
def JcxzOps.ok (m : CMode) (a : ASize) (o : JcxzOps) : Bool := m.branch o.w && m.addr a
/-- A far pointer in the instruction: not in 64-bit mode. -/
def FarPtr.ok (m : CMode) (o : FarPtr) : Bool :=
  !m.long && (decide (o.w = .w32) || (decide (o.w = .w16) && decide (o.off.toNat < 2 ^ 16)))
/-- A far pointer in memory. -/
def FarMem.ok (m : CMode) (o : FarMem) : Bool := m.osize o.w && o.mem.ok m
/-- A descriptor-table operand: 64-bit base in 64-bit mode. -/
def FarMem.okTable (m : CMode) (o : FarMem) : Bool := m.branch o.w && o.mem.ok m
/-- CALL. -/
def CallOps.ok (m : CMode) : CallOps → Bool
  | .rel w d => m.branch w && (m.long || immOk w d)
  | .ind w t => m.branch w && t.ok m w
  | .ptr p => p.ok m
  | .far p => p.ok m
/-- Near JMP. -/
def JmpOps.ok (m : CMode) : JmpOps → Bool
  | .rel w d => m.branch w && (m.long || immOk w d)
  | .ind w t => m.branch w && t.ok m w
/-- Far JMP. -/
def FarOps.ok (m : CMode) : FarOps → Bool
  | .ptr p => p.ok m
  | .far p => p.ok m
/-- Near RET. -/
def RetOps.ok (m : CMode) (o : RetOps) : Bool := m.branch o.w
/-- Far RET. -/
def RetOps.okFar (m : CMode) (o : RetOps) : Bool := m.osize o.w
/-- ENTER. -/
def EnterOps.ok (m : CMode) (o : EnterOps) : Bool := m.stack o.w
/-- IN, OUT: 8, 16 or 32 bits. -/
def IoOps.ok (_ : CMode) (o : IoOps) : Bool := decide (o.w ≠ .w64)
/-- A string instruction with a segment override. -/
def StrOps.ok (m : CMode) (o : StrOps) : Bool := m.width o.w && m.addr o.a && m.ovr (some o.ovr)
/-- INS and OUTS with a segment override: 8, 16 or 32 bits. -/
def StrOps.okIo (m : CMode) (o : StrOps) : Bool := o.ok m && decide (o.w ≠ .w64)
/-- A repeated string instruction. -/
def RepArgs.ok (m : CMode) (o : RepArgs) : Bool := m.width o.w && m.addr o.a && m.ovr o.ovr
/-- REP. -/
def RepOp.ok (m : CMode) : RepOp → Bool
  | .ins o => o.ok m && decide (o.w ≠ .w64)
  | .outs o => o.ok m && decide (o.w ≠ .w64)
  | .movs o => o.ok m
  | .lods o => o.ok m
  | .stos o => o.ok m
/-- REPE, REPNE. -/
def RepCmpOp.ok (m : CMode) : RepCmpOp → Bool
  | .cmps o => o.ok m
  | .scas o => o.ok m
/-- XLAT with a segment override. -/
def XlatOps.ok (m : CMode) (o : XlatOps) : Bool := m.addr o.a && m.ovr (some o.ovr)
/-- MONITOR. -/
def MonOps.ok (m : CMode) (o : MonOps) : Bool := m.addr o.a && m.ovr o.ovr
/-- XBEGIN: operand size by the mode and 66H. -/
def XbeginOps.ok (m : CMode) (o : XbeginOps) : Bool := m.osize o.w && immOk o.w o.rel
/-- MASKMOVQ. -/
def MMask.ok (m : CMode) (o : MMask) : Bool := m.addr o.a && m.ovr o.ovr
/-- MASKMOVDQU. -/
def XMask.ok (m : CMode) (o : XMask) : Bool := m.addr o.a && m.ovr o.ovr && m.reg o.src && m.reg o.mask
/-- VMASKMOVDQU. -/
def XMask.okVex (m : CMode) (o : XMask) : Bool := m.vex && o.ok m
/-- What LOCK may qualify. -/
def Lockable.ok (m : CMode) : Lockable → Bool
  | .aluReg _ w a r => m.width w && pairOk m w (.mem a) w r
  | .aluImm _ w a i => m.width w && a.ok m && immOk w i
  | .bit _ w a s => BitOps.ok m ⟨w, .mem a, s⟩
  | .un _ w a => m.width w && a.ok m
  | .cmpxchg w a r => m.width w && pairOk m w (.mem a) w r
  | .xadd w a r => m.width w && pairOk m w (.mem a) w r
  | .xchg w a r => m.width w && pairOk m w (.mem a) w r
  | .cmpxchg8b a => a.ok m
  | .cmpxchg16b a => m.long && a.ok m
/-- XACQUIRE. -/
def AcquireOp.ok (m : CMode) : AcquireOp → Bool
  | .locked o => o.ok m
  | .xchg w a r => m.width w && pairOk m w (.mem a) w r
/-- XRELEASE. -/
def ReleaseOp.ok (m : CMode) : ReleaseOp → Bool
  | .locked o => o.ok m
  | .xchg w a r => m.width w && pairOk m w (.mem a) w r
  | .movReg w a r => m.width w && pairOk m w (.mem a) w r
  | .movImm w a i => m.width w && a.ok m && immOk w i
/-- FADD and its kin. -/
def FpArith.ok (m : CMode) : FpArith → Bool
  | .m32 a => a.ok m
  | .m64 a => a.ok m
  | .st0 _ => true
  | .sti _ => true
/-- FCOM, FCOMP: ST(i) by D8; FST: by DD. -/
def FpCom.ok (m : CMode) : FpCom → Bool
  | .m32 a => a.ok m
  | .m64 a => a.ok m
  | .st _ => true
/-- FLD, FSTP. -/
def FpLd.ok (m : CMode) : FpLd → Bool
  | .m32 a => a.ok m
  | .m64 a => a.ok m
  | .m80 a => a.ok m
  | .st _ => true
/-- Integer operands of x87 instructions. -/
def FpInt.ok (m : CMode) : FpInt → Bool
  | .m16 a => a.ok m
  | .m32 a => a.ok m
/-- Integer operands of x87 loads and stores. -/
def FpInt64.ok (m : CMode) : FpInt64 → Bool
  | .m16 a => a.ok m
  | .m32 a => a.ok m
  | .m64 a => a.ok m
/-- x87 environment and state images: the operand size without REX.W (rule R390). -/
def FpEnv.ok (m : CMode) (o : FpEnv) : Bool := decide (o.w = .w16 ∨ o.w = .w32) && o.mem.ok m
/-- FNSTSW. -/
def FpSw.ok (m : CMode) : FpSw → Bool
  | .mem a => a.ok m
  | .ax => true
/-- xmm, xmm/m. -/
def XX.ok (m : CMode) (o : XX) : Bool := m.reg o.dst && o.src.ok m
/-- xmm, xmm/m, imm8. -/
def XXI.ok (m : CMode) (o : XXI) : Bool := m.reg o.dst && o.src.ok m
/-- A string comparison. -/
def StrCmp.ok (m : CMode) (o : StrCmp) : Bool := m.ysize o.w && m.reg o.dst && o.src.ok m
/-- mm or xmm. -/
def MX.ok (m : CMode) : MX → Bool
  | .mm _ s => s.ok m
  | .xx d s => m.reg d && s.ok m
/-- mm or xmm, imm8. -/
def MXI.ok (m : CMode) : MXI → Bool
  | .mm _ s _ => s.ok m
  | .xx d s _ => m.reg d && s.ok m
/-- Packed shifts. -/
def MShift.ok (m : CMode) : MShift → Bool
  | .mm _ c => c.ok m
  | .xx d c => m.reg d && c.ok m
  | .mmI _ _ => true
  | .xxI d _ => m.reg d
/-- PSHUFW. -/
def MMI.ok (m : CMode) (o : MMI) : Bool := o.src.ok m
/-- PSLLDQ, PSRLDQ. -/
def XI.ok (m : CMode) (o : XI) : Bool := m.reg o.dst
/-- xmm moves. -/
def XMov.ok (m : CMode) : XMov → Bool
  | .load d s => m.reg d && s.ok m
  | .store d s => d.ok m && m.reg s
/-- xmm and memory moves. -/
def XMemMov.ok (m : CMode) : XMemMov → Bool
  | .load d a => m.reg d && a.ok m
  | .store a s => a.ok m && m.reg s
/-- xmm, m. -/
def XMem.ok (m : CMode) (o : XMem) : Bool := m.reg o.dst && o.mem.ok m
/-- m, xmm. -/
def MemX.ok (m : CMode) (o : MemX) : Bool := m.reg o.src && o.mem.ok m
/-- xmm, xmm. -/
def XReg.ok (m : CMode) (o : XReg) : Bool := m.reg o.dst && m.reg o.src
/-- MOVNTQ. -/
def MemM.ok (m : CMode) (o : MemM) : Bool := o.mem.ok m
/-- mm, xmm/m. -/
def MXm.ok (m : CMode) (o : MXm) : Bool := o.src.ok m
/-- xmm, mm/m64. -/
def XMm.ok (m : CMode) (o : XMm) : Bool := m.reg o.dst && o.src.ok m
/-- r32 or r64, xmm/m. -/
def GX.ok (m : CMode) (o : GX) : Bool := m.ysize o.w && m.reg o.dst && o.src.ok m
/-- The same under VEX. -/
def GX.okVex (m : CMode) (o : GX) : Bool := m.vex && o.ok m
/-- xmm, r/m. -/
def XG.ok (m : CMode) (o : XG) : Bool := m.ysize o.w && m.reg o.dst && o.src.ok m o.w
/-- PMOVMSKB. -/
def GMask.ok (m : CMode) : GMask → Bool
  | .mm d _ => m.reg d
  | .xx d s => m.reg d && m.reg s
/-- A general register or memory and an xmm register, of 32 bits at least. -/
def ExtrOps.ok (m : CMode) (w : Width) (o : ExtrOps) : Bool := m.ysize w && o.dst.ok m w && m.reg o.src
/-- The same under VEX. -/
def ExtrOps.okVex (m : CMode) (w : Width) (o : ExtrOps) : Bool := m.vex && o.ok m w
/-- PEXTRW. -/
def PextrwOps.ok (m : CMode) : PextrwOps → Bool
  | .mm d _ _ => m.reg d
  | .xx d s _ => m.reg d && m.reg s
  | .xrm d s _ => d.ok m .w32 && m.reg s
/-- PINSRB, PINSRD, PINSRQ. -/
def InsOps.ok (m : CMode) (w : Width) (o : InsOps) : Bool := m.ysize w && m.reg o.dst && o.src.ok m w
/-- PINSRW. -/
def PinsrwOps.ok (m : CMode) : PinsrwOps → Bool
  | .mm _ s _ => s.ok m .w32
  | .xx d s _ => m.reg d && s.ok m .w32
/-- MOVD (32 bits), MOVQ (64 bits). -/
def MovdOps.ok (m : CMode) (w : Width) : MovdOps → Bool
  | .toMm _ s => m.ysize w && s.ok m w
  | .fromMm d _ => m.ysize w && d.ok m w
  | .toX d s => m.ysize w && m.reg d && s.ok m w
  | .fromX d s => m.ysize w && d.ok m w && m.reg s
/-- MOVQ between vector registers and memory. -/
def MovqOps.ok (m : CMode) : MovqOps → Bool
  | .mmLoad _ s => s.ok m
  | .mmStore d _ => d.ok m
  | .xLoad d s => m.reg d && s.ok m
  | .xStore d s => d.ok m && m.reg s
/-- MOVDQ2Q. -/
def Dq2qOps.ok (m : CMode) (o : Dq2qOps) : Bool := m.reg o.src
/-- MOVQ2DQ. -/
def Q2dqOps.ok (m : CMode) (o : Q2dqOps) : Bool := m.reg o.dst

/-- The vector lengths a VEX form has. -/
inductive Lens where
  | l128 | l256 | both
deriving DecidableEq, Repr

/-- Is the length one of them? -/
def Lens.has : Lens → VLen → Bool
  | .both, _ => true
  | .l128, l => decide (l = .l128)
  | .l256, l => decide (l = .l256)

/-- VEX: vector, vector/m. -/
def VX.ok (m : CMode) (ls : Lens) (o : VX) : Bool := m.vex && ls.has o.l && m.reg o.dst && o.src.ok m
/-- VEX: vector, vector/m, imm8. -/
def VXI.ok (m : CMode) (ls : Lens) (o : VXI) : Bool := m.vex && ls.has o.l && m.reg o.dst && o.src.ok m
/-- VEX: vector, vector, vector/m. -/
def VVX.ok (m : CMode) (ls : Lens) (o : VVX) : Bool := m.vex && ls.has o.l && m.reg o.dst && m.reg o.a && o.b.ok m
/-- VEX: vector, vector, vector/m, imm8. -/
def VVXI.ok (m : CMode) (ls : Lens) (o : VVXI) : Bool := m.vex && ls.has o.l && m.reg o.dst && m.reg o.a && o.b.ok m
/-- VEX: four vector operands. -/
def VVXR.ok (m : CMode) (ls : Lens) (o : VVXR) : Bool :=
  m.vex && ls.has o.l && m.reg o.dst && m.reg o.a && o.b.ok m && m.reg o.c
/-- VEX packed shifts. -/
def VShift.ok (m : CMode) (ls : Lens) : VShift → Bool
  | .vec l d a c => m.vex && ls.has l && m.reg d && m.reg a && c.ok m
  | .imm l d s _ => m.vex && ls.has l && m.reg d && m.reg s
/-- VPSLLDQ, VPSRLDQ. -/
def VVI.ok (m : CMode) (ls : Lens) (o : VVI) : Bool := m.vex && ls.has o.l && m.reg o.dst && m.reg o.src
/-- VEX moves. -/
def VMov.ok (m : CMode) (ls : Lens) : VMov → Bool
  | .load l d s => m.vex && ls.has l && m.reg d && s.ok m
  | .store l d s => m.vex && ls.has l && d.ok m && m.reg s
/-- VMOVHPD and its kin. -/
def VHalfMov.ok (m : CMode) : VHalfMov → Bool
  | .load d a p => m.vex && m.reg d && m.reg a && p.ok m
  | .store p s => m.vex && p.ok m && m.reg s
/-- VEX: vector, m. -/
def VXMem.ok (m : CMode) (ls : Lens) (o : VXMem) : Bool := m.vex && ls.has o.l && m.reg o.dst && o.mem.ok m
/-- VEX: m, vector. -/
def VMemX.ok (m : CMode) (ls : Lens) (o : VMemX) : Bool := m.vex && ls.has o.l && m.reg o.src && o.mem.ok m
/-- VEX masked moves. -/
def VMaskMov.ok (m : CMode) (ls : Lens) : VMaskMov → Bool
  | .load l d k p => m.vex && ls.has l && m.reg d && m.reg k && p.ok m
  | .store l p k s => m.vex && ls.has l && p.ok m && m.reg k && m.reg s
/-- VEX: three xmm registers. -/
def VReg3.ok (m : CMode) (o : VReg3) : Bool := m.vex && m.reg o.dst && m.reg o.a && m.reg o.b
/-- VEX: masks. -/
def VGMask.ok (m : CMode) (ls : Lens) (o : VGMask) : Bool := m.vex && ls.has o.l && m.reg o.dst && m.reg o.src
/-- VEX: xmm, xmm, r/m. -/
def VXG.ok (m : CMode) (o : VXG) : Bool := m.vex && m.ysize o.w && m.reg o.dst && m.reg o.a && o.src.ok m o.w
/-- VEX: xmm, xmm, r/m, imm8. -/
def VInsOps.ok (m : CMode) (w : Width) (o : VInsOps) : Bool :=
  m.vex && m.ysize w && m.reg o.dst && m.reg o.a && o.src.ok m w
/-- VMOVD, VMOVQ. -/
def VMovd.ok (m : CMode) (w : Width) : VMovd → Bool
  | .load d s => m.vex && m.ysize w && m.reg d && s.ok m w
  | .store d s => m.vex && m.ysize w && d.ok m w && m.reg s
/-- VMOVSS, VMOVSD. -/
def VScalarMov.ok (m : CMode) : VScalarMov → Bool
  | .reg d a b => m.vex && m.reg d && m.reg a && m.reg b
  | .load d p => m.vex && m.reg d && p.ok m
  | .store p s => m.vex && p.ok m && m.reg s
/-- VEXTRACTF128 and its kin. -/
def VExtOps.ok (m : CMode) (ls : Lens) (o : VExtOps) : Bool := m.vex && ls.has o.l && o.dst.ok m && m.reg o.src
/-- VPERMILPS, VPERMILPD. -/
def VPermil.ok (m : CMode) (ls : Lens) : VPermil → Bool
  | .vec o => o.ok m ls
  | .imm o => o.ok m ls
/-- The gathers. -/
def VGather.ok (m : CMode) (ls : Lens) (o : VGather) : Bool :=
  m.vex && ls.has o.l && m.reg o.dst && m.reg o.mask && o.mem.ok m

/-- The decoder can produce the instruction in the mode. -/
def Instr.wf (m : CMode) (i : Instr) : Bool :=
  match i with
  | .aaa => !m.long
  | .aad _ => !m.long
  | .aam _ => !m.long
  | .aas => !m.long
  | .adc o => o.ok m
  | .adcx o => o.okY m
  | .add o => o.ok m
  | .addpd o => o.ok m
  | .vaddpd o => o.ok m .both
  | .addps o => o.ok m
  | .vaddps o => o.ok m .both
  | .addsd o => o.ok m
  | .vaddsd o => o.ok m .l128
  | .addss o => o.ok m
  | .vaddss o => o.ok m .l128
  | .addsubpd o => o.ok m
  | .vaddsubpd o => o.ok m .both
  | .addsubps o => o.ok m
  | .vaddsubps o => o.ok m .both
  | .adox o => o.okY m
  | .aesdec o => o.ok m
  | .vaesdec o => o.ok m .l128
  | .aesdeclast o => o.ok m
  | .vaesdeclast o => o.ok m .l128
  | .aesenc o => o.ok m
  | .vaesenc o => o.ok m .l128
  | .aesenclast o => o.ok m
  | .vaesenclast o => o.ok m .l128
  | .aesimc o => o.ok m
  | .vaesimc o => o.ok m .l128
  | .aeskeygenassist o => o.ok m
  | .vaeskeygenassist o => o.ok m .l128
  | .and o => o.ok m
  | .andn o => o.ok m
  | .andpd o => o.ok m
  | .vandpd o => o.ok m .both
  | .andps o => o.ok m
  | .vandps o => o.ok m .both
  | .andnpd o => o.ok m
  | .vandnpd o => o.ok m .both
  | .andnps o => o.ok m
  | .vandnps o => o.ok m .both
  | .arpl o => o.okArpl m
  | .blendpd o => o.ok m
  | .vblendpd o => o.ok m .both
  | .bextr o => o.ok m
  | .blendps o => o.ok m
  | .vblendps o => o.ok m .both
  | .blendvpd o => o.ok m
  | .vblendvpd o => o.ok m .both
  | .blendvps o => o.ok m
  | .vblendvps o => o.ok m .both
  | .blsi o => o.okVex m
  | .blsmsk o => o.okVex m
  | .blsr o => o.okVex m
  | .bound o => o.okLegacy m
  | .bsf o => o.ok m
  | .bsr o => o.ok m
  | .bswap o => o.ok m
  | .bt o => o.ok m
  | .btc o => o.ok m
  | .btr o => o.ok m
  | .bts o => o.ok m
  | .bzhi o => o.ok m
  | .call o => o.ok m
  | .cbw => true
  | .cwde => true
  | .cdqe => m.long
  | .clac => true
  | .clc => true
  | .cld => true
  | .clflush o => o.ok m
  | .cli => true
  | .clts => true
  | .cmc => true
  | .cmovo o => o.ok m
  | .cmovno o => o.ok m
  | .cmovb o => o.ok m
  | .cmovae o => o.ok m
  | .cmove o => o.ok m
  | .cmovne o => o.ok m
  | .cmovbe o => o.ok m
  | .cmova o => o.ok m
  | .cmovs o => o.ok m
  | .cmovns o => o.ok m
  | .cmovp o => o.ok m
  | .cmovnp o => o.ok m
  | .cmovl o => o.ok m
  | .cmovge o => o.ok m
  | .cmovle o => o.ok m
  | .cmovg o => o.ok m
  | .cmp o => o.ok m
  | .cmppd o => o.ok m
  | .vcmppd o => o.ok m .both
  | .cmpps o => o.ok m
  | .vcmpps o => o.ok m .both
  | .cmps o => o.ok m
  | .cmpsb o => m.addr o
  | .cmpsw o => m.addr o
  | .cmpsdStr o => m.addr o
  | .cmpsq o => m.long && m.addr o
  | .cmpsdSse o => o.ok m
  | .vcmpsd o => o.ok m .l128
  | .cmpss o => o.ok m
  | .vcmpss o => o.ok m .l128
  | .cmpxchg o => o.ok m
  | .cmpxchg8b o => o.ok m
  | .cmpxchg16b o => m.long && o.ok m
  | .comisd o => o.ok m
  | .vcomisd o => o.ok m .l128
  | .comiss o => o.ok m
  | .vcomiss o => o.ok m .l128
  | .cpuid => true
  | .crc32 o => o.ok m
  | .cvtdq2pd o => o.ok m
  | .vcvtdq2pd o => o.ok m .both
  | .cvtdq2ps o => o.ok m
  | .vcvtdq2ps o => o.ok m .both
  | .cvtpd2dq o => o.ok m
  | .vcvtpd2dq o => o.ok m .both
  | .cvtpd2ps o => o.ok m
  | .vcvtpd2ps o => o.ok m .both
  | .cvtps2dq o => o.ok m
  | .vcvtps2dq o => o.ok m .both
  | .cvtps2pd o => o.ok m
  | .vcvtps2pd o => o.ok m .both
  | .cvttpd2dq o => o.ok m
  | .vcvttpd2dq o => o.ok m .both
  | .cvttps2dq o => o.ok m
  | .vcvttps2dq o => o.ok m .both
  | .cvtpd2pi o => o.ok m
  | .cvttpd2pi o => o.ok m
  | .cvtpi2pd o => o.ok m
  | .cvtpi2ps o => o.ok m
  | .cvtps2pi o => o.ok m
  | .cvttps2pi o => o.ok m
  | .cvtsd2si o => o.ok m
  | .vcvtsd2si o => o.okVex m
  | .cvttsd2si o => o.ok m
  | .vcvttsd2si o => o.okVex m
  | .cvtss2si o => o.ok m
  | .vcvtss2si o => o.okVex m
  | .cvttss2si o => o.ok m
  | .vcvttss2si o => o.okVex m
  | .cvtsi2sd o => o.ok m
  | .vcvtsi2sd o => o.ok m
  | .cvtsi2ss o => o.ok m
  | .vcvtsi2ss o => o.ok m
  | .cvtsd2ss o => o.ok m
  | .vcvtsd2ss o => o.ok m .l128
  | .cvtss2sd o => o.ok m
  | .vcvtss2sd o => o.ok m .l128
  | .cwd => true
  | .cdq => true
  | .cqo => m.long
  | .daa => !m.long
  | .das => !m.long
  | .dec o => o.ok m
  | .div o => o.ok m
  | .divpd o => o.ok m
  | .vdivpd o => o.ok m .both
  | .divps o => o.ok m
  | .vdivps o => o.ok m .both
  | .divsd o => o.ok m
  | .vdivsd o => o.ok m .l128
  | .divss o => o.ok m
  | .vdivss o => o.ok m .l128
  | .dppd o => o.ok m
  | .vdppd o => o.ok m .l128
  | .dpps o => o.ok m
  | .vdpps o => o.ok m .both
  | .emms => true
  | .enter o => o.ok m
  | .extractps o => o.ok m .w32
  | .vextractps o => o.okVex m .w32
  | .f2xm1 => true
  | .fabs => true
  | .fadd o => o.ok m
  | .faddp _ => true
  | .fiadd o => o.ok m
  | .fbld o => o.ok m
  | .fbstp o => o.ok m
  | .fchs => true
  | .fnclex => true
  | .fclex => false
  | .fcmovb _ => true
  | .fcmove _ => true
  | .fcmovbe _ => true
  | .fcmovu _ => true
  | .fcmovnb _ => true
  | .fcmovne _ => true
  | .fcmovnbe _ => true
  | .fcmovnu _ => true
  | .fcom o => o.ok m
  | .fcomp o => o.ok m
  | .fcompp => true
  | .fcomi _ => true
  | .fcomip _ => true
  | .fucomi _ => true
  | .fucomip _ => true
  | .fcos => true
  | .fdecstp => true
  | .fdiv o => o.ok m
  | .fdivp _ => true
  | .fidiv o => o.ok m
  | .fdivr o => o.ok m
  | .fdivrp _ => true
  | .fidivr o => o.ok m
  | .ffree _ => true
  | .ficom o => o.ok m
  | .ficomp o => o.ok m
  | .fild o => o.ok m
  | .fincstp => true
  | .fninit => true
  | .finit => false
  | .fist o => o.ok m
  | .fistp o => o.ok m
  | .fisttp o => o.ok m
  | .fld o => o.ok m
  | .fld1 => true
  | .fldl2t => true
  | .fldl2e => true
  | .fldpi => true
  | .fldlg2 => true
  | .fldln2 => true
  | .fldz => true
  | .fldcw o => o.ok m
  | .fldenv o => o.ok m
  | .fmul o => o.ok m
  | .fmulp _ => true
  | .fimul o => o.ok m
  | .fnop => true
  | .fpatan => true
  | .fprem => true
  | .fprem1 => true
  | .fptan => true
  | .frndint => true
  | .frstor o => o.ok m
  | .fnsave o => o.ok m
  | .fsave _ => false
  | .fscale => true
  | .fsin => true
  | .fsincos => true
  | .fsqrt => true
  | .fst o => o.ok m
  | .fstp o => o.ok m
  | .fnstcw o => o.ok m
  | .fstcw _ => false
  | .fnstenv o => o.ok m
  | .fstenv _ => false
  | .fnstsw o => o.ok m
  | .fstsw _ => false
  | .fsub o => o.ok m
  | .fsubp _ => true
  | .fisub o => o.ok m
  | .fsubr o => o.ok m
  | .fsubrp _ => true
  | .fisubr o => o.ok m
  | .ftst => true
  | .fucom _ => true
  | .fucomp _ => true
  | .fucompp => true
  | .fxam => true
  | .fxch _ => true
  | .fxrstor o => o.ok m
  | .fxrstor64 o => m.long && o.ok m
  | .fxsave o => o.ok m
  | .fxsave64 o => m.long && o.ok m
  | .fxtract => true
  | .fyl2x => true
  | .fyl2xp1 => true
  | .haddpd o => o.ok m
  | .vhaddpd o => o.ok m .both
  | .haddps o => o.ok m
  | .vhaddps o => o.ok m .both
  | .hsubpd o => o.ok m
  | .vhsubpd o => o.ok m .both
  | .hsubps o => o.ok m
  | .vhsubps o => o.ok m .both
  | .hlt => true
  | .idiv o => o.ok m
  | .imul o => o.ok m
  | .inp o => o.ok m
  | .ins o => o.okIo m
  | .insb o => m.addr o
  | .insw o => m.addr o
  | .insd o => m.addr o
  | .inc o => o.ok m
  | .insertps o => o.ok m
  | .vinsertps o => o.ok m .l128
  | .intN _ => true
  | .int3 => true
  | .into => !m.long
  | .invd => true
  | .invlpg o => o.ok m
  | .invpcid o => o.okMode m
  | .iret => true
  | .iretd => true
  | .iretq => m.long
  | .jo o => o.ok m
  | .jno o => o.ok m
  | .jb o => o.ok m
  | .jae o => o.ok m
  | .je o => o.ok m
  | .jne o => o.ok m
  | .jbe o => o.ok m
  | .ja o => o.ok m
  | .js o => o.ok m
  | .jns o => o.ok m
  | .jp o => o.ok m
  | .jnp o => o.ok m
  | .jl o => o.ok m
  | .jge o => o.ok m
  | .jle o => o.ok m
  | .jg o => o.ok m
  | .jcxz o => o.ok m .a16
  | .jecxz o => o.ok m .a32
  | .jrcxz o => o.ok m .a64
  | .jmpNear o => o.ok m
  | .jmpFar o => o.ok m
  | .lahf => true
  | .lar o => o.ok m
  | .lddqu o => o.ok m
  | .vlddqu o => o.ok m .both
  | .ldmxcsr o => o.ok m
  | .vldmxcsr o => m.vex && o.ok m
  | .lds o => o.okLegacy m
  | .les o => o.okLegacy m
  | .lfs o => o.ok m
  | .lgs o => o.ok m
  | .lss o => o.ok m
  | .lea o => o.ok m
  | .leave o => m.stack o
  | .lfence => true
  | .lgdt o => o.okTable m
  | .lidt o => o.okTable m
  | .lldt o => o.ok m .w16
  | .lmsw o => o.ok m .w16
  | .ltr o => o.ok m .w16
  | .lock o => o.ok m
  | .lods o => o.ok m
  | .lodsb o => m.addr o
  | .lodsw o => m.addr o
  | .lodsd o => m.addr o
  | .lodsq o => m.long && m.addr o
  | .loop o => o.ok m
  | .loope o => o.ok m
  | .loopne o => o.ok m
  | .lsl o => o.ok m
  | .lzcnt o => o.ok m
  | .maskmovdqu o => o.ok m
  | .vmaskmovdqu o => o.okVex m
  | .maskmovq o => o.ok m
  | .maxpd o => o.ok m
  | .vmaxpd o => o.ok m .both
  | .maxps o => o.ok m
  | .vmaxps o => o.ok m .both
  | .maxsd o => o.ok m
  | .vmaxsd o => o.ok m .l128
  | .maxss o => o.ok m
  | .vmaxss o => o.ok m .l128
  | .minpd o => o.ok m
  | .vminpd o => o.ok m .both
  | .minps o => o.ok m
  | .vminps o => o.ok m .both
  | .minsd o => o.ok m
  | .vminsd o => o.ok m .l128
  | .minss o => o.ok m
  | .vminss o => o.ok m .l128
  | .mfence => true
  | .monitor o => o.ok m
  | .mov o => o.ok m
  | .movSeg o => o.ok m
  | .movCr o => o.ok m
  | .movDr o => o.ok m
  | .movapd o => o.ok m
  | .vmovapd o => o.ok m .both
  | .movaps o => o.ok m
  | .vmovaps o => o.ok m .both
  | .movbe o => o.ok m
  | .movd o => o.ok m .w32
  | .movqGp o => o.ok m .w64
  | .vmovd o => o.ok m .w32
  | .vmovqGp o => o.ok m .w64
  | .movddup o => o.ok m
  | .vmovddup o => o.ok m .both
  | .movdqa o => o.ok m
  | .vmovdqa o => o.ok m .both
  | .movdqu o => o.ok m
  | .vmovdqu o => o.ok m .both
  | .movdq2q o => o.ok m
  | .movhlps o => o.ok m
  | .vmovhlps o => o.ok m
  | .movhpd o => o.ok m
  | .vmovhpd o => o.ok m
  | .movhps o => o.ok m
  | .vmovhps o => o.ok m
  | .movlhps o => o.ok m
  | .vmovlhps o => o.ok m
  | .movlpd o => o.ok m
  | .vmovlpd o => o.ok m
  | .movlps o => o.ok m
  | .vmovlps o => o.ok m
  | .movmskpd o => o.ok m
  | .vmovmskpd o => o.ok m .both
  | .movmskps o => o.ok m
  | .vmovmskps o => o.ok m .both
  | .movntdqa o => o.ok m
  | .vmovntdqa o => o.ok m .both
  | .movntdq o => o.ok m
  | .vmovntdq o => o.ok m .both
  | .movnti o => o.okY m
  | .movntpd o => o.ok m
  | .vmovntpd o => o.ok m .both
  | .movntps o => o.ok m
  | .vmovntps o => o.ok m .both
  | .movntq o => o.ok m
  | .movqX o => o.ok m
  | .vmovqX o => o.ok m .l128
  | .movq2dq o => o.ok m
  | .movs o => o.ok m
  | .movsb o => m.addr o
  | .movsw o => m.addr o
  | .movsdStr o => m.addr o
  | .movsq o => m.long && m.addr o
  | .movsdSse o => o.ok m
  | .vmovsd o => o.ok m
  | .movshdup o => o.ok m
  | .vmovshdup o => o.ok m .both
  | .movsldup o => o.ok m
  | .vmovsldup o => o.ok m .both
  | .movss o => o.ok m
  | .vmovss o => o.ok m
  | .movsx o => o.ok m
  | .movsxd o => o.okD m
  | .movupd o => o.ok m
  | .vmovupd o => o.ok m .both
  | .movups o => o.ok m
  | .vmovups o => o.ok m .both
  | .movzx o => o.ok m
  | .mpsadbw o => o.ok m
  | .vmpsadbw o => o.ok m .both
  | .mul o => o.ok m
  | .mulpd o => o.ok m
  | .vmulpd o => o.ok m .both
  | .mulps o => o.ok m
  | .vmulps o => o.ok m .both
  | .mulsd o => o.ok m
  | .vmulsd o => o.ok m .l128
  | .mulss o => o.ok m
  | .vmulss o => o.ok m .l128
  | .mulx o => o.ok m
  | .mwait => true
  | .neg o => o.ok m
  | .nop o => o.all (RmOp.okWide m)
  | .not o => o.ok m
  | .or o => o.ok m
  | .orpd o => o.ok m
  | .vorpd o => o.ok m .both
  | .orps o => o.ok m
  | .vorps o => o.ok m .both
  | .out o => o.ok m
  | .outs o => o.okIo m
  | .outsb o => m.addr o
  | .outsw o => m.addr o
  | .outsd o => m.addr o
  | .pabsb o => o.ok m
  | .vpabsb o => o.ok m .both
  | .pabsw o => o.ok m
  | .vpabsw o => o.ok m .both
  | .pabsd o => o.ok m
  | .vpabsd o => o.ok m .both
  | .packsswb o => o.ok m
  | .vpacksswb o => o.ok m .both
  | .packssdw o => o.ok m
  | .vpackssdw o => o.ok m .both
  | .packusdw o => o.ok m
  | .vpackusdw o => o.ok m .both
  | .packuswb o => o.ok m
  | .vpackuswb o => o.ok m .both
  | .paddb o => o.ok m
  | .vpaddb o => o.ok m .both
  | .paddw o => o.ok m
  | .vpaddw o => o.ok m .both
  | .paddd o => o.ok m
  | .vpaddd o => o.ok m .both
  | .paddq o => o.ok m
  | .vpaddq o => o.ok m .both
  | .paddsb o => o.ok m
  | .vpaddsb o => o.ok m .both
  | .paddsw o => o.ok m
  | .vpaddsw o => o.ok m .both
  | .paddusb o => o.ok m
  | .vpaddusb o => o.ok m .both
  | .paddusw o => o.ok m
  | .vpaddusw o => o.ok m .both
  | .palignr o => o.ok m
  | .vpalignr o => o.ok m .both
  | .pand o => o.ok m
  | .vpand o => o.ok m .both
  | .pandn o => o.ok m
  | .vpandn o => o.ok m .both
  | .pause => true
  | .pavgb o => o.ok m
  | .vpavgb o => o.ok m .both
  | .pavgw o => o.ok m
  | .vpavgw o => o.ok m .both
  | .pblendvb o => o.ok m
  | .vpblendvb o => o.ok m .both
  | .pblendw o => o.ok m
  | .vpblendw o => o.ok m .both
  | .pclmulqdq o => o.ok m
  | .vpclmulqdq o => o.ok m .l128
  | .pcmpeqb o => o.ok m
  | .vpcmpeqb o => o.ok m .both
  | .pcmpeqw o => o.ok m
  | .vpcmpeqw o => o.ok m .both
  | .pcmpeqd o => o.ok m
  | .vpcmpeqd o => o.ok m .both
  | .pcmpeqq o => o.ok m
  | .vpcmpeqq o => o.ok m .both
  | .pcmpgtb o => o.ok m
  | .vpcmpgtb o => o.ok m .both
  | .pcmpgtw o => o.ok m
  | .vpcmpgtw o => o.ok m .both
  | .pcmpgtd o => o.ok m
  | .vpcmpgtd o => o.ok m .both
  | .pcmpgtq o => o.ok m
  | .vpcmpgtq o => o.ok m .both
  | .pcmpestri o => o.ok m
  | .vpcmpestri o => o.ok m .l128
  | .pcmpestrm o => o.ok m
  | .vpcmpestrm o => o.ok m .l128
  | .pcmpistri o => o.ok m
  | .vpcmpistri o => o.ok m .l128
  | .pcmpistrm o => o.ok m
  | .vpcmpistrm o => o.ok m .l128
  | .pdep o => o.ok m
  | .pext o => o.ok m
  | .pextrb o => o.ok m .w32
  | .vpextrb o => o.okVex m .w32
  | .pextrd o => o.ok m .w32
  | .vpextrd o => o.okVex m .w32
  | .pextrq o => o.ok m .w64
  | .vpextrq o => o.okVex m .w64
  | .pextrw o => o.ok m
  | .vpextrw o => o.okVex m .w32
  | .phaddw o => o.ok m
  | .vphaddw o => o.ok m .both
  | .phaddd o => o.ok m
  | .vphaddd o => o.ok m .both
  | .phaddsw o => o.ok m
  | .vphaddsw o => o.ok m .both
  | .phminposuw o => o.ok m
  | .vphminposuw o => o.ok m .l128
  | .phsubw o => o.ok m
  | .vphsubw o => o.ok m .both
  | .phsubd o => o.ok m
  | .vphsubd o => o.ok m .both
  | .phsubsw o => o.ok m
  | .vphsubsw o => o.ok m .both
  | .pinsrb o => o.ok m .w32
  | .vpinsrb o => o.ok m .w32
  | .pinsrd o => o.ok m .w32
  | .vpinsrd o => o.ok m .w32
  | .pinsrq o => o.ok m .w64
  | .vpinsrq o => o.ok m .w64
  | .pinsrw o => o.ok m
  | .vpinsrw o => o.ok m .w32
  | .pmaddubsw o => o.ok m
  | .vpmaddubsw o => o.ok m .both
  | .pmaddwd o => o.ok m
  | .vpmaddwd o => o.ok m .both
  | .pmaxsb o => o.ok m
  | .vpmaxsb o => o.ok m .both
  | .pmaxsd o => o.ok m
  | .vpmaxsd o => o.ok m .both
  | .pmaxsw o => o.ok m
  | .vpmaxsw o => o.ok m .both
  | .pmaxub o => o.ok m
  | .vpmaxub o => o.ok m .both
  | .pmaxud o => o.ok m
  | .vpmaxud o => o.ok m .both
  | .pmaxuw o => o.ok m
  | .vpmaxuw o => o.ok m .both
  | .pminsb o => o.ok m
  | .vpminsb o => o.ok m .both
  | .pminsd o => o.ok m
  | .vpminsd o => o.ok m .both
  | .pminsw o => o.ok m
  | .vpminsw o => o.ok m .both
  | .pminub o => o.ok m
  | .vpminub o => o.ok m .both
  | .pminud o => o.ok m
  | .vpminud o => o.ok m .both
  | .pminuw o => o.ok m
  | .vpminuw o => o.ok m .both
  | .pmovmskb o => o.ok m
  | .vpmovmskb o => o.ok m .both
  | .pmovsxbw o => o.ok m
  | .vpmovsxbw o => o.ok m .both
  | .pmovsxbd o => o.ok m
  | .vpmovsxbd o => o.ok m .both
  | .pmovsxbq o => o.ok m
  | .vpmovsxbq o => o.ok m .both
  | .pmovsxwd o => o.ok m
  | .vpmovsxwd o => o.ok m .both
  | .pmovsxwq o => o.ok m
  | .vpmovsxwq o => o.ok m .both
  | .pmovsxdq o => o.ok m
  | .vpmovsxdq o => o.ok m .both
  | .pmovzxbw o => o.ok m
  | .vpmovzxbw o => o.ok m .both
  | .pmovzxbd o => o.ok m
  | .vpmovzxbd o => o.ok m .both
  | .pmovzxbq o => o.ok m
  | .vpmovzxbq o => o.ok m .both
  | .pmovzxwd o => o.ok m
  | .vpmovzxwd o => o.ok m .both
  | .pmovzxwq o => o.ok m
  | .vpmovzxwq o => o.ok m .both
  | .pmovzxdq o => o.ok m
  | .vpmovzxdq o => o.ok m .both
  | .pmuldq o => o.ok m
  | .vpmuldq o => o.ok m .both
  | .pmulhrsw o => o.ok m
  | .vpmulhrsw o => o.ok m .both
  | .pmulhuw o => o.ok m
  | .vpmulhuw o => o.ok m .both
  | .pmulhw o => o.ok m
  | .vpmulhw o => o.ok m .both
  | .pmulld o => o.ok m
  | .vpmulld o => o.ok m .both
  | .pmullw o => o.ok m
  | .vpmullw o => o.ok m .both
  | .pmuludq o => o.ok m
  | .vpmuludq o => o.ok m .both
  | .pop o => o.okStack m
  | .popSeg o => o.ok m
  | .popa => !m.long
  | .popad => !m.long
  | .popcnt o => o.ok m
  | .popf => true
  | .popfd => !m.long
  | .popfq => m.long
  | .por o => o.ok m
  | .vpor o => o.ok m .both
  | .pxor o => o.ok m
  | .vpxor o => o.ok m .both
  | .prefetcht0 o => o.ok m
  | .prefetcht1 o => o.ok m
  | .prefetcht2 o => o.ok m
  | .prefetchnta o => o.ok m
  | .prefetchw o => o.ok m
  | .prefetchwt1 o => o.ok m
  | .psadbw o => o.ok m
  | .vpsadbw o => o.ok m .both
  | .pshufb o => o.ok m
  | .vpshufb o => o.ok m .both
  | .pshufd o => o.ok m
  | .vpshufd o => o.ok m .both
  | .pshufhw o => o.ok m
  | .vpshufhw o => o.ok m .both
  | .pshuflw o => o.ok m
  | .vpshuflw o => o.ok m .both
  | .pshufw o => o.ok m
  | .psignb o => o.ok m
  | .vpsignb o => o.ok m .both
  | .psignw o => o.ok m
  | .vpsignw o => o.ok m .both
  | .psignd o => o.ok m
  | .vpsignd o => o.ok m .both
  | .pslldq o => o.ok m
  | .vpslldq o => o.ok m .both
  | .psrldq o => o.ok m
  | .vpsrldq o => o.ok m .both
  | .psllw o => o.ok m
  | .vpsllw o => o.ok m .both
  | .pslld o => o.ok m
  | .vpslld o => o.ok m .both
  | .psllq o => o.ok m
  | .vpsllq o => o.ok m .both
  | .psraw o => o.ok m
  | .vpsraw o => o.ok m .both
  | .psrad o => o.ok m
  | .vpsrad o => o.ok m .both
  | .psrlw o => o.ok m
  | .vpsrlw o => o.ok m .both
  | .psrld o => o.ok m
  | .vpsrld o => o.ok m .both
  | .psrlq o => o.ok m
  | .vpsrlq o => o.ok m .both
  | .psubb o => o.ok m
  | .vpsubb o => o.ok m .both
  | .psubw o => o.ok m
  | .vpsubw o => o.ok m .both
  | .psubd o => o.ok m
  | .vpsubd o => o.ok m .both
  | .psubq o => o.ok m
  | .vpsubq o => o.ok m .both
  | .psubsb o => o.ok m
  | .vpsubsb o => o.ok m .both
  | .psubsw o => o.ok m
  | .vpsubsw o => o.ok m .both
  | .psubusb o => o.ok m
  | .vpsubusb o => o.ok m .both
  | .psubusw o => o.ok m
  | .vpsubusw o => o.ok m .both
  | .ptest o => o.ok m
  | .vptest o => o.ok m .both
  | .punpckhbw o => o.ok m
  | .vpunpckhbw o => o.ok m .both
  | .punpckhwd o => o.ok m
  | .vpunpckhwd o => o.ok m .both
  | .punpckhdq o => o.ok m
  | .vpunpckhdq o => o.ok m .both
  | .punpckhqdq o => o.ok m
  | .vpunpckhqdq o => o.ok m .both
  | .punpcklbw o => o.ok m
  | .vpunpcklbw o => o.ok m .both
  | .punpcklwd o => o.ok m
  | .vpunpcklwd o => o.ok m .both
  | .punpckldq o => o.ok m
  | .vpunpckldq o => o.ok m .both
  | .punpcklqdq o => o.ok m
  | .vpunpcklqdq o => o.ok m .both
  | .push o => o.ok m
  | .pusha => !m.long
  | .pushad => !m.long
  | .pushf => true
  | .pushfd => !m.long
  | .pushfq => m.long
  | .rcl o => o.ok m
  | .rcr o => o.ok m
  | .rol o => o.ok m
  | .ror o => o.ok m
  | .rcpps o => o.ok m
  | .vrcpps o => o.ok m .both
  | .rcpss o => o.ok m
  | .vrcpss o => o.ok m .l128
  | .rdfsbase o => o.okBase m
  | .rdgsbase o => o.okBase m
  | .rdmsr => true
  | .rdpkru => true
  | .rdpmc => true
  | .rdrand o => o.ok m
  | .rdseed o => o.ok m
  | .rdtsc => true
  | .rdtscp => true
  | .rep o => o.ok m
  | .repe o => o.ok m
  | .repne o => o.ok m
  | .retNear o => o.ok m
  | .retFar o => o.okFar m
  | .rorx o => o.ok m
  | .roundpd o => o.ok m
  | .vroundpd o => o.ok m .both
  | .roundps o => o.ok m
  | .vroundps o => o.ok m .both
  | .roundsd o => o.ok m
  | .vroundsd o => o.ok m .l128
  | .roundss o => o.ok m
  | .vroundss o => o.ok m .l128
  | .rsm => true
  | .rsqrtps o => o.ok m
  | .vrsqrtps o => o.ok m .both
  | .rsqrtss o => o.ok m
  | .vrsqrtss o => o.ok m .l128
  | .sahf => true
  | .sal _ => false
  | .sar o => o.ok m
  | .shl o => o.ok m
  | .shr o => o.ok m
  | .sarx o => o.ok m
  | .shlx o => o.ok m
  | .shrx o => o.ok m
  | .sbb o => o.ok m
  | .scas o => o.ok m
  | .scasb o => m.addr o
  | .scasw o => m.addr o
  | .scasd o => m.addr o
  | .scasq o => m.long && m.addr o
  | .seto o => o.ok m .w8
  | .setno o => o.ok m .w8
  | .setb o => o.ok m .w8
  | .setae o => o.ok m .w8
  | .sete o => o.ok m .w8
  | .setne o => o.ok m .w8
  | .setbe o => o.ok m .w8
  | .seta o => o.ok m .w8
  | .sets o => o.ok m .w8
  | .setns o => o.ok m .w8
  | .setp o => o.ok m .w8
  | .setnp o => o.ok m .w8
  | .setl o => o.ok m .w8
  | .setge o => o.ok m .w8
  | .setle o => o.ok m .w8
  | .setg o => o.ok m .w8
  | .sfence => true
  | .sgdt o => o.okTable m
  | .shld o => o.ok m
  | .shrd o => o.ok m
  | .shufpd o => o.ok m
  | .vshufpd o => o.ok m .both
  | .shufps o => o.ok m
  | .vshufps o => o.ok m .both
  | .sidt o => o.okTable m
  | .sldt o => o.okWide m
  | .smsw o => o.okWide m
  | .sqrtpd o => o.ok m
  | .vsqrtpd o => o.ok m .both
  | .sqrtps o => o.ok m
  | .vsqrtps o => o.ok m .both
  | .sqrtsd o => o.ok m
  | .vsqrtsd o => o.ok m .l128
  | .sqrtss o => o.ok m
  | .vsqrtss o => o.ok m .l128
  | .stac => true
  | .stc => true
  | .std => true
  | .sti => true
  | .stmxcsr o => o.ok m
  | .vstmxcsr o => m.vex && o.ok m
  | .stos o => o.ok m
  | .stosb o => m.addr o
  | .stosw o => m.addr o
  | .stosd o => m.addr o
  | .stosq o => m.long && m.addr o
  | .str o => o.okWide m
  | .sub o => o.ok m
  | .subpd o => o.ok m
  | .vsubpd o => o.ok m .both
  | .subps o => o.ok m
  | .vsubps o => o.ok m .both
  | .subsd o => o.ok m
  | .vsubsd o => o.ok m .l128
  | .subss o => o.ok m
  | .vsubss o => o.ok m .l128
  | .swapgs => true
  | .syscall => true
  | .sysenter => true
  | .sysexit o => m.ysize o
  | .sysret o => m.ysize o
  | .test o => o.ok m
  | .tzcnt o => o.ok m
  | .ucomisd o => o.ok m
  | .vucomisd o => o.ok m .l128
  | .ucomiss o => o.ok m
  | .vucomiss o => o.ok m .l128
  | .ud2 => true
  | .unpckhpd o => o.ok m
  | .vunpckhpd o => o.ok m .both
  | .unpckhps o => o.ok m
  | .vunpckhps o => o.ok m .both
  | .unpcklpd o => o.ok m
  | .vunpcklpd o => o.ok m .both
  | .unpcklps o => o.ok m
  | .vunpcklps o => o.ok m .both
  | .vbroadcastss o => o.ok m .both
  | .vbroadcastsd o => o.ok m .l256
  | .vbroadcastf128 o => o.ok m .l256
  | .vcvtph2ps o => o.ok m .both
  | .vcvtps2ph o => o.ok m .both
  | .verr o => o.ok m .w16
  | .verw o => o.ok m .w16
  | .vextractf128 o => o.ok m .l256
  | .vextracti128 o => o.ok m .l256
  | .vfmadd132pd o => o.ok m .both
  | .vfmadd213pd o => o.ok m .both
  | .vfmadd231pd o => o.ok m .both
  | .vfmadd132ps o => o.ok m .both
  | .vfmadd213ps o => o.ok m .both
  | .vfmadd231ps o => o.ok m .both
  | .vfmadd132sd o => o.ok m .l128
  | .vfmadd213sd o => o.ok m .l128
  | .vfmadd231sd o => o.ok m .l128
  | .vfmadd132ss o => o.ok m .l128
  | .vfmadd213ss o => o.ok m .l128
  | .vfmadd231ss o => o.ok m .l128
  | .vfmaddsub132pd o => o.ok m .both
  | .vfmaddsub213pd o => o.ok m .both
  | .vfmaddsub231pd o => o.ok m .both
  | .vfmaddsub132ps o => o.ok m .both
  | .vfmaddsub213ps o => o.ok m .both
  | .vfmaddsub231ps o => o.ok m .both
  | .vfmsubadd132pd o => o.ok m .both
  | .vfmsubadd213pd o => o.ok m .both
  | .vfmsubadd231pd o => o.ok m .both
  | .vfmsubadd132ps o => o.ok m .both
  | .vfmsubadd213ps o => o.ok m .both
  | .vfmsubadd231ps o => o.ok m .both
  | .vfmsub132pd o => o.ok m .both
  | .vfmsub213pd o => o.ok m .both
  | .vfmsub231pd o => o.ok m .both
  | .vfmsub132ps o => o.ok m .both
  | .vfmsub213ps o => o.ok m .both
  | .vfmsub231ps o => o.ok m .both
  | .vfmsub132sd o => o.ok m .l128
  | .vfmsub213sd o => o.ok m .l128
  | .vfmsub231sd o => o.ok m .l128
  | .vfmsub132ss o => o.ok m .l128
  | .vfmsub213ss o => o.ok m .l128
  | .vfmsub231ss o => o.ok m .l128
  | .vfnmadd132pd o => o.ok m .both
  | .vfnmadd213pd o => o.ok m .both
  | .vfnmadd231pd o => o.ok m .both
  | .vfnmadd132ps o => o.ok m .both
  | .vfnmadd213ps o => o.ok m .both
  | .vfnmadd231ps o => o.ok m .both
  | .vfnmadd132sd o => o.ok m .l128
  | .vfnmadd213sd o => o.ok m .l128
  | .vfnmadd231sd o => o.ok m .l128
  | .vfnmadd132ss o => o.ok m .l128
  | .vfnmadd213ss o => o.ok m .l128
  | .vfnmadd231ss o => o.ok m .l128
  | .vfnmsub132pd o => o.ok m .both
  | .vfnmsub213pd o => o.ok m .both
  | .vfnmsub231pd o => o.ok m .both
  | .vfnmsub132ps o => o.ok m .both
  | .vfnmsub213ps o => o.ok m .both
  | .vfnmsub231ps o => o.ok m .both
  | .vfnmsub132sd o => o.ok m .l128
  | .vfnmsub213sd o => o.ok m .l128
  | .vfnmsub231sd o => o.ok m .l128
  | .vfnmsub132ss o => o.ok m .l128
  | .vfnmsub213ss o => o.ok m .l128
  | .vfnmsub231ss o => o.ok m .l128
  | .vgatherdpd o => o.ok m .both
  | .vgatherqpd o => o.ok m .both
  | .vgatherdps o => o.ok m .both
  | .vgatherqps o => o.ok m .both
  | .vpgatherdd o => o.ok m .both
  | .vpgatherqd o => o.ok m .both
  | .vpgatherdq o => o.ok m .both
  | .vpgatherqq o => o.ok m .both
  | .vinsertf128 o => o.ok m .l256
  | .vinserti128 o => o.ok m .l256
  | .vmaskmovps o => o.ok m .both
  | .vmaskmovpd o => o.ok m .both
  | .vpblendd o => o.ok m .both
  | .vpbroadcastb o => o.ok m .both
  | .vpbroadcastw o => o.ok m .both
  | .vpbroadcastd o => o.ok m .both
  | .vpbroadcastq o => o.ok m .both
  | .vbroadcasti128 o => o.ok m .l256
  | .vpermd o => o.ok m .l256
  | .vpermpd o => o.ok m .l256
  | .vpermps o => o.ok m .l256
  | .vpermq o => o.ok m .l256
  | .vperm2i128 o => o.ok m .l256
  | .vperm2f128 o => o.ok m .l256
  | .vpermilpd o => o.ok m .both
  | .vpermilps o => o.ok m .both
  | .vpmaskmovd o => o.ok m .both
  | .vpmaskmovq o => o.ok m .both
  | .vpsllvd o => o.ok m .both
  | .vpsllvq o => o.ok m .both
  | .vpsravd o => o.ok m .both
  | .vpsrlvd o => o.ok m .both
  | .vpsrlvq o => o.ok m .both
  | .vtestps o => o.ok m .both
  | .vtestpd o => o.ok m .both
  | .vzeroall => m.vex
  | .vzeroupper => m.vex
  | .wait => true
  | .fwait => false
  | .wbinvd => true
  | .wrfsbase o => o.okBase m
  | .wrgsbase o => o.okBase m
  | .wrmsr => true
  | .wrpkru => true
  | .xacquire o => o.ok m
  | .xrelease o => o.ok m
  | .xabort _ => true
  | .xadd o => o.ok m
  | .xbegin o => o.ok m
  | .xchg o => o.ok m
  | .xend => true
  | .xgetbv => true
  | .xlat o => o.ok m
  | .xlatb o => m.addr o
  | .xor o => o.ok m
  | .xorpd o => o.ok m
  | .vxorpd o => o.ok m .both
  | .xorps o => o.ok m
  | .vxorps o => o.ok m .both
  | .xrstor o => o.ok m
  | .xrstor64 o => m.long && o.ok m
  | .xrstors o => o.ok m
  | .xrstors64 o => m.long && o.ok m
  | .xsave o => o.ok m
  | .xsave64 o => m.long && o.ok m
  | .xsavec o => o.ok m
  | .xsavec64 o => m.long && o.ok m
  | .xsaveopt o => o.ok m
  | .xsaveopt64 o => m.long && o.ok m
  | .xsaves o => o.ok m
  | .xsaves64 o => m.long && o.ok m
  | .xsetbv => true
  | .xtest => true

end Sys2Proof
end

