-- ==== Sys2Proof/Decode.lean ====
section
/-! DEFINITION. The decoder, total on any bytes (spec/30_encoding.md rules R300 to R398, spec/31_opcode_maps.md rules R401 to
R406), and after it the encoder, which writes one encoding of each instruction. -/

namespace Sys2Proof

noncomputable section

/-- Why bytes do not decode: more bytes are needed, the instruction is longer than 15 bytes (rule R301), or no form is
selected or LOCK is not allowed (rule R302 steps 7 and 8). -/
inductive DecodeError where
  | incomplete
  | tooLong
  | undefined
deriving DecidableEq, Repr

/-- F2H and F3H (rule R312). -/
inductive RepPfx where
  | f2 | f3
deriving DecidableEq, Repr

/-- What the prefixes say (rules R310, R350, R360): `w`, `r`, `x`, `b` are the bits of REX or the un-inverted bits of VEX,
`v` is VEX.vvvv and `l` is VEX.L. -/
structure Dec where
  m : CMode
  opsz : Bool := false
  adsz : Bool := false
  lock : Bool := false
  rep : Option RepPfx := none
  seg : Option SReg := none
  rex : Bool := false
  w : Bool := false
  r : Bool := false
  x : Bool := false
  b : Bool := false
  v : Reg := 0
  l : Bool := false
deriving DecidableEq, Repr

/-- A reader of instruction bytes. -/
abbrev P := StateT (List Byte) (Except DecodeError)

/-- The next byte. -/
def P.byte : P Byte := fun bs =>
  match bs with
  | [] => .error .incomplete
  | b :: t => .ok (b, t)

/-- The next n bytes, little-endian (rule R303). -/
def P.le : Nat → P Nat
  | 0 => return 0
  | n + 1 => do
    let b ← P.byte
    let r ← P.le n
    return b.toNat + 256 * r

/-! Sizes. -/

/-- The operand size (rule R320). -/
def Dec.osz (c : Dec) : Width :=
  if c.m.long then (if c.w then .w64 else if c.opsz then .w16 else .w32)
  else if c.m.d32 != c.opsz then .w32 else .w16
/-- The address size (rule R320). -/
def Dec.asz (c : Dec) : ASize :=
  if c.m.long then (if c.adsz then .a32 else .a64) else if c.m.d32 != c.adsz then .a32 else .a16
/-- The size of a stack item (rule R321, d64). -/
def Dec.ssz (c : Dec) : Width := if c.m.long && decide (c.osz = .w32) then .w64 else c.osz
/-- The operand size of a near branch (rule R321, f64). -/
def Dec.bsz (c : Dec) : Width := if c.m.long then .w64 else c.osz
/-- 32 or 64 bits by W (rule R321, letter y). -/
def Dec.ysz (c : Dec) : Width := if c.m.long && c.w then .w64 else .w32
/-- The operand size of an I/O instruction: 64 bits do not exist and REX.W is ignored (spec/20_memory.md rule R270). -/
def Dec.iosz (c : Dec) : Width := if c.m.long then (if c.opsz then .w16 else .w32) else c.osz
/-- Even opcodes have byte operands (rule R320). -/
def Dec.wOf (c : Dec) (op : Nat) : Width := if op % 2 = 0 then .w8 else c.osz

/-! ModRM. -/

/-- A register number with its fourth bit (rule R350). -/
def extReg (hi : Bool) (n : Fin 8) : Reg := if hi then ⟨n.val + 8, by omega⟩ else ⟨n.val, by omega⟩

/-- The reg field and the operand of the r/m field. -/
inductive RawRm where
  | reg (n : Fin 8)
  | mem (a : MemRef)
deriving DecidableEq, Repr

/-- A ModRM byte with what follows it. -/
structure Modrm where
  reg : Fin 8 := 0
  rm : RawRm := .reg 0
deriving DecidableEq, Repr

/-- Bits lo+2 to lo of a byte. -/
def field3 (b : Byte) (lo : Nat) : Fin 8 := ⟨b.toNat / 2 ^ lo % 8, Nat.mod_lt _ (by decide)⟩
/-- The mod field. -/
def modField (b : Byte) : Nat := b.toNat / 64

/-- The displacement that mod calls for, `wide` bytes for mod = 2 (rule R330). -/
def P.disp (mod wide : Nat) : P (BitVec 32) := do
  match mod with
  | 0 => return 0
  | 1 => return (BitVec.ofNat 8 (← P.le 1)).signExtend 32
  | _ => if wide = 2 then return (BitVec.ofNat 16 (← P.le 2)).signExtend 32 else return BitVec.ofNat 32 (← P.le 4)

/-- Base and index of 16-bit addressing (rule R332). -/
def base16 (rm : Fin 8) : Option Reg × Option Reg :=
  match rm with
  | 0 => (some 3, some 6) | 1 => (some 3, some 7) | 2 => (some 5, some 6) | 3 => (some 5, some 7)
  | 4 => (some 6, none) | 5 => (some 7, none) | 6 => (some 5, none) | 7 => (some 3, none)

/-- A memory operand (rule R330). -/
def Dec.mem (c : Dec) (mod : Nat) (rm : Fin 8) : P MemRef := do
  match c.asz with
  | .a16 =>
    if mod = 0 ∧ rm = 6 then
      let d ← P.disp 2 2
      return ⟨c.seg, .a16, none, none, 0, d, false⟩
    else
      let d ← P.disp mod 2
      return ⟨c.seg, .a16, (base16 rm).1, (base16 rm).2, 0, d, false⟩
  | asz =>
    if rm = 4 then
      let s ← P.byte
      let idx := extReg c.x (field3 s 3)
      let index := if idx = 4 then none else some idx
      let scale : Fin 4 := if idx = 4 then 0 else ⟨s.toNat / 64 % 4, Nat.mod_lt _ (by decide)⟩
      if field3 s 0 = 5 ∧ mod = 0 then
        let d ← P.disp 2 4
        return ⟨c.seg, asz, none, index, scale, d, false⟩
      else
        let d ← P.disp mod 4
        return ⟨c.seg, asz, some (extReg c.b (field3 s 0)), index, scale, d, false⟩
    else if mod = 0 ∧ rm = 5 then
      let d ← P.disp 2 4
      return ⟨c.seg, asz, none, none, 0, d, c.m.long⟩
    else
      let d ← P.disp mod 4
      return ⟨c.seg, asz, some (extReg c.b rm), none, 0, d, false⟩

/-- A vector-indexed operand (rule R331). -/
def Dec.vmem (c : Dec) (mod : Nat) (rm : Fin 8) : P VMem := do
  if rm ≠ 4 ∨ mod = 3 ∨ c.asz = .a16 then throw .undefined
  let s ← P.byte
  let index := extReg c.x (field3 s 3)
  let scale : Fin 4 := ⟨s.toNat / 64 % 4, Nat.mod_lt _ (by decide)⟩
  if field3 s 0 = 5 ∧ mod = 0 then
    let d ← P.disp 2 4
    return ⟨c.seg, c.asz, none, index, scale, d⟩
  else
    let d ← P.disp mod 4
    return ⟨c.seg, c.asz, some (extReg c.b (field3 s 0)), index, scale, d⟩

/-- A general register of a width by its 4-bit number (rule R335). -/
def Dec.gp (c : Dec) (w : Width) (n : Reg) : Gp :=
  if h : w = .w8 ∧ c.rex = false ∧ 4 ≤ n.val ∧ n.val < 8 then .hi ⟨n.val - 4, by omega⟩ else .lo n
/-- ModRM.reg with REX.R. -/
def Dec.regR (c : Dec) (md : Modrm) : Reg := extReg c.r md.reg
/-- ModRM.reg as a general register of a width. -/
def Dec.gpR (c : Dec) (w : Width) (md : Modrm) : Gp := c.gp w (c.regR md)
/-- ModRM.r/m as a general register or memory. -/
def Dec.rm (c : Dec) (w : Width) (md : Modrm) : Rm :=
  match md.rm with
  | .reg n => .reg (c.gp w (extReg c.b n))
  | .mem a => .mem a
/-- ModRM.r/m as a vector register or memory. -/
def Dec.xm (c : Dec) (md : Modrm) : Xm :=
  match md.rm with
  | .reg n => .reg (extReg c.b n)
  | .mem a => .mem a
/-- ModRM.r/m as an MMX register or memory. -/
def Dec.mm (_ : Dec) (md : Modrm) : Mm :=
  match md.rm with
  | .reg n => .reg n
  | .mem a => .mem a
/-- ModRM.r/m as a register number, 0 for memory. -/
def Dec.regB (c : Dec) (md : Modrm) : Reg :=
  match md.rm with
  | .reg n => extReg c.b n
  | .mem _ => 0
/-- ModRM.r/m as an MMX register number, 0 for memory. -/
def Modrm.mmB (md : Modrm) : Fin 8 :=
  match md.rm with
  | .reg n => n
  | .mem _ => 0
/-- ModRM.r/m as memory; the absolute address 0 for a register. -/
def Modrm.memB (md : Modrm) : MemRef :=
  match md.rm with
  | .reg _ => ⟨none, .a32, none, none, 0, 0, false⟩
  | .mem a => a
/-- ModRM.r/m is memory. -/
def Modrm.isMem (md : Modrm) : Bool :=
  match md.rm with
  | .reg _ => false
  | .mem _ => true
/-- The vector length. -/
def Dec.len (c : Dec) : VLen := if c.l then .l256 else .l128

/-! Entries of the opcode maps. -/

/-- The immediate bytes of a form (rule R303). `iz` has 2 or 4 bytes by operand size, `iv` 2, 4 or 8, `jz` 4 in 64-bit mode
(decision D73) and by operand size elsewhere. -/
inductive ImmKind where
  | no | ib | iw | iz | iv | jz | moffs | ptr | iwib
deriving DecidableEq, Repr

/-- Read an immediate. -/
def Dec.imm (c : Dec) : ImmKind → P Word
  | .no => return 0
  | .ib => return BitVec.ofNat 64 (← P.le 1)
  | .iw => return BitVec.ofNat 64 (← P.le 2)
  | .iz => return BitVec.ofNat 64 (← P.le (if c.osz = .w16 then 2 else 4))
  | .iv => return BitVec.ofNat 64 (← P.le (if c.osz = .w16 then 2 else if c.osz = .w64 then 8 else 4))
  | .jz => return BitVec.ofNat 64 (← P.le (if c.m.long || decide (c.osz = .w32) then 4 else 2))
  | .moffs => return BitVec.ofNat 64 (← P.le (c.asz.bits / 8))
  | .ptr => return BitVec.ofNat 64 (← P.le (if c.osz = .w16 then 4 else 6))
  | .iwib => return BitVec.ofNat 64 (← P.le 3)

/-- A form: its immediate, whether LOCK is legal on its memory form (rule R312), and the instruction its fields give. -/
structure Form where
  imm : ImmKind := .no
  lk : Bool := false
  build : Dec → Modrm → Word → Option Instr

/-- A form from its three parts. -/
def form (imm : ImmKind) (lk : Bool) (build : Dec → Modrm → Word → Option Instr) : Form := ⟨imm, lk, build⟩

/-- An entry of an opcode map: blank, without ModRM, with ModRM (the form chosen by memory, reg and r/m), with a ModRM byte
that names registers whatever mod says (rule R342), with a vector-indexed operand (rule R331). -/
inductive Entry where
  | blank
  | direct (f : Form)
  | modrm (sel : Bool → Fin 8 → Fin 8 → Option Form)
  | regs (f : Form)
  | vsib (build : Dec → Reg → VMem → Option Instr)

/-- A form without ModRM that stands for one instruction. -/
def Entry.op (i : Instr) : Entry := .direct (form .no false fun _ _ _ => some i)
/-- The same, not in 64-bit mode (rule R322, i64). -/
def Entry.op32 (i : Instr) : Entry := .direct (form .no false fun c _ _ => if c.m.long then none else some i)
/-- A form without ModRM. -/
def Entry.get (imm : ImmKind) (f : Dec → Word → Option Instr) : Entry := .direct (form imm false fun c _ v => f c v)
/-- One form for every ModRM byte. -/
def Entry.all (f : Form) : Entry := .modrm fun _ _ _ => some f
/-- One form for every ModRM byte, without immediate. -/
def Entry.rm (f : Dec → Modrm → Instr) : Entry := .all (form .no false fun c md _ => some (f c md))
/-- One form for the memory bytes of ModRM. -/
def Entry.memOnly (f : Form) : Entry := .modrm fun isMem _ _ => if isMem then some f else none

/-- LOCK, XACQUIRE and XRELEASE around a lockable instruction with a memory destination (rule R312; spec/59_w_wait-xtest.md
rule R1193). -/
def Dec.locked (c : Dec) (l : Lockable) (i : Instr) : Instr :=
  if c.lock then
    match c.rep with
    | some .f2 => .xacquire (.locked l)
    | some .f3 => .xrelease (.locked l)
    | none => .lock l
  else i

/-- The low byte, word or doubleword of an immediate, sign-extended to 32 bits (rule R303). -/
def sext8 (v : Word) : BitVec 32 := (v.setWidth 8).signExtend 32
/-- An immediate of 2 or 4 bytes by operand size. -/
def Dec.sextZ (c : Dec) (v : Word) : BitVec 32 :=
  if c.osz = .w16 then (v.setWidth 16).signExtend 32 else v.setWidth 32

/-- The eight instructions of group 1 (rule R377). -/
def aluInstr (n : Fin 8) (o : AluOps) : Instr :=
  match n with
  | 0 => .add o | 1 => .or o | 2 => .adc o | 3 => .sbb o | 4 => .and o | 5 => .sub o | 6 => .xor o | 7 => .cmp o
/-- The lockable ones. -/
def aluLock (n : Fin 8) : Option LockAlu :=
  match n with
  | 0 => some .add | 1 => some .or | 2 => some .adc | 3 => some .sbb | 4 => some .and | 5 => some .sub | 6 => some .xor
  | 7 => none

/-- A group-1 instruction with a register source. -/
def aluMr (c : Dec) (n : Fin 8) (w : Width) (d : Rm) (g : Gp) : Instr :=
  match aluLock n, d with
  | some t, .mem a => c.locked (.aluReg t w a g) (aluInstr n (.mr w d g))
  | _, _ => aluInstr n (.mr w d g)
/-- A group-1 instruction with an immediate. -/
def aluMi (c : Dec) (n : Fin 8) (w : Width) (d : Rm) (i : BitVec 32) : Instr :=
  match aluLock n, d with
  | some t, .mem a => c.locked (.aluImm t w a i) (aluInstr n (.mi w d i))
  | _, _ => aluInstr n (.mi w d i)

/-- The six forms of opcodes 00H to 3FH (rule R401). -/
def aluEntry (n : Fin 8) (k : Nat) : Entry :=
  match k with
  | 0 | 1 => .all (form .no ((aluLock n).isSome) fun c md _ =>
      some (aluMr c n (c.wOf k) (c.rm (c.wOf k) md) (c.gpR (c.wOf k) md)))
  | 2 | 3 => .rm fun c md => aluInstr n (.rm (c.wOf k) (c.gpR (c.wOf k) md) (c.rm (c.wOf k) md))
  | 4 => .get .ib fun c v => some (aluMi c n .w8 (.reg (.lo 0)) (sext8 v))
  | 5 => .get .iz fun c v => some (aluMi c n c.osz (.reg (.lo 0)) (c.sextZ v))
  | _ => .blank

/-- Group 1: opcodes 80H to 83H (rule R377). -/
def group1 (op : Nat) : Entry :=
  .modrm fun _ reg _ => some
    (form (if op = 0x81 then .iz else .ib) ((aluLock reg).isSome) fun c md v =>
        if op = 0x82 ∧ c.m.long then none
        else
          let w := c.wOf op
          some (aluMi c reg w (c.rm w md) (if op = 0x81 then c.sextZ v else sext8 v)))

/-- Group 2 (rule R379). -/
def shiftInstr (n : Fin 8) (o : ShiftOps) : Option Instr :=
  match n with
  | 0 => some (.rol o) | 1 => some (.ror o) | 2 => some (.rcl o) | 3 => some (.rcr o) | 4 => some (.shl o) | 5 => some (.shr o)
  | 6 => none | 7 => some (.sar o)

/-- The opcodes of group 2 (rule R379). -/
def group2 (op : Nat) : Entry :=
  .modrm fun _ _ _ => some
    (form (if op < 0xD0 then .ib else .no) false fun c md v =>
        let w := c.wOf op
        let cnt : Count := if op < 0xD0 then .imm (v.setWidth 8) else if op < 0xD2 then .one else .cl
        shiftInstr md.reg ⟨w, c.rm w md, cnt⟩)

/-- A one-operand instruction that LOCK may qualify. -/
def unLocked (c : Dec) (t : LockUn) (k : RmOp → Instr) (w : Width) (x : Rm) : Instr :=
  match x with
  | .mem a => c.locked (.un t w a) (k ⟨w, x⟩)
  | .reg _ => k ⟨w, x⟩

/-- Group 3 (rule R384). -/
def group3 (op : Nat) : Entry :=
  .modrm fun _ reg _ =>
    match reg with
    | 0 => some (form (if op = 0xF6 then .ib else .iz) false fun c md v =>
        some (.test (.mi (c.wOf op) (c.rm (c.wOf op) md) (if op = 0xF6 then sext8 v else c.sextZ v))))
    | 1 => none
    | 2 => some (form .no true fun c md _ => some (unLocked c .not .not (c.wOf op) (c.rm (c.wOf op) md)))
    | 3 => some (form .no true fun c md _ => some (unLocked c .neg .neg (c.wOf op) (c.rm (c.wOf op) md)))
    | 4 => some (form .no false fun c md _ => some (.mul ⟨c.wOf op, c.rm (c.wOf op) md⟩))
    | 5 => some (form .no false fun c md _ => some (.imul (.one (c.wOf op) (c.rm (c.wOf op) md))))
    | 6 => some (form .no false fun c md _ => some (.div ⟨c.wOf op, c.rm (c.wOf op) md⟩))
    | 7 => some (form .no false fun c md _ => some (.idiv ⟨c.wOf op, c.rm (c.wOf op) md⟩))

/-- INC and DEC in groups 4 and 5 (rule R384). -/
def incDec (op : Nat) (reg : Fin 8) : Form :=
  (form .no true fun c md _ =>
      some (if reg = 0 then unLocked c .inc .inc (c.wOf op) (c.rm (c.wOf op) md)
            else unLocked c .dec .dec (c.wOf op) (c.rm (c.wOf op) md)))

/-- Group 5 (rule R384). -/
def group5 : Entry :=
  .modrm fun isMem reg _ =>
    match reg with
    | 0 | 1 => some (incDec 0xFF reg)
    | 2 => some (form .no false fun c md _ => some (.call (.ind c.bsz (c.rm c.bsz md))))
    | 3 => if isMem then some (form .no false fun c md _ => some (.call (.far ⟨c.osz, md.memB⟩))) else none
    | 4 => some (form .no false fun c md _ => some (.jmpNear (.ind c.bsz (c.rm c.bsz md))))
    | 5 => if isMem then some (form .no false fun c md _ => some (.jmpFar (.far ⟨c.osz, md.memB⟩))) else none
    | 6 => some (form .no false fun c md _ => some (.push (.rm c.ssz (c.rm c.ssz md))))
    | 7 => none

/-- Group 11 (rule R383) and the hint XRELEASE on MOV to memory (spec/59_w_wait-xtest.md rule R1193). -/
def group11 (op : Nat) : Entry :=
  .modrm fun isMem reg rm =>
    if reg = 0 then some
      (form (if op = 0xC6 then .ib else .iz) false fun c md v =>
          let w := c.wOf op
          let i : BitVec 32 := if op = 0xC6 then sext8 v else c.sextZ v
          match md.rm, c.rep with
          | .mem a, some .f3 => some (.xrelease (.movImm w a i))
          | _, _ => some (.mov (.mi w (c.rm w md)
              (if w = .w64 then i.signExtend 64 else ((i.setWidth w.bits).setWidth 64)))))
    else if isMem = false ∧ reg = 7 ∧ rm = 0 then
      (if op = 0xC6 then some (form .ib false fun _ _ v => some (.xabort (v.setWidth 8)))
       else some (form .iz false fun c _ v => some (.xbegin ⟨c.osz, c.sextZ v⟩)))
    else none

/-- The conditional jumps by condition (rule R343). -/
def jccInstr (n : Fin 16) (o : JccOps) : Instr :=
  match n.val with
  | 0 => .jo o | 1 => .jno o | 2 => .jb o | 3 => .jae o | 4 => .je o | 5 => .jne o | 6 => .jbe o | 7 => .ja o
  | 8 => .js o | 9 => .jns o | 10 => .jp o | 11 => .jnp o | 12 => .jl o | 13 => .jge o | 14 => .jle o | _ => .jg o
/-- SETcc by condition (rule R343). -/
def setccInstr (n : Fin 16) (o : Rm) : Instr :=
  match n.val with
  | 0 => .seto o | 1 => .setno o | 2 => .setb o | 3 => .setae o | 4 => .sete o | 5 => .setne o | 6 => .setbe o | 7 => .seta o
  | 8 => .sets o | 9 => .setns o | 10 => .setp o | 11 => .setnp o | 12 => .setl o | 13 => .setge o | 14 => .setle o
  | _ => .setg o
/-- CMOVcc by condition (rule R343). -/
def cmovInstr (n : Fin 16) (o : RegRm) : Instr :=
  match n.val with
  | 0 => .cmovo o | 1 => .cmovno o | 2 => .cmovb o | 3 => .cmovae o | 4 => .cmove o | 5 => .cmovne o | 6 => .cmovbe o
  | 7 => .cmova o | 8 => .cmovs o | 9 => .cmovns o | 10 => .cmovp o | 11 => .cmovnp o | 12 => .cmovl o | 13 => .cmovge o
  | 14 => .cmovle o | _ => .cmovg o

/-- The low four bits of an opcode. -/
def low4 (op : Nat) : Fin 16 := ⟨op % 16, Nat.mod_lt _ (by decide)⟩
/-- The low three bits of an opcode. -/
def low3 (op : Nat) : Fin 8 := ⟨op % 8, Nat.mod_lt _ (by decide)⟩

/-- PUSH Sreg. -/
def pushSeg (r : SReg) (legacy : Bool) : Entry :=
  .direct (form .no false fun c _ _ => if legacy && c.m.long then none else some (.push (.seg c.ssz r)))
/-- POP Sreg. -/
def popSegE (r : SReg) (legacy : Bool) : Entry :=
  .direct (form .no false fun c _ _ => if legacy && c.m.long then none else some (.popSeg ⟨c.ssz, r⟩))

/-- The repeated form of a string instruction, its form with a segment override, or its plain form. -/
def Dec.strOp (c : Dec) (rep : RepArgs → Instr) (ovr : StrOps → Instr) (plain : Width → ASize → Instr) (w : Width) : Instr :=
  match c.rep, c.seg with
  | some _, s => rep ⟨w, c.asz, s⟩
  | none, some s => ovr ⟨w, c.asz, s⟩
  | none, none => plain w c.asz

/-- One of four by width. -/
def byWidth {α : Type} (b w d q : α) : Width → α
  | .w8 => b | .w16 => w | .w32 => d | .w64 => q

/-- INS, OUTS, MOVS, CMPS, STOS, LODS, SCAS (rule R401; spec/55_r_rcl-rsqrtss.md rules R998 to R1000). -/
def strEntry (op : Nat) : Entry :=
  .direct (form .no false fun c _ _ =>
    let w := c.wOf op
    let io : Width := if op % 2 = 0 then .w8 else c.iosz
    match op with
    | 0x6C | 0x6D => some (c.strOp (fun r => .rep (.ins r)) .ins (byWidth .insb .insw .insd .insd) io)
    | 0x6E | 0x6F => some (c.strOp (fun r => .rep (.outs r)) .outs (byWidth .outsb .outsw .outsd .outsd) io)
    | 0xA4 | 0xA5 => some (c.strOp (fun r => .rep (.movs r)) .movs (byWidth .movsb .movsw .movsdStr .movsq) w)
    | 0xA6 | 0xA7 => some (c.strOp (fun r => if c.rep = some .f2 then .repne (.cmps r) else .repe (.cmps r)) .cmps
        (byWidth .cmpsb .cmpsw .cmpsdStr .cmpsq) w)
    | 0xAA | 0xAB => some (c.strOp (fun r => .rep (.stos r)) .stos (byWidth .stosb .stosw .stosd .stosq) w)
    | 0xAC | 0xAD => some (c.strOp (fun r => .rep (.lods r)) .lods (byWidth .lodsb .lodsw .lodsd .lodsq) w)
    | 0xAE | 0xAF => some (c.strOp (fun r => if c.rep = some .f2 then .repne (.scas r) else .repe (.scas r)) .scas
        (byWidth .scasb .scasw .scasd .scasq) w)
    | _ => none)

/-- XCHG with memory takes LOCK, XACQUIRE and XRELEASE; the hints need no LOCK (spec/59_w_wait-xtest.md rule R1193). -/
def xchgRm (c : Dec) (w : Width) (x : Rm) (g : Gp) : Instr :=
  match x with
  | .reg _ => .xchg ⟨w, x, g⟩
  | .mem a =>
    if c.lock then c.locked (.xchg w a g) (.xchg ⟨w, x, g⟩)
    else
      match c.rep with
      | some .f2 => .xacquire (.xchg w a g)
      | some .f3 => .xrelease (.xchg w a g)
      | none => .xchg ⟨w, x, g⟩

/-- The one-byte opcodes 40H to 5FH and 90H to 97H, B0H to BFH, whose low bits name a register (rule R335). -/
def regEntry (op : Nat) : Entry :=
  let n := low3 op
  match op / 8 with
  | 8 => .direct (form .no false fun c _ _ => if c.m.long then none else some (.inc ⟨c.osz, .reg (.lo (extReg false n))⟩))
  | 9 => .direct (form .no false fun c _ _ => if c.m.long then none else some (.dec ⟨c.osz, .reg (.lo (extReg false n))⟩))
  | 10 => .direct (form .no false fun c _ _ => some (.push (.rm c.ssz (.reg (.lo (extReg c.b n))))))
  | 11 => .direct (form .no false fun c _ _ => some (.pop ⟨c.ssz, .reg (.lo (extReg c.b n))⟩))
  | 18 => .direct (form .no false fun c _ _ =>
      if n = 0 ∧ c.b = false then (if c.rep = some .f3 then some .pause else some (.nop none))
      else some (.xchg ⟨c.osz, .reg (.lo (extReg c.b n)), .lo 0⟩))
  | 22 => .get .ib fun c v => some (.mov (.mi .w8 (.reg (c.gp .w8 (extReg c.b n))) v))
  | 23 => .get .iv fun c v => some (.mov (.mi c.osz (.reg (.lo (extReg c.b n))) v))
  | _ => .blank

/-- A far pointer in the instruction, not in 64-bit mode. -/
def Dec.farPtr (c : Dec) (v : Word) : Option FarPtr :=
  if c.m.long then none
  else if c.osz = .w16 then some ⟨.w16, v.extractLsb' 16 16, (v.extractLsb' 0 16).setWidth 32⟩
  else some ⟨.w32, v.extractLsb' 32 16, v.extractLsb' 0 32⟩

/-- Segment register by number (rule R341). -/
def sregOf (n : Fin 8) : Option SReg :=
  match n with
  | 0 => some .es | 1 => some .cs | 2 => some .ss | 3 => some .ds | 4 => some .fs | 5 => some .gs | 6 => none | 7 => none

/-- ENTER's operands. -/
def Dec.enterOps (c : Dec) (v : Word) : EnterOps := ⟨c.ssz, v.extractLsb' 0 16, v.extractLsb' 16 8⟩

/-! x87. -/

/-- The memory forms of D8H to DFH by opcode and reg (rules R391 to R398). -/
def x87Mem (op reg : Fin 8) (w : Width) (a : MemRef) : Option Instr :=
  match op, reg with
  | 0, 0 => some (.fadd (.m32 a)) | 0, 1 => some (.fmul (.m32 a)) | 0, 2 => some (.fcom (.m32 a))
  | 0, 3 => some (.fcomp (.m32 a)) | 0, 4 => some (.fsub (.m32 a)) | 0, 5 => some (.fsubr (.m32 a))
  | 0, 6 => some (.fdiv (.m32 a)) | 0, 7 => some (.fdivr (.m32 a))
  | 1, 0 => some (.fld (.m32 a)) | 1, 1 => none | 1, 2 => some (.fst (.m32 a)) | 1, 3 => some (.fstp (.m32 a))
  | 1, 4 => some (.fldenv ⟨w, a⟩) | 1, 5 => some (.fldcw a) | 1, 6 => some (.fnstenv ⟨w, a⟩) | 1, 7 => some (.fnstcw a)
  | 2, 0 => some (.fiadd (.m32 a)) | 2, 1 => some (.fimul (.m32 a)) | 2, 2 => some (.ficom (.m32 a))
  | 2, 3 => some (.ficomp (.m32 a)) | 2, 4 => some (.fisub (.m32 a)) | 2, 5 => some (.fisubr (.m32 a))
  | 2, 6 => some (.fidiv (.m32 a)) | 2, 7 => some (.fidivr (.m32 a))
  | 3, 0 => some (.fild (.m32 a)) | 3, 1 => some (.fisttp (.m32 a)) | 3, 2 => some (.fist (.m32 a))
  | 3, 3 => some (.fistp (.m32 a)) | 3, 4 => none | 3, 5 => some (.fld (.m80 a)) | 3, 6 => none
  | 3, 7 => some (.fstp (.m80 a))
  | 4, 0 => some (.fadd (.m64 a)) | 4, 1 => some (.fmul (.m64 a)) | 4, 2 => some (.fcom (.m64 a))
  | 4, 3 => some (.fcomp (.m64 a)) | 4, 4 => some (.fsub (.m64 a)) | 4, 5 => some (.fsubr (.m64 a))
  | 4, 6 => some (.fdiv (.m64 a)) | 4, 7 => some (.fdivr (.m64 a))
  | 5, 0 => some (.fld (.m64 a)) | 5, 1 => some (.fisttp (.m64 a)) | 5, 2 => some (.fst (.m64 a))
  | 5, 3 => some (.fstp (.m64 a)) | 5, 4 => some (.frstor ⟨w, a⟩) | 5, 5 => none | 5, 6 => some (.fnsave ⟨w, a⟩)
  | 5, 7 => some (.fnstsw (.mem a))
  | 6, 0 => some (.fiadd (.m16 a)) | 6, 1 => some (.fimul (.m16 a)) | 6, 2 => some (.ficom (.m16 a))
  | 6, 3 => some (.ficomp (.m16 a)) | 6, 4 => some (.fisub (.m16 a)) | 6, 5 => some (.fisubr (.m16 a))
  | 6, 6 => some (.fidiv (.m16 a)) | 6, 7 => some (.fidivr (.m16 a))
  | 7, 0 => some (.fild (.m16 a)) | 7, 1 => some (.fisttp (.m16 a)) | 7, 2 => some (.fist (.m16 a))
  | 7, 3 => some (.fistp (.m16 a)) | 7, 4 => some (.fbld a) | 7, 5 => some (.fild (.m64 a)) | 7, 6 => some (.fbstp a)
  | 7, 7 => some (.fistp (.m64 a))

/-- The register forms of D9H by r/m where reg is 4 to 7 (rule R392). -/
def x87D9 (reg i : Fin 8) : Option Instr :=
  match reg, i with
  | 4, 0 => some .fchs | 4, 1 => some .fabs | 4, 4 => some .ftst | 4, 5 => some .fxam
  | 5, 0 => some .fld1 | 5, 1 => some .fldl2t | 5, 2 => some .fldl2e | 5, 3 => some .fldpi | 5, 4 => some .fldlg2
  | 5, 5 => some .fldln2 | 5, 6 => some .fldz
  | 6, 0 => some .f2xm1 | 6, 1 => some .fyl2x | 6, 2 => some .fptan | 6, 3 => some .fpatan | 6, 4 => some .fxtract
  | 6, 5 => some .fprem1 | 6, 6 => some .fdecstp | 6, 7 => some .fincstp
  | 7, 0 => some .fprem | 7, 1 => some .fyl2xp1 | 7, 2 => some .fsqrt | 7, 3 => some .fsincos | 7, 4 => some .frndint
  | 7, 5 => some .fscale | 7, 6 => some .fsin | 7, 7 => some .fcos
  | _, _ => none

/-- The register forms of D8H to DFH (rules R391 to R398). -/
def x87Reg (op reg i : Fin 8) : Option Instr :=
  match op, reg with
  | 0, 0 => some (.fadd (.st0 i)) | 0, 1 => some (.fmul (.st0 i)) | 0, 2 => some (.fcom (.st i)) | 0, 3 => some (.fcomp (.st i))
  | 0, 4 => some (.fsub (.st0 i)) | 0, 5 => some (.fsubr (.st0 i)) | 0, 6 => some (.fdiv (.st0 i))
  | 0, 7 => some (.fdivr (.st0 i))
  | 1, 0 => some (.fld (.st i)) | 1, 1 => some (.fxch i) | 1, 2 => if i = 0 then some .fnop else none
  | 1, 3 => none | 1, r => x87D9 r i
  | 2, 0 => some (.fcmovb i) | 2, 1 => some (.fcmove i) | 2, 2 => some (.fcmovbe i) | 2, 3 => some (.fcmovu i)
  | 2, 5 => if i = 1 then some .fucompp else none
  | 2, _ => none
  | 3, 0 => some (.fcmovnb i) | 3, 1 => some (.fcmovne i) | 3, 2 => some (.fcmovnbe i) | 3, 3 => some (.fcmovnu i)
  | 3, 4 => if i = 2 then some .fnclex else if i = 3 then some .fninit else none
  | 3, 5 => some (.fucomi i) | 3, 6 => some (.fcomi i) | 3, 7 => none
  | 4, 0 => some (.fadd (.sti i)) | 4, 1 => some (.fmul (.sti i)) | 4, 4 => some (.fsubr (.sti i))
  | 4, 5 => some (.fsub (.sti i)) | 4, 6 => some (.fdivr (.sti i)) | 4, 7 => some (.fdiv (.sti i))
  | 4, _ => none
  | 5, 0 => some (.ffree i) | 5, 2 => some (.fst (.st i)) | 5, 3 => some (.fstp (.st i)) | 5, 4 => some (.fucom i)
  | 5, 5 => some (.fucomp i)
  | 5, _ => none
  | 6, 0 => some (.faddp i) | 6, 1 => some (.fmulp i) | 6, 3 => if i = 1 then some .fcompp else none
  | 6, 4 => some (.fsubrp i) | 6, 5 => some (.fsubp i) | 6, 6 => some (.fdivrp i) | 6, 7 => some (.fdivp i)
  | 6, _ => none
  | 7, 4 => if i = 0 then some (.fnstsw .ax) else none
  | 7, 5 => some (.fucomip i) | 7, 6 => some (.fcomip i)
  | 7, _ => none

/-- The operand size of an x87 image: REX.W has no effect (rule R390). -/
def Dec.x87sz (c : Dec) : Width := if c.m.long then (if c.opsz then .w16 else .w32) else c.osz

/-- The escape opcodes (rule R390). -/
def x87Entry (op : Nat) : Entry :=
  .all (form .no false fun c md _ =>
    match md.rm with
    | .mem a => x87Mem (low3 op) md.reg c.x87sz a
    | .reg i => x87Reg (low3 op) md.reg i)

/-! The one-byte map. -/

/-- Table A-2 (rule R401) below 40H. -/
def oneByteLow (op : Nat) : Entry :=
  match op with
  | 0x06 => pushSeg .es true | 0x07 => popSegE .es true | 0x0E => pushSeg .cs true
  | 0x16 => pushSeg .ss true | 0x17 => popSegE .ss true | 0x1E => pushSeg .ds true | 0x1F => popSegE .ds true
  | 0x27 => .op32 .daa | 0x2F => .op32 .das | 0x37 => .op32 .aaa | 0x3F => .op32 .aas
  | _ => aluEntry (low3 (op / 8)) (op % 8)

/-- Table A-2 (rule R401) from 60H to 9FH, but for the register rows. -/
def oneByteMid (op : Nat) : Entry :=
  match op with
  | 0x60 => .direct (form .no false fun c _ _ => if c.m.long then none else some (if c.osz = .w16 then .pusha else .pushad))
  | 0x61 => .direct (form .no false fun c _ _ => if c.m.long then none else some (if c.osz = .w16 then .popa else .popad))
  | 0x62 => .memOnly (form .no false fun c md _ => if c.m.long then none else some (.bound ⟨c.osz, c.regR md, md.memB⟩))
  | 0x63 => .all (form .no false fun c md _ => some
      (if c.m.long then
        let sw : Width := if c.osz = .w16 then .w16 else .w32
        .movsxd ⟨c.osz, c.regR md, sw, c.rm sw md⟩
       else .arpl ⟨.w16, c.rm .w16 md, .lo (c.regR md)⟩))
  | 0x68 => .get .iz fun c v => some (.push (.imm c.ssz (c.sextZ v)))
  | 0x69 => .all (form .iz false fun c md v => some (.imul (.three c.osz (c.regR md) (c.rm c.osz md) (c.sextZ v))))
  | 0x6A => .get .ib fun c v => some (.push (.imm c.ssz (sext8 v)))
  | 0x6B => .all (form .ib false fun c md v => some (.imul (.three c.osz (c.regR md) (c.rm c.osz md) (sext8 v))))
  | 0x6C | 0x6D | 0x6E | 0x6F => strEntry op
  | 0x80 | 0x81 | 0x82 | 0x83 => group1 op
  | 0x84 | 0x85 => .rm fun c md => .test (.mr (c.wOf op) (c.rm (c.wOf op) md) (c.gpR (c.wOf op) md))
  | 0x86 | 0x87 => .all (form .no true fun c md _ =>
      some (xchgRm c (c.wOf op) (c.rm (c.wOf op) md) (c.gpR (c.wOf op) md)))
  | 0x88 | 0x89 => .rm fun c md =>
      let w := c.wOf op
      match md.rm, c.rep with
      | .mem a, some .f3 => .xrelease (.movReg w a (c.gpR w md))
      | _, _ => .mov (.mr w (c.rm w md) (c.gpR w md))
  | 0x8A | 0x8B => .rm fun c md => .mov (.rm (c.wOf op) (c.gpR (c.wOf op) md) (c.rm (c.wOf op) md))
  | 0x8C => .all (form .no false fun c md _ => (sregOf md.reg).map fun r =>
      .movSeg (.store (if md.isMem then .w16 else c.osz) (c.rm c.osz md) r))
  | 0x8D => .memOnly (form .no false fun c md _ => some (.lea ⟨c.osz, c.regR md, md.memB⟩))
  | 0x8E => .all (form .no false fun c md _ =>
      match sregOf md.reg with
      | none => none
      | some .cs => none
      | some r => some (.movSeg (.load r (c.rm .w16 md))))
  | 0x8F => .modrm fun _ reg _ => if reg = 0 then some (form .no false fun c md _ => some (.pop ⟨c.ssz, c.rm c.ssz md⟩)) else none
  | 0x98 => .direct (form .no false fun c _ _ => some (byWidth .cbw .cbw .cwde .cdqe c.osz))
  | 0x99 => .direct (form .no false fun c _ _ => some (byWidth .cwd .cwd .cdq .cqo c.osz))
  | 0x9A => .get .ptr fun c v => (c.farPtr v).map fun p => .call (.ptr p)
  | 0x9B => .op .wait
  | 0x9C => .direct (form .no false fun c _ _ => some (byWidth .pushf .pushf .pushfd .pushfq c.ssz))
  | 0x9D => .direct (form .no false fun c _ _ => some (byWidth .popf .popf .popfd .popfq c.ssz))
  | 0x9E => .op .sahf
  | 0x9F => .op .lahf
  | _ => .blank

/-- Table A-2 (rule R401) from A0H on, but for the register rows. -/
def oneByteHigh (op : Nat) : Entry :=
  match op with
  | 0xA0 | 0xA1 => .get .moffs fun c v => some (.mov (.fromMoffs (c.wOf op) ⟨c.seg, c.asz, v⟩))
  | 0xA2 | 0xA3 => .get .moffs fun c v => some (.mov (.toMoffs (c.wOf op) ⟨c.seg, c.asz, v⟩))
  | 0xA8 => .get .ib fun _ v => some (.test (.mi .w8 (.reg (.lo 0)) (sext8 v)))
  | 0xA9 => .get .iz fun c v => some (.test (.mi c.osz (.reg (.lo 0)) (c.sextZ v)))
  | 0xA4 | 0xA5 | 0xA6 | 0xA7 | 0xAA | 0xAB | 0xAC | 0xAD | 0xAE | 0xAF => strEntry op
  | 0xC0 | 0xC1 | 0xD0 | 0xD1 | 0xD2 | 0xD3 => group2 op
  | 0xC2 => .get .iw fun c v => some (.retNear ⟨c.bsz, some (v.setWidth 16)⟩)
  | 0xC3 => .get .no fun c _ => some (.retNear ⟨c.bsz, none⟩)
  | 0xC4 => .memOnly (form .no false fun c md _ => some (.les ⟨c.osz, c.regR md, md.memB⟩))
  | 0xC5 => .memOnly (form .no false fun c md _ => some (.lds ⟨c.osz, c.regR md, md.memB⟩))
  | 0xC6 | 0xC7 => group11 op
  | 0xC8 => .get .iwib fun c v => some (.enter (c.enterOps v))
  | 0xC9 => .get .no fun c _ => some (.leave c.ssz)
  | 0xCA => .get .iw fun c v => some (.retFar ⟨c.osz, some (v.setWidth 16)⟩)
  | 0xCB => .get .no fun c _ => some (.retFar ⟨c.osz, none⟩)
  | 0xCC => .op .int3
  | 0xCD => .get .ib fun _ v => some (.intN (v.setWidth 8))
  | 0xCE => .op32 .into
  | 0xCF => .get .no fun c _ => some (byWidth .iret .iret .iretd .iretq c.osz)
  | 0xD4 => .get .ib fun c v => if c.m.long then none else some (.aam (v.setWidth 8))
  | 0xD5 => .get .ib fun c v => if c.m.long then none else some (.aad (v.setWidth 8))
  | 0xD7 => .get .no fun c _ => some (match c.seg with | some s => .xlat ⟨c.asz, s⟩ | none => .xlatb c.asz)
  | 0xD8 | 0xD9 | 0xDA | 0xDB | 0xDC | 0xDD | 0xDE | 0xDF => x87Entry op
  | 0xE0 => .get .ib fun c v => some (.loopne ⟨c.bsz, c.asz, v.setWidth 8⟩)
  | 0xE1 => .get .ib fun c v => some (.loope ⟨c.bsz, c.asz, v.setWidth 8⟩)
  | 0xE2 => .get .ib fun c v => some (.loop ⟨c.bsz, c.asz, v.setWidth 8⟩)
  | 0xE3 => .get .ib fun c v =>
      let o : JcxzOps := ⟨c.bsz, v.setWidth 8⟩
      some (match c.asz with | .a16 => .jcxz o | .a32 => .jecxz o | .a64 => .jrcxz o)
  | 0xE4 => .get .ib fun _ v => some (.inp ⟨.w8, .imm (v.setWidth 8)⟩)
  | 0xE5 => .get .ib fun c v => some (.inp ⟨c.iosz, .imm (v.setWidth 8)⟩)
  | 0xE6 => .get .ib fun _ v => some (.out ⟨.w8, .imm (v.setWidth 8)⟩)
  | 0xE7 => .get .ib fun c v => some (.out ⟨c.iosz, .imm (v.setWidth 8)⟩)
  | 0xE8 => .get .jz fun c v => some (.call (.rel c.bsz (if c.m.long then v.setWidth 32 else c.sextZ v)))
  | 0xE9 => .get .jz fun c v => some (.jmpNear (.rel c.bsz (if c.m.long then v.setWidth 32 else c.sextZ v)))
  | 0xEA => .get .ptr fun c v => (c.farPtr v).map fun p => .jmpFar (.ptr p)
  | 0xEB => .get .ib fun c v => some (.jmpNear (.rel c.bsz (sext8 v)))
  | 0xEC => .op (.inp ⟨.w8, .dx⟩)
  | 0xED => .get .no fun c _ => some (.inp ⟨c.iosz, .dx⟩)
  | 0xEE => .op (.out ⟨.w8, .dx⟩)
  | 0xEF => .get .no fun c _ => some (.out ⟨c.iosz, .dx⟩)
  | 0xF4 => .op .hlt
  | 0xF5 => .op .cmc
  | 0xF6 | 0xF7 => group3 op
  | 0xF8 => .op .clc
  | 0xF9 => .op .stc
  | 0xFA => .op .cli
  | 0xFB => .op .sti
  | 0xFC => .op .cld
  | 0xFD => .op .std
  | 0xFE => .modrm fun _ reg _ => if reg.val < 2 then some (incDec 0xFE reg) else none
  | 0xFF => group5
  | _ => .blank

/-- Table A-2 (rule R401). -/
def oneByte (op : Nat) : Entry :=
  if op < 0x40 then oneByteLow op
  else if op < 0x60 then regEntry op
  else if 0x70 ≤ op ∧ op < 0x80 then .get .ib fun c v => some (jccInstr (low4 op) ⟨c.bsz, sext8 v⟩)
  else if (0x90 ≤ op ∧ op < 0x98) ∨ (0xB0 ≤ op ∧ op < 0xC0) then regEntry op
  else if op < 0xA0 then oneByteMid op
  else oneByteHigh op

/-! The two-byte map, but for the rows with mandatory prefixes. -/

/-- Group 6 (rule R385). -/
def group6 : Entry :=
  .modrm fun _ reg _ =>
    match reg with
    | 0 => some (form .no false fun c md _ => some (.sldt ⟨c.osz, c.rm c.osz md⟩))
    | 1 => some (form .no false fun c md _ => some (.str ⟨c.osz, c.rm c.osz md⟩))
    | 2 => some (form .no false fun c md _ => some (.lldt (c.rm .w16 md)))
    | 3 => some (form .no false fun c md _ => some (.ltr (c.rm .w16 md)))
    | 4 => some (form .no false fun c md _ => some (.verr (c.rm .w16 md)))
    | 5 => some (form .no false fun c md _ => some (.verw (c.rm .w16 md)))
    | 6 | 7 => none

/-- Is one of 66H, F2H and F3H present? -/
def Dec.pfx66F (c : Dec) : Bool := c.opsz || c.rep.isSome

/-- An instruction whose own rule raises #UD under 66H, F2H and F3H (rule R312 (b)): XEND, XGETBV, XSETBV and XTEST
(spec/59_w_wait-xtest.md rules R1198, R1199, R1211, R1212). -/
def Dec.bare (c : Dec) (i : Instr) : Option Instr := if c.pfx66F then none else some i

/-- The whole-byte encodings of group 7 (rule R382). -/
def group7Reg (c : Dec) (reg rm : Fin 8) : Option Instr :=
  match reg, rm with
  | 1, 0 => some (.monitor ⟨c.asz, c.seg⟩) | 1, 1 => some .mwait | 1, 2 => some .clac | 1, 3 => some .stac
  | 2, 0 => c.bare .xgetbv | 2, 1 => c.bare .xsetbv | 2, 5 => c.bare .xend | 2, 6 => c.bare .xtest
  | 5, 6 => some .rdpkru | 5, 7 => some .wrpkru
  | 7, 0 => some .swapgs | 7, 1 => some .rdtscp
  | _, _ => none

/-- Group 7 (rule R382). -/
def group7 : Entry :=
  .all (form .no false fun c md _ =>
    match md.rm, md.reg with
    | .mem a, 0 => some (.sgdt ⟨c.bsz, a⟩)
    | .mem a, 1 => some (.sidt ⟨c.bsz, a⟩)
    | .mem a, 2 => some (.lgdt ⟨c.bsz, a⟩)
    | .mem a, 3 => some (.lidt ⟨c.bsz, a⟩)
    | _, 4 => some (.smsw ⟨c.osz, c.rm c.osz md⟩)
    | _, 6 => some (.lmsw (c.rm .w16 md))
    | .mem a, 7 => some (.invlpg a)
    | .mem _, _ => none
    | .reg n, r => group7Reg c r n)

/-- Group 9 (rule R381); RDRAND and RDSEED are undefined under F2H and F3H (spec/55_r_rcl-rsqrtss.md rules R994, R995),
XRSTORS, XSAVEC and XSAVES under these and 66H (spec/59_w_wait-xtest.md rule R1204, check 1). -/
def group9 (c0 : Dec) : Entry :=
  .modrm fun isMem reg _ =>
    if (isMem && decide (3 ≤ reg.val ∧ reg.val ≤ 5) && c0.pfx66F) || (!isMem && c0.rep.isSome) then none else
    match isMem, reg with
    | true, 1 => some (form .no true fun c md _ => some
        (if c.m.long && c.w then c.locked (.cmpxchg16b md.memB) (.cmpxchg16b md.memB)
         else c.locked (.cmpxchg8b md.memB) (.cmpxchg8b md.memB)))
    | true, 3 => some (form .no false fun c md _ => some (if c.w then .xrstors64 md.memB else .xrstors md.memB))
    | true, 4 => some (form .no false fun c md _ => some (if c.w then .xsavec64 md.memB else .xsavec md.memB))
    | true, 5 => some (form .no false fun c md _ => some (if c.w then .xsaves64 md.memB else .xsaves md.memB))
    | false, 6 => some (form .no false fun c md _ => some (.rdrand ⟨c.osz, c.regB md⟩))
    | false, 7 => some (form .no false fun c md _ => some (.rdseed ⟨c.osz, c.regB md⟩))
    | _, _ => none

/-- Group 15 (rule R380). -/
def group15 (c0 : Dec) : Entry :=
  .modrm fun isMem reg _ =>
    match c0.rep, isMem, reg with
    | some .f3, false, 0 => some (form .no false fun c md _ => if c.m.long then some (.rdfsbase ⟨c.ysz, c.regB md⟩) else none)
    | some .f3, false, 1 => some (form .no false fun c md _ => if c.m.long then some (.rdgsbase ⟨c.ysz, c.regB md⟩) else none)
    | some .f3, false, 2 => some (form .no false fun c md _ => if c.m.long then some (.wrfsbase ⟨c.ysz, c.regB md⟩) else none)
    | some .f3, false, 3 => some (form .no false fun c md _ => if c.m.long then some (.wrgsbase ⟨c.ysz, c.regB md⟩) else none)
    | some _, _, _ => none
    | none, true, r => if c0.opsz then none else some (form .no false fun c md _ =>
        let a := md.memB
        match r with
        | 0 => some (if c.w then .fxsave64 a else .fxsave a)
        | 1 => some (if c.w then .fxrstor64 a else .fxrstor a)
        | 2 => some (.ldmxcsr a)
        | 3 => some (.stmxcsr a)
        | 4 => some (if c.w then .xsave64 a else .xsave a)
        | 5 => some (if c.w then .xrstor64 a else .xrstor a)
        | 6 => some (if c.w then .xsaveopt64 a else .xsaveopt a)
        | 7 => some (.clflush a))
    | none, false, r => if c0.opsz then none else
        match r with
        | 5 => some (form .no false fun _ _ _ => some .lfence)
        | 6 => some (form .no false fun _ _ _ => some .mfence)
        | 7 => some (form .no false fun _ _ _ => some .sfence)
        | _ => none

/-- The bit instructions with the lockable ones. -/
def bitInstr (c : Dec) (n : Fin 8) (w : Width) (x : Rm) (s : BitSrc) : Option Instr :=
  let lock (t : LockBit) (i : Instr) : Option Instr :=
    match x with
    | .mem a => some (c.locked (.bit t w a s) i)
    | .reg _ => some i
  match n with
  | 4 => some (.bt ⟨w, x, s⟩)
  | 5 => lock .bts (.bts ⟨w, x, s⟩)
  | 6 => lock .btr (.btr ⟨w, x, s⟩)
  | 7 => lock .btc (.btc ⟨w, x, s⟩)
  | _ => none

/-- BT and its kin with a register offset; n is the group-8 number of the same instruction. -/
def bitReg (n : Fin 8) : Entry :=
  .all (form .no (decide (n ≠ 4)) fun c md _ => bitInstr c n c.osz (c.rm c.osz md) (.reg (c.regR md)))

/-- Group 8 (rule R385). -/
def group8 : Entry :=
  .modrm fun _ reg _ =>
    if reg.val < 4 then none
    else some (form .ib (decide (reg ≠ 4)) fun c md v =>
      bitInstr c reg c.osz (c.rm c.osz md) (.imm (v.setWidth 8)))

/-- CMPXCHG and XADD. -/
def mrLocked (l : Width → MemRef → Gp → Lockable) (k : MrOps → Instr) (op : Nat) : Entry :=
  .all (form .no true fun c md _ =>
    let w := c.wOf op
    let x := c.rm w md
    let g := c.gpR w md
    some (match x with
      | .mem a => c.locked (l w a g) (k ⟨w, x, g⟩)
      | .reg _ => k ⟨w, x, g⟩))

/-- r, r/m by operand size. -/
def regRm (k : RegRm → Instr) : Entry := .rm fun c md => k ⟨c.osz, c.regR md, c.rm c.osz md⟩
/-- r, m by operand size. -/
def regMem (k : RegMem → Instr) : Entry := .memOnly (form .no false fun c md _ => some (k ⟨c.osz, c.regR md, md.memB⟩))
/-- A prefetch or hint with a memory operand. -/
def hintMem (k : Fin 8 → Option (MemRef → Instr)) : Entry :=
  .modrm fun isMem reg _ => if isMem then (k reg).map fun f => (form .no false fun _ md _ => some (f md.memB)) else none

/-- Table A-3 (rule R402), rows without mandatory prefix. `c0` holds the prefixes, which select BSF or TZCNT, BSR or
LZCNT, POPCNT and the F3H forms of group 15. -/
def twoByte (c0 : Dec) (op : Nat) : Entry :=
  match op with
  | 0x00 => group6
  | 0x01 => group7
  | 0x02 => .rm fun c md => .lar ⟨c.osz, c.regR md, c.rm .w16 md⟩
  | 0x03 => .rm fun c md => .lsl ⟨c.osz, c.regR md, c.rm .w16 md⟩
  | 0x05 => .op .syscall
  | 0x06 => .op .clts
  | 0x07 => .get .no fun c _ => some (.sysret c.ysz)
  | 0x08 => .op .invd
  | 0x09 => .op .wbinvd
  | 0x0B => .op .ud2
  | 0x0D => hintMem fun reg => if reg = 1 then some .prefetchw else if reg = 2 then some .prefetchwt1 else none
  | 0x18 => hintMem fun reg =>
      match reg with
      | 0 => some .prefetchnta | 1 => some .prefetcht0 | 2 => some .prefetcht1 | 3 => some .prefetcht2
      | _ => none
  | 0x1F => .modrm fun _ reg _ =>
      if reg = 0 then some (form .no false fun c md _ => some (.nop (some ⟨c.osz, c.rm c.osz md⟩))) else none
  | 0x20 => .regs (form .no false fun c md _ => some (.movCr (.store (c.regB md) (c.regR md))))
  | 0x21 => .regs (form .no false fun c md _ => if c.r then none else some (.movDr (.store (c.regB md) md.reg)))
  | 0x22 => .regs (form .no false fun c md _ => some (.movCr (.load (c.regR md) (c.regB md))))
  | 0x23 => .regs (form .no false fun c md _ => if c.r then none else some (.movDr (.load md.reg (c.regB md))))
  | 0x30 => .op .wrmsr
  | 0x31 => .op .rdtsc
  | 0x32 => .op .rdmsr
  | 0x33 => .op .rdpmc
  | 0x34 => .op .sysenter
  | 0x35 => .get .no fun c _ => some (.sysexit c.ysz)
  | 0x77 => if c0.opsz || c0.rep.isSome then .blank else .op .emms
  | 0xA0 => pushSeg .fs false
  | 0xA1 => popSegE .fs false
  | 0xA2 => .op .cpuid
  | 0xA3 => bitReg 4
  | 0xA4 => .all (form .ib false fun c md v => some (.shld ⟨c.osz, c.rm c.osz md, c.regR md, .imm (v.setWidth 8)⟩))
  | 0xA5 => .rm fun c md => .shld ⟨c.osz, c.rm c.osz md, c.regR md, .cl⟩
  | 0xA8 => pushSeg .gs false
  | 0xA9 => popSegE .gs false
  | 0xAA => .op .rsm
  | 0xAB => bitReg 5
  | 0xAC => .all (form .ib false fun c md v => some (.shrd ⟨c.osz, c.rm c.osz md, c.regR md, .imm (v.setWidth 8)⟩))
  | 0xAD => .rm fun c md => .shrd ⟨c.osz, c.rm c.osz md, c.regR md, .cl⟩
  | 0xAE => group15 c0
  | 0xAF => .rm fun c md => .imul (.two c.osz (c.regR md) (c.rm c.osz md))
  | 0xB0 | 0xB1 => mrLocked .cmpxchg .cmpxchg op
  | 0xB2 => regMem .lss
  | 0xB3 => bitReg 6
  | 0xB4 => regMem .lfs
  | 0xB5 => regMem .lgs
  | 0xB6 => .rm fun c md => .movzx ⟨c.osz, c.regR md, .w8, c.rm .w8 md⟩
  | 0xB7 => .rm fun c md => .movzx ⟨c.osz, c.regR md, .w16, c.rm .w16 md⟩
  | 0xB8 => if c0.rep = some .f3 then regRm .popcnt else .blank
  | 0xBA => group8
  | 0xBB => bitReg 7
  | 0xBC => match c0.rep with | none => regRm .bsf | some .f3 => regRm .tzcnt | some .f2 => .blank
  | 0xBD => match c0.rep with | none => regRm .bsr | some .f3 => regRm .lzcnt | some .f2 => .blank
  | 0xBE => .rm fun c md => .movsx ⟨c.osz, c.regR md, .w8, c.rm .w8 md⟩
  | 0xBF => .rm fun c md => .movsx ⟨c.osz, c.regR md, .w16, c.rm .w16 md⟩
  | 0xC0 | 0xC1 => mrLocked .xadd .xadd op
  | 0xC3 => .memOnly (form .no false fun c md _ => some (.movnti ⟨c.ysz, c.regR md, md.memB⟩))
  | 0xC7 => group9 c0
  | _ =>
    if 0x40 ≤ op ∧ op < 0x50 then regRm (cmovInstr (low4 op))
    else if 0x80 ≤ op ∧ op < 0x90 then
      .get .jz fun c v => some (jccInstr (low4 op) ⟨c.bsz, if c.m.long then v.setWidth 32 else c.sextZ v⟩)
    else if 0x90 ≤ op ∧ op < 0xA0 then .rm fun c md => setccInstr (low4 op) (c.rm .w8 md)
    else if 0xC8 ≤ op ∧ op < 0xD0 then .get .no fun c _ => some (.bswap ⟨c.osz, extReg c.b (low3 op)⟩)
    else .blank

/-- The rows F0H, F1H and F6H with ADCX and ADOX of Table A-4 (rule R403), and INVPCID. -/
def threeByte (c0 : Dec) (op : Nat) : Entry :=
  match op, c0.rep, c0.opsz with
  | 0xF0, none, _ => .memOnly (form .no false fun c md _ => some (.movbe (.load c.osz (c.regR md) md.memB)))
  | 0xF1, none, _ => .memOnly (form .no false fun c md _ => some (.movbe (.store c.osz md.memB (c.regR md))))
  | 0xF0, some .f2, _ => .rm fun c md => .crc32 ⟨c.ysz, c.regR md, .w8, c.rm .w8 md⟩
  | 0xF1, some .f2, _ => .rm fun c md => .crc32 ⟨c.ysz, c.regR md, c.osz, c.rm c.osz md⟩
  | 0xF6, none, true => .rm fun c md => .adcx ⟨c.ysz, c.regR md, c.rm c.ysz md⟩
  | 0xF6, some .f3, _ => .rm fun c md => .adox ⟨c.ysz, c.regR md, c.rm c.ysz md⟩
  | 0x82, none, true => .memOnly (form .no false fun c md _ =>
      some (.invpcid ⟨if c.m.long then .w64 else .w32, c.regR md, md.memB⟩))
  | _, _, _ => .blank

/-! The rows of Tables A-3 to A-5 with mandatory prefixes, legacy and VEX. -/

/-- The mandatory prefix, or VEX.pp (rules R302, R360). -/
inductive Pp where
  | np | p66 | pF3 | pF2
deriving DecidableEq, Repr

/-- The row the recorded prefixes choose (rule R302): F2 or F3 if present, else 66, else none. -/
def Dec.pp (c : Dec) : Pp :=
  match c.rep with
  | some .f2 => .pF2
  | some .f3 => .pF3
  | none => if c.opsz then .p66 else .np

/-- What a row asks of W (rule R360 (e)); `g0` and `g1` are for general-register operands, where W counts in 64-bit mode
only; `b0` for VPEXTRB and its kin, which ignore W in 64-bit mode and need W = 0 elsewhere (spec/52_p_pabsb-pextrw.md rule R872,
spec/53_p_phaddw-pmuludq.md rule R886). -/
inductive WReq where
  | any | w0 | w1 | g0 | g1 | b0
deriving DecidableEq, Repr

/-- Is W as asked? -/
def WReq.fits (q : WReq) (c : Dec) : Bool :=
  match q with
  | .any => true
  | .w0 => !c.w
  | .w1 => c.w
  | .g0 => !(c.w && c.m.long)
  | .g1 => c.w && c.m.long
  | .b0 => !c.w || c.m.long

/-- The instruction of a row from its fields and its immediate byte. -/
abbrev Build := Dec → Modrm → Byte → Instr

/-- What a row asks of L (rule R360 (d)): ignored (the operands have 128 bits), 0, 1, or either as the vector length. -/
inductive LReq where
  | ig | l0 | l1 | both
deriving DecidableEq, Repr

/-- Is L as asked? -/
def LReq.fits : LReq → Bool → Bool
  | .l0, l => !l
  | .l1, l => l
  | _, _ => true

/-- A row: opcode, mandatory prefix, opcode extension, memory or register form only, W, L, whether
VEX.vvvv is an operand (else it must be 1111B, rule R360 (c)), whether an immediate byte follows. -/
structure Row where
  op : Nat
  pp : Pp
  build : Build
  ext : Option (Fin 8) := none
  mem : Option Bool := none
  w : WReq := .any
  l : LReq := .ig
  v : Bool := false
  imm : Bool := false

/-- Do the prefixes fit the row? For a legacy encoding L and vvvv are 0. -/
def Row.head (r : Row) (c : Dec) (pp : Pp) (op : Nat) : Bool :=
  decide (r.op = op) && decide (r.pp = pp) && r.w.fits c && r.l.fits c.l && (r.v || decide (c.v = 0))
/-- Does the ModRM byte fit the row? -/
def Row.tail (r : Row) (isMem : Bool) (reg : Fin 8) : Bool := r.ext.all (· == reg) && r.mem.all (· == isMem)

/-- The entry that some rows make. -/
def rowEntry (rows : List Row) (c : Dec) (pp : Pp) (op : Nat) : Entry :=
  match rows.filter fun r => r.head c pp op with
  | [] => .blank
  | r0 :: rs => .modrm fun isMem reg _ =>
      ((r0 :: rs).find? fun r => r.tail isMem reg).map fun r =>
        (form (if r.imm then .ib else .no) false fun c md v => some (r.build { c with l := c.l && decide (r.l ≠ .ig) } md (v.setWidth 8)))

/-! How the fields of a row become operands, by operand shape. -/

/-- xmm, xmm/m. -/
def bXX (k : XX → Instr) : Build := fun c md _ => k ⟨c.regR md, c.xm md⟩
/-- xmm, xmm/m, imm8. -/
def bXXI (k : XXI → Instr) : Build := fun c md i => k ⟨c.regR md, c.xm md, i⟩
/-- A string comparison. -/
def bStrCmp (k : StrCmp → Instr) : Build := fun c md i => k ⟨c.ysz, c.regR md, c.xm md, i⟩
/-- mm, mm/m. -/
def bMm (k : MX → Instr) : Build := fun c md _ => k (.mm md.reg (c.mm md))
/-- The xmm form beside it. -/
def bMx (k : MX → Instr) : Build := fun c md _ => k (.xx (c.regR md) (c.xm md))
/-- mm, mm/m, imm8. -/
def bMmI (k : MXI → Instr) : Build := fun c md i => k (.mm md.reg (c.mm md) i)
/-- The xmm form beside it. -/
def bMxI (k : MXI → Instr) : Build := fun c md i => k (.xx (c.regR md) (c.xm md) i)
/-- A packed shift of mm by mm/m. -/
def bShM (k : MShift → Instr) : Build := fun c md _ => k (.mm md.reg (c.mm md))
/-- A packed shift of xmm by xmm/m. -/
def bShX (k : MShift → Instr) : Build := fun c md _ => k (.xx (c.regR md) (c.xm md))
/-- A packed shift of mm by an immediate. -/
def bShMI (k : MShift → Instr) : Build := fun _ md i => k (.mmI md.mmB i)
/-- A packed shift of xmm by an immediate. -/
def bShXI (k : MShift → Instr) : Build := fun c md i => k (.xxI (c.regB md) i)
/-- PSHUFW. -/
def bMMI (k : MMI → Instr) : Build := fun c md i => k ⟨md.reg, c.mm md, i⟩
/-- PSLLDQ, PSRLDQ. -/
def bXI (k : XI → Instr) : Build := fun c md i => k ⟨c.regB md, i⟩
/-- A load. -/
def bXLoad (k : XMov → Instr) : Build := fun c md _ => k (.load (c.regR md) (c.xm md))
/-- A store. -/
def bXStore (k : XMov → Instr) : Build := fun c md _ => k (.store (c.xm md) (c.regR md))
/-- A load from memory. -/
def bXMemLoad (k : XMemMov → Instr) : Build := fun c md _ => k (.load (c.regR md) md.memB)
/-- A store to memory. -/
def bXMemStore (k : XMemMov → Instr) : Build := fun c md _ => k (.store md.memB (c.regR md))
/-- xmm, m. -/
def bXMem (k : XMem → Instr) : Build := fun c md _ => k ⟨c.regR md, md.memB⟩
/-- m, xmm. -/
def bMemX (k : MemX → Instr) : Build := fun c md _ => k ⟨md.memB, c.regR md⟩
/-- Two registers. -/
def bXReg (k : XReg → Instr) : Build := fun c md _ => k ⟨c.regR md, c.regB md⟩
/-- MASKMOVQ. -/
def bMMask (k : MMask → Instr) : Build := fun c md _ => k ⟨c.asz, c.seg, md.reg, md.mmB⟩
/-- MASKMOVDQU. -/
def bXMask (k : XMask → Instr) : Build := fun c md _ => k ⟨c.asz, c.seg, c.regR md, c.regB md⟩
/-- MOVNTQ. -/
def bMemM (k : MemM → Instr) : Build := fun _ md _ => k ⟨md.memB, md.reg⟩
/-- mm, xmm/m. -/
def bMXm (k : MXm → Instr) : Build := fun c md _ => k ⟨md.reg, c.xm md⟩
/-- xmm, mm/m64. -/
def bXMm (k : XMm → Instr) : Build := fun c md _ => k ⟨c.regR md, c.mm md⟩
/-- r32 or r64, xmm/m. -/
def bGX (k : GX → Instr) : Build := fun c md _ => k ⟨c.ysz, c.regR md, c.xm md⟩
/-- xmm, r/m32 or r/m64. -/
def bXG (k : XG → Instr) : Build := fun c md _ => k ⟨c.regR md, c.ysz, c.rm c.ysz md⟩
/-- PMOVMSKB from mm. -/
def bGMm (k : GMask → Instr) : Build := fun c md _ => k (.mm (c.regR md) md.mmB)
/-- PMOVMSKB from xmm. -/
def bGMx (k : GMask → Instr) : Build := fun c md _ => k (.xx (c.regR md) (c.regB md))
/-- r/m, xmm, imm8. -/
def bExtr (k : ExtrOps → Instr) : Build := fun c md i => k ⟨c.rm .w32 md, c.regR md, i⟩
/-- r, xmm, imm8: the C5H form of VPEXTRW. -/
def bExtrC5 (k : ExtrOps → Instr) : Build := fun c md i => k ⟨.reg (.lo (c.regR md)), c.regB md, i⟩
/-- PEXTRW r, mm, imm8. -/
def bPexM (k : PextrwOps → Instr) : Build := fun c md i => k (.mm (c.regR md) md.mmB i)
/-- PEXTRW r, xmm, imm8. -/
def bPexX (k : PextrwOps → Instr) : Build := fun c md i => k (.xx (c.regR md) (c.regB md) i)
/-- PEXTRW r/m16, xmm, imm8. -/
def bPexRm (k : PextrwOps → Instr) : Build := fun c md i => k (.xrm (c.rm .w32 md) (c.regR md) i)
/-- xmm, r/m, imm8. -/
def bIns (k : InsOps → Instr) : Build := fun c md i => k ⟨c.regR md, c.rm .w32 md, i⟩
/-- PINSRW mm. -/
def bPinM (k : PinsrwOps → Instr) : Build := fun c md i => k (.mm md.reg (c.rm .w32 md) i)
/-- PINSRW xmm. -/
def bPinX (k : PinsrwOps → Instr) : Build := fun c md i => k (.xx (c.regR md) (c.rm .w32 md) i)
/-- MOVD to mm. -/
def bMovdToM (k : MovdOps → Instr) : Build := fun c md _ => k (.toMm md.reg (c.rm .w32 md))
/-- MOVD from mm. -/
def bMovdFromM (k : MovdOps → Instr) : Build := fun c md _ => k (.fromMm (c.rm .w32 md) md.reg)
/-- MOVD to xmm. -/
def bMovdToX (k : MovdOps → Instr) : Build := fun c md _ => k (.toX (c.regR md) (c.rm .w32 md))
/-- MOVD from xmm. -/
def bMovdFromX (k : MovdOps → Instr) : Build := fun c md _ => k (.fromX (c.rm .w32 md) (c.regR md))
/-- MOVQ mm, mm/m64. -/
def bMovqML (k : MovqOps → Instr) : Build := fun c md _ => k (.mmLoad md.reg (c.mm md))
/-- MOVQ mm/m64, mm. -/
def bMovqMS (k : MovqOps → Instr) : Build := fun c md _ => k (.mmStore (c.mm md) md.reg)
/-- MOVQ xmm, xmm/m64. -/
def bMovqXL (k : MovqOps → Instr) : Build := fun c md _ => k (.xLoad (c.regR md) (c.xm md))
/-- MOVQ xmm/m64, xmm. -/
def bMovqXS (k : MovqOps → Instr) : Build := fun c md _ => k (.xStore (c.xm md) (c.regR md))
/-- MOVDQ2Q. -/
def bDq2q (k : Dq2qOps → Instr) : Build := fun c md _ => k ⟨md.reg, c.regB md⟩
/-- MOVQ2DQ. -/
def bQ2dq (k : Q2dqOps → Instr) : Build := fun c md _ => k ⟨c.regR md, md.mmB⟩
/-- A memory operand. -/
def bMem (k : MemRef → Instr) : Build := fun _ md _ => k md.memB
/-- Vector, vector/m. -/
def bVX (k : VX → Instr) : Build := fun c md _ => k ⟨c.len, c.regR md, c.xm md⟩
/-- Vector, vector/m, imm8. -/
def bVXI (k : VXI → Instr) : Build := fun c md i => k ⟨c.len, c.regR md, c.xm md, i⟩
/-- Vector, vector, vector/m. -/
def bVVX (k : VVX → Instr) : Build := fun c md _ => k ⟨c.len, c.regR md, c.v, c.xm md⟩
/-- Vector, vector, vector/m, imm8. -/
def bVVXI (k : VVXI → Instr) : Build := fun c md i => k ⟨c.len, c.regR md, c.v, c.xm md, i⟩
/-- The register in bits 7:4 of an immediate (rule R362). -/
def is4 (c : Dec) (i : Byte) : Reg := extReg (c.m.long && i.getLsbD 7) (field3 i 4)
/-- Four vectors. -/
def bVVXR (k : VVXR → Instr) : Build := fun c md i => k ⟨c.len, c.regR md, c.v, c.xm md, is4 c i⟩
/-- A VEX shift by xmm/m128. -/
def bVSh (k : VShift → Instr) : Build := fun c md _ => k (.vec c.len (c.regR md) c.v (c.xm md))
/-- A VEX shift by an immediate. -/
def bVShI (k : VShift → Instr) : Build := fun c md i => k (.imm c.len c.v (c.regB md) i)
/-- VPSLLDQ, VPSRLDQ. -/
def bVVI (k : VVI → Instr) : Build := fun c md i => k ⟨c.len, c.v, c.regB md, i⟩
/-- A VEX load. -/
def bVLoad (k : VMov → Instr) : Build := fun c md _ => k (.load c.len (c.regR md) (c.xm md))
/-- A VEX store. -/
def bVStore (k : VMov → Instr) : Build := fun c md _ => k (.store c.len (c.xm md) (c.regR md))
/-- VMOVHPD and its kin, loading. -/
def bHalfL (k : VHalfMov → Instr) : Build := fun c md _ => k (.load (c.regR md) c.v md.memB)
/-- VMOVHPD and its kin, storing. -/
def bHalfS (k : VHalfMov → Instr) : Build := fun c md _ => k (.store md.memB (c.regR md))
/-- Vector, m. -/
def bVXMem (k : VXMem → Instr) : Build := fun c md _ => k ⟨c.len, c.regR md, md.memB⟩
/-- m, vector. -/
def bVMemX (k : VMemX → Instr) : Build := fun c md _ => k ⟨c.len, md.memB, c.regR md⟩
/-- A masked load. -/
def bMaskL (k : VMaskMov → Instr) : Build := fun c md _ => k (.load c.len (c.regR md) c.v md.memB)
/-- A masked store. -/
def bMaskS (k : VMaskMov → Instr) : Build := fun c md _ => k (.store c.len md.memB c.v (c.regR md))
/-- Three xmm registers. -/
def bVReg3 (k : VReg3 → Instr) : Build := fun c md _ => k ⟨c.regR md, c.v, c.regB md⟩
/-- A mask of a vector. -/
def bVGMask (k : VGMask → Instr) : Build := fun c md _ => k ⟨c.len, c.regR md, c.regB md⟩
/-- xmm, xmm, r/m. -/
def bVXG (k : VXG → Instr) : Build := fun c md _ => k ⟨c.regR md, c.v, c.ysz, c.rm c.ysz md⟩
/-- xmm, xmm, r/m, imm8. -/
def bVIns (k : VInsOps → Instr) : Build := fun c md i => k ⟨c.regR md, c.v, c.rm .w32 md, i⟩
/-- VMOVD, VMOVQ to xmm. -/
def bVMovdL (k : VMovd → Instr) : Build := fun c md _ => k (.load (c.regR md) (c.rm .w32 md))
/-- VMOVD, VMOVQ from xmm. -/
def bVMovdS (k : VMovd → Instr) : Build := fun c md _ => k (.store (c.rm .w32 md) (c.regR md))
/-- VMOVSS, VMOVSD between registers, opcode 10H. -/
def bScalarR (k : VScalarMov → Instr) : Build := fun c md _ => k (.reg (c.regR md) c.v (c.regB md))
/-- The same, opcode 11H. -/
def bScalarR11 (k : VScalarMov → Instr) : Build := fun c md _ => k (.reg (c.regB md) c.v (c.regR md))
/-- VMOVSS, VMOVSD from memory. -/
def bScalarL (k : VScalarMov → Instr) : Build := fun c md _ => k (.load (c.regR md) md.memB)
/-- VMOVSS, VMOVSD to memory. -/
def bScalarS (k : VScalarMov → Instr) : Build := fun c md _ => k (.store md.memB (c.regR md))
/-- xmm/m, vector, imm8. -/
def bVExt (k : VExtOps → Instr) : Build := fun c md i => k ⟨c.len, c.xm md, c.regR md, i⟩
/-- VPERMILPS, VPERMILPD by a vector. -/
def bPermilV (k : VPermil → Instr) : Build := fun c md _ => k (.vec ⟨c.len, c.regR md, c.v, c.xm md⟩)
/-- VPERMILPS, VPERMILPD by an immediate. -/
def bPermilI (k : VPermil → Instr) : Build := fun c md i => k (.imm ⟨c.len, c.regR md, c.xm md, i⟩)
/-- r, VEX.vvvv and r/m. -/
def bVg3 (k : Vg3 → Instr) : Build := fun c md _ => k ⟨c.ysz, c.regR md, c.v, c.rm c.ysz md⟩
/-- VEX.vvvv, r/m: group 17. -/
def bVm (k : RegRm → Instr) : Build := fun c md _ => k ⟨c.ysz, c.v, c.rm c.ysz md⟩
/-- RORX. -/
def bRorx (k : RorxOps → Instr) : Build := fun c md i => k ⟨c.ysz, c.regR md, c.rm c.ysz md, i⟩

/-- Legacy rows of the map 0FH (rule R402), part 1. -/
def sse0Fp1 : List Row := [
  { op := 0x10, pp := .np, build := bXLoad .movups },
  { op := 0x10, pp := .p66, build := bXLoad .movupd },
  { op := 0x10, pp := .pF2, build := bXLoad .movsdSse },
  { op := 0x10, pp := .pF3, build := bXLoad .movss },
  { op := 0x11, pp := .np, build := bXStore .movups },
  { op := 0x11, pp := .p66, build := bXStore .movupd },
  { op := 0x11, pp := .pF2, build := bXStore .movsdSse },
  { op := 0x11, pp := .pF3, build := bXStore .movss },
  { op := 0x12, pp := .np, build := bXReg .movhlps, mem := some false },
  { op := 0x12, pp := .np, build := bXMemLoad .movlps, mem := some true },
  { op := 0x12, pp := .p66, build := bXMemLoad .movlpd, mem := some true },
  { op := 0x12, pp := .pF2, build := bXX .movddup },
  { op := 0x12, pp := .pF3, build := bXX .movsldup },
  { op := 0x13, pp := .np, build := bXMemStore .movlps, mem := some true },
  { op := 0x13, pp := .p66, build := bXMemStore .movlpd, mem := some true },
  { op := 0x14, pp := .np, build := bXX .unpcklps },
  { op := 0x14, pp := .p66, build := bXX .unpcklpd },
  { op := 0x15, pp := .np, build := bXX .unpckhps },
  { op := 0x15, pp := .p66, build := bXX .unpckhpd },
  { op := 0x16, pp := .np, build := bXMemLoad .movhps, mem := some true },
  { op := 0x16, pp := .np, build := bXReg .movlhps, mem := some false },
  { op := 0x16, pp := .p66, build := bXMemLoad .movhpd, mem := some true },
  { op := 0x16, pp := .pF3, build := bXX .movshdup },
  { op := 0x17, pp := .np, build := bXMemStore .movhps, mem := some true },
  { op := 0x17, pp := .p66, build := bXMemStore .movhpd, mem := some true },
  { op := 0x28, pp := .np, build := bXLoad .movaps },
  { op := 0x28, pp := .p66, build := bXLoad .movapd },
  { op := 0x29, pp := .np, build := bXStore .movaps },
  { op := 0x29, pp := .p66, build := bXStore .movapd },
  { op := 0x2A, pp := .np, build := bXMm .cvtpi2ps },
  { op := 0x2A, pp := .p66, build := bXMm .cvtpi2pd },
  { op := 0x2A, pp := .pF2, build := bXG .cvtsi2sd },
  { op := 0x2A, pp := .pF3, build := bXG .cvtsi2ss },
  { op := 0x2B, pp := .np, build := bMemX .movntps, mem := some true },
  { op := 0x2B, pp := .p66, build := bMemX .movntpd, mem := some true },
  { op := 0x2C, pp := .np, build := bMXm .cvttps2pi },
  { op := 0x2C, pp := .p66, build := bMXm .cvttpd2pi },
  { op := 0x2C, pp := .pF2, build := bGX .cvttsd2si },
  { op := 0x2C, pp := .pF3, build := bGX .cvttss2si },
  { op := 0x2D, pp := .np, build := bMXm .cvtps2pi },
  { op := 0x2D, pp := .p66, build := bMXm .cvtpd2pi },
  { op := 0x2D, pp := .pF2, build := bGX .cvtsd2si },
  { op := 0x2D, pp := .pF3, build := bGX .cvtss2si },
  { op := 0x2E, pp := .np, build := bXX .ucomiss },
  { op := 0x2E, pp := .p66, build := bXX .ucomisd },
  { op := 0x2F, pp := .np, build := bXX .comiss },
  { op := 0x2F, pp := .p66, build := bXX .comisd },
  { op := 0x50, pp := .np, build := bXReg .movmskps, mem := some false },
  { op := 0x50, pp := .p66, build := bXReg .movmskpd, mem := some false },
  { op := 0x51, pp := .np, build := bXX .sqrtps },
  { op := 0x51, pp := .p66, build := bXX .sqrtpd },
  { op := 0x51, pp := .pF2, build := bXX .sqrtsd },
  { op := 0x51, pp := .pF3, build := bXX .sqrtss },
  { op := 0x52, pp := .np, build := bXX .rsqrtps },
  { op := 0x52, pp := .pF3, build := bXX .rsqrtss },
  { op := 0x53, pp := .np, build := bXX .rcpps },
  { op := 0x53, pp := .pF3, build := bXX .rcpss },
  { op := 0x54, pp := .np, build := bXX .andps },
  { op := 0x54, pp := .p66, build := bXX .andpd },
  { op := 0x55, pp := .np, build := bXX .andnps } ]

/-- Legacy rows of the map 0FH (rule R402), part 2. -/
def sse0Fp2 : List Row := [
  { op := 0x55, pp := .p66, build := bXX .andnpd },
  { op := 0x56, pp := .np, build := bXX .orps },
  { op := 0x56, pp := .p66, build := bXX .orpd },
  { op := 0x57, pp := .np, build := bXX .xorps },
  { op := 0x57, pp := .p66, build := bXX .xorpd },
  { op := 0x58, pp := .np, build := bXX .addps },
  { op := 0x58, pp := .p66, build := bXX .addpd },
  { op := 0x58, pp := .pF2, build := bXX .addsd },
  { op := 0x58, pp := .pF3, build := bXX .addss },
  { op := 0x59, pp := .np, build := bXX .mulps },
  { op := 0x59, pp := .p66, build := bXX .mulpd },
  { op := 0x59, pp := .pF2, build := bXX .mulsd },
  { op := 0x59, pp := .pF3, build := bXX .mulss },
  { op := 0x5A, pp := .np, build := bXX .cvtps2pd },
  { op := 0x5A, pp := .p66, build := bXX .cvtpd2ps },
  { op := 0x5A, pp := .pF2, build := bXX .cvtsd2ss },
  { op := 0x5A, pp := .pF3, build := bXX .cvtss2sd },
  { op := 0x5B, pp := .np, build := bXX .cvtdq2ps },
  { op := 0x5B, pp := .p66, build := bXX .cvtps2dq },
  { op := 0x5B, pp := .pF3, build := bXX .cvttps2dq },
  { op := 0x5C, pp := .np, build := bXX .subps },
  { op := 0x5C, pp := .p66, build := bXX .subpd },
  { op := 0x5C, pp := .pF2, build := bXX .subsd },
  { op := 0x5C, pp := .pF3, build := bXX .subss },
  { op := 0x5D, pp := .np, build := bXX .minps },
  { op := 0x5D, pp := .p66, build := bXX .minpd },
  { op := 0x5D, pp := .pF2, build := bXX .minsd },
  { op := 0x5D, pp := .pF3, build := bXX .minss },
  { op := 0x5E, pp := .np, build := bXX .divps },
  { op := 0x5E, pp := .p66, build := bXX .divpd },
  { op := 0x5E, pp := .pF2, build := bXX .divsd },
  { op := 0x5E, pp := .pF3, build := bXX .divss },
  { op := 0x5F, pp := .np, build := bXX .maxps },
  { op := 0x5F, pp := .p66, build := bXX .maxpd },
  { op := 0x5F, pp := .pF2, build := bXX .maxsd },
  { op := 0x5F, pp := .pF3, build := bXX .maxss },
  { op := 0x60, pp := .np, build := bMm .punpcklbw },
  { op := 0x60, pp := .p66, build := bMx .punpcklbw },
  { op := 0x61, pp := .np, build := bMm .punpcklwd },
  { op := 0x61, pp := .p66, build := bMx .punpcklwd },
  { op := 0x62, pp := .np, build := bMm .punpckldq },
  { op := 0x62, pp := .p66, build := bMx .punpckldq },
  { op := 0x63, pp := .np, build := bMm .packsswb },
  { op := 0x63, pp := .p66, build := bMx .packsswb },
  { op := 0x64, pp := .np, build := bMm .pcmpgtb },
  { op := 0x64, pp := .p66, build := bMx .pcmpgtb },
  { op := 0x65, pp := .np, build := bMm .pcmpgtw },
  { op := 0x65, pp := .p66, build := bMx .pcmpgtw },
  { op := 0x66, pp := .np, build := bMm .pcmpgtd },
  { op := 0x66, pp := .p66, build := bMx .pcmpgtd },
  { op := 0x67, pp := .np, build := bMm .packuswb },
  { op := 0x67, pp := .p66, build := bMx .packuswb },
  { op := 0x68, pp := .np, build := bMm .punpckhbw },
  { op := 0x68, pp := .p66, build := bMx .punpckhbw },
  { op := 0x69, pp := .np, build := bMm .punpckhwd },
  { op := 0x69, pp := .p66, build := bMx .punpckhwd },
  { op := 0x6A, pp := .np, build := bMm .punpckhdq },
  { op := 0x6A, pp := .p66, build := bMx .punpckhdq },
  { op := 0x6B, pp := .np, build := bMm .packssdw },
  { op := 0x6B, pp := .p66, build := bMx .packssdw } ]

/-- Legacy rows of the map 0FH (rule R402), part 3. -/
def sse0Fp3 : List Row := [
  { op := 0x6C, pp := .p66, build := bXX .punpcklqdq },
  { op := 0x6D, pp := .p66, build := bXX .punpckhqdq },
  { op := 0x6E, pp := .np, build := bMovdToM .movd, w := .g0 },
  { op := 0x6E, pp := .np, build := bMovdToM .movqGp, w := .g1 },
  { op := 0x6E, pp := .p66, build := bMovdToX .movd, w := .g0 },
  { op := 0x6E, pp := .p66, build := bMovdToX .movqGp, w := .g1 },
  { op := 0x6F, pp := .np, build := bMovqML .movqX },
  { op := 0x6F, pp := .p66, build := bXLoad .movdqa },
  { op := 0x6F, pp := .pF3, build := bXLoad .movdqu },
  { op := 0x70, pp := .np, build := bMMI .pshufw, imm := true },
  { op := 0x70, pp := .p66, build := bXXI .pshufd, imm := true },
  { op := 0x70, pp := .pF2, build := bXXI .pshuflw, imm := true },
  { op := 0x70, pp := .pF3, build := bXXI .pshufhw, imm := true },
  { op := 0x71, pp := .np, build := bShMI .psrlw, ext := some 2, mem := some false, imm := true },
  { op := 0x71, pp := .np, build := bShMI .psraw, ext := some 4, mem := some false, imm := true },
  { op := 0x71, pp := .np, build := bShMI .psllw, ext := some 6, mem := some false, imm := true },
  { op := 0x71, pp := .p66, build := bShXI .psrlw, ext := some 2, mem := some false, imm := true },
  { op := 0x71, pp := .p66, build := bShXI .psraw, ext := some 4, mem := some false, imm := true },
  { op := 0x71, pp := .p66, build := bShXI .psllw, ext := some 6, mem := some false, imm := true },
  { op := 0x72, pp := .np, build := bShMI .psrld, ext := some 2, mem := some false, imm := true },
  { op := 0x72, pp := .np, build := bShMI .psrad, ext := some 4, mem := some false, imm := true },
  { op := 0x72, pp := .np, build := bShMI .pslld, ext := some 6, mem := some false, imm := true },
  { op := 0x72, pp := .p66, build := bShXI .psrld, ext := some 2, mem := some false, imm := true },
  { op := 0x72, pp := .p66, build := bShXI .psrad, ext := some 4, mem := some false, imm := true },
  { op := 0x72, pp := .p66, build := bShXI .pslld, ext := some 6, mem := some false, imm := true },
  { op := 0x73, pp := .np, build := bShMI .psrlq, ext := some 2, mem := some false, imm := true },
  { op := 0x73, pp := .np, build := bShMI .psllq, ext := some 6, mem := some false, imm := true },
  { op := 0x73, pp := .p66, build := bShXI .psrlq, ext := some 2, mem := some false, imm := true },
  { op := 0x73, pp := .p66, build := bXI .psrldq, ext := some 3, mem := some false, imm := true },
  { op := 0x73, pp := .p66, build := bShXI .psllq, ext := some 6, mem := some false, imm := true },
  { op := 0x73, pp := .p66, build := bXI .pslldq, ext := some 7, mem := some false, imm := true },
  { op := 0x74, pp := .np, build := bMm .pcmpeqb },
  { op := 0x74, pp := .p66, build := bMx .pcmpeqb },
  { op := 0x75, pp := .np, build := bMm .pcmpeqw },
  { op := 0x75, pp := .p66, build := bMx .pcmpeqw },
  { op := 0x76, pp := .np, build := bMm .pcmpeqd },
  { op := 0x76, pp := .p66, build := bMx .pcmpeqd },
  { op := 0x7C, pp := .p66, build := bXX .haddpd },
  { op := 0x7C, pp := .pF2, build := bXX .haddps },
  { op := 0x7D, pp := .p66, build := bXX .hsubpd },
  { op := 0x7D, pp := .pF2, build := bXX .hsubps },
  { op := 0x7E, pp := .np, build := bMovdFromM .movd, w := .g0 },
  { op := 0x7E, pp := .np, build := bMovdFromM .movqGp, w := .g1 },
  { op := 0x7E, pp := .p66, build := bMovdFromX .movd, w := .g0 },
  { op := 0x7E, pp := .p66, build := bMovdFromX .movqGp, w := .g1 },
  { op := 0x7E, pp := .pF3, build := bMovqXL .movqX },
  { op := 0x7F, pp := .np, build := bMovqMS .movqX },
  { op := 0x7F, pp := .p66, build := bXStore .movdqa },
  { op := 0x7F, pp := .pF3, build := bXStore .movdqu },
  { op := 0xC2, pp := .np, build := bXXI .cmpps, imm := true },
  { op := 0xC2, pp := .p66, build := bXXI .cmppd, imm := true },
  { op := 0xC2, pp := .pF2, build := bXXI .cmpsdSse, imm := true },
  { op := 0xC2, pp := .pF3, build := bXXI .cmpss, imm := true },
  { op := 0xC4, pp := .np, build := bPinM .pinsrw, imm := true },
  { op := 0xC4, pp := .p66, build := bPinX .pinsrw, imm := true },
  { op := 0xC5, pp := .np, build := bPexM .pextrw, mem := some false, imm := true },
  { op := 0xC5, pp := .p66, build := bPexX .pextrw, mem := some false, imm := true },
  { op := 0xC6, pp := .np, build := bXXI .shufps, imm := true },
  { op := 0xC6, pp := .p66, build := bXXI .shufpd, imm := true },
  { op := 0xD0, pp := .p66, build := bXX .addsubpd } ]

/-- Legacy rows of the map 0FH (rule R402), part 4. -/
def sse0Fp4 : List Row := [
  { op := 0xD0, pp := .pF2, build := bXX .addsubps },
  { op := 0xD1, pp := .np, build := bShM .psrlw },
  { op := 0xD1, pp := .p66, build := bShX .psrlw },
  { op := 0xD2, pp := .np, build := bShM .psrld },
  { op := 0xD2, pp := .p66, build := bShX .psrld },
  { op := 0xD3, pp := .np, build := bShM .psrlq },
  { op := 0xD3, pp := .p66, build := bShX .psrlq },
  { op := 0xD4, pp := .np, build := bMm .paddq },
  { op := 0xD4, pp := .p66, build := bMx .paddq },
  { op := 0xD5, pp := .np, build := bMm .pmullw },
  { op := 0xD5, pp := .p66, build := bMx .pmullw },
  { op := 0xD6, pp := .p66, build := bMovqXS .movqX },
  { op := 0xD6, pp := .pF2, build := bDq2q .movdq2q, mem := some false },
  { op := 0xD6, pp := .pF3, build := bQ2dq .movq2dq, mem := some false },
  { op := 0xD7, pp := .np, build := bGMm .pmovmskb, mem := some false },
  { op := 0xD7, pp := .p66, build := bGMx .pmovmskb, mem := some false },
  { op := 0xD8, pp := .np, build := bMm .psubusb },
  { op := 0xD8, pp := .p66, build := bMx .psubusb },
  { op := 0xD9, pp := .np, build := bMm .psubusw },
  { op := 0xD9, pp := .p66, build := bMx .psubusw },
  { op := 0xDA, pp := .np, build := bMm .pminub },
  { op := 0xDA, pp := .p66, build := bMx .pminub },
  { op := 0xDB, pp := .np, build := bMm .pand },
  { op := 0xDB, pp := .p66, build := bMx .pand },
  { op := 0xDC, pp := .np, build := bMm .paddusb },
  { op := 0xDC, pp := .p66, build := bMx .paddusb },
  { op := 0xDD, pp := .np, build := bMm .paddusw },
  { op := 0xDD, pp := .p66, build := bMx .paddusw },
  { op := 0xDE, pp := .np, build := bMm .pmaxub },
  { op := 0xDE, pp := .p66, build := bMx .pmaxub },
  { op := 0xDF, pp := .np, build := bMm .pandn },
  { op := 0xDF, pp := .p66, build := bMx .pandn },
  { op := 0xE0, pp := .np, build := bMm .pavgb },
  { op := 0xE0, pp := .p66, build := bMx .pavgb },
  { op := 0xE1, pp := .np, build := bShM .psraw },
  { op := 0xE1, pp := .p66, build := bShX .psraw },
  { op := 0xE2, pp := .np, build := bShM .psrad },
  { op := 0xE2, pp := .p66, build := bShX .psrad },
  { op := 0xE3, pp := .np, build := bMm .pavgw },
  { op := 0xE3, pp := .p66, build := bMx .pavgw },
  { op := 0xE4, pp := .np, build := bMm .pmulhuw },
  { op := 0xE4, pp := .p66, build := bMx .pmulhuw },
  { op := 0xE5, pp := .np, build := bMm .pmulhw },
  { op := 0xE5, pp := .p66, build := bMx .pmulhw },
  { op := 0xE6, pp := .p66, build := bXX .cvttpd2dq },
  { op := 0xE6, pp := .pF2, build := bXX .cvtpd2dq },
  { op := 0xE6, pp := .pF3, build := bXX .cvtdq2pd },
  { op := 0xE7, pp := .np, build := bMemM .movntq, mem := some true },
  { op := 0xE7, pp := .p66, build := bMemX .movntdq, mem := some true },
  { op := 0xE8, pp := .np, build := bMm .psubsb },
  { op := 0xE8, pp := .p66, build := bMx .psubsb },
  { op := 0xE9, pp := .np, build := bMm .psubsw },
  { op := 0xE9, pp := .p66, build := bMx .psubsw },
  { op := 0xEA, pp := .np, build := bMm .pminsw },
  { op := 0xEA, pp := .p66, build := bMx .pminsw },
  { op := 0xEB, pp := .np, build := bMm .por },
  { op := 0xEB, pp := .p66, build := bMx .por },
  { op := 0xEC, pp := .np, build := bMm .paddsb },
  { op := 0xEC, pp := .p66, build := bMx .paddsb },
  { op := 0xED, pp := .np, build := bMm .paddsw } ]

/-- Legacy rows of the map 0FH (rule R402), part 5. -/
def sse0Fp5 : List Row := [
  { op := 0xED, pp := .p66, build := bMx .paddsw },
  { op := 0xEE, pp := .np, build := bMm .pmaxsw },
  { op := 0xEE, pp := .p66, build := bMx .pmaxsw },
  { op := 0xEF, pp := .np, build := bMm .pxor },
  { op := 0xEF, pp := .p66, build := bMx .pxor },
  { op := 0xF0, pp := .pF2, build := bXMem .lddqu, mem := some true },
  { op := 0xF1, pp := .np, build := bShM .psllw },
  { op := 0xF1, pp := .p66, build := bShX .psllw },
  { op := 0xF2, pp := .np, build := bShM .pslld },
  { op := 0xF2, pp := .p66, build := bShX .pslld },
  { op := 0xF3, pp := .np, build := bShM .psllq },
  { op := 0xF3, pp := .p66, build := bShX .psllq },
  { op := 0xF4, pp := .np, build := bMm .pmuludq },
  { op := 0xF4, pp := .p66, build := bMx .pmuludq },
  { op := 0xF5, pp := .np, build := bMm .pmaddwd },
  { op := 0xF5, pp := .p66, build := bMx .pmaddwd },
  { op := 0xF6, pp := .np, build := bMm .psadbw },
  { op := 0xF6, pp := .p66, build := bMx .psadbw },
  { op := 0xF7, pp := .np, build := bMMask .maskmovq, mem := some false },
  { op := 0xF7, pp := .p66, build := bXMask .maskmovdqu, mem := some false },
  { op := 0xF8, pp := .np, build := bMm .psubb },
  { op := 0xF8, pp := .p66, build := bMx .psubb },
  { op := 0xF9, pp := .np, build := bMm .psubw },
  { op := 0xF9, pp := .p66, build := bMx .psubw },
  { op := 0xFA, pp := .np, build := bMm .psubd },
  { op := 0xFA, pp := .p66, build := bMx .psubd },
  { op := 0xFB, pp := .np, build := bMm .psubq },
  { op := 0xFB, pp := .p66, build := bMx .psubq },
  { op := 0xFC, pp := .np, build := bMm .paddb },
  { op := 0xFC, pp := .p66, build := bMx .paddb },
  { op := 0xFD, pp := .np, build := bMm .paddw },
  { op := 0xFD, pp := .p66, build := bMx .paddw },
  { op := 0xFE, pp := .np, build := bMm .paddd },
  { op := 0xFE, pp := .p66, build := bMx .paddd } ]

/-- Legacy rows of the map 0FH (rule R402). -/
def sse0F : List Row := sse0Fp1 ++ sse0Fp2 ++ sse0Fp3 ++ sse0Fp4 ++ sse0Fp5

/-- Legacy rows of the map 0FH 38H (rule R403), part 1. -/
def sse38p1 : List Row := [
  { op := 0x00, pp := .np, build := bMm .pshufb },
  { op := 0x00, pp := .p66, build := bMx .pshufb },
  { op := 0x01, pp := .np, build := bMm .phaddw },
  { op := 0x01, pp := .p66, build := bMx .phaddw },
  { op := 0x02, pp := .np, build := bMm .phaddd },
  { op := 0x02, pp := .p66, build := bMx .phaddd },
  { op := 0x03, pp := .np, build := bMm .phaddsw },
  { op := 0x03, pp := .p66, build := bMx .phaddsw },
  { op := 0x04, pp := .np, build := bMm .pmaddubsw },
  { op := 0x04, pp := .p66, build := bMx .pmaddubsw },
  { op := 0x05, pp := .np, build := bMm .phsubw },
  { op := 0x05, pp := .p66, build := bMx .phsubw },
  { op := 0x06, pp := .np, build := bMm .phsubd },
  { op := 0x06, pp := .p66, build := bMx .phsubd },
  { op := 0x07, pp := .np, build := bMm .phsubsw },
  { op := 0x07, pp := .p66, build := bMx .phsubsw },
  { op := 0x08, pp := .np, build := bMm .psignb },
  { op := 0x08, pp := .p66, build := bMx .psignb },
  { op := 0x09, pp := .np, build := bMm .psignw },
  { op := 0x09, pp := .p66, build := bMx .psignw },
  { op := 0x0A, pp := .np, build := bMm .psignd },
  { op := 0x0A, pp := .p66, build := bMx .psignd },
  { op := 0x0B, pp := .np, build := bMm .pmulhrsw },
  { op := 0x0B, pp := .p66, build := bMx .pmulhrsw },
  { op := 0x10, pp := .p66, build := bXX .pblendvb },
  { op := 0x14, pp := .p66, build := bXX .blendvps },
  { op := 0x15, pp := .p66, build := bXX .blendvpd },
  { op := 0x17, pp := .p66, build := bXX .ptest },
  { op := 0x1C, pp := .np, build := bMm .pabsb },
  { op := 0x1C, pp := .p66, build := bMx .pabsb },
  { op := 0x1D, pp := .np, build := bMm .pabsw },
  { op := 0x1D, pp := .p66, build := bMx .pabsw },
  { op := 0x1E, pp := .np, build := bMm .pabsd },
  { op := 0x1E, pp := .p66, build := bMx .pabsd },
  { op := 0x20, pp := .p66, build := bXX .pmovsxbw },
  { op := 0x21, pp := .p66, build := bXX .pmovsxbd },
  { op := 0x22, pp := .p66, build := bXX .pmovsxbq },
  { op := 0x23, pp := .p66, build := bXX .pmovsxwd },
  { op := 0x24, pp := .p66, build := bXX .pmovsxwq },
  { op := 0x25, pp := .p66, build := bXX .pmovsxdq },
  { op := 0x28, pp := .p66, build := bXX .pmuldq },
  { op := 0x29, pp := .p66, build := bXX .pcmpeqq },
  { op := 0x2A, pp := .p66, build := bXMem .movntdqa, mem := some true },
  { op := 0x2B, pp := .p66, build := bXX .packusdw },
  { op := 0x30, pp := .p66, build := bXX .pmovzxbw },
  { op := 0x31, pp := .p66, build := bXX .pmovzxbd },
  { op := 0x32, pp := .p66, build := bXX .pmovzxbq },
  { op := 0x33, pp := .p66, build := bXX .pmovzxwd },
  { op := 0x34, pp := .p66, build := bXX .pmovzxwq },
  { op := 0x35, pp := .p66, build := bXX .pmovzxdq },
  { op := 0x37, pp := .p66, build := bXX .pcmpgtq },
  { op := 0x38, pp := .p66, build := bXX .pminsb },
  { op := 0x39, pp := .p66, build := bXX .pminsd },
  { op := 0x3A, pp := .p66, build := bXX .pminuw },
  { op := 0x3B, pp := .p66, build := bXX .pminud },
  { op := 0x3C, pp := .p66, build := bXX .pmaxsb },
  { op := 0x3D, pp := .p66, build := bXX .pmaxsd },
  { op := 0x3E, pp := .p66, build := bXX .pmaxuw },
  { op := 0x3F, pp := .p66, build := bXX .pmaxud },
  { op := 0x40, pp := .p66, build := bXX .pmulld } ]

/-- Legacy rows of the map 0FH 38H (rule R403), part 2. -/
def sse38p2 : List Row := [
  { op := 0x41, pp := .p66, build := bXX .phminposuw },
  { op := 0xDB, pp := .p66, build := bXX .aesimc },
  { op := 0xDC, pp := .p66, build := bXX .aesenc },
  { op := 0xDD, pp := .p66, build := bXX .aesenclast },
  { op := 0xDE, pp := .p66, build := bXX .aesdec },
  { op := 0xDF, pp := .p66, build := bXX .aesdeclast } ]

/-- Legacy rows of the map 0FH 38H (rule R403). -/
def sse38 : List Row := sse38p1 ++ sse38p2

/-- Legacy rows of the map 0FH 3AH (rule R404), part 1. -/
def sse3Ap1 : List Row := [
  { op := 0x08, pp := .p66, build := bXXI .roundps, imm := true },
  { op := 0x09, pp := .p66, build := bXXI .roundpd, imm := true },
  { op := 0x0A, pp := .p66, build := bXXI .roundss, imm := true },
  { op := 0x0B, pp := .p66, build := bXXI .roundsd, imm := true },
  { op := 0x0C, pp := .p66, build := bXXI .blendps, imm := true },
  { op := 0x0D, pp := .p66, build := bXXI .blendpd, imm := true },
  { op := 0x0E, pp := .p66, build := bXXI .pblendw, imm := true },
  { op := 0x0F, pp := .np, build := bMmI .palignr, imm := true },
  { op := 0x0F, pp := .p66, build := bMxI .palignr, imm := true },
  { op := 0x14, pp := .p66, build := bExtr .pextrb, imm := true },
  { op := 0x15, pp := .p66, build := bPexRm .pextrw, imm := true },
  { op := 0x16, pp := .p66, build := bExtr .pextrd, w := .g0, imm := true },
  { op := 0x16, pp := .p66, build := bExtr .pextrq, w := .g1, imm := true },
  { op := 0x17, pp := .p66, build := bExtr .extractps, imm := true },
  { op := 0x20, pp := .p66, build := bIns .pinsrb, imm := true },
  { op := 0x21, pp := .p66, build := bXXI .insertps, imm := true },
  { op := 0x22, pp := .p66, build := bIns .pinsrd, w := .g0, imm := true },
  { op := 0x22, pp := .p66, build := bIns .pinsrq, w := .g1, imm := true },
  { op := 0x40, pp := .p66, build := bXXI .dpps, imm := true },
  { op := 0x41, pp := .p66, build := bXXI .dppd, imm := true },
  { op := 0x42, pp := .p66, build := bXXI .mpsadbw, imm := true },
  { op := 0x44, pp := .p66, build := bXXI .pclmulqdq, imm := true },
  { op := 0x60, pp := .p66, build := bStrCmp .pcmpestrm, imm := true },
  { op := 0x61, pp := .p66, build := bStrCmp .pcmpestri, imm := true },
  { op := 0x62, pp := .p66, build := bXXI .pcmpistrm, imm := true },
  { op := 0x63, pp := .p66, build := bStrCmp .pcmpistri, imm := true },
  { op := 0xDF, pp := .p66, build := bXXI .aeskeygenassist, imm := true } ]

/-- Legacy rows of the map 0FH 3AH (rule R404). -/
def sse3A : List Row := sse3Ap1

/-- VEX rows of the map 0FH (rule R402), part 1. -/
def vex0Fp1 : List Row := [
  { op := 0x10, pp := .np, build := bVLoad .vmovups, l := .both },
  { op := 0x10, pp := .p66, build := bVLoad .vmovupd, l := .both },
  { op := 0x10, pp := .pF2, build := bScalarR .vmovsd, mem := some false, v := true },
  { op := 0x10, pp := .pF2, build := bScalarL .vmovsd, mem := some true },
  { op := 0x10, pp := .pF3, build := bScalarR .vmovss, mem := some false, v := true },
  { op := 0x10, pp := .pF3, build := bScalarL .vmovss, mem := some true },
  { op := 0x11, pp := .np, build := bVStore .vmovups, l := .both },
  { op := 0x11, pp := .p66, build := bVStore .vmovupd, l := .both },
  { op := 0x11, pp := .pF2, build := bScalarR11 .vmovsd, mem := some false, v := true },
  { op := 0x11, pp := .pF2, build := bScalarS .vmovsd, mem := some true },
  { op := 0x11, pp := .pF3, build := bScalarR11 .vmovss, mem := some false, v := true },
  { op := 0x11, pp := .pF3, build := bScalarS .vmovss, mem := some true },
  { op := 0x12, pp := .np, build := bVReg3 .vmovhlps, mem := some false, l := .l0, v := true },
  { op := 0x12, pp := .np, build := bHalfL .vmovlps, mem := some true, l := .l0, v := true },
  { op := 0x12, pp := .p66, build := bHalfL .vmovlpd, mem := some true, l := .l0, v := true },
  { op := 0x12, pp := .pF2, build := bVX .vmovddup, l := .both },
  { op := 0x12, pp := .pF3, build := bVX .vmovsldup, l := .both },
  { op := 0x13, pp := .np, build := bHalfS .vmovlps, mem := some true, l := .l0 },
  { op := 0x13, pp := .p66, build := bHalfS .vmovlpd, mem := some true, l := .l0 },
  { op := 0x14, pp := .np, build := bVVX .vunpcklps, l := .both, v := true },
  { op := 0x14, pp := .p66, build := bVVX .vunpcklpd, l := .both, v := true },
  { op := 0x15, pp := .np, build := bVVX .vunpckhps, l := .both, v := true },
  { op := 0x15, pp := .p66, build := bVVX .vunpckhpd, l := .both, v := true },
  { op := 0x16, pp := .np, build := bHalfL .vmovhps, mem := some true, l := .l0, v := true },
  { op := 0x16, pp := .np, build := bVReg3 .vmovlhps, mem := some false, l := .l0, v := true },
  { op := 0x16, pp := .p66, build := bHalfL .vmovhpd, mem := some true, l := .l0, v := true },
  { op := 0x16, pp := .pF3, build := bVX .vmovshdup, l := .both },
  { op := 0x17, pp := .np, build := bHalfS .vmovhps, mem := some true, l := .l0 },
  { op := 0x17, pp := .p66, build := bHalfS .vmovhpd, mem := some true, l := .l0 },
  { op := 0x28, pp := .np, build := bVLoad .vmovaps, l := .both },
  { op := 0x28, pp := .p66, build := bVLoad .vmovapd, l := .both },
  { op := 0x29, pp := .np, build := bVStore .vmovaps, l := .both },
  { op := 0x29, pp := .p66, build := bVStore .vmovapd, l := .both },
  { op := 0x2A, pp := .pF2, build := bVXG .vcvtsi2sd, v := true },
  { op := 0x2A, pp := .pF3, build := bVXG .vcvtsi2ss, v := true },
  { op := 0x2B, pp := .np, build := bVMemX .vmovntps, mem := some true, l := .both },
  { op := 0x2B, pp := .p66, build := bVMemX .vmovntpd, mem := some true, l := .both },
  { op := 0x2C, pp := .pF2, build := bGX .vcvttsd2si },
  { op := 0x2C, pp := .pF3, build := bGX .vcvttss2si },
  { op := 0x2D, pp := .pF2, build := bGX .vcvtsd2si },
  { op := 0x2D, pp := .pF3, build := bGX .vcvtss2si },
  { op := 0x2E, pp := .np, build := bVX .vucomiss },
  { op := 0x2E, pp := .p66, build := bVX .vucomisd },
  { op := 0x2F, pp := .np, build := bVX .vcomiss },
  { op := 0x2F, pp := .p66, build := bVX .vcomisd },
  { op := 0x50, pp := .np, build := bVGMask .vmovmskps, mem := some false, l := .both },
  { op := 0x50, pp := .p66, build := bVGMask .vmovmskpd, mem := some false, l := .both },
  { op := 0x51, pp := .np, build := bVX .vsqrtps, l := .both },
  { op := 0x51, pp := .p66, build := bVX .vsqrtpd, l := .both },
  { op := 0x51, pp := .pF2, build := bVVX .vsqrtsd, v := true },
  { op := 0x51, pp := .pF3, build := bVVX .vsqrtss, v := true },
  { op := 0x52, pp := .np, build := bVX .vrsqrtps, l := .both },
  { op := 0x52, pp := .pF3, build := bVVX .vrsqrtss, v := true },
  { op := 0x53, pp := .np, build := bVX .vrcpps, l := .both },
  { op := 0x53, pp := .pF3, build := bVVX .vrcpss, v := true },
  { op := 0x54, pp := .np, build := bVVX .vandps, l := .both, v := true },
  { op := 0x54, pp := .p66, build := bVVX .vandpd, l := .both, v := true },
  { op := 0x55, pp := .np, build := bVVX .vandnps, l := .both, v := true },
  { op := 0x55, pp := .p66, build := bVVX .vandnpd, l := .both, v := true },
  { op := 0x56, pp := .np, build := bVVX .vorps, l := .both, v := true } ]

/-- VEX rows of the map 0FH (rule R402), part 2. -/
def vex0Fp2 : List Row := [
  { op := 0x56, pp := .p66, build := bVVX .vorpd, l := .both, v := true },
  { op := 0x57, pp := .np, build := bVVX .vxorps, l := .both, v := true },
  { op := 0x57, pp := .p66, build := bVVX .vxorpd, l := .both, v := true },
  { op := 0x58, pp := .np, build := bVVX .vaddps, l := .both, v := true },
  { op := 0x58, pp := .p66, build := bVVX .vaddpd, l := .both, v := true },
  { op := 0x58, pp := .pF2, build := bVVX .vaddsd, v := true },
  { op := 0x58, pp := .pF3, build := bVVX .vaddss, v := true },
  { op := 0x59, pp := .np, build := bVVX .vmulps, l := .both, v := true },
  { op := 0x59, pp := .p66, build := bVVX .vmulpd, l := .both, v := true },
  { op := 0x59, pp := .pF2, build := bVVX .vmulsd, v := true },
  { op := 0x59, pp := .pF3, build := bVVX .vmulss, v := true },
  { op := 0x5A, pp := .np, build := bVX .vcvtps2pd, l := .both },
  { op := 0x5A, pp := .p66, build := bVX .vcvtpd2ps, l := .both },
  { op := 0x5A, pp := .pF2, build := bVVX .vcvtsd2ss, v := true },
  { op := 0x5A, pp := .pF3, build := bVVX .vcvtss2sd, v := true },
  { op := 0x5B, pp := .np, build := bVX .vcvtdq2ps, l := .both },
  { op := 0x5B, pp := .p66, build := bVX .vcvtps2dq, l := .both },
  { op := 0x5B, pp := .pF3, build := bVX .vcvttps2dq, l := .both },
  { op := 0x5C, pp := .np, build := bVVX .vsubps, l := .both, v := true },
  { op := 0x5C, pp := .p66, build := bVVX .vsubpd, l := .both, v := true },
  { op := 0x5C, pp := .pF2, build := bVVX .vsubsd, v := true },
  { op := 0x5C, pp := .pF3, build := bVVX .vsubss, v := true },
  { op := 0x5D, pp := .np, build := bVVX .vminps, l := .both, v := true },
  { op := 0x5D, pp := .p66, build := bVVX .vminpd, l := .both, v := true },
  { op := 0x5D, pp := .pF2, build := bVVX .vminsd, v := true },
  { op := 0x5D, pp := .pF3, build := bVVX .vminss, v := true },
  { op := 0x5E, pp := .np, build := bVVX .vdivps, l := .both, v := true },
  { op := 0x5E, pp := .p66, build := bVVX .vdivpd, l := .both, v := true },
  { op := 0x5E, pp := .pF2, build := bVVX .vdivsd, v := true },
  { op := 0x5E, pp := .pF3, build := bVVX .vdivss, v := true },
  { op := 0x5F, pp := .np, build := bVVX .vmaxps, l := .both, v := true },
  { op := 0x5F, pp := .p66, build := bVVX .vmaxpd, l := .both, v := true },
  { op := 0x5F, pp := .pF2, build := bVVX .vmaxsd, v := true },
  { op := 0x5F, pp := .pF3, build := bVVX .vmaxss, v := true },
  { op := 0x60, pp := .p66, build := bVVX .vpunpcklbw, l := .both, v := true },
  { op := 0x61, pp := .p66, build := bVVX .vpunpcklwd, l := .both, v := true },
  { op := 0x62, pp := .p66, build := bVVX .vpunpckldq, l := .both, v := true },
  { op := 0x63, pp := .p66, build := bVVX .vpacksswb, l := .both, v := true },
  { op := 0x64, pp := .p66, build := bVVX .vpcmpgtb, l := .both, v := true },
  { op := 0x65, pp := .p66, build := bVVX .vpcmpgtw, l := .both, v := true },
  { op := 0x66, pp := .p66, build := bVVX .vpcmpgtd, l := .both, v := true },
  { op := 0x67, pp := .p66, build := bVVX .vpackuswb, l := .both, v := true },
  { op := 0x68, pp := .p66, build := bVVX .vpunpckhbw, l := .both, v := true },
  { op := 0x69, pp := .p66, build := bVVX .vpunpckhwd, l := .both, v := true },
  { op := 0x6A, pp := .p66, build := bVVX .vpunpckhdq, l := .both, v := true },
  { op := 0x6B, pp := .p66, build := bVVX .vpackssdw, l := .both, v := true },
  { op := 0x6C, pp := .p66, build := bVVX .vpunpcklqdq, l := .both, v := true },
  { op := 0x6D, pp := .p66, build := bVVX .vpunpckhqdq, l := .both, v := true },
  { op := 0x6E, pp := .p66, build := bVMovdL .vmovd, w := .g0, l := .l0 },
  { op := 0x6E, pp := .p66, build := bVMovdL .vmovqGp, w := .g1, l := .l0 },
  { op := 0x6F, pp := .p66, build := bVLoad .vmovdqa, l := .both },
  { op := 0x6F, pp := .pF3, build := bVLoad .vmovdqu, l := .both },
  { op := 0x70, pp := .p66, build := bVXI .vpshufd, l := .both, imm := true },
  { op := 0x70, pp := .pF2, build := bVXI .vpshuflw, l := .both, imm := true },
  { op := 0x70, pp := .pF3, build := bVXI .vpshufhw, l := .both, imm := true },
  { op := 0x71, pp := .p66, build := bVShI .vpsrlw, ext := some 2, mem := some false, l := .both, v := true, imm := true },
  { op := 0x71, pp := .p66, build := bVShI .vpsraw, ext := some 4, mem := some false, l := .both, v := true, imm := true },
  { op := 0x71, pp := .p66, build := bVShI .vpsllw, ext := some 6, mem := some false, l := .both, v := true, imm := true },
  { op := 0x72, pp := .p66, build := bVShI .vpsrld, ext := some 2, mem := some false, l := .both, v := true, imm := true },
  { op := 0x72, pp := .p66, build := bVShI .vpsrad, ext := some 4, mem := some false, l := .both, v := true, imm := true } ]

/-- VEX rows of the map 0FH (rule R402), part 3. -/
def vex0Fp3 : List Row := [
  { op := 0x72, pp := .p66, build := bVShI .vpslld, ext := some 6, mem := some false, l := .both, v := true, imm := true },
  { op := 0x73, pp := .p66, build := bVShI .vpsrlq, ext := some 2, mem := some false, l := .both, v := true, imm := true },
  { op := 0x73, pp := .p66, build := bVVI .vpsrldq, ext := some 3, mem := some false, l := .both, v := true, imm := true },
  { op := 0x73, pp := .p66, build := bVShI .vpsllq, ext := some 6, mem := some false, l := .both, v := true, imm := true },
  { op := 0x73, pp := .p66, build := bVVI .vpslldq, ext := some 7, mem := some false, l := .both, v := true, imm := true },
  { op := 0x74, pp := .p66, build := bVVX .vpcmpeqb, l := .both, v := true },
  { op := 0x75, pp := .p66, build := bVVX .vpcmpeqw, l := .both, v := true },
  { op := 0x76, pp := .p66, build := bVVX .vpcmpeqd, l := .both, v := true },
  { op := 0x7C, pp := .p66, build := bVVX .vhaddpd, l := .both, v := true },
  { op := 0x7C, pp := .pF2, build := bVVX .vhaddps, l := .both, v := true },
  { op := 0x7D, pp := .p66, build := bVVX .vhsubpd, l := .both, v := true },
  { op := 0x7D, pp := .pF2, build := bVVX .vhsubps, l := .both, v := true },
  { op := 0x7E, pp := .p66, build := bVMovdS .vmovd, w := .g0, l := .l0 },
  { op := 0x7E, pp := .p66, build := bVMovdS .vmovqGp, w := .g1, l := .l0 },
  { op := 0x7E, pp := .pF3, build := bVLoad .vmovqX, l := .l0 },
  { op := 0x7F, pp := .p66, build := bVStore .vmovdqa, l := .both },
  { op := 0x7F, pp := .pF3, build := bVStore .vmovdqu, l := .both },
  { op := 0xAE, pp := .np, build := bMem .vldmxcsr, ext := some 2, mem := some true, l := .l0 },
  { op := 0xAE, pp := .np, build := bMem .vstmxcsr, ext := some 3, mem := some true, l := .l0 },
  { op := 0xC2, pp := .np, build := bVVXI .vcmpps, l := .both, v := true, imm := true },
  { op := 0xC2, pp := .p66, build := bVVXI .vcmppd, l := .both, v := true, imm := true },
  { op := 0xC2, pp := .pF2, build := bVVXI .vcmpsd, v := true, imm := true },
  { op := 0xC2, pp := .pF3, build := bVVXI .vcmpss, v := true, imm := true },
  { op := 0xC4, pp := .p66, build := bVIns .vpinsrw, w := .b0, l := .l0, v := true, imm := true },
  { op := 0xC5, pp := .p66, build := bExtrC5 .vpextrw, mem := some false, w := .b0, l := .l0, imm := true },
  { op := 0xC6, pp := .np, build := bVVXI .vshufps, l := .both, v := true, imm := true },
  { op := 0xC6, pp := .p66, build := bVVXI .vshufpd, l := .both, v := true, imm := true },
  { op := 0xD0, pp := .p66, build := bVVX .vaddsubpd, l := .both, v := true },
  { op := 0xD0, pp := .pF2, build := bVVX .vaddsubps, l := .both, v := true },
  { op := 0xD1, pp := .p66, build := bVSh .vpsrlw, l := .both, v := true },
  { op := 0xD2, pp := .p66, build := bVSh .vpsrld, l := .both, v := true },
  { op := 0xD3, pp := .p66, build := bVSh .vpsrlq, l := .both, v := true },
  { op := 0xD4, pp := .p66, build := bVVX .vpaddq, l := .both, v := true },
  { op := 0xD5, pp := .p66, build := bVVX .vpmullw, l := .both, v := true },
  { op := 0xD6, pp := .p66, build := bVStore .vmovqX, l := .l0 },
  { op := 0xD7, pp := .p66, build := bVGMask .vpmovmskb, mem := some false, l := .both },
  { op := 0xD8, pp := .p66, build := bVVX .vpsubusb, l := .both, v := true },
  { op := 0xD9, pp := .p66, build := bVVX .vpsubusw, l := .both, v := true },
  { op := 0xDA, pp := .p66, build := bVVX .vpminub, l := .both, v := true },
  { op := 0xDB, pp := .p66, build := bVVX .vpand, l := .both, v := true },
  { op := 0xDC, pp := .p66, build := bVVX .vpaddusb, l := .both, v := true },
  { op := 0xDD, pp := .p66, build := bVVX .vpaddusw, l := .both, v := true },
  { op := 0xDE, pp := .p66, build := bVVX .vpmaxub, l := .both, v := true },
  { op := 0xDF, pp := .p66, build := bVVX .vpandn, l := .both, v := true },
  { op := 0xE0, pp := .p66, build := bVVX .vpavgb, l := .both, v := true },
  { op := 0xE1, pp := .p66, build := bVSh .vpsraw, l := .both, v := true },
  { op := 0xE2, pp := .p66, build := bVSh .vpsrad, l := .both, v := true },
  { op := 0xE3, pp := .p66, build := bVVX .vpavgw, l := .both, v := true },
  { op := 0xE4, pp := .p66, build := bVVX .vpmulhuw, l := .both, v := true },
  { op := 0xE5, pp := .p66, build := bVVX .vpmulhw, l := .both, v := true },
  { op := 0xE6, pp := .p66, build := bVX .vcvttpd2dq, l := .both },
  { op := 0xE6, pp := .pF2, build := bVX .vcvtpd2dq, l := .both },
  { op := 0xE6, pp := .pF3, build := bVX .vcvtdq2pd, l := .both },
  { op := 0xE7, pp := .p66, build := bVMemX .vmovntdq, mem := some true, l := .both },
  { op := 0xE8, pp := .p66, build := bVVX .vpsubsb, l := .both, v := true },
  { op := 0xE9, pp := .p66, build := bVVX .vpsubsw, l := .both, v := true },
  { op := 0xEA, pp := .p66, build := bVVX .vpminsw, l := .both, v := true },
  { op := 0xEB, pp := .p66, build := bVVX .vpor, l := .both, v := true },
  { op := 0xEC, pp := .p66, build := bVVX .vpaddsb, l := .both, v := true },
  { op := 0xED, pp := .p66, build := bVVX .vpaddsw, l := .both, v := true } ]

/-- VEX rows of the map 0FH (rule R402), part 4. -/
def vex0Fp4 : List Row := [
  { op := 0xEE, pp := .p66, build := bVVX .vpmaxsw, l := .both, v := true },
  { op := 0xEF, pp := .p66, build := bVVX .vpxor, l := .both, v := true },
  { op := 0xF0, pp := .pF2, build := bVXMem .vlddqu, mem := some true, l := .both },
  { op := 0xF1, pp := .p66, build := bVSh .vpsllw, l := .both, v := true },
  { op := 0xF2, pp := .p66, build := bVSh .vpslld, l := .both, v := true },
  { op := 0xF3, pp := .p66, build := bVSh .vpsllq, l := .both, v := true },
  { op := 0xF4, pp := .p66, build := bVVX .vpmuludq, l := .both, v := true },
  { op := 0xF5, pp := .p66, build := bVVX .vpmaddwd, l := .both, v := true },
  { op := 0xF6, pp := .p66, build := bVVX .vpsadbw, l := .both, v := true },
  { op := 0xF7, pp := .p66, build := bXMask .vmaskmovdqu, mem := some false, l := .l0 },
  { op := 0xF8, pp := .p66, build := bVVX .vpsubb, l := .both, v := true },
  { op := 0xF9, pp := .p66, build := bVVX .vpsubw, l := .both, v := true },
  { op := 0xFA, pp := .p66, build := bVVX .vpsubd, l := .both, v := true },
  { op := 0xFB, pp := .p66, build := bVVX .vpsubq, l := .both, v := true },
  { op := 0xFC, pp := .p66, build := bVVX .vpaddb, l := .both, v := true },
  { op := 0xFD, pp := .p66, build := bVVX .vpaddw, l := .both, v := true },
  { op := 0xFE, pp := .p66, build := bVVX .vpaddd, l := .both, v := true } ]

/-- VEX rows of the map 0FH (rule R402). -/
def vex0F : List Row := vex0Fp1 ++ vex0Fp2 ++ vex0Fp3 ++ vex0Fp4

/-- VEX rows of the map 0FH 38H (rule R403), part 1. -/
def vex38p1 : List Row := [
  { op := 0x00, pp := .p66, build := bVVX .vpshufb, l := .both, v := true },
  { op := 0x01, pp := .p66, build := bVVX .vphaddw, l := .both, v := true },
  { op := 0x02, pp := .p66, build := bVVX .vphaddd, l := .both, v := true },
  { op := 0x03, pp := .p66, build := bVVX .vphaddsw, l := .both, v := true },
  { op := 0x04, pp := .p66, build := bVVX .vpmaddubsw, l := .both, v := true },
  { op := 0x05, pp := .p66, build := bVVX .vphsubw, l := .both, v := true },
  { op := 0x06, pp := .p66, build := bVVX .vphsubd, l := .both, v := true },
  { op := 0x07, pp := .p66, build := bVVX .vphsubsw, l := .both, v := true },
  { op := 0x08, pp := .p66, build := bVVX .vpsignb, l := .both, v := true },
  { op := 0x09, pp := .p66, build := bVVX .vpsignw, l := .both, v := true },
  { op := 0x0A, pp := .p66, build := bVVX .vpsignd, l := .both, v := true },
  { op := 0x0B, pp := .p66, build := bVVX .vpmulhrsw, l := .both, v := true },
  { op := 0x0C, pp := .p66, build := bPermilV .vpermilps, w := .w0, l := .both, v := true },
  { op := 0x0D, pp := .p66, build := bPermilV .vpermilpd, w := .w0, l := .both, v := true },
  { op := 0x0E, pp := .p66, build := bVX .vtestps, w := .w0, l := .both },
  { op := 0x0F, pp := .p66, build := bVX .vtestpd, w := .w0, l := .both },
  { op := 0x13, pp := .p66, build := bVX .vcvtph2ps, w := .w0, l := .both },
  { op := 0x16, pp := .p66, build := bVVX .vpermps, w := .w0, l := .l1, v := true },
  { op := 0x17, pp := .p66, build := bVX .vptest, l := .both },
  { op := 0x18, pp := .p66, build := bVX .vbroadcastss, w := .w0, l := .both },
  { op := 0x19, pp := .p66, build := bVX .vbroadcastsd, w := .w0, l := .l1 },
  { op := 0x1A, pp := .p66, build := bVXMem .vbroadcastf128, mem := some true, w := .w0, l := .l1 },
  { op := 0x1C, pp := .p66, build := bVX .vpabsb, l := .both },
  { op := 0x1D, pp := .p66, build := bVX .vpabsw, l := .both },
  { op := 0x1E, pp := .p66, build := bVX .vpabsd, l := .both },
  { op := 0x20, pp := .p66, build := bVX .vpmovsxbw, l := .both },
  { op := 0x21, pp := .p66, build := bVX .vpmovsxbd, l := .both },
  { op := 0x22, pp := .p66, build := bVX .vpmovsxbq, l := .both },
  { op := 0x23, pp := .p66, build := bVX .vpmovsxwd, l := .both },
  { op := 0x24, pp := .p66, build := bVX .vpmovsxwq, l := .both },
  { op := 0x25, pp := .p66, build := bVX .vpmovsxdq, l := .both },
  { op := 0x28, pp := .p66, build := bVVX .vpmuldq, l := .both, v := true },
  { op := 0x29, pp := .p66, build := bVVX .vpcmpeqq, l := .both, v := true },
  { op := 0x2A, pp := .p66, build := bVXMem .vmovntdqa, mem := some true, l := .both },
  { op := 0x2B, pp := .p66, build := bVVX .vpackusdw, l := .both, v := true },
  { op := 0x2C, pp := .p66, build := bMaskL .vmaskmovps, mem := some true, w := .w0, l := .both, v := true },
  { op := 0x2D, pp := .p66, build := bMaskL .vmaskmovpd, mem := some true, w := .w0, l := .both, v := true },
  { op := 0x2E, pp := .p66, build := bMaskS .vmaskmovps, mem := some true, w := .w0, l := .both, v := true },
  { op := 0x2F, pp := .p66, build := bMaskS .vmaskmovpd, mem := some true, w := .w0, l := .both, v := true },
  { op := 0x30, pp := .p66, build := bVX .vpmovzxbw, l := .both },
  { op := 0x31, pp := .p66, build := bVX .vpmovzxbd, l := .both },
  { op := 0x32, pp := .p66, build := bVX .vpmovzxbq, l := .both },
  { op := 0x33, pp := .p66, build := bVX .vpmovzxwd, l := .both },
  { op := 0x34, pp := .p66, build := bVX .vpmovzxwq, l := .both },
  { op := 0x35, pp := .p66, build := bVX .vpmovzxdq, l := .both },
  { op := 0x36, pp := .p66, build := bVVX .vpermd, w := .w0, l := .l1, v := true },
  { op := 0x37, pp := .p66, build := bVVX .vpcmpgtq, l := .both, v := true },
  { op := 0x38, pp := .p66, build := bVVX .vpminsb, l := .both, v := true },
  { op := 0x39, pp := .p66, build := bVVX .vpminsd, l := .both, v := true },
  { op := 0x3A, pp := .p66, build := bVVX .vpminuw, l := .both, v := true },
  { op := 0x3B, pp := .p66, build := bVVX .vpminud, l := .both, v := true },
  { op := 0x3C, pp := .p66, build := bVVX .vpmaxsb, l := .both, v := true },
  { op := 0x3D, pp := .p66, build := bVVX .vpmaxsd, l := .both, v := true },
  { op := 0x3E, pp := .p66, build := bVVX .vpmaxuw, l := .both, v := true },
  { op := 0x3F, pp := .p66, build := bVVX .vpmaxud, l := .both, v := true },
  { op := 0x40, pp := .p66, build := bVVX .vpmulld, l := .both, v := true },
  { op := 0x41, pp := .p66, build := bVX .vphminposuw, l := .l0 },
  { op := 0x45, pp := .p66, build := bVVX .vpsrlvd, w := .w0, l := .both, v := true },
  { op := 0x45, pp := .p66, build := bVVX .vpsrlvq, w := .w1, l := .both, v := true },
  { op := 0x46, pp := .p66, build := bVVX .vpsravd, w := .w0, l := .both, v := true } ]

/-- VEX rows of the map 0FH 38H (rule R403), part 2. -/
def vex38p2 : List Row := [
  { op := 0x47, pp := .p66, build := bVVX .vpsllvd, w := .w0, l := .both, v := true },
  { op := 0x47, pp := .p66, build := bVVX .vpsllvq, w := .w1, l := .both, v := true },
  { op := 0x58, pp := .p66, build := bVX .vpbroadcastd, w := .w0, l := .both },
  { op := 0x59, pp := .p66, build := bVX .vpbroadcastq, w := .w0, l := .both },
  { op := 0x5A, pp := .p66, build := bVXMem .vbroadcasti128, mem := some true, w := .w0, l := .l1 },
  { op := 0x78, pp := .p66, build := bVX .vpbroadcastb, w := .w0, l := .both },
  { op := 0x79, pp := .p66, build := bVX .vpbroadcastw, w := .w0, l := .both },
  { op := 0x8C, pp := .p66, build := bMaskL .vpmaskmovd, mem := some true, w := .w0, l := .both, v := true },
  { op := 0x8C, pp := .p66, build := bMaskL .vpmaskmovq, mem := some true, w := .w1, l := .both, v := true },
  { op := 0x8E, pp := .p66, build := bMaskS .vpmaskmovd, mem := some true, w := .w0, l := .both, v := true },
  { op := 0x8E, pp := .p66, build := bMaskS .vpmaskmovq, mem := some true, w := .w1, l := .both, v := true },
  { op := 0x96, pp := .p66, build := bVVX .vfmaddsub132pd, w := .w1, l := .both, v := true },
  { op := 0x96, pp := .p66, build := bVVX .vfmaddsub132ps, w := .w0, l := .both, v := true },
  { op := 0x97, pp := .p66, build := bVVX .vfmsubadd132pd, w := .w1, l := .both, v := true },
  { op := 0x97, pp := .p66, build := bVVX .vfmsubadd132ps, w := .w0, l := .both, v := true },
  { op := 0x98, pp := .p66, build := bVVX .vfmadd132pd, w := .w1, l := .both, v := true },
  { op := 0x98, pp := .p66, build := bVVX .vfmadd132ps, w := .w0, l := .both, v := true },
  { op := 0x99, pp := .p66, build := bVVX .vfmadd132sd, w := .w1, v := true },
  { op := 0x99, pp := .p66, build := bVVX .vfmadd132ss, w := .w0, v := true },
  { op := 0x9A, pp := .p66, build := bVVX .vfmsub132pd, w := .w1, l := .both, v := true },
  { op := 0x9A, pp := .p66, build := bVVX .vfmsub132ps, w := .w0, l := .both, v := true },
  { op := 0x9B, pp := .p66, build := bVVX .vfmsub132sd, w := .w1, v := true },
  { op := 0x9B, pp := .p66, build := bVVX .vfmsub132ss, w := .w0, v := true },
  { op := 0x9C, pp := .p66, build := bVVX .vfnmadd132pd, w := .w1, l := .both, v := true },
  { op := 0x9C, pp := .p66, build := bVVX .vfnmadd132ps, w := .w0, l := .both, v := true },
  { op := 0x9D, pp := .p66, build := bVVX .vfnmadd132sd, w := .w1, v := true },
  { op := 0x9D, pp := .p66, build := bVVX .vfnmadd132ss, w := .w0, v := true },
  { op := 0x9E, pp := .p66, build := bVVX .vfnmsub132pd, w := .w1, l := .both, v := true },
  { op := 0x9E, pp := .p66, build := bVVX .vfnmsub132ps, w := .w0, l := .both, v := true },
  { op := 0x9F, pp := .p66, build := bVVX .vfnmsub132sd, w := .w1, v := true },
  { op := 0x9F, pp := .p66, build := bVVX .vfnmsub132ss, w := .w0, v := true },
  { op := 0xA6, pp := .p66, build := bVVX .vfmaddsub213pd, w := .w1, l := .both, v := true },
  { op := 0xA6, pp := .p66, build := bVVX .vfmaddsub213ps, w := .w0, l := .both, v := true },
  { op := 0xA7, pp := .p66, build := bVVX .vfmsubadd213pd, w := .w1, l := .both, v := true },
  { op := 0xA7, pp := .p66, build := bVVX .vfmsubadd213ps, w := .w0, l := .both, v := true },
  { op := 0xA8, pp := .p66, build := bVVX .vfmadd213pd, w := .w1, l := .both, v := true },
  { op := 0xA8, pp := .p66, build := bVVX .vfmadd213ps, w := .w0, l := .both, v := true },
  { op := 0xA9, pp := .p66, build := bVVX .vfmadd213sd, w := .w1, v := true },
  { op := 0xA9, pp := .p66, build := bVVX .vfmadd213ss, w := .w0, v := true },
  { op := 0xAA, pp := .p66, build := bVVX .vfmsub213pd, w := .w1, l := .both, v := true },
  { op := 0xAA, pp := .p66, build := bVVX .vfmsub213ps, w := .w0, l := .both, v := true },
  { op := 0xAB, pp := .p66, build := bVVX .vfmsub213sd, w := .w1, v := true },
  { op := 0xAB, pp := .p66, build := bVVX .vfmsub213ss, w := .w0, v := true },
  { op := 0xAC, pp := .p66, build := bVVX .vfnmadd213pd, w := .w1, l := .both, v := true },
  { op := 0xAC, pp := .p66, build := bVVX .vfnmadd213ps, w := .w0, l := .both, v := true },
  { op := 0xAD, pp := .p66, build := bVVX .vfnmadd213sd, w := .w1, v := true },
  { op := 0xAD, pp := .p66, build := bVVX .vfnmadd213ss, w := .w0, v := true },
  { op := 0xAE, pp := .p66, build := bVVX .vfnmsub213pd, w := .w1, l := .both, v := true },
  { op := 0xAE, pp := .p66, build := bVVX .vfnmsub213ps, w := .w0, l := .both, v := true },
  { op := 0xAF, pp := .p66, build := bVVX .vfnmsub213sd, w := .w1, v := true },
  { op := 0xAF, pp := .p66, build := bVVX .vfnmsub213ss, w := .w0, v := true },
  { op := 0xB6, pp := .p66, build := bVVX .vfmaddsub231pd, w := .w1, l := .both, v := true },
  { op := 0xB6, pp := .p66, build := bVVX .vfmaddsub231ps, w := .w0, l := .both, v := true },
  { op := 0xB7, pp := .p66, build := bVVX .vfmsubadd231pd, w := .w1, l := .both, v := true },
  { op := 0xB7, pp := .p66, build := bVVX .vfmsubadd231ps, w := .w0, l := .both, v := true },
  { op := 0xB8, pp := .p66, build := bVVX .vfmadd231pd, w := .w1, l := .both, v := true },
  { op := 0xB8, pp := .p66, build := bVVX .vfmadd231ps, w := .w0, l := .both, v := true },
  { op := 0xB9, pp := .p66, build := bVVX .vfmadd231sd, w := .w1, v := true },
  { op := 0xB9, pp := .p66, build := bVVX .vfmadd231ss, w := .w0, v := true },
  { op := 0xBA, pp := .p66, build := bVVX .vfmsub231pd, w := .w1, l := .both, v := true } ]

/-- VEX rows of the map 0FH 38H (rule R403), part 3. -/
def vex38p3 : List Row := [
  { op := 0xBA, pp := .p66, build := bVVX .vfmsub231ps, w := .w0, l := .both, v := true },
  { op := 0xBB, pp := .p66, build := bVVX .vfmsub231sd, w := .w1, v := true },
  { op := 0xBB, pp := .p66, build := bVVX .vfmsub231ss, w := .w0, v := true },
  { op := 0xBC, pp := .p66, build := bVVX .vfnmadd231pd, w := .w1, l := .both, v := true },
  { op := 0xBC, pp := .p66, build := bVVX .vfnmadd231ps, w := .w0, l := .both, v := true },
  { op := 0xBD, pp := .p66, build := bVVX .vfnmadd231sd, w := .w1, v := true },
  { op := 0xBD, pp := .p66, build := bVVX .vfnmadd231ss, w := .w0, v := true },
  { op := 0xBE, pp := .p66, build := bVVX .vfnmsub231pd, w := .w1, l := .both, v := true },
  { op := 0xBE, pp := .p66, build := bVVX .vfnmsub231ps, w := .w0, l := .both, v := true },
  { op := 0xBF, pp := .p66, build := bVVX .vfnmsub231sd, w := .w1, v := true },
  { op := 0xBF, pp := .p66, build := bVVX .vfnmsub231ss, w := .w0, v := true },
  { op := 0xDB, pp := .p66, build := bVX .vaesimc, l := .l0 },
  { op := 0xDC, pp := .p66, build := bVVX .vaesenc, l := .l0, v := true },
  { op := 0xDD, pp := .p66, build := bVVX .vaesenclast, l := .l0, v := true },
  { op := 0xDE, pp := .p66, build := bVVX .vaesdec, l := .l0, v := true },
  { op := 0xDF, pp := .p66, build := bVVX .vaesdeclast, l := .l0, v := true },
  { op := 0xF2, pp := .np, build := bVg3 .andn, l := .l0, v := true },
  { op := 0xF3, pp := .np, build := bVm .blsr, ext := some 1, l := .l0, v := true },
  { op := 0xF3, pp := .np, build := bVm .blsmsk, ext := some 2, l := .l0, v := true },
  { op := 0xF3, pp := .np, build := bVm .blsi, ext := some 3, l := .l0, v := true },
  { op := 0xF5, pp := .np, build := bVg3 .bzhi, l := .l0, v := true },
  { op := 0xF5, pp := .pF2, build := bVg3 .pdep, l := .l0, v := true },
  { op := 0xF5, pp := .pF3, build := bVg3 .pext, l := .l0, v := true },
  { op := 0xF6, pp := .pF2, build := bVg3 .mulx, l := .l0, v := true },
  { op := 0xF7, pp := .np, build := bVg3 .bextr, l := .l0, v := true },
  { op := 0xF7, pp := .p66, build := bVg3 .shlx, l := .l0, v := true },
  { op := 0xF7, pp := .pF2, build := bVg3 .shrx, l := .l0, v := true },
  { op := 0xF7, pp := .pF3, build := bVg3 .sarx, l := .l0, v := true } ]

/-- VEX rows of the map 0FH 38H (rule R403). -/
def vex38 : List Row := vex38p1 ++ vex38p2 ++ vex38p3

/-- VEX rows of the map 0FH 3AH (rule R404), part 1. -/
def vex3Ap1 : List Row := [
  { op := 0x00, pp := .p66, build := bVXI .vpermq, w := .w1, l := .l1, imm := true },
  { op := 0x01, pp := .p66, build := bVXI .vpermpd, w := .w1, l := .l1, imm := true },
  { op := 0x02, pp := .p66, build := bVVXI .vpblendd, w := .w0, l := .both, v := true, imm := true },
  { op := 0x04, pp := .p66, build := bPermilI .vpermilps, w := .w0, l := .both, imm := true },
  { op := 0x05, pp := .p66, build := bPermilI .vpermilpd, w := .w0, l := .both, imm := true },
  { op := 0x06, pp := .p66, build := bVVXI .vperm2f128, w := .w0, l := .l1, v := true, imm := true },
  { op := 0x08, pp := .p66, build := bVXI .vroundps, l := .both, imm := true },
  { op := 0x09, pp := .p66, build := bVXI .vroundpd, l := .both, imm := true },
  { op := 0x0A, pp := .p66, build := bVVXI .vroundss, v := true, imm := true },
  { op := 0x0B, pp := .p66, build := bVVXI .vroundsd, v := true, imm := true },
  { op := 0x0C, pp := .p66, build := bVVXI .vblendps, l := .both, v := true, imm := true },
  { op := 0x0D, pp := .p66, build := bVVXI .vblendpd, l := .both, v := true, imm := true },
  { op := 0x0E, pp := .p66, build := bVVXI .vpblendw, l := .both, v := true, imm := true },
  { op := 0x0F, pp := .p66, build := bVVXI .vpalignr, l := .both, v := true, imm := true },
  { op := 0x14, pp := .p66, build := bExtr .vpextrb, w := .b0, l := .l0, imm := true },
  { op := 0x15, pp := .p66, build := bExtr .vpextrw, w := .b0, l := .l0, imm := true },
  { op := 0x16, pp := .p66, build := bExtr .vpextrd, w := .w0, l := .l0, imm := true },
  { op := 0x16, pp := .p66, build := bExtr .vpextrq, w := .g1, l := .l0, imm := true },
  { op := 0x17, pp := .p66, build := bExtr .vextractps, l := .l0, imm := true },
  { op := 0x18, pp := .p66, build := bVVXI .vinsertf128, w := .w0, l := .l1, v := true, imm := true },
  { op := 0x19, pp := .p66, build := bVExt .vextractf128, w := .w0, l := .l1, imm := true },
  { op := 0x1D, pp := .p66, build := bVExt .vcvtps2ph, w := .w0, l := .both, imm := true },
  { op := 0x20, pp := .p66, build := bVIns .vpinsrb, w := .b0, l := .l0, v := true, imm := true },
  { op := 0x21, pp := .p66, build := bVVXI .vinsertps, l := .l0, v := true, imm := true },
  { op := 0x22, pp := .p66, build := bVIns .vpinsrd, w := .w0, l := .l0, v := true, imm := true },
  { op := 0x22, pp := .p66, build := bVIns .vpinsrq, w := .g1, l := .l0, v := true, imm := true },
  { op := 0x38, pp := .p66, build := bVVXI .vinserti128, w := .w0, l := .l1, v := true, imm := true },
  { op := 0x39, pp := .p66, build := bVExt .vextracti128, w := .w0, l := .l1, imm := true },
  { op := 0x40, pp := .p66, build := bVVXI .vdpps, l := .both, v := true, imm := true },
  { op := 0x41, pp := .p66, build := bVVXI .vdppd, l := .l0, v := true, imm := true },
  { op := 0x42, pp := .p66, build := bVVXI .vmpsadbw, l := .both, v := true, imm := true },
  { op := 0x44, pp := .p66, build := bVVXI .vpclmulqdq, l := .l0, v := true, imm := true },
  { op := 0x46, pp := .p66, build := bVVXI .vperm2i128, w := .w0, l := .l1, v := true, imm := true },
  { op := 0x4A, pp := .p66, build := bVVXR .vblendvps, w := .w0, l := .both, v := true, imm := true },
  { op := 0x4B, pp := .p66, build := bVVXR .vblendvpd, w := .w0, l := .both, v := true, imm := true },
  { op := 0x4C, pp := .p66, build := bVVXR .vpblendvb, w := .w0, l := .both, v := true, imm := true },
  { op := 0x60, pp := .p66, build := bVXI .vpcmpestrm, l := .l0, imm := true },
  { op := 0x61, pp := .p66, build := bVXI .vpcmpestri, l := .l0, imm := true },
  { op := 0x62, pp := .p66, build := bVXI .vpcmpistrm, l := .l0, imm := true },
  { op := 0x63, pp := .p66, build := bVXI .vpcmpistri, l := .l0, imm := true },
  { op := 0xDF, pp := .p66, build := bVXI .vaeskeygenassist, l := .l0, imm := true },
  { op := 0xF0, pp := .pF2, build := bRorx .rorx, l := .l0, imm := true } ]

/-- VEX rows of the map 0FH 3AH (rule R404). -/
def vex3A : List Row := vex3Ap1

/-! The decoder. -/

/-- The gathers by opcode and VEX.W (rule R403, opcodes 90H to 93H). -/
def gatherInstr (op : Nat) (w : Bool) : Option (VGather → Instr) :=
  match op, w with
  | 0x90, false => some .vpgatherdd | 0x90, true => some .vpgatherdq
  | 0x91, false => some .vpgatherqd | 0x91, true => some .vpgatherqq
  | 0x92, false => some .vgatherdps | 0x92, true => some .vgatherdpd
  | 0x93, false => some .vgatherqps | 0x93, true => some .vgatherqpd
  | _, _ => none

/-- The three opcode maps after the escape bytes (rule R302). -/
inductive OMap where
  | m0F | m38 | m3A
deriving DecidableEq, Repr

/-- The legacy rows of a map. -/
def legacyRows : OMap → List Row
  | .m0F => sse0F
  | .m38 => sse38
  | .m3A => sse3A

/-- The VEX rows of a map. -/
def vexRows : OMap → List Row
  | .m0F => vex0F
  | .m38 => vex38
  | .m3A => vex3A

/-- The entry of a legacy opcode of a map: Table A-3's plain rows first, then the rows with mandatory prefixes. -/
def legacyEntry (c : Dec) (mp : OMap) (op : Nat) : Entry :=
  let rest := rowEntry (legacyRows mp) c c.pp op
  let plain : Entry :=
    match mp with
    | .m0F => twoByte c op
    | .m38 => threeByte c op
    | .m3A => .blank
  match plain with
  | .blank => rest
  | e => e

/-- The entry of a VEX opcode (rule R360): VZEROUPPER and VZEROALL have no ModRM byte, the gathers a vector index. -/
def vexEntry (c : Dec) (mp : OMap) (pp : Pp) (op : Nat) : Entry :=
  if mp = .m0F ∧ op = 0x77 then
    (if pp = .np ∧ c.v = 0 then .op (if c.l then .vzeroall else .vzeroupper) else .blank)
  else if mp = .m38 ∧ 0x90 ≤ op ∧ op < 0x94 then
    (if pp = .p66 then .vsib fun c r a => (gatherInstr op c.w).map fun k => k ⟨c.len, r, c.v, a⟩ else .blank)
  else rowEntry (vexRows mp) c pp op

/-- Read the ModRM byte and what follows it. -/
def Dec.modrm (c : Dec) : P Modrm := do
  let b ← P.byte
  let reg := field3 b 3
  let rm := field3 b 0
  if modField b = 3 then return ⟨reg, .reg rm⟩
  else
    let a ← c.mem (modField b) rm
    return ⟨reg, .mem a⟩

/-- The low three bits of r/m of a register operand. -/
def Modrm.low (md : Modrm) : Fin 8 := md.mmB

/-- Do the fields select a form? Whether they do never depends on the immediate. -/
def Form.selected (f : Form) (c : Dec) (md : Modrm) : Bool := (f.build c md 0).isSome

/-- Read the immediate of a selected form and build the instruction (rule R302 steps 5 to 8): where no form is selected no
immediate byte is read. -/
def Dec.form (c : Dec) (f : Form) (md : Modrm) : P Instr := do
  if !f.selected c md then throw .undefined
  let v ← c.imm f.imm
  match f.build c md v with
  | none => throw .undefined
  | some i => if c.lock && !(f.lk && md.isMem) then throw .undefined else return i

/-- The rest of an instruction after its opcode. -/
def Dec.entry (c : Dec) : Entry → P Instr
  | .blank => throw .undefined
  | .direct f => c.form f {}
  | .regs f => do
    let b ← P.byte
    c.form f ⟨field3 b 3, .reg (field3 b 0)⟩
  | .modrm sel => do
    let md ← c.modrm
    match sel md.isMem md.reg md.low with
    | none => throw .undefined
    | some f => c.form f md
  | .vsib build => do
    let b ← P.byte
    let a ← c.vmem (modField b) (field3 b 0)
    match build c (extReg c.r (field3 b 3)) a with
    | none => throw .undefined
    | some i => if c.lock then throw .undefined else return i

/-- A segment override recorded (rules R310, R311): in 64-bit mode CS, DS and ES are ignored, and SS, whose base is 0 there,
only makes the access SS-relative (spec/20_memory.md rule R216) and replaces no FS or GS (DEDUCED: log entry 57). -/
def Dec.noteSeg (c : Dec) (s : SReg) : Dec :=
  if !c.m.long || decide (s = .fs ∨ s = .gs) || (decide (s = .ss) && c.seg.isNone) then { c with seg := some s } else c

/-- A legacy prefix byte recorded (rule R310). -/
def Dec.note (c : Dec) (b : Byte) : Option Dec :=
  match b.toNat with
  | 0x26 => some (c.noteSeg .es) | 0x2E => some (c.noteSeg .cs) | 0x36 => some (c.noteSeg .ss)
  | 0x3E => some (c.noteSeg .ds) | 0x64 => some (c.noteSeg .fs) | 0x65 => some (c.noteSeg .gs)
  | 0x66 => some { c with opsz := true } | 0x67 => some { c with adsz := true }
  | 0xF0 => some { c with lock := true } | 0xF2 => some { c with rep := some .f2 } | 0xF3 => some { c with rep := some .f3 }
  | _ => none

/-- Forget a REX byte that another byte follows as a prefix (rule R302 step 2). -/
def Dec.noRex (c : Dec) : Dec := { c with rex := false, w := false, r := false, x := false, b := false }
/-- Record a REX byte (rule R350). -/
def Dec.withRex (c : Dec) (b : Byte) : Dec :=
  { c with rex := true, w := b.getLsbD 3, r := b.getLsbD 2, x := b.getLsbD 1, b := b.getLsbD 0 }

/-- Read the legacy prefixes and REX (rule R302 steps 1 and 2). -/
def readPfx (c : Dec) : List Byte → Dec × List Byte
  | [] => (c, [])
  | b :: t =>
    match c.note b with
    | some c' => readPfx c'.noRex t
    | none => if c.m.long && decide (b.toNat / 16 = 4) then readPfx (c.withRex b) t else (c, b :: t)

/-- VEX.pp (rule R360). -/
def ppOf (b : Byte) : Pp :=
  match b.toNat % 4 with
  | 0 => .np | 1 => .p66 | 2 => .pF3 | _ => .pF2

/-- VEX.mmmmm (rule R360). -/
def mapOf (b : Byte) : Option OMap :=
  match b.toNat % 32 with
  | 1 => some .m0F | 2 => some .m38 | 3 => some .m3A
  | _ => none

/-- VEX.vvvv, un-inverted; outside 64-bit mode bit 3 is ignored (rule R360 (a)). -/
def vvvvOf (long : Bool) (b : Byte) : Reg := extReg (long && !b.getLsbD 6) (field3 (~~~b) 3)

/-- The rest of an instruction after a VEX prefix (rules R302 step 3, R360). -/
def Dec.vex (c : Dec) (three : Bool) : P Instr := do
  let b1 ← P.byte
  let b2 ← if three then P.byte else pure b1
  let mp := if three then mapOf b1 else some .m0F
  let long := c.m.long
  let c' : Dec := { c with
    r := long && !b1.getLsbD 7, x := three && long && !b1.getLsbD 6, b := three && long && !b1.getLsbD 5
    w := three && b2.getLsbD 7, v := vvvvOf long b2, l := b2.getLsbD 2 }
  let op ← P.byte
  if c.rex || c.lock || c.opsz || c.rep.isSome then throw .undefined
  match mp with
  | none => throw .undefined
  | some mp => c'.entry (vexEntry c' mp (ppOf b2) op.toNat)

/-- Does a C4H or C5H byte begin a VEX prefix (rules R302 step 3, R360 (a))? -/
def Dec.isVex (c : Dec) (op : Byte) (rest : List Byte) : Bool :=
  decide (op = 0xC4 ∨ op = 0xC5) && (c.m.long || (c.m.vex && rest.head?.any (fun b => decide (modField b = 3))))

/-- One instruction from its opcode on, with its first opcode byte and ModRM byte for the x87 opcode register. -/
def Dec.opcode (c : Dec) : P Instr := do
  let op ← P.byte
  let rest ← get
  if decide (op = 0xC4 ∨ op = 0xC5) && !c.m.long && c.m.vex && rest.isEmpty then throw .incomplete
  if c.isVex op rest then c.vex (decide (op = 0xC4))
  else if op = 0x0F then
    let b2 ← P.byte
    if b2 = 0x38 then
      let b3 ← P.byte
      c.entry (legacyEntry c .m38 b3.toNat)
    else if b2 = 0x3A then
      let b3 ← P.byte
      c.entry (legacyEntry c .m3A b3.toNat)
    else c.entry (legacyEntry c .m0F b2.toNat)
  else c.entry (oneByte op.toNat)

/-- A decoded instruction: its length, and the 11 bits the x87 opcode register holds for it (spec/10_state.md rule R124). -/
structure Decoded where
  instr : Instr
  len : Nat
  fop : BitVec 11

/-- The 11 opcode bits of an escape instruction, 0 for others. -/
def fopOf : List Byte → BitVec 11
  | op :: md :: _ => if op.toNat / 8 = 27 then (op.setWidth 3 ++ md) else 0
  | _ => 0

/-- Decode the instruction at the head of the bytes (rule R302). With fewer than 15 bytes the answer `incomplete` asks for
more; with 15 it is `tooLong` (rule R301). -/
def decode (m : CMode) (bytes : List Byte) : Except DecodeError Decoded :=
  let bs := bytes.take 15
  let (c, rest) := readPfx { m := m } bs
  match c.opcode rest with
  | .ok (i, left) => .ok { instr := i, len := bs.length - left.length, fop := fopOf rest }
  | .error .incomplete => .error (if 15 ≤ bytes.length then .tooLong else .incomplete)
  | .error e => .error e

/-- The bytes of a word, the first in bits 7:0, zeros above. -/
def wordBytes (w : Nat) : List Byte := (List.range 15).map fun i => BitVec.ofNat 8 (w / 256 ^ i)

/-- The modes `decodeTableWord` tries in turn: 16-bit, as after reset, 64-bit, and 32-bit protected mode. -/
def tableModes : List CMode :=
  [{ long := false, d32 := false, vex := false }, { long := true, d32 := true, vex := true },
   { long := false, d32 := true, vex := true }]

/-- The instruction the decoder reads from bits numbered as spec/opcode_table.json numbers them, in the first of
`tableModes` that decodes it. -/
def decodeTableWord (_nbits w : Nat) : Option Instr :=
  tableModes.findSome? fun m => (decode m (wordBytes w)).toOption.map (·.instr)

/-! The encoder: one encoding of each instruction that `Instr.wf` accepts (rules R300 to R362): a ModRM memory operand always
has the longest displacement, 32- and 64-bit ones a SIB byte unless they are RIP-relative; immediates and relative offsets
have the operand's size; a VEX prefix has three bytes. -/

/-- The low n bytes of a number, the least significant first (rule R303). -/
def leBytes : Nat → Nat → List Byte
  | 0, _ => []
  | n + 1, v => BitVec.ofNat 8 v :: leBytes n (v / 256)

/-- The prefix byte of a segment override (rule R311). -/
def SReg.byte : SReg → Byte
  | .es => 0x26 | .cs => 0x2E | .ss => 0x36 | .ds => 0x3E | .fs => 0x64 | .gs => 0x65
/-- The prefix byte F2H or F3H. -/
def RepPfx.byte : RepPfx → Byte
  | .f2 => 0xF2 | .f3 => 0xF3

/-- Does an address size need 67H (rule R320)? -/
def CMode.need67 (m : CMode) (a : ASize) : Bool :=
  if m.long then decide (a = .a32) else if m.d32 then decide (a = .a16) else decide (a = .a32)
/-- Does an operand width need 66H (rule R320)? -/
def CMode.need66 (m : CMode) (w : Width) : Bool :=
  match w with
  | .w16 => m.long || m.d32
  | .w32 => !m.long && !m.d32
  | _ => false

/-- The operand a ModRM byte's mod and r/m fields name. -/
inductive Loc where
  | reg (n : Reg)
  | mem (a : MemRef)
  | vm (a : VMem)
deriving DecidableEq, Repr

/-- The fourth bit of a register number. -/
def hiBit (r : Reg) : Bool := decide (8 ≤ r.val)
/-- The low three bits of a register number. -/
def loBits (r : Reg) : Nat := r.val % 8
/-- A ModRM or SIB byte from its fields. -/
def fields233 (a b c : Nat) : Byte := BitVec.ofNat 8 (64 * a + 8 * b + c)

/-- The segment override of an operand. -/
def Loc.ovr : Loc → Option SReg
  | .reg _ => none
  | .mem a => a.ovr
  | .vm a => a.ovr
/-- Does the operand need 67H? -/
def Loc.a67 (m : CMode) : Loc → Bool
  | .reg _ => false
  | .mem a => m.need67 a.asz
  | .vm a => m.need67 a.asz
/-- REX.X. -/
def Loc.x : Loc → Bool
  | .reg _ => false
  | .mem a => a.index.any hiBit
  | .vm a => hiBit a.index
/-- REX.B. -/
def Loc.b : Loc → Bool
  | .reg n => hiBit n
  | .mem a => a.base.any hiBit
  | .vm a => a.base.any hiBit

/-- The r/m field of a pair of 16-bit base and index registers (rule R332). -/
def rm16 : Option Reg → Option Reg → Nat
  | some 3, some 6 => 0 | some 3, some 7 => 1 | some 5, some 6 => 2 | some 5, some 7 => 3
  | some 6, none => 4 | some 7, none => 5 | some 5, none => 6 | _, _ => 7

/-- ModRM, SIB and displacement with the reg field given (rule R330). -/
def Loc.bytes (reg : Nat) : Loc → List Byte
  | .reg n => [fields233 3 reg (loBits n)]
  | .mem a =>
    match a.asz with
    | .a16 =>
      (if a.base.isNone then fields233 0 reg 6 else fields233 2 reg (rm16 a.base a.index)) :: leBytes 2 a.disp.toNat
    | _ =>
      if a.rip then fields233 0 reg 5 :: leBytes 4 a.disp.toNat
      else
        let idx := (a.index.map loBits).getD 4
        match a.base with
        | none => fields233 0 reg 4 :: fields233 a.scale.val idx 5 :: leBytes 4 a.disp.toNat
        | some b => fields233 2 reg 4 :: fields233 a.scale.val idx (loBits b) :: leBytes 4 a.disp.toNat
  | .vm a =>
    match a.base with
    | none => fields233 0 reg 4 :: fields233 a.scale.val (loBits a.index) 5 :: leBytes 4 a.disp.toNat
    | some b => fields233 2 reg 4 :: fields233 a.scale.val (loBits a.index) (loBits b) :: leBytes 4 a.disp.toNat

/-- What stands before ModRM in a legacy encoding: 66H, F2H or F3H, LOCK, REX.W, a REX byte kept for SPL and its kin, the
escape bytes and the opcode. -/
structure Head where
  op : Byte
  esc : List Byte := []
  opsz : Bool := false
  rep : Option RepPfx := none
  lock : Bool := false
  w : Bool := false
  keep : Bool := false

/-- The REX byte, if one is needed (rule R350). -/
def rexBytes (w r x b keep : Bool) : List Byte :=
  if w || r || x || b || keep then
    [0x40 ||| (if w then 8 else 0) ||| (if r then 4 else 0) ||| (if x then 2 else 0) ||| (if b then 1 else 0)]
  else []

/-- The legacy prefixes (rule R310). -/
def pfxBytes (ovr : Option SReg) (a67 opsz : Bool) (rep : Option RepPfx) (lock : Bool) : List Byte :=
  (ovr.map SReg.byte).toList ++ (if a67 then [0x67] else []) ++ (if opsz then [0x66] else []) ++
  (rep.map RepPfx.byte).toList ++ (if lock then [0xF0] else [])

/-- A legacy encoding with ModRM: the register number of the reg field, the r/m operand, the immediate bytes. -/
def legacy (m : CMode) (h : Head) (reg : Reg) (l : Loc) (imm : List Byte) : List Byte :=
  pfxBytes l.ovr (l.a67 m) h.opsz h.rep h.lock ++ rexBytes h.w (hiBit reg) l.x l.b h.keep ++ h.esc ++ [h.op] ++
  l.bytes (loBits reg) ++ imm

/-- A legacy encoding without ModRM, `b` for a register in the opcode. -/
def plain (h : Head) (b : Bool) (imm : List Byte) : List Byte :=
  pfxBytes none false h.opsz h.rep h.lock ++ rexBytes h.w false false b h.keep ++ h.esc ++ [h.op] ++ imm

/-- The escape bytes of a map. -/
def OMap.esc : OMap → List Byte
  | .m0F => [0x0F] | .m38 => [0x0F, 0x38] | .m3A => [0x0F, 0x3A]
/-- VEX.mmmmm. -/
def OMap.num : OMap → Nat
  | .m0F => 1 | .m38 => 2 | .m3A => 3
/-- VEX.pp. -/
def Pp.num : Pp → Nat
  | .np => 0 | .p66 => 1 | .pF3 => 2 | .pF2 => 3
/-- The mandatory prefix as part of a head. -/
def Pp.head (p : Pp) (mp : OMap) (op : Byte) (w : Bool := false) : Head :=
  { op := op, esc := mp.esc, opsz := decide (p = .p66), w := w,
    rep := match p with | .pF3 => some .f3 | .pF2 => some .f2 | _ => none }

/-- The three bytes of a VEX prefix and the opcode (rule R360). -/
def vexBytes (p : Pp) (mp : OMap) (op : Byte) (r x b w : Bool) (v : Reg) (l : Bool) : List Byte :=
  [0xC4,
   BitVec.ofNat 8 ((if r then 0 else 128) + (if x then 0 else 64) + (if b then 0 else 32) + mp.num),
   BitVec.ofNat 8 ((if w then 128 else 0) + 8 * (15 - v.val) + (if l then 4 else 0) + p.num), op]

/-- A VEX encoding. -/
def vexed (m : CMode) (p : Pp) (mp : OMap) (op : Byte) (w : Bool) (l : VLen) (v reg : Reg) (x : Loc) (imm : List Byte) :
    List Byte :=
  pfxBytes x.ovr (x.a67 m) false none false ++ vexBytes p mp op (hiBit reg) x.x x.b w v (decide (l = .l256)) ++
  x.bytes (loBits reg) ++ imm

/-! Operands. -/

/-- The number of a general register operand in an encoding (rule R335). -/
def Gp.num : Gp → Reg
  | .lo r => r
  | .hi r => ⟨r.val + 4, by omega⟩
/-- SPL, BPL, SIL, DIL need a REX byte (rule R335). -/
def Gp.keep (w : Width) : Gp → Bool
  | .lo r => decide (w = .w8) && decide (4 ≤ r.val)
  | .hi _ => false
/-- As an r/m operand. -/
def Rm.loc : Rm → Loc
  | .reg g => .reg g.num
  | .mem a => .mem a
/-- Does it need a REX byte kept? -/
def Rm.keep (w : Width) : Rm → Bool
  | .reg g => g.keep w
  | .mem _ => false
/-- As an r/m operand. -/
def Xm.loc : Xm → Loc
  | .reg r => .reg r
  | .mem a => .mem a
/-- An MMX register number as a register number. -/
def mmReg (r : Fin 8) : Reg := ⟨r.val, by omega⟩
/-- As an r/m operand. -/
def Mm.loc : Mm → Loc
  | .reg r => .reg (mmReg r)
  | .mem a => .mem a
/-- An opcode extension as the reg field. -/
def digit (n : Fin 8) : Reg := ⟨n.val, by omega⟩

/-- The opcode with bit 0 set for operands wider than a byte. -/
def wOp (op : Nat) (w : Width) : Byte := BitVec.ofNat 8 (op + if w = .w8 then 0 else 1)
/-- The head of an instruction with a general operand width. -/
def CMode.head (m : CMode) (w : Width) (op : Byte) (esc : List Byte := []) (keep : Bool := false) : Head :=
  { op := op, esc := esc, opsz := m.need66 w, w := decide (w = .w64), keep := keep }
/-- The head where 64-bit mode's default is 64 bits and no REX.W is needed (rule R321). -/
def CMode.head64 (m : CMode) (w : Width) (op : Byte) (esc : List Byte := []) : Head :=
  { op := op, esc := esc, opsz := m.need66 w }
/-- An immediate of an operand width, at most four bytes. -/
def immZ (w : Width) (v : BitVec 32) : List Byte :=
  leBytes (match w with | .w8 => 1 | .w16 => 2 | _ => 4) v.toNat
/-- A relative offset: four bytes in 64-bit mode (decision D73). -/
def relZ (w : Width) (v : BitVec 32) : List Byte := leBytes (if w = .w16 then 2 else 4) v.toNat

/-- F0H, with F2H or F3H. -/
structure Hint where
  lock : Bool := false
  rep : Option RepPfx := none
/-- The head with them. -/
def Head.hint (h : Head) (t : Hint) : Head := { h with lock := t.lock, rep := if t.rep.isSome then t.rep else h.rep }

/-- r/m and a register. -/
def encMr (m : CMode) (t : Hint) (op : Nat) (esc : List Byte) (w : Width) (d : Rm) (g : Gp) : List Byte :=
  legacy m ((m.head w (wOp op w) esc (d.keep w || g.keep w)).hint t) g.num d.loc []
/-- r/m and an immediate, with an opcode extension. -/
def encMi (m : CMode) (t : Hint) (op : Nat) (n : Fin 8) (w : Width) (d : Rm) (i : BitVec 32) : List Byte :=
  legacy m ((m.head w (wOp op w) [] (d.keep w)).hint t) (digit n) d.loc (immZ w i)
/-- r/m alone, with an opcode extension. -/
def encUn (m : CMode) (t : Hint) (op : Nat) (n : Fin 8) (o : RmOp) : List Byte :=
  legacy m ((m.head o.w (wOp op o.w) [] (o.rm.keep o.w)).hint t) (digit n) o.rm.loc []

/-- Group 1. -/
def encAlu (m : CMode) (n : Fin 8) : AluOps → List Byte
  | .mr w d g => encMr m {} (8 * n.val) [] w d g
  | .rm w g s => encMr m {} (8 * n.val + 2) [] w s g
  | .mi w d i => encMi m {} 0x80 n w d i
/-- Group 2. -/
def encShift (m : CMode) (n : Fin 8) (o : ShiftOps) : List Byte :=
  let h (op : Nat) : Head := m.head o.w (wOp op o.w) [] (o.dst.keep o.w)
  match o.cnt with
  | .one => legacy m (h 0xD0) (digit n) o.dst.loc []
  | .cl => legacy m (h 0xD2) (digit n) o.dst.loc []
  | .imm i => legacy m (h 0xC0) (digit n) o.dst.loc [i]
/-- SHLD, SHRD: opcode, opcode + 1 by CL. -/
def encDShift (m : CMode) (op : Byte) (o : DShiftOps) : List Byte :=
  match o.cnt with
  | .imm i => legacy m (m.head o.w op [0x0F]) o.src o.dst.loc [i]
  | _ => legacy m (m.head o.w (op + 1) [0x0F]) o.src o.dst.loc []
/-- r, r/m in the two-byte map. -/
def encRegRm (m : CMode) (rep : Option RepPfx) (op : Byte) (o : RegRm) : List Byte :=
  legacy m { m.head o.w op [0x0F] with rep := rep } o.dst o.src.loc []
/-- r, r/m16 in the two-byte map: LAR, LSL. -/
def encLar (m : CMode) (op : Byte) (o : RegRm) : List Byte := legacy m (m.head o.w op [0x0F]) o.dst o.src.loc []
/-- ADCX, ADOX. -/
def encAdx (m : CMode) (p : Pp) (o : RegRm) : List Byte :=
  legacy m (p.head .m38 0xF6 (decide (o.w = .w64))) o.dst o.src.loc []
/-- Group 17. -/
def encVm (m : CMode) (n : Fin 8) (o : RegRm) : List Byte :=
  vexed m .np .m38 0xF3 (decide (o.w = .w64)) .l128 o.dst (digit n) o.src.loc []
/-- IMUL. -/
def encImul (m : CMode) : ImulOps → List Byte
  | .one w s => encUn m {} 0xF6 5 ⟨w, s⟩
  | .two w d s => legacy m (m.head w 0xAF [0x0F]) d s.loc []
  | .three w d s i => legacy m (m.head w 0x69) d s.loc (immZ w i)
/-- BT and its kin. -/
def encBit (m : CMode) (t : Hint) (n : Fin 8) (o : BitOps) : List Byte :=
  match o.src with
  | .reg r => legacy m ((m.head o.w (BitVec.ofNat 8 (0x83 + 8 * n.val)) [0x0F]).hint t) r o.dst.loc []
  | .imm i => legacy m ((m.head o.w 0xBA [0x0F]).hint t) (digit n) o.dst.loc [i]
/-- TEST. -/
def encTest (m : CMode) : TestOps → List Byte
  | .mr w d g => encMr m {} 0x84 [] w d g
  | .mi w d i => encMi m {} 0xF6 0 w d i
/-- MOVSX, MOVZX. -/
def encExt (m : CMode) (op : Nat) (o : ExtOps) : List Byte :=
  legacy m (m.head o.w (wOp op o.sw) [0x0F] (o.src.keep o.sw)) o.dst o.src.loc []
/-- MOVSXD. -/
def encMovsxd (m : CMode) (o : ExtOps) : List Byte := legacy m (m.head o.w 0x63) o.dst o.src.loc []
/-- CRC32. -/
def encCrc (m : CMode) (o : CrcOps) : List Byte :=
  legacy m { op := wOp 0xF0 o.sw, esc := [0x0F, 0x38], opsz := m.need66 o.sw, rep := some .f2, w := decide (o.w = .w64),
             keep := o.src.keep o.sw } o.dst o.src.loc []
/-- BSWAP. -/
def encBswap (m : CMode) (o : RegOp) : List Byte :=
  plain (m.head o.w (BitVec.ofNat 8 (0xC8 + loBits o.reg)) [0x0F]) (hiBit o.reg) []
/-- RDRAND, RDSEED. -/
def encRand (m : CMode) (n : Fin 8) (o : RegOp) : List Byte :=
  legacy m (m.head o.w 0xC7 [0x0F]) (digit n) (.reg o.reg) []
/-- RDFSBASE and its kin. -/
def encBase (m : CMode) (n : Fin 8) (o : RegOp) : List Byte :=
  legacy m { op := 0xAE, esc := [0x0F], rep := some .f3, w := decide (o.w = .w64) } (digit n) (.reg o.reg) []
/-- r, m. -/
def encRegMem (m : CMode) (op : Byte) (esc : List Byte) (o : RegMem) : List Byte :=
  legacy m (m.head o.w op esc) o.reg (.mem o.mem) []
/-- MOVNTI. -/
def encMovnti (m : CMode) (o : RegMem) : List Byte :=
  legacy m { op := 0xC3, esc := [0x0F], w := decide (o.w = .w64) } o.reg (.mem o.mem) []
/-- INVPCID. -/
def encInvpcid (m : CMode) (o : RegMem) : List Byte := legacy m (Pp.p66.head .m38 0x82) o.reg (.mem o.mem) []
/-- MOVBE. -/
def encMovbe (m : CMode) : MovbeOps → List Byte
  | .load w r a => legacy m (m.head w 0xF0 [0x0F, 0x38]) r (.mem a) []
  | .store w a r => legacy m (m.head w 0xF1 [0x0F, 0x38]) r (.mem a) []
/-- Three general operands under VEX. -/
def encVg3 (m : CMode) (p : Pp) (op : Byte) (o : Vg3) : List Byte :=
  vexed m p .m38 op (decide (o.w = .w64)) .l128 o.a o.dst o.b.loc []
/-- RORX. -/
def encRorx (m : CMode) (o : RorxOps) : List Byte :=
  vexed m .pF2 .m3A 0xF0 (decide (o.w = .w64)) .l128 0 o.dst o.src.loc [o.imm]
/-- PUSH. -/
def encPush (m : CMode) : PushOps → List Byte
  | .rm w s => legacy m (m.head64 w 0xFF) 6 s.loc []
  | .imm w v => plain (m.head64 w 0x68) false (immZ w v)
  | .seg w .fs => plain (m.head64 w 0xA0 [0x0F]) false []
  | .seg w .gs => plain (m.head64 w 0xA8 [0x0F]) false []
  | .seg w r => plain (m.head64 w (BitVec.ofNat 8 (6 + 8 * r.num.val))) false []
/-- POP Sreg. -/
def encPopSeg (m : CMode) (o : SegOp) : List Byte :=
  match o.seg with
  | .fs => plain (m.head64 o.w 0xA1 [0x0F]) false []
  | .gs => plain (m.head64 o.w 0xA9 [0x0F]) false []
  | r => plain (m.head64 o.w (BitVec.ofNat 8 (7 + 8 * r.num.val))) false []
/-- POP r/m. -/
def encPop (m : CMode) (o : RmOp) : List Byte := legacy m (m.head64 o.w 0x8F) 0 o.rm.loc []
/-- MOV. -/
def encMov (m : CMode) : MovOps → List Byte
  | .mr w d g => encMr m {} 0x88 [] w d g
  | .rm w g s => encMr m {} 0x8A [] w s g
  | .mi w (.reg g) i =>
    plain (m.head w (BitVec.ofNat 8 ((if w = .w8 then 0xB0 else 0xB8) + loBits g.num)) [] (g.keep w)) (hiBit g.num)
      (leBytes w.bytes i.toNat)
  | .mi w (.mem a) i => encMi m {} 0xC6 0 w (.mem a) (i.setWidth 32)
  | .fromMoffs w a => moffs 0xA0 w a
  | .toMoffs w a => moffs 0xA2 w a
where
  /-- A `moffs` form. -/
  moffs (op : Nat) (w : Width) (a : Moffs) : List Byte :=
    let h := m.head w (wOp op w)
    pfxBytes a.ovr (m.need67 a.asz) h.opsz none false ++ rexBytes h.w false false false false ++ [h.op] ++
    leBytes (a.asz.bits / 8) a.off.toNat
/-- MOV Sreg. -/
def encMovSeg (m : CMode) : MovSegOps → List Byte
  | .load r s => legacy m { op := 0x8E } (digit (r.num.castLE (by decide))) s.loc []
  | .store w (.reg g) r => legacy m (m.head w 0x8C) (digit (r.num.castLE (by decide))) (.reg g.num) []
  | .store _ (.mem a) r => legacy m { op := 0x8C } (digit (r.num.castLE (by decide))) (.mem a) []
/-- MOV CR. -/
def encMovCr (m : CMode) : MovCrOps → List Byte
  | .load c r => legacy m { op := 0x22, esc := [0x0F] } c (.reg r) []
  | .store r c => legacy m { op := 0x20, esc := [0x0F] } c (.reg r) []
/-- MOV DR. -/
def encMovDr (m : CMode) : MovDrOps → List Byte
  | .load d r => legacy m { op := 0x23, esc := [0x0F] } (digit d) (.reg r) []
  | .store r d => legacy m { op := 0x21, esc := [0x0F] } (digit d) (.reg r) []
/-- A conditional jump. -/
def encJcc (m : CMode) (n : Fin 16) (o : JccOps) : List Byte :=
  plain (m.head64 o.w (BitVec.ofNat 8 (0x80 + n.val)) [0x0F]) false (relZ o.w o.rel)
/-- SETcc. -/
def encSet (m : CMode) (n : Fin 16) (x : Rm) : List Byte :=
  legacy m { op := BitVec.ofNat 8 (0x90 + n.val), esc := [0x0F], keep := x.keep .w8 } 0 x.loc []
/-- LOOP and its kin. -/
def encLoop (m : CMode) (op : Byte) (o : LoopOps) : List Byte :=
  pfxBytes none (m.need67 o.a) (m.need66 o.w) none false ++ [op, o.rel]
/-- JCXZ, JECXZ, JRCXZ. -/
def encJcxz (m : CMode) (a : ASize) (o : JcxzOps) : List Byte := encLoop m 0xE3 ⟨o.w, a, o.rel⟩
/-- A far pointer. -/
def encFarPtr (m : CMode) (op : Byte) (p : FarPtr) : List Byte :=
  plain (m.head64 p.w op) false (leBytes (if p.w = .w16 then 2 else 4) p.off.toNat ++ leBytes 2 p.sel.toNat)
/-- A far pointer in memory. -/
def encFarMem (m : CMode) (n : Fin 8) (p : FarMem) : List Byte := legacy m (m.head p.w 0xFF) (digit n) (.mem p.mem) []
/-- CALL. -/
def encCall (m : CMode) : CallOps → List Byte
  | .rel w d => plain (m.head64 w 0xE8) false (relZ w d)
  | .ind w t => legacy m (m.head64 w 0xFF) 2 t.loc []
  | .ptr p => encFarPtr m 0x9A p
  | .far p => encFarMem m 3 p
/-- Near JMP. -/
def encJmp (m : CMode) : JmpOps → List Byte
  | .rel w d => plain (m.head64 w 0xE9) false (relZ w d)
  | .ind w t => legacy m (m.head64 w 0xFF) 4 t.loc []
/-- Far JMP. -/
def encJmpFar (m : CMode) : FarOps → List Byte
  | .ptr p => encFarPtr m 0xEA p
  | .far p => encFarMem m 5 p
/-- Near RET. -/
def encRet (m : CMode) (o : RetOps) : List Byte :=
  match o.imm with
  | none => plain (m.head64 o.w 0xC3) false []
  | some n => plain (m.head64 o.w 0xC2) false (leBytes 2 n.toNat)
/-- Far RET. -/
def encRetFar (m : CMode) (o : RetOps) : List Byte :=
  match o.imm with
  | none => plain (m.head o.w 0xCB) false []
  | some n => plain (m.head o.w 0xCA) false (leBytes 2 n.toNat)
/-- ENTER. -/
def encEnter (m : CMode) (o : EnterOps) : List Byte :=
  plain (m.head64 o.w 0xC8) false (leBytes 2 o.size.toNat ++ [o.level])
/-- An instruction with a width and no operands. -/
def encW (m : CMode) (w : Width) (op : Byte) (esc : List Byte := []) : List Byte := plain (m.head w op esc) false []
/-- The same with the stack's default width. -/
def encW64 (m : CMode) (w : Width) (op : Byte) : List Byte := plain (m.head64 w op) false []
/-- IN, OUT: the opcode with an immediate port. -/
def encIo (m : CMode) (op : Nat) (o : IoOps) : List Byte :=
  match o.port with
  | .imm n => plain (m.head64 o.w (wOp op o.w)) false [n]
  | .dx => plain (m.head64 o.w (wOp (op + 8) o.w)) false []
/-- A string instruction. -/
def encStr (m : CMode) (rep : Option RepPfx) (op : Nat) (o : RepArgs) : List Byte :=
  let h := m.head o.w (wOp op o.w)
  pfxBytes o.ovr (m.need67 o.a) h.opsz rep false ++ rexBytes h.w false false false false ++ [h.op]
/-- A string instruction without operands. -/
def encStrN (m : CMode) (op : Nat) (w : Width) (a : ASize) : List Byte := encStr m none op ⟨w, a, none⟩
/-- A string instruction with a segment override. -/
def encStrS (m : CMode) (op : Nat) (o : StrOps) : List Byte := encStr m none op ⟨o.w, o.a, some o.ovr⟩
/-- REP. -/
def encRep (m : CMode) : RepOp → List Byte
  | .ins o => encStr m (some .f3) 0x6C o
  | .outs o => encStr m (some .f3) 0x6E o
  | .movs o => encStr m (some .f3) 0xA4 o
  | .lods o => encStr m (some .f3) 0xAC o
  | .stos o => encStr m (some .f3) 0xAA o
/-- REPE, REPNE. -/
def encRepCmp (m : CMode) (p : RepPfx) : RepCmpOp → List Byte
  | .cmps o => encStr m (some p) 0xA6 o
  | .scas o => encStr m (some p) 0xAE o
/-- An address size, a segment override and fixed bytes. -/
def encAddr (m : CMode) (a : ASize) (ovr : Option SReg) (bs : List Byte) : List Byte :=
  pfxBytes ovr (m.need67 a) false none false ++ bs
/-- XBEGIN. -/
def encXbegin (m : CMode) (o : XbeginOps) : List Byte := plain (m.head o.w 0xC7) false (0xF8 :: immZ o.w o.rel)
/-- NOP. -/
def encNop (m : CMode) : Option RmOp → List Byte
  | none => [0x90]
  | some o => legacy m (m.head o.w 0x1F [0x0F]) 0 o.rm.loc []
/-- An opcode extension and a 16-bit r/m operand: groups 6 and 7. -/
def encRm16 (m : CMode) (op : Byte) (n : Fin 8) (x : Rm) : List Byte := legacy m { op := op, esc := [0x0F] } (digit n) x.loc []
/-- An opcode extension and an r/m operand by operand size: groups 6 and 7. -/
def encRmW (m : CMode) (op : Byte) (n : Fin 8) (o : RmOp) : List Byte :=
  legacy m (m.head o.w op [0x0F]) (digit n) o.rm.loc []
/-- An opcode extension and a memory operand. -/
def encMem (m : CMode) (op : Byte) (n : Fin 8) (w : Bool) (a : MemRef) : List Byte :=
  legacy m { op := op, esc := [0x0F], w := w } (digit n) (.mem a) []
/-- A descriptor-table operand. -/
def encTable (m : CMode) (n : Fin 8) (o : FarMem) : List Byte := legacy m (m.head64 o.w 0x01 [0x0F]) (digit n) (.mem o.mem) []
/-- VLDMXCSR, VSTMXCSR. -/
def encVMem (m : CMode) (n : Fin 8) (a : MemRef) : List Byte := vexed m .np .m0F 0xAE false .l128 0 (digit n) (.mem a) []

/-- The opcode of an instruction LOCK may qualify in group 1 (rule R377). -/
def LockAlu.num : LockAlu → Fin 8
  | .add => 0 | .or => 1 | .adc => 2 | .sbb => 3 | .and => 4 | .sub => 5 | .xor => 6
/-- Its number in group 8. -/
def LockBit.num : LockBit → Fin 8
  | .bts => 5 | .btr => 6 | .btc => 7
/-- Opcode and extension of a one-operand instruction. -/
def LockUn.code : LockUn → Nat × Fin 8
  | .inc => (0xFE, 0) | .dec => (0xFE, 1) | .neg => (0xF6, 3) | .not => (0xF6, 2)
/-- A lockable instruction under its prefixes. -/
def encLock (m : CMode) (t : Hint) : Lockable → List Byte
  | .aluReg op w a r => encMr m t (8 * op.num.val) [] w (.mem a) r
  | .aluImm op w a i => encMi m t 0x80 op.num w (.mem a) i
  | .bit op w a s => encBit m t op.num ⟨w, .mem a, s⟩
  | .un op w a => encUn m t op.code.1 op.code.2 ⟨w, .mem a⟩
  | .cmpxchg w a r => encMr m t 0xB0 [0x0F] w (.mem a) r
  | .xadd w a r => encMr m t 0xC0 [0x0F] w (.mem a) r
  | .xchg w a r => encMr m t 0x86 [] w (.mem a) r
  | .cmpxchg8b a => legacy m ({ op := 0xC7, esc := [0x0F] : Head }.hint t) 1 (.mem a) []
  | .cmpxchg16b a => legacy m ({ op := 0xC7, esc := [0x0F], w := true : Head }.hint t) 1 (.mem a) []
/-- XACQUIRE. -/
def encAcquire (m : CMode) : AcquireOp → List Byte
  | .locked o => encLock m ⟨true, some .f2⟩ o
  | .xchg w a r => encMr m ⟨false, some .f2⟩ 0x86 [] w (.mem a) r
/-- XRELEASE. -/
def encRelease (m : CMode) : ReleaseOp → List Byte
  | .locked o => encLock m ⟨true, some .f3⟩ o
  | .xchg w a r => encMr m ⟨false, some .f3⟩ 0x86 [] w (.mem a) r
  | .movReg w a r => encMr m ⟨false, some .f3⟩ 0x88 [] w (.mem a) r
  | .movImm w a i => encMi m ⟨false, some .f3⟩ 0xC6 0 w (.mem a) i

/-! x87. -/

/-- A memory form: opcode D8H + n, reg field. -/
def fpMem (m : CMode) (n reg : Fin 8) (a : MemRef) : List Byte :=
  legacy m { op := BitVec.ofNat 8 (0xD8 + n.val) } (digit reg) (.mem a) []
/-- A register form. -/
def fpReg (n reg i : Fin 8) : List Byte := [BitVec.ofNat 8 (0xD8 + n.val), fields233 3 reg.val i.val]
/-- FADD and its kin; with ST(i) the subtractions and divisions have their numbers exchanged (rule R395). -/
def encFpArith (m : CMode) (n rev : Fin 8) : FpArith → List Byte
  | .m32 a => fpMem m 0 n a
  | .m64 a => fpMem m 4 n a
  | .st0 i => fpReg 0 n i
  | .sti i => fpReg 4 rev i
/-- FCOM, FCOMP, FST: memory forms, register form. -/
def encFpCom (m : CMode) (o32 o64 n oReg rReg : Fin 8) : FpCom → List Byte
  | .m32 a => fpMem m o32 n a
  | .m64 a => fpMem m o64 n a
  | .st i => fpReg oReg rReg i
/-- FLD, FSTP. -/
def encFpLd (m : CMode) (n n80 oReg rReg : Fin 8) : FpLd → List Byte
  | .m32 a => fpMem m 1 n a
  | .m64 a => fpMem m 5 n a
  | .m80 a => fpMem m 3 n80 a
  | .st i => fpReg oReg rReg i
/-- FIADD and its kin, FICOM: DAH and DEH. -/
def encFpInt (m : CMode) (o32 o16 n : Fin 8) : FpInt → List Byte
  | .m32 a => fpMem m o32 n a
  | .m16 a => fpMem m o16 n a
/-- FILD, FISTP, FISTTP. -/
def encFpInt64 (m : CMode) (n o64 n64 : Fin 8) : FpInt64 → List Byte
  | .m32 a => fpMem m 3 n a
  | .m16 a => fpMem m 7 n a
  | .m64 a => fpMem m o64 n64 a
/-- FLDENV and its kin. -/
def encFpEnv (m : CMode) (n reg : Fin 8) (o : FpEnv) : List Byte :=
  legacy m (m.head o.w (BitVec.ofNat 8 (0xD8 + n.val))) (digit reg) (.mem o.mem) []
/-- FNSTSW. -/
def encFpSw (m : CMode) : FpSw → List Byte
  | .mem a => fpMem m 5 7 a
  | .ax => fpReg 7 4 0

/-! Vector instructions; p, mp and op are those of the row. -/

/-- A legacy vector encoding. -/
def sse (m : CMode) (p : Pp) (mp : OMap) (op : Byte) (reg : Reg) (l : Loc) (imm : List Byte := []) (w : Bool := false) :
    List Byte := legacy m (p.head mp op w) reg l imm

/-- xmm, xmm/m. -/
def eXX (m : CMode) (p : Pp) (mp : OMap) (op : Byte) (o : XX) : List Byte := sse m p mp op o.dst o.src.loc
/-- xmm, xmm/m, imm8. -/
def eXXI (m : CMode) (p : Pp) (mp : OMap) (op : Byte) (o : XXI) : List Byte := sse m p mp op o.dst o.src.loc [o.imm]
/-- A string comparison. -/
def eStrCmp (m : CMode) (op : Byte) (o : StrCmp) : List Byte :=
  sse m .p66 .m3A op o.dst o.src.loc [o.imm] (decide (o.w = .w64))
/-- mm without prefix, xmm with 66H. -/
def eMX (m : CMode) (mp : OMap) (op : Byte) : MX → List Byte
  | .mm d s => sse m .np mp op (mmReg d) s.loc
  | .xx d s => sse m .p66 mp op d s.loc
/-- PALIGNR. -/
def eMXI (m : CMode) (mp : OMap) (op : Byte) : MXI → List Byte
  | .mm d s i => sse m .np mp op (mmReg d) s.loc [i]
  | .xx d s i => sse m .p66 mp op d s.loc [i]
/-- Packed shifts: the opcode by a register, the opcode and extension by an immediate. -/
def eMShift (m : CMode) (op opI : Byte) (n : Fin 8) : MShift → List Byte
  | .mm d c => sse m .np .m0F op (mmReg d) c.loc
  | .xx d c => sse m .p66 .m0F op d c.loc
  | .mmI d i => sse m .np .m0F opI (digit n) (.reg (mmReg d)) [i]
  | .xxI d i => sse m .p66 .m0F opI (digit n) (.reg d) [i]
/-- PSLLDQ, PSRLDQ. -/
def eXI (m : CMode) (n : Fin 8) (o : XI) : List Byte := sse m .p66 .m0F 0x73 (digit n) (.reg o.dst) [o.imm]
/-- A move: opcode of the load, of the store. -/
def eXMov (m : CMode) (p : Pp) (op opS : Byte) : XMov → List Byte
  | .load d s => sse m p .m0F op d s.loc
  | .store d s => sse m p .m0F opS s d.loc
/-- A move with memory. -/
def eXMemMov (m : CMode) (p : Pp) (op opS : Byte) : XMemMov → List Byte
  | .load d a => sse m p .m0F op d (.mem a)
  | .store a s => sse m p .m0F opS s (.mem a)
/-- xmm, m. -/
def eXMem (m : CMode) (p : Pp) (mp : OMap) (op : Byte) (o : XMem) : List Byte := sse m p mp op o.dst (.mem o.mem)
/-- m, xmm. -/
def eMemX (m : CMode) (p : Pp) (op : Byte) (o : MemX) : List Byte := sse m p .m0F op o.src (.mem o.mem)
/-- Two registers. -/
def eXReg (m : CMode) (p : Pp) (op : Byte) (o : XReg) : List Byte := sse m p .m0F op o.dst (.reg o.src)
/-- MASKMOVQ. -/
def eMMask (m : CMode) (o : MMask) : List Byte :=
  pfxBytes o.ovr (m.need67 o.a) false none false ++ [0x0F, 0xF7, fields233 3 o.src.val o.mask.val]
/-- MASKMOVDQU. -/
def eXMask (m : CMode) (o : XMask) : List Byte :=
  pfxBytes o.ovr (m.need67 o.a) true none false ++ rexBytes false (hiBit o.src) false (hiBit o.mask) false ++
  [0x0F, 0xF7, fields233 3 (loBits o.src) (loBits o.mask)]
/-- VMASKMOVDQU. -/
def eVXMask (m : CMode) (o : XMask) : List Byte :=
  pfxBytes o.ovr (m.need67 o.a) false none false ++
  vexBytes .p66 .m0F 0xF7 (hiBit o.src) false (hiBit o.mask) false 0 false ++ [fields233 3 (loBits o.src) (loBits o.mask)]
/-- mm, xmm/m. -/
def eMXm (m : CMode) (p : Pp) (op : Byte) (o : MXm) : List Byte := sse m p .m0F op (mmReg o.dst) o.src.loc
/-- xmm, mm/m64. -/
def eXMm (m : CMode) (p : Pp) (op : Byte) (o : XMm) : List Byte := sse m p .m0F op o.dst o.src.loc
/-- r, xmm/m. -/
def eGX (m : CMode) (p : Pp) (op : Byte) (o : GX) : List Byte := sse m p .m0F op o.dst o.src.loc [] (decide (o.w = .w64))
/-- xmm, r/m. -/
def eXG (m : CMode) (p : Pp) (op : Byte) (o : XG) : List Byte := sse m p .m0F op o.dst o.src.loc [] (decide (o.w = .w64))
/-- PMOVMSKB. -/
def eGMask (m : CMode) : GMask → List Byte
  | .mm d s => sse m .np .m0F 0xD7 d (.reg (mmReg s))
  | .xx d s => sse m .p66 .m0F 0xD7 d (.reg s)
/-- r/m, xmm, imm8. -/
def eExtr (m : CMode) (op : Byte) (w : Bool) (o : ExtrOps) : List Byte := sse m .p66 .m3A op o.src o.dst.loc [o.imm] w
/-- The same under VEX. -/
def eVExtr (m : CMode) (op : Byte) (w : Bool) (o : ExtrOps) : List Byte :=
  vexed m .p66 .m3A op w .l128 0 o.src o.dst.loc [o.imm]
/-- PEXTRW. -/
def ePextrw (m : CMode) : PextrwOps → List Byte
  | .mm d s i => sse m .np .m0F 0xC5 d (.reg (mmReg s)) [i]
  | .xx d s i => sse m .p66 .m0F 0xC5 d (.reg s) [i]
  | .xrm d s i => sse m .p66 .m3A 0x15 s d.loc [i]
/-- xmm, r/m, imm8. -/
def eIns (m : CMode) (op : Byte) (w : Bool) (o : InsOps) : List Byte := sse m .p66 .m3A op o.dst o.src.loc [o.imm] w
/-- PINSRW. -/
def ePinsrw (m : CMode) : PinsrwOps → List Byte
  | .mm d s i => sse m .np .m0F 0xC4 (mmReg d) s.loc [i]
  | .xx d s i => sse m .p66 .m0F 0xC4 d s.loc [i]
/-- MOVD, MOVQ with a general register. -/
def eMovd (m : CMode) (w : Bool) : MovdOps → List Byte
  | .toMm d s => sse m .np .m0F 0x6E (mmReg d) s.loc [] w
  | .fromMm d s => sse m .np .m0F 0x7E (mmReg s) d.loc [] w
  | .toX d s => sse m .p66 .m0F 0x6E d s.loc [] w
  | .fromX d s => sse m .p66 .m0F 0x7E s d.loc [] w
/-- MOVQ. -/
def eMovq (m : CMode) : MovqOps → List Byte
  | .mmLoad d s => sse m .np .m0F 0x6F (mmReg d) s.loc
  | .mmStore d s => sse m .np .m0F 0x7F (mmReg s) d.loc
  | .xLoad d s => sse m .pF3 .m0F 0x7E d s.loc
  | .xStore d s => sse m .p66 .m0F 0xD6 s d.loc
/-- VEX: vector, vector/m. -/
def eVX (m : CMode) (p : Pp) (mp : OMap) (op : Byte) (w : Bool) (o : VX) : List Byte :=
  vexed m p mp op w o.l 0 o.dst o.src.loc []
/-- VEX: vector, vector/m, imm8. -/
def eVXI (m : CMode) (p : Pp) (mp : OMap) (op : Byte) (w : Bool) (o : VXI) : List Byte :=
  vexed m p mp op w o.l 0 o.dst o.src.loc [o.imm]
/-- VEX: vector, vector, vector/m. -/
def eVVX (m : CMode) (p : Pp) (mp : OMap) (op : Byte) (w : Bool) (o : VVX) : List Byte :=
  vexed m p mp op w o.l o.a o.dst o.b.loc []
/-- VEX: vector, vector, vector/m, imm8. -/
def eVVXI (m : CMode) (p : Pp) (mp : OMap) (op : Byte) (w : Bool) (o : VVXI) : List Byte :=
  vexed m p mp op w o.l o.a o.dst o.b.loc [o.imm]
/-- VEX: four vectors. -/
def eVVXR (m : CMode) (op : Byte) (o : VVXR) : List Byte :=
  vexed m .p66 .m3A op false o.l o.a o.dst o.b.loc [BitVec.ofNat 8 (16 * o.c.val)]
/-- VEX packed shifts. -/
def eVShift (m : CMode) (op opI : Byte) (n : Fin 8) : VShift → List Byte
  | .vec l d a c => vexed m .p66 .m0F op false l a d c.loc []
  | .imm l d s i => vexed m .p66 .m0F opI false l d (digit n) (.reg s) [i]
/-- VPSLLDQ, VPSRLDQ. -/
def eVVI (m : CMode) (n : Fin 8) (o : VVI) : List Byte := vexed m .p66 .m0F 0x73 false o.l o.dst (digit n) (.reg o.src) [o.imm]
/-- VEX moves. -/
def eVMov (m : CMode) (p : Pp) (op opS : Byte) : VMov → List Byte
  | .load l d s => vexed m p .m0F op false l 0 d s.loc []
  | .store l d s => vexed m p .m0F opS false l 0 s d.loc []
/-- VMOVQ between xmm registers and memory. -/
def eVMovqX (m : CMode) : VMov → List Byte
  | .load l d s => vexed m .pF3 .m0F 0x7E false l 0 d s.loc []
  | .store l d s => vexed m .p66 .m0F 0xD6 false l 0 s d.loc []
/-- VMOVHPD and its kin. -/
def eVHalf (m : CMode) (p : Pp) (op opS : Byte) : VHalfMov → List Byte
  | .load d a x => vexed m p .m0F op false .l128 a d (.mem x) []
  | .store x s => vexed m p .m0F opS false .l128 0 s (.mem x) []
/-- VEX: vector, m. -/
def eVXMem (m : CMode) (p : Pp) (mp : OMap) (op : Byte) (o : VXMem) : List Byte :=
  vexed m p mp op false o.l 0 o.dst (.mem o.mem) []
/-- VEX: m, vector. -/
def eVMemX (m : CMode) (p : Pp) (op : Byte) (o : VMemX) : List Byte := vexed m p .m0F op false o.l 0 o.src (.mem o.mem) []
/-- VEX masked moves. -/
def eVMask (m : CMode) (op opS : Byte) (w : Bool) : VMaskMov → List Byte
  | .load l d k a => vexed m .p66 .m38 op w l k d (.mem a) []
  | .store l a k s => vexed m .p66 .m38 opS w l k s (.mem a) []
/-- VEX: three xmm registers. -/
def eVReg3 (m : CMode) (op : Byte) (o : VReg3) : List Byte := vexed m .np .m0F op false .l128 o.a o.dst (.reg o.b) []
/-- VEX: masks. -/
def eVGMask (m : CMode) (p : Pp) (op : Byte) (o : VGMask) : List Byte := vexed m p .m0F op false o.l 0 o.dst (.reg o.src) []
/-- VEX: r, xmm/m. -/
def eVGX (m : CMode) (p : Pp) (op : Byte) (o : GX) : List Byte :=
  vexed m p .m0F op (decide (o.w = .w64)) .l128 0 o.dst o.src.loc []
/-- VEX: xmm, xmm, r/m. -/
def eVXG (m : CMode) (p : Pp) (op : Byte) (o : VXG) : List Byte :=
  vexed m p .m0F op (decide (o.w = .w64)) .l128 o.a o.dst o.src.loc []
/-- VEX: xmm, xmm, r/m, imm8. -/
def eVIns (m : CMode) (mp : OMap) (op : Byte) (w : Bool) (o : VInsOps) : List Byte :=
  vexed m .p66 mp op w .l128 o.a o.dst o.src.loc [o.imm]
/-- VMOVD, VMOVQ. -/
def eVMovd (m : CMode) (w : Bool) : VMovd → List Byte
  | .load d s => vexed m .p66 .m0F 0x6E w .l128 0 d s.loc []
  | .store d s => vexed m .p66 .m0F 0x7E w .l128 0 s d.loc []
/-- VMOVSS, VMOVSD. -/
def eVScalar (m : CMode) (p : Pp) : VScalarMov → List Byte
  | .reg d a b => vexed m p .m0F 0x10 false .l128 a d (.reg b) []
  | .load d x => vexed m p .m0F 0x10 false .l128 0 d (.mem x) []
  | .store x s => vexed m p .m0F 0x11 false .l128 0 s (.mem x) []
/-- xmm/m, vector, imm8. -/
def eVExt (m : CMode) (op : Byte) (o : VExtOps) : List Byte := vexed m .p66 .m3A op false o.l 0 o.src o.dst.loc [o.imm]
/-- VPERMILPS, VPERMILPD. -/
def eVPermil (m : CMode) (op opI : Byte) : VPermil → List Byte
  | .vec o => eVVX m .p66 .m38 op false o
  | .imm o => eVXI m .p66 .m3A opI false o
/-- The gathers. -/
def eVGather (m : CMode) (op : Byte) (w : Bool) (o : VGather) : List Byte :=
  vexed m .p66 .m38 op w o.l o.mask o.dst (.vm o.mem) []

/-- One encoding of an instruction. -/
def encode (m : CMode) (i : Instr) : List Byte :=
  match i with
  | .aaa => [0x37]
  | .aad o => [0xD5, o]
  | .aam o => [0xD4, o]
  | .aas => [0x3F]
  | .adc o => encAlu m 2 o
  | .adcx o => encAdx m .p66 o
  | .add o => encAlu m 0 o
  | .addpd o => eXX m .p66 .m0F 0x58 o
  | .vaddpd o => eVVX m .p66 .m0F 0x58 false o
  | .addps o => eXX m .np .m0F 0x58 o
  | .vaddps o => eVVX m .np .m0F 0x58 false o
  | .addsd o => eXX m .pF2 .m0F 0x58 o
  | .vaddsd o => eVVX m .pF2 .m0F 0x58 false o
  | .addss o => eXX m .pF3 .m0F 0x58 o
  | .vaddss o => eVVX m .pF3 .m0F 0x58 false o
  | .addsubpd o => eXX m .p66 .m0F 0xD0 o
  | .vaddsubpd o => eVVX m .p66 .m0F 0xD0 false o
  | .addsubps o => eXX m .pF2 .m0F 0xD0 o
  | .vaddsubps o => eVVX m .pF2 .m0F 0xD0 false o
  | .adox o => encAdx m .pF3 o
  | .aesdec o => eXX m .p66 .m38 0xDE o
  | .vaesdec o => eVVX m .p66 .m38 0xDE false o
  | .aesdeclast o => eXX m .p66 .m38 0xDF o
  | .vaesdeclast o => eVVX m .p66 .m38 0xDF false o
  | .aesenc o => eXX m .p66 .m38 0xDC o
  | .vaesenc o => eVVX m .p66 .m38 0xDC false o
  | .aesenclast o => eXX m .p66 .m38 0xDD o
  | .vaesenclast o => eVVX m .p66 .m38 0xDD false o
  | .aesimc o => eXX m .p66 .m38 0xDB o
  | .vaesimc o => eVX m .p66 .m38 0xDB false o
  | .aeskeygenassist o => eXXI m .p66 .m3A 0xDF o
  | .vaeskeygenassist o => eVXI m .p66 .m3A 0xDF false o
  | .and o => encAlu m 4 o
  | .andn o => encVg3 m .np 0xF2 o
  | .andpd o => eXX m .p66 .m0F 0x54 o
  | .vandpd o => eVVX m .p66 .m0F 0x54 false o
  | .andps o => eXX m .np .m0F 0x54 o
  | .vandps o => eVVX m .np .m0F 0x54 false o
  | .andnpd o => eXX m .p66 .m0F 0x55 o
  | .vandnpd o => eVVX m .p66 .m0F 0x55 false o
  | .andnps o => eXX m .np .m0F 0x55 o
  | .vandnps o => eVVX m .np .m0F 0x55 false o
  | .arpl o => legacy m { op := 0x63 } o.src.num o.dst.loc []
  | .blendpd o => eXXI m .p66 .m3A 0x0D o
  | .vblendpd o => eVVXI m .p66 .m3A 0x0D false o
  | .bextr o => encVg3 m .np 0xF7 o
  | .blendps o => eXXI m .p66 .m3A 0x0C o
  | .vblendps o => eVVXI m .p66 .m3A 0x0C false o
  | .blendvpd o => eXX m .p66 .m38 0x15 o
  | .vblendvpd o => eVVXR m 0x4B o
  | .blendvps o => eXX m .p66 .m38 0x14 o
  | .vblendvps o => eVVXR m 0x4A o
  | .blsi o => encVm m 3 o
  | .blsmsk o => encVm m 2 o
  | .blsr o => encVm m 1 o
  | .bound o => encRegMem m 0x62 [] o
  | .bsf o => encRegRm m (none) 0xBC o
  | .bsr o => encRegRm m (none) 0xBD o
  | .bswap o => encBswap m o
  | .bt o => encBit m {} 4 o
  | .btc o => encBit m {} 7 o
  | .btr o => encBit m {} 6 o
  | .bts o => encBit m {} 5 o
  | .bzhi o => encVg3 m .np 0xF5 o
  | .call o => encCall m o
  | .cbw => encW m .w16 0x98
  | .cwde => encW m .w32 0x98
  | .cdqe => encW m .w64 0x98
  | .clac => [0x0F, 0x01, 0xCA]
  | .clc => [0xF8]
  | .cld => [0xFC]
  | .clflush o => encMem m 0xAE 7 false o
  | .cli => [0xFA]
  | .clts => [0x0F, 0x06]
  | .cmc => [0xF5]
  | .cmovo o => encRegRm m none 0x40 o
  | .cmovno o => encRegRm m none 0x41 o
  | .cmovb o => encRegRm m none 0x42 o
  | .cmovae o => encRegRm m none 0x43 o
  | .cmove o => encRegRm m none 0x44 o
  | .cmovne o => encRegRm m none 0x45 o
  | .cmovbe o => encRegRm m none 0x46 o
  | .cmova o => encRegRm m none 0x47 o
  | .cmovs o => encRegRm m none 0x48 o
  | .cmovns o => encRegRm m none 0x49 o
  | .cmovp o => encRegRm m none 0x4A o
  | .cmovnp o => encRegRm m none 0x4B o
  | .cmovl o => encRegRm m none 0x4C o
  | .cmovge o => encRegRm m none 0x4D o
  | .cmovle o => encRegRm m none 0x4E o
  | .cmovg o => encRegRm m none 0x4F o
  | .cmp o => encAlu m 7 o
  | .cmppd o => eXXI m .p66 .m0F 0xC2 o
  | .vcmppd o => eVVXI m .p66 .m0F 0xC2 false o
  | .cmpps o => eXXI m .np .m0F 0xC2 o
  | .vcmpps o => eVVXI m .np .m0F 0xC2 false o
  | .cmps o => encStrS m 0xA6 o
  | .cmpsb o => encStrN m 0xA6 .w8 o
  | .cmpsw o => encStrN m 0xA6 .w16 o
  | .cmpsdStr o => encStrN m 0xA6 .w32 o
  | .cmpsq o => encStrN m 0xA6 .w64 o
  | .cmpsdSse o => eXXI m .pF2 .m0F 0xC2 o
  | .vcmpsd o => eVVXI m .pF2 .m0F 0xC2 false o
  | .cmpss o => eXXI m .pF3 .m0F 0xC2 o
  | .vcmpss o => eVVXI m .pF3 .m0F 0xC2 false o
  | .cmpxchg o => encMr m {} 0xB0 [0x0F] o.w o.dst o.src
  | .cmpxchg8b o => encMem m 0xC7 1 false o
  | .cmpxchg16b o => encMem m 0xC7 1 true o
  | .comisd o => eXX m .p66 .m0F 0x2F o
  | .vcomisd o => eVX m .p66 .m0F 0x2F false o
  | .comiss o => eXX m .np .m0F 0x2F o
  | .vcomiss o => eVX m .np .m0F 0x2F false o
  | .cpuid => [0x0F, 0xA2]
  | .crc32 o => encCrc m o
  | .cvtdq2pd o => eXX m .pF3 .m0F 0xE6 o
  | .vcvtdq2pd o => eVX m .pF3 .m0F 0xE6 false o
  | .cvtdq2ps o => eXX m .np .m0F 0x5B o
  | .vcvtdq2ps o => eVX m .np .m0F 0x5B false o
  | .cvtpd2dq o => eXX m .pF2 .m0F 0xE6 o
  | .vcvtpd2dq o => eVX m .pF2 .m0F 0xE6 false o
  | .cvtpd2ps o => eXX m .p66 .m0F 0x5A o
  | .vcvtpd2ps o => eVX m .p66 .m0F 0x5A false o
  | .cvtps2dq o => eXX m .p66 .m0F 0x5B o
  | .vcvtps2dq o => eVX m .p66 .m0F 0x5B false o
  | .cvtps2pd o => eXX m .np .m0F 0x5A o
  | .vcvtps2pd o => eVX m .np .m0F 0x5A false o
  | .cvttpd2dq o => eXX m .p66 .m0F 0xE6 o
  | .vcvttpd2dq o => eVX m .p66 .m0F 0xE6 false o
  | .cvttps2dq o => eXX m .pF3 .m0F 0x5B o
  | .vcvttps2dq o => eVX m .pF3 .m0F 0x5B false o
  | .cvtpd2pi o => eMXm m .p66 0x2D o
  | .cvttpd2pi o => eMXm m .p66 0x2C o
  | .cvtpi2pd o => eXMm m .p66 0x2A o
  | .cvtpi2ps o => eXMm m .np 0x2A o
  | .cvtps2pi o => eMXm m .np 0x2D o
  | .cvttps2pi o => eMXm m .np 0x2C o
  | .cvtsd2si o => eGX m .pF2 0x2D o
  | .vcvtsd2si o => eVGX m .pF2 0x2D o
  | .cvttsd2si o => eGX m .pF2 0x2C o
  | .vcvttsd2si o => eVGX m .pF2 0x2C o
  | .cvtss2si o => eGX m .pF3 0x2D o
  | .vcvtss2si o => eVGX m .pF3 0x2D o
  | .cvttss2si o => eGX m .pF3 0x2C o
  | .vcvttss2si o => eVGX m .pF3 0x2C o
  | .cvtsi2sd o => eXG m .pF2 0x2A o
  | .vcvtsi2sd o => eVXG m .pF2 0x2A o
  | .cvtsi2ss o => eXG m .pF3 0x2A o
  | .vcvtsi2ss o => eVXG m .pF3 0x2A o
  | .cvtsd2ss o => eXX m .pF2 .m0F 0x5A o
  | .vcvtsd2ss o => eVVX m .pF2 .m0F 0x5A false o
  | .cvtss2sd o => eXX m .pF3 .m0F 0x5A o
  | .vcvtss2sd o => eVVX m .pF3 .m0F 0x5A false o
  | .cwd => encW m .w16 0x99
  | .cdq => encW m .w32 0x99
  | .cqo => encW m .w64 0x99
  | .daa => [0x27]
  | .das => [0x2F]
  | .dec o => encUn m {} 0xFE 1 o
  | .div o => encUn m {} 0xF6 6 o
  | .divpd o => eXX m .p66 .m0F 0x5E o
  | .vdivpd o => eVVX m .p66 .m0F 0x5E false o
  | .divps o => eXX m .np .m0F 0x5E o
  | .vdivps o => eVVX m .np .m0F 0x5E false o
  | .divsd o => eXX m .pF2 .m0F 0x5E o
  | .vdivsd o => eVVX m .pF2 .m0F 0x5E false o
  | .divss o => eXX m .pF3 .m0F 0x5E o
  | .vdivss o => eVVX m .pF3 .m0F 0x5E false o
  | .dppd o => eXXI m .p66 .m3A 0x41 o
  | .vdppd o => eVVXI m .p66 .m3A 0x41 false o
  | .dpps o => eXXI m .p66 .m3A 0x40 o
  | .vdpps o => eVVXI m .p66 .m3A 0x40 false o
  | .emms => [0x0F, 0x77]
  | .enter o => encEnter m o
  | .extractps o => eExtr m 0x17 false o
  | .vextractps o => eVExtr m 0x17 false o
  | .f2xm1 => [0xD9, 0xF0]
  | .fabs => [0xD9, 0xE1]
  | .fadd o => encFpArith m 0 0 o
  | .faddp o => fpReg 6 0 o
  | .fiadd o => encFpInt m 2 6 0 o
  | .fbld o => fpMem m 7 4 o
  | .fbstp o => fpMem m 7 6 o
  | .fchs => [0xD9, 0xE0]
  | .fnclex => [0xDB, 0xE2]
  | .fclex => [0x9B, 0xDB, 0xE2]
  | .fcmovb o => fpReg 2 0 o
  | .fcmove o => fpReg 2 1 o
  | .fcmovbe o => fpReg 2 2 o
  | .fcmovu o => fpReg 2 3 o
  | .fcmovnb o => fpReg 3 0 o
  | .fcmovne o => fpReg 3 1 o
  | .fcmovnbe o => fpReg 3 2 o
  | .fcmovnu o => fpReg 3 3 o
  | .fcom o => encFpCom m 0 4 2 0 2 o
  | .fcomp o => encFpCom m 0 4 3 0 3 o
  | .fcompp => [0xDE, 0xD9]
  | .fcomi o => fpReg 3 6 o
  | .fcomip o => fpReg 7 6 o
  | .fucomi o => fpReg 3 5 o
  | .fucomip o => fpReg 7 5 o
  | .fcos => [0xD9, 0xFF]
  | .fdecstp => [0xD9, 0xF6]
  | .fdiv o => encFpArith m 6 7 o
  | .fdivp o => fpReg 6 7 o
  | .fidiv o => encFpInt m 2 6 6 o
  | .fdivr o => encFpArith m 7 6 o
  | .fdivrp o => fpReg 6 6 o
  | .fidivr o => encFpInt m 2 6 7 o
  | .ffree o => fpReg 5 0 o
  | .ficom o => encFpInt m 2 6 2 o
  | .ficomp o => encFpInt m 2 6 3 o
  | .fild o => encFpInt64 m 0 7 5 o
  | .fincstp => [0xD9, 0xF7]
  | .fninit => [0xDB, 0xE3]
  | .finit => [0x9B, 0xDB, 0xE3]
  | .fist o => encFpInt m 3 7 2 o
  | .fistp o => encFpInt64 m 3 7 7 o
  | .fisttp o => encFpInt64 m 1 5 1 o
  | .fld o => encFpLd m 0 5 1 0 o
  | .fld1 => [0xD9, 0xE8]
  | .fldl2t => [0xD9, 0xE9]
  | .fldl2e => [0xD9, 0xEA]
  | .fldpi => [0xD9, 0xEB]
  | .fldlg2 => [0xD9, 0xEC]
  | .fldln2 => [0xD9, 0xED]
  | .fldz => [0xD9, 0xEE]
  | .fldcw o => fpMem m 1 5 o
  | .fldenv o => encFpEnv m 1 4 o
  | .fmul o => encFpArith m 1 1 o
  | .fmulp o => fpReg 6 1 o
  | .fimul o => encFpInt m 2 6 1 o
  | .fnop => [0xD9, 0xD0]
  | .fpatan => [0xD9, 0xF3]
  | .fprem => [0xD9, 0xF8]
  | .fprem1 => [0xD9, 0xF5]
  | .fptan => [0xD9, 0xF2]
  | .frndint => [0xD9, 0xFC]
  | .frstor o => encFpEnv m 5 4 o
  | .fnsave o => encFpEnv m 5 6 o
  | .fsave o => 0x9B :: encFpEnv m 5 6 o
  | .fscale => [0xD9, 0xFD]
  | .fsin => [0xD9, 0xFE]
  | .fsincos => [0xD9, 0xFB]
  | .fsqrt => [0xD9, 0xFA]
  | .fst o => encFpCom m 1 5 2 5 2 o
  | .fstp o => encFpLd m 3 7 5 3 o
  | .fnstcw o => fpMem m 1 7 o
  | .fstcw o => 0x9B :: fpMem m 1 7 o
  | .fnstenv o => encFpEnv m 1 6 o
  | .fstenv o => 0x9B :: encFpEnv m 1 6 o
  | .fnstsw o => encFpSw m o
  | .fstsw o => 0x9B :: encFpSw m o
  | .fsub o => encFpArith m 4 5 o
  | .fsubp o => fpReg 6 5 o
  | .fisub o => encFpInt m 2 6 4 o
  | .fsubr o => encFpArith m 5 4 o
  | .fsubrp o => fpReg 6 4 o
  | .fisubr o => encFpInt m 2 6 5 o
  | .ftst => [0xD9, 0xE4]
  | .fucom o => fpReg 5 4 o
  | .fucomp o => fpReg 5 5 o
  | .fucompp => [0xDA, 0xE9]
  | .fxam => [0xD9, 0xE5]
  | .fxch o => fpReg 1 1 o
  | .fxrstor o => encMem m 0xAE 1 false o
  | .fxrstor64 o => encMem m 0xAE 1 true o
  | .fxsave o => encMem m 0xAE 0 false o
  | .fxsave64 o => encMem m 0xAE 0 true o
  | .fxtract => [0xD9, 0xF4]
  | .fyl2x => [0xD9, 0xF1]
  | .fyl2xp1 => [0xD9, 0xF9]
  | .haddpd o => eXX m .p66 .m0F 0x7C o
  | .vhaddpd o => eVVX m .p66 .m0F 0x7C false o
  | .haddps o => eXX m .pF2 .m0F 0x7C o
  | .vhaddps o => eVVX m .pF2 .m0F 0x7C false o
  | .hsubpd o => eXX m .p66 .m0F 0x7D o
  | .vhsubpd o => eVVX m .p66 .m0F 0x7D false o
  | .hsubps o => eXX m .pF2 .m0F 0x7D o
  | .vhsubps o => eVVX m .pF2 .m0F 0x7D false o
  | .hlt => [0xF4]
  | .idiv o => encUn m {} 0xF6 7 o
  | .imul o => encImul m o
  | .inp o => encIo m 0xE4 o
  | .ins o => encStrS m 0x6C o
  | .insb o => encStrN m 0x6C .w8 o
  | .insw o => encStrN m 0x6C .w16 o
  | .insd o => encStrN m 0x6C .w32 o
  | .inc o => encUn m {} 0xFE 0 o
  | .insertps o => eXXI m .p66 .m3A 0x21 o
  | .vinsertps o => eVVXI m .p66 .m3A 0x21 false o
  | .intN o => [0xCD, o]
  | .int3 => [0xCC]
  | .into => [0xCE]
  | .invd => [0x0F, 0x08]
  | .invlpg o => encMem m 0x01 7 false o
  | .invpcid o => encInvpcid m o
  | .iret => encW m .w16 0xCF
  | .iretd => encW m .w32 0xCF
  | .iretq => encW m .w64 0xCF
  | .jo o => encJcc m 0 o
  | .jno o => encJcc m 1 o
  | .jb o => encJcc m 2 o
  | .jae o => encJcc m 3 o
  | .je o => encJcc m 4 o
  | .jne o => encJcc m 5 o
  | .jbe o => encJcc m 6 o
  | .ja o => encJcc m 7 o
  | .js o => encJcc m 8 o
  | .jns o => encJcc m 9 o
  | .jp o => encJcc m 10 o
  | .jnp o => encJcc m 11 o
  | .jl o => encJcc m 12 o
  | .jge o => encJcc m 13 o
  | .jle o => encJcc m 14 o
  | .jg o => encJcc m 15 o
  | .jcxz o => encJcxz m .a16 o
  | .jecxz o => encJcxz m .a32 o
  | .jrcxz o => encJcxz m .a64 o
  | .jmpNear o => encJmp m o
  | .jmpFar o => encJmpFar m o
  | .lahf => [0x9F]
  | .lar o => encLar m 0x02 o
  | .lddqu o => eXMem m .pF2 .m0F 0xF0 o
  | .vlddqu o => eVXMem m .pF2 .m0F 0xF0 o
  | .ldmxcsr o => encMem m 0xAE 2 false o
  | .vldmxcsr o => encVMem m 2 o
  | .lds o => encRegMem m 0xC5 [] o
  | .les o => encRegMem m 0xC4 [] o
  | .lfs o => encRegMem m 0xB4 [0x0F] o
  | .lgs o => encRegMem m 0xB5 [0x0F] o
  | .lss o => encRegMem m 0xB2 [0x0F] o
  | .lea o => encRegMem m 0x8D [] o
  | .leave o => encW64 m o 0xC9
  | .lfence => [0x0F, 0xAE, 0xE8]
  | .lgdt o => encTable m 2 o
  | .lidt o => encTable m 3 o
  | .lldt o => encRm16 m 0x00 2 o
  | .lmsw o => encRm16 m 0x01 6 o
  | .ltr o => encRm16 m 0x00 3 o
  | .lock o => encLock m ⟨true, none⟩ o
  | .lods o => encStrS m 0xAC o
  | .lodsb o => encStrN m 0xAC .w8 o
  | .lodsw o => encStrN m 0xAC .w16 o
  | .lodsd o => encStrN m 0xAC .w32 o
  | .lodsq o => encStrN m 0xAC .w64 o
  | .loop o => encLoop m 0xE2 o
  | .loope o => encLoop m 0xE1 o
  | .loopne o => encLoop m 0xE0 o
  | .lsl o => encLar m 0x03 o
  | .lzcnt o => encRegRm m (some .f3) 0xBD o
  | .maskmovdqu o => eXMask m o
  | .vmaskmovdqu o => eVXMask m o
  | .maskmovq o => eMMask m o
  | .maxpd o => eXX m .p66 .m0F 0x5F o
  | .vmaxpd o => eVVX m .p66 .m0F 0x5F false o
  | .maxps o => eXX m .np .m0F 0x5F o
  | .vmaxps o => eVVX m .np .m0F 0x5F false o
  | .maxsd o => eXX m .pF2 .m0F 0x5F o
  | .vmaxsd o => eVVX m .pF2 .m0F 0x5F false o
  | .maxss o => eXX m .pF3 .m0F 0x5F o
  | .vmaxss o => eVVX m .pF3 .m0F 0x5F false o
  | .minpd o => eXX m .p66 .m0F 0x5D o
  | .vminpd o => eVVX m .p66 .m0F 0x5D false o
  | .minps o => eXX m .np .m0F 0x5D o
  | .vminps o => eVVX m .np .m0F 0x5D false o
  | .minsd o => eXX m .pF2 .m0F 0x5D o
  | .vminsd o => eVVX m .pF2 .m0F 0x5D false o
  | .minss o => eXX m .pF3 .m0F 0x5D o
  | .vminss o => eVVX m .pF3 .m0F 0x5D false o
  | .mfence => [0x0F, 0xAE, 0xF0]
  | .monitor o => encAddr m o.a o.ovr [0x0F, 0x01, 0xC8]
  | .mov o => encMov m o
  | .movSeg o => encMovSeg m o
  | .movCr o => encMovCr m o
  | .movDr o => encMovDr m o
  | .movapd o => eXMov m .p66 0x28 0x29 o
  | .vmovapd o => eVMov m .p66 0x28 0x29 o
  | .movaps o => eXMov m .np 0x28 0x29 o
  | .vmovaps o => eVMov m .np 0x28 0x29 o
  | .movbe o => encMovbe m o
  | .movd o => eMovd m false o
  | .movqGp o => eMovd m true o
  | .vmovd o => eVMovd m false o
  | .vmovqGp o => eVMovd m true o
  | .movddup o => eXX m .pF2 .m0F 0x12 o
  | .vmovddup o => eVX m .pF2 .m0F 0x12 false o
  | .movdqa o => eXMov m .p66 0x6F 0x7F o
  | .vmovdqa o => eVMov m .p66 0x6F 0x7F o
  | .movdqu o => eXMov m .pF3 0x6F 0x7F o
  | .vmovdqu o => eVMov m .pF3 0x6F 0x7F o
  | .movdq2q o => sse m .pF2 .m0F 0xD6 (mmReg o.dst) (.reg o.src)
  | .movhlps o => eXReg m .np 0x12 o
  | .vmovhlps o => eVReg3 m 0x12 o
  | .movhpd o => eXMemMov m .p66 0x16 0x17 o
  | .vmovhpd o => eVHalf m .p66 0x16 0x17 o
  | .movhps o => eXMemMov m .np 0x16 0x17 o
  | .vmovhps o => eVHalf m .np 0x16 0x17 o
  | .movlhps o => eXReg m .np 0x16 o
  | .vmovlhps o => eVReg3 m 0x16 o
  | .movlpd o => eXMemMov m .p66 0x12 0x13 o
  | .vmovlpd o => eVHalf m .p66 0x12 0x13 o
  | .movlps o => eXMemMov m .np 0x12 0x13 o
  | .vmovlps o => eVHalf m .np 0x12 0x13 o
  | .movmskpd o => eXReg m .p66 0x50 o
  | .vmovmskpd o => eVGMask m .p66 0x50 o
  | .movmskps o => eXReg m .np 0x50 o
  | .vmovmskps o => eVGMask m .np 0x50 o
  | .movntdqa o => eXMem m .p66 .m38 0x2A o
  | .vmovntdqa o => eVXMem m .p66 .m38 0x2A o
  | .movntdq o => eMemX m .p66 0xE7 o
  | .vmovntdq o => eVMemX m .p66 0xE7 o
  | .movnti o => encMovnti m o
  | .movntpd o => eMemX m .p66 0x2B o
  | .vmovntpd o => eVMemX m .p66 0x2B o
  | .movntps o => eMemX m .np 0x2B o
  | .vmovntps o => eVMemX m .np 0x2B o
  | .movntq o => sse m .np .m0F 0xE7 (mmReg o.src) (.mem o.mem)
  | .movqX o => eMovq m o
  | .vmovqX o => eVMovqX m o
  | .movq2dq o => sse m .pF3 .m0F 0xD6 o.dst (.reg (mmReg o.src))
  | .movs o => encStrS m 0xA4 o
  | .movsb o => encStrN m 0xA4 .w8 o
  | .movsw o => encStrN m 0xA4 .w16 o
  | .movsdStr o => encStrN m 0xA4 .w32 o
  | .movsq o => encStrN m 0xA4 .w64 o
  | .movsdSse o => eXMov m .pF2 0x10 0x11 o
  | .vmovsd o => eVScalar m .pF2 o
  | .movshdup o => eXX m .pF3 .m0F 0x16 o
  | .vmovshdup o => eVX m .pF3 .m0F 0x16 false o
  | .movsldup o => eXX m .pF3 .m0F 0x12 o
  | .vmovsldup o => eVX m .pF3 .m0F 0x12 false o
  | .movss o => eXMov m .pF3 0x10 0x11 o
  | .vmovss o => eVScalar m .pF3 o
  | .movsx o => encExt m 0xBE o
  | .movsxd o => encMovsxd m o
  | .movupd o => eXMov m .p66 0x10 0x11 o
  | .vmovupd o => eVMov m .p66 0x10 0x11 o
  | .movups o => eXMov m .np 0x10 0x11 o
  | .vmovups o => eVMov m .np 0x10 0x11 o
  | .movzx o => encExt m 0xB6 o
  | .mpsadbw o => eXXI m .p66 .m3A 0x42 o
  | .vmpsadbw o => eVVXI m .p66 .m3A 0x42 false o
  | .mul o => encUn m {} 0xF6 4 o
  | .mulpd o => eXX m .p66 .m0F 0x59 o
  | .vmulpd o => eVVX m .p66 .m0F 0x59 false o
  | .mulps o => eXX m .np .m0F 0x59 o
  | .vmulps o => eVVX m .np .m0F 0x59 false o
  | .mulsd o => eXX m .pF2 .m0F 0x59 o
  | .vmulsd o => eVVX m .pF2 .m0F 0x59 false o
  | .mulss o => eXX m .pF3 .m0F 0x59 o
  | .vmulss o => eVVX m .pF3 .m0F 0x59 false o
  | .mulx o => encVg3 m .pF2 0xF6 o
  | .mwait => [0x0F, 0x01, 0xC9]
  | .neg o => encUn m {} 0xF6 3 o
  | .nop o => encNop m o
  | .not o => encUn m {} 0xF6 2 o
  | .or o => encAlu m 1 o
  | .orpd o => eXX m .p66 .m0F 0x56 o
  | .vorpd o => eVVX m .p66 .m0F 0x56 false o
  | .orps o => eXX m .np .m0F 0x56 o
  | .vorps o => eVVX m .np .m0F 0x56 false o
  | .out o => encIo m 0xE6 o
  | .outs o => encStrS m 0x6E o
  | .outsb o => encStrN m 0x6E .w8 o
  | .outsw o => encStrN m 0x6E .w16 o
  | .outsd o => encStrN m 0x6E .w32 o
  | .pabsb o => eMX m .m38 0x1C o
  | .vpabsb o => eVX m .p66 .m38 0x1C false o
  | .pabsw o => eMX m .m38 0x1D o
  | .vpabsw o => eVX m .p66 .m38 0x1D false o
  | .pabsd o => eMX m .m38 0x1E o
  | .vpabsd o => eVX m .p66 .m38 0x1E false o
  | .packsswb o => eMX m .m0F 0x63 o
  | .vpacksswb o => eVVX m .p66 .m0F 0x63 false o
  | .packssdw o => eMX m .m0F 0x6B o
  | .vpackssdw o => eVVX m .p66 .m0F 0x6B false o
  | .packusdw o => eXX m .p66 .m38 0x2B o
  | .vpackusdw o => eVVX m .p66 .m38 0x2B false o
  | .packuswb o => eMX m .m0F 0x67 o
  | .vpackuswb o => eVVX m .p66 .m0F 0x67 false o
  | .paddb o => eMX m .m0F 0xFC o
  | .vpaddb o => eVVX m .p66 .m0F 0xFC false o
  | .paddw o => eMX m .m0F 0xFD o
  | .vpaddw o => eVVX m .p66 .m0F 0xFD false o
  | .paddd o => eMX m .m0F 0xFE o
  | .vpaddd o => eVVX m .p66 .m0F 0xFE false o
  | .paddq o => eMX m .m0F 0xD4 o
  | .vpaddq o => eVVX m .p66 .m0F 0xD4 false o
  | .paddsb o => eMX m .m0F 0xEC o
  | .vpaddsb o => eVVX m .p66 .m0F 0xEC false o
  | .paddsw o => eMX m .m0F 0xED o
  | .vpaddsw o => eVVX m .p66 .m0F 0xED false o
  | .paddusb o => eMX m .m0F 0xDC o
  | .vpaddusb o => eVVX m .p66 .m0F 0xDC false o
  | .paddusw o => eMX m .m0F 0xDD o
  | .vpaddusw o => eVVX m .p66 .m0F 0xDD false o
  | .palignr o => eMXI m .m3A 0x0F o
  | .vpalignr o => eVVXI m .p66 .m3A 0x0F false o
  | .pand o => eMX m .m0F 0xDB o
  | .vpand o => eVVX m .p66 .m0F 0xDB false o
  | .pandn o => eMX m .m0F 0xDF o
  | .vpandn o => eVVX m .p66 .m0F 0xDF false o
  | .pause => [0xF3, 0x90]
  | .pavgb o => eMX m .m0F 0xE0 o
  | .vpavgb o => eVVX m .p66 .m0F 0xE0 false o
  | .pavgw o => eMX m .m0F 0xE3 o
  | .vpavgw o => eVVX m .p66 .m0F 0xE3 false o
  | .pblendvb o => eXX m .p66 .m38 0x10 o
  | .vpblendvb o => eVVXR m 0x4C o
  | .pblendw o => eXXI m .p66 .m3A 0x0E o
  | .vpblendw o => eVVXI m .p66 .m3A 0x0E false o
  | .pclmulqdq o => eXXI m .p66 .m3A 0x44 o
  | .vpclmulqdq o => eVVXI m .p66 .m3A 0x44 false o
  | .pcmpeqb o => eMX m .m0F 0x74 o
  | .vpcmpeqb o => eVVX m .p66 .m0F 0x74 false o
  | .pcmpeqw o => eMX m .m0F 0x75 o
  | .vpcmpeqw o => eVVX m .p66 .m0F 0x75 false o
  | .pcmpeqd o => eMX m .m0F 0x76 o
  | .vpcmpeqd o => eVVX m .p66 .m0F 0x76 false o
  | .pcmpeqq o => eXX m .p66 .m38 0x29 o
  | .vpcmpeqq o => eVVX m .p66 .m38 0x29 false o
  | .pcmpgtb o => eMX m .m0F 0x64 o
  | .vpcmpgtb o => eVVX m .p66 .m0F 0x64 false o
  | .pcmpgtw o => eMX m .m0F 0x65 o
  | .vpcmpgtw o => eVVX m .p66 .m0F 0x65 false o
  | .pcmpgtd o => eMX m .m0F 0x66 o
  | .vpcmpgtd o => eVVX m .p66 .m0F 0x66 false o
  | .pcmpgtq o => eXX m .p66 .m38 0x37 o
  | .vpcmpgtq o => eVVX m .p66 .m38 0x37 false o
  | .pcmpestri o => eStrCmp m 0x61 o
  | .vpcmpestri o => eVXI m .p66 .m3A 0x61 false o
  | .pcmpestrm o => eStrCmp m 0x60 o
  | .vpcmpestrm o => eVXI m .p66 .m3A 0x60 false o
  | .pcmpistri o => eStrCmp m 0x63 o
  | .vpcmpistri o => eVXI m .p66 .m3A 0x63 false o
  | .pcmpistrm o => eXXI m .p66 .m3A 0x62 o
  | .vpcmpistrm o => eVXI m .p66 .m3A 0x62 false o
  | .pdep o => encVg3 m .pF2 0xF5 o
  | .pext o => encVg3 m .pF3 0xF5 o
  | .pextrb o => eExtr m 0x14 false o
  | .vpextrb o => eVExtr m 0x14 false o
  | .pextrd o => eExtr m 0x16 false o
  | .vpextrd o => eVExtr m 0x16 false o
  | .pextrq o => eExtr m 0x16 true o
  | .vpextrq o => eVExtr m 0x16 true o
  | .pextrw o => ePextrw m o
  | .vpextrw o => eVExtr m 0x15 false o
  | .phaddw o => eMX m .m38 0x01 o
  | .vphaddw o => eVVX m .p66 .m38 0x01 false o
  | .phaddd o => eMX m .m38 0x02 o
  | .vphaddd o => eVVX m .p66 .m38 0x02 false o
  | .phaddsw o => eMX m .m38 0x03 o
  | .vphaddsw o => eVVX m .p66 .m38 0x03 false o
  | .phminposuw o => eXX m .p66 .m38 0x41 o
  | .vphminposuw o => eVX m .p66 .m38 0x41 false o
  | .phsubw o => eMX m .m38 0x05 o
  | .vphsubw o => eVVX m .p66 .m38 0x05 false o
  | .phsubd o => eMX m .m38 0x06 o
  | .vphsubd o => eVVX m .p66 .m38 0x06 false o
  | .phsubsw o => eMX m .m38 0x07 o
  | .vphsubsw o => eVVX m .p66 .m38 0x07 false o
  | .pinsrb o => eIns m 0x20 false o
  | .vpinsrb o => eVIns m .m3A 0x20 false o
  | .pinsrd o => eIns m 0x22 false o
  | .vpinsrd o => eVIns m .m3A 0x22 false o
  | .pinsrq o => eIns m 0x22 true o
  | .vpinsrq o => eVIns m .m3A 0x22 true o
  | .pinsrw o => ePinsrw m o
  | .vpinsrw o => eVIns m .m0F 0xC4 false o
  | .pmaddubsw o => eMX m .m38 0x04 o
  | .vpmaddubsw o => eVVX m .p66 .m38 0x04 false o
  | .pmaddwd o => eMX m .m0F 0xF5 o
  | .vpmaddwd o => eVVX m .p66 .m0F 0xF5 false o
  | .pmaxsb o => eXX m .p66 .m38 0x3C o
  | .vpmaxsb o => eVVX m .p66 .m38 0x3C false o
  | .pmaxsd o => eXX m .p66 .m38 0x3D o
  | .vpmaxsd o => eVVX m .p66 .m38 0x3D false o
  | .pmaxsw o => eMX m .m0F 0xEE o
  | .vpmaxsw o => eVVX m .p66 .m0F 0xEE false o
  | .pmaxub o => eMX m .m0F 0xDE o
  | .vpmaxub o => eVVX m .p66 .m0F 0xDE false o
  | .pmaxud o => eXX m .p66 .m38 0x3F o
  | .vpmaxud o => eVVX m .p66 .m38 0x3F false o
  | .pmaxuw o => eXX m .p66 .m38 0x3E o
  | .vpmaxuw o => eVVX m .p66 .m38 0x3E false o
  | .pminsb o => eXX m .p66 .m38 0x38 o
  | .vpminsb o => eVVX m .p66 .m38 0x38 false o
  | .pminsd o => eXX m .p66 .m38 0x39 o
  | .vpminsd o => eVVX m .p66 .m38 0x39 false o
  | .pminsw o => eMX m .m0F 0xEA o
  | .vpminsw o => eVVX m .p66 .m0F 0xEA false o
  | .pminub o => eMX m .m0F 0xDA o
  | .vpminub o => eVVX m .p66 .m0F 0xDA false o
  | .pminud o => eXX m .p66 .m38 0x3B o
  | .vpminud o => eVVX m .p66 .m38 0x3B false o
  | .pminuw o => eXX m .p66 .m38 0x3A o
  | .vpminuw o => eVVX m .p66 .m38 0x3A false o
  | .pmovmskb o => eGMask m o
  | .vpmovmskb o => eVGMask m .p66 0xD7 o
  | .pmovsxbw o => eXX m .p66 .m38 0x20 o
  | .vpmovsxbw o => eVX m .p66 .m38 0x20 false o
  | .pmovsxbd o => eXX m .p66 .m38 0x21 o
  | .vpmovsxbd o => eVX m .p66 .m38 0x21 false o
  | .pmovsxbq o => eXX m .p66 .m38 0x22 o
  | .vpmovsxbq o => eVX m .p66 .m38 0x22 false o
  | .pmovsxwd o => eXX m .p66 .m38 0x23 o
  | .vpmovsxwd o => eVX m .p66 .m38 0x23 false o
  | .pmovsxwq o => eXX m .p66 .m38 0x24 o
  | .vpmovsxwq o => eVX m .p66 .m38 0x24 false o
  | .pmovsxdq o => eXX m .p66 .m38 0x25 o
  | .vpmovsxdq o => eVX m .p66 .m38 0x25 false o
  | .pmovzxbw o => eXX m .p66 .m38 0x30 o
  | .vpmovzxbw o => eVX m .p66 .m38 0x30 false o
  | .pmovzxbd o => eXX m .p66 .m38 0x31 o
  | .vpmovzxbd o => eVX m .p66 .m38 0x31 false o
  | .pmovzxbq o => eXX m .p66 .m38 0x32 o
  | .vpmovzxbq o => eVX m .p66 .m38 0x32 false o
  | .pmovzxwd o => eXX m .p66 .m38 0x33 o
  | .vpmovzxwd o => eVX m .p66 .m38 0x33 false o
  | .pmovzxwq o => eXX m .p66 .m38 0x34 o
  | .vpmovzxwq o => eVX m .p66 .m38 0x34 false o
  | .pmovzxdq o => eXX m .p66 .m38 0x35 o
  | .vpmovzxdq o => eVX m .p66 .m38 0x35 false o
  | .pmuldq o => eXX m .p66 .m38 0x28 o
  | .vpmuldq o => eVVX m .p66 .m38 0x28 false o
  | .pmulhrsw o => eMX m .m38 0x0B o
  | .vpmulhrsw o => eVVX m .p66 .m38 0x0B false o
  | .pmulhuw o => eMX m .m0F 0xE4 o
  | .vpmulhuw o => eVVX m .p66 .m0F 0xE4 false o
  | .pmulhw o => eMX m .m0F 0xE5 o
  | .vpmulhw o => eVVX m .p66 .m0F 0xE5 false o
  | .pmulld o => eXX m .p66 .m38 0x40 o
  | .vpmulld o => eVVX m .p66 .m38 0x40 false o
  | .pmullw o => eMX m .m0F 0xD5 o
  | .vpmullw o => eVVX m .p66 .m0F 0xD5 false o
  | .pmuludq o => eMX m .m0F 0xF4 o
  | .vpmuludq o => eVVX m .p66 .m0F 0xF4 false o
  | .pop o => encPop m o
  | .popSeg o => encPopSeg m o
  | .popa => encW64 m .w16 0x61
  | .popad => encW64 m .w32 0x61
  | .popcnt o => encRegRm m (some .f3) 0xB8 o
  | .popf => encW64 m .w16 0x9D
  | .popfd => encW64 m .w32 0x9D
  | .popfq => encW64 m .w64 0x9D
  | .por o => eMX m .m0F 0xEB o
  | .vpor o => eVVX m .p66 .m0F 0xEB false o
  | .pxor o => eMX m .m0F 0xEF o
  | .vpxor o => eVVX m .p66 .m0F 0xEF false o
  | .prefetcht0 o => encMem m 0x18 1 false o
  | .prefetcht1 o => encMem m 0x18 2 false o
  | .prefetcht2 o => encMem m 0x18 3 false o
  | .prefetchnta o => encMem m 0x18 0 false o
  | .prefetchw o => encMem m 0x0D 1 false o
  | .prefetchwt1 o => encMem m 0x0D 2 false o
  | .psadbw o => eMX m .m0F 0xF6 o
  | .vpsadbw o => eVVX m .p66 .m0F 0xF6 false o
  | .pshufb o => eMX m .m38 0x00 o
  | .vpshufb o => eVVX m .p66 .m38 0x00 false o
  | .pshufd o => eXXI m .p66 .m0F 0x70 o
  | .vpshufd o => eVXI m .p66 .m0F 0x70 false o
  | .pshufhw o => eXXI m .pF3 .m0F 0x70 o
  | .vpshufhw o => eVXI m .pF3 .m0F 0x70 false o
  | .pshuflw o => eXXI m .pF2 .m0F 0x70 o
  | .vpshuflw o => eVXI m .pF2 .m0F 0x70 false o
  | .pshufw o => sse m .np .m0F 0x70 (mmReg o.dst) o.src.loc [o.imm]
  | .psignb o => eMX m .m38 0x08 o
  | .vpsignb o => eVVX m .p66 .m38 0x08 false o
  | .psignw o => eMX m .m38 0x09 o
  | .vpsignw o => eVVX m .p66 .m38 0x09 false o
  | .psignd o => eMX m .m38 0x0A o
  | .vpsignd o => eVVX m .p66 .m38 0x0A false o
  | .pslldq o => eXI m 7 o
  | .vpslldq o => eVVI m 7 o
  | .psrldq o => eXI m 3 o
  | .vpsrldq o => eVVI m 3 o
  | .psllw o => eMShift m 0xF1 0x71 6 o
  | .vpsllw o => eVShift m 0xF1 0x71 6 o
  | .pslld o => eMShift m 0xF2 0x72 6 o
  | .vpslld o => eVShift m 0xF2 0x72 6 o
  | .psllq o => eMShift m 0xF3 0x73 6 o
  | .vpsllq o => eVShift m 0xF3 0x73 6 o
  | .psraw o => eMShift m 0xE1 0x71 4 o
  | .vpsraw o => eVShift m 0xE1 0x71 4 o
  | .psrad o => eMShift m 0xE2 0x72 4 o
  | .vpsrad o => eVShift m 0xE2 0x72 4 o
  | .psrlw o => eMShift m 0xD1 0x71 2 o
  | .vpsrlw o => eVShift m 0xD1 0x71 2 o
  | .psrld o => eMShift m 0xD2 0x72 2 o
  | .vpsrld o => eVShift m 0xD2 0x72 2 o
  | .psrlq o => eMShift m 0xD3 0x73 2 o
  | .vpsrlq o => eVShift m 0xD3 0x73 2 o
  | .psubb o => eMX m .m0F 0xF8 o
  | .vpsubb o => eVVX m .p66 .m0F 0xF8 false o
  | .psubw o => eMX m .m0F 0xF9 o
  | .vpsubw o => eVVX m .p66 .m0F 0xF9 false o
  | .psubd o => eMX m .m0F 0xFA o
  | .vpsubd o => eVVX m .p66 .m0F 0xFA false o
  | .psubq o => eMX m .m0F 0xFB o
  | .vpsubq o => eVVX m .p66 .m0F 0xFB false o
  | .psubsb o => eMX m .m0F 0xE8 o
  | .vpsubsb o => eVVX m .p66 .m0F 0xE8 false o
  | .psubsw o => eMX m .m0F 0xE9 o
  | .vpsubsw o => eVVX m .p66 .m0F 0xE9 false o
  | .psubusb o => eMX m .m0F 0xD8 o
  | .vpsubusb o => eVVX m .p66 .m0F 0xD8 false o
  | .psubusw o => eMX m .m0F 0xD9 o
  | .vpsubusw o => eVVX m .p66 .m0F 0xD9 false o
  | .ptest o => eXX m .p66 .m38 0x17 o
  | .vptest o => eVX m .p66 .m38 0x17 false o
  | .punpckhbw o => eMX m .m0F 0x68 o
  | .vpunpckhbw o => eVVX m .p66 .m0F 0x68 false o
  | .punpckhwd o => eMX m .m0F 0x69 o
  | .vpunpckhwd o => eVVX m .p66 .m0F 0x69 false o
  | .punpckhdq o => eMX m .m0F 0x6A o
  | .vpunpckhdq o => eVVX m .p66 .m0F 0x6A false o
  | .punpckhqdq o => eXX m .p66 .m0F 0x6D o
  | .vpunpckhqdq o => eVVX m .p66 .m0F 0x6D false o
  | .punpcklbw o => eMX m .m0F 0x60 o
  | .vpunpcklbw o => eVVX m .p66 .m0F 0x60 false o
  | .punpcklwd o => eMX m .m0F 0x61 o
  | .vpunpcklwd o => eVVX m .p66 .m0F 0x61 false o
  | .punpckldq o => eMX m .m0F 0x62 o
  | .vpunpckldq o => eVVX m .p66 .m0F 0x62 false o
  | .punpcklqdq o => eXX m .p66 .m0F 0x6C o
  | .vpunpcklqdq o => eVVX m .p66 .m0F 0x6C false o
  | .push o => encPush m o
  | .pusha => encW64 m .w16 0x60
  | .pushad => encW64 m .w32 0x60
  | .pushf => encW64 m .w16 0x9C
  | .pushfd => encW64 m .w32 0x9C
  | .pushfq => encW64 m .w64 0x9C
  | .rcl o => encShift m 2 o
  | .rcr o => encShift m 3 o
  | .rol o => encShift m 0 o
  | .ror o => encShift m 1 o
  | .rcpps o => eXX m .np .m0F 0x53 o
  | .vrcpps o => eVX m .np .m0F 0x53 false o
  | .rcpss o => eXX m .pF3 .m0F 0x53 o
  | .vrcpss o => eVVX m .pF3 .m0F 0x53 false o
  | .rdfsbase o => encBase m 0 o
  | .rdgsbase o => encBase m 1 o
  | .rdmsr => [0x0F, 0x32]
  | .rdpkru => [0x0F, 0x01, 0xEE]
  | .rdpmc => [0x0F, 0x33]
  | .rdrand o => encRand m 6 o
  | .rdseed o => encRand m 7 o
  | .rdtsc => [0x0F, 0x31]
  | .rdtscp => [0x0F, 0x01, 0xF9]
  | .rep o => encRep m o
  | .repe o => encRepCmp m .f3 o
  | .repne o => encRepCmp m .f2 o
  | .retNear o => encRet m o
  | .retFar o => encRetFar m o
  | .rorx o => encRorx m o
  | .roundpd o => eXXI m .p66 .m3A 0x09 o
  | .vroundpd o => eVXI m .p66 .m3A 0x09 false o
  | .roundps o => eXXI m .p66 .m3A 0x08 o
  | .vroundps o => eVXI m .p66 .m3A 0x08 false o
  | .roundsd o => eXXI m .p66 .m3A 0x0B o
  | .vroundsd o => eVVXI m .p66 .m3A 0x0B false o
  | .roundss o => eXXI m .p66 .m3A 0x0A o
  | .vroundss o => eVVXI m .p66 .m3A 0x0A false o
  | .rsm => [0x0F, 0xAA]
  | .rsqrtps o => eXX m .np .m0F 0x52 o
  | .vrsqrtps o => eVX m .np .m0F 0x52 false o
  | .rsqrtss o => eXX m .pF3 .m0F 0x52 o
  | .vrsqrtss o => eVVX m .pF3 .m0F 0x52 false o
  | .sahf => [0x9E]
  | .sal o => encShift m 4 o
  | .sar o => encShift m 7 o
  | .shl o => encShift m 4 o
  | .shr o => encShift m 5 o
  | .sarx o => encVg3 m .pF3 0xF7 o
  | .shlx o => encVg3 m .p66 0xF7 o
  | .shrx o => encVg3 m .pF2 0xF7 o
  | .sbb o => encAlu m 3 o
  | .scas o => encStrS m 0xAE o
  | .scasb o => encStrN m 0xAE .w8 o
  | .scasw o => encStrN m 0xAE .w16 o
  | .scasd o => encStrN m 0xAE .w32 o
  | .scasq o => encStrN m 0xAE .w64 o
  | .seto o => encSet m 0 o
  | .setno o => encSet m 1 o
  | .setb o => encSet m 2 o
  | .setae o => encSet m 3 o
  | .sete o => encSet m 4 o
  | .setne o => encSet m 5 o
  | .setbe o => encSet m 6 o
  | .seta o => encSet m 7 o
  | .sets o => encSet m 8 o
  | .setns o => encSet m 9 o
  | .setp o => encSet m 10 o
  | .setnp o => encSet m 11 o
  | .setl o => encSet m 12 o
  | .setge o => encSet m 13 o
  | .setle o => encSet m 14 o
  | .setg o => encSet m 15 o
  | .sfence => [0x0F, 0xAE, 0xF8]
  | .sgdt o => encTable m 0 o
  | .shld o => encDShift m 0xA4 o
  | .shrd o => encDShift m 0xAC o
  | .shufpd o => eXXI m .p66 .m0F 0xC6 o
  | .vshufpd o => eVVXI m .p66 .m0F 0xC6 false o
  | .shufps o => eXXI m .np .m0F 0xC6 o
  | .vshufps o => eVVXI m .np .m0F 0xC6 false o
  | .sidt o => encTable m 1 o
  | .sldt o => encRmW m 0x00 0 o
  | .smsw o => encRmW m 0x01 4 o
  | .sqrtpd o => eXX m .p66 .m0F 0x51 o
  | .vsqrtpd o => eVX m .p66 .m0F 0x51 false o
  | .sqrtps o => eXX m .np .m0F 0x51 o
  | .vsqrtps o => eVX m .np .m0F 0x51 false o
  | .sqrtsd o => eXX m .pF2 .m0F 0x51 o
  | .vsqrtsd o => eVVX m .pF2 .m0F 0x51 false o
  | .sqrtss o => eXX m .pF3 .m0F 0x51 o
  | .vsqrtss o => eVVX m .pF3 .m0F 0x51 false o
  | .stac => [0x0F, 0x01, 0xCB]
  | .stc => [0xF9]
  | .std => [0xFD]
  | .sti => [0xFB]
  | .stmxcsr o => encMem m 0xAE 3 false o
  | .vstmxcsr o => encVMem m 3 o
  | .stos o => encStrS m 0xAA o
  | .stosb o => encStrN m 0xAA .w8 o
  | .stosw o => encStrN m 0xAA .w16 o
  | .stosd o => encStrN m 0xAA .w32 o
  | .stosq o => encStrN m 0xAA .w64 o
  | .str o => encRmW m 0x00 1 o
  | .sub o => encAlu m 5 o
  | .subpd o => eXX m .p66 .m0F 0x5C o
  | .vsubpd o => eVVX m .p66 .m0F 0x5C false o
  | .subps o => eXX m .np .m0F 0x5C o
  | .vsubps o => eVVX m .np .m0F 0x5C false o
  | .subsd o => eXX m .pF2 .m0F 0x5C o
  | .vsubsd o => eVVX m .pF2 .m0F 0x5C false o
  | .subss o => eXX m .pF3 .m0F 0x5C o
  | .vsubss o => eVVX m .pF3 .m0F 0x5C false o
  | .swapgs => [0x0F, 0x01, 0xF8]
  | .syscall => [0x0F, 0x05]
  | .sysenter => [0x0F, 0x34]
  | .sysexit o => plain { op := 0x35, esc := [0x0F], w := decide (o = .w64) } false []
  | .sysret o => plain { op := 0x07, esc := [0x0F], w := decide (o = .w64) } false []
  | .test o => encTest m o
  | .tzcnt o => encRegRm m (some .f3) 0xBC o
  | .ucomisd o => eXX m .p66 .m0F 0x2E o
  | .vucomisd o => eVX m .p66 .m0F 0x2E false o
  | .ucomiss o => eXX m .np .m0F 0x2E o
  | .vucomiss o => eVX m .np .m0F 0x2E false o
  | .ud2 => [0x0F, 0x0B]
  | .unpckhpd o => eXX m .p66 .m0F 0x15 o
  | .vunpckhpd o => eVVX m .p66 .m0F 0x15 false o
  | .unpckhps o => eXX m .np .m0F 0x15 o
  | .vunpckhps o => eVVX m .np .m0F 0x15 false o
  | .unpcklpd o => eXX m .p66 .m0F 0x14 o
  | .vunpcklpd o => eVVX m .p66 .m0F 0x14 false o
  | .unpcklps o => eXX m .np .m0F 0x14 o
  | .vunpcklps o => eVVX m .np .m0F 0x14 false o
  | .vbroadcastss o => eVX m .p66 .m38 0x18 false o
  | .vbroadcastsd o => eVX m .p66 .m38 0x19 false o
  | .vbroadcastf128 o => eVXMem m .p66 .m38 0x1A o
  | .vcvtph2ps o => eVX m .p66 .m38 0x13 false o
  | .vcvtps2ph o => eVExt m 0x1D o
  | .verr o => encRm16 m 0x00 4 o
  | .verw o => encRm16 m 0x00 5 o
  | .vextractf128 o => eVExt m 0x19 o
  | .vextracti128 o => eVExt m 0x39 o
  | .vfmadd132pd o => eVVX m .p66 .m38 0x98 true o
  | .vfmadd213pd o => eVVX m .p66 .m38 0xA8 true o
  | .vfmadd231pd o => eVVX m .p66 .m38 0xB8 true o
  | .vfmadd132ps o => eVVX m .p66 .m38 0x98 false o
  | .vfmadd213ps o => eVVX m .p66 .m38 0xA8 false o
  | .vfmadd231ps o => eVVX m .p66 .m38 0xB8 false o
  | .vfmadd132sd o => eVVX m .p66 .m38 0x99 true o
  | .vfmadd213sd o => eVVX m .p66 .m38 0xA9 true o
  | .vfmadd231sd o => eVVX m .p66 .m38 0xB9 true o
  | .vfmadd132ss o => eVVX m .p66 .m38 0x99 false o
  | .vfmadd213ss o => eVVX m .p66 .m38 0xA9 false o
  | .vfmadd231ss o => eVVX m .p66 .m38 0xB9 false o
  | .vfmaddsub132pd o => eVVX m .p66 .m38 0x96 true o
  | .vfmaddsub213pd o => eVVX m .p66 .m38 0xA6 true o
  | .vfmaddsub231pd o => eVVX m .p66 .m38 0xB6 true o
  | .vfmaddsub132ps o => eVVX m .p66 .m38 0x96 false o
  | .vfmaddsub213ps o => eVVX m .p66 .m38 0xA6 false o
  | .vfmaddsub231ps o => eVVX m .p66 .m38 0xB6 false o
  | .vfmsubadd132pd o => eVVX m .p66 .m38 0x97 true o
  | .vfmsubadd213pd o => eVVX m .p66 .m38 0xA7 true o
  | .vfmsubadd231pd o => eVVX m .p66 .m38 0xB7 true o
  | .vfmsubadd132ps o => eVVX m .p66 .m38 0x97 false o
  | .vfmsubadd213ps o => eVVX m .p66 .m38 0xA7 false o
  | .vfmsubadd231ps o => eVVX m .p66 .m38 0xB7 false o
  | .vfmsub132pd o => eVVX m .p66 .m38 0x9A true o
  | .vfmsub213pd o => eVVX m .p66 .m38 0xAA true o
  | .vfmsub231pd o => eVVX m .p66 .m38 0xBA true o
  | .vfmsub132ps o => eVVX m .p66 .m38 0x9A false o
  | .vfmsub213ps o => eVVX m .p66 .m38 0xAA false o
  | .vfmsub231ps o => eVVX m .p66 .m38 0xBA false o
  | .vfmsub132sd o => eVVX m .p66 .m38 0x9B true o
  | .vfmsub213sd o => eVVX m .p66 .m38 0xAB true o
  | .vfmsub231sd o => eVVX m .p66 .m38 0xBB true o
  | .vfmsub132ss o => eVVX m .p66 .m38 0x9B false o
  | .vfmsub213ss o => eVVX m .p66 .m38 0xAB false o
  | .vfmsub231ss o => eVVX m .p66 .m38 0xBB false o
  | .vfnmadd132pd o => eVVX m .p66 .m38 0x9C true o
  | .vfnmadd213pd o => eVVX m .p66 .m38 0xAC true o
  | .vfnmadd231pd o => eVVX m .p66 .m38 0xBC true o
  | .vfnmadd132ps o => eVVX m .p66 .m38 0x9C false o
  | .vfnmadd213ps o => eVVX m .p66 .m38 0xAC false o
  | .vfnmadd231ps o => eVVX m .p66 .m38 0xBC false o
  | .vfnmadd132sd o => eVVX m .p66 .m38 0x9D true o
  | .vfnmadd213sd o => eVVX m .p66 .m38 0xAD true o
  | .vfnmadd231sd o => eVVX m .p66 .m38 0xBD true o
  | .vfnmadd132ss o => eVVX m .p66 .m38 0x9D false o
  | .vfnmadd213ss o => eVVX m .p66 .m38 0xAD false o
  | .vfnmadd231ss o => eVVX m .p66 .m38 0xBD false o
  | .vfnmsub132pd o => eVVX m .p66 .m38 0x9E true o
  | .vfnmsub213pd o => eVVX m .p66 .m38 0xAE true o
  | .vfnmsub231pd o => eVVX m .p66 .m38 0xBE true o
  | .vfnmsub132ps o => eVVX m .p66 .m38 0x9E false o
  | .vfnmsub213ps o => eVVX m .p66 .m38 0xAE false o
  | .vfnmsub231ps o => eVVX m .p66 .m38 0xBE false o
  | .vfnmsub132sd o => eVVX m .p66 .m38 0x9F true o
  | .vfnmsub213sd o => eVVX m .p66 .m38 0xAF true o
  | .vfnmsub231sd o => eVVX m .p66 .m38 0xBF true o
  | .vfnmsub132ss o => eVVX m .p66 .m38 0x9F false o
  | .vfnmsub213ss o => eVVX m .p66 .m38 0xAF false o
  | .vfnmsub231ss o => eVVX m .p66 .m38 0xBF false o
  | .vgatherdpd o => eVGather m 0x92 true o
  | .vgatherqpd o => eVGather m 0x93 true o
  | .vgatherdps o => eVGather m 0x92 false o
  | .vgatherqps o => eVGather m 0x93 false o
  | .vpgatherdd o => eVGather m 0x90 false o
  | .vpgatherqd o => eVGather m 0x91 false o
  | .vpgatherdq o => eVGather m 0x90 true o
  | .vpgatherqq o => eVGather m 0x91 true o
  | .vinsertf128 o => eVVXI m .p66 .m3A 0x18 false o
  | .vinserti128 o => eVVXI m .p66 .m3A 0x38 false o
  | .vmaskmovps o => eVMask m 0x2C 0x2E false o
  | .vmaskmovpd o => eVMask m 0x2D 0x2F false o
  | .vpblendd o => eVVXI m .p66 .m3A 0x02 false o
  | .vpbroadcastb o => eVX m .p66 .m38 0x78 false o
  | .vpbroadcastw o => eVX m .p66 .m38 0x79 false o
  | .vpbroadcastd o => eVX m .p66 .m38 0x58 false o
  | .vpbroadcastq o => eVX m .p66 .m38 0x59 false o
  | .vbroadcasti128 o => eVXMem m .p66 .m38 0x5A o
  | .vpermd o => eVVX m .p66 .m38 0x36 false o
  | .vpermpd o => eVXI m .p66 .m3A 0x01 true o
  | .vpermps o => eVVX m .p66 .m38 0x16 false o
  | .vpermq o => eVXI m .p66 .m3A 0x00 true o
  | .vperm2i128 o => eVVXI m .p66 .m3A 0x46 false o
  | .vperm2f128 o => eVVXI m .p66 .m3A 0x06 false o
  | .vpermilpd o => eVPermil m 0x0D 0x05 o
  | .vpermilps o => eVPermil m 0x0C 0x04 o
  | .vpmaskmovd o => eVMask m 0x8C 0x8E false o
  | .vpmaskmovq o => eVMask m 0x8C 0x8E true o
  | .vpsllvd o => eVVX m .p66 .m38 0x47 false o
  | .vpsllvq o => eVVX m .p66 .m38 0x47 true o
  | .vpsravd o => eVVX m .p66 .m38 0x46 false o
  | .vpsrlvd o => eVVX m .p66 .m38 0x45 false o
  | .vpsrlvq o => eVVX m .p66 .m38 0x45 true o
  | .vtestps o => eVX m .p66 .m38 0x0E false o
  | .vtestpd o => eVX m .p66 .m38 0x0F false o
  | .vzeroall => vexBytes .np .m0F 0x77 false false false false 0 true
  | .vzeroupper => vexBytes .np .m0F 0x77 false false false false 0 false
  | .wait => [0x9B]
  | .fwait => [0x9B]
  | .wbinvd => [0x0F, 0x09]
  | .wrfsbase o => encBase m 2 o
  | .wrgsbase o => encBase m 3 o
  | .wrmsr => [0x0F, 0x30]
  | .wrpkru => [0x0F, 0x01, 0xEF]
  | .xacquire o => encAcquire m o
  | .xrelease o => encRelease m o
  | .xabort o => [0xC6, 0xF8, o]
  | .xadd o => encMr m {} 0xC0 [0x0F] o.w o.dst o.src
  | .xbegin o => encXbegin m o
  | .xchg o => encMr m {} 0x86 [] o.w o.dst o.src
  | .xend => [0x0F, 0x01, 0xD5]
  | .xgetbv => [0x0F, 0x01, 0xD0]
  | .xlat o => encAddr m o.a (some o.ovr) [0xD7]
  | .xlatb o => encAddr m o none [0xD7]
  | .xor o => encAlu m 6 o
  | .xorpd o => eXX m .p66 .m0F 0x57 o
  | .vxorpd o => eVVX m .p66 .m0F 0x57 false o
  | .xorps o => eXX m .np .m0F 0x57 o
  | .vxorps o => eVVX m .np .m0F 0x57 false o
  | .xrstor o => encMem m 0xAE 5 false o
  | .xrstor64 o => encMem m 0xAE 5 true o
  | .xrstors o => encMem m 0xC7 3 false o
  | .xrstors64 o => encMem m 0xC7 3 true o
  | .xsave o => encMem m 0xAE 4 false o
  | .xsave64 o => encMem m 0xAE 4 true o
  | .xsavec o => encMem m 0xC7 4 false o
  | .xsavec64 o => encMem m 0xC7 4 true o
  | .xsaveopt o => encMem m 0xAE 6 false o
  | .xsaveopt64 o => encMem m 0xAE 6 true o
  | .xsaves o => encMem m 0xC7 5 false o
  | .xsaves64 o => encMem m 0xC7 5 true o
  | .xsetbv => [0x0F, 0x01, 0xD1]
  | .xtest => [0x0F, 0x01, 0xD6]

end

end Sys2Proof
end

