-- ==== Sys2Proof/Machine/Fetch.lean ====
section
/-! DEFINITION. Fetching an instruction's bytes (spec/20_memory.md rule R214), the checks before it (spec/60_exceptions.md rules
R2071, R2072, R2081), and the state an instruction is executed in (spec/10_state.md rule R54). -/

namespace Sys2Proof.Machine

/-- The decoding mode (spec/30_encoding.md rules R320, R360): default sizes by the cached D bit of CS, 16 bits in virtual-8086
mode. -/
def State.cmode (s : State) : CMode :=
  match s.mode with
  | .long => { long := true, d32 := true, vex := true }
  | .real => { long := false, d32 := (s.segOf .cs).db, vex := false }
  | .v86 => { long := false, d32 := false, vex := false }
  | _ => { long := false, d32 := (s.segOf .cs).db, vex := true }

/-- The value rIP takes after a sequential advance (rule R54): 32 bits outside 64-bit mode. -/
def State.ripTrunc (s : State) (v : Word) : Word := if s.isLong then v else (v.setWidth 32).setWidth 64

/-- The offset of byte k of the next instruction. -/
def State.codeOff (s : State) (k : Nat) : Word := s.rip + BitVec.ofNat 64 k

/-- The linear address of byte k of the next instruction. -/
def State.codeLin (s : State) (k : Nat) : Word := s.linear .cs (s.segOf .cs) (s.codeOff k)

/-- The physical address of byte k of the next instruction, if its page is mapped. -/
def State.codeAddr (s : State) (k : Nat) : Option Nat :=
  match s.walkOf (s.codeLin k) with
  | .page pa _ _ => some pa
  | _ => none

/-- Can byte k of the next instruction be fetched? -/
def State.canFetch (s : State) (k : Nat) : Bool :=
  decide (s.segVerdict .cs (s.segOf .cs) .exec (s.codeOff k) 1 = .ok) &&
  (match s.walkOf (s.codeLin k) with
   | .page _ pkey t => decide (s.paging = .off) || decide (s.right .exec (decide (s.cpl = 3)) false pkey t = .ok)
   | _ => false)

/-- The bytes of the next instruction from byte k on, at most n of them, up to the first that cannot be fetched. -/
def State.codeBytes (s : State) : Nat → Nat → List Byte
  | 0, _ => []
  | n + 1, k =>
    if s.canFetch k then s.mem.read ((s.codeAddr k).getD 0) :: s.codeBytes n (k + 1) else []

/-- Fetch n bytes with their checks: the code-segment limit or canonical form (#GP(0)), then the pages (rule R214). -/
def fetchBytes (n : Nat) : M Unit := do
  let s ← get
  if s.segVerdict .cs (s.segOf .cs) .exec s.rip n = .ok then
    let _ ← translateRange s.linTrunc .exec (decide (s.cpl = 3)) false (s.codeLin 0) n
  else raiseGP

/-- Fetch and decode the next instruction; its faults in the order of rule R2005 items 8 and 9. -/
noncomputable def fetch : M Decoded := do
  let s ← get
  let bytes := s.codeBytes 15 0
  match decode s.cmode bytes with
  | .ok d => do fetchBytes d.len; return d
  | .error .incomplete => do fetchBytes (bytes.length + 1); raiseGP
  | .error .tooLong => do fetchBytes 15; raiseGP
  | .error .undefined => do fetchBytes 1; raiseUD

/-- The state an instruction of the given length and opcode bits is executed in: rip_next is known (rule R54). -/
def State.atInstr (s : State) (len : Nat) (fop : BitVec 11) : State :=
  { s with ripNext := s.ripTrunc (s.rip + BitVec.ofNat 64 len), fopNext := fop }

/-- Instruction breakpoints at the next instruction (rule R2081 (b)). -/
def State.instrBreaks (s : State) : BitVec 16 :=
  if s.flags.rf || s.act.afterMovSs then 0
  else bpMask fun k => s.sys.bpOn k && decide (s.sys.bpKind k = 0) && decide (s.sys.bpLen k = 0)
    && decide (s.sys.dr k = s.codeLin 0)

/-- The maskable interrupt accepted at this boundary (rule R2072). -/
def State.acceptedIntr (s : State) : Option (BitVec 8) :=
  if s.flags.ifl && decide (s.act.inhibit = .none) then s.pins.intr else none

/-- The abort of a running transaction that the host asks for. -/
def State.hostAbort (s : State) : Option (BitVec 32) :=
  if s.rtm.snapshot.isSome then s.pins.rtmAbort else none

/-- Store bytes at the given addresses, where there is one. -/
def Memory.storeBytes (m : Memory) : List (Option Nat) → List Byte → Memory
  | some a :: as, b :: bs => (m.write a b).storeBytes as bs
  | none :: as, _ :: bs => m.storeBytes as bs
  | _, _ => m

/-- #DB for the traps the last instruction left pending (spec/60_exceptions.md rule R2081): return address the next instruction. -/
def takeDebugTrap (s : State) : Host.Outcome State Fault Refusal :=
  let s1 := { s with act := { s.act with pendingDb := 0 } }
  deliver nestBound { kind := .exception, vec := 1, ret := s.rip, rf := s.flags.rf, dr6 := s.act.pendingDb } s1

/-- #DB for an instruction breakpoint, or the end of a transaction (rule R2081 (b), (g)). -/
def takeBreakpoint (b : BitVec 16) (s : State) : Host.Outcome State Fault Refusal :=
  if s.rtm.snapshot.isSome then .next (s.rtmAbort (s.cfg.rtmDebugStatus ||| 16))
  else deliver nestBound { kind := .exception, vec := 1, ret := s.rip, rf := false, dr6 := b } s

/-- The end of monitoring and of the wait of MWAIT. -/
def Activity.awake (a : Activity) : Activity :=
  { a with mwaitWaiting := false, mwaitMaskedBreak := false, monitorArmed := false }

/-- Another agent stored to the monitored range, or the wait ends for no visible reason: the monitor is disarmed at once, whether or
not MWAIT waits (spec/10_state.md rule R162, decision D41). -/
def State.woken (s : State) : State := { s with act := s.act.awake, pins := { s.pins with wake := false } }

/-- HALT and MWAIT (rule R2060): the wait of MWAIT also ends at a masked interrupt when MWAIT asked for it. -/
def waitStep (s : State) : State :=
  if s.act.mwaitWaiting && s.act.mwaitMaskedBreak && s.pins.intr.isSome then { s with act := s.act.awake } else s

end Sys2Proof.Machine
end

