-- ==== Sys2Proof/Machine/Step.lean ====
section
/-! DEFINITION. The step of the processor (spec/00_scope.md rule R11): host events and pending traps in their priority order
(spec/60_exceptions.md rule R2005), then one instruction fetched, decoded and executed. -/

namespace Sys2Proof.Machine

noncomputable section

/-- Fetch, decode and execute (rule R11 items 6 and 7). -/
def runInstr (s : State) : Host.Outcome State Fault Refusal :=
  match fetch.run s with
  | .ok d t => exec d.instr (t.atInstr d.len d.fop)
  | .error (.exc e) t => takeException e t
  | .error (.fault f) _ => .fault f
  | .error (.refuse r) _ => .refused r

/-- One step (rule R11). -/
def step (s : State) : Host.Outcome State Fault Refusal :=
  if s.pins.reset then .next s.doReset
  else if s.pins.init then .next s.doInit
  else if s.pins.wake then .next s.woken
  else if s.act.shutdown then .next s
  else if decide (s.act.pendingDb ≠ 0) && decide (s.act.inhibit ≠ .movSs) then takeDebugTrap s
  else if s.pins.nmi && !s.act.nmiBlocked && decide (s.act.inhibit ≠ .movSs) then
    takeExternal .nmi 2 { s with pins := { s.pins with nmi := false } }
  else
    match s.acceptedIntr with
    | some v => takeExternal .external v { s with pins := { s.pins with intr := none } }
    | none =>
      match s.hostAbort with
      | some st => .next ({ s with pins := { s.pins with rtmAbort := none } }.rtmAbort st)
      | none =>
        if s.act.halted || s.act.mwaitWaiting then .next (waitStep s)
        else if decide (s.instrBreaks ≠ 0) then takeBreakpoint s.instrBreaks s
        else runInstr s

/-- The state with an instruction's bits stored where the step fetches its next instruction. -/
def State.withFetchWord (s : State) (_nbits w : Nat) : State :=
  { s with mem := s.mem.storeBytes ((List.range 15).map fun k => s.codeAddr k) (wordBytes w) }

end

end Sys2Proof.Machine
end

