-- ==== Sys2Proof/Safety.lean ====
section
/-! DEFINITION. The terms claims are stated in: an access that succeeds, an instruction that completes with its own effect, what
enables the instruction sets, and the invariant of the memory. -/

namespace Sys2Proof.Machine

/-- A check or a read of a meaning succeeds in state s: its value is a, and t is the state after it (an access through paging
sets accessed and dirty bits, and may note a debug condition). -/
def Passes {α : Type} (m : M α) (s : State) (a : α) (t : State) : Prop := m.run s = .ok a t

/-- The states differ at most in what an access to memory may change by its checks alone: accessed and dirty bits in memory
(spec/20_memory.md rule R246) and the monitor such a store disarms (spec/10_state.md rule R162), debug conditions noted for the
end of the instruction (rule R2081). -/
def AccessOnly (s t : State) : Prop :=
  ∃ m p q, t = { s with mem := m, act := { s.act with pendingDb := p, monitorArmed := q } }

/-- The instruction runs to its end with its own effect: its meaning leaves state t, which the end of the step takes over
(spec/00_scope.md rule R11). No exception is taken. -/
def Completes (i : Instr) (s t : State) : Prop := exec i s = .next (s.finish t)

/-- What lets a legacy SSE instruction run (spec/61_exception_groups.md rule R2110): CR0.EM = 0, CR4.OSFXSR = 1, the feature,
CR0.TS = 0. -/
def SseReady (f : Config.Feature) (s : State) : Prop :=
  s.cr0Bit 2 = false ∧ s.cr4Bit 9 = true ∧ s.has f = true ∧ s.cr0Bit 3 = false

/-- What lets a VEX-encoded instruction run (spec/61_exception_groups.md rule R2110): protected mode, CR4.OSXSAVE = 1, XCR0[2:1]
= 11B, the features, CR0.TS = 0. -/
def VexReady (fs : List Config.Feature) (s : State) : Prop :=
  s.isLegacySeg = false ∧ s.cr4Bit 18 = true ∧ s.sys.xcr0.getLsbD 1 = true ∧ s.sys.xcr0.getLsbD 2 = true ∧
    fs.all s.has = true ∧ s.cr0Bit 3 = false

/-- What lets an MMX instruction run (spec/61_exception_groups.md rule R2124): CR0.EM = 0, the feature, CR0.TS = 0, no pending
x87 exception. -/
def MmxReady (f : Config.Feature) (s : State) : Prop :=
  s.cr0Bit 2 = false ∧ s.has f = true ∧ s.cr0Bit 3 = false ∧ s.fpu.es = false

/-- What lets an x87 instruction that does not wait run (spec/46_f_f2xm1-fisttp.md rule R617). -/
def FpuThere (s : State) : Prop := s.has .fpu = true ∧ s.cr0Bit 2 = false ∧ s.cr0Bit 3 = false

/-- What lets a waiting x87 instruction run: no pending x87 exception as well. -/
def FpuReady (s : State) : Prop := FpuThere s ∧ s.fpu.es = false

/-- What lets a VEX-encoded general-register instruction run (spec/61_exception_groups.md rule R2106). -/
def VexGprReady (f : Config.Feature) (s : State) : Prop := s.isLegacySeg = false ∧ s.has f = true

/-- MXCSR after an operation that met the exceptions `fl`, every one masked (spec/60_exceptions.md rule R2019). -/
def State.flagged (s : State) (fl : FpFlags) : State := { s with mxcsr := s.mxcsr ||| (reported s.mxcsr fl).setWidth 32 }

/-- The x87 unit after an MMX instruction (spec/10_state.md rule R128): TOP is 0 and every tag is valid. -/
def State.mmxUsed (s : State) : State := { s with fpu := s.fpu.mmxUse }

/-- The states differ at most in the x87 unit and in the number of free values drawn. -/
def FpuOnly (s t : State) : Prop := ∃ f n, t = { s with fpu := f, free := n }

/-- The states differ at most in the x87 unit, the flags and the number of free values drawn. -/
def FpuFlagsOnly (s t : State) : Prop := ∃ f g n, t = { s with fpu := f, flags := g, free := n }

/-- The pointers and the opcode an x87 instruction records on its entry (spec/10_state.md rule R124). -/
def State.fpuEntered (s : State) (ip : Word) (mem : Option MemRef) : State :=
  let f := { s.fpu with fip := ip, fcs := (s.segOf .cs).sel, fop := s.fopNext }
  { s with fpu := match mem with
      | some m => { f with fdp := s.ea m, fds := (s.segOf m.seg).sel }
      | none => f }

/-! What an x87 instruction makes of the unit, as functions of the unit: the statements about x87 results are written in them. -/

/-- C0, C2 and C3 at an open value (U1). -/
def Fpu.withCodes (f : Fpu) (v : BitVec 3) : Fpu :=
  { f with fsw := { f.fsw with c0 := v.getLsbD 0, c2 := v.getLsbD 1, c3 := v.getLsbD 2 } }

/-- C0 to C3 at an open value (U1). -/
def Fpu.withAllCodes (f : Fpu) (v : BitVec 4) : Fpu :=
  { f with fsw := { f.fsw with c0 := v.getLsbD 0, c1 := v.getLsbD 3, c2 := v.getLsbD 1, c3 := v.getLsbD 2 } }

/-- The exception flags and SF cleared (spec/46_f_f2xm1-fisttp.md rule R626). -/
def Fpu.cleared (f : Fpu) : Fpu :=
  { f with fsw := { f.fsw with ie := false, de := false, ze := false, oe := false, ue := false, pe := false, sf := false } }

/-- C1 written. -/
def Fpu.withC1 (f : Fpu) (b : Bool) : Fpu := { f with fsw := { f.fsw with c1 := b } }

/-- The exceptions of an operation and its C1 in the status word: after an unmasked IE, DE or ZE those of the result are not
looked for (spec/00_scope.md rule R30 (c)). -/
def Fpu.record (f : Fpu) (fl : FpFlags) (up : Bool) : Fpu :=
  if f.unmasked fl 7 then { f with fsw := { f.fsw.raise (fl &&& 7) with c1 := false } }
  else { f with fsw := { f.fsw.raise fl with c1 := up } }

/-- The exceptions recorded, and the result put into its place by `k` unless an unmasked IE, DE or ZE withholds it. -/
def Fpu.deliver (f : Fpu) (fl : FpFlags) (up : Bool) (k : Fpu → Fpu) : Fpu :=
  if f.unmasked fl 7 then f.record fl up else k (f.record fl up)

/-- A result delivered to ST(i), then pops. -/
def Fpu.deliverTo (f : Fpu) (r : XOut) (i : Fin 8) (pops : Nat) : Fpu :=
  f.deliver r.flags r.up fun g => (g.setSt i r.val).popN pops

/-- A stack fault (spec/46_f_f2xm1-fisttp.md rule R617 step 5): IE, SF and C1 say so; masked, `k` is the response. -/
def Fpu.stackFault (f : Fpu) (ovf : Bool) (k : Fpu → Fpu) : Fpu :=
  let g := { f with fsw := { f.fsw with ie := true, sf := true, c1 := ovf } }
  if f.fcw.getLsbD 0 then k g else g

/-- The effect of an instruction that needs registers: a stack underflow if one of them is empty. -/
def Fpu.whenHeld (f : Fpu) (is : List (Fin 8)) (masked body : Fpu → Fpu) : Fpu :=
  if is.any f.isEmpty then f.stackFault false masked else body f

/-- The effect of an instruction that pushes: a stack overflow if there is no room. -/
def Fpu.whenRoom (f : Fpu) (masked body : Fpu → Fpu) : Fpu :=
  if f.full then f.stackFault true masked else body f

/-- A value pushed, with the exceptions its conversion met. -/
def Fpu.pushed (f : Fpu) (v : BitVec 80) (fl : FpFlags) : Fpu :=
  f.whenRoom (fun g => g.push indefinite80) fun g => g.deliver fl false fun h => h.push v

/-- A comparison of ST(0) with an operand, then pops (spec/46_f_f2xm1-fisttp.md rule R629). -/
def Fpu.compared (f : Fpu) (quiet : Bool) (b : XArg) (pops : Nat) : Fpu :=
  let r := xCompare quiet (xreg (f.st 0)) b
  (f.deliver r.2 false fun g => { g with fsw := g.fsw.withOrder r.1 }).popN pops

/-- The masked response of a comparison to an empty register: unordered. -/
def Fpu.unordered (f : Fpu) (pops : Nat) : Fpu := Fpu.popN { f with fsw := f.fsw.withOrder .unordered } pops

/-- The environment an operation works in: the control word's fields (spec/10_state.md rule R122), with PC or with 64 bits;
what the spec leaves open is not said. -/
def Fpu.HasEnv (f : Fpu) (pc : Bool) (e : XEnv) : Prop :=
  e.rc = f.fcw.extractLsb' 10 2 ∧ e.prec = (if pc then f.precision else 64) ∧ e.masks = f.fcw.setWidth 6

/-- The state with this x87 unit and this number of free values drawn. -/
def State.withFpu (s : State) (f : Fpu) (n : Nat) : State := { s with fpu := f, free := n }

/-- ST(i) <- ST(i) op ST(j), then pops (spec/46_f_f2xm1-fisttp.md rule R620 and its kin). -/
def Fpu.binary (f : Fpu) (op : XOp2) (e : XEnv) (i j : Fin 8) (pops : Nat) : Fpu :=
  f.whenHeld [i, j] (fun g => (g.setSt i indefinite80).popN pops)
    fun g => g.deliverTo (op e (xreg (g.st i)) (xreg (g.st j))) i pops

/-- ST(0) <- k(ST(0)). -/
def Fpu.unary (f : Fpu) (k : XArg → XOut) : Fpu :=
  f.whenHeld [0] (fun g => g.setSt 0 indefinite80) fun g => g.deliverTo (k (xreg (g.st 0))) 0 0

/-- The masked response to a stack fault of an instruction with two results. -/
def Fpu.twoIndefinite (f : Fpu) : Fpu := (f.setSt 0 indefinite80).push indefinite80

/-- Two results: ST(0) <- a, then b is pushed. -/
def Fpu.deliverTwo (f : Fpu) (a b : BitVec 80) (fl : FpFlags) (up : Bool) : Fpu :=
  f.whenRoom (·.twoIndefinite) fun g => g.deliver fl up fun h => (h.setSt 0 a).push b

/-- A trigonometric instruction: out of range C2 is set and ST(0) kept (spec/46_f_f2xm1-fisttp.md rule R634). -/
def Fpu.trig (f : Fpu) (c1 : Bool) (masked body : Fpu → Fpu) : Fpu :=
  f.whenHeld [0] masked fun g =>
    if bigAngle (g.st 0) then { g with fsw := { g.fsw with c1 := c1, c2 := true } }
    else body { g with fsw := { g.fsw with c2 := false } }

/-- A partial remainder (spec/47_f_fld-fyl2xp1.md rule R666): C1 while the reduction is incomplete, and all four codes without a
quotient, are open. -/
def Fpu.remainder (f : Fpu) (c1 : Bool) (open4 : BitVec 4) (r : XRem) : Fpu :=
  f.deliver r.out.flags false fun g =>
    match r.quotient with
    | .complete q =>
      let h := g.setSt 0 r.out.val
      { h with fsw := { h.fsw with
          c2 := false, c0 := decide (q / 4 % 2 = 1), c3 := decide (q / 2 % 2 = 1), c1 := decide (q % 2 = 1) } }
    | .incomplete =>
      let h := g.setSt 0 r.out.val
      { h with fsw := { h.fsw with c1 := c1, c2 := true } }
    | .absent => (g.setSt 0 r.out.val).withAllCodes open4

/-- ST(0) and ST(i) exchanged with their tags, the indefinite standing for an empty register (rule R696). -/
def Fpu.exchange (f : Fpu) (i : Fin 8) : Fpu :=
  let reg (j : Fin 8) : BitVec 80 × BitVec 2 := if f.isEmpty j then (indefinite80, 2) else (f.st j, f.tagAt (f.phys j))
  (f.setStTag 0 (reg i).1 (reg i).2).setStTag i (reg 0).1 (reg 0).2

/-- A signed integer of n bits as an operand. -/
def int80 (n w : Nat) : XArg := { v := ofInt80 (BitVec.ofNat n w).toInt, den := false }

/-- A converted memory operand as FLD pushes it, an SNaN made quiet, and its exceptions (spec/47_f_fld-fyl2xp1.md rule R651). -/
def converted80 (a : XArg) : BitVec 80 × FpFlags :=
  (if isNan80 a.v then quiet80 a.v else a.v, flagIf (isSnan80 a.v) 1 ||| flagIf a.den 2)

/-- The instruction completes and leaves state u, the x87 unit changed by k, and any number of free values drawn. -/
def LeavesFpu (i : Instr) (s u : State) (k : Fpu → Fpu) : Prop := ∃ n, Completes i s (u.withFpu (k u.fpu) n)

/-- The same of an instruction without a memory operand, which first records its pointers (spec/10_state.md rule R124). -/
def MakesFpu (i : Instr) (s : State) (k : Fpu → Fpu) : Prop := LeavesFpu i s (s.begin.fpuEntered s.rip none) k

/-- FCOMI and its kin: the order of ST(0) and ST(i) in ZF, PF and CF, with OF, SF and AF 0, then pops; an unmasked invalid
operation leaves ZF, PF and CF (spec/46_f_f2xm1-fisttp.md rules R632, R633). -/
def State.comparedFlags (u : State) (quiet : Bool) (i : Fin 8) (pops : Nat) : State :=
  let r := xCompare quiet (xreg (u.fpu.st 0)) (xreg (u.fpu.st i))
  let kept : Flags := { u.flags with of := false, sf := false, af := false }
  if u.fpu.isEmpty 0 || u.fpu.isEmpty i then
    { u with
      fpu := u.fpu.stackFault false (·.popN pops)
      flags := if u.fpu.fcw.getLsbD 0 then u.flags.ofOrder .unordered else kept }
  else
    { u with
      fpu := (u.fpu.record (r.2 &&& 1) false).popN pops
      flags := if u.fpu.unmasked (r.2 &&& 1) 7 then kept else u.flags.ofOrder r.1 }

/-- What a store of ST(0) leaves: the conversion `r` of the register stored, or the indefinite for an empty one, and the stack
popped; with an unmasked exception nothing stored and nothing popped (spec/61_exception_groups.md rule R2131). -/
def State.storedSt (u : State) (as : List Nat) (indef pops : Nat) (f : Fpu) (r : XStore) (n : Nat) : State :=
  if f.isEmpty 0 then (if f.fcw.getLsbD 0 then u.physWrite as indef else u).withFpu (f.stackFault false (·.popN pops)) n
  else if f.unmasked r.flags 63 then u.withFpu (f.record r.flags r.up) n
  else (u.physWrite as r.val).withFpu ((f.record r.flags r.up).popN pops) n

/-- What a store of ST(0) leaves: the bytes at the resolved addresses or nothing stored, and the x87 unit. -/
def StoredOnly (s : State) (as : List Nat) (t : State) : Prop := FpuOnly s t ∨ ∃ v, FpuOnly (s.physWrite as v) t

/-- Every SIMD floating-point exception is masked (spec/10_state.md rule R110). -/
def SimdMasked (s : State) : Prop := s.mxcsr.extractLsb' 7 6 = 0x3F

/-- Every x87 exception is masked (spec/10_state.md rule R122). -/
def X87Masked (s : State) : Prop := s.fpu.fcw.setWidth 6 = (0x3F : BitVec 6)

/-- The state with resolved parts written in order. -/
def State.withParts (s : State) (l : List (List Nat × Nat)) : State := l.foldl (fun t p => t.physWrite p.1 p.2) s

/-- The result of a packed fused operation on the operands' elements. -/
def fmaResult (f : FpFmt) (w : FmaOrder) (np even odd : Bool) (env : FpControl) {n : Nat} (a b c : BitVec n) : FpVec n :=
  gatherOut n f.width (((lanes f.width a).zip ((lanes f.width b).zip (lanes f.width c))).zipIdx.map fun ((p, q, r), i) =>
    fpFma f w np (if i % 2 = 0 then even else odd) env p.toNat q.toNat r.toNat)

/-- The value of a general register at a width (spec/10_state.md rule R51). -/
def State.reg (s : State) (w : Width) (r : Reg) : BitVec w.bits := (s.gp r).setWidth w.bits

/-- The state with a general register written at a width (spec/10_state.md rule R52). -/
def State.setReg (s : State) (w : Width) (r : Reg) (v : BitVec w.bits) : State :=
  s.setGp r (regWrite s.isLong w (s.gp r) v)

/-- The state with a value of twice a width in AX, or in rDX:rAX (spec/51_m_movs-outs.md rule R817). -/
def State.setDouble (s : State) (w : Width) (v : Nat) : State :=
  { s with gpr := (if w = .w8 then s.setReg .w16 rAX (BitVec.ofNat 16 v)
      else (s.setReg w rAX (BitVec.ofNat w.bits v)).setReg w rDX (BitVec.ofNat w.bits (v / 2 ^ w.bits))).gpr }

/-- The dividend of twice a width (spec/45_d_daa-extractps.md rule R607). -/
def State.dividend (s : State) (w : Width) : Nat :=
  if w = .w8 then (s.reg .w16 rAX).toNat else (s.reg w rDX).toNat * 2 ^ w.bits + (s.reg w rAX).toNat

/-- The state with a quotient in AL or rAX and a remainder in AH or rDX (spec/45_d_daa-extractps.md rule R607). -/
def State.setQuotRem (s : State) (w : Width) (q r : Nat) : State :=
  { s with gpr := (if w = .w8 then s.setReg .w16 rAX (BitVec.ofNat 16 (r % 256 * 256 + q % 256))
      else (s.setReg w rAX (BitVec.ofNat w.bits q)).setReg w rDX (BitVec.ofNat w.bits r)).gpr }

/-- The count of a shift or rotate (spec/56_s_sahf-sysret.md rule R1013). -/
def State.count (s : State) : Count → BitVec 8
  | .one => 1
  | .cl => s.reg .w8 rCX
  | .imm n => n

/-- The bit offset of a bit test (spec/41_b_blendpd-bzhi.md rule R539). -/
def State.bitOff (s : State) (w : Width) : BitSrc → Int
  | .reg r => (s.reg w r).toInt
  | .imm n => ((n.toNat % w.bits : Nat) : Int)

/-- The state with new flags, k free values further on. -/
def State.flagsDrawn (s : State) (f : Flags) (k : Nat) : State := { s with flags := f, free := s.free + k }

/-- Values stored at resolved addresses, the first first. -/
def storeAll (s : State) : List (List Nat) → List Nat → State
  | as :: ass, v :: vs => storeAll (s.physWrite as v) ass vs
  | _, _ => s

/-- The state with values stored at resolved addresses: memory, and the monitor a store disarms. -/
def State.stored (s : State) (ass : List (List Nat)) (vs : List Nat) : State :=
  { s with mem := (storeAll s ass vs).mem, act := (storeAll s ass vs).act }

/-- The state with the stack pointer moved up by n bytes (spec/20_memory.md rule R230). -/
def State.popped (s : State) (n : Nat) : State := s.setSp s.stackSize (s.stackSize.trunc (s.sp + BitVec.ofNat 64 n))

/-- The registers of a list popped in order from state s to state t: each read of the stack passes its checks, and the slot of
the stack pointer is skipped (spec/54_p_pop-pxor.md rule R923). -/
def PopsRegs (w : Width) : List Reg → State → State → Prop
  | [], s, t => t = s
  | r :: rs, s, t => ∃ v u, Passes (stackPeek s.sp w.bytes) s v u ∧
      PopsRegs w rs (if r ≠ rSP then (u.popped w.bytes).setReg w r (BitVec.ofNat w.bits v) else u.popped w.bytes) t

/-- The offset lies in the code segment, or is canonical in 64-bit mode (spec/42_c_call-cmpps.md rule R546). -/
def State.targetIn (s : State) (t : Word) : Prop := s.segVerdict .cs (s.segOf .cs) .exec t 1 = .ok

/-- The interrupt window a load of SS opens (spec/10_state.md rule R163). -/
def State.afterSs (s : State) (r : SReg) : State :=
  if r = .ss then { s with act := { s.act with inhibit := .movSs } } else s

/-- The two-operand instruction a LOCK prefix qualifies. -/
noncomputable def plainAlu : LockAlu → AluOps → Instr
  | .add, o => .add o
  | .or, o => .or o
  | .adc, o => .adc o
  | .sbb, o => .sbb o
  | .and, o => .and o
  | .sub, o => .sub o
  | .xor, o => .xor o

/-- The instruction a LOCK, XACQUIRE or XRELEASE prefix qualifies (spec/49_j_jcc-lzcnt.md rule R760). -/
noncomputable def plainOf : Lockable → Instr
  | .aluReg op w m r => plainAlu op (.mr w (.mem m) r)
  | .aluImm op w m imm => plainAlu op (.mi w (.mem m) imm)
  | .bit .bts w m src => .bts ⟨w, .mem m, src⟩
  | .bit .btr w m src => .btr ⟨w, .mem m, src⟩
  | .bit .btc w m src => .btc ⟨w, .mem m, src⟩
  | .un .inc w m => .inc ⟨w, .mem m⟩
  | .un .dec w m => .dec ⟨w, .mem m⟩
  | .un .neg w m => .neg ⟨w, .mem m⟩
  | .un .not w m => .not ⟨w, .mem m⟩
  | .cmpxchg w m r => .cmpxchg ⟨w, .mem m, r⟩
  | .xadd w m r => .xadd ⟨w, .mem m, r⟩
  | .xchg w m r => .xchg ⟨w, .mem m, r⟩
  | .cmpxchg8b m => .cmpxchg8b m
  | .cmpxchg16b m => .cmpxchg16b m

/-- The checks that the destination of a lockable instruction must pass. -/
def LockReady (l : Lockable) (s : State) : Prop :=
  match l with
  | .aluReg _ w m _ | .aluImm _ w m _ | .un _ w m | .cmpxchg w m _ | .xadd w m _ | .xchg w m _ =>
    ∃ q u, Passes (place .write w (.mem m)) s.begin q u
  | .bit _ w m src => ∃ q u, Passes (bitPlace .write ⟨w, .mem m, src⟩) s.begin q u
  | .cmpxchg8b m => s.has .cx8 = true ∧ ∃ as u, Passes (resolveAligned .write m (2 * Width.w32.bytes) 1) s.begin as u
  | .cmpxchg16b m => s.has .cmpxchg16b = true ∧ ∃ as u, Passes (resolveAligned .write m (2 * Width.w64.bytes) 16) s.begin as u

/-- The operand of a far JMP or CALL gives an offset and a selector: a pointer in the instruction outside 64-bit mode, or one in
memory whose reads pass (spec/42_c_call-cmpps.md rule R548). -/
def FarOperand (o : FarOps) (s : State) (off : Word) (sel : BitVec 16) (u : State) : Prop :=
  match o with
  | .ptr p => s.isLong = false ∧ off = p.off.setWidth 64 ∧ sel = p.sel ∧ u = s.begin
  | .far p => Passes (readFarPtr p.w p.mem) s.begin (off, sel) u

/-- The operand size of a far operand. -/
def farWidth : FarOps → Width
  | .ptr p => p.w
  | .far p => p.w

/-- The call with a far operand. -/
def callOf : FarOps → CallOps
  | .ptr p => .ptr p
  | .far p => .far p

/-- CS after a far transfer to a selector in real-address or virtual-8086 mode (spec/20_memory.md rule R212). -/
def State.legacyCs (s : State) (sel : BitVec 16) : SegCache :=
  if s.pe then SegCache.v86Load sel else (s.segOf .cs).realLoad sel

/-- The state with CS loaded in real-address or virtual-8086 mode and an offset. -/
def State.withLegacyCode (s : State) (c : SegCache) (off : Word) : State := { s.setSeg .cs c with rip := off }

/-- The state a fault finds whose instruction got no further than state u, by accesses alone: accessed and dirty bits are set, and
the monitor such a store disarms stays so (spec/60_exceptions.md rule R2003). -/
def State.faulted (s u : State) : State := { s with mem := u.mem, act := s.act.afterFault u.act }

/-- The n bytes from the stack pointer up lie within the stack segment, or are canonical in 64-bit mode (rule R1002). -/
def State.stackTop (s : State) (n : Nat) : Prop := s.segVerdict .ss (s.segOf .ss) .read s.sp n ≠ .limit

/-- The state with a popped stack pointer (spec/55_r_rcl-rsqrtss.md rule R1002). -/
def State.withPoppedSp (s : State) (w : Width) (long : Bool) (v : Nat) : State :=
  s.setGp rSP (if w = .w64 then BitVec.ofNat 64 v else regWrite long .w32 (s.gp rSP) (BitVec.ofNat 32 v))

/-- The state IRET's body starts from: NMIs are unblocked (spec/48_h_haddpd-iret.md rule R721). -/
def State.iretBegin (s : State) : State := { s.begin with act := { s.begin.act with nmiBlocked := false } }

/-- The state a call through a gate to the same level pushes from: entering 64-bit mode, RSP[63:32] are a free value
(spec/42_c_call-cmpps.md rule R550, spec/93_implementation_defined.md U37). -/
def State.gateStack (s : State) : State :=
  if s.lma && !s.isLong then
    { s with free := s.free + 1 }.setGp rSP (Config.freeBits 32 s.free ++ (s.gp rSP).setWidth 32)
  else s

/-- The state after a call through a 16- or 32-bit gate to an inner level has marked its segments: the frame `vs` stored at the
addresses `ass`, CS, SS, rIP, CPL and the stack pointer (spec/42_c_call-cmpps.md rule R551). -/
def State.enterInner (s : State) (d : SegLoad) (cpl : BitVec 2) (off : Word) (ss : SegCache) (size : ASize) (esp fin : Word)
    (ass : List (List Nat)) (vs : List Nat) : State :=
  let t := ((s.stored ass vs).withCode d cpl off).setSeg .ss ss
  (t.setGp rSP (mergeLow (t.gp rSP) (esp.setWidth 32))).setSp size fin

/-- The state after IRET returned to virtual-8086 mode: the six selectors and ESP from the stack, the flags of the image, CPL 3
(spec/48_h_haddpd-iret.md rule R721). -/
def State.toV86 (s : State) (cs : BitVec 16) (off image : Word) (esp ss es ds fs gs : Nat) : State :=
  let put (t : State) (r : SReg) (v : Nat) : State := t.setSeg r (SegCache.v86Load (BitVec.ofNat 16 v))
  let t := put (put (put (put (put (s.setSeg .cs (SegCache.v86Load cs)) .ss ss) .es es) .ds ds) .fs fs) .gs gs
  { t.setGp rSP (mergeLow (t.gp rSP) (BitVec.ofNat 32 esp)) with flags := Flags.ofImage image, cpl := 3, rip := off }

/-- The state a software interrupt is delivered from (spec/60_exceptions.md rule R2002). -/
def State.softBegin (s : State) : State :=
  { s with flags := { s.flags with rf := false }, act := { s.act with inhibit := .none, afterMovSs := false } }

/-! Gathers (spec/58_v_vgather-vzeroupper.md rule R1149). -/

/-- The elements `js` of a gather go into DEST in order from state s to state t: one whose mask bit is set in the state s0 at the
start is read at its address, another stays. -/
def Gathered (g : GatherShape) (o : VGather) (s0 : State) : List Nat → State → State → Prop
  | [], s, t => t = s
  | j :: js, s, t =>
    if (lane g.dw (s0.ymm.get o.mask) j).msb then
      ∃ as x, Passes (resolve o.mem.seg .read 1 1 (s0.gatherAddr g o j) (g.dw / 8)) s as x ∧
        Gathered g o s0 js
          { x with ymm := x.ymm.set o.dst (replaceLane (x.ymm.get o.dst) j (BitVec.ofNat g.dw (x.mem.readList as))) } t
    else Gathered g o s0 js s t

/-! Delivery (spec/60_exceptions.md rules R2020 to R2029). -/

/-- A step of a meaning stops with an exception: x is raised, in state t. -/
def Raises {α : Type} (m : M α) (s : State) (x : Exc) (t : State) : Prop := m.run s = .error (.exc x) t

/-- The offsets of pushes of the given sizes below a stack pointer, in order (spec/20_memory.md rule R230). -/
def pushOffsets (a : ASize) : Word → List Nat → List Word
  | _, [] => []
  | sp, n :: ns => a.trunc (sp - BitVec.ofNat 64 n) :: pushOffsets a (a.trunc (sp - BitVec.ofNat 64 n)) ns

/-- Delivery in real-address mode (rule R2021): the flags, CS and the return offset are pushed as words, IF, TF and AC are cleared,
and CS and IP are read from the 4-byte entry of the vector table. -/
def RealDelivered (e : Event) (s t : State) : Prop :=
  s.pe = false ∧ e.vec.toNat * 4 + 3 ≤ s.sys.idtr.limit.toNat ∧ s.pushRoom (s.segOf .ss) s.stackSize s.sp [2, 2, 2] = true ∧
    ∃ ass fin v p u entry, Passes (pushSlots [2, 2, 2]) s (ass, fin) v ∧
      p = (v.stored ass [(e.flagsImage s).toNat % 2 ^ 16, (e.cs s).toNat, e.ret.toNat % 2 ^ 16]).setSp s.stackSize fin ∧
      Passes (sysRead (s.sys.idtr.base + BitVec.ofNat 64 (e.vec.toNat * 4)) 4) p entry u ∧
      t = { u.setSeg .cs ((s.segOf .cs).realLoad (BitVec.ofNat 16 (entry / 2 ^ 16))) with
        flags := { s.flags with ifl := false, tf := false, ac := false }, rip := BitVec.ofNat 64 (entry % 2 ^ 16) }

/-- The table entry of an event lies within the limit and is read as the gate g (rules R2022, R2023). -/
def IdtEntry (e : Event) (s : State) (g : Gate) (u : State) : Prop :=
  let n := if s.lma then 16 else 8
  (s.lma = true → e.kind = .into → s.isLong = false) ∧ e.vec.toNat * n + (n - 1) ≤ s.sys.idtr.limit.toNat ∧
    ∃ d, Passes (sysRead (s.sys.idtr.base + BitVec.ofNat 64 (e.vec.toNat * n)) n) s d u ∧ g = gateOf s.lma (BitVec.ofNat 128 d)

/-- The entry is an interrupt or trap gate of the mode. -/
def Gate.isTransfer (g : Gate) (ia32e : Bool) : Bool :=
  !g.s && (decide (g.typ = 14 ∨ g.typ = 15) || (!ia32e && decide (g.typ = 6 ∨ g.typ = 7)))

/-- The gate serves the event: its type, its DPL for an instruction's interrupt, its presence (rules R2022, R2023). -/
def GateServes (e : Event) (s : State) (g : Gate) : Prop :=
  g.isTransfer s.lma = true ∧ (e.isSoft = true → s.cpl ≤ g.dpl) ∧ g.p = true

/-- The code segment a gate names is read from its table (rule R2025). -/
def GateSegment (s : State) (g : Gate) (cs : SegLoad) (u : State) : Prop :=
  isNull g.sel = false ∧ ∃ a d, s.descAddr g.sel 8 = some a ∧ Passes (sysRead a 8) s d u ∧ cs = .ofDesc g.sel a (BitVec.ofNat 128 d)

/-- The code segment serves: a code segment of this or a more privileged level, a 64-bit one in IA-32e mode (rule R2025). -/
def SegmentServes (s : State) (c : SegCache) : Prop :=
  c.isCode = true ∧ c.dpl ≤ s.cpl ∧ (s.lma = true → c.l = true ∧ c.db = false)

/-- From virtual-8086 mode a gate leads to level 0 (rule R2025). -/
def FromV86Ok (s : State) (c : SegCache) : Prop := s.flags.vm = true → s.goesInner c = true ∧ c.dpl = 0

/-- The stack for a level is read from a 16- or 32-bit TSS and its segment serves (rule R2026). -/
def InnerStack (dpl : BitVec 2) (s : State) (ss : SegLoad) (esp : Word) (u : State) : Prop :=
  let n := if s.sys.tr.typ.getLsbD 3 then 4 else 2
  let off := if s.sys.tr.typ.getLsbD 3 then dpl.toNat * 8 + 4 else dpl.toNat * 4 + 2
  off + (n + 1) ≤ s.sys.tr.limit.toNat ∧ ∃ sel x a d u1 u2,
    Passes (sysRead (s.sys.tr.base + BitVec.ofNat 64 (off + n)) 2) s sel u1 ∧
    Passes (sysRead (s.sys.tr.base + BitVec.ofNat 64 off) n) u1 x u2 ∧ esp = BitVec.ofNat 64 x ∧
    isNull (BitVec.ofNat 16 sel) = false ∧ rpl (BitVec.ofNat 16 sel) = dpl ∧ u2.descAddr (BitVec.ofNat 16 sel) 8 = some a ∧
    Passes (sysRead a 8) u2 d u ∧ ss = .ofDesc (BitVec.ofNat 16 sel) a (BitVec.ofNat 128 d) ∧
    ss.cache.dpl = dpl ∧ ss.cache.writable = true ∧ ss.cache.p = true

/-- Eight bytes of the 64-bit TSS at an offset are read (rules R2026, R2028). -/
def TssWord (off : Nat) (s : State) (w : Word) (u : State) : Prop :=
  off + 7 ≤ s.sys.tr.limit.toNat ∧ canonical (s.sys.tr.base + BitVec.ofNat 64 off) = true ∧
    canonical (s.sys.tr.base + BitVec.ofNat 64 off + 7) = true ∧
    ∃ x, Passes (sysRead (s.sys.tr.base + BitVec.ofNat 64 off) 8) s x u ∧ w = BitVec.ofNat 64 x

/-- The checks and stores of a frame: `pre` before CS is marked accessed, `post` after it, both from `sp` downward on stack segment
c, the stack segment itself marked first (rules R2026 to R2028). -/
def FrameStored (c : SegCache) (size : ASize) (user ac : Bool) (sp : Word) (ss cs : SegLoad) (pre post : List (Nat × Nat))
    (s : State) (fin : Word) (t : State) : Prop :=
  ∃ sas cas as1 as2 sp1 u1 u2 u3 u4, Passes ss.resolve s sas u1 ∧
    Passes (pushPlan c size user ac sp (pre.map (·.1))) u1 (as1, sp1) u2 ∧ Passes cs.resolve u2 cas u3 ∧
    Passes (pushPlan c size user ac sp1 (post.map (·.1))) u3 (as2, fin) u4 ∧
    t = (((u4.marked sas).stored as1 (pre.map (·.2))).marked cas).stored as2 (post.map (·.2))

/-- Delivery through a 16- or 32-bit gate g to code segment cs (rules R2026 to R2028): to an inner level the stack comes from the
TSS; the frame has room and is stored; CS, rIP, CPL, SS, the stack pointer and the flags are loaded. -/
def LegacyDelivered (e : Event) (g : Gate) (cs : SegLoad) (s t : State) : Prop :=
  let n := if g.is32 then 4 else 2
  let inner := s.goesInner cs.cache
  let cpl := if inner then cs.cache.dpl else s.cpl
  let items := e.parts s n inner
  ∃ ss esp u u0 size fin v,
    (if inner then InnerStack cpl s ss esp u else ss = .plain (s.segOf .ss) ∧ esp = s.gp rSP ∧ u = s) ∧
    u0 = { u with flags := { u.flags with vm := false }, cpl := cpl } ∧ size = u0.stackSizeOf ss.cache ∧
    u0.pushRoom ss.cache size (size.trunc esp) ((items.1 ++ items.2).map (·.1)) = true ∧
    g.off.toNat ≤ cs.cache.limit.toNat ∧
    FrameStored ss.cache size (decide (cpl = 3)) (decide (g.dpl = 3)) (size.trunc esp) ss cs items.1 items.2 u0 fin v ∧
    t = v.enterGate s.flags.vm g cs cpl (if inner then some (ss, esp) else none) size fin

/-- Delivery through a 64-bit gate (rules R2026, R2028): the stack pointer comes from the IST of the gate, from the TSS for an inner
level, or stays, and is aligned to 16 bytes; SS, rSP, the flags, CS, rIP and the error code are pushed as quadwords. -/
def LongDelivered (e : Event) (g : Gate) (cs : SegLoad) (s t : State) : Prop :=
  let inner := s.goesInner cs.cache
  let cpl := if inner then cs.cache.dpl else s.cpl
  let items := s.oldStack 8 ++ e.frame s 8 ++ e.codeItem 8
  ∃ rsp u fin v,
    (if g.ist ≠ 0 then TssWord (g.ist.toNat * 8 + 28) s rsp u else if inner then TssWord (cpl.toNat * 8 + 4) s rsp u
      else rsp = s.gp rSP ∧ u = s) ∧
    canonical rsp = true ∧ canonical g.off = true ∧
    FrameStored (s.segOf .ss) .a64 (decide (cpl = 3)) (decide (g.dpl = 3)) (rsp &&& ~~~15) (.plain (s.segOf .ss)) cs
      (if inner then [] else items) (if inner then items else []) (u.withCode cs cpl s.rip) fin v ∧
    t = v.enterLongGate g inner cpl fin

/-- INT n in virtual-8086 mode goes through a gate only with IOPL 3 (rule R2020). -/
def GateOpen (e : Event) (s : State) : Prop := s.pe = true ∧ (s.flags.vm = true → e.kind = .softInt → s.flags.iopl = 3)

/-- Delivery of an event that no check stops (rules R2020 to R2028). -/
def Delivered (e : Event) (s t : State) : Prop :=
  ∃ w, t = w.afterDelivery e ∧ (RealDelivered e s w ∨ (GateOpen e s ∧ ∃ g cs u v, IdtEntry e s g u ∧ GateServes e s g ∧
    GateSegment u g cs v ∧ SegmentServes u cs.cache ∧ cs.cache.p = true ∧ FromV86Ok u cs.cache ∧
    if s.lma then LongDelivered e g cs v w else LegacyDelivered e g cs v w))

/-! Strings. -/

/-- The state with an index register moved by n bytes in the direction of DF (spec/51_m_movs-outs.md rule R807). -/
def State.stepped (s : State) (a : ASize) (r : Reg) (n : Nat) : State :=
  s.setReg a.width r ((if s.flags.df then s.gp r - BitVec.ofNat 64 n else s.gp r + BitVec.ofNat 64 n).setWidth a.width.bits)

/-- The state with the port breakpoints noted that an access meets (spec/60_exceptions.md rule R2081 (d)). -/
def State.portMet (s : State) (port : BitVec 16) (n : Nat) : State :=
  { s with act := { s.act with pendingDb := s.act.pendingDb ||| s.portBreaks port n } }

/-- The state after a port answered the free value v (spec/20_memory.md rule R270). -/
def State.portGave (s : State) (port : BitVec 16) (n : Nat) (v : BitVec 32) : State :=
  { s with io := .read port n v :: s.io, free := s.free + 1 }

/-- The value the next port read answers. -/
def State.portValue (s : State) (n : Nat) : BitVec 32 := (Config.freeBits (8 * n) s.free).setWidth 32

/-- One element of MOVS from state s leaves t: the read and the checks of the store pass (spec/51_m_movs-outs.md rule R807). -/
def MovsDone (w : Width) (a : ASize) (r : SReg) (s t : State) : Prop :=
  ∃ v u as x, Passes (memRead r (a.trunc (s.gp rSI)) w.bytes w.bytes) s v u ∧
    Passes (resolve .es .write w.bytes 1 (a.trunc (u.gp rDI)) w.bytes) u as x ∧
    t = ((x.physWrite as v).stepped a rSI w.bytes).stepped a rDI w.bytes

/-- One element of CMPS (spec/43_c_cmps-crc32.md rule R567). -/
def CmpsDone (w : Width) (a : ASize) (r : SReg) (s t : State) : Prop :=
  ∃ v u y x, Passes (memRead r (a.trunc (s.gp rSI)) w.bytes w.bytes) s v u ∧
    Passes (memRead .es (a.trunc (u.gp rDI)) w.bytes w.bytes) u y x ∧
    t = ({ x with flags := x.flags.sub (BitVec.ofNat w.bits v) (BitVec.ofNat w.bits y) false }.stepped a rSI w.bytes).stepped
      a rDI w.bytes

/-- One element of LODS (spec/49_j_jcc-lzcnt.md rule R761). -/
def LodsDone (w : Width) (a : ASize) (r : SReg) (s t : State) : Prop :=
  ∃ v u, Passes (memRead r (a.trunc (s.gp rSI)) w.bytes w.bytes) s v u ∧
    t = (u.setReg w rAX (BitVec.ofNat w.bits v)).stepped a rSI w.bytes

/-- One element of STOS (spec/56_s_sahf-sysret.md rule R1058). -/
def StosDone (w : Width) (a : ASize) (s t : State) : Prop :=
  ∃ as x, Passes (resolve .es .write w.bytes 1 (a.trunc (s.gp rDI)) w.bytes) s as x ∧
    t = (x.physWrite as (s.reg w rAX).toNat).stepped a rDI w.bytes

/-- One element of SCAS (spec/56_s_sahf-sysret.md rule R1022). -/
def ScasDone (w : Width) (a : ASize) (s t : State) : Prop :=
  ∃ y x, Passes (memRead .es (a.trunc (s.gp rDI)) w.bytes w.bytes) s y x ∧
    t = { x with flags := x.flags.sub (x.reg w rAX) (BitVec.ofNat w.bits y) false }.stepped a rDI w.bytes

/-- One element of INS (spec/48_h_haddpd-iret.md rule R712). -/
def InsDone (w : Width) (a : ASize) (s t : State) : Prop :=
  ∃ u as x, Passes (ioCheck (s.portNum .dx) w.bytes) s () u ∧
    Passes (resolve .es .write w.bytes 1 (a.trunc (u.gp rDI)) w.bytes) u as x ∧
    t = ((x.portGave (s.portNum .dx) w.bytes (x.portValue w.bytes)).physWrite as (x.portValue w.bytes).toNat).stepped
      a rDI w.bytes

/-- One element of OUTS (spec/51_m_movs-outs.md rule R831). -/
def OutsDone (w : Width) (a : ASize) (r : SReg) (s t : State) : Prop :=
  ∃ u v x, Passes (ioCheck (s.portNum .dx) w.bytes) s () u ∧
    Passes (memRead r (a.trunc (u.gp rSI)) w.bytes w.bytes) u v x ∧
    t = { x with io := .write (s.portNum .dx) w.bytes (BitVec.ofNat 32 v) :: x.io }.stepped a rSI w.bytes

/-- One element of an instruction REP qualifies. -/
def RepDone : RepOp → State → State → Prop
  | .ins o => InsDone o.w o.a
  | .movs o => MovsDone o.w o.a (repSource o)
  | .outs o => OutsDone o.w o.a (repSource o)
  | .lods o => LodsDone o.w o.a (repSource o)
  | .stos o => StosDone o.w o.a

/-- The address size of an instruction REP qualifies. -/
def repSize : RepOp → ASize
  | .ins o | .movs o | .outs o | .lods o | .stos o => o.a

/-- One element of an instruction REPE or REPNE qualifies. -/
def RepCmpDone : RepCmpOp → State → State → Prop
  | .cmps o => CmpsDone o.w o.a (repSource o)
  | .scas o => ScasDone o.w o.a

/-- The state a repeated instruction starts an iteration from: the flags at its first entry (spec/55_r_rcl-rsqrtss.md rule R998,
decision D51). -/
def State.repBegin (s : State) : State := { s with flags := s.act.repEntry.getD s.flags }

/-- The state after an iteration that leaves n in the count register: the instruction goes on at its own address unless the
count is used up or the flags say to stop. -/
def State.repNext (s x : State) (n : Word) (stop : Bool) : State :=
  if n ≠ 0 ∧ stop = false then
    { x with rip := s.rip, flags := { x.flags with rf := true }, act := { x.act with repEntry := some s.repBegin.flags } }
  else x

/-- EAX and EDX hold the halves of a value; bits 63:32 of RAX and RDX are cleared (spec/55_r_rcl-rsqrtss.md rule R991). -/
def State.withEdxEax (s : State) (v : Word) : State :=
  (s.setReg .w64 rAX ((v.setWidth 32).setWidth 64)).setReg .w64 rDX (v >>> 32)

/-- EDX:EAX. -/
def State.edxEax (s : State) : Word := s.reg .w32 rDX ++ s.reg .w32 rAX

/-- The status flags become free values. -/
def State.statusDrawn (s : State) (g : Flags) : State := s.flagsDrawn (s.flags.withStatus g) 6

/-- A state t with a new control register takes force as u: where PAE paging comes into force, or CR3 is loaded under it, the four
page-directory pointers are read and must be well formed (spec/50_m_maskmovdqu-movq2dq.md rule R781). -/
def PagingInstalled (loadsCr3 : Bool) (s t u : State) : Prop :=
  if t.withLma.paging = .pae ∧ (loadsCr3 = true ∨ s.paging ≠ .pae) then Passes (loadPdptes t.withLma) s u s
  else u = t.withLma

/-- The state after the time-stamp counter is read (spec/10_state.md rule R101). -/
def State.tscRead (s : State) : State :=
  { s with msr := { s.msr with tsc := s.msr.tsc + BitVec.ofNat 64 (Config.tscStep s.free + 1) }, free := s.free + 1 }

/-- The time-stamp counter may be read (spec/55_r_rcl-rsqrtss.md rule R996). -/
def TscReady (s : State) : Prop := s.cr4Bit 2 = false ∨ s.cpl = 0 ∨ s.pe = false

/-- XSAVE, XGETBV and their kin may run (spec/59_w_wait-xtest.md rule R1204). -/
def XsaveReady (s : State) : Prop := s.has .xsave = true ∧ s.cr4Bit 18 = true

/-- The checks of an instruction of the XSAVE family before its image (spec/59_w_wait-xtest.md rule R1204). -/
def XsaveImage (own : Option Config.Feature) (sup : Bool) (m : MemRef) (s : State) : Prop :=
  XsaveReady s ∧ (∀ f, own = some f → s.has f = true) ∧ s.cr0Bit 3 = false ∧ (sup = true → s.privileged = true) ∧
    (s.linear m.seg (s.segOf m.seg) (s.ea m)).toNat % 64 = 0

/-- The components an instruction of the XSAVE family is asked for. -/
def State.rfbm (s : State) (sup : Bool) : Word := (if sup then s.sys.xcr0 ||| s.msr.xss else s.sys.xcr0) &&& s.edxEax

/-- The fields of an image stored at checked addresses. -/
def State.withFields (s : State) (as : List Nat) (ps : List Part) : State :=
  ps.foldl (fun t p => t.physWrite ((as.drop p.off).take p.size) p.val) s

/-- The SSE part of an FXSAVE image; with CR4.OSFXSR = 0 MXCSR and the XMM registers in it are the free bits `v`
(spec/93_implementation_defined.md U9). -/
def State.sseImage (s : State) (v : BitVec 2080) : List Part :=
  if s.cr4Bit 9 then s.mxcsrParts ++ s.xmmParts
  else
    [⟨24, 4, v.toNat % 2 ^ 32⟩, ⟨28, 4, mxcsrMask⟩] ++
      slots 160 16 ((List.range s.imageRegs.length).map fun k => v.toNat / 2 ^ (32 + 128 * k) % 2 ^ 128)

/-- What a restore of the XSAVE family leaves: a component asked for and present comes from its part of the image, one asked for
and absent takes its initial configuration; XRSTOR_INFO tells of it (spec/59_w_wait-xtest.md rules R1205, R1206). -/
def State.restored (u : State) (wide compact mx : Bool) (rfbm bv : Word) (info : XrstorInfo) (sel : BitVec 32)
    (v87 vst vsse vext vmx : Nat) : State :=
  let t1 :=
    if rfbm.getLsbD 0 then
      (if bv.getLsbD 0 then { u with fpu := fpuOfImage wide sel v87 vst, free := u.free + 1 } else { u with fpu := Fpu.initial })
    else u
  let t2 :=
    if rfbm.getLsbD 1 then
      (if bv.getLsbD 1 then t1.loadXmms vsse else { t1.loadXmms 0 with mxcsr := if compact then 0x1F80 else t1.mxcsr })
    else t1
  let t3 := if rfbm.getLsbD 2 then (if bv.getLsbD 2 then t2.loadHighs vext else t2.loadHighs 0) else t2
  { (if mx then { t3 with mxcsr := BitVec.ofNat 32 vmx } else t3) with xrstor := info }

/-- What the checks of an access may change: accessed and dirty bits in memory, none with paging off (spec/20_memory.md rule
R246), the monitor, which they may disarm but not arm (spec/10_state.md rule R162), and debug conditions noted
(spec/60_exceptions.md rule R2081). -/
def AccessTouches (s t : State) : Prop :=
  AccessOnly s t ∧ (s.paging = .off → t.mem = s.mem ∧ t.act.monitorArmed = s.act.monitorArmed) ∧
    (t.act.monitorArmed = true → s.act.monitorArmed = true) ∧ (∃ b, t.act.pendingDb = s.act.pendingDb ||| b) ∧
    (s.mem.wf = true → ∀ a, ∃ x ∈ ([0, 0x20, 0x60] : List Byte), t.mem.read a = s.mem.read a ||| x)

/-- The memory of the state, and the one a running transaction would restore, are in canonical form. -/
def State.Canonical (s : State) : Prop :=
  s.mem.wf = true ∧ ∀ n, s.rtm.snapshot = some n → n.mem.wf = true

/-- Nothing but the next instruction is due: no event from outside, no pending trap, no wait, no instruction breakpoint
(spec/60_exceptions.md rule R2005). -/
def Undisturbed (s : State) : Prop :=
  s.pins = {} ∧ s.act.shutdown = false ∧ s.act.halted = false ∧ s.act.mwaitWaiting = false ∧ s.act.pendingDb = 0 ∧
    s.instrBreaks = 0

end Sys2Proof.Machine
end

