-- ==== Sys2Proof/Certificates/Slice0/Obligations.lean ====
section
/-! DEFINITION. The statements for the provers. In a statement about an instruction, s is the state the instruction starts in,
`s.begin` the state its body starts from (rIP at the next instruction, RF and the interrupt window cleared), and u the state
after an access of the operand has passed its checks: by `AccessFrame` it differs from `s.begin` in accessed and dirty bits and
in noted data breakpoints only. `Completes i s t` says that the instruction runs to its end with its own effect, so each such
equation gives result, frame and completion at once; `FinishFrame` says what the end of the step adds. -/

open Sys2Proof Sys2Proof.Machine

/-- The legacy SSE instructions without numeric exceptions. Each entry is a constructor with its feature and its operation
on 128 bits; `b` is the source operand as read, `u` the state after the checks of that read. -/
def Obligations.SseLegacyResults : Prop :=
  (∀ p ∈ ([
        (.aesdec, .aes, aesDec), (.aesdeclast, .aes, aesDecLast), (.aesenc, .aes, aesEnc), (.aesenclast, .aes, aesEncLast),
        (.aesimc, .aes, (fun _ b => invMixColumns b)), (.andpd, .sse2, (andVec 128)), (.andps, .sse, (andVec 128)),
        (.andnpd, .sse2, (andNot 128)), (.andnps, .sse, (andNot 128)),
        (.movshdup, .sse3, (fun _ b => duplicate 32 true 128 b)), (.movsldup, .sse3, (fun _ b => duplicate 32 false 128 b)),
        (.orpd, .sse2, (orVec 128)), (.orps, .sse, (orVec 128)), (.packusdw, .sse41, ((packTo 32 (satU 16)) 128)),
        (.pcmpeqq, .sse41, ((zip 64 fun x y => maskOf 64 (x == y)) 128)),
        (.pcmpgtq, .sse42, ((zip 64 fun x y => maskOf 64 (decide (y.toInt < x.toInt))) 128)),
        (.phminposuw, .sse41, (fun _ b => minPos b)),
        (.pmaxsb, .sse41, ((zip 8 fun x y => if y.toInt < x.toInt then x else y) 128)),
        (.pmaxsd, .sse41, ((zip 32 fun x y => if y.toInt < x.toInt then x else y) 128)),
        (.pmaxud, .sse41, ((zip 32 fun x y => if y.toNat < x.toNat then x else y) 128)),
        (.pmaxuw, .sse41, ((zip 16 fun x y => if y.toNat < x.toNat then x else y) 128)),
        (.pminsb, .sse41, ((zip 8 fun x y => if x.toInt < y.toInt then x else y) 128)),
        (.pminsd, .sse41, ((zip 32 fun x y => if x.toInt < y.toInt then x else y) 128)),
        (.pminud, .sse41, ((zip 32 fun x y => if x.toNat < y.toNat then x else y) 128)),
        (.pminuw, .sse41, ((zip 16 fun x y => if x.toNat < y.toNat then x else y) 128)),
        (.pmuldq, .sse41, ((zip 64 mulLowS) 128)), (.pmulld, .sse41, ((zip 32 fun x y => x * y) 128)),
        (.punpckhqdq, .sse2, ((unpackHigh 64) 128)), (.punpcklqdq, .sse2, ((unpackLow 64) 128)),
        (.unpckhpd, .sse2, ((unpackHigh 64) 128)), (.unpckhps, .sse, ((unpackHigh 32) 128)),
        (.unpcklpd, .sse2, ((unpackLow 64) 128)), (.unpcklps, .sse, ((unpackLow 32) 128)), (.xorpd, .sse2, (xorVec 128)),
        (.xorps, .sse, (xorVec 128))] : List ((XX → Instr) × Config.Feature × (BitVec 128 → BitVec 128 → BitVec 128))),
      ∀ (o : XX) (s u : State) (b : BitVec (8 * 16)), SseReady p.2.1 s → Passes (readXm .size 16 o.src) s.begin b u →
        Completes (p.1 o) s (u.setXmm o.dst (p.2.2 (u.xmm o.dst) b))) ∧
  (∀ p ∈ ([
        (.aeskeygenassist, .aes, (fun i _ b => aesKeygen i b)), (.blendpd, .sse41, (fun i => blendImm 64 i 128)),
        (.blendps, .sse41, (fun i => blendImm 32 i 128)), (.mpsadbw, .sse41, (fun i => mpsad (i.extractLsb' 0 3))),
        (.pblendw, .sse41, blendW), (.pclmulqdq, .pclmulqdq, clmulSel), (.pshufd, .sse2, (fun i _ b => shuffleD i b)),
        (.pshufhw, .sse2, (fun i _ b => shuffleHw i b)), (.pshuflw, .sse2, (fun i _ b => shuffleLw i b)),
        (.shufpd, .sse2, (fun i => shufPd i 128)), (.shufps, .sse, shufPs)] : List ((XXI → Instr) × Config.Feature × (BitVec 8 → BitVec 128 → BitVec 128 → BitVec 128))),
      ∀ (o : XXI) (s u : State) (b : BitVec (8 * 16)), SseReady p.2.1 s → Passes (readXm .size 16 o.src) s.begin b u →
        Completes (p.1 o) s (u.setXmm o.dst (p.2.2 o.imm (u.xmm o.dst) b))) ∧
  (∀ p ∈ ([
        (.rcpps, rcpApprox), (.rsqrtps, rsqrtApprox)] : List ((XX → Instr) × (BitVec 32 → BitVec 32))),
      ∀ (o : XX) (s u : State) (b : BitVec (8 * 16)), SseReady .sse s → Passes (readXm .size 16 o.src) s.begin b u →
        Completes (p.1 o) s (u.setXmm o.dst (each 32 p.2 128 b))) ∧
  (∀ p ∈ ([
        (.rcpss, rcpApprox), (.rsqrtss, rsqrtApprox)] : List ((XX → Instr) × (BitVec 32 → BitVec 32))),
      ∀ (o : XX) (s u : State) (b : BitVec (8 * 4)), SseReady .sse s → Passes (readXm .free 4 o.src) s.begin b u →
        Completes (p.1 o) s (u.setXmm o.dst (withLow (u.xmm o.dst) (p.2 b)))) ∧
  (∀ p ∈ ([
        (.movddup, .sse3, ⟨8, (broadcast 128 64)⟩), (.pmovsxbw, .sse41, ⟨8, (extendTo true 128 8 16)⟩),
        (.pmovsxbd, .sse41, ⟨4, (extendTo true 128 8 32)⟩), (.pmovsxbq, .sse41, ⟨2, (extendTo true 128 8 64)⟩),
        (.pmovsxwd, .sse41, ⟨8, (extendTo true 128 16 32)⟩), (.pmovsxwq, .sse41, ⟨4, (extendTo true 128 16 64)⟩),
        (.pmovsxdq, .sse41, ⟨8, (extendTo true 128 32 64)⟩), (.pmovzxbw, .sse41, ⟨8, (extendTo false 128 8 16)⟩),
        (.pmovzxbd, .sse41, ⟨4, (extendTo false 128 8 32)⟩), (.pmovzxbq, .sse41, ⟨2, (extendTo false 128 8 64)⟩),
        (.pmovzxwd, .sse41, ⟨8, (extendTo false 128 16 32)⟩), (.pmovzxwq, .sse41, ⟨4, (extendTo false 128 16 64)⟩),
        (.pmovzxdq, .sse41, ⟨8, (extendTo false 128 32 64)⟩)] : List ((XX → Instr) × Config.Feature × (n : Nat) × (BitVec (8 * n) → BitVec 128))),
      ∀ (o : XX) (s u : State) (b : BitVec (8 * p.2.2.1)), SseReady p.2.1 s → Passes (readXm .free p.2.2.1 o.src) s.begin b u →
        Completes (p.1 o) s (u.setXmm o.dst (p.2.2.2 b))) ∧
  (∀ p ∈ ([(.blendvpd, 64), (.blendvps, 32), (.pblendvb, 8)] : List ((XX → Instr) × Nat)),
      ∀ (o : XX) (s u : State) (b : BitVec (8 * 16)), SseReady .sse41 s → Passes (readXm .size 16 o.src) s.begin b u →
        Completes (p.1 o) s (u.setXmm o.dst (blendByTop p.2 (u.xmm 0) (u.xmm o.dst) b))) ∧
  (∀ (o : XX) (s u : State) (b : BitVec (8 * 16)), SseReady .sse41 s → Passes (readXm .size 16 o.src) s.begin b u →
        Completes (.ptest o) s
          { u with flags :=
            { u.flags with
              zf := decide (b &&& u.xmm o.dst = 0), cf := decide (b &&& ~~~u.xmm o.dst = 0)
              af := false, of := false, pf := false, sf := false } }) ∧
  (∀ p ∈ ([
        (.pslldq, true), (.psrldq, false)] : List ((XI → Instr) × Bool)), ∀ (o : XI) (s : State), SseReady .sse2 s →
      Completes (p.1 o) s (s.begin.setXmm o.dst (byteShift p.2 o.imm (s.xmm o.dst))))

/-- Legacy SSE floating-point arithmetic with every exception masked: destination and MXCSR. Each entry is a constructor
with its feature and its operation; comparisons need a predicate without reserved bits. -/
def Obligations.SseFloatResults : Prop :=
  (∀ p ∈ ([
        (.addpd, .sse2, (packed 64 (fpAdd f64))), (.addps, .sse, (packed 32 (fpAdd f32))), (.addsubpd, .sse3, (fpAddSub f64)),
        (.addsubps, .sse3, (fpAddSub f32)), (.divpd, .sse2, (packed 64 (fpDiv f64))), (.divps, .sse, (packed 32 (fpDiv f32))),
        (.haddpd, .sse3, (fpHorizontal f64 (swapped (fpAdd f64)))),
        (.haddps, .sse3, (fpHorizontal f32 (swapped (fpAdd f32)))), (.hsubpd, .sse3, (fpHorizontal f64 (fpSub f64))),
        (.hsubps, .sse3, (fpHorizontal f32 (fpSub f32))), (.maxpd, .sse2, (packed 64 (fpMinMax f64 .greater))),
        (.maxps, .sse, (packed 32 (fpMinMax f32 .greater))), (.minpd, .sse2, (packed 64 (fpMinMax f64 .less))),
        (.minps, .sse, (packed 32 (fpMinMax f32 .less))), (.mulpd, .sse2, (packed 64 (fpMul f64))),
        (.mulps, .sse, (packed 32 (fpMul f32))), (.subpd, .sse2, (packed 64 (fpSub f64))),
        (.subps, .sse, (packed 32 (fpSub f32)))] : List ((XX → Instr) × Config.Feature × FpOp2)),
      ∀ (o : XX) (s u : State) (b : BitVec (8 * 16)), SseReady p.2.1 s → SimdMasked s →
        Passes (readXm .size 16 o.src) s.begin b u →
        let r := p.2.2 (mxcsrEnv u.mxcsr) 128 (u.xmm o.dst) b
        Completes (p.1 o) s ((u.flagged r.flags).setXmm o.dst r.val)) ∧
  (∀ p ∈ ([
        (.sqrtpd, .sse2, 64, (fpSqrt f64)), (.sqrtps, .sse, 32, (fpSqrt f32))] : List ((XX → Instr) × Config.Feature × Nat × Fp1)),
      ∀ (o : XX) (s u : State) (b : BitVec (8 * 16)), SseReady p.2.1 s → SimdMasked s →
        Passes (readXm .size 16 o.src) s.begin b u →
        let r : FpVec 128 := fpEach p.2.2.1 p.2.2.2 (mxcsrEnv u.mxcsr) b
        Completes (p.1 o) s ((u.flagged r.flags).setXmm o.dst r.val)) ∧
  (∀ p ∈ ([
        (.addsd, .sse2, 8, 64, (fpAdd f64)), (.addss, .sse, 4, 32, (fpAdd f32)),
        (.cvtsd2ss, .sse2, 8, 32, (onSecond (fpConvert f64 f32))), (.cvtss2sd, .sse2, 4, 64, (onSecond (fpConvert f32 f64))),
        (.divsd, .sse2, 8, 64, (fpDiv f64)), (.divss, .sse, 4, 32, (fpDiv f32)),
        (.maxsd, .sse2, 8, 64, (fpMinMax f64 .greater)), (.maxss, .sse, 4, 32, (fpMinMax f32 .greater)),
        (.minsd, .sse2, 8, 64, (fpMinMax f64 .less)), (.minss, .sse, 4, 32, (fpMinMax f32 .less)),
        (.mulsd, .sse2, 8, 64, (fpMul f64)), (.mulss, .sse, 4, 32, (fpMul f32)),
        (.sqrtsd, .sse2, 8, 64, (onSecond (fpSqrt f64))), (.sqrtss, .sse, 4, 32, (onSecond (fpSqrt f32))),
        (.subsd, .sse2, 8, 64, (fpSub f64)), (.subss, .sse, 4, 32, (fpSub f32))] : List ((XX → Instr) × Config.Feature × Nat × Nat × Fp2)),
      ∀ (o : XX) (s u : State) (b : BitVec (8 * p.2.2.1)), SseReady p.2.1 s → SimdMasked s →
        Passes (readXm .free p.2.2.1 o.src) s.begin b u →
        let r := p.2.2.2.2 (mxcsrEnv u.mxcsr) ((u.xmm o.dst).toNat % 2 ^ (8 * p.2.2.1)) b.toNat
        Completes (p.1 o) s
          ((u.flagged r.flags).setXmm o.dst (withLow (u.xmm o.dst) (BitVec.ofNat p.2.2.2.1 r.bits)))) ∧
  (∀ p ∈ ([(.roundpd, f64), (.roundps, f32)] : List ((XXI → Instr) × FpFmt)),
      ∀ (o : XXI) (s u : State) (b : BitVec (8 * 16)), SseReady .sse41 s → SimdMasked s →
        Passes (readXm .size 16 o.src) s.begin b u →
        let r : FpVec 128 := fpEach p.2.width (roundOp p.2 o.imm) (mxcsrEnv u.mxcsr) b
        Completes (p.1 o) s ((u.flagged r.flags).setXmm o.dst r.val)) ∧
  (∀ p ∈ ([(.roundsd, f64), (.roundss, f32)] : List ((XXI → Instr) × FpFmt)),
      ∀ (o : XXI) (s u : State) (b : BitVec (8 * (p.2.width / 8))), SseReady .sse41 s → SimdMasked s →
        Passes (readXm .free (p.2.width / 8) o.src) s.begin b u →
        let r := roundOp p.2 o.imm (mxcsrEnv u.mxcsr) b.toNat
        Completes (p.1 o) s ((u.flagged r.flags).setXmm o.dst (withLow (u.xmm o.dst) (BitVec.ofNat p.2.width r.bits)))) ∧
  (∀ p ∈ ([
        (.cmppd, .sse2, f64), (.cmpps, .sse, f32)] : List ((XXI → Instr) × Config.Feature × FpFmt)),
      ∀ (o : XXI) (s u : State) (b : BitVec (8 * 16)), o.imm.toNat < 2 ^ 3 → SseReady p.2.1 s → SimdMasked s →
        Passes (readXm .size 16 o.src) s.begin b u →
        let r := packed p.2.2.width (fpPredicate p.2.2 o.imm.toNat) (mxcsrEnv u.mxcsr) 128 (u.xmm o.dst) b
        Completes (p.1 o) s ((u.flagged r.flags).setXmm o.dst r.val)) ∧
  (∀ p ∈ ([
        (.cmpsdSse, .sse2, f64), (.cmpss, .sse, f32)] : List ((XXI → Instr) × Config.Feature × FpFmt)),
      ∀ (o : XXI) (s u : State) (b : BitVec (8 * (p.2.2.width / 8))), o.imm.toNat < 2 ^ 3 → SseReady p.2.1 s →
        SimdMasked s → Passes (readXm .free (p.2.2.width / 8) o.src) s.begin b u →
        let r := fpPredicate p.2.2 o.imm.toNat (mxcsrEnv u.mxcsr) ((u.xmm o.dst).toNat % 2 ^ (8 * (p.2.2.width / 8))) b.toNat
        Completes (p.1 o) s ((u.flagged r.flags).setXmm o.dst (withLow (u.xmm o.dst) (BitVec.ofNat p.2.2.width r.bits)))) ∧
  (∀ p ∈ ([
        (.dppd, f64), (.dpps, f32)] : List ((XXI → Instr) × FpFmt)),
      ∀ (o : XXI) (s u : State) (b : BitVec (8 * 16)), SseReady .sse41 s → SimdMasked s →
        Passes (readXm .size 16 o.src) s.begin b u →
        ∃ v x n, Passes (dotProduct p.2 o.imm (u.xmm o.dst) b) u v { u with mxcsr := x, free := n } ∧
          Completes (p.1 o) s ({ u with mxcsr := x, free := n }.setXmm o.dst v))

/-- Legacy SSE conversions and comparisons with every exception masked, and the two MXCSR instructions. -/
def Obligations.SseConversionResults : Prop :=
  (∀ p ∈ ([
        (.cvtdq2pd, .free, 8, 32, 64, (fromInt 32 f64)), (.cvtdq2ps, .size, 16, 32, 32, (fromInt 32 f32)),
        (.cvtpd2dq, .size, 16, 64, 32, (fpToInt f64 32)), (.cvtpd2ps, .size, 16, 64, 32, (fpConvert f64 f32)),
        (.cvtps2dq, .size, 16, 32, 32, (fpToInt f32 32)), (.cvtps2pd, .free, 8, 32, 64, (fpConvert f32 f64)),
        (.cvttpd2dq, .size, 16, 64, 32, (truncating (fpToInt f64 32))),
        (.cvttps2dq, .size, 16, 32, 32, (truncating (fpToInt f32 32)))] : List ((XX → Instr) × Align × Nat × Nat × Nat × Fp1)),
      ∀ (o : XX) (s u : State) (b : BitVec (8 * p.2.2.1)), SseReady .sse2 s → SimdMasked s →
        Passes (readXm p.2.1 p.2.2.1 o.src) s.begin b u →
        let r := fpMap 128 p.2.2.2.1 p.2.2.2.2.1 p.2.2.2.2.2 (mxcsrEnv u.mxcsr) b
        Completes (p.1 o) s ((u.flagged r.flags).setXmm o.dst r.val)) ∧
  (∀ p ∈ ([
        (.cvtpd2pi, .sse2, .size, 16, 64, (fpToInt f64 32)),
        (.cvttpd2pi, .sse2, .size, 16, 64, (truncating (fpToInt f64 32))), (.cvtps2pi, .sse, .free, 8, 32, (fpToInt f32 32)),
        (.cvttps2pi, .sse, .free, 8, 32, (truncating (fpToInt f32 32)))] : List ((MXm → Instr) × Config.Feature × Align × Nat × Nat × Fp1)),
      ∀ (o : MXm) (s u : State) (b : BitVec (8 * p.2.2.2.1)), SseReady p.2.1 s → s.fpu.es = false → SimdMasked s →
        Passes (readXm p.2.2.1 p.2.2.2.1 o.src) s.begin b u →
        let r := fpMap 64 p.2.2.2.2.1 32 p.2.2.2.2.2 (mxcsrEnv u.mxcsr) b
        Completes (p.1 o) s (((u.flagged r.flags).setMm o.dst r.val).mmxUsed)) ∧
  (∀ p ∈ ([(.cvtsd2si, .sse2, f64, false), (.cvttsd2si, .sse2, f64, true), (.cvtss2si, .sse, f32, false),
        (.cvttss2si, .sse, f32, true)] : List ((GX → Instr) × Config.Feature × FpFmt × Bool)),
      ∀ (o : GX) (s u : State) (b : BitVec (8 * (p.2.2.1.width / 8))), SseReady p.2.1 s → SimdMasked s →
        Passes (readXm .free (p.2.2.1.width / 8) o.src) s.begin b u →
        let op := fpToInt p.2.2.1 o.w.bits
        let r := (if p.2.2.2 then truncating op else op) (mxcsrEnv u.mxcsr) b.toNat
        Completes (p.1 o) s ((u.flagged r.flags).setGpVal o.w (.lo o.dst) (BitVec.ofNat o.w.bits r.bits))) ∧
  (∀ p ∈ ([
        (.cvtsi2sd, .sse2, f64), (.cvtsi2ss, .sse, f32)] : List ((XG → Instr) × Config.Feature × FpFmt)),
      ∀ (o : XG) (s u : State) (b : BitVec o.w.bits), SseReady p.2.1 s → SimdMasked s →
        Passes (readRm o.w o.src) s.begin b u →
        let r := fromInt o.w.bits p.2.2 (mxcsrEnv u.mxcsr) b.toNat
        Completes (p.1 o) s ((u.flagged r.flags).setXmm o.dst (withLow (u.xmm o.dst) (BitVec.ofNat p.2.2.width r.bits)))) ∧
  (∀ p ∈ ([
        (.comisd, .sse2, f64, true), (.comiss, .sse, f32, true), (.ucomisd, .sse2, f64, false), (.ucomiss, .sse, f32, false)] : List ((XX → Instr) × Config.Feature × FpFmt × Bool)),
      ∀ (o : XX) (s u : State) (b : BitVec (8 * (p.2.2.1.width / 8))), SseReady p.2.1 s → SimdMasked s →
        Passes (readXm .free (p.2.2.1.width / 8) o.src) s.begin b u →
        let r := fpCompare p.2.2.1 p.2.2.2 (mxcsrEnv u.mxcsr) ((u.xmm o.dst).toNat % 2 ^ p.2.2.1.width) b.toNat
        Completes (p.1 o) s { u.flagged r.2 with flags := u.flags.ofOrder r.1 }) ∧
  (∀ (dst : Reg) (src : Fin 8) (s u : State) (b : BitVec (8 * 8)), SseReady .sse2 s → s.fpu.es = false → SimdMasked s →
      Passes (readMmM 8 (.reg src)) s.begin.mmxUsed b u →
      let r := fpMap 128 32 64 (fromInt 32 f64) (mxcsrEnv u.mxcsr) b
      Completes (.cvtpi2pd { dst := dst, src := .reg src }) s ((u.flagged r.flags).setXmm dst r.val)) ∧
  (∀ (dst : Reg) (m : MemRef) (s u : State) (b : BitVec (8 * 8)), SseReady .sse2 s → SimdMasked s →
      Passes (readMmM 8 (.mem m)) s.begin b u →
      let r := fpMap 128 32 64 (fromInt 32 f64) (mxcsrEnv u.mxcsr) b
      Completes (.cvtpi2pd { dst := dst, src := .mem m }) s ((u.flagged r.flags).setXmm dst r.val)) ∧
  (∀ (o : XMm) (s u : State) (b : BitVec (8 * 8)), SseReady .sse s → s.fpu.es = false → SimdMasked s →
      Passes (readMmM 8 o.src) s.begin b u →
      let r := fpMap 64 32 32 (fromInt 32 f32) (mxcsrEnv u.mxcsr) b
      Completes (.cvtpi2ps o) s (((u.flagged r.flags).setXmm o.dst (withLow (u.xmm o.dst) r.val)).mmxUsed)) ∧
  (∀ (m : MemRef) (s u : State) (v : Nat), Passes (readMem m 4) s.begin v u → v / 2 ^ 16 % 2 ^ 16 = 0 →
      (SseReady .sse s → Completes (.ldmxcsr m) s { u with mxcsr := BitVec.ofNat 32 v }) ∧
      (VexReady [.avx] s → Completes (.vldmxcsr m) s { u with mxcsr := BitVec.ofNat 32 v })) ∧
  (∀ (m : MemRef) (s u : State) (as : List Nat), Passes (resolveMem .write m 4) s.begin as u →
      (SseReady .sse s → Completes (.stmxcsr m) s (u.physWrite as s.mxcsr.toNat)) ∧
      (VexReady [.avx] s → Completes (.vstmxcsr m) s (u.physWrite as s.mxcsr.toNat)))

/-- The legacy SSE moves. A form with a memory destination writes the addresses `as` (or the place `p`) that its operand
resolves to. -/
def Obligations.SseMoveResults : Prop :=
  (∀ p ∈ ([
        (.movapd, .sse2, .size), (.movaps, .sse, .size), (.movdqa, .sse2, .size), (.movdqu, .sse2, .loose),
        (.movupd, .sse2, .loose), (.movups, .sse, .loose)] : List ((XMov → Instr) × Config.Feature × Align)),
      (∀ (dst : Reg) (src : Xm) (s u : State) (b : BitVec (8 * 16)), SseReady p.2.1 s →
        Passes (readXm p.2.2 16 src) s.begin b u → Completes (p.1 (.load dst src)) s (u.setXmm dst b)) ∧
      (∀ (dst src : Reg) (s : State), SseReady p.2.1 s →
        Completes (p.1 (.store (.reg dst) src)) s (s.begin.setXmm dst (s.xmm src))) ∧
      (∀ (m : MemRef) (src : Reg) (s u : State) (as : List Nat), SseReady p.2.1 s →
        Passes (resolveVec .write p.2.2 m 16) s.begin as u →
        Completes (p.1 (.store (.mem m) src)) s (u.physWrite as ((s.xmm src).toNat % 2 ^ (8 * 16))))) ∧
  (∀ p ∈ ([
        (.movsdSse, .sse2, 8), (.movss, .sse, 4)] : List ((XMov → Instr) × Config.Feature × Nat)),
      (∀ (dst src : Reg) (s : State), SseReady p.2.1 s →
        Completes (p.1 (.load dst (.reg src))) s
          (s.begin.setXmm dst (withLow (s.xmm dst) ((s.xmm src).setWidth (8 * p.2.2)))) ∧
        Completes (p.1 (.store (.reg dst) src)) s
          (s.begin.setXmm dst (withLow (s.xmm dst) ((s.xmm src).setWidth (8 * p.2.2))))) ∧
      (∀ (dst : Reg) (m : MemRef) (s u : State) (b : BitVec (8 * p.2.2)), SseReady p.2.1 s →
        Passes (readXm .free p.2.2 (.mem m)) s.begin b u → Completes (p.1 (.load dst (.mem m))) s (u.setXmm dst (b.setWidth 128))) ∧
      (∀ (m : MemRef) (src : Reg) (s u : State) (as : List Nat), SseReady p.2.1 s →
        Passes (resolveVec .write .free m p.2.2) s.begin as u →
        Completes (p.1 (.store (.mem m) src)) s (u.physWrite as ((s.xmm src).toNat % 2 ^ (8 * p.2.2))))) ∧
  (∀ p ∈ ([
        (.movhpd, .sse2, true), (.movhps, .sse, true), (.movlpd, .sse2, false), (.movlps, .sse, false)] : List ((XMemMov → Instr) × Config.Feature × Bool)),
      (∀ (dst : Reg) (m : MemRef) (s u : State) (v : BitVec (8 * 8)), SseReady p.2.1 s →
        Passes (readXm .free 8 (.mem m)) s.begin v u →
        Completes (p.1 (.load dst m)) s
          (u.setXmm dst (if p.2.2 then quads v (lane 64 (u.xmm dst) 0) else quads (lane 64 (u.xmm dst) 1) v))) ∧
      (∀ (m : MemRef) (src : Reg) (s u : State) (as : List Nat), SseReady p.2.1 s →
        Passes (resolveVec .write .free m 8) s.begin as u →
        Completes (p.1 (.store m src)) s (u.physWrite as ((lane 64 (s.xmm src) p.2.2.toNat).toNat % 2 ^ (8 * 8))))) ∧
  (∀ p ∈ ([
        (.movntdq, .sse2), (.movntpd, .sse2), (.movntps, .sse)] : List ((MemX → Instr) × Config.Feature)),
      ∀ (o : MemX) (s u : State) (as : List Nat), SseReady p.2 s → Passes (resolveVec .write .size o.mem 16) s.begin as u →
        Completes (p.1 o) s (u.physWrite as ((s.xmm o.src).toNat % 2 ^ 128))) ∧
  (∀ p ∈ ([(.lddqu, .sse3, .loose), (.movntdqa, .sse41, .size)] : List ((XMem → Instr) × Config.Feature × Align)),
      ∀ (o : XMem) (s u : State) (b : BitVec (8 * 16)), SseReady p.2.1 s → Passes (readXm p.2.2 16 (.mem o.mem)) s.begin b u →
        Completes (p.1 o) s (u.setXmm o.dst b)) ∧
  (∀ (o : XReg) (s : State),
      (SseReady .sse s → Completes (.movhlps o) s
        (s.begin.setXmm o.dst (quads (lane 64 (s.xmm o.dst) 1) (lane 64 (s.xmm o.src) 1)))) ∧
      (SseReady .sse s → Completes (.movlhps o) s
        (s.begin.setXmm o.dst (quads (lane 64 (s.xmm o.src) 0) (lane 64 (s.xmm o.dst) 0)))) ∧
      (SseReady .sse2 s → Completes (.movmskpd o) s (s.begin.setGp o.dst (regWrite s.isLong s.wide (s.gp o.dst)
        ((BitVec.ofNat 64 (topBits 64 (s.xmm o.src))).setWidth s.wide.bits)))) ∧
      (SseReady .sse s → Completes (.movmskps o) s (s.begin.setGp o.dst (regWrite s.isLong s.wide (s.gp o.dst)
        ((BitVec.ofNat 64 (topBits 32 (s.xmm o.src))).setWidth s.wide.bits))))) ∧
  (∀ p ∈ ([(.pinsrb, .w8), (.pinsrd, .w32), (.pinsrq, .w64)] : List ((InsOps → Instr) × Width)),
      ∀ (o : InsOps) (s u : State) (v : BitVec p.2.bits), SseReady .sse41 s → Passes (readInsert p.2 o.src) s.begin v u →
        Completes (p.1 o) s (u.setXmm o.dst (replaceLane (u.xmm o.dst) (o.imm.toNat % (128 / p.2.bits)) v))) ∧
  (∀ (o : XXI) (s u : State) (x : BitVec 32), SseReady .sse41 s → Passes (insertPsSource o.imm o.src) s.begin x u →
      Completes (.insertps o) s (u.setXmm o.dst (insertPs o.imm (u.xmm o.dst) x))) ∧
  (∀ p ∈ ([(.extractps, .w32, SseReady .sse41), (.vextractps, .w32, VexReady [.avx]), (.pextrb, .w8, SseReady .sse41),
        (.vpextrb, .w8, VexReady [.avx]), (.pextrd, .w32, SseReady .sse41), (.vpextrd, .w32, VexReady [.avx]),
        (.pextrq, .w64, SseReady .sse41), (.vpextrq, .w64, VexReady [.avx]), (.vpextrw, .w16, VexReady [.avx])] :
        List ((ExtrOps → Instr) × Width × (State → Prop))),
      (∀ (r src : Reg) (imm : BitVec 8) (s : State), p.2.2 s →
        Completes (p.1 ⟨.reg (.lo r), src, imm⟩) s
          (s.begin.setGp r (regWrite s.isLong s.wide (s.gp r)
            ((lane p.2.1.bits (s.xmm src) (imm.toNat % (128 / p.2.1.bits))).setWidth s.wide.bits)))) ∧
      (∀ (m : MemRef) (src : Reg) (imm : BitVec 8) (s u : State) (d : Place), p.2.2 s →
        Passes (place .write p.2.1 (.mem m)) s.begin d u →
        Completes (p.1 ⟨.mem m, src, imm⟩) s
          (u.setPlace p.2.1 d (lane p.2.1.bits (s.xmm src) (imm.toNat % (128 / p.2.1.bits)))))) ∧
  (∀ p ∈ ([(.movd, .w32), (.movqGp, .w64)] : List ((MovdOps → Instr) × Width)),
      (∀ (dst : Fin 8) (src : Rm) (s u : State) (v : BitVec p.2.bits), MmxReady .mmx s → Passes (readRm p.2 src) s.begin v u →
        Completes (p.1 (.toMm dst src)) s ((u.setMm dst (v.setWidth 64)).mmxUsed)) ∧
      (∀ (dst : Rm) (src : Fin 8) (s u : State) (d : Place), MmxReady .mmx s → Passes (place .write p.2 dst) s.begin d u →
        Completes (p.1 (.fromMm dst src)) s ((u.setPlace p.2 d ((s.mm src).setWidth p.2.bits)).mmxUsed)) ∧
      (∀ (dst : Reg) (src : Rm) (s u : State) (v : BitVec p.2.bits), SseReady .sse2 s → Passes (readRm p.2 src) s.begin v u →
        Completes (p.1 (.toX dst src)) s (u.setXmm dst (v.setWidth 128))) ∧
      (∀ (dst : Rm) (src : Reg) (s u : State) (d : Place), SseReady .sse2 s → Passes (place .write p.2 dst) s.begin d u →
        Completes (p.1 (.fromX dst src)) s (u.setPlace p.2 d ((s.xmm src).setWidth p.2.bits)))) ∧
  ((∀ (dst : Fin 8) (src : Mm) (s u : State) (v : BitVec (8 * 8)), MmxReady .mmx s → Passes (readMmM 8 src) s.begin v u →
        Completes (.movqX (.mmLoad dst src)) s ((u.setMm dst v).mmxUsed)) ∧
      (∀ (dst src : Fin 8) (s : State), MmxReady .mmx s →
        Completes (.movqX (.mmStore (.reg dst) src)) s ((s.begin.setMm dst (s.mm src)).mmxUsed)) ∧
      (∀ (m : MemRef) (src : Fin 8) (s u : State) (as : List Nat), MmxReady .mmx s → Passes (resolveMem .write m 8) s.begin as u →
        Completes (.movqX (.mmStore (.mem m) src)) s ((u.physWrite as (u.mm src).toNat).mmxUsed)) ∧
      (∀ (dst : Reg) (src : Xm) (s u : State) (v : BitVec (8 * 8)), SseReady .sse2 s → s.fpu.es = false →
        Passes (readXm .free 8 src) s.begin v u →
        Completes (.movqX (.xLoad dst src)) s (u.setXmm dst (v.setWidth 128))) ∧
      (∀ (dst src : Reg) (s : State), SseReady .sse2 s → s.fpu.es = false →
        Completes (.movqX (.xStore (.reg dst) src)) s (s.begin.setXmm dst (((s.xmm src).setWidth 64).setWidth 128))) ∧
      (∀ (m : MemRef) (src : Reg) (s u : State) (as : List Nat), SseReady .sse2 s → s.fpu.es = false →
        Passes (resolveVec .write .free m 8) s.begin as u →
        Completes (.movqX (.xStore (.mem m) src)) s (u.physWrite as ((s.xmm src).toNat % 2 ^ (8 * 8))))) ∧
  (∀ (s : State), SseReady .sse2 s → s.fpu.es = false →
      (∀ (dst : Fin 8) (src : Reg), Completes (.movdq2q ⟨dst, src⟩) s ((s.begin.setMm dst (lane 64 (s.xmm src) 0)).mmxUsed)) ∧
      (∀ (dst : Reg) (src : Fin 8), Completes (.movq2dq ⟨dst, src⟩) s ((s.begin.setXmm dst ((s.mm src).setWidth 128)).mmxUsed))) ∧
  (∀ p ∈ ([(.maskmovdqu, SseReady .sse2), (.vmaskmovdqu, VexReady [.avx])] : List ((XMask → Instr) × (State → Prop))),
      ∀ (o : XMask) (s u : State) (ps : List (List Nat × Nat)), p.2 s →
        Passes (maskedBytes (o.ovr.getD .ds) (o.a.trunc (s.gp rDI))
          (List.zip ((lanes 8 (s.xmm o.mask)).map (·.msb)) (lanes 8 (s.xmm o.src))) 0) s.begin ps u →
        Completes (p.1 o) s (u.withParts ps))

/-- The instructions with an MMX and an XMM form. Each entry is a constructor, the bytes its MMX form reads from memory, the
features of the two forms and the operation. -/
def Obligations.MmxResults : Prop :=
  (∀ p ∈ ([
        (.pabsb, .ssse3, .ssse3, (srcOnly (each 8 absElem))), (.pabsw, .ssse3, .ssse3, (srcOnly (each 16 absElem))),
        (.pabsd, .ssse3, .ssse3, (srcOnly (each 32 absElem))), (.packsswb, .mmx, .sse2, (packTo 16 (satS 8))),
        (.packssdw, .mmx, .sse2, (packTo 32 (satS 16))), (.packuswb, .mmx, .sse2, (packTo 16 (satU 8))),
        (.paddb, .mmx, .sse2, (zip 8 fun x y => x + y)), (.paddw, .mmx, .sse2, (zip 16 fun x y => x + y)),
        (.paddd, .mmx, .sse2, (zip 32 fun x y => x + y)), (.paddq, .sse2, .sse2, (zip 64 fun x y => x + y)),
        (.paddsb, .mmx, .sse2, (zip 8 fun x y => satS 8 (x.toInt + y.toInt))),
        (.paddsw, .mmx, .sse2, (zip 16 fun x y => satS 16 (x.toInt + y.toInt))),
        (.paddusb, .mmx, .sse2, (zip 8 fun x y => satU 8 (x.toNat + y.toNat))),
        (.paddusw, .mmx, .sse2, (zip 16 fun x y => satU 16 (x.toNat + y.toNat))), (.pand, .mmx, .sse2, andVec),
        (.pandn, .mmx, .sse2, andNot), (.pavgb, .sse, .sse2, (zip 8 fun x y => avgElem x y)),
        (.pavgw, .sse, .sse2, (zip 16 fun x y => avgElem x y)), (.pcmpeqb, .mmx, .sse2, (zip 8 fun x y => maskOf 8 (x == y))),
        (.pcmpeqw, .mmx, .sse2, (zip 16 fun x y => maskOf 16 (x == y))),
        (.pcmpeqd, .mmx, .sse2, (zip 32 fun x y => maskOf 32 (x == y))),
        (.pcmpgtb, .mmx, .sse2, (zip 8 fun x y => maskOf 8 (decide (y.toInt < x.toInt)))),
        (.pcmpgtw, .mmx, .sse2, (zip 16 fun x y => maskOf 16 (decide (y.toInt < x.toInt)))),
        (.pcmpgtd, .mmx, .sse2, (zip 32 fun x y => maskOf 32 (decide (y.toInt < x.toInt)))),
        (.phaddw, .ssse3, .ssse3, (horizontal 16 fun x y => x + y)),
        (.phaddd, .ssse3, .ssse3, (horizontal 32 fun x y => x + y)),
        (.phaddsw, .ssse3, .ssse3, (horizontal 16 fun x y => satS 16 (x.toInt + y.toInt))),
        (.phsubw, .ssse3, .ssse3, (horizontal 16 fun x y => x - y)),
        (.phsubd, .ssse3, .ssse3, (horizontal 32 fun x y => x - y)),
        (.phsubsw, .ssse3, .ssse3, (horizontal 16 fun x y => satS 16 (x.toInt - y.toInt))),
        (.pmaddubsw, .ssse3, .ssse3, (zip 16 maddUbs)), (.pmaddwd, .mmx, .sse2, (zip 32 maddWd)),
        (.pmaxsw, .sse, .sse2, (zip 16 fun x y => if y.toInt < x.toInt then x else y)),
        (.pmaxub, .sse, .sse2, (zip 8 fun x y => if y.toNat < x.toNat then x else y)),
        (.pminsw, .sse, .sse2, (zip 16 fun x y => if x.toInt < y.toInt then x else y)),
        (.pminub, .sse, .sse2, (zip 8 fun x y => if x.toNat < y.toNat then x else y)),
        (.pmulhrsw, .ssse3, .ssse3, (zip 16 mulHrs)), (.pmulhuw, .sse, .sse2, (zip 16 mulHighU)),
        (.pmulhw, .mmx, .sse2, (zip 16 mulHigh)), (.pmullw, .mmx, .sse2, (zip 16 fun x y => x * y)),
        (.pmuludq, .sse2, .sse2, (zip 64 mulLowU)), (.por, .mmx, .sse2, orVec), (.pxor, .mmx, .sse2, xorVec),
        (.psadbw, .sse, .sse2, (zip 64 sadBytes)), (.pshufb, .ssse3, .ssse3, shuffleBytes),
        (.psignb, .ssse3, .ssse3, (zip 8 fun x y => signElem x y)),
        (.psignw, .ssse3, .ssse3, (zip 16 fun x y => signElem x y)),
        (.psignd, .ssse3, .ssse3, (zip 32 fun x y => signElem x y)), (.psubb, .mmx, .sse2, (zip 8 fun x y => x - y)),
        (.psubw, .mmx, .sse2, (zip 16 fun x y => x - y)), (.psubd, .mmx, .sse2, (zip 32 fun x y => x - y)),
        (.psubq, .sse2, .sse2, (zip 64 fun x y => x - y)),
        (.psubsb, .mmx, .sse2, (zip 8 fun x y => satS 8 (x.toInt - y.toInt))),
        (.psubsw, .mmx, .sse2, (zip 16 fun x y => satS 16 (x.toInt - y.toInt))),
        (.psubusb, .mmx, .sse2, (zip 8 fun x y => satU 8 ((x.toNat : Int) - y.toNat))),
        (.psubusw, .mmx, .sse2, (zip 16 fun x y => satU 16 ((x.toNat : Int) - y.toNat))),
        (.punpckhbw, .mmx, .sse2, (unpackHigh 8)), (.punpckhwd, .mmx, .sse2, (unpackHigh 16)),
        (.punpckhdq, .mmx, .sse2, (unpackHigh 32))] : List ((MX → Instr) × Config.Feature × Config.Feature × Op2)),
      (∀ (dst : Fin 8) (src : Mm) (s u : State) (b : BitVec (8 * 8)), MmxReady p.2.1 s → Passes (readMmM 8 src) s.begin b u →
        Completes (p.1 (.mm dst src)) s ((u.setMm dst (p.2.2.2 64 (u.mm dst) (b.setWidth 64))).mmxUsed)) ∧
      (∀ (dst : Reg) (src : Xm) (s u : State) (b : BitVec (8 * 16)), SseReady p.2.2.1 s → Passes (readXm .size 16 src) s.begin b u →
        Completes (p.1 (.xx dst src)) s (u.setXmm dst (p.2.2.2 128 (u.xmm dst) b)))) ∧
  (∀ p ∈ ([
        (.punpcklbw, 4, .mmx, .sse2, (unpackLow 8)), (.punpcklwd, 4, .mmx, .sse2, (unpackLow 16)),
        (.punpckldq, 4, .mmx, .sse2, (unpackLow 32))] : List ((MX → Instr) × Nat × Config.Feature × Config.Feature × Op2)),
      (∀ (dst : Fin 8) (src : Mm) (s u : State) (b : BitVec (8 * p.2.1)), MmxReady p.2.2.1 s →
        Passes (readMmM p.2.1 src) s.begin b u →
        Completes (p.1 (.mm dst src)) s ((u.setMm dst (p.2.2.2.2 64 (u.mm dst) (b.setWidth 64))).mmxUsed)) ∧
      (∀ (dst : Reg) (src : Xm) (s u : State) (b : BitVec (8 * 16)), SseReady p.2.2.2.1 s →
        Passes (readXm .size 16 src) s.begin b u →
        Completes (p.1 (.xx dst src)) s (u.setXmm dst (p.2.2.2.2 128 (u.xmm dst) b)))) ∧
  ((∀ (dst : Fin 8) (src : Mm) (imm : BitVec 8) (s u : State) (b : BitVec (8 * 8)), MmxReady .ssse3 s →
        Passes (readMmM 8 src) s.begin b u →
        Completes (.palignr (.mm dst src imm)) s ((u.setMm dst (alignRight imm 64 (u.mm dst) (b.setWidth 64))).mmxUsed)) ∧
      (∀ (dst : Reg) (src : Xm) (imm : BitVec 8) (s u : State) (b : BitVec (8 * 16)), SseReady .ssse3 s →
        Passes (readXm .size 16 src) s.begin b u →
        Completes (.palignr (.xx dst src imm)) s (u.setXmm dst (alignRight imm 128 (u.xmm dst) b)))) ∧
  (∀ (o : MMI) (s u : State) (b : BitVec (8 * 8)), MmxReady .sse s → Passes (readMmM 8 o.src) s.begin b u →
      Completes (.pshufw o) s ((u.setMm o.dst (shuffleW o.imm b)).mmxUsed)) ∧
  (∀ p ∈ ([
        (.psllw, ⟨16, (shl 16)⟩), (.pslld, ⟨32, (shl 32)⟩), (.psllq, ⟨64, (shl 64)⟩), (.psraw, ⟨16, (sar 16)⟩),
        (.psrad, ⟨32, (sar 32)⟩), (.psrlw, ⟨16, (shr 16)⟩), (.psrld, ⟨32, (shr 32)⟩), (.psrlq, ⟨64, (shr 64)⟩)] : List ((MShift → Instr) × (w : Nat) × (Nat → BitVec w → BitVec w))),
      (∀ (dst : Fin 8) (cnt : Mm) (s u : State) (c : BitVec (8 * 8)), MmxReady .mmx s → Passes (readMmM 8 cnt) s.begin c u →
        Completes (p.1 (.mm dst cnt)) s ((u.setMm dst (each p.2.1 (p.2.2 c.toNat) 64 (u.mm dst))).mmxUsed)) ∧
      (∀ (dst : Fin 8) (imm : BitVec 8) (s : State), MmxReady .mmx s →
        Completes (p.1 (.mmI dst imm)) s ((s.begin.setMm dst (each p.2.1 (p.2.2 imm.toNat) 64 (s.mm dst))).mmxUsed)) ∧
      (∀ (dst : Reg) (cnt : Xm) (s u : State) (c : BitVec (8 * 16)), SseReady .sse2 s → Passes (readXm .size 16 cnt) s.begin c u →
        Completes (p.1 (.xx dst cnt)) s (u.setXmm dst (each p.2.1 (p.2.2 (c.toNat % 2 ^ 64)) 128 (u.xmm dst)))) ∧
      (∀ (dst : Reg) (imm : BitVec 8) (s : State), SseReady .sse2 s →
        Completes (p.1 (.xxI dst imm)) s (s.begin.setXmm dst (each p.2.1 (p.2.2 imm.toNat) 128 (s.xmm dst))))) ∧
  (∀ (s : State) (dst : Reg),
      (∀ src, MmxReady .sse s → Completes (.pmovmskb (.mm dst src)) s ((s.begin.setGp dst (regWrite s.isLong s.wide (s.gp dst)
        ((BitVec.ofNat 64 (topBits 8 (s.mm src))).setWidth s.wide.bits))).mmxUsed)) ∧
      (∀ src, SseReady .sse2 s → Completes (.pmovmskb (.xx dst src)) s (s.begin.setGp dst (regWrite s.isLong s.wide (s.gp dst)
        ((BitVec.ofNat 64 (topBits 8 (s.xmm src))).setWidth s.wide.bits)))) ∧
      (∀ src imm, MmxReady .sse s → Completes (.pextrw (.mm dst src imm)) s
        ((s.begin.setGp dst (regWrite s.isLong s.wide (s.gp dst)
          ((lane 16 (s.mm src) (imm.toNat % 4)).setWidth s.wide.bits))).mmxUsed))) ∧
  (∀ (s : State) (src : Reg) (imm : BitVec 8),
      (∀ r, SseReady .sse2 s → Completes (.pextrw (.xx r src imm)) s
        (s.begin.setGp r (regWrite s.isLong s.wide (s.gp r) ((lane 16 (s.xmm src) (imm.toNat % 8)).setWidth s.wide.bits)))) ∧
      (∀ r, SseReady .sse41 s → Completes (.pextrw (.xrm (.reg (.lo r)) src imm)) s
        (s.begin.setGp r (regWrite s.isLong s.wide (s.gp r) ((lane 16 (s.xmm src) (imm.toNat % 8)).setWidth s.wide.bits)))) ∧
      (∀ (m : MemRef) (u : State) (d : Place), SseReady .sse41 s → Passes (place .write .w16 (.mem m)) s.begin d u →
        Completes (.pextrw (.xrm (.mem m) src imm)) s (u.setPlace .w16 d (lane 16 (s.xmm src) (imm.toNat % 8))))) ∧
  (∀ (src : Rm) (imm : BitVec 8) (s u : State) (v : BitVec 16), Passes (readInsert .w16 src) s.begin v u →
      (∀ dst, MmxReady .sse s →
        Completes (.pinsrw (.mm dst src imm)) s ((u.setMm dst (replaceLane (u.mm dst) (imm.toNat % 4) v)).mmxUsed)) ∧
      (∀ dst, SseReady .sse2 s →
        Completes (.pinsrw (.xx dst src imm)) s (u.setXmm dst (replaceLane (u.xmm dst) (imm.toNat % 8) v)))) ∧
  (∀ s : State, MmxReady .mmx s → Completes .emms s { s.begin with fpu := { s.fpu with ftw := 0xFFFF } }) ∧
  (∀ (o : MemM) (s u : State) (as : List Nat), MmxReady .sse s → Passes (resolveMem .write o.mem 8) s.begin as u →
      Completes (.movntq o) s ((u.physWrite as (u.mm o.src).toNat).mmxUsed)) ∧
  (∀ (o : MMask) (s u : State) (ps : List (List Nat × Nat)), MmxReady .sse s →
      Passes (maskedBytes (o.ovr.getD .ds) (o.a.trunc (s.gp rDI))
        (List.zip ((lanes 8 (s.mm o.mask)).map (·.msb)) (lanes 8 (s.mm o.src))) 0) s.begin ps u →
      Completes (.maskmovq o) s ((u.withParts ps).mmxUsed))

/-- The VEX-encoded instructions without numeric exceptions. Each entry is a constructor with its features by vector length
and its operation on 128 bits. -/
def Obligations.AvxIntegerResults : Prop :=
  (∀ p ∈ ([
        (.vaesdec, aesAvx, aesDec), (.vaesdeclast, aesAvx, aesDecLast), (.vaesenc, aesAvx, aesEnc),
        (.vaesenclast, aesAvx, aesEncLast), (.vandpd, avx, (andVec 128)), (.vandps, avx, (andVec 128)),
        (.vandnpd, avx, (andNot 128)), (.vandnps, avx, (andNot 128)), (.vorpd, avx, (orVec 128)), (.vorps, avx, (orVec 128)),
        (.vpacksswb, avxInt, ((packTo 16 (satS 8)) 128)), (.vpackssdw, avxInt, ((packTo 32 (satS 16)) 128)),
        (.vpackusdw, avxInt, ((packTo 32 (satU 16)) 128)), (.vpackuswb, avxInt, ((packTo 16 (satU 8)) 128)),
        (.vpaddb, avxInt, ((zip 8 fun x y => x + y) 128)), (.vpaddw, avxInt, ((zip 16 fun x y => x + y) 128)),
        (.vpaddd, avxInt, ((zip 32 fun x y => x + y) 128)), (.vpaddq, avxInt, ((zip 64 fun x y => x + y) 128)),
        (.vpaddsb, avxInt, ((zip 8 fun x y => satS 8 (x.toInt + y.toInt)) 128)),
        (.vpaddsw, avxInt, ((zip 16 fun x y => satS 16 (x.toInt + y.toInt)) 128)),
        (.vpaddusb, avxInt, ((zip 8 fun x y => satU 8 (x.toNat + y.toNat)) 128)),
        (.vpaddusw, avxInt, ((zip 16 fun x y => satU 16 (x.toNat + y.toNat)) 128)), (.vpand, avxInt, (andVec 128)),
        (.vpandn, avxInt, (andNot 128)), (.vpavgb, avxInt, ((zip 8 fun x y => avgElem x y) 128)),
        (.vpavgw, avxInt, ((zip 16 fun x y => avgElem x y) 128)),
        (.vpcmpeqb, avxInt, ((zip 8 fun x y => maskOf 8 (x == y)) 128)),
        (.vpcmpeqw, avxInt, ((zip 16 fun x y => maskOf 16 (x == y)) 128)),
        (.vpcmpeqd, avxInt, ((zip 32 fun x y => maskOf 32 (x == y)) 128)),
        (.vpcmpeqq, avxInt, ((zip 64 fun x y => maskOf 64 (x == y)) 128)),
        (.vpcmpgtb, avxInt, ((zip 8 fun x y => maskOf 8 (decide (y.toInt < x.toInt))) 128)),
        (.vpcmpgtw, avxInt, ((zip 16 fun x y => maskOf 16 (decide (y.toInt < x.toInt))) 128)),
        (.vpcmpgtd, avxInt, ((zip 32 fun x y => maskOf 32 (decide (y.toInt < x.toInt))) 128)),
        (.vpcmpgtq, avxInt, ((zip 64 fun x y => maskOf 64 (decide (y.toInt < x.toInt))) 128)),
        (.vphaddw, avxInt, ((horizontal 16 fun x y => x + y) 128)),
        (.vphaddd, avxInt, ((horizontal 32 fun x y => x + y) 128)),
        (.vphaddsw, avxInt, ((horizontal 16 fun x y => satS 16 (x.toInt + y.toInt)) 128)),
        (.vphsubw, avxInt, ((horizontal 16 fun x y => x - y) 128)),
        (.vphsubd, avxInt, ((horizontal 32 fun x y => x - y) 128)),
        (.vphsubsw, avxInt, ((horizontal 16 fun x y => satS 16 (x.toInt - y.toInt)) 128)),
        (.vpmaddubsw, avxInt, ((zip 16 maddUbs) 128)), (.vpmaddwd, avxInt, ((zip 32 maddWd) 128)),
        (.vpmaxsb, avxInt, ((zip 8 fun x y => if y.toInt < x.toInt then x else y) 128)),
        (.vpmaxsd, avxInt, ((zip 32 fun x y => if y.toInt < x.toInt then x else y) 128)),
        (.vpmaxsw, avxInt, ((zip 16 fun x y => if y.toInt < x.toInt then x else y) 128)),
        (.vpmaxub, avxInt, ((zip 8 fun x y => if y.toNat < x.toNat then x else y) 128)),
        (.vpmaxud, avxInt, ((zip 32 fun x y => if y.toNat < x.toNat then x else y) 128)),
        (.vpmaxuw, avxInt, ((zip 16 fun x y => if y.toNat < x.toNat then x else y) 128)),
        (.vpminsb, avxInt, ((zip 8 fun x y => if x.toInt < y.toInt then x else y) 128)),
        (.vpminsd, avxInt, ((zip 32 fun x y => if x.toInt < y.toInt then x else y) 128)),
        (.vpminsw, avxInt, ((zip 16 fun x y => if x.toInt < y.toInt then x else y) 128)),
        (.vpminub, avxInt, ((zip 8 fun x y => if x.toNat < y.toNat then x else y) 128)),
        (.vpminud, avxInt, ((zip 32 fun x y => if x.toNat < y.toNat then x else y) 128)),
        (.vpminuw, avxInt, ((zip 16 fun x y => if x.toNat < y.toNat then x else y) 128)),
        (.vpmuldq, avxInt, ((zip 64 mulLowS) 128)), (.vpmulhrsw, avxInt, ((zip 16 mulHrs) 128)),
        (.vpmulhuw, avxInt, ((zip 16 mulHighU) 128)), (.vpmulhw, avxInt, ((zip 16 mulHigh) 128)),
        (.vpmulld, avxInt, ((zip 32 fun x y => x * y) 128)), (.vpmullw, avxInt, ((zip 16 fun x y => x * y) 128)),
        (.vpmuludq, avxInt, ((zip 64 mulLowU) 128)), (.vpor, avxInt, (orVec 128)), (.vpxor, avxInt, (xorVec 128)),
        (.vpsadbw, avxInt, ((zip 64 sadBytes) 128)), (.vpshufb, avxInt, (shuffleBytes 128)),
        (.vpsignb, avxInt, ((zip 8 fun x y => signElem x y) 128)), (.vpsignw, avxInt, ((zip 16 fun x y => signElem x y) 128)),
        (.vpsignd, avxInt, ((zip 32 fun x y => signElem x y) 128)), (.vpsubb, avxInt, ((zip 8 fun x y => x - y) 128)),
        (.vpsubw, avxInt, ((zip 16 fun x y => x - y) 128)), (.vpsubd, avxInt, ((zip 32 fun x y => x - y) 128)),
        (.vpsubq, avxInt, ((zip 64 fun x y => x - y) 128)),
        (.vpsubsb, avxInt, ((zip 8 fun x y => satS 8 (x.toInt - y.toInt)) 128)),
        (.vpsubsw, avxInt, ((zip 16 fun x y => satS 16 (x.toInt - y.toInt)) 128)),
        (.vpsubusb, avxInt, ((zip 8 fun x y => satU 8 ((x.toNat : Int) - y.toNat)) 128)),
        (.vpsubusw, avxInt, ((zip 16 fun x y => satU 16 ((x.toNat : Int) - y.toNat)) 128)),
        (.vpunpckhbw, avxInt, ((unpackHigh 8) 128)), (.vpunpckhwd, avxInt, ((unpackHigh 16) 128)),
        (.vpunpckhdq, avxInt, ((unpackHigh 32) 128)), (.vpunpckhqdq, avxInt, ((unpackHigh 64) 128)),
        (.vpunpcklbw, avxInt, (unpackLow 8 128)), (.vpunpcklwd, avxInt, (unpackLow 16 128)),
        (.vpunpckldq, avxInt, (unpackLow 32 128)), (.vpunpcklqdq, avxInt, ((unpackLow 64) 128)),
        (.vunpckhpd, avx, ((unpackHigh 64) 128)), (.vunpckhps, avx, ((unpackHigh 32) 128)),
        (.vunpcklpd, avx, ((unpackLow 64) 128)), (.vunpcklps, avx, ((unpackLow 32) 128)), (.vxorpd, avx, (xorVec 128)),
        (.vxorps, avx, (xorVec 128))] : List ((VVX → Instr) × (VLen → List Config.Feature) × (BitVec 128 → BitVec 128 → BitVec 128))),
      ∀ (o : VVX) (s u : State) (b : BitVec o.l.bits), VexReady (p.2.1 o.l) s → Passes (readVx o.l o.b) s.begin b u →
        Completes (p.1 o) s (u.setVec o.dst (halves2 p.2.2 o.l (u.vec o.l o.a) b))) ∧
  (∀ p ∈ ([
        (.vpalignr, avxInt, (fun i => alignRight i 128)), (.vpblendw, avxInt, blendW),
        (.vpclmulqdq, (fun _ => [.pclmulqdq, .avx]), clmulSel), (.vshufps, avx, shufPs)] : List ((VVXI → Instr) × (VLen → List Config.Feature) × (BitVec 8 → BitVec 128 → BitVec 128 → BitVec 128))),
      ∀ (o : VVXI) (s u : State) (b : BitVec o.l.bits), VexReady (p.2.1 o.l) s → Passes (readVx o.l o.b) s.begin b u →
        Completes (p.1 o) s (u.setVec o.dst (halves2 (p.2.2 o.imm) o.l (u.vec o.l o.a) b))) ∧
  (∀ p ∈ ([
        (.vaesimc, aesAvx, invMixColumns), (.vmovshdup, avx, (duplicate 32 true 128)),
        (.vmovsldup, avx, (duplicate 32 false 128)), (.vpabsb, avxInt, ((each 8 absElem) 128)),
        (.vpabsw, avxInt, ((each 16 absElem) 128)), (.vpabsd, avxInt, ((each 32 absElem) 128)), (.vphminposuw, avx, minPos)] : List ((VX → Instr) × (VLen → List Config.Feature) × (BitVec 128 → BitVec 128))),
      ∀ (o : VX) (s u : State) (b : BitVec o.l.bits), VexReady (p.2.1 o.l) s → Passes (readVx o.l o.src) s.begin b u →
        Completes (p.1 o) s (u.setVec o.dst (halves1 p.2.2 o.l b))) ∧
  (∀ p ∈ ([
        (.vaeskeygenassist, aesAvx, aesKeygen), (.vpshufd, avxInt, shuffleD), (.vpshufhw, avxInt, shuffleHw),
        (.vpshuflw, avxInt, shuffleLw)] : List ((VXI → Instr) × (VLen → List Config.Feature) × (BitVec 8 → BitVec 128 → BitVec 128))),
      ∀ (o : VXI) (s u : State) (b : BitVec o.l.bits), VexReady (p.2.1 o.l) s → Passes (readVx o.l o.src) s.begin b u →
        Completes (p.1 o) s (u.setVec o.dst (halves1 (p.2.2 o.imm) o.l b))) ∧
  (∀ p ∈ ([
        (.vrcpps, rcpApprox), (.vrsqrtps, rsqrtApprox)] : List ((VX → Instr) × (BitVec 32 → BitVec 32))),
      ∀ (o : VX) (s u : State) (b : BitVec o.l.bits), VexReady [.avx] s → Passes (readVx o.l o.src) s.begin b u →
        Completes (p.1 o) s (u.setVec o.dst (halves1 (each 32 p.2 128) o.l b))) ∧
  (∀ p ∈ ([
        (.vrcpss, rcpApprox), (.vrsqrtss, rsqrtApprox)] : List ((VVX → Instr) × (BitVec 32 → BitVec 32))),
      ∀ (o : VVX) (s u : State) (b : BitVec (8 * 4)), VexReady [.avx] s → Passes (readXm .free 4 o.b) s.begin b u →
        Completes (p.1 o) s (u.setVec o.dst (withLow (u.xmm o.a) (p.2 b)))) ∧
  (∀ p ∈ ([
        (.vpmovsxbw, true, 2, 8, 16), (.vpmovsxbd, true, 4, 8, 32), (.vpmovsxbq, true, 8, 8, 64), (.vpmovsxwd, true, 2, 16, 32),
        (.vpmovsxwq, true, 4, 16, 64), (.vpmovsxdq, true, 2, 32, 64), (.vpmovzxbw, false, 2, 8, 16),
        (.vpmovzxbd, false, 4, 8, 32), (.vpmovzxbq, false, 8, 8, 64), (.vpmovzxwd, false, 2, 16, 32),
        (.vpmovzxwq, false, 4, 16, 64), (.vpmovzxdq, false, 2, 32, 64)] : List ((VX → Instr) × Bool × Nat × Nat × Nat)),
      ∀ (o : VX) (s u : State) (b : BitVec (8 * (vbytes o.l / p.2.2.1))), VexReady (avxInt o.l) s →
        Passes (readXm .free (vbytes o.l / p.2.2.1) o.src) s.begin b u →
        Completes (p.1 o) s (u.setVec o.dst (extendTo p.2.1 256 p.2.2.2.1 p.2.2.2.2 b : BitVec 256))) ∧
  (∀ p ∈ ([
        (.vpsllw, ⟨16, (shl 16)⟩), (.vpslld, ⟨32, (shl 32)⟩), (.vpsllq, ⟨64, (shl 64)⟩), (.vpsraw, ⟨16, (sar 16)⟩),
        (.vpsrad, ⟨32, (sar 32)⟩), (.vpsrlw, ⟨16, (shr 16)⟩), (.vpsrld, ⟨32, (shr 32)⟩), (.vpsrlq, ⟨64, (shr 64)⟩)] : List ((VShift → Instr) × (w : Nat) × (Nat → BitVec w → BitVec w))),
      (∀ (l : VLen) (dst a : Reg) (cnt : Xm) (s u : State) (c : BitVec (8 * 16)), VexReady (avxInt l) s →
        Passes (readXm .free 16 cnt) s.begin c u →
        Completes (p.1 (.vec l dst a cnt)) s
          (u.setVec dst (each p.2.1 (p.2.2 (c.toNat % 2 ^ 64)) l.bits (u.vec l a)))) ∧
      (∀ (l : VLen) (dst src : Reg) (imm : BitVec 8) (s : State), VexReady (avxInt l) s →
        Completes (p.1 (.imm l dst src imm)) s (s.begin.setVec dst (each p.2.1 (p.2.2 imm.toNat) l.bits (s.vec l src))))) ∧
  (∀ p ∈ ([
        (.vpslldq, true), (.vpsrldq, false)] : List ((VVI → Instr) × Bool)), ∀ (o : VVI) (s : State), VexReady (avxInt o.l) s →
      Completes (p.1 o) s (s.begin.setVec o.dst (halves1 (byteShift p.2 o.imm) o.l (s.vec o.l o.src)))) ∧
  (∀ p ∈ ([
        (.vblendpd, avx, fun i _ a b => blendImm 64 i _ a b), (.vblendps, avx, fun i _ a b => blendImm 32 i _ a b),
        (.vmpsadbw, avxInt, fun i l a b => mpsadVec i l a b), (.vshufpd, avx, fun i _ a b => shufPd i _ a b),
        (.vpblendd, avx2, fun i _ a b => blendImm 32 i _ a b)] :
        List ((VVXI → Instr) × (VLen → List Config.Feature) × (BitVec 8 → (l : VLen) → BitVec l.bits → BitVec l.bits → BitVec l.bits))),
      ∀ (o : VVXI) (s u : State) (b : BitVec o.l.bits), VexReady (p.2.1 o.l) s → Passes (readVx o.l o.b) s.begin b u →
        Completes (p.1 o) s (u.setVec o.dst (p.2.2 o.imm o.l (u.vec o.l o.a) b))) ∧
  (∀ p ∈ ([(.vblendvpd, avx, 64), (.vblendvps, avx, 32), (.vpblendvb, avxInt, 8)] : List ((VVXR → Instr) × (VLen → List Config.Feature) × Nat)),
      ∀ (o : VVXR) (s u : State) (b : BitVec o.l.bits), VexReady (p.2.1 o.l) s → Passes (readVx o.l o.b) s.begin b u →
        Completes (p.1 o) s (u.setVec o.dst (blendByTop p.2.2 (u.vec o.l o.c) (u.vec o.l o.a) b))) ∧
  (∀ p ∈ ([
        (.vpsllvd, ⟨32, (shl 32)⟩), (.vpsllvq, ⟨64, (shl 64)⟩), (.vpsravd, ⟨32, (sar 32)⟩), (.vpsrlvd, ⟨32, (shr 32)⟩),
        (.vpsrlvq, ⟨64, (shr 64)⟩)] : List ((VVX → Instr) × (w : Nat) × (Nat → BitVec w → BitVec w))),
      ∀ (o : VVX) (s u : State) (b : BitVec o.l.bits), VexReady [.avx2] s → Passes (readVx o.l o.b) s.begin b u →
        Completes (p.1 o) s (u.setVec o.dst (zip p.2.1 (fun x c => p.2.2 c.toNat x) o.l.bits (u.vec o.l o.a) b))) ∧
  (∀ k ∈ ([
        .vpermd, .vpermps] : List (VVX → Instr)),
      ∀ (o : VVX) (s u : State) (b : BitVec (8 * 32)), VexReady [.avx2] s → Passes (readXm .free 32 o.b) s.begin b u →
        Completes (k o) s
          (u.setVec o.dst (ofLanes 256 ((lanes 32 (u.vec .l256 o.a)).map fun i => lane 32 b (i.toNat % 8))))) ∧
  (∀ k ∈ ([
        .vpermpd, .vpermq] : List (VXI → Instr)),
      ∀ (o : VXI) (s u : State) (b : BitVec (8 * 32)), VexReady [.avx2] s → Passes (readXm .free 32 o.src) s.begin b u →
        Completes (k o) s (u.setVec o.dst (ofLanes 256 ((List.range 4).map (selectBy 64 o.imm b))))) ∧
  ((∀ (o : VVX) (s u : State) (b : BitVec o.l.bits), VexReady [.avx] s → Passes (readVx o.l o.b) s.begin b u →
        Completes (.vpermilpd (.vec o)) s (u.setVec o.dst (permilPd (fun i => b.getLsbD (64 * i + 1)) (u.vec o.l o.a))) ∧
        Completes (.vpermilps (.vec o)) s (u.setVec o.dst (permilPs (fun i => b.extractLsb' (32 * i) 2) (u.vec o.l o.a)))) ∧
      (∀ (o : VXI) (s u : State) (b : BitVec o.l.bits), VexReady [.avx] s → Passes (readVx o.l o.src) s.begin b u →
        Completes (.vpermilpd (.imm o)) s (u.setVec o.dst (permilPd (fun i => o.imm.getLsbD i) b)) ∧
        Completes (.vpermilps (.imm o)) s (u.setVec o.dst (permilPs (fun i => o.imm.extractLsb' (2 * (i % 4)) 2) b)))) ∧
  (∀ (o : VX) (s u : State) (b : BitVec o.l.bits), VexReady [.avx] s → Passes (readVx o.l o.src) s.begin b u →
      Completes (.vptest o) s { u with flags := (u.flags.withStatus
        { zf := decide (b &&& u.vec o.l o.dst = 0), cf := decide (b &&& ~~~u.vec o.l o.dst = 0) }) } ∧
      ∀ p ∈ ([(.vtestps, 32), (.vtestpd, 64)] : List ((VX → Instr) × Nat)),
        Completes (p.1 o) s { u with flags := (u.flags.withStatus
          { zf := decide (BitVec.ofNat 8 (topBits p.2 b) &&& BitVec.ofNat 8 (topBits p.2 (u.vec o.l o.dst)) = 0)
            cf := decide (BitVec.ofNat 8 (topBits p.2 b) &&& ~~~BitVec.ofNat 8 (topBits p.2 (u.vec o.l o.dst)) = 0) }) })

/-- VEX-encoded floating-point instructions with every exception masked: destination, or flags, and MXCSR. -/
def Obligations.AvxFloatResults : Prop :=
  (∀ p ∈ ([
        (.vaddpd, (packed 64 (fpAdd f64))), (.vaddps, (packed 32 (fpAdd f32))), (.vaddsubpd, (fpAddSub f64)),
        (.vaddsubps, (fpAddSub f32)), (.vdivpd, (packed 64 (fpDiv f64))), (.vdivps, (packed 32 (fpDiv f32))),
        (.vhaddpd, (fpHorizontal f64 (swapped (fpAdd f64)))), (.vhaddps, (fpHorizontal f32 (swapped (fpAdd f32)))),
        (.vhsubpd, (fpHorizontal f64 (fpSub f64))), (.vhsubps, (fpHorizontal f32 (fpSub f32))),
        (.vmaxpd, (packed 64 (fpMinMax f64 .greater))), (.vmaxps, (packed 32 (fpMinMax f32 .greater))),
        (.vminpd, (packed 64 (fpMinMax f64 .less))), (.vminps, (packed 32 (fpMinMax f32 .less))),
        (.vmulpd, (packed 64 (fpMul f64))), (.vmulps, (packed 32 (fpMul f32))), (.vsubpd, (packed 64 (fpSub f64))),
        (.vsubps, (packed 32 (fpSub f32)))] : List ((VVX → Instr) × FpOp2)),
      ∀ (o : VVX) (s u : State) (b : BitVec o.l.bits), VexReady [.avx] s → SimdMasked s → Passes (readVx o.l o.b) s.begin b u →
        let r := fpHalves p.2 (mxcsrEnv u.mxcsr) o.l (u.vec o.l o.a) b
        Completes (p.1 o) s ((u.flagged r.flags).setVec o.dst r.val)) ∧
  (∀ p ∈ ([
        (.vsqrtpd, 64, (fpSqrt f64)), (.vsqrtps, 32, (fpSqrt f32))] : List ((VX → Instr) × Nat × Fp1)),
      ∀ (o : VX) (s u : State) (b : BitVec o.l.bits), VexReady [.avx] s → SimdMasked s → Passes (readVx o.l o.src) s.begin b u →
        let r := fpEach p.2.1 p.2.2 (mxcsrEnv u.mxcsr) b
        Completes (p.1 o) s ((u.flagged r.flags).setVec o.dst r.val)) ∧
  (∀ p ∈ ([
        (.vaddsd, 8, 64, (fpAdd f64)), (.vaddss, 4, 32, (fpAdd f32)), (.vcvtsd2ss, 8, 32, (onSecond (fpConvert f64 f32))),
        (.vcvtss2sd, 4, 64, (onSecond (fpConvert f32 f64))), (.vdivsd, 8, 64, (fpDiv f64)), (.vdivss, 4, 32, (fpDiv f32)),
        (.vmaxsd, 8, 64, (fpMinMax f64 .greater)), (.vmaxss, 4, 32, (fpMinMax f32 .greater)),
        (.vminsd, 8, 64, (fpMinMax f64 .less)), (.vminss, 4, 32, (fpMinMax f32 .less)), (.vmulsd, 8, 64, (fpMul f64)),
        (.vmulss, 4, 32, (fpMul f32)), (.vsqrtsd, 8, 64, (onSecond (fpSqrt f64))), (.vsqrtss, 4, 32, (onSecond (fpSqrt f32))),
        (.vsubsd, 8, 64, (fpSub f64)), (.vsubss, 4, 32, (fpSub f32))] : List ((VVX → Instr) × Nat × Nat × Fp2)),
      ∀ (o : VVX) (s u : State) (b : BitVec (8 * p.2.1)), VexReady [.avx] s → SimdMasked s →
        Passes (readXm .free p.2.1 o.b) s.begin b u →
        let r := p.2.2.2 (mxcsrEnv u.mxcsr) ((u.xmm o.a).toNat % 2 ^ (8 * p.2.1)) b.toNat
        Completes (p.1 o) s ((u.flagged r.flags).setVec o.dst (withLow (u.xmm o.a) (BitVec.ofNat p.2.2.1 r.bits)))) ∧
  (∀ p ∈ ([(.vroundpd, f64), (.vroundps, f32)] : List ((VXI → Instr) × FpFmt)),
      ∀ (o : VXI) (s u : State) (b : BitVec o.l.bits), VexReady [.avx] s → SimdMasked s → Passes (readVx o.l o.src) s.begin b u →
        let r := fpEach p.2.width (roundOp p.2 o.imm) (mxcsrEnv u.mxcsr) b
        Completes (p.1 o) s ((u.flagged r.flags).setVec o.dst r.val)) ∧
  (∀ p ∈ ([(.vroundsd, f64), (.vroundss, f32)] : List ((VVXI → Instr) × FpFmt)),
      ∀ (o : VVXI) (s u : State) (b : BitVec (8 * (p.2.width / 8))), VexReady [.avx] s → SimdMasked s →
        Passes (readXm .free (p.2.width / 8) o.b) s.begin b u →
        let r := roundOp p.2 o.imm (mxcsrEnv u.mxcsr) b.toNat
        Completes (p.1 o) s ((u.flagged r.flags).setVec o.dst (withLow (u.xmm o.a) (BitVec.ofNat p.2.width r.bits)))) ∧
  (∀ p ∈ ([
        (.vcmppd, f64), (.vcmpps, f32)] : List ((VVXI → Instr) × FpFmt)),
      ∀ (o : VVXI) (s u : State) (b : BitVec o.l.bits), o.imm.toNat < 2 ^ 5 → VexReady [.avx] s → SimdMasked s →
        Passes (readVx o.l o.b) s.begin b u →
        let r := fpHalves (packed p.2.width (fpPredicate p.2 o.imm.toNat)) (mxcsrEnv u.mxcsr) o.l (u.vec o.l o.a) b
        Completes (p.1 o) s ((u.flagged r.flags).setVec o.dst r.val)) ∧
  (∀ p ∈ ([
        (.vcmpsd, f64), (.vcmpss, f32)] : List ((VVXI → Instr) × FpFmt)),
      ∀ (o : VVXI) (s u : State) (b : BitVec (8 * (p.2.width / 8))), o.imm.toNat < 2 ^ 5 → VexReady [.avx] s → SimdMasked s →
        Passes (readXm .free (p.2.width / 8) o.b) s.begin b u →
        let r := fpPredicate p.2 o.imm.toNat (mxcsrEnv u.mxcsr) ((u.xmm o.a).toNat % 2 ^ (8 * (p.2.width / 8))) b.toNat
        Completes (p.1 o) s ((u.flagged r.flags).setVec o.dst (withLow (u.xmm o.a) (BitVec.ofNat p.2.width r.bits)))) ∧
  (∀ p ∈ ([
        (.vdppd, f64), (.vdpps, f32)] : List ((VVXI → Instr) × FpFmt)),
      ∀ (o : VVXI) (s u : State) (b : BitVec o.l.bits), VexReady [.avx] s → SimdMasked s → Passes (readVx o.l o.b) s.begin b u →
        ∃ (v : BitVec o.l.bits) (x : BitVec 32) (n : Nat),
          Passes (dotProduct p.2 o.imm (u.vec o.l o.a) b) u v { u with mxcsr := x, free := n } ∧
          Completes (p.1 o) s ({ u with mxcsr := x, free := n }.setVec o.dst v)) ∧
  (∀ p ∈ ([
        (.vcvtdq2pd, halfBytes, 32, 64, (fromInt 32 f64)), (.vcvtdq2ps, vbytes, 32, 32, (fromInt 32 f32)),
        (.vcvtpd2dq, vbytes, 64, 32, (fpToInt f64 32)), (.vcvtpd2ps, vbytes, 64, 32, (fpConvert f64 f32)),
        (.vcvtps2dq, vbytes, 32, 32, (fpToInt f32 32)), (.vcvtps2pd, halfBytes, 32, 64, (fpConvert f32 f64)),
        (.vcvttpd2dq, vbytes, 64, 32, (truncating (fpToInt f64 32))),
        (.vcvttps2dq, vbytes, 32, 32, (truncating (fpToInt f32 32)))] : List ((VX → Instr) × (VLen → Nat) × Nat × Nat × Fp1)),
      ∀ (o : VX) (s u : State) (b : BitVec (8 * p.2.1 o.l)), VexReady [.avx] s → SimdMasked s →
        Passes (readXm .free (p.2.1 o.l) o.src) s.begin b u →
        let r := fpMap 256 p.2.2.1 p.2.2.2.1 p.2.2.2.2 (mxcsrEnv u.mxcsr) b
        Completes (p.1 o) s ((u.flagged r.flags).setVec o.dst r.val)) ∧
  (∀ p ∈ ([(.vcvtsd2si, f64, false), (.vcvttsd2si, f64, true), (.vcvtss2si, f32, false),
        (.vcvttss2si, f32, true)] : List ((GX → Instr) × FpFmt × Bool)),
      ∀ (o : GX) (s u : State) (b : BitVec (8 * (p.2.1.width / 8))), VexReady [.avx] s → SimdMasked s →
        Passes (readXm .free (p.2.1.width / 8) o.src) s.begin b u →
        let op := fpToInt p.2.1 o.w.bits
        let r := (if p.2.2 then truncating op else op) (mxcsrEnv u.mxcsr) b.toNat
        Completes (p.1 o) s ((u.flagged r.flags).setGpVal o.w (.lo o.dst) (BitVec.ofNat o.w.bits r.bits))) ∧
  (∀ p ∈ ([
        (.vcvtsi2sd, f64), (.vcvtsi2ss, f32)] : List ((VXG → Instr) × FpFmt)),
      ∀ (o : VXG) (s u : State) (b : BitVec o.w.bits), VexReady [.avx] s → SimdMasked s → Passes (readRm o.w o.src) s.begin b u →
        let r := fromInt o.w.bits p.2 (mxcsrEnv u.mxcsr) b.toNat
        Completes (p.1 o) s ((u.flagged r.flags).setVec o.dst (withLow (u.xmm o.a) (BitVec.ofNat p.2.width r.bits)))) ∧
  (∀ p ∈ ([
        (.vcomisd, f64, true), (.vcomiss, f32, true), (.vucomisd, f64, false), (.vucomiss, f32, false)] : List ((VX → Instr) × FpFmt × Bool)),
      ∀ (o : VX) (s u : State) (b : BitVec (8 * (p.2.1.width / 8))), VexReady [.avx] s → SimdMasked s →
        Passes (readXm .free (p.2.1.width / 8) o.src) s.begin b u →
        let r := fpCompare p.2.1 p.2.2 (mxcsrEnv u.mxcsr) ((u.xmm o.dst).toNat % 2 ^ p.2.1.width) b.toNat
        Completes (p.1 o) s { u.flagged r.2 with flags := u.flags.ofOrder r.1 }) ∧
  (∀ (o : VX) (s u : State) (b : BitVec (8 * halfBytes o.l)), VexReady [.f16c] s → SimdMasked s →
      Passes (readXm .silent (halfBytes o.l) o.src) s.begin b u →
      let r := fpMap 256 16 32 fromHalf (mxcsrEnv u.mxcsr) b
      Completes (.vcvtph2ps o) s ((u.flagged r.flags).setVec o.dst r.val)) ∧
  (∀ (l : VLen) (src : Reg) (imm : BitVec 8) (s : State), VexReady [.f16c] s → SimdMasked s →
      (∀ dst, let r := fpMap 128 32 16 (toHalf imm) (mxcsrEnv s.mxcsr) (s.vec l src)
        Completes (.vcvtps2ph ⟨l, .reg dst, src, imm⟩) s ((s.begin.flagged r.flags).setVec dst r.val)) ∧
      (∀ (m : MemRef) (u : State) (as : List Nat),
        Passes (resolve m.seg .write 1 1 (s.begin.ea m) (halfBytes l)) s.begin as u →
        let r := fpMap 128 32 16 (toHalf imm) (mxcsrEnv u.mxcsr) (s.vec l src)
        Completes (.vcvtps2ph ⟨l, .mem m, src, imm⟩) s ((u.flagged r.flags).physWrite as r.val.toNat)))

/-- The fused operations. Each entry is a constructor, the format, the operand order, whether the product is negated, and
whether the addend is negated (for even and for odd elements in the packed forms). -/
def Obligations.FmaResults : Prop :=
  (∀ p ∈ ([
        (.vfmadd132pd, f64, .o132, false, false, false), (.vfmadd213pd, f64, .o213, false, false, false),
        (.vfmadd231pd, f64, .o231, false, false, false), (.vfmadd132ps, f32, .o132, false, false, false),
        (.vfmadd213ps, f32, .o213, false, false, false), (.vfmadd231ps, f32, .o231, false, false, false),
        (.vfmaddsub132pd, f64, .o132, false, true, false), (.vfmaddsub213pd, f64, .o213, false, true, false),
        (.vfmaddsub231pd, f64, .o231, false, true, false), (.vfmaddsub132ps, f32, .o132, false, true, false),
        (.vfmaddsub213ps, f32, .o213, false, true, false), (.vfmaddsub231ps, f32, .o231, false, true, false),
        (.vfmsubadd132pd, f64, .o132, false, false, true), (.vfmsubadd213pd, f64, .o213, false, false, true),
        (.vfmsubadd231pd, f64, .o231, false, false, true), (.vfmsubadd132ps, f32, .o132, false, false, true),
        (.vfmsubadd213ps, f32, .o213, false, false, true), (.vfmsubadd231ps, f32, .o231, false, false, true),
        (.vfmsub132pd, f64, .o132, false, true, true), (.vfmsub213pd, f64, .o213, false, true, true),
        (.vfmsub231pd, f64, .o231, false, true, true), (.vfmsub132ps, f32, .o132, false, true, true),
        (.vfmsub213ps, f32, .o213, false, true, true), (.vfmsub231ps, f32, .o231, false, true, true),
        (.vfnmadd132pd, f64, .o132, true, false, false), (.vfnmadd213pd, f64, .o213, true, false, false),
        (.vfnmadd231pd, f64, .o231, true, false, false), (.vfnmadd132ps, f32, .o132, true, false, false),
        (.vfnmadd213ps, f32, .o213, true, false, false), (.vfnmadd231ps, f32, .o231, true, false, false),
        (.vfnmsub132pd, f64, .o132, true, true, true), (.vfnmsub213pd, f64, .o213, true, true, true),
        (.vfnmsub231pd, f64, .o231, true, true, true), (.vfnmsub132ps, f32, .o132, true, true, true),
        (.vfnmsub213ps, f32, .o213, true, true, true), (.vfnmsub231ps, f32, .o231, true, true, true)] : List ((VVX → Instr) × FpFmt × FmaOrder × Bool × Bool × Bool)),
      ∀ (o : VVX) (s u : State) (c : BitVec o.l.bits), VexReady [.fma] s → SimdMasked s → Passes (readVx o.l o.b) s.begin c u →
        let r := fmaResult p.2.1 p.2.2.1 p.2.2.2.1 p.2.2.2.2.1 p.2.2.2.2.2 (mxcsrEnv u.mxcsr) (u.vec o.l o.dst) (u.vec o.l o.a) c
        Completes (p.1 o) s ((u.flagged r.flags).setVec o.dst r.val)) ∧
  (∀ p ∈ ([
        (.vfmadd132sd, f64, .o132, false, false), (.vfmadd213sd, f64, .o213, false, false),
        (.vfmadd231sd, f64, .o231, false, false), (.vfmadd132ss, f32, .o132, false, false),
        (.vfmadd213ss, f32, .o213, false, false), (.vfmadd231ss, f32, .o231, false, false),
        (.vfmsub132sd, f64, .o132, false, true), (.vfmsub213sd, f64, .o213, false, true),
        (.vfmsub231sd, f64, .o231, false, true), (.vfmsub132ss, f32, .o132, false, true),
        (.vfmsub213ss, f32, .o213, false, true), (.vfmsub231ss, f32, .o231, false, true),
        (.vfnmadd132sd, f64, .o132, true, false), (.vfnmadd213sd, f64, .o213, true, false),
        (.vfnmadd231sd, f64, .o231, true, false), (.vfnmadd132ss, f32, .o132, true, false),
        (.vfnmadd213ss, f32, .o213, true, false), (.vfnmadd231ss, f32, .o231, true, false),
        (.vfnmsub132sd, f64, .o132, true, true), (.vfnmsub213sd, f64, .o213, true, true),
        (.vfnmsub231sd, f64, .o231, true, true), (.vfnmsub132ss, f32, .o132, true, true),
        (.vfnmsub213ss, f32, .o213, true, true), (.vfnmsub231ss, f32, .o231, true, true)] : List ((VVX → Instr) × FpFmt × FmaOrder × Bool × Bool)),
      ∀ (o : VVX) (s u : State) (c : BitVec (8 * (p.2.1.width / 8))), VexReady [.fma] s → SimdMasked s →
        Passes (readXm .free (p.2.1.width / 8) o.b) s.begin c u →
        let r := fpFma p.2.1 p.2.2.1 p.2.2.2.1 p.2.2.2.2 (mxcsrEnv u.mxcsr) ((u.xmm o.dst).toNat % 2 ^ p.2.1.width)
          ((u.xmm o.a).toNat % 2 ^ p.2.1.width) c.toNat
        Completes (p.1 o) s ((u.flagged r.flags).setVec o.dst (withLow (u.xmm o.dst) (BitVec.ofNat p.2.1.width r.bits))))

/-- The VEX-encoded moves. A form with a memory destination writes the addresses `as` that its operand resolves to. -/
def Obligations.AvxMoveResults : Prop :=
  (∀ p ∈ ([
        (.vmovapd, .size), (.vmovaps, .size), (.vmovdqa, .size), (.vmovdqu, .loose), (.vmovupd, .loose), (.vmovups, .loose)] : List ((VMov → Instr) × Align)), ∀ (l : VLen), ∀ s, VexReady [.avx] s →
      (∀ (dst : Reg) (src : Xm) (u : State) (b : BitVec (8 * vbytes l)), Passes (readXm p.2 (vbytes l) src) s.begin b u →
        Completes (p.1 (.load l dst src)) s (u.setVec dst b)) ∧
      (∀ (dst src : Reg), Completes (p.1 (.store l (.reg dst) src)) s (s.begin.setVec dst (s.vec l src))) ∧
      (∀ (m : MemRef) (src : Reg) (u : State) (as : List Nat), Passes (resolveVec .write p.2 m (vbytes l)) s.begin as u →
        Completes (p.1 (.store l (.mem m) src)) s (u.physWrite as ((s.vec l src).toNat % 2 ^ (8 * vbytes l))))) ∧
  (∀ (l : VLen) (s : State), VexReady [.avx] s →
      (∀ (dst : Reg) (src : Xm) (u : State) (b : BitVec (8 * 8)), Passes (readXm .free 8 src) s.begin b u →
        Completes (.vmovqX (.load l dst src)) s (u.setVec dst b)) ∧
      (∀ (dst src : Reg), Completes (.vmovqX (.store l (.reg dst) src)) s (s.begin.setVec dst ((s.xmm src).setWidth 64))) ∧
      (∀ (m : MemRef) (src : Reg) (u : State) (as : List Nat), Passes (resolveVec .write .free m 8) s.begin as u →
        Completes (.vmovqX (.store l (.mem m) src)) s (u.physWrite as ((s.xmm src).toNat % 2 ^ (8 * 8))))) ∧
  (∀ p ∈ ([
        (.vmovsd, 8), (.vmovss, 4)] : List ((VScalarMov → Instr) × Nat)), ∀ s, VexReady [.avx] s →
      (∀ (dst a b : Reg), Completes (p.1 (.reg dst a b)) s
        (s.begin.setVec dst (withLow (s.xmm a) ((s.xmm b).setWidth (8 * p.2))))) ∧
      (∀ (dst : Reg) (m : MemRef) (u : State) (b : BitVec (8 * p.2)), Passes (readXm .free p.2 (.mem m)) s.begin b u →
        Completes (p.1 (.load dst m)) s (u.setVec dst b)) ∧
      (∀ (m : MemRef) (src : Reg) (u : State) (as : List Nat), Passes (resolveVec .write .free m p.2) s.begin as u →
        Completes (p.1 (.store m src)) s (u.physWrite as ((s.xmm src).toNat % 2 ^ (8 * p.2))))) ∧
  (∀ p ∈ ([
        (.vmovhpd, true), (.vmovhps, true), (.vmovlpd, false), (.vmovlps, false)] : List ((VHalfMov → Instr) × Bool)), ∀ s, VexReady [.avx] s →
      (∀ (dst a : Reg) (m : MemRef) (u : State) (v : BitVec (8 * 8)), Passes (readXm .free 8 (.mem m)) s.begin v u →
        Completes (p.1 (.load dst a m)) s
          (u.setVec dst (if p.2 then quads v (lane 64 (u.xmm a) 0) else quads (lane 64 (u.xmm a) 1) v))) ∧
      (∀ (m : MemRef) (src : Reg) (u : State) (as : List Nat), Passes (resolveVec .write .free m 8) s.begin as u →
        Completes (p.1 (.store m src)) s (u.physWrite as ((lane 64 (s.xmm src) p.2.toNat).toNat % 2 ^ (8 * 8))))) ∧
  (∀ k ∈ ([
        .vmovntdq, .vmovntpd, .vmovntps] : List (VMemX → Instr)),
      ∀ (o : VMemX) (s u : State) (as : List Nat), VexReady [.avx] s →
        Passes (resolveVec .write .size o.mem (vbytes o.l)) s.begin as u →
        Completes (k o) s (u.physWrite as ((s.vec o.l o.src).toNat % 2 ^ (8 * vbytes o.l)))) ∧
  (∀ p ∈ ([
        (.vmovd, .w32), (.vmovqGp, .w64)] : List ((VMovd → Instr) × Width)), ∀ s, VexReady [.avx] s →
      (∀ (dst : Reg) (src : Rm) (u : State) (v : BitVec p.2.bits), Passes (readRm p.2 src) s.begin v u →
        Completes (p.1 (.load dst src)) s (u.setVec dst v)) ∧
      (∀ (dst : Rm) (src : Reg) (u : State) (d : Place), Passes (place .write p.2 dst) s.begin d u →
        Completes (p.1 (.store dst src)) s (u.setPlace p.2 d ((s.xmm src).setWidth p.2.bits)))) ∧
  (∀ p ∈ ([
        (.vbroadcastss, avxOrAvx2, 4), (.vbroadcastsd, avxOrAvx2, 8), (.vpbroadcastb, (fun _ => [.avx2]), 1),
        (.vpbroadcastw, (fun _ => [.avx2]), 2), (.vpbroadcastd, (fun _ => [.avx2]), 4), (.vpbroadcastq, (fun _ => [.avx2]), 8)] : List ((VX → Instr) × (Bool → List Config.Feature) × Nat)),
      ∀ (o : VX) (s u : State) (v : BitVec (8 * p.2.2)),
        VexReady (p.2.1 (match o.src with | .reg _ => true | .mem _ => false)) s → Passes (readXm (if p.2.2 < 4 then .silent else .free) p.2.2 o.src) s.begin v u →
        Completes (p.1 o) s (u.setVec o.dst (broadcast o.l.bits (8 * p.2.2) v))) ∧
  (∀ p ∈ ([
        (.vbroadcastf128, .avx), (.vbroadcasti128, .avx2)] : List ((VXMem → Instr) × Config.Feature)),
      ∀ (o : VXMem) (s u : State) (v : BitVec (8 * 16)), VexReady [p.2] s → Passes (readXm .free 16 (.mem o.mem)) s.begin v u →
        Completes (p.1 o) s (u.setVec o.dst (v ++ v))) ∧
  (∀ (o : VXMem) (s u : State) (v : BitVec (8 * vbytes o.l)),
      (VexReady [.avx] s → Passes (readXm .loose (vbytes o.l) (.mem o.mem)) s.begin v u →
        Completes (.vlddqu o) s (u.setVec o.dst v)) ∧
      (VexReady (avxInt o.l) s → Passes (readXm .size (vbytes o.l) (.mem o.mem)) s.begin v u →
        Completes (.vmovntdqa o) s (u.setVec o.dst v))) ∧
  (∀ (s : State), VexReady [.avx] s →
      (∀ (dst : Reg) (src : Xm) (u : State) (v : BitVec (8 * 8)), Passes (readXm .free 8 src) s.begin v u →
        Completes (.vmovddup ⟨.l128, dst, src⟩) s (u.setVec dst (broadcast 128 64 v))) ∧
      (∀ (dst : Reg) (src : Xm) (u : State) (v : BitVec (8 * 32)), Passes (readXm .free 32 src) s.begin v u →
        Completes (.vmovddup ⟨.l256, dst, src⟩) s (u.setVec dst (duplicate 64 false 256 v))) ∧
      (∀ o : VReg3, Completes (.vmovhlps o) s (s.begin.setVec o.dst (quads (lane 64 (s.xmm o.a) 1) (lane 64 (s.xmm o.b) 1))) ∧
        Completes (.vmovlhps o) s (s.begin.setVec o.dst (quads (lane 64 (s.xmm o.b) 0) (lane 64 (s.xmm o.a) 0)))) ∧
      (∀ (o : VVXI) (u : State) (x : BitVec 32), Passes (insertPsSource o.imm o.b) s.begin x u →
        Completes (.vinsertps o) s (u.setVec o.dst (insertPs o.imm (u.xmm o.a) x))) ∧
      (∀ p ∈ ([(.vpinsrb, .w8), (.vpinsrd, .w32), (.vpinsrq, .w64), (.vpinsrw, .w16)] : List ((VInsOps → Instr) × Width)),
        ∀ (o : VInsOps) (u : State) (v : BitVec p.2.bits), Passes (readInsert p.2 o.src) s.begin v u →
          Completes (p.1 o) s (u.setVec o.dst (replaceLane (u.xmm o.a) (o.imm.toNat % (128 / p.2.bits)) v)))) ∧
  (∀ p ∈ ([(.vmovmskpd, avx, 64), (.vmovmskps, avx, 32), (.vpmovmskb, avxInt, 8)] : List ((VGMask → Instr) × (VLen → List Config.Feature) × Nat)),
      ∀ (o : VGMask) (s : State), VexReady (p.2.1 o.l) s →
        Completes (p.1 o) s (s.begin.setGp o.dst (regWrite s.isLong s.wide (s.gp o.dst)
          ((BitVec.ofNat 64 (topBits p.2.2 (s.vec o.l o.src))).setWidth s.wide.bits)))) ∧
  (∀ p ∈ ([
        (.vextractf128, .avx), (.vextracti128, .avx2)] : List ((VExtOps → Instr) × Config.Feature)), ∀ (l : VLen) (src : Reg) (imm : BitVec 8) (s : State), VexReady [p.2] s →
      (∀ dst, Completes (p.1 ⟨l, .reg dst, src, imm⟩) s (s.begin.setVec dst (lane 128 (s.vec .l256 src) (imm.getLsbD 0).toNat))) ∧
      (∀ (m : MemRef) (u : State) (as : List Nat), Passes (resolveVec .write .free m 16) s.begin as u →
        Completes (p.1 ⟨l, .mem m, src, imm⟩) s
          (u.physWrite as ((lane 128 (s.vec .l256 src) (imm.getLsbD 0).toNat).toNat % 2 ^ (8 * 16))))) ∧
  (∀ p ∈ ([
        (.vinsertf128, .avx), (.vinserti128, .avx2)] : List ((VVXI → Instr) × Config.Feature)),
      ∀ (o : VVXI) (s u : State) (v : BitVec (8 * 16)), VexReady [p.2] s → Passes (readXm .free 16 o.b) s.begin v u →
        Completes (p.1 o) s (u.setVec o.dst
          (if o.imm.getLsbD 0 then v ++ lane 128 (u.vec .l256 o.a) 0 else lane 128 (u.vec .l256 o.a) 1 ++ v))) ∧
  (∀ p ∈ ([
        (.vperm2i128, .avx2), (.vperm2f128, .avx)] : List ((VVXI → Instr) × Config.Feature)),
      ∀ (o : VVXI) (s u : State) (b : BitVec (8 * 32)), VexReady [p.2] s → Passes (readXm .free 32 o.b) s.begin b u →
        Completes (p.1 o) s (u.setVec o.dst (permHalf (o.imm.extractLsb' 4 4) (u.vec .l256 o.a) b ++
          permHalf (o.imm.extractLsb' 0 4) (u.vec .l256 o.a) b))) ∧
  (∀ p ∈ ([
        (.vmaskmovps, .avx, 4), (.vmaskmovpd, .avx, 8), (.vpmaskmovd, .avx2, 4), (.vpmaskmovq, .avx2, 8)] : List ((VMaskMov → Instr) × Config.Feature × Nat)), ∀ s, VexReady [p.2.1] s →
      (∀ (l : VLen) (dst mask : Reg) (m : MemRef) (u : State) (ps : List (Option (List Nat))),
        Passes (maskedParts .read m p.2.2 ((lanes (8 * p.2.2) (s.vec l mask)).map (·.msb)) 0) s.begin ps u →
        Completes (p.1 (.load l dst mask m)) s
          (u.setVec dst (ofLanes l.bits (ps.map fun q => match q with
            | some as => BitVec.ofNat (8 * p.2.2) (u.mem.readList as)
            | none => 0)))) ∧
      (∀ (l : VLen) (m : MemRef) (mask src : Reg) (u : State) (ps : List (Option (List Nat))),
        Passes (maskedParts .write m p.2.2 ((lanes (8 * p.2.2) (s.vec l mask)).map (·.msb)) 0) s.begin ps u →
        Completes (p.1 (.store l m mask src)) s
          (u.withParts ((List.zip ps (lanes (8 * p.2.2) (u.vec l src))).filterMap fun (q, v) => q.map fun as => (as, v.toNat))))) ∧
  (∀ p ∈ ([
        (.vgatherdpd, (gatherShape 32 64)), (.vgatherqpd, (gatherShape 64 64)), (.vgatherdps, (gatherShape 32 32)),
        (.vgatherqps, (gatherShape 64 32)), (.vpgatherdd, (gatherShape 32 32)), (.vpgatherqd, (gatherShape 64 32)),
        (.vpgatherdq, (gatherShape 32 64)), (.vpgatherqq, (gatherShape 64 64))] : List ((VGather → Instr) × (VLen → GatherShape))),
      ∀ (o : VGather) (s u : State), o.dst ≠ o.mask ∧ o.dst ≠ o.mem.index ∧ o.mask ≠ o.mem.index → VexReady [.avx2] s →
        Gathered (p.2 o.l) o s.begin (List.range (p.2 o.l).count) s.begin u →
        Completes (p.1 o) s
          { u with ymm := (u.ymm.set o.dst
              (((u.ymm.get o.dst).setWidth ((p.2 o.l).dw * (p.2 o.l).count)).setWidth 256)).set o.mask 0 }) ∧
  (∀ p ∈ ([
        (.vgatherdpd, (gatherShape 32 64)), (.vgatherqpd, (gatherShape 64 64)), (.vgatherdps, (gatherShape 32 32)),
        (.vgatherqps, (gatherShape 64 32)), (.vpgatherdd, (gatherShape 32 32)), (.vpgatherqd, (gatherShape 64 32)),
        (.vpgatherdq, (gatherShape 32 64)), (.vpgatherqq, (gatherShape 64 64))] : List ((VGather → Instr) × (VLen → GatherShape))),
      ∀ (o : VGather) (s t y : State) (f : Nat) (e : Exc), o.dst ≠ o.mask ∧ o.dst ≠ o.mem.index ∧ o.mask ≠ o.mem.index →
        VexReady [.avx2] s → Gathered (p.2 o.l) o s.begin (List.range f) s.begin t → f < (p.2 o.l).count →
        (lane (p.2 o.l).dw (s.ymm.get o.mask) f).msb = true → AccessOnly t y →
        Raises (resolve o.mem.seg .read 1 1 (s.begin.gatherAddr (p.2 o.l) o f) ((p.2 o.l).dw / 8)) t e y →
        exec (p.1 o) s = takeException (gatherFault (s.begin.gatherBreaks (p.2 o.l) o f) e)
          (State.faulted { s with ymm := y.ymm.set o.mask (gatherMask (p.2 o.l) f (y.ymm.get o.mask)) } y)) ∧
  ((∀ (g : GatherShape) (f : Nat) (mask : BitVec 256) (j : Nat), j < g.count → g.dw * g.count ≤ 256 →
        lane g.dw (gatherMask g f mask) j = maskOf g.dw (decide (f ≤ j) && (lane g.dw mask j).msb)) ∧
      (∀ (g : GatherShape) (o : VGather) (s0 s t : State) (n : Nat), g.dw * n ≤ 256 → Gathered g o s0 (List.range n) s t →
        AccessOnly { s with ymm := t.ymm } t ∧ (∀ r, r ≠ o.dst → t.ymm.get r = s.ymm.get r) ∧
          ∀ j, g.dw * (j + 1) ≤ 256 →
            ((n ≤ j ∨ (lane g.dw (s0.ymm.get o.mask) j).msb = false) →
              lane g.dw (t.ymm.get o.dst) j = lane g.dw (s.ymm.get o.dst) j) ∧
            (j < n → (lane g.dw (s0.ymm.get o.mask) j).msb = true → ∃ as x y, AccessOnly { s with ymm := x.ymm } x ∧
              Passes (resolve o.mem.seg .read 1 1 (s0.gatherAddr g o j) (g.dw / 8)) x as y ∧
              lane g.dw (t.ymm.get o.dst) j = BitVec.ofNat g.dw (y.mem.readList as)))) ∧
  (∀ s : State, VexReady [.avx] s →
      Completes .vzeroall s { s.begin with ymm := s.ymm.mapIdx fun i v => if s.isLong || decide (i < 8) then 0 else v } ∧
      Completes .vzeroupper s
        { s.begin with ymm := s.ymm.mapIdx fun i v =>
            if s.isLong || decide (i < 8) then (v.setWidth 128).setWidth 256 else v })

/-- The string comparisons: `e` is the comparison of the operands with explicit lengths and `r` the one with implicit
lengths; the index or the mask, and the six status flags. -/
def Obligations.StringCompareResults : Prop :=
  (∀ (o : StrCmp) (s u : State) (b : BitVec (8 * 16)) (e r : StrRun), SseReady .sse42 s →
      Passes (readXm .free 16 o.src) s.begin b u → e = strExplicit o.imm (u.reg o.w rAX) (u.reg o.w rDX) (u.xmm o.dst) b → r = strImplicit o.imm (u.xmm o.dst) b →
      Completes (.pcmpestri o) s
        { u.setGp rCX (regWrite u.isLong o.w (u.gp rCX) (BitVec.ofNat o.w.bits (strIndex o.imm (e.res o.imm)))) with
          flags := e.flags o.imm u.flags } ∧
      Completes (.pcmpestrm o) s { u.setXmm 0 (strMask o.imm (e.res o.imm)) with flags := e.flags o.imm u.flags } ∧
      Completes (.pcmpistri o) s
        { u.setGp rCX (regWrite u.isLong o.w (u.gp rCX) (BitVec.ofNat o.w.bits (strIndex o.imm (r.res o.imm)))) with
          flags := r.flags o.imm u.flags }) ∧
  (∀ (o : XXI) (s u : State) (b : BitVec (8 * 16)) (r : StrRun), SseReady .sse42 s → Passes (readXm .free 16 o.src) s.begin b u →
      r = strImplicit o.imm (u.xmm o.dst) b →
      Completes (.pcmpistrm o) s { u.setXmm 0 (strMask o.imm (r.res o.imm)) with flags := r.flags o.imm u.flags }) ∧
  (∀ (o : VXI) (s u : State) (b : BitVec (8 * 16)) (e r : StrRun), VexReady [.avx] s →
      Passes (readXm .free 16 o.src) s.begin b u → e = strExplicit o.imm (u.reg .w32 rAX) (u.reg .w32 rDX) (u.xmm o.dst) b →
      r = strImplicit o.imm (u.xmm o.dst) b →
      Completes (.vpcmpestri o) s
        { u.setGp rCX (regWrite u.isLong .w32 (u.gp rCX) (BitVec.ofNat 32 (strIndex o.imm (e.res o.imm)))) with
          flags := e.flags o.imm u.flags } ∧
      Completes (.vpcmpestrm o) s { u.setVec 0 (strMask o.imm (e.res o.imm)) with flags := e.flags o.imm u.flags } ∧
      Completes (.vpcmpistri o) s
        { u.setGp rCX (regWrite u.isLong .w32 (u.gp rCX) (BitVec.ofNat 32 (strIndex o.imm (r.res o.imm)))) with
          flags := r.flags o.imm u.flags } ∧
      Completes (.vpcmpistrm o) s { u.setVec 0 (strMask o.imm (r.res o.imm)) with flags := r.flags o.imm u.flags }) ∧
  (∀ (imm : BitVec 8) (r : StrRun) (f : Flags), r.flags imm f =
      { f with
        cf := (List.range (strCount imm)).any (r.res imm), zf := r.shortB, sf := r.shortA, of := r.res imm 0, af := false,
        pf := false })

/-- The x87 instructions, every numeric exception recorded and none raised (rule R617): first that each form completes and
changes the x87 unit (and the operand stored, and the flags for FCOMI and its kin) only; in the memory forms an entry is an
instruction with the bytes of its operand and their natural alignment, accessed in the state in which the pointers of rule
R124 have been recorded. Then what each makes of the unit: `v` and `c` are the open condition codes (U1), `e` the
environment, whose open part is not said; an entry names the operation, the registers and the pops. -/
def Obligations.X87Forms : Prop :=
  (∀ (j : Fin 8) (s : State), FpuReady s → ∀ i ∈ ([
        .fadd (.st0 j), .fadd (.sti j), .fsub (.st0 j), .fsub (.sti j), .fsubr (.st0 j), .fsubr (.sti j), .fmul (.st0 j),
        .fmul (.sti j), .fdiv (.st0 j), .fdiv (.sti j), .fdivr (.st0 j), .fdivr (.sti j), .faddp j, .fsubp j, .fsubrp j,
        .fmulp j, .fdivp j, .fdivrp j, .f2xm1, .frndint, .fsqrt, .fpatan, .fyl2x, .fyl2xp1, .fabs, .fchs, .fscale, .fprem,
        .fprem1, .fsin, .fcos, .fsincos, .fptan, .fxtract, .ftst, .fxam, .fxch j, .ffree j, .fincstp, .fdecstp, .fnop,
        .fldl2t, .fldl2e, .fldpi, .fldlg2, .fldln2, .fld1, .fldz, .fld (.st j), .fst (.st j), .fstp (.st j), .fcom (.st j),
        .fcomp (.st j), .fucom j, .fucomp j, .fcompp, .fucompp] : List Instr),
      ∃ t, Completes i s t ∧ FpuOnly s.begin t) ∧
  (∀ (j : Fin 8) (s : State), FpuReady s → s.has .cmov = true → ∀ i ∈ ([
        .fcmovb j, .fcmove j, .fcmovbe j, .fcmovu j, .fcmovnb j, .fcmovne j, .fcmovnbe j, .fcmovnu j] : List Instr),
      ∃ t, Completes i s t ∧ FpuOnly s.begin t) ∧
  (∀ (j : Fin 8) (s : State), s.has .cmov = true → FpuReady s → ∀ i ∈ ([.fcomi j, .fcomip j, .fucomi j, .fucomip j] : List Instr),
      ∃ t, Completes i s t ∧ FpuFlagsOnly s.begin t) ∧
  (∀ (m : MemRef) (s : State), FpuReady s → ∀ i ∈ ([
        (.fadd (.m32 m), 4, 4), (.fadd (.m64 m), 8, 8), (.fsub (.m32 m), 4, 4), (.fsub (.m64 m), 8, 8),
        (.fsubr (.m32 m), 4, 4), (.fsubr (.m64 m), 8, 8), (.fmul (.m32 m), 4, 4), (.fmul (.m64 m), 8, 8),
        (.fdiv (.m32 m), 4, 4), (.fdiv (.m64 m), 8, 8), (.fdivr (.m32 m), 4, 4), (.fdivr (.m64 m), 8, 8),
        (.fiadd (.m16 m), 2, 2), (.fiadd (.m32 m), 4, 4), (.fisub (.m16 m), 2, 2), (.fisub (.m32 m), 4, 4),
        (.fisubr (.m16 m), 2, 2), (.fisubr (.m32 m), 4, 4), (.fimul (.m16 m), 2, 2), (.fimul (.m32 m), 4, 4),
        (.fidiv (.m16 m), 2, 2), (.fidiv (.m32 m), 4, 4), (.fidivr (.m16 m), 2, 2), (.fidivr (.m32 m), 4, 4),
        (.fcom (.m32 m), 4, 4), (.fcom (.m64 m), 8, 8), (.fcomp (.m32 m), 4, 4), (.fcomp (.m64 m), 8, 8),
        (.ficom (.m16 m), 2, 2), (.ficom (.m32 m), 4, 4), (.ficomp (.m16 m), 2, 2), (.ficomp (.m32 m), 4, 4),
        (.fld (.m32 m), 4, 4), (.fld (.m64 m), 8, 8), (.fld (.m80 m), 10, 8), (.fild (.m16 m), 2, 2), (.fild (.m32 m), 4, 4),
        (.fild (.m64 m), 8, 8), (.fbld m, 10, 8)] :
        List (Instr × Nat × Nat)),
      ∀ (u : State) (v : Nat), Passes (readFpu m i.2.1 i.2.2) (s.begin.fpuEntered s.rip (some m)) v u →
        ∃ t, Completes i.1 s t ∧ FpuOnly u t) ∧
  (∀ (m : MemRef) (s : State), FpuReady s → ∀ i ∈ ([
        (.fst (.m32 m), 4, 4), (.fst (.m64 m), 8, 8), (.fstp (.m32 m), 4, 4), (.fstp (.m64 m), 8, 8), (.fstp (.m80 m), 10, 8),
        (.fist (.m16 m), 2, 2), (.fist (.m32 m), 4, 4), (.fistp (.m16 m), 2, 2), (.fistp (.m32 m), 4, 4),
        (.fistp (.m64 m), 8, 8), (.fbstp m, 10, 8)] :
        List (Instr × Nat × Nat)),
      ∀ (u : State) (as : List Nat), Passes (placeFpu m i.2.1 i.2.2) (s.begin.fpuEntered s.rip (some m)) as u →
        ∃ t, Completes i.1 s t ∧ StoredOnly u as t) ∧
  (∀ (m : MemRef) (s : State), FpuReady s → s.has .sse3 = true →
      ∀ i ∈ ([(.fisttp (.m16 m), 2), (.fisttp (.m32 m), 4), (.fisttp (.m64 m), 8)] : List (Instr × Nat)),
      ∀ (u : State) (as : List Nat), Passes (placeFpu m i.2 i.2) (s.begin.fpuEntered s.rip (some m)) as u →
        ∃ t, Completes i.1 s t ∧ StoredOnly u as t) ∧
  (∀ (j : Fin 8) (s : State), FpuReady s → ∀ x ∈ ([
        (.fadd (.st0 j), xAdd, 0, j, 0), (.fadd (.sti j), xAdd, j, 0, 0), (.faddp j, xAdd, j, 0, 1),
        (.fsub (.st0 j), xSub, 0, j, 0), (.fsub (.sti j), xSub, j, 0, 0), (.fsubp j, xSub, j, 0, 1),
        (.fsubr (.st0 j), xRev xSub, 0, j, 0), (.fsubr (.sti j), xRev xSub, j, 0, 0), (.fsubrp j, xRev xSub, j, 0, 1),
        (.fmul (.st0 j), xMul, 0, j, 0), (.fmul (.sti j), xMul, j, 0, 0), (.fmulp j, xMul, j, 0, 1),
        (.fdiv (.st0 j), xDiv, 0, j, 0), (.fdiv (.sti j), xDiv, j, 0, 0), (.fdivp j, xDiv, j, 0, 1),
        (.fdivr (.st0 j), xRev xDiv, 0, j, 0), (.fdivr (.sti j), xRev xDiv, j, 0, 0), (.fdivrp j, xRev xDiv, j, 0, 1)] :
        List (Instr × XOp2 × Fin 8 × Fin 8 × Nat)),
      ∃ v e, s.fpu.HasEnv true e ∧
        MakesFpu x.1 s fun f => (f.withCodes v).binary x.2.1 e x.2.2.1 x.2.2.2.1 x.2.2.2.2) ∧
  (∀ (s : State), FpuReady s → ∀ x ∈ ([
        (.fpatan, xAtan, 1, 0, 1), (.fyl2x, xYl2x, 1, 0, 1), (.fyl2xp1, xYl2xp1, 1, 0, 1), (.fscale, xScale, 0, 1, 0)] :
        List (Instr × XOp2 × Fin 8 × Fin 8 × Nat)),
      ∃ v e, s.fpu.HasEnv false e ∧
        MakesFpu x.1 s fun f => (f.withCodes v).binary x.2.1 e x.2.2.1 x.2.2.2.1 x.2.2.2.2) ∧
  (∀ (s : State), FpuReady s → ∀ x ∈ ([
        (.f2xm1, x2xm1, false), (.frndint, xRoundInt, false), (.fsqrt, xSqrt, true)] :
        List (Instr × (XEnv → XArg → XOut) × Bool)),
      ∃ v e, s.fpu.HasEnv x.2.2 e ∧
        MakesFpu x.1 s fun f => (f.withCodes v).unary (x.2.1 e)) ∧
  (∀ s : State, FpuReady s →
        (∃ v, MakesFpu .fabs s fun f => (f.withCodes v).whenHeld [0] (·.setSt 0 indefinite80)
          fun g => (g.withC1 false).setSt 0 (g.st 0 &&& ~~~((1 : BitVec 80) <<< 79))) ∧
        (∃ v, MakesFpu .fchs s fun f => (f.withCodes v).whenHeld [0] (·.setSt 0 indefinite80)
          fun g => (g.withC1 false).setSt 0 (g.st 0 ^^^ ((1 : BitVec 80) <<< 79)))) ∧
  (∀ (s : State), FpuReady s → ∀ x ∈ ([
        (.fld1, 0x3FFF, 0x8000000000000000, 0x8000000000000000, 0x8000000000000000), (.fldz, 0x0, 0, 0, 0),
        (.fldl2t, 0x4000, 0xD49A784BCD1B8AFE, 0xD49A784BCD1B8AFE, 0xD49A784BCD1B8AFF),
        (.fldl2e, 0x3FFF, 0xB8AA3B295C17F0BB, 0xB8AA3B295C17F0BC, 0xB8AA3B295C17F0BC),
        (.fldpi, 0x4000, 0xC90FDAA22168C234, 0xC90FDAA22168C235, 0xC90FDAA22168C235),
        (.fldlg2, 0x3FFD, 0x9A209A84FBCFF798, 0x9A209A84FBCFF799, 0x9A209A84FBCFF799),
        (.fldln2, 0x3FFE, 0xB17217F7D1CF79AB, 0xB17217F7D1CF79AC, 0xB17217F7D1CF79AC)] :
        List (Instr × Nat × Nat × Nat × Nat)),
      ∃ v,
        MakesFpu x.1 s fun f => (f.withCodes v).pushed (make80 false x.2.1
          (if s.fpu.fcw.extractLsb' 10 2 = 0 then x.2.2.2.1 else if s.fpu.fcw.extractLsb' 10 2 = 2 then x.2.2.2.2 else x.2.2.1)) 0) ∧
  (∀ (j : Fin 8) (s : State), FpuReady s → ∃ v c, (c = true → s.fpu.full = true) ∧
        MakesFpu (.fld (.st j)) s fun f => if f.isEmpty j then (f.withCodes v).stackFault c (·.push indefinite80)
          else (f.withCodes v).pushed (f.st j) 0) ∧
  (∀ (j : Fin 8) (s : State), FpuReady s → ∀ x ∈ ([
        (.fst (.st j), 0), (.fstp (.st j), 1)] :
        List (Instr × Nat)),
      ∃ v,
        MakesFpu x.1 s fun f => (f.withCodes v).whenHeld [0] (fun g => (g.setSt j indefinite80).popN x.2)
          fun g => ((g.withC1 false).setStTag j (g.st 0) (g.tagAt (g.phys 0))).popN x.2) ∧
  (∀ (j : Fin 8) (s : State), FpuReady s → ∀ x ∈ ([
        (.fcom (.st j), false, j, 0), (.fcomp (.st j), false, j, 1), (.fcompp, false, 1, 2), (.fucom j, true, j, 0),
        (.fucomp j, true, j, 1), (.fucompp, true, 1, 2)] :
        List (Instr × Bool × Fin 8 × Nat)),
      MakesFpu x.1 s fun f => f.whenHeld [0, x.2.2.1] (·.unordered x.2.2.2)
        fun g => g.compared x.2.1 (xreg (g.st x.2.2.1)) x.2.2.2) ∧
  (∀ (j : Fin 8) (s : State), FpuReady s →
        MakesFpu .ftst s (fun f => f.whenHeld [0] (·.unordered 0) fun g => g.compared false (xreg 0) 0) ∧
        MakesFpu .fxam s (fun f => { f with fsw := { f.fsw with
          c3 := f.examine.1, c2 := f.examine.2.1, c0 := f.examine.2.2, c1 := (f.st 0).msb } }) ∧
        (∃ v, MakesFpu (.fxch j) s fun f => (f.withCodes v).whenHeld [0, j] (·.exchange j) fun g => (g.withC1 false).exchange j) ∧
        (∃ v, MakesFpu (.ffree j) s fun f => { f.withAllCodes v with ftw := setTagAt f.ftw (f.phys j) 3 }) ∧
        (∃ v, MakesFpu .fnop s fun f => f.withAllCodes v) ∧
        (∃ v, MakesFpu .fincstp s fun f => { f with fsw := { (f.withCodes v).fsw with top := f.fsw.top + 1, c1 := false } }) ∧
        (∃ v, MakesFpu .fdecstp s fun f => { f with fsw := { (f.withCodes v).fsw with top := f.fsw.top - 1, c1 := false } })) ∧
  (∀ (j : Fin 8) (s : State), FpuReady s → s.has .cmov = true → ∀ x ∈ ([
        (.fcmovb j, .b), (.fcmove j, .e), (.fcmovbe j, .be), (.fcmovu j, .p), (.fcmovnb j, .ae), (.fcmovne j, .ne),
        (.fcmovnbe j, .a), (.fcmovnu j, .np)] :
        List (Instr × Cond)),
      ∃ v,
        MakesFpu x.1 s fun f => (f.withCodes v).whenHeld [j] (·.setSt 0 indefinite80)
          fun g => if s.flags.holds x.2 then g.setStTag 0 (g.st j) (g.tagAt (g.phys j)) else g) ∧
  (∀ (j : Fin 8) (s : State), FpuReady s → s.has .cmov = true → ∀ x ∈ ([
        (.fcomi j, false, 0), (.fcomip j, false, 1), (.fucomi j, true, 0), (.fucomip j, true, 1)] :
        List (Instr × Bool × Nat)),
      Completes x.1 s ((s.begin.fpuEntered s.rip none).comparedFlags x.2.1 j x.2.2)) ∧
  (∀ s : State, FpuReady s →
        (∃ v e, s.fpu.HasEnv false e ∧ MakesFpu .fsin s fun f => (f.withCodes v).trig false (·.setSt 0 indefinite80)
          fun g => g.deliverTo (xSin .fsin 32 e (xreg (g.st 0))) 0 0) ∧
        (∃ v c e, s.fpu.HasEnv false e ∧ MakesFpu .fcos s fun f => (f.withCodes v).trig c (·.setSt 0 indefinite80)
          fun g => g.deliverTo (xCos .fcos 32 e (xreg (g.st 0))) 0 0) ∧
        (∃ v e, s.fpu.HasEnv false e ∧ MakesFpu .fptan s fun f => (f.withCodes v).trig false (·.twoIndefinite)
          fun g => g.deliverTwo (xTan e (xreg (g.st 0))).val one80 (xTan e (xreg (g.st 0))).flags (xTan e (xreg (g.st 0))).up) ∧
        (∃ v e, s.fpu.HasEnv false e ∧ MakesFpu .fsincos s fun f => (f.withCodes v).trig false (·.twoIndefinite)
          fun g => g.deliverTwo (xSin .fsincosSin 48 e (xreg (g.st 0))).val (xCos .fsincosCos 48 e (xreg (g.st 0))).val
            ((xSin .fsincosSin 48 e (xreg (g.st 0))).flags ||| (xCos .fsincosCos 48 e (xreg (g.st 0))).flags)
            (xCos .fsincosCos 48 e (xreg (g.st 0))).up) ∧
        (∃ v y e, s.fpu.HasEnv false e ∧ MakesFpu .fxtract s fun f => (f.withCodes v).whenHeld [0] (·.twoIndefinite)
          fun g => g.deliverTwo (xExtract e y (xreg (g.st 0))).1 (xExtract e y (xreg (g.st 0))).2.1
            (xExtract e y (xreg (g.st 0))).2.2 false)) ∧
  (∀ (s : State), FpuReady s → ∀ x ∈ ([
        (.fprem, false), (.fprem1, true)] :
        List (Instr × Bool)),
      ∃ v c o e, s.fpu.HasEnv false e ∧
        MakesFpu x.1 s fun f => (f.withCodes v).whenHeld [0, 1] (·.setSt 0 indefinite80)
          fun g => g.remainder c o (xRem x.2 e (xreg (g.st 0)) (xreg (g.st 1)))) ∧
  (∀ (m : MemRef) (s : State), FpuReady s → ∀ x ∈ ([
        (.fadd (.m32 m), 4, xAdd, ofFmt80 f32), (.fadd (.m64 m), 8, xAdd, ofFmt80 f64),
        (.fsub (.m32 m), 4, xSub, ofFmt80 f32), (.fsub (.m64 m), 8, xSub, ofFmt80 f64),
        (.fsubr (.m32 m), 4, xRev xSub, ofFmt80 f32), (.fsubr (.m64 m), 8, xRev xSub, ofFmt80 f64),
        (.fmul (.m32 m), 4, xMul, ofFmt80 f32), (.fmul (.m64 m), 8, xMul, ofFmt80 f64),
        (.fdiv (.m32 m), 4, xDiv, ofFmt80 f32), (.fdiv (.m64 m), 8, xDiv, ofFmt80 f64),
        (.fdivr (.m32 m), 4, xRev xDiv, ofFmt80 f32), (.fdivr (.m64 m), 8, xRev xDiv, ofFmt80 f64),
        (.fiadd (.m16 m), 2, xAdd, int80 16), (.fiadd (.m32 m), 4, xAdd, int80 32), (.fisub (.m16 m), 2, xSub, int80 16),
        (.fisub (.m32 m), 4, xSub, int80 32), (.fisubr (.m16 m), 2, xRev xSub, int80 16),
        (.fisubr (.m32 m), 4, xRev xSub, int80 32), (.fimul (.m16 m), 2, xMul, int80 16),
        (.fimul (.m32 m), 4, xMul, int80 32), (.fidiv (.m16 m), 2, xDiv, int80 16), (.fidiv (.m32 m), 4, xDiv, int80 32),
        (.fidivr (.m16 m), 2, xRev xDiv, int80 16), (.fidivr (.m32 m), 4, xRev xDiv, int80 32)] :
        List (Instr × Nat × XOp2 × (Nat → XArg))),
      ∀ (u : State) (w : Nat), Passes (readFpu m x.2.1 x.2.1) (s.begin.fpuEntered s.rip (some m)) w u →
        ∃ v e, u.fpu.HasEnv true e ∧ LeavesFpu x.1 s u fun f => (f.withCodes v).unary (x.2.2.1 e · (x.2.2.2 w))) ∧
  (∀ (m : MemRef) (s : State), FpuReady s → ∀ x ∈ ([
        (.fcom (.m32 m), 4, 0, ofFmt80 f32), (.fcom (.m64 m), 8, 0, ofFmt80 f64), (.fcomp (.m32 m), 4, 1, ofFmt80 f32),
        (.fcomp (.m64 m), 8, 1, ofFmt80 f64), (.ficom (.m16 m), 2, 0, int80 16), (.ficom (.m32 m), 4, 0, int80 32),
        (.ficomp (.m16 m), 2, 1, int80 16), (.ficomp (.m32 m), 4, 1, int80 32)] :
        List (Instr × Nat × Nat × (Nat → XArg))),
      ∀ (u : State) (w : Nat), Passes (readFpu m x.2.1 x.2.1) (s.begin.fpuEntered s.rip (some m)) w u →
        LeavesFpu x.1 s u fun f => f.whenHeld [0] (·.unordered x.2.2.1) fun g => g.compared false (x.2.2.2 w) x.2.2.1) ∧
  (∀ (m : MemRef) (s : State), FpuReady s → ∀ x ∈ ([
        (.fld (.m32 m), 4, 4, fun w => converted80 (ofFmt80 f32 w)),
        (.fld (.m64 m), 8, 8, fun w => converted80 (ofFmt80 f64 w)), (.fld (.m80 m), 10, 8, fun w => (BitVec.ofNat 80 w, 0)),
        (.fild (.m16 m), 2, 2, fun w => ((int80 16 w).v, 0)), (.fild (.m32 m), 4, 4, fun w => ((int80 32 w).v, 0)),
        (.fild (.m64 m), 8, 8, fun w => ((int80 64 w).v, 0))] :
        List (Instr × Nat × Nat × (Nat → BitVec 80 × FpFlags))),
      ∀ (u : State) (w : Nat), Passes (readFpu m x.2.1 x.2.2.1) (s.begin.fpuEntered s.rip (some m)) w u →
        ∃ v, LeavesFpu x.1 s u fun f => (f.withCodes v).pushed (x.2.2.2 w).1 (x.2.2.2 w).2) ∧
  (∀ (m : MemRef) (s u : State) (w : Nat), FpuReady s →
        Passes (readFpu m 10 8) (s.begin.fpuEntered s.rip (some m)) w u →
        ∃ v y, (∀ k, bcdValue 9 w = some k → y = ofInt80 k ||| (if w / 2 ^ 79 % 2 = 1 then (1 : BitVec 80) <<< 79 else 0)) ∧
          LeavesFpu (.fbld m) s u fun f => (f.withCodes v).pushed y 0) ∧
  (∀ (m : MemRef) (s : State), FpuReady s → ∀ x ∈ ([
        (.fst (.m32 m), 4, 4, f32.indefinite, 0, toFmt80 f32), (.fst (.m64 m), 8, 8, f64.indefinite, 0, toFmt80 f64),
        (.fstp (.m32 m), 4, 4, f32.indefinite, 1, toFmt80 f32), (.fstp (.m64 m), 8, 8, f64.indefinite, 1, toFmt80 f64),
        (.fstp (.m80 m), 10, 8, indefinite80.toNat, 1, fun _ v => ⟨v.toNat, 0, false⟩),
        (.fist (.m16 m), 2, 2, 0x8000, 0, fun e => toInt80 16 e.rc),
        (.fist (.m32 m), 4, 4, 0x80000000, 0, fun e => toInt80 32 e.rc),
        (.fistp (.m16 m), 2, 2, 0x8000, 1, fun e => toInt80 16 e.rc),
        (.fistp (.m32 m), 4, 4, 0x80000000, 1, fun e => toInt80 32 e.rc),
        (.fistp (.m64 m), 8, 8, 0x8000000000000000, 1, fun e => toInt80 64 e.rc), (.fbstp m, 10, 8, bcdIndefinite, 1, toBcd80)] :
        List (Instr × Nat × Nat × Nat × Nat × (XEnv → BitVec 80 → XStore))),
      ∀ (u : State) (as : List Nat), Passes (placeFpu m x.2.1 x.2.2.1) (s.begin.fpuEntered s.rip (some m)) as u →
        ∃ v e n, u.fpu.HasEnv false e ∧
          Completes x.1 s (u.storedSt as x.2.2.2.1 x.2.2.2.2.1 (u.fpu.withCodes v) (x.2.2.2.2.2 e (u.fpu.st 0)) n)) ∧
  (∀ (m : MemRef) (s : State), FpuReady s → s.has .sse3 = true → ∀ x ∈ ([
        (.fisttp (.m16 m), 2, 2, 2 ^ 15, 1, fun _ v => { toInt80 16 3 v with up := false }),
        (.fisttp (.m32 m), 4, 4, 2 ^ 31, 1, fun _ v => { toInt80 32 3 v with up := false }),
        (.fisttp (.m64 m), 8, 8, 2 ^ 63, 1, fun _ v => { toInt80 64 3 v with up := false })] :
        List (Instr × Nat × Nat × Nat × Nat × (XEnv → BitVec 80 → XStore))),
      ∀ (u : State) (as : List Nat), Passes (placeFpu m x.2.1 x.2.2.1) (s.begin.fpuEntered s.rip (some m)) as u →
        ∃ v e n, u.fpu.HasEnv false e ∧
          Completes x.1 s (u.storedSt as x.2.2.2.1 x.2.2.2.2.1 (u.fpu.withCodes v) (x.2.2.2.2.2 e (u.fpu.st 0)) n))

/-- The x87 control instructions. The FN forms need the unit only; the forms with a wait need no pending exception as well.
Where the condition codes are undefined (U1) the state is given up to the x87 unit. -/
def Obligations.X87Control : Prop :=
  (∀ s : State, FpuThere s → Completes .fninit s { s.begin with fpu := s.fpu.init }) ∧
  (∀ s : State, FpuThere s → ∃ v n, Completes .fnclex s (s.begin.withFpu (s.fpu.cleared.withAllCodes v) n)) ∧
  (∀ (m : MemRef) (s u : State) (v : Nat), FpuReady s → Passes (readFpu m 2 2) s.begin v u →
        ∃ c n, Completes (.fldcw m) s (u.withFpu ({ u.fpu with fcw := BitVec.ofNat 16 v }.withAllCodes c) n)) ∧
  (∀ (m : MemRef) (s u : State) (as : List Nat), Passes (placeFpu m 2 2) s.begin as u →
        (FpuThere s → ∃ v n, Completes (.fnstcw m) s ((u.physWrite as u.fpu.fcw.toNat).withFpu (u.fpu.withAllCodes v) n)) ∧
        (FpuThere s → ∃ v n, Completes (.fnstsw (.mem m)) s
          ((u.physWrite as u.fpu.statusWord.toNat).withFpu (u.fpu.withAllCodes v) n))) ∧
  (∀ s : State, FpuThere s → ∃ v n, Completes (.fnstsw .ax) s
        ((s.begin.setGp rAX (mergeLow (s.gp rAX) s.fpu.statusWord)).withFpu (s.fpu.withAllCodes v) n)) ∧
  (∀ (o : FpEnv) (s u : State) (as : List Nat), FpuThere s →
        (Passes (placeFpu o.mem (envSize o.w) (envAlign o.w)) s.begin as u →
          ∃ v n, Completes (.fnstenv o) s ((u.physWrite as (u.envImage o.w)).withFpu
            ({ u.fpu with fcw := u.fpu.fcw ||| 0x3F }.withAllCodes v) n)) ∧
        (Passes (placeFpu o.mem (envSize o.w + 80) (envAlign o.w)) s.begin as u →
          Completes (.fnsave o) s
            { u.physWrite as (u.envImage o.w + 256 ^ envSize o.w * u.fpu.stackImage) with fpu := u.fpu.init })) ∧
  (∀ (o : FpEnv) (s u : State) (v : Nat), FpuReady s →
        (Passes (readFpu o.mem (envSize o.w) (envAlign o.w)) s.begin v u →
          Completes (.fldenv o) s { u with fpu := u.loadEnv o.w v }) ∧
        (Passes (readFpu o.mem (envSize o.w + 80) (envAlign o.w)) s.begin v u →
          Completes (.frstor o) s { u with fpu := (u.loadEnv o.w v).loadStack (v / 256 ^ envSize o.w) })) ∧
  (∀ s : State, s.cr0Bit 1 = false ∨ s.cr0Bit 3 = false → s.fpu.es = false →
        ∀ i ∈ ([.wait, .fwait] : List Instr), ∃ v n, Completes i s (s.begin.withFpu (s.fpu.withAllCodes v) n)) ∧
  (∀ s : State, FpuReady s →
        (∃ n, Completes .finit s { s.begin with fpu := s.fpu.init, free := n }) ∧
        (∃ v n, Completes .fclex s (s.begin.withFpu (s.fpu.cleared.withAllCodes v) n))) ∧
  (∀ (s : State), FpuReady s →
        (∀ (m : MemRef) (t u : State) (as : List Nat), Passes waitOnly s.begin () t → Passes (placeFpu m 2 2) t as u →
          (∃ v n, Completes (.fstcw m) s ((u.physWrite as u.fpu.fcw.toNat).withFpu (u.fpu.withAllCodes v) n)) ∧
          (∃ v n, Completes (.fstsw (.mem m)) s ((u.physWrite as u.fpu.statusWord.toNat).withFpu (u.fpu.withAllCodes v) n))) ∧
        (∃ v n, Passes waitOnly s.begin () (s.begin.withFpu (s.fpu.withAllCodes v) n) ∧
          ∃ w k, Completes (.fstsw .ax) s ((s.begin.setGp rAX (mergeLow (s.gp rAX) (s.fpu.withAllCodes v).statusWord)).withFpu
            (s.fpu.withAllCodes w) k)) ∧
        (∀ (o : FpEnv) (t u : State) (as : List Nat), Passes waitOnly s.begin () t →
          (Passes (placeFpu o.mem (envSize o.w) (envAlign o.w)) t as u →
            ∃ v n, Completes (.fstenv o) s ((u.physWrite as (u.envImage o.w)).withFpu
              ({ u.fpu with fcw := u.fpu.fcw ||| 0x3F }.withAllCodes v) n)) ∧
          (Passes (placeFpu o.mem (envSize o.w + 80) (envAlign o.w)) t as u →
            Completes (.fsave o) s
              { u.physWrite as (u.envImage o.w + 256 ^ envSize o.w * u.fpu.stackImage) with fpu := u.fpu.init })))

/-- Addition and subtraction in every operand form. An entry is a constructor and what the operation makes of the flags and
the two operands: result and new flags. The place `q` is what the checks of a destination in memory resolve to. -/
def Obligations.AddSubtractResults : Prop :=
  (∀ p ∈ ([(.add, fun _ f a b => (addWith a b false, f.add a b false)), (.adc, fun _ f a b => (addWith a b f.cf, f.add a b f.cf)),
        (.sub, fun _ f a b => (subWith a b false, f.sub a b false)), (.sbb, fun _ f a b => (subWith a b f.cf, f.sub a b f.cf))] :
        List ((AluOps → Instr) × ((n : Nat) → Flags → BitVec n → BitVec n → BitVec n × Flags))),
      (∀ (w : Width) (dst : Rm) (src : Gp) (s u : State) (q : Place), Passes (place .write w dst) s.begin q u →
        Completes (p.1 (.mr w dst src)) s
          ({ u with flags := (p.2 w.bits u.flags (u.placeVal w q) (u.gpVal w src)).2 }.setPlace w q
            (p.2 w.bits u.flags (u.placeVal w q) (u.gpVal w src)).1)) ∧
      (∀ (w : Width) (dst : Rm) (imm : BitVec 32) (s u : State) (q : Place), Passes (place .write w dst) s.begin q u →
        Completes (p.1 (.mi w dst imm)) s
          ({ u with flags := (p.2 w.bits u.flags (u.placeVal w q) (immOf w imm)).2 }.setPlace w q
            (p.2 w.bits u.flags (u.placeVal w q) (immOf w imm)).1)) ∧
      (∀ (w : Width) (dst : Gp) (src : Rm) (s u : State) (b : BitVec w.bits), Passes (readRm w src) s.begin b u →
        Completes (p.1 (.rm w dst src)) s
          ({ u with flags := (p.2 w.bits u.flags (u.gpVal w dst) b).2 }.setGpVal w dst (p.2 w.bits u.flags (u.gpVal w dst) b).1))) ∧
  ((∀ (w : Width) (a : Rm) (b : Gp) (s u : State) (x : BitVec w.bits), Passes (readRm w a) s.begin x u →
        Completes (.cmp (.mr w a b)) s { u with flags := u.flags.sub x (u.gpVal w b) false }) ∧
      (∀ (w : Width) (a : Gp) (b : Rm) (s u : State) (y : BitVec w.bits), Passes (readRm w b) s.begin y u →
        Completes (.cmp (.rm w a b)) s { u with flags := u.flags.sub (u.gpVal w a) y false }) ∧
      (∀ (w : Width) (a : Rm) (imm : BitVec 32) (s u : State) (x : BitVec w.bits), Passes (readRm w a) s.begin x u →
        Completes (.cmp (.mi w a imm)) s { u with flags := u.flags.sub x (immOf w imm) false })) ∧
  (∀ p ∈ ([(.inc, fun _ f a => (addWith a 1 false, { f.add a 1 false with cf := f.cf })),
        (.dec, fun _ f a => (subWith a 1 false, { f.sub a 1 false with cf := f.cf })),
        (.neg, fun _ f a => (subWith 0 a false, f.sub 0 a false)), (.not, fun _ f a => (~~~a, f))] :
        List ((RmOp → Instr) × ((n : Nat) → Flags → BitVec n → BitVec n × Flags))),
      ∀ (w : Width) (dst : Rm) (s u : State) (q : Place), Passes (place .write w dst) s.begin q u →
        Completes (p.1 ⟨w, dst⟩) s ({ u with flags := (p.2 w.bits u.flags (u.placeVal w q)).2 }.setPlace w q
          (p.2 w.bits u.flags (u.placeVal w q)).1))

/-- The logic operations in every operand form; `af` is the undefined AF. -/
def Obligations.LogicResults : Prop :=
  (∀ p ∈ ([(.and, fun _ a b => a &&& b), (.or, fun _ a b => a ||| b), (.xor, fun _ a b => a ^^^ b)] :
        List ((AluOps → Instr) × ((n : Nat) → BitVec n → BitVec n → BitVec n))),
      (∀ (w : Width) (dst : Rm) (src : Gp) (s u : State) (q : Place), Passes (place .write w dst) s.begin q u →
        ∃ af, Completes (p.1 (.mr w dst src)) s
          ((u.flagsDrawn (u.flags.logic (p.2 w.bits (u.placeVal w q) (u.gpVal w src)) af) 1).setPlace w q
            (p.2 w.bits (u.placeVal w q) (u.gpVal w src)))) ∧
      (∀ (w : Width) (dst : Rm) (imm : BitVec 32) (s u : State) (q : Place), Passes (place .write w dst) s.begin q u →
        ∃ af, Completes (p.1 (.mi w dst imm)) s
          ((u.flagsDrawn (u.flags.logic (p.2 w.bits (u.placeVal w q) (immOf w imm)) af) 1).setPlace w q
            (p.2 w.bits (u.placeVal w q) (immOf w imm)))) ∧
      (∀ (w : Width) (dst : Gp) (src : Rm) (s u : State) (b : BitVec w.bits), Passes (readRm w src) s.begin b u →
        ∃ af, Completes (p.1 (.rm w dst src)) s
          ((u.flagsDrawn (u.flags.logic (p.2 w.bits (u.gpVal w dst) b) af) 1).setGpVal w dst (p.2 w.bits (u.gpVal w dst) b)))) ∧
  ((∀ (w : Width) (a : Rm) (b : Gp) (s u : State) (x : BitVec w.bits), Passes (readRm w a) s.begin x u →
        ∃ af, Completes (.test (.mr w a b)) s (u.flagsDrawn (u.flags.logic (x &&& u.gpVal w b) af) 1)) ∧
      (∀ (w : Width) (a : Rm) (imm : BitVec 32) (s u : State) (x : BitVec w.bits), Passes (readRm w a) s.begin x u →
        ∃ af, Completes (.test (.mi w a imm)) s (u.flagsDrawn (u.flags.logic (x &&& immOf w imm) af) 1)))

/-- Products and quotients. `g` and `sf` are undefined status flags. -/
def Obligations.MultiplyDivideResults : Prop :=
  (∀ (w : Width) (src : Rm) (s u : State) (b : BitVec w.bits), Passes (readRm w src) s.begin b u →
      (∃ g sf, Completes (.mul ⟨w, src⟩) s ((u.setDouble w ((u.reg w rAX).toNat * b.toNat)).flagsDrawn
        { u.flags.withStatus g with cf := decide (2 ^ w.bits ≤ (u.reg w rAX).toNat * b.toNat),
                                    of := decide (2 ^ w.bits ≤ (u.reg w rAX).toNat * b.toNat), sf := sf } 7)) ∧
      (∃ g, Completes (.imul (.one w src)) s
        ((u.setDouble w (BitVec.ofInt (2 * w.bits) ((u.reg w rAX).toInt * b.toInt)).toNat).flagsDrawn
          { u.flags.withStatus g with cf := (signedProduct (u.reg w rAX) b).2, of := (signedProduct (u.reg w rAX) b).2,
                                      sf := (signedProduct (u.reg w rAX) b).1.msb } 6)) ∧
      (∀ dst, ∃ g, Completes (.imul (.two w dst src)) s ((u.setReg w dst (signedProduct (u.reg w dst) b).1).flagsDrawn
          { u.flags.withStatus g with cf := (signedProduct (u.reg w dst) b).2, of := (signedProduct (u.reg w dst) b).2,
                                      sf := (signedProduct (u.reg w dst) b).1.msb } 6)) ∧
      (∀ dst imm, ∃ g, Completes (.imul (.three w dst src imm)) s ((u.setReg w dst (signedProduct b (immOf w imm)).1).flagsDrawn
          { u.flags.withStatus g with cf := (signedProduct b (immOf w imm)).2, of := (signedProduct b (immOf w imm)).2,
                                      sf := (signedProduct b (immOf w imm)).1.msb } 6))) ∧
  (∀ (w : Width) (src : Rm) (s u : State) (b : BitVec w.bits), Passes (readRm w src) s.begin b u →
      (∀ dst a, VexGprReady .bmi2 s → Completes (.mulx ⟨w, dst, a, src⟩) s
        ((u.setReg w a (BitVec.ofNat w.bits ((u.reg w rDX).toNat * b.toNat))).setReg w dst
          (BitVec.ofNat w.bits ((u.reg w rDX).toNat * b.toNat / 2 ^ w.bits)))) ∧
      (∀ dst, s.has .adx = true → Completes (.adcx ⟨w, dst, src⟩) s
        ({ u with flags := { u.flags with cf := (u.flags.add (u.reg w dst) b u.flags.cf).cf } }.setReg w dst
          (addWith (u.reg w dst) b u.flags.cf))) ∧
      (∀ dst, s.has .adx = true → Completes (.adox ⟨w, dst, src⟩) s
        ({ u with flags := { u.flags with of := (u.flags.add (u.reg w dst) b u.flags.of).cf } }.setReg w dst
          (addWith (u.reg w dst) b u.flags.of)))) ∧
  (∀ (w : Width) (src : Rm) (s u : State) (b : BitVec w.bits), Passes (readRm w src) s.begin b u → b ≠ 0 →
      (u.dividend w / b.toNat < 2 ^ w.bits → ∃ g, Completes (.div ⟨w, src⟩) s
        ((u.setQuotRem w (u.dividend w / b.toNat) (u.dividend w % b.toNat)).flagsDrawn (u.flags.withStatus g) 6)) ∧
      (∀ n : Int, n = (BitVec.ofNat (2 * w.bits) (u.dividend w)).toInt →
        -(2 ^ (w.bits - 1) : Int) ≤ n.tdiv b.toInt ∧ n.tdiv b.toInt < 2 ^ (w.bits - 1) → ∃ g, Completes (.idiv ⟨w, src⟩) s
        ((u.setQuotRem w (BitVec.ofInt w.bits (n.tdiv b.toInt)).toNat (BitVec.ofInt w.bits (n.tmod b.toInt)).toNat).flagsDrawn
          (u.flags.withStatus g) 6)))

/-- The decimal adjustments and the sign extensions. `g` and `of` are undefined status flags. -/
def Obligations.DecimalAndSignResults : Prop :=
  (∀ s : State, s.isLong = false →
      (∃ g, Completes .aaa s ((s.begin.setReg .w16 rAX ((if needsAdjust (s.reg .w8 rAX) s.flags.af then s.reg .w16 rAX + 0x106
          else s.reg .w16 rAX) &&& 0xFF0F)).flagsDrawn
        { s.begin.flags.withStatus g with af := needsAdjust (s.reg .w8 rAX) s.flags.af,
                                          cf := needsAdjust (s.reg .w8 rAX) s.flags.af } 6)) ∧
      (∃ g, Completes .aas s ((s.begin.setReg .w16 rAX ((if needsAdjust (s.reg .w8 rAX) s.flags.af
          then s.reg .w16 rAX - 6 - 0x100 else s.reg .w16 rAX) &&& 0xFF0F)).flagsDrawn
        { s.begin.flags.withStatus g with af := needsAdjust (s.reg .w8 rAX) s.flags.af,
                                          cf := needsAdjust (s.reg .w8 rAX) s.flags.af } 6)) ∧
      (∀ imm al ah r : BitVec 8, al = s.reg .w8 rAX → ah = s.gpVal .w8 (.hi 0) → r = al + ah * imm → ∃ g, Completes (.aad imm) s
        ((s.begin.setReg .w16 rAX (r.setWidth 16)).flagsDrawn ((s.begin.flags.withStatus g).szp r) 6)) ∧
      (∀ imm r : BitVec 8, imm ≠ 0 → r = BitVec.ofNat 8 ((s.reg .w8 rAX).toNat % imm.toNat) → ∃ g, Completes (.aam imm) s
        ((s.begin.setReg .w16 rAX (BitVec.ofNat 8 ((s.reg .w8 rAX).toNat / imm.toNat) ++ r)).flagsDrawn
          ((s.begin.flags.withStatus g).szp r) 6))) ∧
  (∀ (s : State) (low high : Bool) (al r : BitVec 8), s.isLong = false → al = s.reg .w8 rAX → low = needsAdjust al s.flags.af →
      high = (decide (0x99 < al.toNat) || s.flags.cf) →
      (r = al + (if low then 6 else 0) + (if high then 0x60 else 0) → ∃ of, Completes .daa s
        ((s.begin.setReg .w8 rAX r).flagsDrawn { s.begin.flags.szp r with cf := high, af := low, of := of } 1)) ∧
      (r = al - (if low then 6 else 0) - (if high then 0x60 else 0) → ∃ of, Completes .das s
        ((s.begin.setReg .w8 rAX r).flagsDrawn { s.begin.flags.szp r with
          cf := high || (low && (s.flags.cf || decide (al.toNat < 6))), af := low, of := of } 1))) ∧
  (∀ s : State,
      Completes .cbw s (s.begin.setReg .w16 rAX ((s.reg .w8 rAX).signExtend 16)) ∧
      Completes .cwde s (s.begin.setReg .w32 rAX ((s.reg .w16 rAX).signExtend 32)) ∧
      Completes .cdqe s (s.begin.setReg .w64 rAX ((s.reg .w32 rAX).signExtend 64)) ∧
      (∀ p ∈ ([(.cwd, .w16), (.cdq, .w32), (.cqo, .w64)] : List (Instr × Width)),
        Completes p.1 s (s.begin.setReg p.2 rDX (if (s.reg p.2 rAX).msb then BitVec.allOnes p.2.bits else 0))))

/-- The exchanges. The place `q` or the addresses `as` are what the checks of the destination resolve to. -/
def Obligations.ExchangeResults : Prop :=
  (∀ (w : Width) (dst : Rm) (src : Gp) (s u : State) (q : Place), Passes (place .write w dst) s.begin q u →
      Completes (.xchg ⟨w, dst, src⟩) s ((u.setPlace w q (u.gpVal w src)).setGpVal w src (u.placeVal w q)) ∧
      Completes (.xadd ⟨w, dst, src⟩) s
        (({ u with flags := u.flags.add (u.placeVal w q) (u.gpVal w src) false }.setGpVal w src (u.placeVal w q)).setPlace w q
          (addWith (u.placeVal w q) (u.gpVal w src) false)) ∧
      (u.reg w rAX = u.placeVal w q → Completes (.cmpxchg ⟨w, dst, src⟩) s
        ({ u with flags := u.flags.sub (u.reg w rAX) (u.placeVal w q) false }.setPlace w q (u.gpVal w src))) ∧
      (u.reg w rAX ≠ u.placeVal w q → Completes (.cmpxchg ⟨w, dst, src⟩) s
        (({ u with flags := u.flags.sub (u.reg w rAX) (u.placeVal w q) false }.setPlace w q (u.placeVal w q)).setReg w rAX
          (u.placeVal w q)))) ∧
  (∀ p ∈ ([(.cmpxchg8b, .w32, 1, fun s => s.has .cx8 = true), (.cmpxchg16b, .w64, 16, fun s => s.has .cmpxchg16b = true)] :
        List ((MemRef → Instr) × Width × Nat × (State → Prop))),
      ∀ (m : MemRef) (s u : State) (as : List Nat) (a n : Nat), p.2.2.2 s →
        Passes (resolveAligned .write m (2 * p.2.1.bytes) p.2.2.1) s.begin as u →
        a = (u.reg p.2.1 rDX).toNat * 2 ^ p.2.1.bits + (u.reg p.2.1 rAX).toNat →
        n = (u.reg p.2.1 rCX).toNat * 2 ^ p.2.1.bits + (u.reg p.2.1 rBX).toNat →
        (a = u.mem.readList as → Completes (p.1 m) s
          ({ u with flags := { u.flags with zf := true } }.physWrite as n)) ∧
        (a ≠ u.mem.readList as → Completes (p.1 m) s
          ((({ u with flags := { u.flags with zf := false } }.physWrite as (u.mem.readList as)).setReg p.2.1 rAX
            (BitVec.ofNat p.2.1.bits (u.mem.readList as))).setReg p.2.1 rDX
            (BitVec.ofNat p.2.1.bits (u.mem.readList as / 2 ^ p.2.1.bits))))) ∧
  (∀ (dst : Rm) (src : Gp) (s u : State) (q : Place), s.isLegacySeg = false → s.isLong = false →
      Passes (place .write .w16 dst) s.begin q u →
      (rpl (u.placeVal .w16 q) < rpl (u.gpVal .w16 src) → Completes (.arpl ⟨.w16, dst, src⟩) s
        ({ u with flags := { u.flags with zf := true } }.setPlace .w16 q
          (withRpl (u.placeVal .w16 q) (rpl (u.gpVal .w16 src))))) ∧
      (¬ rpl (u.placeVal .w16 q) < rpl (u.gpVal .w16 src) → Completes (.arpl ⟨.w16, dst, src⟩) s
        { u with flags := { u.flags with zf := false } })) ∧
  ((∀ (w : Width) (r : Reg) (s : State), w ≠ .w16 →
        Completes (.bswap ⟨w, r⟩) s (s.begin.setReg w r (byteSwap (s.reg w r)))) ∧
      (∀ (r : Reg) (s : State), ∃ v : Word, Completes (.bswap ⟨.w16, r⟩) s
        { s.begin.setGp r (mergeLow (s.gp r) (v.setWidth 16)) with free := s.free + 1 }))

/-- Shifts and rotates; `q` is the place the destination resolves to, `m` the masked count. The first value of an entry is
the result, the others are CF and OF where the rule defines them. -/
def Obligations.ShiftResults : Prop :=
  (∀ i ∈ ([.sal, .shl, .shr, .sar, .rol, .ror, .rcl, .rcr] : List (ShiftOps → Instr)),
      ∀ (w : Width) (dst : Rm) (c : Count) (s u : State) (q : Place), Passes (place .write w dst) s.begin q u →
        maskCount w (u.count c) = 0 → Completes (i ⟨w, dst, c⟩) s u) ∧
  (∀ p ∈ ([(.sal, fun n m a => (a <<< m, a.getLsbD (n - m)), fun _ r cf => r.msb ^^ cf),
        (.shl, fun n m a => (a <<< m, a.getLsbD (n - m)), fun _ r cf => r.msb ^^ cf),
        (.shr, fun _ m a => (a >>> m, a.getLsbD (m - 1)), fun a _ _ => a.msb)] :
        List ((ShiftOps → Instr) × ((n : Nat) → Nat → BitVec n → BitVec n × Bool) ×
          ({n : Nat} → BitVec n → BitVec n → Bool → Bool))),
      ∀ (w : Width) (dst : Rm) (c : Count) (m : Nat) (s u : State) (q : Place), Passes (place .write w dst) s.begin q u →
        m = maskCount w (u.count c) → m ≠ 0 →
        ∃ cf of af, (m < w.bits → cf = (p.2.1 w.bits m (u.placeVal w q)).2) ∧
          (m = 1 → of = p.2.2 (u.placeVal w q) (p.2.1 w.bits m (u.placeVal w q)).1 cf) ∧
          Completes (p.1 ⟨w, dst, c⟩) s ((u.flagsDrawn
            { u.flags.szp (p.2.1 w.bits m (u.placeVal w q)).1 with cf := cf, of := of, af := af } 3).setPlace w q
            (p.2.1 w.bits m (u.placeVal w q)).1)) ∧
  (∀ (w : Width) (dst : Rm) (c : Count) (m : Nat) (s u : State) (q : Place) (r : BitVec w.bits),
      Passes (place .write w dst) s.begin q u → m = maskCount w (u.count c) → m ≠ 0 →
      (r = (u.placeVal w q).sshiftRight m → ∃ of af, (m = 1 → of = false) ∧ Completes (.sar ⟨w, dst, c⟩) s
        ((u.flagsDrawn { u.flags.szp r with cf := ((u.placeVal w q).sshiftRight (m - 1)).getLsbD 0, of := of, af := af } 2).setPlace
          w q r)) ∧
      (r = (u.placeVal w q).rotateLeft m → ∃ of, (m = 1 → of = (r.msb ^^ r.getLsbD 0)) ∧ Completes (.rol ⟨w, dst, c⟩) s
        ((u.flagsDrawn { u.flags with cf := r.getLsbD 0, of := of } 1).setPlace w q r)) ∧
      (r = (u.placeVal w q).rotateRight m → ∃ of, (m = 1 → of = (r.msb ^^ r.getLsbD (w.bits - 2))) ∧
        Completes (.ror ⟨w, dst, c⟩) s ((u.flagsDrawn { u.flags with cf := r.msb, of := of } 1).setPlace w q r))) ∧
  (∀ (w : Width) (dst : Rm) (c : Count) (m : Nat) (s u : State) (q : Place) (x : BitVec (w.bits + 1)),
      Passes (place .write w dst) s.begin q u → m = maskCount w (u.count c) → m ≠ 0 →
      (x = (withCarry u.flags.cf (u.placeVal w q)).rotateLeft m →
        ∃ of, ((u.count c).toNat = 1 → of = ((x.setWidth w.bits).msb ^^ x.msb)) ∧ Completes (.rcl ⟨w, dst, c⟩) s
          ((u.flagsDrawn { u.flags with cf := x.msb, of := of } 1).setPlace w q (x.setWidth w.bits))) ∧
      (x = (withCarry u.flags.cf (u.placeVal w q)).rotateRight m →
        ∃ of, ((u.count c).toNat = 1 → of = ((u.placeVal w q).msb ^^ u.flags.cf)) ∧ Completes (.rcr ⟨w, dst, c⟩) s
          ((u.flagsDrawn { u.flags with cf := x.msb, of := of } 1).setPlace w q (x.setWidth w.bits)))) ∧
  (∀ p ∈ ([(.shld, fun n m a b => ((((a ++ b) <<< m : BitVec (n + n))).extractLsb' n n, a.getLsbD (n - m))),
        (.shrd, fun n m a b => ((((b ++ a) >>> m : BitVec (n + n))).extractLsb' 0 n, a.getLsbD (m - 1)))] :
        List ((DShiftOps → Instr) × ((n : Nat) → Nat → BitVec n → BitVec n → BitVec n × Bool))),
      ∀ (w : Width) (dst : Rm) (src : Reg) (c : Count) (m : Nat) (s u : State) (q : Place),
        Passes (place .write w dst) s.begin q u → m = maskCount w (u.count c) →
        (m = 0 → Completes (p.1 ⟨w, dst, src, c⟩) s u) ∧
        (∀ (r : BitVec w.bits) (cf : Bool), 0 < m → m ≤ w.bits → (r, cf) = p.2 w.bits m (u.placeVal w q) (u.reg w src) →
          ∃ of af, (m = 1 → of = ((u.placeVal w q).msb ^^ r.msb)) ∧ Completes (p.1 ⟨w, dst, src, c⟩) s
            ((u.flagsDrawn { u.flags.szp r with cf := cf, of := of, af := af } 2).setPlace w q r)) ∧
        (w.bits < m → ∃ (r : BitVec w.bits) (g : Flags), Completes (p.1 ⟨w, dst, src, c⟩) s
            ((u.flagsDrawn (u.flags.withStatus g) 7).setPlace w q r))) ∧
  ((∀ p ∈ ([(.sarx, fun _ a m => a.sshiftRight m), (.shlx, fun _ a m => a <<< m), (.shrx, fun _ a m => a >>> m)] :
        List ((Vg3 → Instr) × ((n : Nat) → BitVec n → Nat → BitVec n))),
      ∀ (w : Width) (dst c : Reg) (src : Rm) (s u : State) (b : BitVec w.bits), VexGprReady .bmi2 s →
        Passes (readRm w src) s.begin b u →
        Completes (p.1 ⟨w, dst, c, src⟩) s (u.setReg w dst (p.2 w.bits b (maskCount w ((u.reg w c).setWidth 8))))) ∧
      (∀ (w : Width) (dst : Reg) (src : Rm) (imm : BitVec 8) (s u : State) (b : BitVec w.bits), VexGprReady .bmi2 s →
        Passes (readRm w src) s.begin b u →
        Completes (.rorx ⟨w, dst, src, imm⟩) s (u.setReg w dst (b.rotateRight (maskCount w imm)))))

/-- Bit instructions. `g` holds undefined status flags; `q` and `i` are the place and the bit number the operands of a bit
test resolve to. -/
def Obligations.BitResults : Prop :=
  ((∀ (o : BitOps) (s u : State) (q : Place) (i : Nat), Passes (bitPlace .read o) s.begin (q, i) u →
        ∃ g, Completes (.bt o) s (u.flagsDrawn
          { u.flags.withStatus g with cf := (u.placeVal o.w q).getLsbD i, zf := u.flags.zf } 6)) ∧
      (∀ p ∈ ([(.bts, fun _ => true), (.btr, fun _ => false), (.btc, fun b => !b)] : List ((BitOps → Instr) × (Bool → Bool))),
        ∀ (o : BitOps) (s u : State) (q : Place) (i : Nat) (b : Bool), Passes (bitPlace .write o) s.begin (q, i) u →
          b = (u.placeVal o.w q).getLsbD i →
          ∃ g, Completes (p.1 o) s ((u.flagsDrawn { u.flags.withStatus g with cf := b, zf := u.flags.zf } 6).setPlace o.w q
            (if p.2 b then u.placeVal o.w q ||| BitVec.ofNat o.w.bits (2 ^ i)
              else u.placeVal o.w q &&& ~~~BitVec.ofNat o.w.bits (2 ^ i))))) ∧
  (∀ p ∈ ([(.bsf, fun _ a => trailing a, fun _ => True), (.bsr, fun n a => n - 1 - leading a, fun _ => True),
        (.tzcnt, fun _ a => trailing a, fun s => s.has .bmi1 = false),
        (.lzcnt, fun n a => n - 1 - leading a, fun s => s.has .lzcnt = false)] :
        List ((RegRm → Instr) × ((n : Nat) → BitVec n → Nat) × (State → Prop))),
      ∀ (w : Width) (dst : Reg) (src : Rm) (s u : State) (a : BitVec w.bits), p.2.2 s → Passes (readRm w src) s.begin a u →
        (a ≠ 0 → ∃ g, Completes (p.1 ⟨w, dst, src⟩) s
          ((u.flagsDrawn { u.flags.withStatus g with zf := false } 6).setReg w dst (BitVec.ofNat w.bits (p.2.1 w.bits a)))) ∧
        (a = 0 → ∃ g v, Completes (p.1 ⟨w, dst, src⟩) s
          ((u.flagsDrawn { u.flags.withStatus g with zf := true } 7).setGp dst v))) ∧
  ((∀ p ∈ ([(.tzcnt, .bmi1, fun _ a => trailing a), (.lzcnt, .lzcnt, fun _ a => leading a)] :
        List ((RegRm → Instr) × Config.Feature × ((n : Nat) → BitVec n → Nat))),
      ∀ (w : Width) (dst : Reg) (src : Rm) (s u : State) (a : BitVec w.bits), s.has p.2.1 = true →
        Passes (readRm w src) s.begin a u → ∃ g, Completes (p.1 ⟨w, dst, src⟩) s
          ((u.flagsDrawn { u.flags.withStatus g with cf := decide (a = 0), zf := decide (p.2.2 w.bits a = 0) } 6).setReg w dst
            (BitVec.ofNat w.bits (p.2.2 w.bits a)))) ∧
      (∀ (w : Width) (dst : Reg) (src : Rm) (s u : State) (a : BitVec w.bits), s.has .popcnt = true →
        Passes (readRm w src) s.begin a u → Completes (.popcnt ⟨w, dst, src⟩) s
          ({ u with flags := { u.flags with of := false, sf := false, zf := decide (a = 0), af := false, cf := false,
                                            pf := false } }.setReg w dst (BitVec.ofNat w.bits (popcount a))))) ∧
  (∀ (w : Width) (dst a : Reg) (src : Rm) (s u : State) (b r : BitVec w.bits), Passes (readRm w src) s.begin b u →
      (VexGprReady .bmi1 s → r = ~~~(u.reg w a) &&& b → ∃ g, Completes (.andn ⟨w, dst, a, src⟩) s
        ((u.flagsDrawn { u.flags.withStatus g with sf := r.msb, zf := decide (r = 0), of := false, cf := false } 6).setReg
          w dst r)) ∧
      (VexGprReady .bmi1 s → r = BitVec.ofNat w.bits (b.toNat / 2 ^ ((u.reg w a).toNat % 256) % 2 ^ ((u.reg w a).toNat / 256 % 256)) →
        ∃ g, Completes (.bextr ⟨w, dst, a, src⟩) s
          ((u.flagsDrawn { u.flags.withStatus g with zf := decide (r = 0), cf := false, of := false } 6).setReg w dst r)) ∧
      (VexGprReady .bmi2 s → r = BitVec.ofNat w.bits (b.toNat % 2 ^ ((u.reg w a).toNat % 256)) →
        ∃ g, Completes (.bzhi ⟨w, dst, a, src⟩) s
          ((u.flagsDrawn { u.flags.withStatus g with
            sf := r.msb, zf := decide (r = 0), cf := decide (w.bits ≤ (u.reg w a).toNat % 256), of := false } 6).setReg w dst r)) ∧
      (VexGprReady .bmi2 s → Completes (.pdep ⟨w, dst, a, src⟩) s
        (u.setReg w dst (BitVec.ofNat w.bits (deposit (u.reg w a) b w.bits 0 0)))) ∧
      (VexGprReady .bmi2 s → Completes (.pext ⟨w, dst, a, src⟩) s
        (u.setReg w dst (BitVec.ofNat w.bits (extractBits (u.reg w a) b w.bits 0 0))))) ∧
  ((∀ p ∈ ([(.blsi, fun _ a => -a &&& a, fun z => z, fun z => !z), (.blsmsk, fun _ a => (a - 1) ^^^ a, fun _ => false, fun z => z),
        (.blsr, fun _ a => (a - 1) &&& a, fun z => z, fun z => z)] :
        List ((RegRm → Instr) × ((n : Nat) → BitVec n → BitVec n) × (Bool → Bool) × (Bool → Bool))),
      ∀ (w : Width) (dst : Reg) (src : Rm) (s u : State) (a : BitVec w.bits), VexGprReady .bmi1 s →
        Passes (readRm w src) s.begin a u → ∃ g, Completes (p.1 ⟨w, dst, src⟩) s
          ((u.flagsDrawn { u.flags.withStatus g with
            sf := (p.2.1 w.bits a).msb, zf := p.2.2.1 (decide (p.2.1 w.bits a = 0)), cf := p.2.2.2 (decide (a = 0)), of := false } 6).setReg w dst
            (p.2.1 w.bits a))) ∧
      (∀ (o : CrcOps) (s u : State) (v : BitVec o.sw.bits), s.has .sse42 = true → Passes (readRm o.sw o.src) s.begin v u →
        Completes (.crc32 o) s (u.setReg o.w o.dst ((crcStep ((u.gp o.dst).setWidth 32) v).setWidth o.w.bits))))

/-- Plain moves. -/
def Obligations.MoveResults : Prop :=
  ((∀ (w : Width) (dst : Rm) (src : Gp) (s u : State) (q : Place), Passes (place .write w dst) s.begin q u →
        Completes (.mov (.mr w dst src)) s (u.setPlace w q (s.gpVal w src))) ∧
      (∀ (w : Width) (dst : Gp) (src : Rm) (s u : State) (v : BitVec w.bits), Passes (readRm w src) s.begin v u →
        Completes (.mov (.rm w dst src)) s (u.setGpVal w dst v)) ∧
      (∀ (w : Width) (dst : Rm) (imm : Word) (s u : State) (q : Place), Passes (place .write w dst) s.begin q u →
        Completes (.mov (.mi w dst imm)) s (u.setPlace w q (imm.setWidth w.bits))) ∧
      (∀ (w : Width) (src : Moffs) (s u : State) (as : List Nat), Passes (resolveMoffs .read w src) s.begin as u →
        Completes (.mov (.fromMoffs w src)) s (u.setReg w rAX (BitVec.ofNat w.bits (u.mem.readList as)))) ∧
      (∀ (w : Width) (dst : Moffs) (s u : State) (as : List Nat), Passes (resolveMoffs .write w dst) s.begin as u →
        Completes (.mov (.toMoffs w dst)) s (u.physWrite as (s.reg w rAX).toNat))) ∧
  (∀ (w : Width) (dst : Reg) (sw : Width) (src : Rm) (s u : State) (v : BitVec sw.bits), Passes (readRm sw src) s.begin v u →
      Completes (.movsx ⟨w, dst, sw, src⟩) s (u.setReg w dst (v.signExtend w.bits)) ∧
      Completes (.movsxd ⟨w, dst, sw, src⟩) s (u.setReg w dst (v.signExtend w.bits)) ∧
      Completes (.movzx ⟨w, dst, sw, src⟩) s (u.setReg w dst (v.setWidth w.bits))) ∧
  (∀ (w : Width) (r : Reg) (m : MemRef) (s : State),
      (∀ (u : State) (v : BitVec w.bits), s.has .movbe = true → Passes (readRm w (.mem m)) s.begin v u →
        Completes (.movbe (.load w r m)) s (u.setReg w r (byteSwap v))) ∧
      (∀ (u : State) (q : Place), s.has .movbe = true → Passes (place .write w (.mem m)) s.begin q u →
        Completes (.movbe (.store w m r)) s (u.setPlace w q (byteSwap (s.reg w r)))) ∧
      (∀ (u : State) (q : Place), s.has .sse2 = true → Passes (place .write w (.mem m)) s.begin q u →
        Completes (.movnti ⟨w, r, m⟩) s (u.setPlace w q (s.reg w r))) ∧
      Completes (.lea ⟨w, r, m⟩) s (s.begin.setReg w r ((s.ea m).setWidth w.bits))) ∧
  (∀ (a : ASize) (s u : State) (v : Nat),
      (Passes (memRead .ds (a.trunc (s.gp rBX + (s.reg .w8 rAX).setWidth 64)) 1 1) s.begin v u →
        Completes (.xlatb a) s (u.setReg .w8 rAX (BitVec.ofNat 8 v))) ∧
      (∀ r, Passes (memRead r (a.trunc (s.gp rBX + (s.reg .w8 rAX).setWidth 64)) 1 1) s.begin v u →
        Completes (.xlat ⟨a, r⟩) s (u.setReg .w8 rAX (BitVec.ofNat 8 v))))

/-- The conditional moves and sets, each with its condition. -/
def Obligations.ConditionalResults : Prop :=
  (∀ p ∈ ([
        (.cmovo, .o), (.cmovno, .no), (.cmovb, .b), (.cmovae, .ae), (.cmove, .e), (.cmovne, .ne), (.cmovbe, .be),
        (.cmova, .a), (.cmovs, .s), (.cmovns, .ns), (.cmovp, .p), (.cmovnp, .np), (.cmovl, .l), (.cmovge, .ge),
        (.cmovle, .le), (.cmovg, .g)] : List ((RegRm → Instr) × Cond)),
      ∀ (w : Width) (dst : Reg) (src : Rm) (s u : State) (v : BitVec w.bits), s.has .cmov = true →
        Passes (readRm w src) s.begin v u →
        (u.flags.holds p.2 = true → Completes (p.1 ⟨w, dst, src⟩) s (u.setReg w dst v)) ∧
        (u.flags.holds p.2 = false → w = .w32 ∧ u.lma = true →
          Completes (p.1 ⟨w, dst, src⟩) s (u.setGp dst ((u.gp dst).setWidth 32 |>.setWidth 64))) ∧
        (u.flags.holds p.2 = false → ¬ (w = .w32 ∧ u.lma = true) → Completes (p.1 ⟨w, dst, src⟩) s u)) ∧
  (∀ p ∈ ([
        (.seto, .o), (.setno, .no), (.setb, .b), (.setae, .ae), (.sete, .e), (.setne, .ne), (.setbe, .be), (.seta, .a),
        (.sets, .s), (.setns, .ns), (.setp, .p), (.setnp, .np), (.setl, .l), (.setge, .ge), (.setle, .le), (.setg, .g)] : List ((Rm → Instr) × Cond)),
      ∀ (dst : Rm) (s u : State) (q : Place), Passes (place .write .w8 dst) s.begin q u →
        Completes (p.1 dst) s (u.setPlace .w8 q (if s.begin.flags.holds p.2 then 1 else 0)))

/-- Flag instructions, hints and fences. -/
def Obligations.FlagInstructionResults : Prop :=
  (∀ p ∈ ([(.clc, fun f => { f with cf := false }), (.stc, fun f => { f with cf := true }), (.cmc, fun f => { f with cf := !f.cf }),
        (.cld, fun f => { f with df := false }), (.std, fun f => { f with df := true })] : List (Instr × (Flags → Flags))),
      ∀ s : State, Completes p.1 s { s.begin with flags := p.2 s.begin.flags }) ∧
  (∀ s : State, (s.isLong = true → s.has .lahf64 = true) →
      Completes .lahf s (s.begin.setGpVal .w8 (.hi 0) ((s.begin.flags.image &&& 0xD7).setWidth 8)) ∧
      Completes .sahf s { s.begin with
        flags := s.begin.flags.load 0xD5 ((s.gpVal .w8 (.hi 0)).setWidth 64) }) ∧
  (∀ s : State,
      (s.ifTarget = .real → Completes .cli s { s.begin with flags := { s.begin.flags with ifl := false } } ∧
        Completes .sti s { s.begin with
          flags := { s.begin.flags with ifl := true }
          act := if s.flags.ifl then s.begin.act else { s.begin.act with inhibit := .sti } }) ∧
      (s.ifTarget = .virtual → Completes .cli s { s.begin with flags := { s.begin.flags with vif := false } } ∧
        (s.flags.vip = false → Completes .sti s { s.begin with flags := { s.begin.flags with vif := true } }))) ∧
  (∀ s : State, (s.pe = false ∨ s.flags.vm = false ∧ s.cpl = 0) → s.has .smap = true →
      Completes .clac s { s.begin with flags := { s.begin.flags with ac := false } } ∧
      Completes .stac s { s.begin with flags := { s.begin.flags with ac := true } }) ∧
  ((∀ s : State, Completes .pause s s.begin ∧ Completes (.nop none) s s.begin ∧
        (∀ o, (s.cfg.signature.extractLsb' 8 4 = 6 ∨ s.cfg.signature.extractLsb' 8 4 = 15) →
          Completes (.nop (some o)) s s.begin) ∧
        (s.has .sse2 = true → Completes .lfence s s.begin ∧ Completes .mfence s s.begin) ∧
        (s.has .sse = true → Completes .sfence s s.begin)) ∧
      (∀ i ∈ ([.prefetcht0, .prefetcht1, .prefetcht2, .prefetchnta, .prefetchw, .prefetchwt1] : List (MemRef → Instr)),
        ∀ (m : MemRef) (s : State), Completes (i m) s s.begin))

/-- The stack instructions. `ass` are the addresses the checks of the pushes resolve to and `fin` is the final stack
pointer. -/
def Obligations.StackResults : Prop :=
  ((∀ (w : Width) (src : Rm) (s u v : State) (x : BitVec w.bits) (ass : List (List Nat)) (fin : Word),
        Passes (readRm w src) s.begin x u → Passes (pushSlots [w.bytes]) u (ass, fin) v →
        Completes (.push (.rm w src)) s ((v.stored ass [x.toNat]).setSp s.stackSize fin)) ∧
      (∀ (w : Width) (imm : BitVec 32) (s v : State) (ass : List (List Nat)) (fin : Word),
        Passes (pushSlots [w.bytes]) s.begin (ass, fin) v →
        Completes (.push (.imm w imm)) s ((v.stored ass [(immOf w imm).toNat]).setSp s.stackSize fin)) ∧
      (∀ (w : Width) (r : SReg) (s v : State) (ass : List (List Nat)) (fin : Word),
        (s.isLong = true → r = .fs ∨ r = .gs) → (w = .w32 → s.cfg.pushSreg32Zext = true) →
        Passes (pushSlots [w.bytes]) s.begin (ass, fin) v →
        Completes (.push (.seg w r)) s ((v.stored ass [(s.segOf r).sel.toNat]).setSp s.stackSize fin)) ∧
      (∀ (r : SReg) (s v : State) (as : List Nat) (t : Word), (s.isLong = true → r = .fs ∨ r = .gs) →
        s.cfg.pushSreg32Zext = false → t = s.stackSize.trunc (s.sp - 4) →
        Passes (resolve .ss .write 2 1 t 2) s.begin as v →
        Completes (.push (.seg .w32 r)) s ((v.physWrite as (s.segOf r).sel.toNat).setSp s.stackSize t))) ∧
  ((∀ (w : Width) (g : Gp) (s u : State) (v : Nat), Passes (stackPeek s.sp w.bytes) s.begin v u →
        Completes (.pop ⟨w, .reg g⟩) s ((u.popped w.bytes).setGpVal w g (BitVec.ofNat w.bits v))) ∧
      (∀ (w : Width) (m : MemRef) (s u t : State) (v : Nat) (q : Place), s.popWraps m w.bytes = false →
        Passes (stackPeek s.sp w.bytes) s.begin v u → Passes (place .write w (.mem m)) (u.popped w.bytes) q t →
        Completes (.pop ⟨w, .mem m⟩) s (t.setPlace w q (BitVec.ofNat w.bits v))) ∧
      (∀ (w : Width) (r : SReg) (s u v t : State) (x : Nat) (l : SegLoad) (as : List Nat), r ≠ .cs →
        (s.isLong = true → r = .fs ∨ r = .gs) → Passes (stackPeek s.sp w.bytes) s.begin x u →
        Passes (checkSegLoad r (BitVec.ofNat 16 x)) u l v → Passes l.resolve v as t →
        Completes (.popSeg ⟨w, r⟩) s
          ((((t.marked as).setSeg r l.cache).setSp s.stackSize (s.sp + BitVec.ofNat 64 w.bytes)).afterSs r))) ∧
  (∀ p ∈ ([(.pusha, .popa, .w16), (.pushad, .popad, .w32)] : List (Instr × Instr × Width)),
      (∀ (s v : State) (ass : List (List Nat)) (fin : Word), s.isLong = false →
        (s.isLegacySeg = true → s.sp ∉ [7, 9, 11, 13, 15]) → Passes (pushSlots (List.replicate 8 p.2.2.bytes)) s.begin (ass, fin) v →
        Completes p.1 s ((v.stored ass ([rAX, rCX, rDX, rBX, rSP, rBP, rSI, rDI].map fun r => (s.reg p.2.2 r).toNat)).setSp
          s.stackSize fin)) ∧
      (∀ s t : State, s.isLong = false →
        PopsRegs p.2.2 [rDI, rSI, rBP, rSP, rBX, rDX, rCX, rAX] s.begin t → Completes p.2.1 s t)) ∧
  (∀ p ∈ ([(.pushf, .popf, 2), (.pushfd, .popfd, 4), (.pushfq, .popfq, 8)] : List (Instr × Instr × Nat)),
      (∀ (s v : State) (ass : List (List Nat)) (fin : Word), (s.pe = true → s.flags.vm = true → s.flags.iopl = 3) →
        Passes (pushSlots [p.2.2]) s.begin (ass, fin) v →
        Completes p.1 s ((v.stored ass [(s.begin.flags.image &&& 0xFCFFFF).toNat % 2 ^ (8 * p.2.2)]).setSp s.stackSize fin)) ∧
      (∀ (s u : State) (v : Nat) (m1 m2 m3 : Word), (s.pe = true → s.flags.vm = true → s.flags.iopl = 3) →
        Passes (stackPeek s.sp p.2.2) s.begin v u → m1 = (if p.2.2 = 2 then flagsW16 else flagsW32) →
        m2 = (if s.pe && decide (s.cpl ≠ 0) then m1 &&& ~~~flagsIopl else m1) →
        m3 = (if s.pe && decide (s.flags.iopl < s.cpl) then m2 &&& ~~~flagsIf else m2) →
        Completes p.2.1 s { u.popped p.2.2 with flags := u.flags.load m3 (BitVec.ofNat 64 v) })) ∧
  (∀ (w : Width) (size : BitVec 16) (level : BitVec 8) (s u1 u2 u3 t : State) (n : Nat) (ass bss : List (List Nat))
        (copies : List (List Nat × List Nat)) (frame sp1 sp2 fin : Word),
      n = (if s.isLong then 8 else w.bytes) → Passes (pushFrom s.sp [n]) s.begin (ass, frame) u1 →
      Passes (enterCopies s.stackSize n (level.toNat % 32 - 1) (s.stackSize.trunc (s.gp rBP)) frame) u1 (copies, sp1) u2 →
      Passes (pushFrom sp1 (if level.toNat % 32 = 0 then [] else [n])) u2 (bss, sp2) u3 →
      fin = s.stackSize.trunc (sp2 - size.setWidth 64) → Passes (probeStack fin) u3 () t →
      Completes (.enter ⟨w, size, level⟩) s
        ((((t.stored ass [(s.gp rBP).toNat % 2 ^ (8 * n)]).copied copies).stored bss [frame.toNat % 2 ^ (8 * n)]).framed
          s.stackSize frame fin)) ∧
  ((∀ (c : SegCache) (a : ASize) (user ac : Bool) (sp fin : Word) (ns : List Nat) (ass : List (List Nat)) (s u : State),
        Passes (pushPlan c a user ac sp ns) s (ass, fin) u →
        ass.length = ns.length ∧ fin = (pushOffsets a sp ns).getLastD sp ∧
          ∀ p ∈ (pushOffsets a sp ns).zip (ns.zip ass), ∃ x y, AccessOnly s x ∧
            Passes (resolveIn .ss c user .write (if ac then p.2.1 else 1) 1 p.1 p.2.1) x p.2.2 y) ∧
      (∀ (ns : List Nat) (r : List (List Nat) × Word) (s u : State), Passes (pushSlots ns) s r u ↔
        Passes (pushPlan (s.segOf .ss) s.stackSize (decide (s.cpl = 3)) true s.sp ns) s r u)) ∧
  (∀ (w : Width) (s u : State) (v : Nat) (bp : Word), bp = s.stackSize.trunc (s.gp rBP) →
      (s.isLegacySeg = true → s.segVerdict .ss (s.segOf .ss) .read bp w.bytes = .ok) →
      Passes (stackPeek (s.begin.setSp s.stackSize bp).sp w.bytes) (s.begin.setSp s.stackSize bp) v u →
      Completes (.leave w) s ((u.popped w.bytes).setReg w rBP (BitVec.ofNat w.bits v)))

/-- Near transfers; `t` is the target cut to the operand size. -/
def Obligations.NearTransferResults : Prop :=
  (∀ p ∈ ([
        (.jo, .o), (.jno, .no), (.jb, .b), (.jae, .ae), (.je, .e), (.jne, .ne), (.jbe, .be), (.ja, .a), (.js, .s),
        (.jns, .ns), (.jp, .p), (.jnp, .np), (.jl, .l), (.jge, .ge), (.jle, .le), (.jg, .g)] : List ((JccOps → Instr) × Cond)),
      ∀ (w : Width) (d : BitVec 32) (s : State) (t : Word), t = cutTarget w (s.ripNext + d.signExtend 64) →
        (s.flags.holds p.2 = false → Completes (p.1 ⟨w, d⟩) s s.begin) ∧
        (s.flags.holds p.2 = true → s.targetIn t → Completes (p.1 ⟨w, d⟩) s { s.begin with rip := t })) ∧
  (∀ p ∈ ([(.jcxz, .a16), (.jecxz, .a32), (.jrcxz, .a64)] : List ((JcxzOps → Instr) × ASize)),
      ∀ (w : Width) (d : BitVec 8) (s : State) (t : Word), t = cutTarget w (s.ripNext + d.signExtend 64) →
        (p.2.trunc (s.gp rCX) ≠ 0 → Completes (p.1 ⟨w, d⟩) s s.begin) ∧
        (p.2.trunc (s.gp rCX) = 0 → s.targetIn t → Completes (p.1 ⟨w, d⟩) s { s.begin with rip := t })) ∧
  (∀ p ∈ ([(.loop, fun _ => true), (.loope, fun f => f.zf), (.loopne, fun f => !f.zf)] :
        List ((LoopOps → Instr) × (Flags → Bool))),
      ∀ (w : Width) (a : ASize) (d : BitVec 8) (s x : State) (n t : Word), n = a.trunc (a.trunc (s.gp rCX) - 1) →
        x = s.begin.setReg a.width rCX (n.setWidth a.width.bits) → t = cutTarget w (s.ripNext + d.signExtend 64) →
        ((n = 0 ∨ p.2 s.begin.flags = false) → Completes (p.1 ⟨w, a, d⟩) s x) ∧
        (n ≠ 0 → p.2 s.begin.flags = true → x.targetIn t → Completes (p.1 ⟨w, a, d⟩) s { x with rip := t })) ∧
  ((∀ (w : Width) (d : BitVec 32) (s : State) (t : Word), t = cutTarget w (s.ripNext + d.signExtend 64) → s.targetIn t →
        Completes (.jmpNear (.rel w d)) s { s.begin with rip := t }) ∧
      (∀ (w : Width) (m : Rm) (s u : State) (b : BitVec w.bits) (t : Word), Passes (readRm w m) s.begin b u →
        t = cutTarget w (b.setWidth 64) → u.targetIn t → Completes (.jmpNear (.ind w m)) s { u with rip := t })) ∧
  ((∀ (w : Width) (d : BitVec 32) (s v : State) (t : Word) (ass : List (List Nat)) (fin : Word),
        t = cutTarget w (s.ripNext + d.signExtend 64) → s.targetIn t → Passes (pushSlots [w.bytes]) s.begin (ass, fin) v →
        Completes (.call (.rel w d)) s { (v.stored ass [s.ripNext.toNat % 2 ^ w.bits]).setSp s.stackSize fin with rip := t }) ∧
      (∀ (w : Width) (m : Rm) (s u v : State) (b : BitVec w.bits) (t : Word) (ass : List (List Nat)) (fin : Word),
        Passes (readRm w m) s.begin b u → t = cutTarget w (b.setWidth 64) → u.targetIn t →
        Passes (pushSlots [w.bytes]) u (ass, fin) v →
        Completes (.call (.ind w m)) s { (v.stored ass [u.ripNext.toNat % 2 ^ w.bits]).setSp u.stackSize fin with rip := t }) ∧
      (∀ (w : Width) (imm : Option (BitVec 16)) (s u : State) (x : Nat), Passes (stackPeek s.sp w.bytes) s.begin x u →
        (u.popped w.bytes).targetIn (BitVec.ofNat 64 x) →
        Completes (.retNear ⟨w, imm⟩) s
          { (u.popped w.bytes).setSp u.stackSize ((u.popped w.bytes).sp + (imm.getD 0).setWidth 64) with
            rip := BitVec.ofNat 64 x }))

/-- Segment register loads; `l` is the load that the checks of the selector give, `as` the address of its accessed bit. -/
def Obligations.SegmentLoadResults : Prop :=
  ((∀ (r : SReg) (src : Rm) (s u v t : State) (sel : BitVec 16) (l : SegLoad) (as : List Nat), r ≠ .cs →
        Passes (readRm .w16 src) s.begin sel u → Passes (checkSegLoad r sel) u l v → Passes l.resolve v as t →
        Completes (.movSeg (.load r src)) s (((t.marked as).setSeg r l.cache).afterSs r)) ∧
      (∀ (w : Width) (g : Gp) (r : SReg) (s : State),
        Completes (.movSeg (.store w (.reg g) r)) s (s.begin.setGpVal w g ((s.segOf r).sel.setWidth w.bits))) ∧
      (∀ (w : Width) (m : MemRef) (r : SReg) (s u : State) (q : Place), Passes (place .write .w16 (.mem m)) s.begin q u →
        Completes (.movSeg (.store w (.mem m) r)) s (u.setPlace .w16 q (s.segOf r).sel))) ∧
  (∀ p ∈ ([(.lds, .ds, fun s => s.isLong = false), (.les, .es, fun s => s.isLong = false), (.lfs, .fs, fun _ => True),
        (.lgs, .gs, fun _ => True), (.lss, .ss, fun _ => True)] : List ((RegMem → Instr) × SReg × (State → Prop))),
      ∀ (w : Width) (dst : Reg) (m : MemRef) (s u v t : State) (off : Word) (sel : BitVec 16) (l : SegLoad) (as : List Nat), p.2.2 s →
        Passes (readFarPtr w m) s.begin (off, sel) u → Passes (checkSegLoad p.2.1 sel) u l v → Passes l.resolve v as t →
        Completes (p.1 ⟨w, dst, m⟩) s (((t.marked as).setSeg p.2.1 l.cache).setReg w dst (off.setWidth w.bits))) ∧
  (∀ (r : SReg) (sel : BitVec 16) (s : State),
      (∀ c : SegCache, Passes (SegLoad.plain c).resolve s [] s) ∧
      (s.mode = .real → Passes (checkSegLoad r sel) s (.plain ((s.segOf r).realLoad sel)) s) ∧
      (s.mode = .v86 → Passes (checkSegLoad r sel) s (.plain (SegCache.v86Load sel)) s) ∧
      (s.mode = .prot ∨ s.mode = .compat ∨ s.mode = .long → r ≠ .ss → isNull sel = true →
        Passes (checkSegLoad r sel) s (.plain ((s.segOf r).nullLoad sel)) s)) ∧
  (∀ (sel : BitVec 16) (s u : State) (a : Word) (x : Nat) (c : SegCache),
      s.mode = .prot ∨ s.mode = .compat ∨ s.mode = .long → isNull sel = false → s.descAddr sel 8 = some a →
      Passes (sysRead a 8) s x u → c = descCache sel (BitVec.ofNat 128 x) → c.p = true →
      (rpl sel = s.cpl → c.writable = true → c.dpl = s.cpl →
        Passes (checkSegLoad .ss sel) s (.ofDesc sel a (BitVec.ofNat 128 x)) u) ∧
      (∀ r : SReg, r ≠ .ss → c.readable = true →
        ((c.isCode = true ∧ c.typ.getLsbD 2 = true) ∨ (rpl sel ≤ c.dpl ∧ s.cpl ≤ c.dpl)) →
        Passes (checkSegLoad r sel) s (.ofDesc sel a (BitVec.ofNat 128 x)) u))

/-- Far transfers. `u` is the state after the operand is read, `d` the code segment the checks of the selector or gate give,
and `as` the address of its accessed bit. `StackResults` says which slots a plan of pushes resolves. -/
def Obligations.FarTransferResults : Prop :=
  (∀ (o : FarOps) (s u : State) (off0 off : Word) (sel : BitVec 16), FarOperand o s off0 sel u → off = cutTarget (farWidth o) off0 →
      (u.isLegacySeg = true → u.segVerdict .cs (u.legacyCs sel) .exec off 1 = .ok →
        Completes (.jmpFar o) s (u.withLegacyCode (u.legacyCs sel) off)) ∧
      (∀ (d : SegLoad) (as : List Nat) (v x : State), u.isLegacySeg = false → Passes (farTarget sel) u (.code d) v →
        u.targetOk d.cache off = true → Passes d.resolve v as x →
        Completes (.jmpFar o) s ((x.marked as).withCode d u.cpl off)) ∧
      (∀ (g : CallGate) (d : SegLoad) (as : List Nat) (v x y : State), u.isLegacySeg = false → Passes (farTarget sel) u (.gate g) v →
        Passes (gateCode g fun c => if c.conforming then decide (c.dpl ≤ u.cpl) else decide (c.dpl = u.cpl)) v d x →
        u.targetOk d.cache g.off = true → Passes d.resolve x as y →
        Completes (.jmpFar o) s ((y.marked as).withCode d u.cpl g.off))) ∧
  (∀ (o : FarOps) (s u : State) (off0 off : Word) (sel : BitVec 16), FarOperand o s off0 sel u → off = cutTarget (farWidth o) off0 →
      (∀ (ass : List (List Nat)) (fin : Word) (v : State), u.isLegacySeg = true →
        u.pushRoom (u.segOf .ss) u.stackSize u.sp (legacyRoom (farWidth o)) = true → off.toNat < 2 ^ 16 →
        u.segVerdict .cs (u.legacyCs sel) .exec off 1 = .ok → Passes (pushSlots [(farWidth o).bytes, (farWidth o).bytes]) u (ass, fin) v →
        Completes (.call (callOf o)) s
          (((v.stored ass ((u.returnItems (farWidth o).bytes).map (·.2))).setSp u.stackSize fin).withLegacyCode (u.legacyCs sel) off)) ∧
      (∀ (d : SegLoad) (ass : List (List Nat)) (fin : Word) (as : List Nat) (v x y : State), u.isLegacySeg = false →
        Passes (farTarget sel) u (.code d) v →
        v.pushRoom (v.segOf .ss) v.stackSize v.sp [(farWidth o).bytes, (farWidth o).bytes] = true → u.targetOk d.cache off = true →
        Passes (pushSlots [(farWidth o).bytes, (farWidth o).bytes]) v (ass, fin) x → Passes d.resolve x as y →
        Completes (.call (callOf o)) s
          ((((y.stored ass ((u.returnItems (farWidth o).bytes).map (·.2))).setSp v.stackSize fin).marked as).withCode d u.cpl off))) ∧
  (∀ (o : FarOps) (s u v x : State) (off0 : Word) (sel : BitVec 16) (g : CallGate) (d : SegLoad), FarOperand o s off0 sel u →
      u.isLegacySeg = false → Passes (farTarget sel) u (.gate g) v → Passes (gateCode g fun c => decide (c.dpl ≤ u.cpl)) v d x →
      (∀ (n : Nat) (w y z : State) (as : List Nat) (ass : List (List Nat)) (fin : Word),
        d.cache.conforming = true ∨ u.cpl ≤ d.cache.dpl → n = g.slot x.lma → w = x.gateStack.withCode d x.cpl g.off →
        w.pushRoom (w.segOf .ss) w.stackSize w.sp [n, n] = true → x.targetOk d.cache g.off = true → Passes d.resolve w as y →
        Passes (pushSlots [n, n]) y (ass, fin) z →
        Completes (.call (callOf o)) s (((z.marked as).stored ass ((x.returnItems n).map (·.2))).setSp w.stackSize fin)) ∧
      (∀ (cpl : BitVec 2) (rsp fin : Word) (as : List Nat) (ass : List (List Nat)) (w y z : State),
        d.cache.conforming = false → d.cache.dpl < u.cpl → cpl = d.cache.dpl → x.lma = true →
        TssWord (cpl.toNat * 8 + 4) x rsp w → canonical (rsp - 32) = true ∧ canonical (rsp - 1) = true → canonical g.off = true →
        Passes d.resolve (w.withCode d cpl g.off) as y →
        Passes (pushPlan (x.nullStack cpl) .a64 false false rsp [8, 8, 8, 8]) y (ass, fin) z →
        Completes (.call (callOf o)) s
          ((((z.marked as).stored ass ((x.oldStack 8 ++ x.returnItems 8).map (·.2))).setSeg .ss (x.nullStack cpl)).setGp rSP fin)) ∧
      (∀ (n : Nat) (cpl : BitVec 2) (ss : SegLoad) (size : ASize) (esp sp1 fin : Word) (sas as : List Nat)
          (as1 as2 : List (List Nat)) (params : List (Nat × Nat)) (u1 u2 u3 u4 u5 u6 : State),
        d.cache.conforming = false → d.cache.dpl < u.cpl → cpl = d.cache.dpl → x.lma = false → n = g.slot false →
        InnerStack cpl x ss esp u1 → size = x.stackSizeOf ss.cache →
        x.pushRoom ss.cache size (size.trunc esp) (List.replicate (4 + g.count) n) = true → x.targetOk d.cache g.off = true →
        Passes ss.resolve u1 sas u2 → Passes d.resolve u2 as u3 →
        Passes (pushPlan ss.cache size false false (size.trunc esp) [n, n]) u3 (as1, sp1) u4 →
        Passes (gateParams n x.sp g.count) u4 params u5 →
        Passes (pushPlan ss.cache size false false sp1 (List.replicate (g.count + 2) n)) u5 (as2, fin) u6 →
        Completes (.call (callOf o)) s (((u6.marked sas).marked as).enterInner d cpl g.off ss.cache size esp fin (as1 ++ as2)
          ((x.oldStack n ++ params.reverse ++ x.returnItems n).map (·.2))))) ∧
  (∀ (n k : Nat) (sp : Word) (ps : List (Nat × Nat)) (s t : State), Passes (gateParams n sp k) s ps t →
      ps.length = k ∧ ∀ p ∈ (List.range k).zip ps, p.2.1 = n ∧
        ∃ x y, AccessOnly s x ∧ Passes (stackPeek (sp + BitVec.ofNat 64 (p.1 * n)) n) x p.2.2 y) ∧
  (∀ (w : Width) (i : Option (BitVec 16)) (s : State) (imm : Word), imm = (i.getD 0).setWidth 64 → s.stackTop (2 * w.bytes) →
      (∀ (a b : Nat) (u v : State), s.isLegacySeg = true → Passes (stackPeek s.sp w.bytes) s.begin a u →
        Passes (stackPeek (u.popped w.bytes).sp w.bytes) (u.popped w.bytes) b v →
        v.segVerdict .cs (v.segOf .cs) .exec (BitVec.ofNat 64 a) 1 = .ok →
        v.segVerdict .cs (v.legacyCs (BitVec.ofNat 16 b)) .exec (BitVec.ofNat 64 a) 1 = .ok →
        ∃ t : State, t = (v.popped w.bytes).withLegacyCode (v.legacyCs (BitVec.ofNat 16 b)) (BitVec.ofNat 64 a) ∧
          Completes (.retFar ⟨w, i⟩) s (t.setSp t.stackSize (t.sp + imm))) ∧
      (∀ (a b : Nat) (u v x y : State) (d : SegLoad) (as : List Nat), s.isLegacySeg = false →
        Passes (stackPeek (s.sp + BitVec.ofNat 64 w.bytes) w.bytes) s.begin b u → Passes (stackPeek s.sp w.bytes) u a v →
        Passes (returnCode (BitVec.ofNat 16 b)) v d x → rpl (BitVec.ofNat 16 b) = s.cpl →
        s.targetOk d.cache (BitVec.ofNat 64 a) = true → Passes d.resolve x as y →
        Completes (.retFar ⟨w, i⟩) s (((y.marked as).withCode d s.cpl (BitVec.ofNat 64 a)).setSp s.stackSize
          (s.sp + BitVec.ofNat 64 (2 * w.bytes) + imm))) ∧
      (∀ (a b c e : Nat) (u v x y z r q1 q : State) (d ss : SegLoad) (as sas : List Nat), s.isLegacySeg = false →
        Passes (stackPeek (s.sp + BitVec.ofNat 64 w.bytes) w.bytes) s.begin b u → Passes (stackPeek s.sp w.bytes) u a v →
        Passes (returnCode (BitVec.ofNat 16 b)) v d x → rpl (BitVec.ofNat 16 b) ≠ s.cpl → x.stackTop (4 * w.bytes + imm.toNat) →
        Passes (stackPeek (s.sp + BitVec.ofNat 64 (3 * w.bytes) + imm) w.bytes) x c y →
        Passes (stackPeek (s.sp + BitVec.ofNat 64 (2 * w.bytes) + imm) w.bytes) y e z →
        Passes (returnStack (fun k => raiseSS k) d (BitVec.ofNat 16 c)) z ss r → s.targetOk d.cache (BitVec.ofNat 64 a) = true →
        Passes d.resolve r as q1 → Passes ss.resolve q1 sas q →
        ∃ t, t = (((((q.marked as).withCode d (rpl (BitVec.ofNat 16 b)) (BitVec.ofNat 64 a)).withPoppedSp w s.isLong e).marked
            sas).setSeg .ss ss.cache).hideSegs (rpl (BitVec.ofNat 16 b)) ∧
          Completes (.retFar ⟨w, i⟩) s (t.setSp t.stackSize (t.sp + imm))))

/-- IRET, by operand size. `u`, `v`, `x` are the states after the three reads of the frame. -/
def Obligations.InterruptReturnResults : Prop :=
  (∀ p ∈ ([(.iret, .w16), (.iretd, .w32), (.iretq, .w64)] : List (Instr × Width)),
      ∀ (a b f : Nat) (s u v x : State), s.stackTop (3 * p.2.bytes) → Passes (stackPeek s.sp p.2.bytes) s.iretBegin a u →
        Passes (stackPeek (u.popped p.2.bytes).sp p.2.bytes) (u.popped p.2.bytes) b v →
        Passes (stackPeek (v.popped p.2.bytes).sp p.2.bytes) (v.popped p.2.bytes) f x →
        x.segVerdict .cs (x.legacyCs (BitVec.ofNat 16 b)) .exec (BitVec.ofNat 64 a) 1 = .ok →
        (s.mode = .real → Completes p.1 s
          { (x.popped p.2.bytes).withLegacyCode (x.legacyCs (BitVec.ofNat 16 b)) (BitVec.ofNat 64 a) with
            flags := x.flags.load (if p.2 = .w16 then flagsW16 else iretReal32) (BitVec.ofNat 64 f) }) ∧
        (s.mode = .v86 → s.flags.iopl = 3 → Completes p.1 s
          { (x.popped p.2.bytes).withLegacyCode (x.legacyCs (BitVec.ofNat 16 b)) (BitVec.ofNat 64 a) with
            flags := x.flags.load ((if p.2 = .w16 then flagsW16 else iretReal32) &&& ~~~flagsIopl) (BitVec.ofNat 64 f) })) ∧
  (∀ p ∈ ([(.iret, .w16), (.iretd, .w32), (.iretq, .w64)] : List (Instr × Width)),
      ∀ (a b f : Nat) (s u v x y : State) (d : SegLoad) (as : List Nat), s.mode = .prot ∨ s.mode = .compat ∨ s.mode = .long →
        s.flags.nt = false → s.stackTop (3 * p.2.bytes) → Passes (stackPeek s.sp p.2.bytes) s.iretBegin a u →
        Passes (stackPeek (s.sp + BitVec.ofNat 64 p.2.bytes) p.2.bytes) u b v →
        Passes (stackPeek (s.sp + BitVec.ofNat 64 (2 * p.2.bytes)) p.2.bytes) v f x →
        (s.lma = true ∨ (BitVec.ofNat 64 f).getLsbD 17 = false ∨ s.cpl ≠ 0) →
        Passes (returnCode (BitVec.ofNat 16 b)) x d y → s.targetOk d.cache (BitVec.ofNat 64 a) = true →
        (∀ z : State, rpl (BitVec.ofNat 16 b) = s.cpl → s.isLong = false → Passes d.resolve y as z →
          Completes p.1 s (State.setSp { (z.marked as).withCode d s.cpl (BitVec.ofNat 64 a) with
            flags := z.flags.load (iretMask p.2 s.cpl s.flags.iopl) (BitVec.ofNat 64 f) } s.stackSize
            (s.sp + BitVec.ofNat 64 (3 * p.2.bytes)))) ∧
        (∀ (c e : Nat) (y1 y2 y3 z1 z : State) (ss : SegLoad) (sas : List Nat), rpl (BitVec.ofNat 16 b) ≠ s.cpl ∨ s.isLong = true →
          y.stackTop (5 * p.2.bytes) → Passes (stackPeek (s.sp + BitVec.ofNat 64 (3 * p.2.bytes)) p.2.bytes) y e y1 →
          Passes (stackPeek (s.sp + BitVec.ofNat 64 (4 * p.2.bytes)) p.2.bytes) y1 c y2 →
          Passes (returnStack (fun k => raiseNP k) d (BitVec.ofNat 16 c)) y2 ss y3 → Passes d.resolve y3 as z1 →
          Passes ss.resolve z1 sas z →
          ∃ t : State, t = ((State.withPoppedSp { (z.marked as).withCode d (rpl (BitVec.ofNat 16 b)) (BitVec.ofNat 64 a) with
              flags := z.flags.load (iretMask p.2 s.cpl s.flags.iopl) (BitVec.ofNat 64 f) } p.2 s.isLong e).marked sas).setSeg
              .ss ss.cache ∧
            Completes p.1 s (if rpl (BitVec.ofNat 16 b) ≠ s.cpl then t.hideSegs (rpl (BitVec.ofNat 16 b)) else t))) ∧
  (∀ p ∈ ([(.iret, .w16), (.iretd, .w32), (.iretq, .w64)] : List (Instr × Width)),
      ∀ (a b f esp ss es ds fs gs : Nat) (s u v x t1 t2 t3 t4 t5 t : State), s.mode = .prot → s.flags.nt = false → s.cpl = 0 →
        (BitVec.ofNat 64 f).getLsbD 17 = true → s.stackTop (3 * p.2.bytes) → Passes (stackPeek s.sp p.2.bytes) s.iretBegin a u →
        Passes (stackPeek (s.sp + BitVec.ofNat 64 p.2.bytes) p.2.bytes) u b v →
        Passes (stackPeek (s.sp + BitVec.ofNat 64 (2 * p.2.bytes)) p.2.bytes) v f x → x.stackTop 36 →
        Passes (stackPeek (s.sp + 12) 4) x esp t1 → Passes (stackPeek (s.sp + 16) 4) t1 ss t2 →
        Passes (stackPeek (s.sp + 20) 4) t2 es t3 → Passes (stackPeek (s.sp + 24) 4) t3 ds t4 →
        Passes (stackPeek (s.sp + 28) 4) t4 fs t5 → Passes (stackPeek (s.sp + 32) 4) t5 gs t → (BitVec.ofNat 64 a).toNat ≤ 0xFFFF →
        Completes p.1 s (t.toV86 (BitVec.ofNat 16 b) (BitVec.ofNat 64 a) (BitVec.ofNat 64 f) esp ss es ds fs gs))

/-- Interrupts by instruction, outside a transaction. `t` is the state the delivery leaves: `Delivered` of Safety says it
for each kind of gate. -/
def Obligations.SoftwareInterruptResults : Prop :=
  ((∀ (n : BitVec 8) (s t : State), s.rtm.snapshot = none →
        Delivered { kind := .softInt, vec := n, ret := s.ripNext } s.softBegin t → exec (.intN n) s = .next t) ∧
      (∀ (s t : State), s.rtm.snapshot = none →
        Delivered { kind := .int3, vec := 3, ret := s.ripNext } s.softBegin t → exec .int3 s = .next t) ∧
      (∀ (s t : State), s.rtm.snapshot = none → s.isLong = false → s.flags.of = true →
        Delivered { kind := .into, vec := 4, ret := s.ripNext } s.softBegin t → exec .into s = .next t)) ∧
  ((∀ s : State, s.isLong = false → s.flags.of = false → Completes .into s s.begin) ∧
      (∀ (w : Width) (r : Reg) (m : MemRef) (s u v : State) (lo hi : Nat), s.isLong = false →
        Passes (memRead m.seg (s.ea m) w.bytes w.bytes) s.begin lo u →
        Passes (memRead m.seg (s.ea m + BitVec.ofNat 64 w.bytes) w.bytes w.bytes) u hi v →
        (BitVec.ofNat w.bits lo).toInt ≤ (v.reg w r).toInt ∧ (v.reg w r).toInt ≤ (BitVec.ofNat w.bits hi).toInt →
        Completes (.bound ⟨w, r, m⟩) s v)) ∧
  (∀ i ∈ ([.ud2, .rsm] : List Instr), ∀ (s t : State), s.rtm.snapshot = none →
        Delivered { kind := .exception, vec := 6, ret := s.rip, rf := true } s t → exec i s = .next t) ∧
  ((∀ (e : Event) (s t : State), Delivered e s t → Passes (deliverOnce e) s () t) ∧
      (∀ (x : Exc) (s y t : State), s.rtm.snapshot = none →
        y = (match x.cr2 with | some a => { s with sys := { s.sys with cr2 := a } } | none => s) →
        Delivered (x.event y) y t → takeException x s = .next t)) ∧
  ((∀ (e : Event) (s u : State) (x : Exc), GateOpen e s → Raises (deliverTable e s.lma) s x u → Raises (deliverOnce e) s x u) ∧
      (∀ (e : Event) (s : State), s.pe = true → s.flags.vm = true → e.kind = .softInt → s.flags.iopl ≠ 3 →
        Raises (deliverOnce e) s { vec := 13, code := some 0 } s) ∧
      (∀ (e : Event) (s : State) (n : Nat), (s.lma = true → e.kind = .into → s.isLong = false) → n = (if s.lma then 16 else 8) →
        ¬ e.vec.toNat * n + (n - 1) ≤ s.sys.idtr.limit.toNat →
        Raises (deliverTable e s.lma) s { vec := 13, code := some (idtCode e.vec e.ext) } s)) ∧
  (∀ (e : Event) (s u : State) (g : Gate), IdtEntry e s g u →
      (g.isTransfer s.lma = false → ¬ (s.lma = false ∧ g.s = false ∧ g.typ = 5) →
        Raises (deliverTable e s.lma) s { vec := 13, code := some (idtCode e.vec e.ext) } u) ∧
      (g.isTransfer s.lma = true → e.isSoft = true → g.dpl < s.cpl →
        Raises (deliverTable e s.lma) s { vec := 13, code := some (idtCode e.vec e.ext) } u) ∧
      (g.isTransfer s.lma = true → (e.isSoft = true → s.cpl ≤ g.dpl) → g.p = false →
        Raises (deliverTable e s.lma) s { vec := 11, code := some (idtCode e.vec e.ext) } u) ∧
      (∀ (x : Exc) (v : State), GateServes e s g → Raises (deliverGate e s.lma g) u x v → Raises (deliverTable e s.lma) s x v)) ∧
  ((∀ (e : Event) (g : Gate) (s : State), isNull g.sel = true →
        Raises (deliverGate e s.lma g) s { vec := 13, code := some (extCode e.ext) } s) ∧
      (∀ (e : Event) (g : Gate) (s : State), isNull g.sel = false → s.descAddr g.sel 8 = none →
        Raises (deliverGate e s.lma g) s { vec := 13, code := some (selCode g.sel e.ext) } s) ∧
      (∀ (e : Event) (g : Gate) (cs : SegLoad) (s u : State), GateSegment s g cs u →
        (¬ SegmentServes s cs.cache → Raises (deliverGate e s.lma g) s { vec := 13, code := some (selCode g.sel e.ext) } u) ∧
        (SegmentServes s cs.cache → cs.cache.p = false →
          Raises (deliverGate e s.lma g) s { vec := 11, code := some (selCode g.sel e.ext) } u) ∧
        (SegmentServes s cs.cache → cs.cache.p = true → ¬ FromV86Ok s cs.cache →
          Raises (deliverGate e s.lma g) s { vec := 13, code := some (selCode g.sel e.ext) } u))) ∧
  (∀ (n : BitVec 8) (s u : State) (x : Exc), s.rtm.snapshot = none → x.vec = 11 ∨ x.vec = 13 → x.cr2 = none →
      AccessOnly s.softBegin u → Raises (deliverOnce { kind := .softInt, vec := n, ret := s.ripNext }) s.softBegin x u →
      exec (.intN n) s = deliver 31 (x.event { s.softBegin with mem := u.mem }) { s.softBegin with mem := u.mem })

/-- The string instructions, each form; the `...Done` predicates of Safety say what one element reads, checks, stores and
steps. Repetition: one iteration is one step of the model. `n` is the count register at the address size. -/
def Obligations.StringResults : Prop :=
  (∀ p ∈ ([(.movsb, .w8), (.movsw, .w16), (.movsdStr, .w32), (.movsq, .w64)] : List ((ASize → Instr) × Width)),
      ∀ (a : ASize) (s t : State), (MovsDone p.2 a .ds s.begin t → Completes (p.1 a) s t) ∧
        (∀ r, MovsDone p.2 a r s.begin t → Completes (.movs ⟨p.2, a, r⟩) s t)) ∧
  (∀ p ∈ ([(.cmpsb, .w8), (.cmpsw, .w16), (.cmpsdStr, .w32), (.cmpsq, .w64)] : List ((ASize → Instr) × Width)),
      ∀ (a : ASize) (s t : State), (CmpsDone p.2 a .ds s.begin t → Completes (p.1 a) s t) ∧
        (∀ r, CmpsDone p.2 a r s.begin t → Completes (.cmps ⟨p.2, a, r⟩) s t)) ∧
  (∀ p ∈ ([(.lodsb, .w8), (.lodsw, .w16), (.lodsd, .w32), (.lodsq, .w64)] : List ((ASize → Instr) × Width)),
      ∀ (a : ASize) (s t : State), (LodsDone p.2 a .ds s.begin t → Completes (p.1 a) s t) ∧
        (∀ r, LodsDone p.2 a r s.begin t → Completes (.lods ⟨p.2, a, r⟩) s t)) ∧
  (∀ p ∈ ([(.stosb, .w8), (.stosw, .w16), (.stosd, .w32), (.stosq, .w64)] : List ((ASize → Instr) × Width)),
      ∀ (a : ASize) (s t : State), StosDone p.2 a s.begin t →
        Completes (p.1 a) s t ∧ (∀ r, Completes (.stos ⟨p.2, a, r⟩) s t)) ∧
  (∀ p ∈ ([(.scasb, .w8), (.scasw, .w16), (.scasd, .w32), (.scasq, .w64)] : List ((ASize → Instr) × Width)),
      ∀ (a : ASize) (s t : State), ScasDone p.2 a s.begin t →
        Completes (p.1 a) s t ∧ (∀ r, Completes (.scas ⟨p.2, a, r⟩) s t)) ∧
  (∀ p ∈ ([(.insb, .outsb, .w8), (.insw, .outsw, .w16), (.insd, .outsd, .w32)] : List ((ASize → Instr) × (ASize → Instr) × Width)),
      ∀ (a : ASize) (s t : State),
        (InsDone p.2.2 a s.begin t → Completes (p.1 a) s t ∧ (∀ r, Completes (.ins ⟨p.2.2, a, r⟩) s t)) ∧
        (OutsDone p.2.2 a .ds s.begin t → Completes (p.2.1 a) s t) ∧
        (∀ r, OutsDone p.2.2 a r s.begin t → Completes (.outs ⟨p.2.2, a, r⟩) s t)) ∧
  (∀ (o : RepOp) (s u : State) (n : Word), n = (repSize o).trunc (s.gp rCX) →
      (n = 0 → exec (.rep o) s = .next (s.repBegin.finish s.repBegin.begin)) ∧
      (n ≠ 0 → RepDone o s.repBegin.begin u → exec (.rep o) s = .next (s.repBegin.finish
        (s.repNext (u.setReg (repSize o).width rCX ((n - 1).setWidth (repSize o).width.bits)) (n - 1) false)))) ∧
  (∀ p ∈ ([(.repe, fun f => !f.zf), (.repne, fun f => f.zf)] : List ((RepCmpOp → Instr) × (Flags → Bool))),
      ∀ (o : RepCmpOp) (s u : State) (n : Word), n = (cmpSize o).trunc (s.gp rCX) →
        (n = 0 → exec (p.1 o) s = .next (s.repBegin.finish s.repBegin.begin)) ∧
        (n ≠ 0 → RepCmpDone o s.repBegin.begin u → exec (p.1 o) s = .next (s.repBegin.finish
          (s.repNext (u.setReg (cmpSize o).width rCX ((n - 1).setWidth (cmpSize o).width.bits)) (n - 1) (p.2 u.flags)))))

/-- Ports. -/
def Obligations.PortResults : Prop :=
  (∀ (w : Width) (p : Port) (s u : State), Passes (ioCheck (s.portNum p) w.bytes) s.begin () u →
      Completes (.inp ⟨w, p⟩) s
        ((u.portGave (s.portNum p) w.bytes (u.portValue w.bytes)).setReg w rAX ((u.portValue w.bytes).setWidth w.bits)) ∧
      Completes (.out ⟨w, p⟩) s { u with io := .write (s.portNum p) w.bytes ((u.reg w rAX).setWidth 32) :: u.io }) ∧
  (∀ (port : BitVec 16) (n : Nat) (s : State), s.pe = false ∨ s.flags.vm = false ∧ s.cpl ≤ s.flags.iopl →
      Passes (ioCheck port n) s () (s.portMet port n))

/-- Waiting, caches and identification. -/
def Obligations.HaltAndCacheResults : Prop :=
  (∀ s : State, s.privileged = true →
      Completes .hlt s { s.begin with act := { s.begin.act with halted := true } } ∧ Completes .invd s s.begin ∧
      Completes .wbinvd s s.begin ∧ (∀ m, Completes (.invlpg m) s s.begin) ∧
      (∀ (w : Width) (r : Reg) (m : MemRef) (u : State) (d : Nat), s.has .invpcid = true → Passes (readMem m 16) s.begin d u →
        invpcidOk (u.isLong && u.cr4Bit 17) (u.reg w r).toNat (BitVec.ofNat 128 d) = true → Completes (.invpcid ⟨w, r, m⟩) s u)) ∧
  (∀ (m : MemRef) (s u : State) (a : Nat), s.has .clfsh = true →
      s.segVerdict m.seg (s.segOf m.seg) .exec (s.ea m) 1 = .ok →
      Passes (translate .read (decide (s.cpl = 3)) false (s.linear m.seg (s.segOf m.seg) (s.ea m))) s.begin a u →
      Completes (.clflush m) s u) ∧
  (∀ (s : State), s.has .monitor = true → s.cpl = 0 → s.mode ≠ .v86 →
      (∀ (o : MonOps) (u : State) (as : List Nat), (if s.isLong then s.gp rCX else (s.gp rCX).setWidth 32 |>.setWidth 64) = 0 →
        Passes (resolve (segFor o.ovr none) .read 1 1 (o.a.trunc (s.gp rAX)) 1) s.begin as u →
        Completes (.monitor o) s { u with act := { u.act with
          monitorArmed := true
          monitorSize := u.cfg.monitorLine
          monitorLow := as.headD 0 / u.cfg.monitorLine * u.cfg.monitorLine } }) ∧
      (∀ e : Word, e = (if s.isLong then s.gp rCX else (s.gp rCX).setWidth 32 |>.setWidth 64) → e >>> 1 = 0 →
        (e.getLsbD 0 = true → s.mwaitBreak = true) →
        Completes .mwait s (if s.act.monitorArmed then
          { s.begin with act := { s.begin.act with mwaitWaiting := true, mwaitMaskedBreak := e.getLsbD 0 } } else s.begin))) ∧
  (∀ (s : State) (r : Config.CpuidRow), r = s.begin.cpuidRow ((s.gp rAX).setWidth 32) ((s.gp rCX).setWidth 32) →
      Completes .cpuid s (((({ s.begin with msr := { s.msr with biosSignId := s.cfg.microcode ++ (0 : BitVec 32) } }.setGp rAX
        (r.eax.setWidth 64)).setGp rBX (r.ebx.setWidth 64)).setGp rCX (r.ecx.setWidth 64)).setGp rDX (r.edx.setWidth 64)))

/-- Control and debug registers; `g` holds the undefined status flags. -/
def Obligations.ControlRegisterResults : Prop :=
  (∀ (r : Reg) (s : State) (cr : Fin 16), s.privileged = true →
      (cr = 0 ∨ cr = 2 ∨ cr = 3 ∨ cr = 4 ∨ cr = 8 ∧ s.isLong = true → ∃ g, Completes (.movCr (.store r cr)) s
        ((s.begin.setReg s.crWidth r ((s.sys.cr cr).setWidth s.crWidth.bits)).statusDrawn g)) ∧
      (∃ g, Completes (.movCr (.load 2 r)) s
        ({ s.begin with sys := { s.sys with cr2 := (s.reg s.crWidth r).setWidth 64 } }.statusDrawn g)) ∧
      (∀ v : Word, v = (s.reg s.crWidth r).setWidth 64 →
        (∀ u, s.cr0Ok v = true →
          PagingInstalled false s.begin { s.begin with sys := { s.sys with cr0 := (v &&& cr0Writable) ||| 0x10 } } u →
          ∃ g, Completes (.movCr (.load 0 r)) s (u.statusDrawn g)) ∧
        (∀ u, (s.lma = true → v &&& s.cr3Reserved = 0) →
          PagingInstalled true s.begin { s.begin with sys := { s.sys with cr3 := v &&& ~~~(bitsMask 63 s.cfg.maxPhyAddr) } } u →
          ∃ g, Completes (.movCr (.load 3 r)) s (u.statusDrawn g)) ∧
        (∀ u, s.cr4Ok v = true → PagingInstalled false s.begin { s.begin with sys := { s.sys with cr4 := v } } u →
          ∃ g, Completes (.movCr (.load 4 r)) s (u.statusDrawn g)) ∧
        (s.isLong = true → v >>> 4 = 0 → ∃ g, Completes (.movCr (.load 8 r)) s
          ({ s.begin with sys := { s.sys with cr8 := v } }.statusDrawn g)))) ∧
  (∀ (r : Reg) (dr : Fin 8) (s : State) (n : Nat), s.privileged = true → s.sys.dr7.getLsbD 13 = false →
      (dr = 4 ∨ dr = 5 → s.cr4Bit 3 = false ∧ n = dr.val + 2) → (¬ (dr = 4 ∨ dr = 5) → n = dr.val) →
      (∃ g, Completes (.movDr (.store r dr)) s
        ((s.begin.setReg s.crWidth r ((s.sys.drOf n).setWidth s.crWidth.bits)).statusDrawn g)) ∧
      (∀ v : Word, v = (s.reg s.crWidth r).setWidth 64 → (n < 6 ∨ v >>> 32 = 0) →
        ∃ g, Completes (.movDr (.load dr r)) s ({ s.begin with sys := s.sys.setDr n (drFixed n v) }.statusDrawn g))) ∧
  ((∀ s : State, s.privileged = true →
        Completes .clts s { s.begin with sys := { s.sys with cr0 := s.sys.cr0 &&& ~~~(8 : Word) } } ∧
        (∀ (o : Rm) (u : State) (v : BitVec 16), Passes (readRm .w16 o) s.begin v u →
          Completes (.lmsw o) s
            { u with sys := { u.sys with cr0 := (u.sys.cr0 &&& ~~~(0xE : Word)) ||| (v.setWidth 64 &&& 0xF) } })) ∧
      (∀ s : State,
        (∀ g, s.isLong = false → ∃ x : BitVec 16, Completes (.smsw ⟨.w32, .reg g⟩) s
          ({ s.begin with free := s.free + 1 }.setGpVal .w32 g (x ++ s.sys.cr0.setWidth 16))) ∧
        (∀ w g, s.isLong = true ∨ w ≠ .w32 → Completes (.smsw ⟨w, .reg g⟩) s
          (s.begin.setGpVal w g (s.sys.cr0.setWidth w.bits))) ∧
        (∀ (w : Width) (m : MemRef) (u : State) (q : Place), Passes (place .write .w16 (.mem m)) s.begin q u →
          Completes (.smsw ⟨w, .mem m⟩) s (u.setPlace .w16 q (s.sys.cr0.setWidth 16)))))

/-- Descriptor tables. -/
def Obligations.DescriptorTableResults : Prop :=
  (∀ (o : FarMem) (s : State),
      (∀ (u : State) (t : TableReg), s.privileged = true → Passes (readTable o) s.begin t u →
        Completes (.lgdt o) s { u with sys := { u.sys with gdtr := t } } ∧
        Completes (.lidt o) s { u with sys := { u.sys with idtr := t } }) ∧
      (∀ p ∈ ([(.sgdt, s.sys.gdtr), (.sidt, s.sys.idtr)] : List ((FarMem → Instr) × TableReg)),
        ∀ (n : Nat) (u v : State) (a b : List Nat), n = (if o.w = .w64 then 8 else 4) →
        Passes (resolve o.mem.seg .write 2 1 (s.ea o.mem) 2) s.begin a u →
        Passes (resolve o.mem.seg .write 4 1 (s.ea o.mem + 2) n) u b v →
        Completes (p.1 o) s ((v.physWrite a p.2.limit.toNat).physWrite b
          (if o.w = .w16 then p.2.base.toNat % 2 ^ 24 else p.2.base.toNat % 2 ^ (8 * n))))) ∧
  (∀ (s u : State) (o : Rm) (sel : BitVec 16), s.isLegacySeg = false → s.privileged = true → Passes (readRm .w16 o) s.begin sel u →
      (isNull sel = true → Completes (.lldt o) s { u with sys := { u.sys with ldtr := u.sys.ldtr.nullLoad sel } }) ∧
      (∀ (v : State) (a : Word) (d : BitVec 128) (c : SegCache), isNull sel = false → Passes (gdtSystem sel) u (a, d) v →
        c = descCache sel d → c.s = false → c.p = true →
        (c.typ = 2 → Completes (.lldt o) s { v with sys := { v.sys with ldtr := c } }) ∧
        (∀ (x : State) (as : List Nat), (c.typ = 9 ∨ v.lma = false ∧ c.typ = 1) →
          (v.lma = true → d.extractLsb' 104 5 = 0) → Passes (sysResolve .write (a + 5) 1) v as x →
          Completes (.ltr o) s { x.physWrite as (x.mem.readList as ||| 2) with
            sys := { x.sys with tr := { c with typ := c.typ ||| 2 } } }))) ∧
  (∀ s : State, s.isLegacySeg = false →
      (∀ w g, Completes (.sldt ⟨w, .reg g⟩) s (s.begin.setGpVal w g ((s.sys.ldtr.sel.setWidth 64).setWidth w.bits)) ∧
        Completes (.str ⟨w, .reg g⟩) s (s.begin.setGpVal w g ((s.sys.tr.sel.setWidth 64).setWidth w.bits))) ∧
      (∀ (w : Width) (m : MemRef) (u : State) (q : Place), Passes (place .write .w16 (.mem m)) s.begin q u →
        Completes (.sldt ⟨w, .mem m⟩) s (u.setPlace .w16 q ((s.sys.ldtr.sel.setWidth 64).setWidth 16)) ∧
        Completes (.str ⟨w, .mem m⟩) s (u.setPlace .w16 q ((s.sys.tr.sel.setWidth 64).setWidth 16)))) ∧
  (∀ (s u v : State) (src : Rm) (sel : BitVec 16) (r : Option (SegCache × BitVec 128)), s.isLegacySeg = false →
      Passes (readRm .w16 src) s.begin sel u → Passes (inspect sel) u r v →
      (∀ w dst, (r = none ∨ (∃ c d, r = some (c, d) ∧ (u.mayInspect c sel && (c.s || larType u.lma c.typ)) = false)) →
        Completes (.lar ⟨w, dst, src⟩) s { v with flags := { v.flags with zf := false } }) ∧
      (∀ w dst c d, r = some (c, d) → (u.mayInspect c sel && (c.s || larType u.lma c.typ)) = true →
        ∃ x : BitVec 4, Completes (.lar ⟨w, dst, src⟩) s (State.setReg { v with flags := { v.flags with zf := true }, free := v.free + 1 }
          w dst (((d.extractLsb' 32 32 &&& 0x00F0FF00) ||| (x.setWidth 32 <<< 16)).setWidth w.bits))) ∧
      (∀ w dst, (r = none ∨ (∃ c d, r = some (c, d) ∧ (u.mayInspect c sel && (c.s || lslType u.lma c.typ)) = false)) →
        Completes (.lsl ⟨w, dst, src⟩) s { v with flags := { v.flags with zf := false } }) ∧
      (∀ w dst c d, r = some (c, d) → (u.mayInspect c sel && (c.s || lslType u.lma c.typ)) = true →
        Completes (.lsl ⟨w, dst, src⟩) s (State.setReg { v with flags := { v.flags with zf := true } } w dst (c.limit.setWidth w.bits))) ∧
      (∀ p ∈ ([(.verr, SegCache.readable), (.verw, SegCache.writable)] : List ((Rm → Instr) × (SegCache → Bool))),
        (r = none → Completes (p.1 src) s { v with flags := { v.flags with zf := false } }) ∧
        (∀ c d, r = some (c, d) → Completes (p.1 src) s
          { v with flags := { v.flags with zf := c.s && u.mayInspect c sel && p.2 c } })))

/-- Special registers. -/
def Obligations.SpecialRegisterResults : Prop :=
  (∀ (s : State) (a : BitVec 32), s.privileged = true → a = s.reg .w32 rCX →
      (a = 0x10 → Completes .rdmsr s (s.begin.tscRead.withEdxEax s.begin.tscRead.msr.tsc)) ∧
      (∀ v, a ≠ 0x10 → s.msrValue a = some v → Completes .rdmsr s (s.begin.withEdxEax v)) ∧
      (s.msrWritable a = true → s.edxEax &&& s.msrReserved a = 0 → (msrCanonical a = true → canonical s.edxEax = true) →
        (a = 0xC0000080 → s.eferOk s.edxEax = true) → Completes .wrmsr s (s.begin.setMsr a (s.msrMerge a s.edxEax)))) ∧
  (∀ s : State,
      (TscReady s → s.has .tsc = true → Completes .rdtsc s (s.begin.tscRead.withEdxEax s.begin.tscRead.msr.tsc)) ∧
      (TscReady s → s.has .rdtscp = true → Completes .rdtscp s
        ((s.begin.tscRead.withEdxEax s.begin.tscRead.msr.tsc).setReg .w64 rCX ((s.msr.tscAux.setWidth 32).setWidth 64))) ∧
      (s.cr4Bit 8 = true ∨ s.cpl = 0 ∨ s.pe = false → s.cfg.pmcValid.contains (s.reg .w32 rCX) = true →
        ∃ v : Word, v.toNat < 2 ^ (s.cfg.pmcMscb + 1) ∧ Completes .rdpmc s
          ((State.setReg { s.begin with free := s.free + 1 } .w32 rAX (v.setWidth 32)).setReg .w32 rDX ((v >>> 32).setWidth 32))) ∧
      (∀ p ∈ ([(.rdrand, .rdrand), (.rdseed, .rdseed)] : List ((RegOp → Instr) × Config.Feature)), s.has p.2 = true →
        ∀ w r, ∃ (ready : Bool) (data : BitVec w.bits), Completes (p.1 ⟨w, r⟩) s
          (State.setReg { s.begin with
              flags := { s.begin.flags with cf := ready, of := false, sf := false, zf := false, af := false, pf := false }
              free := s.free + 2 } w r (if ready then data else 0)))) ∧
  (∀ s : State,
      (s.cr4Bit 22 = true → s.reg .w32 rCX = 0 → Completes .rdpkru s (s.begin.withEdxEax (s.sys.pkru.setWidth 64)) ∧
        (s.reg .w32 rDX = 0 → Completes .wrpkru s { s.begin with sys := { s.sys with pkru := s.reg .w32 rAX } })) ∧
      (XsaveReady s → (s.reg .w32 rCX = 0 → Completes .xgetbv s (s.begin.withEdxEax s.sys.xcr0)) ∧
        (s.reg .w32 rCX = 1 → s.has .xg1 = true → Completes .xgetbv s (s.begin.withEdxEax (s.sys.xcr0 &&& s.begin.xinuse)))) ∧
      (XsaveReady s → s.privileged = true → s.reg .w32 rCX = 0 → s.edxEax &&& ~~~xcr0Supported = 0 → s.edxEax.getLsbD 0 = true →
        (s.edxEax.getLsbD 2 = true → s.edxEax.getLsbD 1 = true) →
        Completes .xsetbv s { s.begin with sys := { s.sys with xcr0 := s.edxEax } })) ∧
  (∀ s : State, s.isLong = true →
      (∀ p ∈ ([(.rdfsbase, .wrfsbase, .fs), (.rdgsbase, .wrgsbase, .gs)] : List ((RegOp → Instr) × (RegOp → Instr) × SReg)),
        ∀ w r, s.cr4Bit 16 = true → s.has .fsgsbase = true →
          Completes (p.1 ⟨w, r⟩) s (s.begin.setReg w r ((s.segOf p.2.2).base.setWidth w.bits)) ∧
          (canonical ((s.reg w r).setWidth 64) = true → Completes (p.2.1 ⟨w, r⟩) s
            (s.begin.setSeg p.2.2 { s.segOf p.2.2 with base := (s.reg w r).setWidth 64 }))) ∧
      (s.cpl = 0 → Completes .swapgs s
        (State.setSeg { s.begin with msr := { s.msr with kernelGsBase := (s.segOf .gs).base } } .gs
          { s.segOf .gs with base := s.msr.kernelGsBase })))

/-- Fast system calls. -/
def Obligations.FastSystemCallResults : Prop :=
  (∀ s : State, s.has .syscall = true → s.isLong = true → s.msr.efer.getLsbD 0 = true →
      Completes .syscall s { ((s.begin.setGp rCX s.ripNext).setGp 11 s.begin.flags.image).fastSegs
          (s.msr.star.extractLsb' 32 16 &&& 0xFFFC) (s.msr.star.extractLsb' 32 16 + 8) 0 true with
        rip := s.msr.lstar, flags := Flags.ofImage (s.begin.flags.image &&& ~~~s.msr.fmask) } ∧
      (∀ w cs, s.cpl = 0 → canonical (s.gp rCX) = true →
        cs = (if decide (w = .w64) then s.msr.star.extractLsb' 48 16 + 16 else s.msr.star.extractLsb' 48 16) ||| 3 →
        Completes (.sysret w) s { s.begin.fastSegs cs ((s.msr.star.extractLsb' 48 16 + 8) ||| 3) 3 (decide (w = .w64)) with
          rip := if decide (w = .w64) then s.gp rCX else ((s.gp rCX).setWidth 32).setWidth 64
          flags := Flags.ofImage ((s.gp 11 &&& 0x3C7FD7) ||| 2) })) ∧
  (∀ s : State, s.has .sep = true → s.pe = true → isNull (s.msr.sysenterCs.setWidth 16) = false →
      Completes .sysenter s { (s.begin.setGp rSP (if s.lma then s.msr.sysenterEsp else
            (s.msr.sysenterEsp.setWidth 32).setWidth 64)).fastSegs (s.msr.sysenterCs.setWidth 16 &&& 0xFFFC)
          ((s.msr.sysenterCs.setWidth 16 &&& 0xFFFC) + 8) 0 s.lma with
        rip := if s.lma then s.msr.sysenterEip else (s.msr.sysenterEip.setWidth 32).setWidth 64
        flags := { s.begin.flags with vm := false, ifl := false } } ∧
      (∀ (w : Width) (cs : BitVec 16), s.privileged = true →
        (w = .w64 → canonical (s.gp rCX) = true ∧ canonical (s.gp rDX) = true) →
        cs = (s.msr.sysenterCs.setWidth 16 + (if decide (w = .w64) then 32 else 16)) ||| 3 →
        Completes (.sysexit w) s
          { (s.begin.setGp rSP (if decide (w = .w64) then s.gp rCX else ((s.gp rCX).setWidth 32).setWidth 64)).fastSegs cs (cs + 8) 3
              (decide (w = .w64)) with
            rip := if decide (w = .w64) then s.gp rDX else ((s.gp rDX).setWidth 32).setWidth 64 }))

/-- One processor executes in order, so a locked access is one step, and the model never elides a lock. Restricted
transactional memory. `fb` is the fallback address. -/
def Obligations.TransactionResults : Prop :=
  (∀ f ∈ [Instr.lock, fun l => .xacquire (.locked l), fun l => .xrelease (.locked l)], ∀ (l : Lockable) (s : State),
      LockReady l s → ∃ t, Completes (f l) s t ∧ Completes (plainOf l) s t) ∧
  (∀ (w : Width) (m : MemRef) (r : Gp) (s u : State) (q : Place), Passes (place .write w (.mem m)) s.begin q u →
      (∀ t, Completes (.xchg ⟨w, .mem m, r⟩) s t → Completes (.xacquire (.xchg w m r)) s t ∧ Completes (.xrelease (.xchg w m r)) s t) ∧
      Completes (.xchg ⟨w, .mem m, r⟩) s ((u.setPlace w q (u.gpVal w r)).setGpVal w r (u.placeVal w q)) ∧
      Completes (.xrelease (.movReg w m r)) s (u.setPlace w q (s.gpVal w r)) ∧
      (∀ imm, Completes (.xrelease (.movImm w m imm)) s (u.setPlace w q ((imm.signExtend 64).setWidth w.bits)))) ∧
  (∀ (o : XbeginOps) (s : State), s.has .rtm = true → s.rtm.nest < s.cfg.maxRtmNest →
      (s.rtm.nest ≠ 0 → Completes (.xbegin o) s { s.begin with rtm := { s.rtm with nest := s.rtm.nest + 1 } }) ∧
      (s.rtm.nest = 0 → ∀ fb, fb = (if s.isLong then s.ripNext + o.rel.signExtend 64
          else cutTarget (if o.w = .w16 then .w16 else .w32) (s.ripNext + o.rel.signExtend 64)) → s.targetIn fb →
        Completes (.xbegin o) s { s.begin with rtm := { nest := 1, fallback := fb, snapshot := some s.begin.snapshot } })) ∧
  (∀ s : State, s.has .rtm = true → s.rtm.snapshot.isSome = true →
      (s.rtm.nest ≤ 1 → s.pins.rtmCommitFail = none → Completes .xend s { s.begin with rtm := {} }) ∧
      (∀ st, s.rtm.nest ≤ 1 → s.pins.rtmCommitFail = some st →
        Completes .xend s ({ s.begin with pins := { s.pins with rtmCommitFail := none } }.rtmAbort st)) ∧
      (1 < s.rtm.nest → Completes .xend s { s.begin with rtm := { s.rtm with nest := s.rtm.nest - 1 } })) ∧
  (∀ (imm : BitVec 8) (s : State), s.has .rtm = true →
      Completes (.xabort imm) s (s.begin.rtmAbort ((imm.setWidth 32 <<< 24) ||| 1)) ∧
      (s.rtm.snapshot = none → Completes (.xabort imm) s s.begin)) ∧
  (∀ s : State, (s.has .hle || s.has .rtm) = true → Completes .xtest s { s.begin with flags := { s.begin.flags with
      zf := s.rtm.snapshot.isNone, cf := false, of := false, sf := false, pf := false, af := false } })

/-- FXSAVE and FXRSTOR, then the saving instructions: `v`, `x` and `sel` are free values (log entries 1 and 32); an entry is
a constructor, its own feature, whether it is the optimizing or supervisor form, and whether it uses 64-bit pointers. The
hypotheses are the checks of the fields in the order they are made. -/
def Obligations.SaveAreaResults : Prop :=
  (∀ p ∈ [(Instr.fxsave, false), (.fxsave64, true)], ∀ (m : MemRef) (s u : State) (as : List Nat), s.has .fxsr = true →
      s.cr0Bit 2 = false → s.cr0Bit 3 = false → (s.mode = .real → (s.ea m).toNat + 511 ≤ 0xFFFF) →
      Passes (resolve m.seg .write 1 16 (s.ea m) 512) s.begin as u →
      ∃ v, Completes (p.1 m) s ({ u with free := u.free + 1 }.withFields as (s.x87Head p.2 ++ s.x87Regs ++ s.sseImage v))) ∧
  (∀ p ∈ [(Instr.fxrstor, false), (.fxrstor64, true)], ∀ (m : MemRef) (s u : State) (as : List Nat) (n : Nat), s.has .fxsr = true →
      s.cr0Bit 2 = false → s.cr0Bit 3 = false → (s.mode = .real → (s.ea m).toNat + 511 ≤ 0xFFFF) →
      Passes (resolve m.seg .read 1 16 (s.ea m) 512) s.begin as u →
      n = u.mem.readList as → badMxcsr (n / 2 ^ 192) = false →
      ∃ (sel : BitVec 32) (x : BitVec 2064), ∀ mx xs, (mx, xs) = (if s.cr4Bit 9 then (n / 2 ^ 192 % 2 ^ 32, n / 2 ^ 1280)
          else (x.toNat % 2 ^ 16, x.toNat / 2 ^ 16)) →
        Completes (p.1 m) s { State.loadXmms { u with fpu := fpuOfImage p.2 sel n (n / 2 ^ 256), free := u.free + 2 } xs with
          mxcsr := BitVec.ofNat 32 mx }) ∧
  (∀ p ∈ ([(.xsave, none, false, false), (.xsave64, none, false, true), (.xsaveopt, some .xsaveopt, true, false),
        (.xsaveopt64, some .xsaveopt, true, true)] : List ((MemRef → Instr) × Option Config.Feature × Bool × Bool)),
      ∀ (m : MemRef) (s u1 u2 u3 : State) (low high : List (List Nat × Nat)) (head : List Nat) (r : Word) (saved : Nat → Bool),
      XsaveImage p.2.1 false m s → r = s.rfbm false → (∀ i, saved i = (r.getLsbD i && (!p.2.2.1 || s.xinuse.getLsbD i))) →
      Passes (placeParts m (s.legacyParts p.2.2.2 (saved 0) (r.getLsbD 1 || r.getLsbD 2) (saved 1))) s.begin low u1 →
      Passes (resolvePart .write m 512 8) u1 head u2 →
      Passes (placeParts m (if saved 2 then s.avxParts else [])) u2 high u3 →
      Completes (p.1 m) s (((u3.withParts low).withParts high).physWrite head
        ((BitVec.ofNat 64 (u3.mem.readList head) &&& ~~~r) ||| (s.xinuse &&& r)).toNat)) ∧
  (∀ p ∈ ([(.xsavec, .xsavec, false, false), (.xsavec64, .xsavec, false, true), (.xsaves, .xss, true, false),
        (.xsaves64, .xss, true, true)] : List ((MemRef → Instr) × Config.Feature × Bool × Bool)),
      ∀ (m : MemRef) (s u1 u2 u3 : State) (low head high : List (List Nat × Nat)) (bv : Word), XsaveImage (some p.2.1) p.2.2.1 m s →
      bv = (s.xinuse ||| if s.mxcsr = 0x1F80 then 0 else 2) &&& s.rfbm p.2.2.1 →
      Passes (placeParts m (s.legacyParts p.2.2.2 (bv.getLsbD 0) (bv.getLsbD 1) (bv.getLsbD 1))) s.begin low u1 →
      Passes (placeParts m [⟨512, 8, bv.toNat⟩, ⟨520, 8, (s.rfbm p.2.2.1 ||| 0x8000000000000000).toNat⟩]) u1 head u2 →
      Passes (placeParts m (if bv.getLsbD 2 then s.avxParts else [])) u2 high u3 →
      Completes (p.1 m) s (((u3.withParts low).withParts high).withParts head))

/-- The restoring instructions: an entry is a constructor, its own feature, whether it is the supervisor form, and whether
it uses 64-bit pointers. The hypotheses are the reads of the parts in the order they are made; `sel` is a free value (log
entry 32). -/
def Obligations.XrstorResults : Prop :=
  ∀ p ∈ ([(.xrstor, none, false, false), (.xrstor64, none, false, true), (.xrstors, some .xss, true, false),
        (.xrstors64, some .xss, true, true)] : List ((MemRef → Instr) × Option Config.Feature × Bool × Bool)),
      ∀ (m : MemRef) (s u1 u2 u3 u4 u5 u6 u7 : State) (hd rs a0 a1 a2 a3 a4 : List Nat) (rfbm bv comp : Word) (mx : Bool),
      XsaveImage p.2.1 p.2.2.1 m s → rfbm = s.rfbm p.2.2.1 →
      Passes (resolvePart .read m 512 16) s.begin hd u1 → bv = BitVec.ofNat 64 (u1.mem.readList hd) →
      comp = BitVec.ofNat 64 (u1.mem.readList hd / 2 ^ 64) →
      Passes (resolvePart .read m 528 (if comp.getLsbD 63 then 48 else 8)) u1 rs u2 →
      mx = (if comp.getLsbD 63 then rfbm.getLsbD 1 && bv.getLsbD 1 else rfbm.getLsbD 1 || rfbm.getLsbD 2) →
      Passes (readIf (rfbm.getLsbD 0 && bv.getLsbD 0) m 0 24) u2 a0 u3 → Passes (readIf mx m 24 4) u3 a1 u4 →
      Passes (readIf (rfbm.getLsbD 0 && bv.getLsbD 0) m 32 128) u4 a2 u5 →
      Passes (readIf (rfbm.getLsbD 1 && bv.getLsbD 1) m 160 (16 * u2.imageRegs.length)) u5 a3 u6 →
      Passes (readIf (rfbm.getLsbD 2 && bv.getLsbD 2) m 576 (16 * u2.imageRegs.length)) u6 a4 u7 →
      headerOk p.2.2.1 (u2.has .xsavec) (if p.2.2.1 then u2.sys.xcr0 ||| u2.msr.xss else u2.sys.xcr0) bv comp
        (u2.mem.readList rs) = true → badMxcsr (u7.mem.readList a1) = false →
      ∃ sel, Completes (p.1 m) s (u7.restored p.2.2.2 (comp.getLsbD 63) mx rfbm bv (u7.xrstorInfo m comp) sel (u7.mem.readList a0)
        (u7.mem.readList a2) (u7.mem.readList a3) (u7.mem.readList a4) (u7.mem.readList a1))

/-- Undisturbed: no event, no pending trap, no wait, no breakpoint is due. The fetch may set accessed bits (state t). -/
def Obligations.StepRunsInstruction : Prop :=
  (∀ (s t : State) (d : Decoded), Undisturbed s → decode s.cmode (s.codeBytes 15 0) = .ok d →
      Passes (fetchBytes d.len) s () t → AccessOnly s t ∧ step s = exec d.instr (t.atInstr d.len d.fop)) ∧
  (∀ s t : State, Undisturbed s → decode s.cmode (s.codeBytes 15 0) = .error .undefined →
      Passes (fetchBytes 1) s () t → step s = takeException { vec := 6 } t)

/-- ADD ECX,EAX; MOV [RBX+10H],R9; JNE -2; PADDB XMM1,XMM2; VADDPS YMM1,YMM2,YMM3; FADD ST0,ST1; LOCK INC DWORD [RAX]. -/
def Obligations.DecodeWords : Prop :=
  ∀ p ∈ ([([0x01, 0xC1], .add (.mr .w32 (.reg (.lo 1)) (.lo 0))),
      ([0x4C, 0x89, 0x4B, 0x10], .mov (.mr .w64 (.mem ⟨none, .a64, some 3, none, 0, 0x10, false⟩) (.lo 9))),
      ([0x75, 0xFE], .jne ⟨.w64, 0xFFFFFFFE⟩), ([0x66, 0x0F, 0xFC, 0xCA], .paddb (.xx 1 (.reg 2))),
      ([0xC5, 0xEC, 0x58, 0xCB], .vaddps ⟨.l256, 1, 2, .reg 3⟩), ([0xD8, 0xC1], .fadd (.st0 1)),
      ([0xF0, 0xFF, 0x00], .lock (.un .inc .w32 ⟨none, .a64, some 0, none, 0, 0, false⟩))] : List (List Byte × Instr)),
      (decode { long := true, d32 := true, vex := true } p.1).toOption.map (fun d => (d.instr, d.len)) = some (p.2, p.1.length)

/-- The near transfers with a relative target: every condition, width, address size and displacement an encoding admits. -/
def Obligations.EncodeDecodeNearTransfers : Prop :=
  ∀ (m : CMode), (∀ k ∈ ([.jo, .jno, .jb, .jae, .je, .jne, .jbe, .ja, .js, .jns, .jp, .jnp, .jl, .jge, .jle, .jg] :
        List (JccOps → Instr)), ∀ o : JccOps, (k o).wf m = true →
        decode m (encode m (k o)) = .ok ⟨k o, (encode m (k o)).length, 0⟩) ∧
      (∀ (w : Width) (d : BitVec 32), (∀ i ∈ ([.jmpNear (.rel w d), .call (.rel w d)] : List Instr), i.wf m = true →
        decode m (encode m i) = .ok ⟨i, (encode m i).length, 0⟩)) ∧
      (∀ o : LoopOps, ∀ i ∈ ([.loop o, .loope o, .loopne o] : List Instr), i.wf m = true →
        decode m (encode m i) = .ok ⟨i, (encode m i).length, 0⟩) ∧
      (∀ o : JcxzOps, ∀ i ∈ ([.jcxz o, .jecxz o, .jrcxz o] : List Instr), i.wf m = true →
        decode m (encode m i) = .ok ⟨i, (encode m i).length, 0⟩)

/-- The operand forms these eight instructions share are the general ModRM, SIB, REX, prefix and immediate encodings. -/
def Obligations.EncodeDecodeArithmetic : Prop :=
  ∀ (m : CMode), ∀ k ∈ ([.add, .or, .adc, .sbb, .and, .sub, .xor, .cmp] : List (AluOps → Instr)), ∀ o : AluOps,
      (k o).wf m = true → decode m (encode m (k o)) = .ok ⟨k o, (encode m (k o)).length, 0⟩

/-- The invariant is about the model of memory (log entry 2): equal memories are equal data. -/
def Obligations.MemoryCanonicalKept : Prop :=
  ∀ s t : State, s.Canonical → step s = .next t → t.Canonical

/-- The start of the invariant of `MemoryCanonicalKept`. -/
def Obligations.ResetCanonical : Prop :=
  State.reset.Canonical

/-- The table of spec/10_state.md rule R190, most of whose values the spec takes by its decision D68. What the spec gives no
value is the model's choice and is not stated (log entry 12). -/
def Obligations.ResetValues : Prop :=
  (∀ s t : State, t = s.doReset → t.flags = {} ∧ t.rip = 0xFFF0 ∧ t.mode = .real ∧ t.cpl = 0 ∧
      (t.segOf .cs).sel = 0xF000 ∧ (t.segOf .cs).base = 0xFFFF0000 ∧ (∀ r, (t.segOf r).limit = 0xFFFF ∧ (t.segOf r).p = true) ∧
      (∀ r, r ≠ .cs → (t.segOf r).sel = 0 ∧ (t.segOf r).base = 0) ∧
      (∀ r, t.gp r = if r = rDX then s.cfg.signature.setWidth 64 else 0) ∧ t.sys.cr0 = 0x60000010 ∧ t.sys.cr2 = 0 ∧
      t.sys.cr3 = 0 ∧ t.sys.cr4 = 0 ∧ t.sys.cr8 = 0 ∧ t.msr.efer = 0 ∧ t.sys.xcr0 = 1 ∧ t.sys.pkru = 0 ∧
      t.sys.idtr = ⟨0, 0xFFFF⟩ ∧ t.sys.gdtr = ⟨0, 0xFFFF⟩ ∧ t.sys.dr6 = 0xFFFF0FF0 ∧ t.sys.dr7 = 0x400 ∧ t.mxcsr = 0x1F80 ∧
      t.msr.tsc = 0 ∧ t.fpu.fcw = 0x40 ∧ t.fpu.ftw = 0x5555 ∧ t.fpu.statusWord = 0 ∧ t.rtm.snapshot = none ∧
      (s.rtm.snapshot = none → t.mem = s.mem)) ∧
  (State.reset.mem = [] ∧ State.reset.io = [] ∧ State.reset.doReset = State.reset)

/-- Read after write for the one operation that stores to memory. -/
def Obligations.StoredValueReadBack : Prop :=
  ∀ (s : State) (as : List Nat) (v : Nat), s.mem.wf = true → as.Nodup →
      (s.physWrite as v).mem.readList as = v % 2 ^ (8 * as.length) ∧
      (∀ x, x ∉ as → (s.physWrite as v).mem.read x = s.mem.read x) ∧ (s.physWrite as v).mem.wf = true ∧
      (s.physWrite as v).mem.length ≤ s.mem.length + as.length ∧
      (s.act.monitorArmed = false → s.physWrite as v = { s with mem := s.mem.writeList as v })

/-- The frame of every operand access; the other statements call the state after one u. -/
def Obligations.AccessFrame : Prop :=
  ∀ (s u : State), (∀ r k nat must off n as, Passes (resolve r k nat must off n) s as u → AccessTouches s u) ∧
      (∀ k w o q, Passes (place k w o) s q u → AccessTouches s u) ∧
      (∀ w o (b : BitVec w.bits), Passes (readRm w o) s b u → AccessTouches s u) ∧
      (∀ al n o (b : BitVec (8 * n)), Passes (readXm al n o) s b u → AccessTouches s u) ∧
      (∀ n o (b : BitVec (8 * n)), Passes (readMmM n o) s b u → AccessTouches s u) ∧
      (∀ k m n must as, Passes (resolveAligned k m n must) s as u → AccessTouches s u) ∧
      (∀ m n v, Passes (readMem m n) s v u → AccessTouches s u)

/-- The frame of `State.finish`, which every completed instruction passes. -/
def Obligations.FinishFrame : Prop :=
  ∀ s t : State, (t.rtm.snapshot = none → ∃ b i m, s.finish t = { t with act := { t.act with pendingDb := b, inhibit := i, afterMovSs := m } } ∧
        b = t.act.pendingDb ||| (if s.flags.tf && decide (t.act.inhibit ≠ .movSs) then 0x4000 else 0) ∧
        i = (if s.act.inhibit = .none then t.act.inhibit else .none) ∧ m = decide (t.act.inhibit = .movSs)) ∧
      (t.rtm.snapshot.isSome = true → t.act.pendingDb ≠ 0 → ∃ b i m, s.finish t =
        State.rtmAbort { t with act := { t.act with pendingDb := b, inhibit := i, afterMovSs := m } } (t.cfg.rtmDebugStatus ||| 16)) ∧
      (t.act.pendingDb = 0 → s.flags.tf = false → s.act.inhibit = .none →
        s.finish t = { t with act := { t.act with afterMovSs := decide (t.act.inhibit = .movSs) } })

/-- Rule R2021 where the vector lies inside the table limit, the stack has room and the accesses pass. `entry` is the
vector-table entry, `ass` the addresses of the three pushes. -/
def Obligations.RealModeDelivery : Prop :=
  ∀ (e : Event) (s u v : State) (entry : Nat) (ass : List (List Nat)) (fin : Word) (p t : State), s.pe = false →
      e.vec.toNat * 4 + 3 ≤ s.sys.idtr.limit.toNat → s.pushRoom (s.segOf .ss) s.stackSize s.sp [2, 2, 2] = true →
      Passes (pushSlots [2, 2, 2]) s (ass, fin) v →
      p = (v.stored ass [(e.flagsImage s).toNat % 2 ^ 16, (e.cs s).toNat, e.ret.toNat % 2 ^ 16]).setSp s.stackSize fin →
      Passes (sysRead (s.sys.idtr.base + BitVec.ofNat 64 (e.vec.toNat * 4)) 4) p entry u →
      t = { u.setSeg .cs ((s.segOf .cs).realLoad (BitVec.ofNat 16 (entry / 2 ^ 16))) with
        flags := { s.flags with ifl := false, tf := false, ac := false }, rip := BitVec.ofNat 64 (entry % 2 ^ 16) } →
      Passes (deliverOnce e) s () (t.afterDelivery e)

/-- Rule R2028 outside IA-32e mode, from virtual-8086 mode excepted. `cs` is the code segment the gate names, `cas` the
address of its accessed bit, `as1` and `as2` the addresses of the pushes before and after CS is loaded. -/
def Obligations.SamePrivilegeDelivery : Prop :=
  ∀ (e : Event) (g : Gate) (cs : SegLoad) (s u v w : State) (n : Nat) (as1 as2 : List (List Nat)) (cas : List Nat) (sp fin : Word),
      s.flags.vm = false → (cs.cache.typ.getLsbD 2 = true ∨ s.cpl ≤ cs.cache.dpl) → n = (if g.is32 then 4 else 2) →
      s.pushRoom (s.segOf .ss) s.stackSize s.sp ([n, n, n] ++ (e.codeItem n).map (·.1)) = true → g.off.toNat ≤ cs.cache.limit.toNat →
      Passes (pushPlan (s.segOf .ss) s.stackSize (decide (s.cpl = 3)) (decide (g.dpl = 3)) s.sp [n, n, n]) s (as1, sp) u →
      Passes cs.resolve u cas v →
      Passes (pushPlan (s.segOf .ss) s.stackSize (decide (s.cpl = 3)) (decide (g.dpl = 3)) sp ((e.codeItem n).map (·.1))) v (as2, fin) w →
      Passes (deliverLegacyGate e g cs) s ()
        { ((((w.stored as1 [(e.flagsImage s).toNat % 2 ^ (8 * n), (e.cs s).toNat, e.ret.toNat % 2 ^ (8 * n)]).marked cas).stored as2
            ((e.codeItem n).map (·.2))).setSp s.stackSize fin).withCode cs s.cpl g.off with
          flags := s.flags.afterGate g }

/-- The exception is taken in the very state the instruction started in. -/
def Obligations.PrivilegedInstructionFaults : Prop :=
  ∀ s : State, s.privileged = false →
      (∀ (m : MemRef) (x : Rm) (p : FarMem) (d : MovDrOps) (r : Reg), ∀ i ∈ ([.hlt, .invd, .wbinvd, .invlpg m, .clts, .lmsw x, .lgdt p,
        .lidt p, .rdmsr, .wrmsr, .movDr d, .movCr (.load 0 r), .movCr (.load 2 r), .movCr (.load 3 r), .movCr (.load 4 r),
        .movCr (.store r 0), .movCr (.store r 2), .movCr (.store r 3), .movCr (.store r 4)] : List Instr),
        exec i s = takeException { vec := 13, code := some 0 } s) ∧
      (s.isLegacySeg = false → ∀ x : Rm, exec (.lldt x) s = takeException { vec := 13, code := some 0 } s ∧
        exec (.ltr x) s = takeException { vec := 13, code := some 0 } s)

/-- One instruction of each shape that requires alignment. -/
def Obligations.MisalignedVectorFaults : Prop :=
  ∀ (r : Reg) (m : MemRef) (s : State), s.cr0Bit 2 = false → s.cr4Bit 9 = true → s.has .sse = true → s.has .sse2 = true →
      s.cr0Bit 3 = false → (s.linear m.seg (s.segOf m.seg) (s.ea m)).toNat % 16 ≠ 0 →
      (s.segVerdict m.seg (s.segOf m.seg) .read (s.ea m) 16 = .ok →
        ∀ i ∈ ([.movaps (.load r (.mem m)), .movdqa (.load r (.mem m)), .addps ⟨r, .mem m⟩, .andps ⟨r, .mem m⟩,
          .paddb (.xx r (.mem m)), .pxor (.xx r (.mem m))] : List Instr),
          exec i s = takeException { vec := 13, code := some 0 } s) ∧
      (s.segVerdict m.seg (s.segOf m.seg) .write (s.ea m) 16 = .ok →
        ∀ i ∈ ([.movaps (.store (.mem m) r), .movdqa (.store (.mem m) r)] : List Instr),
          exec i s = takeException { vec := 13, code := some 0 } s)

/-- The state the exception is taken in differs from the one before at most in accessed bits set by reading the divisor. -/
def Obligations.DivideErrors : Prop :=
  (∀ (w : Width) (x : Rm) (s u : State) (b : BitVec w.bits), Passes (readRm w x) s.begin b u →
      (b = 0 ∨ 2 ^ w.bits ≤ s.dividend w / b.toNat → exec (.div ⟨w, x⟩) s = takeException { vec := 0 } (s.faulted u)) ∧
      (b = 0 ∨ (b.toInt ≠ 0 ∧ ¬ (-(2 ^ (w.bits - 1) : Int) ≤ (BitVec.ofNat (2 * w.bits) (s.dividend w)).toInt.tdiv b.toInt ∧
          (BitVec.ofNat (2 * w.bits) (s.dividend w)).toInt.tdiv b.toInt < 2 ^ (w.bits - 1))) →
        exec (.idiv ⟨w, x⟩) s = takeException { vec := 0 } (s.faulted u))) ∧
  (∀ s : State, s.isLong = false → exec (.aam 0) s = takeException { vec := 0 } s)

/-- A promise of the whole machine over every instruction: the privileged instructions check CPL before their effect, and
delivery of an exception writes no control register but CR2, DR6 and DR7. -/
def Obligations.UnprivilegedStepKeepsSystemState : Prop :=
  ∀ s t : State, Undisturbed s → s.privileged = false → s.rtm.snapshot = none → step s = .next t →
      t.sys = { s.sys with cr2 := t.sys.cr2, dr6 := t.sys.dr6, dr7 := t.sys.dr7, pkru := t.sys.pkru } ∧
      t.msr.efer = s.msr.efer

/-- The refusals the spec orders: U4, decision D20 and U17. -/
def Obligations.NamedStops : Prop :=
  ((∀ (o : XXI) (s : State), 8 ≤ o.imm.toNat →
        (SseReady .sse s → exec (.cmpps o) s = .refused .reservedPredicate ∧ exec (.cmpss o) s = .refused .reservedPredicate) ∧
        (SseReady .sse2 s → exec (.cmppd o) s = .refused .reservedPredicate ∧ exec (.cmpsdSse o) s = .refused .reservedPredicate)) ∧
      (∀ (o : VVXI) (s : State), 32 ≤ o.imm.toNat → VexReady [.avx] s → ∀ i ∈ ([.vcmpps o, .vcmppd o, .vcmpss o, .vcmpsd o] :
        List Instr), exec i s = .refused .reservedPredicate)) ∧
  (∀ s : State, s.mode = .prot → s.flags.nt = true → ∀ i ∈ ([.iret, .iretd, .iretq] : List Instr),
      exec i s = .refused .taskSwitchRequested) ∧
  (∀ (w : Width) (m : MemRef) (s u : State) (v : Nat), s.popWraps m w.bytes = true → Passes (pop w.bytes) s.begin v u →
      exec (.pop ⟨w, .mem m⟩) s = .refused .popEspWrap)

/-- Outside a transaction for INIT#; what `State.doReset` leaves is `ResetValues`. Rules R2071 and R2072 outside a
transaction. -/
def Obligations.EventPriority : Prop :=
  (∀ s : State, (s.pins.reset = true → step s = .next s.doReset) ∧
      (s.pins.reset = false → s.pins.init = true → s.rtm.snapshot = none → ∃ t, step s = .next t ∧ t.gpr = State.reset.gpr.set 2
          (s.cfg.signature.setWidth 64) ∧ t.rip = 0xFFF0 ∧ t.flags = {} ∧ t.seg = State.reset.seg ∧ t.cpl = 0 ∧ t.fpu = s.fpu ∧
          t.ymm = s.ymm ∧ t.mxcsr = s.mxcsr ∧ t.msr = { s.msr with efer := 0 } ∧ t.sys.xcr0 = s.sys.xcr0 ∧
          t.sys.cr0 = (s.sys.cr0 &&& 0x60000000) ||| 0x10 ∧ t.sys.cr3 = 0 ∧ t.sys.cr4 = 0 ∧ t.sys.cr2 = s.sys.cr2 ∧ t.mem = s.mem ∧
          t.act = {} ∧ t.pins = {}) ∧
      (s.pins.reset = false → s.pins.init = false → s.pins.wake = true → step s = .next { s with
          act := { s.act with mwaitWaiting := false, mwaitMaskedBreak := false, monitorArmed := false },
          pins := { s.pins with wake := false } }) ∧
      (s.pins.reset = false → s.pins.init = false → s.pins.wake = false → s.act.shutdown = true → step s = .next s)) ∧
  (∀ (s : State) (v : BitVec 8), s.pins = { intr := some v } → s.act.shutdown = false → s.act.pendingDb = 0 →
      s.rtm.snapshot = none →
      (s.flags.ifl = true → s.act.inhibit = .none →
        step s = deliver nestBound { kind := .external, vec := v, ret := s.rip, rf := s.flags.rf } { s with pins := {} }) ∧
      ((s.flags.ifl = false ∨ s.act.inhibit ≠ .none) → s.act.halted = false → s.act.mwaitWaiting = false → s.instrBreaks = 0 →
        step s = runInstr s)) ∧
  (∀ s : State, s.pins = { nmi := true } → s.act.shutdown = false → s.act.pendingDb = 0 → s.rtm.snapshot = none →
      s.act.nmiBlocked = false → s.act.inhibit ≠ .movSs →
      step s = deliver nestBound { kind := .nmi, vec := 2, ret := s.rip, rf := s.flags.rf } { s with pins := {} })

/-- What `each`, `zip`, `lanes` and `ofLanes`, in whose terms the vector statements are written, give element by element. -/
def Obligations.PackedElements : Prop :=
  ∀ (n w k : Nat), 0 < w → n = w * k →
      (∀ (f : BitVec w → BitVec w) (a : BitVec n) (i : Nat), i < k → lane w (each w f n a) i = f (lane w a i)) ∧
      (∀ (f : BitVec w → BitVec w → BitVec w) (a b : BitVec n) (i : Nat), i < k →
        lane w (zip w f n a b) i = f (lane w a i) (lane w b i)) ∧
      (∀ a : BitVec n, ofLanes n (lanes w a) = a)

/-- Rules R1054 and R1055. -/
def Obligations.SetFlagRules : Prop :=
  (∀ s : State, Completes .stc s { s.begin with flags := { s.begin.flags with cf := true } } ∧
        Completes .std s { s.begin with flags := { s.begin.flags with df := true } }) ∧
      (∀ m : CMode, decode m [0xF9] = .ok ⟨.stc, 1, 0⟩ ∧ decode m [0xFD] = .ok ⟨.std, 1, 0⟩ ∧
        decode m [0xF0, 0xF9] = .error .undefined ∧ decode m [0xF0, 0xFD] = .error .undefined)

/-- Rule R742. -/
def Obligations.LahfRule : Prop :=
  (∀ s : State, ((s.isLong = true → s.has .lahf64 = true) → ∃ v : BitVec 8, Completes .lahf s (s.begin.setGpVal .w8 (.hi 0) v) ∧
        v.getLsbD 7 = s.flags.sf ∧ v.getLsbD 6 = s.flags.zf ∧ v.getLsbD 5 = false ∧ v.getLsbD 4 = s.flags.af ∧
        v.getLsbD 3 = false ∧ v.getLsbD 2 = s.flags.pf ∧ v.getLsbD 1 = true ∧ v.getLsbD 0 = s.flags.cf) ∧
      (s.isLong = true → s.has .lahf64 = false → exec .lahf s = takeException { vec := 6 } s)) ∧
  (∀ m : CMode, decode m [0x9F] = .ok ⟨.lahf, 1, 0⟩ ∧ decode m [0xF0, 0x9F] = .error .undefined)

/-- Rule R1185. -/
def Obligations.VzeroallRule : Prop :=
  (∀ s : State, (VexReady [.avx] s → ∃ t : Vector (BitVec 256) 16, Completes .vzeroall s { s.begin with ymm := t } ∧
        ∀ r : Reg, t.get r = if s.isLong = true ∨ r.val < 8 then 0 else s.ymm.get r) ∧
      (s.isLegacySeg = true ∨ s.cr4Bit 18 = false ∨ s.sys.xcr0.getLsbD 1 = false ∨ s.sys.xcr0.getLsbD 2 = false ∨
        s.has .avx = false → exec .vzeroall s = takeException { vec := 6 } s) ∧
      (s.isLegacySeg = false → s.cr4Bit 18 = true → s.sys.xcr0.getLsbD 1 = true → s.sys.xcr0.getLsbD 2 = true →
        s.has .avx = true → s.cr0Bit 3 = true → exec .vzeroall s = takeException { vec := 7 } s)) ∧
  (∀ m ∈ ([⟨true, true, true⟩, ⟨false, true, true⟩, ⟨false, false, true⟩] : List CMode),
      decode m [0xC5, 0xFC, 0x77] = .ok ⟨.vzeroall, 3, 0⟩ ∧ decode m [0xC4, 0xE1, 0x7C, 0x77] = .ok ⟨.vzeroall, 4, 0⟩ ∧
      (∀ b ∈ ([0x66, 0xF2, 0xF3, 0xF0] : List Byte), decode m [b, 0xC5, 0xFC, 0x77] = .error .undefined) ∧
      ∀ v : BitVec 4, v.getLsbD 3 = true → v ≠ 15 → decode m [0xC5, (1 : BitVec 1) ++ v ++ (4 : BitVec 3), 0x77] = .error .undefined)
end

