-- ==== Sys2Proof/Laws/Run.lean ====
section
/-! SUPPORT. How the steps of a meaning pass one after the other, and how a meaning that passes becomes a completed
instruction. -/

namespace Sys2Proof.Machine

variable {α β : Type} {s t u : State}

theorem passes_bind {m : M α} {f : α → M β} {a : α} {b : β} (h : Passes m s a t) (h2 : Passes (f a) t b u) :
    Passes (m >>= f) s b u := by
  unfold Passes at *
  have : (m >>= f).run s = EStateM.bind m f s := rfl
  rw [this]; unfold EStateM.bind
  have h' : m s = .ok a t := h
  rw [h']; exact h2

theorem passes_bind_iff {m : M α} {f : α → M β} {b : β} :
    Passes (m >>= f) s b u ↔ ∃ a t, Passes m s a t ∧ Passes (f a) t b u := by
  constructor
  · intro h
    have h' : EStateM.bind m f s = .ok b u := h
    unfold EStateM.bind at h'
    cases hm : m s with
    | ok a t => rw [hm] at h'; exact ⟨a, t, hm, h'⟩
    | error e t => rw [hm] at h'; cases h'
  · rintro ⟨a, t, h, h2⟩; exact passes_bind h h2

theorem passes_seq {m : M α} {n : M β} {a : α} {b : β} (h : Passes m s a t) (h2 : Passes n t b u) :
    Passes (m *> n) s b u := by
  have : (m *> n) = (m >>= fun _ => n) := rfl
  rw [this]; exact passes_bind h h2

theorem passes_pure (a : α) (s : State) : Passes (pure a : M α) s a s := rfl
theorem passes_get (s : State) : Passes (get : M State) s s s := rfl
theorem passes_set (t s : State) : Passes (set t : M PUnit) s ⟨⟩ t := rfl
theorem passes_modify (f : State → State) (s : State) : Passes (modify f : M Unit) s () (f s) := rfl
theorem passes_ensure {c : Bool} {e : M Unit} (h : c = true) (s : State) : Passes (ensure c e) s () s := by
  unfold ensure; rw [if_pos h]; rfl
theorem passes_freeValue (w : Nat) (s : State) :
    Passes (freeValue w) s (Config.freeBits w s.free) { s with free := s.free + 1 } := rfl
theorem passes_freeBit (s : State) :
    Passes freeBit s ((Config.freeBits 1 s.free).getLsbD 0) { s with free := s.free + 1 } := rfl

/-- A step passes with one value and one state only. -/
theorem Passes.unique {m : M α} {a b : α} (h : Passes m s a t) (h2 : Passes m s b u) : a = b ∧ t = u := by
  unfold Passes at *; rw [h] at h2; cases h2; exact ⟨rfl, rfl⟩

/-- A meaning that passes completes the step. -/
theorem run_of_passes {body : M Unit} (h : Passes body s.begin () t) : run body s = .next (s.finish t) := by
  unfold run; rw [h]

/-- A meaning that raises an exception takes it, in the state a fault finds. -/
theorem run_of_raise {body : M Unit} {e : Exc} (h : body.run s.begin = .error (.exc e) t) :
    run body s = takeException e (s.rollback t e.keep) := by
  unfold run; rw [h]

theorem State.faulted_begin (s : State) : s.faulted s.begin = s := by
  show { s with act := { s.act with monitorArmed := s.act.monitorArmed && s.act.monitorArmed } } = s
  rw [Bool.and_self]

/-- A meaning that raises an exception after accesses alone takes it in the state before it, but for what they set. -/
theorem run_of_raise_access {body : M Unit} {e : Exc} (h : Raises body s.begin e t) (hk : e.keep = false)
    (ha : AccessOnly s.begin t) : run body s = takeException e (s.faulted t) := by
  rw [run_of_raise h, hk]
  obtain ⟨m, p, q, rfl⟩ := ha
  rfl

theorem passes_if_pos {c : Prop} [Decidable c] {m n : M α} {a : α} (hc : c) (h : Passes m s a t) :
    Passes (if c then m else n) s a t := by rw [if_pos hc]; exact h
theorem passes_if_neg {c : Prop} [Decidable c] {m n : M α} {a : α} (hc : ¬c) (h : Passes n s a t) :
    Passes (if c then m else n) s a t := by rw [if_neg hc]; exact h

/-! How a step of a meaning raises an exception. -/

/-- An exception in the first of two steps. -/
theorem raises_bind {m : M α} {f : α → M β} {x : Exc} (h : Raises m s x t) : Raises (m >>= f) s x t := by
  show EStateM.bind m f s = _
  unfold EStateM.bind
  rw [show m s = _ from h]

/-- An exception after a step that passes. -/
theorem raises_after {m : M α} {f : α → M β} {a : α} {x : Exc} (h : Passes m s a t) (h2 : Raises (f a) t x u) :
    Raises (m >>= f) s x u := by
  show EStateM.bind m f s = _
  unfold EStateM.bind
  rw [show m s = _ from h]
  exact h2

theorem raises_raise (x : Exc) (s : State) : Raises (raise x : M α) s x s := rfl
theorem raises_ensure {c : Bool} {e : M Unit} {x : Exc} (h : c = false) (h2 : Raises e s x t) : Raises (ensure c e) s x t := by
  unfold ensure; rw [h]; exact h2
theorem raises_if_pos {c : Prop} [Decidable c] {m n : M α} {x : Exc} (hc : c) (h : Raises m s x t) :
    Raises (if c then m else n) s x t := by rw [if_pos hc]; exact h
theorem raises_if_neg {c : Prop} [Decidable c] {m n : M α} {x : Exc} (hc : ¬c) (h : Raises n s x t) :
    Raises (if c then m else n) s x t := by rw [if_neg hc]; exact h

/-! The same as equivalences, for rewriting. -/

theorem passes_pure_iff {a b : α} : Passes (pure a : M α) s b t ↔ b = a ∧ t = s := by
  constructor
  · intro h; cases h; exact ⟨rfl, rfl⟩
  · rintro ⟨rfl, rfl⟩; rfl
theorem passes_get_iff {a : State} : Passes (get : M State) s a t ↔ a = s ∧ t = s := by
  constructor
  · intro h; cases h; exact ⟨rfl, rfl⟩
  · rintro ⟨rfl, rfl⟩; rfl
theorem passes_get_bind {f : State → M α} {a : α} : Passes (get >>= f) s a t ↔ Passes (f s) s a t :=
  ⟨fun h => by obtain ⟨b, x, h1, h⟩ := passes_bind_iff.1 h; cases h1; exact h, passes_bind (passes_get s)⟩
theorem passes_set_iff {x : State} {a : PUnit} : Passes (set x : M PUnit) s a t ↔ t = x := by
  constructor
  · intro h; cases h; rfl
  · rintro rfl; rfl
theorem passes_modify_iff {f : State → State} {a : Unit} : Passes (modify f : M Unit) s a t ↔ t = f s := by
  constructor
  · intro h; cases h; rfl
  · rintro rfl; rfl
theorem passes_raise_iff {e : Exc} {a : α} : Passes (raise e : M α) s a t ↔ False := by
  constructor
  · intro h; cases h
  · exact False.elim
theorem passes_throw_iff {e : Stop} {a : α} : Passes (throw e : M α) s a t ↔ False := by
  constructor
  · intro h; cases h
  · exact False.elim
theorem passes_ensure_iff {c : Bool} {e : M Unit} {a : Unit} :
    Passes (ensure c e) s a t ↔ (c = true ∧ t = s) ∨ (c = false ∧ Passes e s a t) := by
  unfold ensure
  cases c
  · simp
  · simp [passes_pure_iff]

/-! What an access leaves alone. -/

theorem AccessOnly.refl (s : State) : AccessOnly s s := ⟨s.mem, s.act.pendingDb, s.act.monitorArmed, rfl⟩
theorem AccessOnly.trans (h : AccessOnly s t) (h2 : AccessOnly t u) : AccessOnly s u := by
  obtain ⟨m, p, q, rfl⟩ := h
  obtain ⟨m2, p2, q2, rfl⟩ := h2
  exact ⟨m2, p2, q2, rfl⟩

theorem AccessOnly.cfg (h : AccessOnly s t) : t.cfg = s.cfg := by obtain ⟨m, p, q, rfl⟩ := h; rfl
theorem AccessOnly.gpr (h : AccessOnly s t) : t.gpr = s.gpr := by obtain ⟨m, p, q, rfl⟩ := h; rfl
theorem AccessOnly.rip (h : AccessOnly s t) : t.rip = s.rip := by obtain ⟨m, p, q, rfl⟩ := h; rfl
theorem AccessOnly.ripNext (h : AccessOnly s t) : t.ripNext = s.ripNext := by obtain ⟨m, p, q, rfl⟩ := h; rfl
theorem AccessOnly.flags (h : AccessOnly s t) : t.flags = s.flags := by obtain ⟨m, p, q, rfl⟩ := h; rfl
theorem AccessOnly.seg (h : AccessOnly s t) : t.seg = s.seg := by obtain ⟨m, p, q, rfl⟩ := h; rfl
theorem AccessOnly.cpl (h : AccessOnly s t) : t.cpl = s.cpl := by obtain ⟨m, p, q, rfl⟩ := h; rfl
theorem AccessOnly.sys (h : AccessOnly s t) : t.sys = s.sys := by obtain ⟨m, p, q, rfl⟩ := h; rfl
theorem AccessOnly.msr (h : AccessOnly s t) : t.msr = s.msr := by obtain ⟨m, p, q, rfl⟩ := h; rfl
theorem AccessOnly.mxcsr (h : AccessOnly s t) : t.mxcsr = s.mxcsr := by obtain ⟨m, p, q, rfl⟩ := h; rfl
theorem AccessOnly.ymm (h : AccessOnly s t) : t.ymm = s.ymm := by obtain ⟨m, p, q, rfl⟩ := h; rfl
theorem AccessOnly.fpu (h : AccessOnly s t) : t.fpu = s.fpu := by obtain ⟨m, p, q, rfl⟩ := h; rfl
theorem AccessOnly.rtm (h : AccessOnly s t) : t.rtm = s.rtm := by obtain ⟨m, p, q, rfl⟩ := h; rfl
theorem AccessOnly.pins (h : AccessOnly s t) : t.pins = s.pins := by obtain ⟨m, p, q, rfl⟩ := h; rfl
theorem AccessOnly.io (h : AccessOnly s t) : t.io = s.io := by obtain ⟨m, p, q, rfl⟩ := h; rfl
theorem AccessOnly.free (h : AccessOnly s t) : t.free = s.free := by obtain ⟨m, p, q, rfl⟩ := h; rfl

end Sys2Proof.Machine
end

