-- ==== Sys2Proof/Laws/Access.lean ====
section
/-! SUPPORT. What the checked accesses to memory may change: accessed and dirty bits, and noted debug conditions. -/

namespace Sys2Proof.Machine

variable {s u : State}

theorem translate_accessOnly {k : Kind} {user sup : Bool} {lin : Word} {pa : Nat}
    (h : Passes (translate k user sup lin) s pa u) : AccessOnly s u := by
  unfold translate at h
  rw [passes_bind_iff] at h
  obtain ⟨a, t, h1, h⟩ := h
  rw [passes_get_iff] at h1
  obtain ⟨rfl, rfl⟩ := h1
  split at h
  · exact absurd h (by simp [raisePF, passes_raise_iff])
  · exact absurd h (by simp [raisePF, passes_raise_iff])
  · split at h
    · rw [passes_pure_iff] at h; obtain ⟨_, rfl⟩ := h; exact .refl _
    · split at h
      · exact absurd h (by simp [raisePF, passes_raise_iff])
      · exact absurd h (by simp [raisePF, passes_raise_iff])
      · rw [passes_bind_iff] at h
        obtain ⟨b, t, h1, h⟩ := h
        rw [passes_set_iff] at h1
        rw [passes_pure_iff] at h
        obtain ⟨_, rfl⟩ := h
        subst h1
        exact ⟨_, _, _, rfl⟩

theorem translateRange_accessOnly {tr : Word → Word} {k : Kind} {user sup : Bool} {lin : Word} {n : Nat} {as : List Nat}
    (h : Passes (translateRange tr k user sup lin n) s as u) : AccessOnly s u := by
  unfold translateRange at h
  simp only at h
  split at h
  · rw [passes_bind_iff] at h
    obtain ⟨a, t, h1, h⟩ := h
    rw [passes_pure_iff] at h; obtain ⟨_, rfl⟩ := h
    exact translate_accessOnly h1
  · rw [passes_bind_iff] at h
    obtain ⟨a, t, h1, h⟩ := h
    rw [passes_bind_iff] at h
    obtain ⟨b, t2, h2, h⟩ := h
    rw [passes_pure_iff] at h; obtain ⟨_, rfl⟩ := h
    exact (translate_accessOnly h1).trans (translate_accessOnly h2)

theorem sysResolve_accessOnly {k : Kind} {lin : Word} {n : Nat} {as : List Nat}
    (h : Passes (sysResolve k lin n) s as u) : AccessOnly s u := by
  unfold sysResolve at h
  rw [passes_bind_iff] at h
  obtain ⟨a, t, h1, h⟩ := h
  rw [passes_get_iff] at h1
  obtain ⟨rfl, rfl⟩ := h1
  exact translateRange_accessOnly h

theorem sysRead_accessOnly {lin : Word} {n v : Nat} (h : Passes (sysRead lin n) s v u) : AccessOnly s u := by
  unfold sysRead at h
  rw [passes_bind_iff] at h
  obtain ⟨a, t, h1, h⟩ := h
  unfold physRead at h
  rw [passes_bind_iff] at h
  obtain ⟨b, t2, h2, h⟩ := h
  rw [passes_get_iff] at h2
  obtain ⟨rfl, rfl⟩ := h2
  rw [passes_pure_iff] at h; obtain ⟨_, rfl⟩ := h
  exact sysResolve_accessOnly h1

theorem physRead_same {as : List Nat} {v : Nat} (h : Passes (physRead as) s v u) : v = s.mem.readList as ∧ u = s := by
  unfold physRead at h
  rw [passes_bind_iff] at h
  obtain ⟨b, t2, h2, h⟩ := h
  rw [passes_get_iff] at h2
  obtain ⟨rfl, rfl⟩ := h2
  rw [passes_pure_iff] at h; exact h

theorem resolveIn_accessOnly {r : SReg} {c : SegCache} {user : Bool} {k : Kind} {nat must : Nat} {off : Word} {n : Nat}
    {as : List Nat} (h : Passes (resolveIn r c user k nat must off n) s as u) : AccessOnly s u := by
  unfold resolveIn at h
  rw [passes_bind_iff] at h
  obtain ⟨a, t, h1, h⟩ := h
  rw [passes_get_iff] at h1
  obtain ⟨rfl, rfl⟩ := h1
  split at h
  · exact absurd h (by simp [raiseGP, passes_raise_iff])
  · unfold raiseLimit at h
    split at h
    · exact absurd h (by simp [raiseSS, passes_raise_iff])
    · exact absurd h (by simp [raiseGP, passes_raise_iff])
  · simp only at h
    split at h
    · exact absurd h (by simp [raiseGP, passes_raise_iff])
    · split at h
      · exact absurd h (by simp [raiseAC, passes_raise_iff])
      · rw [passes_bind_iff] at h
        obtain ⟨b, t, h1, h⟩ := h
        rw [passes_bind_iff] at h
        obtain ⟨_, t2, h2, h⟩ := h
        unfold notePending at h2
        rw [passes_modify_iff] at h2
        rw [passes_pure_iff] at h; obtain ⟨_, rfl⟩ := h
        refine (translateRange_accessOnly h1).trans ?_
        subst h2
        exact ⟨_, _, _, rfl⟩

theorem resolve_accessOnly {r : SReg} {k : Kind} {nat must : Nat} {off : Word} {n : Nat} {as : List Nat}
    (h : Passes (resolve r k nat must off n) s as u) : AccessOnly s u := by
  unfold resolve at h
  rw [passes_bind_iff] at h
  obtain ⟨a, t, h1, h⟩ := h
  rw [passes_get_iff] at h1
  obtain ⟨rfl, rfl⟩ := h1
  exact resolveIn_accessOnly h

theorem resolveMem_accessOnly {k : Kind} {m : MemRef} {n : Nat} {as : List Nat}
    (h : Passes (resolveMem k m n) s as u) : AccessOnly s u := by
  unfold resolveMem at h
  rw [passes_bind_iff] at h
  obtain ⟨a, t, h1, h⟩ := h
  rw [passes_get_iff] at h1
  obtain ⟨rfl, rfl⟩ := h1
  exact resolve_accessOnly h

theorem resolveAligned_accessOnly {k : Kind} {m : MemRef} {n must : Nat} {as : List Nat}
    (h : Passes (resolveAligned k m n must) s as u) : AccessOnly s u := by
  unfold resolveAligned at h
  rw [passes_bind_iff] at h
  obtain ⟨a, t, h1, h⟩ := h
  rw [passes_get_iff] at h1
  obtain ⟨rfl, rfl⟩ := h1
  exact resolve_accessOnly h

theorem resolveLoose_accessOnly {k : Kind} {m : MemRef} {n nat : Nat} {as : List Nat}
    (h : Passes (resolveLoose k m n nat) s as u) : AccessOnly s u := by
  unfold resolveLoose at h
  rw [passes_bind_iff] at h
  obtain ⟨a, t, h1, h⟩ := h
  rw [passes_get_iff] at h1
  obtain ⟨rfl, rfl⟩ := h1
  exact resolve_accessOnly h

theorem readMem_accessOnly {m : MemRef} {n v : Nat} (h : Passes (readMem m n) s v u) : AccessOnly s u := by
  unfold readMem at h
  rw [passes_bind_iff] at h
  obtain ⟨a, t, h1, h⟩ := h
  obtain ⟨_, rfl⟩ := physRead_same h
  exact resolveMem_accessOnly h1

theorem memRead_accessOnly {r : SReg} {off : Word} {n nat v : Nat} (h : Passes (memRead r off n nat) s v u) :
    AccessOnly s u := by
  unfold memRead at h
  rw [passes_bind_iff] at h
  obtain ⟨a, t, h1, h⟩ := h
  obtain ⟨_, rfl⟩ := physRead_same h
  exact resolve_accessOnly h1

theorem place_accessOnly {k : Kind} {w : Width} {o : Rm} {p : Place} (h : Passes (place k w o) s p u) :
    AccessOnly s u := by
  cases o with
  | reg g => rw [show place k w (.reg g) = pure (.reg g) from rfl, passes_pure_iff] at h; obtain ⟨_, rfl⟩ := h; exact .refl _
  | mem m =>
    unfold place at h
    rw [passes_bind_iff] at h
    obtain ⟨a, t, h1, h⟩ := h
    rw [passes_pure_iff] at h; obtain ⟨_, rfl⟩ := h
    exact resolveMem_accessOnly h1

theorem readRm_accessOnly {w : Width} {o : Rm} {v : BitVec w.bits} (h : Passes (readRm w o) s v u) : AccessOnly s u := by
  unfold readRm at h
  rw [passes_bind_iff] at h
  obtain ⟨a, t, h1, h⟩ := h
  unfold readPlace at h
  rw [passes_bind_iff] at h
  obtain ⟨b, t2, h2, h⟩ := h
  rw [passes_get_iff] at h2
  obtain ⟨rfl, rfl⟩ := h2
  rw [passes_pure_iff] at h; obtain ⟨_, rfl⟩ := h
  exact place_accessOnly h1

theorem resolveVec_accessOnly {k : Kind} {al : Align} {m : MemRef} {n : Nat} {as : List Nat}
    (h : Passes (resolveVec k al m n) s as u) : AccessOnly s u := by
  unfold resolveVec at h
  split at h
  · exact resolveMem_accessOnly h
  · exact resolveAligned_accessOnly h
  · rw [passes_bind_iff] at h
    obtain ⟨a, t, h1, h⟩ := h
    rw [passes_get_iff] at h1
    obtain ⟨rfl, rfl⟩ := h1
    exact resolveLoose_accessOnly h
  · exact resolveLoose_accessOnly h

theorem readXm_accessOnly {al : Align} {n : Nat} {o : Xm} {v : BitVec (8 * n)} (h : Passes (readXm al n o) s v u) :
    AccessOnly s u := by
  cases o with
  | reg r =>
    unfold readXm at h
    rw [passes_bind_iff] at h
    obtain ⟨b, t2, h2, h⟩ := h
    rw [passes_get_iff] at h2
    obtain ⟨rfl, rfl⟩ := h2
    rw [passes_pure_iff] at h; obtain ⟨_, rfl⟩ := h
    exact .refl _
  | mem m =>
    unfold readXm at h
    rw [passes_bind_iff] at h
    obtain ⟨a, t, h1, h⟩ := h
    rw [passes_bind_iff] at h
    obtain ⟨b, t2, h2, h⟩ := h
    obtain ⟨_, rfl⟩ := physRead_same h2
    rw [passes_pure_iff] at h; obtain ⟨_, rfl⟩ := h
    exact resolveVec_accessOnly h1

theorem readVx_accessOnly {l : VLen} {o : Xm} {v : BitVec l.bits} (h : Passes (readVx l o) s v u) : AccessOnly s u := by
  unfold readVx at h
  rw [passes_bind_iff] at h
  obtain ⟨a, t, h1, h⟩ := h
  rw [passes_pure_iff] at h; obtain ⟨_, rfl⟩ := h
  exact readXm_accessOnly h1

theorem readMmM_accessOnly {n : Nat} {o : Mm} {v : BitVec (8 * n)} (h : Passes (readMmM n o) s v u) : AccessOnly s u := by
  cases o with
  | reg r =>
    unfold readMmM at h
    rw [passes_bind_iff] at h
    obtain ⟨b, t2, h2, h⟩ := h
    rw [passes_get_iff] at h2
    obtain ⟨rfl, rfl⟩ := h2
    rw [passes_pure_iff] at h; obtain ⟨_, rfl⟩ := h
    exact .refl _
  | mem m =>
    unfold readMmM at h
    rw [passes_bind_iff] at h
    obtain ⟨a, t, h1, h⟩ := h
    rw [passes_pure_iff] at h; obtain ⟨_, rfl⟩ := h
    exact readMem_accessOnly h1

end Sys2Proof.Machine
end

