-- ==== Sys2Proof/Laws/Vector.lean ====
section
/-! SUPPORT. What the shared operations of the SSE, AVX and MMX meanings do when their conditions hold: one lemma for each. -/

namespace Sys2Proof.Machine

variable {s u : State}

/-! Conditions. -/

theorem passes_needSse {f : Config.Feature} (h : SseReady f s) : Passes (needSse f) s () s := by
  obtain ⟨h1, h2, h3, h4⟩ := h
  refine passes_bind (passes_get s) ?_
  exact passes_bind (passes_ensure (by simp [h1, h2, h3]) s) (passes_ensure (by simp [h4]) s)

theorem passes_needVex {fs : List Config.Feature} (h : VexReady fs s) : Passes (needVex fs) s () s := by
  obtain ⟨h1, h2, h3, h4, h5, h6⟩ := h
  refine passes_bind (passes_get s) ?_
  exact passes_bind (passes_ensure (by simp only [h1, h2, h3, h4, h5]; rfl) s) (passes_ensure (by simp [h6]) s)

theorem passes_needNoPending (h : s.fpu.es = false) : Passes needNoPending s () s := by
  refine passes_bind (passes_get s) ?_
  exact passes_ensure (by simp [h]) s

theorem passes_needMmx {f : Config.Feature} (h : MmxReady f s) : Passes (needMmx f) s () s := by
  obtain ⟨h1, h2, h3, h4⟩ := h
  refine passes_bind (passes_get s) ?_
  refine passes_bind (passes_ensure (by simp [h1, h2]) s) ?_
  exact passes_bind (passes_ensure (by simp [h3]) s) (passes_needNoPending h4)

theorem passes_needFeature {f : Config.Feature} (h : s.has f = true) : Passes (needFeature f) s () s :=
  passes_bind (passes_get s) (passes_ensure h s)

theorem passes_needVexGpr {f : Config.Feature} (h : VexGprReady f s) : Passes (needVexGpr f) s () s := by
  obtain ⟨h1, h2⟩ := h
  exact passes_bind (passes_get s) (passes_bind (passes_ensure (by simp [h1]) s) (passes_needFeature h2))

/-! Exceptions of floating-point operations. -/

theorem masked_none {mx : BitVec 32} (h : mx.extractLsb' 7 6 = 0x3F) (fl : BitVec 6) :
    fl &&& ~~~(mx.extractLsb' 7 6) = 0 := by
  rw [h]; revert fl; decide

/-- With every exception masked the flags are set and the operation goes on. -/
theorem passes_commitFlags (h : SimdMasked s) (fl : FpFlags) :
    Passes (commitFlags fl) s () (s.flagged fl) := by
  refine passes_bind (passes_get s) ?_
  refine passes_bind (passes_set _ s) ?_
  refine passes_if_neg ?_ (passes_pure () _)
  rw [masked_none h]; decide

theorem passes_commit {n : Nat} (h : SimdMasked s) (r : FpVec n) :
    Passes (commit r) s r.val (s.flagged r.flags) :=
  passes_bind (passes_commitFlags h r.flags) rfl

theorem SimdMasked.access (h : SimdMasked s) (a : AccessOnly s u) : SimdMasked u := by
  unfold SimdMasked; rw [a.mxcsr]; exact h

/-! Runners without exceptions. -/

theorem xxRun_passes {fx : Config.Feature} {f : BitVec 128 → BitVec 128 → BitVec 128} {o : XX} {b : BitVec (8 * 16)}
    (h : SseReady fx s) (hb : Passes (readXm .size 16 o.src) s b u) :
    Passes (xxRun fx f o) s () (u.setXmm o.dst (f (u.xmm o.dst) b)) :=
  passes_bind (passes_needSse h) (passes_bind hb rfl)

theorem xxiRun_passes {fx : Config.Feature} {f : BitVec 8 → BitVec 128 → BitVec 128 → BitVec 128} {o : XXI}
    {b : BitVec (8 * 16)} (h : SseReady fx s) (hb : Passes (readXm .size 16 o.src) s b u) :
    Passes (xxiRun fx f o) s () (u.setXmm o.dst (f o.imm (u.xmm o.dst) b)) :=
  passes_bind (passes_needSse h) (passes_bind hb rfl)

theorem xnRun_passes {fx : Config.Feature} {n : Nat} {f : BitVec (8 * n) → BitVec 128} {o : XX} {b : BitVec (8 * n)}
    (h : SseReady fx s) (hb : Passes (readXm .free n o.src) s b u) :
    Passes (xnRun fx n f o) s () (u.setXmm o.dst (f b)) :=
  passes_bind (passes_needSse h) (passes_bind hb rfl)

theorem mxnRun_mm_passes {n : Nat} {fm fx : Config.Feature} {f : Op2} {dst : Fin 8} {src : Mm} {b : BitVec (8 * n)}
    (h : MmxReady fm s) (hb : Passes (readMmM n src) s b u) :
    Passes (mxnRun n fm fx f (.mm dst src)) s ()
      (u.setMm dst (f 64 (u.mm dst) (b.setWidth 64))).mmxUsed :=
  passes_bind (passes_needMmx h) (passes_bind hb rfl)

theorem mxnRun_xx_passes {n : Nat} {fm fx : Config.Feature} {f : Op2} {dst : Reg} {src : Xm} {b : BitVec (8 * 16)}
    (h : SseReady fx s) (hb : Passes (readXm .size 16 src) s b u) :
    Passes (mxnRun n fm fx f (.xx dst src)) s () (u.setXmm dst (f 128 (u.xmm dst) b)) :=
  passes_bind (passes_needSse h) (passes_bind hb rfl)

theorem vvxRun_passes {fs : VLen → List Config.Feature} {f : BitVec 128 → BitVec 128 → BitVec 128} {o : VVX}
    {b : BitVec o.l.bits} (h : VexReady (fs o.l) s) (hb : Passes (readVx o.l o.b) s b u) :
    Passes (vvxRun fs f o) s () (u.setVec o.dst (halves2 f o.l (u.vec o.l o.a) b)) :=
  passes_bind (passes_needVex h) (passes_bind hb rfl)

theorem vvxiRun_passes {fs : VLen → List Config.Feature} {f : BitVec 8 → BitVec 128 → BitVec 128 → BitVec 128} {o : VVXI}
    {b : BitVec o.l.bits} (h : VexReady (fs o.l) s) (hb : Passes (readVx o.l o.b) s b u) :
    Passes (vvxiRun fs f o) s () (u.setVec o.dst (halves2 (f o.imm) o.l (u.vec o.l o.a) b)) :=
  passes_bind (passes_needVex h) (passes_bind hb rfl)

theorem vxRun_passes {fs : VLen → List Config.Feature} {f : BitVec 128 → BitVec 128} {o : VX} {b : BitVec o.l.bits}
    (h : VexReady (fs o.l) s) (hb : Passes (readVx o.l o.src) s b u) :
    Passes (vxRun fs f o) s () (u.setVec o.dst (halves1 f o.l b)) :=
  passes_bind (passes_needVex h) (passes_bind hb rfl)

theorem vxiRun_passes {fs : VLen → List Config.Feature} {f : BitVec 8 → BitVec 128 → BitVec 128} {o : VXI}
    {b : BitVec o.l.bits} (h : VexReady (fs o.l) s) (hb : Passes (readVx o.l o.src) s b u) :
    Passes (vxiRun fs f o) s () (u.setVec o.dst (halves1 (f o.imm) o.l b)) :=
  passes_bind (passes_needVex h) (passes_bind hb rfl)

theorem vnRun_passes {fs : VLen → List Config.Feature} {n : VLen → Nat} {f : {m : Nat} → BitVec m → BitVec 256} {o : VX}
    {b : BitVec (8 * n o.l)} (h : VexReady (fs o.l) s) (hb : Passes (readXm .free (n o.l) o.src) s b u) :
    Passes (vnRun fs n f o) s () (u.setVec o.dst (f b)) :=
  passes_bind (passes_needVex h) (passes_bind hb rfl)

theorem xApproxScalar_passes {f : BitVec 32 → BitVec 32} {o : XX} {b : BitVec (8 * 4)} (h : SseReady .sse s)
    (hb : Passes (readXm .free 4 o.src) s b u) :
    Passes (xApproxScalar f o) s () (u.setXmm o.dst (withLow (u.xmm o.dst) (f b))) :=
  passes_bind (passes_needSse h) (passes_bind hb rfl)

theorem vApproxScalar_passes {f : BitVec 32 → BitVec 32} {o : VVX} {b : BitVec (8 * 4)} (h : VexReady [.avx] s)
    (hb : Passes (readXm .free 4 o.b) s b u) :
    Passes (vApproxScalar f o) s () (u.setVec o.dst (withLow (u.xmm o.a) (f b))) :=
  passes_bind (passes_needVex h) (passes_bind hb rfl)

/-! Runners with exceptions, every exception masked: the destination and MXCSR are written. -/

theorem xxFp_passes {fx : Config.Feature} {f : FpOp2} {o : XX} {b : BitVec (8 * 16)} (h : SseReady fx s)
    (hm : SimdMasked s) (hb : Passes (readXm .size 16 o.src) s b u) :
    let r := f (mxcsrEnv u.mxcsr) 128 (u.xmm o.dst) b
    Passes (xxFp fx f o) s () ((u.flagged r.flags).setXmm o.dst r.val) :=
  passes_bind (passes_needSse h) (passes_bind hb (passes_bind rfl (passes_bind rfl
    (passes_bind (passes_commit (hm.access (readXm_accessOnly hb)) _) rfl))))

theorem vvxFp_passes {f : FpOp2} {o : VVX} {b : BitVec o.l.bits} (h : VexReady [.avx] s)
    (hm : SimdMasked s) (hb : Passes (readVx o.l o.b) s b u) :
    let r := fpHalves f (mxcsrEnv u.mxcsr) o.l (u.vec o.l o.a) b
    Passes (vvxFp f o) s () ((u.flagged r.flags).setVec o.dst r.val) :=
  passes_bind (passes_needVex h) (passes_bind hb (passes_bind rfl (passes_bind rfl
    (passes_bind (passes_commit (hm.access (readVx_accessOnly hb)) _) rfl))))

theorem xFp1_passes {fx : Config.Feature} {w : Nat} {op : Fp1} {o : XX} {b : BitVec (8 * 16)} (h : SseReady fx s)
    (hm : SimdMasked s) (hb : Passes (readXm .size 16 o.src) s b u) :
    let r : FpVec 128 := fpEach w op (mxcsrEnv u.mxcsr) b
    Passes (xFp1 fx w op o) s () ((u.flagged r.flags).setXmm o.dst r.val) :=
  passes_bind (passes_needSse h) (passes_bind hb (passes_bind rfl
    (passes_bind (passes_commit (hm.access (readXm_accessOnly hb)) _) rfl)))

theorem vFp1_passes {w : Nat} {op : Fp1} {o : VX} {b : BitVec o.l.bits} (h : VexReady [.avx] s)
    (hm : SimdMasked s) (hb : Passes (readVx o.l o.src) s b u) :
    let r := fpEach w op (mxcsrEnv u.mxcsr) b
    Passes (vFp1 w op o) s () ((u.flagged r.flags).setVec o.dst r.val) :=
  passes_bind (passes_needVex h) (passes_bind hb (passes_bind rfl
    (passes_bind (passes_commit (hm.access (readVx_accessOnly hb)) _) rfl)))

theorem xxScalar_passes {fx : Config.Feature} {n w : Nat} {op : Fp2} {o : XX} {b : BitVec (8 * n)} (h : SseReady fx s)
    (hm : SimdMasked s) (hb : Passes (readXm .free n o.src) s b u) :
    let r := op (mxcsrEnv u.mxcsr) ((u.xmm o.dst).toNat % 2 ^ (8 * n)) b.toNat
    Passes (xxScalar fx n w op o) s ()
      ((u.flagged r.flags).setXmm o.dst (withLow (u.xmm o.dst) (BitVec.ofNat w r.bits))) :=
  passes_bind (passes_needSse h) (passes_bind hb (passes_bind rfl (passes_bind rfl
    (passes_bind (passes_commit (hm.access (readXm_accessOnly hb)) _) rfl))))

theorem vvxScalar_passes {fs : List Config.Feature} {n w : Nat} {op : Fp2} {o : VVX} {b : BitVec (8 * n)}
    (h : VexReady fs s) (hm : SimdMasked s) (hb : Passes (readXm .free n o.b) s b u) :
    let r := op (mxcsrEnv u.mxcsr) ((u.xmm o.a).toNat % 2 ^ (8 * n)) b.toNat
    Passes (vvxScalar fs n w op o) s ()
      ((u.flagged r.flags).setVec o.dst (withLow (u.xmm o.a) (BitVec.ofNat w r.bits))) :=
  passes_bind (passes_needVex h) (passes_bind hb (passes_bind rfl (passes_bind rfl
    (passes_bind (passes_commit (hm.access (readXm_accessOnly hb)) _) rfl))))

theorem xCvt_passes {al : Align} {n w1 w2 : Nat} {op : Fp1} {o : XX} {b : BitVec (8 * n)} (h : SseReady .sse2 s)
    (hm : SimdMasked s) (hb : Passes (readXm al n o.src) s b u) :
    let r := fpMap 128 w1 w2 op (mxcsrEnv u.mxcsr) b
    Passes (xCvt al n w1 w2 op o) s () ((u.flagged r.flags).setXmm o.dst r.val) :=
  passes_bind (passes_needSse h) (passes_bind hb (passes_bind rfl
    (passes_bind (passes_commit (hm.access (readXm_accessOnly hb)) _) rfl)))

theorem vCvt_passes {n : VLen → Nat} {w1 w2 : Nat} {op : Fp1} {o : VX} {b : BitVec (8 * n o.l)} (h : VexReady [.avx] s)
    (hm : SimdMasked s) (hb : Passes (readXm .free (n o.l) o.src) s b u) :
    let r := fpMap 256 w1 w2 op (mxcsrEnv u.mxcsr) b
    Passes (vCvt n w1 w2 op o) s () ((u.flagged r.flags).setVec o.dst r.val) :=
  passes_bind (passes_needVex h) (passes_bind hb (passes_bind rfl
    (passes_bind (passes_commit (hm.access (readXm_accessOnly hb)) _) rfl)))

theorem mxCvt_passes {fx : Config.Feature} {al : Align} {n w1 : Nat} {op : Fp1} {o : MXm} {b : BitVec (8 * n)}
    (h : SseReady fx s) (he : s.fpu.es = false) (hm : SimdMasked s) (hb : Passes (readXm al n o.src) s b u) :
    let r := fpMap 64 w1 32 op (mxcsrEnv u.mxcsr) b
    Passes (mxCvt fx al n w1 op o) s () (((u.flagged r.flags).setMm o.dst r.val).mmxUsed) :=
  passes_bind (passes_needSse h) (passes_bind (passes_needNoPending he) (passes_bind hb (passes_bind rfl
    (passes_bind (passes_commit (hm.access (readXm_accessOnly hb)) _) rfl))))

theorem gxCvt_passes {enter : M Unit} {f : FpFmt} {trunc : Bool} {o : GX} {b : BitVec (8 * (f.width / 8))}
    (h : Passes enter s () s) (hm : SimdMasked s) (hb : Passes (readXm .free (f.width / 8) o.src) s b u) :
    let op := fpToInt f o.w.bits
    let r := (if trunc then truncating op else op) (mxcsrEnv u.mxcsr) b.toNat
    Passes (gxCvt enter f trunc o) s () ((u.flagged r.flags).setGpVal o.w (.lo o.dst) (BitVec.ofNat o.w.bits r.bits)) :=
  passes_bind h (passes_bind hb (passes_bind rfl
    (passes_bind (passes_commit (hm.access (readXm_accessOnly hb)) _) rfl)))

theorem xgCvt_passes {fx : Config.Feature} {f : FpFmt} {o : XG} {b : BitVec o.w.bits} (h : SseReady fx s)
    (hm : SimdMasked s) (hb : Passes (readRm o.w o.src) s b u) :
    let r := fromInt o.w.bits f (mxcsrEnv u.mxcsr) b.toNat
    Passes (xgCvt fx f o) s ()
      ((u.flagged r.flags).setXmm o.dst (withLow (u.xmm o.dst) (BitVec.ofNat f.width r.bits))) :=
  passes_bind (passes_needSse h) (passes_bind hb (passes_bind rfl
    (passes_bind (passes_commit (hm.access (readRm_accessOnly hb)) _) rfl)))

theorem vxgCvt_passes {f : FpFmt} {o : VXG} {b : BitVec o.w.bits} (h : VexReady [.avx] s)
    (hm : SimdMasked s) (hb : Passes (readRm o.w o.src) s b u) :
    let r := fromInt o.w.bits f (mxcsrEnv u.mxcsr) b.toNat
    Passes (vxgCvt f o) s ()
      ((u.flagged r.flags).setVec o.dst (withLow (u.xmm o.a) (BitVec.ofNat f.width r.bits))) :=
  passes_bind (passes_needVex h) (passes_bind hb (passes_bind rfl
    (passes_bind (passes_commit (hm.access (readRm_accessOnly hb)) _) rfl)))

theorem orderFlags_passes {f : FpFmt} {q : Bool} {a : BitVec 128} {b : Nat} (hm : SimdMasked s) :
    let r := fpCompare f q (mxcsrEnv s.mxcsr) (a.toNat % 2 ^ f.width) b
    Passes (orderFlags f q a b) s () { s.flagged r.2 with flags := s.flags.ofOrder r.1 } :=
  passes_bind rfl (passes_bind (passes_commitFlags hm _) rfl)

theorem comi_passes {fx : Config.Feature} {f : FpFmt} {q : Bool} {o : XX} {b : BitVec (8 * (f.width / 8))}
    (h : SseReady fx s) (hm : SimdMasked s) (hb : Passes (readXm .free (f.width / 8) o.src) s b u) :
    let r := fpCompare f q (mxcsrEnv u.mxcsr) ((u.xmm o.dst).toNat % 2 ^ f.width) b.toNat
    Passes (comi fx f q o) s () { u.flagged r.2 with flags := u.flags.ofOrder r.1 } :=
  passes_bind (passes_needSse h) (passes_bind hb (passes_bind rfl
    (orderFlags_passes (hm.access (readXm_accessOnly hb)))))

theorem vcomi_passes {f : FpFmt} {q : Bool} {o : VX} {b : BitVec (8 * (f.width / 8))}
    (h : VexReady [.avx] s) (hm : SimdMasked s) (hb : Passes (readXm .free (f.width / 8) o.src) s b u) :
    let r := fpCompare f q (mxcsrEnv u.mxcsr) ((u.xmm o.dst).toNat % 2 ^ f.width) b.toNat
    Passes (vcomi f q o) s () { u.flagged r.2 with flags := u.flags.ofOrder r.1 } :=
  passes_bind (passes_needVex h) (passes_bind hb (passes_bind rfl
    (orderFlags_passes (hm.access (readXm_accessOnly hb)))))

theorem predicate_passes {n : Nat} {imm : BitVec 8} (h : imm.toNat < 2 ^ n) : Passes (predicate n imm) s imm.toNat s :=
  passes_if_pos h rfl

theorem cmpPacked_passes {fx : Config.Feature} {f : FpFmt} {o : XXI} {b : BitVec (8 * 16)} (hi : o.imm.toNat < 2 ^ 3)
    (h : SseReady fx s) (hm : SimdMasked s) (hb : Passes (readXm .size 16 o.src) s b u) :
    let r := packed f.width (fpPredicate f o.imm.toNat) (mxcsrEnv u.mxcsr) 128 (u.xmm o.dst) b
    Passes (cmpPacked fx f o) s () ((u.flagged r.flags).setXmm o.dst r.val) :=
  passes_bind (passes_needSse h) (passes_bind (predicate_passes hi) (xxFp_passes h hm hb))

theorem cmpScalar_passes {fx : Config.Feature} {f : FpFmt} {o : XXI} {b : BitVec (8 * (f.width / 8))}
    (hi : o.imm.toNat < 2 ^ 3) (h : SseReady fx s) (hm : SimdMasked s)
    (hb : Passes (readXm .free (f.width / 8) o.src) s b u) :
    let r := fpPredicate f o.imm.toNat (mxcsrEnv u.mxcsr) ((u.xmm o.dst).toNat % 2 ^ (8 * (f.width / 8))) b.toNat
    Passes (cmpScalar fx f o) s ()
      ((u.flagged r.flags).setXmm o.dst (withLow (u.xmm o.dst) (BitVec.ofNat f.width r.bits))) :=
  passes_bind (passes_needSse h) (passes_bind (predicate_passes hi) (xxScalar_passes h hm hb))

theorem vcmpPacked_passes {f : FpFmt} {o : VVXI} {b : BitVec o.l.bits} (hi : o.imm.toNat < 2 ^ 5)
    (h : VexReady [.avx] s) (hm : SimdMasked s) (hb : Passes (readVx o.l o.b) s b u) :
    let r := fpHalves (packed f.width (fpPredicate f o.imm.toNat)) (mxcsrEnv u.mxcsr) o.l (u.vec o.l o.a) b
    Passes (vcmpPacked f o) s () ((u.flagged r.flags).setVec o.dst r.val) :=
  passes_bind (passes_needVex h) (passes_bind (predicate_passes hi)
    (vvxFp_passes (o := { l := o.l, dst := o.dst, a := o.a, b := o.b }) h hm hb))

theorem vcmpScalar_passes {f : FpFmt} {o : VVXI} {b : BitVec (8 * (f.width / 8))} (hi : o.imm.toNat < 2 ^ 5)
    (h : VexReady [.avx] s) (hm : SimdMasked s) (hb : Passes (readXm .free (f.width / 8) o.b) s b u) :
    let r := fpPredicate f o.imm.toNat (mxcsrEnv u.mxcsr) ((u.xmm o.a).toNat % 2 ^ (8 * (f.width / 8))) b.toNat
    Passes (vcmpScalar f o) s ()
      ((u.flagged r.flags).setVec o.dst (withLow (u.xmm o.a) (BitVec.ofNat f.width r.bits))) :=
  passes_bind (passes_needVex h) (passes_bind (predicate_passes hi)
    (vvxScalar_passes (o := { l := o.l, dst := o.dst, a := o.a, b := o.b }) h hm hb))

/-! MXCSR. -/

theorem loadMxcsr_passes {m : MemRef} {v : Nat} (hb : Passes (readMem m 4) s v u) (h : v / 2 ^ 16 % 2 ^ 16 = 0) :
    Passes (loadMxcsr m) s () { u with mxcsr := BitVec.ofNat 32 v } := by
  refine passes_bind hb (passes_bind (passes_ensure ?_ u) rfl)
  simp only [decide_eq_true_eq]
  apply BitVec.eq_of_toNat_eq
  have h0 : (0 : BitVec 16).toNat = 0 := rfl
  rw [h0, BitVec.extractLsb'_toNat, BitVec.toNat_ofNat, Nat.shiftRight_eq_div_pow]
  norm_num at h ⊢
  omega

theorem storeMxcsr_passes {m : MemRef} {as : List Nat} (hb : Passes (resolveMem .write m 4) s as u) :
    Passes (storeMxcsr m) s () (u.physWrite as s.mxcsr.toNat) := by
  have h : u.mxcsr = s.mxcsr := (resolveMem_accessOnly hb).mxcsr
  rw [← h]
  exact passes_bind hb rfl

/-! Dot products: MXCSR and the free values drawn change, besides the destination. -/

theorem SimdMasked.commit (h : SimdMasked s) (fl : FpFlags) : SimdMasked (s.flagged fl) := by
  unfold SimdMasked at *
  have hx : (s.flagged fl).mxcsr = s.mxcsr ||| (reported s.mxcsr fl).setWidth 32 := rfl
  rw [hx]
  generalize reported s.mxcsr fl = g
  generalize s.mxcsr = m at h
  ext i hi
  have h2 := congrArg (fun v => BitVec.getLsbD v i) h
  simp only [BitVec.getLsbD_extractLsb', hi, decide_true, Bool.true_and] at h2
  simp only [BitVec.getElem_extractLsb', BitVec.getLsbD_or, BitVec.getLsbD_setWidth, h2]
  have hg : g.getLsbD (7 + i) = false := BitVec.getLsbD_of_ge _ _ (by omega)
  rw [hg]; simp [BitVec.getLsbD_eq_getElem hi]

/-- A step that changes MXCSR and draws free values only, and keeps the exceptions masked. -/
def FlagStep {α : Type} (m : M α) : Prop :=
  ∀ s, SimdMasked s → ∃ a x n, Passes m s a { s with mxcsr := x, free := n } ∧ SimdMasked { s with mxcsr := x, free := n }

theorem FlagStep.pure {α : Type} (a : α) : FlagStep (pure a : M α) := fun _ h => ⟨a, _, _, rfl, h⟩

theorem FlagStep.bind {α β : Type} {m : M α} {f : α → M β} (h : FlagStep m) (h2 : ∀ a, FlagStep (f a)) :
    FlagStep (m >>= f) := fun s hs => by
  obtain ⟨a, x, n, h1, hs1⟩ := h s hs
  obtain ⟨b, y, k, h3, hs2⟩ := h2 a _ hs1
  exact ⟨b, y, k, passes_bind h1 h3, hs2⟩

theorem FlagStep.commit (fl : FpFlags) : FlagStep (commitFlags fl) := fun s hs =>
  ⟨(), _, s.free, passes_commitFlags hs fl, hs.commit fl⟩

theorem FlagStep.env : FlagStep fpEnv := fun _ hs => ⟨_, _, _, rfl, hs⟩
theorem FlagStep.free (w : Nat) : FlagStep (freeValue w) := fun s hs => ⟨_, s.mxcsr, s.free + 1, rfl, hs⟩

theorem FlagStep.mapM {α β : Type} {f : α → M β} (h : ∀ a, FlagStep (f a)) (l : List α) : FlagStep (l.mapM f) := by
  induction l with
  | nil => rw [List.mapM_nil]; exact .pure _
  | cons a l ih => rw [List.mapM_cons]; exact .bind (h a) fun _ => .bind ih fun _ => .pure _

theorem dotElement_step (f : FpFmt) (sel : Bool) (sum : Nat) : FlagStep (dotElement f sel sum) := by
  unfold dotElement
  split
  · split
    · exact .bind (.free _) fun _ => .pure _
    · exact .pure _
  · exact .pure _

theorem inTurn_step (l : List FpOut) : FlagStep (inTurn l) := by
  induction l with
  | nil => exact .pure _
  | cons r l ih => exact .bind (.commit _) fun _ => .bind ih fun _ => .pure _

theorem dotSums_step (f : FpFmt) (l : List Nat) : FlagStep (dotSums f l) := .bind .env fun _ => inTurn_step _

theorem dotPrimitive_step (f : FpFmt) (imm : BitVec 8) (a b : BitVec 128) : FlagStep (dotPrimitive f imm a b) := by
  unfold dotPrimitive
  refine .bind .env fun _ => ?_
  dsimp only
  split
  · exact .bind (.bind (.commit _) fun _ => .pure _) fun _ => dotSums_step _ _
  · exact .bind (inTurn_step _) fun _ => .bind (dotSums_step _ _) fun _ => dotSums_step _ _

theorem dotHalves_step (f : FpFmt) (imm : BitVec 8) (l : List (BitVec 128 × BitVec 128)) : FlagStep (dotHalves f imm l) := by
  induction l with
  | nil => exact .pure _
  | cons p l ih => exact .bind (dotPrimitive_step _ _ _ _) fun _ => .bind ih fun _ => .pure _

theorem dotProduct_step (f : FpFmt) (imm : BitVec 8) {n : Nat} (a b : BitVec n) : FlagStep (dotProduct f imm a b) :=
  .bind (dotHalves_step _ _ _) fun _ => .bind (.mapM (fun _ => dotElement_step _ _ _) _) fun _ => .pure _

theorem xDot_passes {f : FpFmt} {o : XXI} {b : BitVec (8 * 16)} (h : SseReady .sse41 s) (hm : SimdMasked s)
    (hb : Passes (readXm .size 16 o.src) s b u) :
    ∃ v x n, Passes (dotProduct f o.imm (u.xmm o.dst) b) u v { u with mxcsr := x, free := n } ∧
      Passes (xDot f o) s () ({ u with mxcsr := x, free := n }.setXmm o.dst v) := by
  obtain ⟨v, x, n, hd, _⟩ := dotProduct_step f o.imm (u.xmm o.dst) b u (hm.access (readXm_accessOnly hb))
  exact ⟨v, x, n, hd, passes_bind (passes_needSse h) (passes_bind hb (passes_bind rfl (passes_bind hd rfl)))⟩

theorem vDot_passes {f : FpFmt} {o : VVXI} {b : BitVec o.l.bits} (h : VexReady [.avx] s) (hm : SimdMasked s)
    (hb : Passes (readVx o.l o.b) s b u) :
    ∃ (v : BitVec o.l.bits) (x : BitVec 32) (n : Nat),
      Passes (dotProduct f o.imm (u.vec o.l o.a) b) u v { u with mxcsr := x, free := n } ∧
      Passes (vDot f o) s () ({ u with mxcsr := x, free := n }.setVec o.dst v) := by
  obtain ⟨v, x, n, hd, _⟩ := dotProduct_step f o.imm (u.vec o.l o.a) b u (hm.access (readVx_accessOnly hb))
  exact ⟨v, x, n, hd, passes_bind (passes_needVex h) (passes_bind hb (passes_bind rfl (passes_bind hd rfl)))⟩

end Sys2Proof.Machine
end

