-- ==== Sys2Proof/Laws/Int.lean ====
section
/-! SUPPORT. What the shared operations of the integer instructions do. -/

namespace Sys2Proof.Machine

variable {s u : State}

theorem passes_notInLong (h : s.isLong = false) : Passes notInLong s () s :=
  passes_bind (passes_get s) (passes_ensure (by simp [h]) s)

theorem readDouble_passes (w : Width) (s : State) : Passes (readDouble w) s (s.dividend w) s := by cases w <;> rfl
theorem writeQuotRem_passes (w : Width) (s : State) (q r : Nat) :
    Passes (writeQuotRem w q r) s () (s.setQuotRem w q r) := by cases w <;> rfl
theorem writeDouble_passes (w : Width) (s : State) (v : Nat) : Passes (writeDouble w v) s () (s.setDouble w v) := by
  cases w <;> rfl


theorem undefReg16_passes (r : Reg) (s : State) : Passes (undefReg .w16 r) s ()
    { s.setGp r (mergeLow (s.gp r) ((Config.freeBits 64 s.free).setWidth 16)) with free := s.free + 1 } := by
  unfold undefReg
  refine passes_bind rfl ?_
  simp [passes_modify_iff]
  rfl

theorem bswap16_completes (r : Reg) (s : State) : Completes (.bswap ⟨.w16, r⟩) s
    { s.begin.setGp r (mergeLow (s.gp r) ((Config.freeBits 64 s.free).setWidth 16)) with free := s.free + 1 } := by
  show execBswap ⟨.w16, r⟩ s = _
  unfold execBswap
  exact run_of_passes (passes_if_pos rfl (undefReg16_passes r s.begin))

/-- What CMPXCHG does after its checks when the comparison succeeds. -/
theorem cmpxchgBody_eq {w : Width} {dst : Rm} {src : Gp} {q : Place} (h : Passes (place .write w dst) s q u)
    (he : u.reg w rAX = u.placeVal w q) : Passes (cmpxchgBody w dst src) s ()
      ({ u with flags := u.flags.sub (u.reg w rAX) (u.placeVal w q) false }.setPlace w q (u.gpVal w src)) := by
  unfold cmpxchgBody
  exact passes_bind h (passes_bind rfl (passes_bind rfl (passes_bind rfl (passes_bind rfl (passes_if_pos he rfl)))))

/-- What CMPXCHG does after its checks when the comparison fails. -/
theorem cmpxchgBody_ne {w : Width} {dst : Rm} {src : Gp} {q : Place} (h : Passes (place .write w dst) s q u)
    (he : u.reg w rAX ≠ u.placeVal w q) : Passes (cmpxchgBody w dst src) s ()
      (({ u with flags := u.flags.sub (u.reg w rAX) (u.placeVal w q) false }.setPlace w q (u.placeVal w q)).setReg w rAX
        (u.placeVal w q)) := by
  unfold cmpxchgBody
  exact passes_bind h (passes_bind rfl (passes_bind rfl (passes_bind rfl (passes_bind rfl (passes_if_neg he rfl)))))

/-- CMPXCHG8B and CMPXCHG16B when the comparison succeeds. -/
theorem cmpxchgPair_eq {w : Width} {must : Nat} {m : MemRef} {as : List Nat}
    (h : Passes (resolveAligned .write m (2 * w.bytes) must) s as u)
    (he : (u.reg w rDX).toNat * 2 ^ w.bits + (u.reg w rAX).toNat = u.mem.readList as) :
    Passes (cmpxchgPair w must m) s ()
      ({ u with flags := { u.flags with zf := true } }.physWrite as
        ((u.reg w rCX).toNat * 2 ^ w.bits + (u.reg w rBX).toNat)) := by
  unfold cmpxchgPair
  refine passes_bind h (passes_bind rfl (passes_bind rfl (passes_bind rfl (passes_bind rfl (passes_if_pos he ?_)))))
  have : decide ((u.reg w rDX).toNat * 2 ^ w.bits + (u.reg w rAX).toNat = u.mem.readList as) = true := decide_eq_true he
  rw [← this]; rfl

/-- CMPXCHG8B and CMPXCHG16B when the comparison fails. -/
theorem cmpxchgPair_ne {w : Width} {must : Nat} {m : MemRef} {as : List Nat}
    (h : Passes (resolveAligned .write m (2 * w.bytes) must) s as u)
    (he : (u.reg w rDX).toNat * 2 ^ w.bits + (u.reg w rAX).toNat ≠ u.mem.readList as) :
    Passes (cmpxchgPair w must m) s ()
      ((({ u with flags := { u.flags with zf := false } }.physWrite as (u.mem.readList as)).setReg w rAX
        (BitVec.ofNat w.bits (u.mem.readList as))).setReg w rDX (BitVec.ofNat w.bits (u.mem.readList as / 2 ^ w.bits))) := by
  unfold cmpxchgPair
  refine passes_bind h (passes_bind rfl (passes_bind rfl (passes_bind rfl (passes_bind rfl (passes_if_neg he ?_)))))
  have : decide ((u.reg w rDX).toNat * 2 ^ w.bits + (u.reg w rAX).toNat = u.mem.readList as) = false := decide_eq_false he
  rw [← this]; rfl

/-! Shifts. -/

theorem countOf_passes (c : Count) (s : State) : Passes (countOf c) s (s.count c) s := by cases c <;> rfl

theorem shiftRun_zero {op : ShiftOp} {w : Width} {dst : Rm} {c : Count} {q : Place} (h : Passes (place .write w dst) s q u)
    (h0 : maskCount w (u.count c) = 0) : Passes (shiftRun op ⟨w, dst, c⟩) s () u := by
  unfold shiftRun
  exact passes_bind h (passes_bind rfl (passes_bind (countOf_passes c u) (passes_if_neg (not_not.2 h0) rfl)))

theorem shiftRun_passes {op : ShiftOp} {w : Width} {dst : Rm} {c : Count} {q : Place} {r : BitVec w.bits} {v : State}
    (h : Passes (place .write w dst) s q u) (h0 : maskCount w (u.count c) ≠ 0)
    (hop : Passes (op w.bits (u.count c).toNat (maskCount w (u.count c)) (u.placeVal w q)) u r v) :
    Passes (shiftRun op ⟨w, dst, c⟩) s () (v.setPlace w q r) := by
  unfold shiftRun
  exact passes_bind h (passes_bind rfl (passes_bind (countOf_passes c u) (passes_if_pos h0 (passes_bind hop rfl))))

theorem doubleShift_zero {w : Width} {dst : Rm} {src : Reg} {c : Count} {q : Place}
    {f : BitVec w.bits → BitVec w.bits → Nat → BitVec w.bits × Bool} (h : Passes (place .write w dst) s q u)
    (h0 : maskCount w (u.count c) = 0) : Passes (doubleShift ⟨w, dst, src, c⟩ f) s () u := by
  unfold doubleShift
  exact passes_bind h (passes_bind rfl (passes_bind rfl (passes_bind (countOf_passes c u) (passes_if_pos h0 rfl))))

theorem doubleShift_passes {w : Width} {dst : Rm} {src : Reg} {c : Count} {q : Place}
    {f : BitVec w.bits → BitVec w.bits → Nat → BitVec w.bits × Bool} (h : Passes (place .write w dst) s q u)
    (h0 : 0 < maskCount w (u.count c)) (hl : maskCount w (u.count c) ≤ w.bits) :
    let m := maskCount w (u.count c)
    let a := u.placeVal w q
    let r := f a (u.reg w src) m
    Passes (doubleShift ⟨w, dst, src, c⟩ f) s () ((u.flagsDrawn { u.flags.szp r.1 with
      cf := r.2, of := if decide (m = 1) then (a.msb ^^ r.1.msb) else (Config.freeBits 1 u.free).getLsbD 0,
      af := (Config.freeBits 1 (u.free + 1)).getLsbD 0 } 2).setPlace w q r.1) := by
  unfold doubleShift
  exact passes_bind h (passes_bind rfl (passes_bind rfl (passes_bind (countOf_passes c u)
    (passes_if_neg (Nat.ne_of_gt h0) (passes_if_neg (Nat.not_lt.2 hl) rfl)))))

theorem undefStatus_passes (f : Flags) (s : State) :
    Passes (undefStatus f) s { f with
      cf := (Config.freeBits 1 s.free).getLsbD 0, pf := (Config.freeBits 1 (s.free + 1)).getLsbD 0,
      af := (Config.freeBits 1 (s.free + 2)).getLsbD 0, zf := (Config.freeBits 1 (s.free + 3)).getLsbD 0,
      sf := (Config.freeBits 1 (s.free + 4)).getLsbD 0, of := (Config.freeBits 1 (s.free + 5)).getLsbD 0 }
      { s with free := s.free + 6 } := rfl

/-- The status flags drawn from the free values n, n + 1, … -/
def drawnStatus (f : Flags) (n : Nat) : Flags :=
  { f with cf := (Config.freeBits 1 n).getLsbD 0, pf := (Config.freeBits 1 (n + 1)).getLsbD 0,
           af := (Config.freeBits 1 (n + 2)).getLsbD 0, zf := (Config.freeBits 1 (n + 3)).getLsbD 0,
           sf := (Config.freeBits 1 (n + 4)).getLsbD 0, of := (Config.freeBits 1 (n + 5)).getLsbD 0 }

theorem doubleShift_far {w : Width} {dst : Rm} {src : Reg} {c : Count} {q : Place}
    {f : BitVec w.bits → BitVec w.bits → Nat → BitVec w.bits × Bool} (h : Passes (place .write w dst) s q u)
    (hl : w.bits < maskCount w (u.count c)) :
    Passes (doubleShift ⟨w, dst, src, c⟩ f) s ()
      ((u.flagsDrawn (u.flags.withStatus (drawnStatus u.flags (u.free + 1))) 7).setPlace w q (Config.freeBits w.bits u.free)) := by
  unfold doubleShift
  refine passes_bind h (passes_bind rfl (passes_bind rfl (passes_bind (countOf_passes c u)
    (passes_if_neg (Nat.ne_of_gt (Nat.lt_of_le_of_lt (Nat.zero_le _) hl)) (passes_if_pos hl
      (passes_bind (passes_freeValue _ u) ?_))))))
  cases q with
  | reg g => cases g <;> rfl
  | mem as => rfl

/-! Bit scans. -/

theorem bitScan_passes {w : Width} {dst : Reg} {src : Rm} {f : BitVec w.bits → Nat} {a : BitVec w.bits}
    (h : Passes (readRm w src) s a u) (hz : a ≠ 0) : Passes (bitScan ⟨w, dst, src⟩ f) s ()
      ((u.flagsDrawn { u.flags.withStatus (drawnStatus u.flags u.free) with zf := false } 6).setReg w dst
        (BitVec.ofNat w.bits (f a))) := by
  unfold bitScan
  refine passes_bind h (passes_bind (passes_get u) (passes_bind (undefStatus_passes _ u) ?_))
  rw [decide_eq_false hz]
  exact passes_bind rfl (passes_if_neg hz rfl)

theorem bitScan_zero {w : Width} {dst : Reg} {src : Rm} {f : BitVec w.bits → Nat} {a : BitVec w.bits}
    (h : Passes (readRm w src) s a u) (hz : a = 0) : Passes (bitScan ⟨w, dst, src⟩ f) s ()
      ((u.flagsDrawn { u.flags.withStatus (drawnStatus u.flags u.free) with zf := true } 7).setGp dst
        (if u.isLong && decide (w = .w32) then Config.freeBits 64 (u.free + 6)
            else mergeLow (u.gp dst) ((Config.freeBits 64 (u.free + 6)).setWidth w.bits))) := by
  unfold bitScan
  refine passes_bind h (passes_bind (passes_get u) (passes_bind (undefStatus_passes _ u) ?_))
  rw [decide_eq_true hz]
  exact passes_bind rfl (passes_if_pos hz rfl)

end Sys2Proof.Machine
end

