-- ==== Sys2Proof/Laws/State.lean ====
section
/-! SUPPORT. One lemma for each field of the state under each named update, so that no proof unfolds a record update. -/

namespace Sys2Proof.Machine.State

variable (s : State)

/-! setGp. -/

@[simp] theorem setGp_cfg (r : Reg) (v : Word) : (s.setGp r v).cfg = s.cfg := rfl
@[simp] theorem setGp_gpr (r : Reg) (v : Word) : (s.setGp r v).gpr = s.gpr.set r v := rfl
@[simp] theorem setGp_rip (r : Reg) (v : Word) : (s.setGp r v).rip = s.rip := rfl
@[simp] theorem setGp_ripNext (r : Reg) (v : Word) : (s.setGp r v).ripNext = s.ripNext := rfl
@[simp] theorem setGp_fopNext (r : Reg) (v : Word) : (s.setGp r v).fopNext = s.fopNext := rfl
@[simp] theorem setGp_flags (r : Reg) (v : Word) : (s.setGp r v).flags = s.flags := rfl
@[simp] theorem setGp_seg (r : Reg) (v : Word) : (s.setGp r v).seg = s.seg := rfl
@[simp] theorem setGp_cpl (r : Reg) (v : Word) : (s.setGp r v).cpl = s.cpl := rfl
@[simp] theorem setGp_sys (r : Reg) (v : Word) : (s.setGp r v).sys = s.sys := rfl
@[simp] theorem setGp_msr (r : Reg) (v : Word) : (s.setGp r v).msr = s.msr := rfl
@[simp] theorem setGp_mxcsr (r : Reg) (v : Word) : (s.setGp r v).mxcsr = s.mxcsr := rfl
@[simp] theorem setGp_ymm (r : Reg) (v : Word) : (s.setGp r v).ymm = s.ymm := rfl
@[simp] theorem setGp_fpu (r : Reg) (v : Word) : (s.setGp r v).fpu = s.fpu := rfl
@[simp] theorem setGp_xrstor (r : Reg) (v : Word) : (s.setGp r v).xrstor = s.xrstor := rfl
@[simp] theorem setGp_act (r : Reg) (v : Word) : (s.setGp r v).act = s.act := rfl
@[simp] theorem setGp_rtm (r : Reg) (v : Word) : (s.setGp r v).rtm = s.rtm := rfl
@[simp] theorem setGp_mem (r : Reg) (v : Word) : (s.setGp r v).mem = s.mem := rfl
@[simp] theorem setGp_pins (r : Reg) (v : Word) : (s.setGp r v).pins = s.pins := rfl
@[simp] theorem setGp_io (r : Reg) (v : Word) : (s.setGp r v).io = s.io := rfl
@[simp] theorem setGp_free (r : Reg) (v : Word) : (s.setGp r v).free = s.free := rfl

/-! setReg. -/

@[simp] theorem setReg_cfg (w : Width) (r : Reg) (v : BitVec w.bits) : (s.setReg w r v).cfg = s.cfg := rfl
@[simp] theorem setReg_rip (w : Width) (r : Reg) (v : BitVec w.bits) : (s.setReg w r v).rip = s.rip := rfl
@[simp] theorem setReg_ripNext (w : Width) (r : Reg) (v : BitVec w.bits) : (s.setReg w r v).ripNext = s.ripNext := rfl
@[simp] theorem setReg_fopNext (w : Width) (r : Reg) (v : BitVec w.bits) : (s.setReg w r v).fopNext = s.fopNext := rfl
@[simp] theorem setReg_flags (w : Width) (r : Reg) (v : BitVec w.bits) : (s.setReg w r v).flags = s.flags := rfl
@[simp] theorem setReg_seg (w : Width) (r : Reg) (v : BitVec w.bits) : (s.setReg w r v).seg = s.seg := rfl
@[simp] theorem setReg_cpl (w : Width) (r : Reg) (v : BitVec w.bits) : (s.setReg w r v).cpl = s.cpl := rfl
@[simp] theorem setReg_sys (w : Width) (r : Reg) (v : BitVec w.bits) : (s.setReg w r v).sys = s.sys := rfl
@[simp] theorem setReg_msr (w : Width) (r : Reg) (v : BitVec w.bits) : (s.setReg w r v).msr = s.msr := rfl
@[simp] theorem setReg_mxcsr (w : Width) (r : Reg) (v : BitVec w.bits) : (s.setReg w r v).mxcsr = s.mxcsr := rfl
@[simp] theorem setReg_ymm (w : Width) (r : Reg) (v : BitVec w.bits) : (s.setReg w r v).ymm = s.ymm := rfl
@[simp] theorem setReg_fpu (w : Width) (r : Reg) (v : BitVec w.bits) : (s.setReg w r v).fpu = s.fpu := rfl
@[simp] theorem setReg_xrstor (w : Width) (r : Reg) (v : BitVec w.bits) : (s.setReg w r v).xrstor = s.xrstor := rfl
@[simp] theorem setReg_act (w : Width) (r : Reg) (v : BitVec w.bits) : (s.setReg w r v).act = s.act := rfl
@[simp] theorem setReg_rtm (w : Width) (r : Reg) (v : BitVec w.bits) : (s.setReg w r v).rtm = s.rtm := rfl
@[simp] theorem setReg_mem (w : Width) (r : Reg) (v : BitVec w.bits) : (s.setReg w r v).mem = s.mem := rfl
@[simp] theorem setReg_pins (w : Width) (r : Reg) (v : BitVec w.bits) : (s.setReg w r v).pins = s.pins := rfl
@[simp] theorem setReg_io (w : Width) (r : Reg) (v : BitVec w.bits) : (s.setReg w r v).io = s.io := rfl
@[simp] theorem setReg_free (w : Width) (r : Reg) (v : BitVec w.bits) : (s.setReg w r v).free = s.free := rfl

/-! setGpVal. -/

@[simp] theorem setGpVal_cfg (w : Width) (g : Gp) (v : BitVec w.bits) : (s.setGpVal w g v).cfg = s.cfg := by cases g <;> rfl
@[simp] theorem setGpVal_rip (w : Width) (g : Gp) (v : BitVec w.bits) : (s.setGpVal w g v).rip = s.rip := by cases g <;> rfl
@[simp] theorem setGpVal_ripNext (w : Width) (g : Gp) (v : BitVec w.bits) :
    (s.setGpVal w g v).ripNext = s.ripNext := by cases g <;> rfl
@[simp] theorem setGpVal_fopNext (w : Width) (g : Gp) (v : BitVec w.bits) :
    (s.setGpVal w g v).fopNext = s.fopNext := by cases g <;> rfl
@[simp] theorem setGpVal_flags (w : Width) (g : Gp) (v : BitVec w.bits) :
    (s.setGpVal w g v).flags = s.flags := by cases g <;> rfl
@[simp] theorem setGpVal_seg (w : Width) (g : Gp) (v : BitVec w.bits) : (s.setGpVal w g v).seg = s.seg := by cases g <;> rfl
@[simp] theorem setGpVal_cpl (w : Width) (g : Gp) (v : BitVec w.bits) : (s.setGpVal w g v).cpl = s.cpl := by cases g <;> rfl
@[simp] theorem setGpVal_sys (w : Width) (g : Gp) (v : BitVec w.bits) : (s.setGpVal w g v).sys = s.sys := by cases g <;> rfl
@[simp] theorem setGpVal_msr (w : Width) (g : Gp) (v : BitVec w.bits) : (s.setGpVal w g v).msr = s.msr := by cases g <;> rfl
@[simp] theorem setGpVal_mxcsr (w : Width) (g : Gp) (v : BitVec w.bits) :
    (s.setGpVal w g v).mxcsr = s.mxcsr := by cases g <;> rfl
@[simp] theorem setGpVal_ymm (w : Width) (g : Gp) (v : BitVec w.bits) : (s.setGpVal w g v).ymm = s.ymm := by cases g <;> rfl
@[simp] theorem setGpVal_fpu (w : Width) (g : Gp) (v : BitVec w.bits) : (s.setGpVal w g v).fpu = s.fpu := by cases g <;> rfl
@[simp] theorem setGpVal_xrstor (w : Width) (g : Gp) (v : BitVec w.bits) :
    (s.setGpVal w g v).xrstor = s.xrstor := by cases g <;> rfl
@[simp] theorem setGpVal_act (w : Width) (g : Gp) (v : BitVec w.bits) : (s.setGpVal w g v).act = s.act := by cases g <;> rfl
@[simp] theorem setGpVal_rtm (w : Width) (g : Gp) (v : BitVec w.bits) : (s.setGpVal w g v).rtm = s.rtm := by cases g <;> rfl
@[simp] theorem setGpVal_mem (w : Width) (g : Gp) (v : BitVec w.bits) : (s.setGpVal w g v).mem = s.mem := by cases g <;> rfl
@[simp] theorem setGpVal_pins (w : Width) (g : Gp) (v : BitVec w.bits) : (s.setGpVal w g v).pins = s.pins := by cases g <;> rfl
@[simp] theorem setGpVal_io (w : Width) (g : Gp) (v : BitVec w.bits) : (s.setGpVal w g v).io = s.io := by cases g <;> rfl
@[simp] theorem setGpVal_free (w : Width) (g : Gp) (v : BitVec w.bits) : (s.setGpVal w g v).free = s.free := by cases g <;> rfl

/-! setSp. -/

@[simp] theorem setSp_cfg (a : ASize) (v : Word) : (s.setSp a v).cfg = s.cfg := rfl
@[simp] theorem setSp_gpr (a : ASize) (v : Word) :
    (s.setSp a v).gpr = s.gpr.set rSP (mergeLow (s.gp rSP) (v.setWidth a.bits)) := rfl
@[simp] theorem setSp_rip (a : ASize) (v : Word) : (s.setSp a v).rip = s.rip := rfl
@[simp] theorem setSp_ripNext (a : ASize) (v : Word) : (s.setSp a v).ripNext = s.ripNext := rfl
@[simp] theorem setSp_fopNext (a : ASize) (v : Word) : (s.setSp a v).fopNext = s.fopNext := rfl
@[simp] theorem setSp_flags (a : ASize) (v : Word) : (s.setSp a v).flags = s.flags := rfl
@[simp] theorem setSp_seg (a : ASize) (v : Word) : (s.setSp a v).seg = s.seg := rfl
@[simp] theorem setSp_cpl (a : ASize) (v : Word) : (s.setSp a v).cpl = s.cpl := rfl
@[simp] theorem setSp_sys (a : ASize) (v : Word) : (s.setSp a v).sys = s.sys := rfl
@[simp] theorem setSp_msr (a : ASize) (v : Word) : (s.setSp a v).msr = s.msr := rfl
@[simp] theorem setSp_mxcsr (a : ASize) (v : Word) : (s.setSp a v).mxcsr = s.mxcsr := rfl
@[simp] theorem setSp_ymm (a : ASize) (v : Word) : (s.setSp a v).ymm = s.ymm := rfl
@[simp] theorem setSp_fpu (a : ASize) (v : Word) : (s.setSp a v).fpu = s.fpu := rfl
@[simp] theorem setSp_xrstor (a : ASize) (v : Word) : (s.setSp a v).xrstor = s.xrstor := rfl
@[simp] theorem setSp_act (a : ASize) (v : Word) : (s.setSp a v).act = s.act := rfl
@[simp] theorem setSp_rtm (a : ASize) (v : Word) : (s.setSp a v).rtm = s.rtm := rfl
@[simp] theorem setSp_mem (a : ASize) (v : Word) : (s.setSp a v).mem = s.mem := rfl
@[simp] theorem setSp_pins (a : ASize) (v : Word) : (s.setSp a v).pins = s.pins := rfl
@[simp] theorem setSp_io (a : ASize) (v : Word) : (s.setSp a v).io = s.io := rfl
@[simp] theorem setSp_free (a : ASize) (v : Word) : (s.setSp a v).free = s.free := rfl

/-! setSeg. -/

@[simp] theorem setSeg_cfg (r : SReg) (c : SegCache) : (s.setSeg r c).cfg = s.cfg := rfl
@[simp] theorem setSeg_gpr (r : SReg) (c : SegCache) : (s.setSeg r c).gpr = s.gpr := rfl
@[simp] theorem setSeg_rip (r : SReg) (c : SegCache) : (s.setSeg r c).rip = s.rip := rfl
@[simp] theorem setSeg_ripNext (r : SReg) (c : SegCache) : (s.setSeg r c).ripNext = s.ripNext := rfl
@[simp] theorem setSeg_fopNext (r : SReg) (c : SegCache) : (s.setSeg r c).fopNext = s.fopNext := rfl
@[simp] theorem setSeg_flags (r : SReg) (c : SegCache) : (s.setSeg r c).flags = s.flags := rfl
@[simp] theorem setSeg_seg (r : SReg) (c : SegCache) : (s.setSeg r c).seg = s.seg.set r.num c := rfl
@[simp] theorem setSeg_cpl (r : SReg) (c : SegCache) : (s.setSeg r c).cpl = s.cpl := rfl
@[simp] theorem setSeg_sys (r : SReg) (c : SegCache) : (s.setSeg r c).sys = s.sys := rfl
@[simp] theorem setSeg_msr (r : SReg) (c : SegCache) : (s.setSeg r c).msr = s.msr := rfl
@[simp] theorem setSeg_mxcsr (r : SReg) (c : SegCache) : (s.setSeg r c).mxcsr = s.mxcsr := rfl
@[simp] theorem setSeg_ymm (r : SReg) (c : SegCache) : (s.setSeg r c).ymm = s.ymm := rfl
@[simp] theorem setSeg_fpu (r : SReg) (c : SegCache) : (s.setSeg r c).fpu = s.fpu := rfl
@[simp] theorem setSeg_xrstor (r : SReg) (c : SegCache) : (s.setSeg r c).xrstor = s.xrstor := rfl
@[simp] theorem setSeg_act (r : SReg) (c : SegCache) : (s.setSeg r c).act = s.act := rfl
@[simp] theorem setSeg_rtm (r : SReg) (c : SegCache) : (s.setSeg r c).rtm = s.rtm := rfl
@[simp] theorem setSeg_mem (r : SReg) (c : SegCache) : (s.setSeg r c).mem = s.mem := rfl
@[simp] theorem setSeg_pins (r : SReg) (c : SegCache) : (s.setSeg r c).pins = s.pins := rfl
@[simp] theorem setSeg_io (r : SReg) (c : SegCache) : (s.setSeg r c).io = s.io := rfl
@[simp] theorem setSeg_free (r : SReg) (c : SegCache) : (s.setSeg r c).free = s.free := rfl

/-! setXmm. -/

@[simp] theorem setXmm_cfg (r : Reg) (v : BitVec 128) : (s.setXmm r v).cfg = s.cfg := rfl
@[simp] theorem setXmm_gpr (r : Reg) (v : BitVec 128) : (s.setXmm r v).gpr = s.gpr := rfl
@[simp] theorem setXmm_rip (r : Reg) (v : BitVec 128) : (s.setXmm r v).rip = s.rip := rfl
@[simp] theorem setXmm_ripNext (r : Reg) (v : BitVec 128) : (s.setXmm r v).ripNext = s.ripNext := rfl
@[simp] theorem setXmm_fopNext (r : Reg) (v : BitVec 128) : (s.setXmm r v).fopNext = s.fopNext := rfl
@[simp] theorem setXmm_flags (r : Reg) (v : BitVec 128) : (s.setXmm r v).flags = s.flags := rfl
@[simp] theorem setXmm_seg (r : Reg) (v : BitVec 128) : (s.setXmm r v).seg = s.seg := rfl
@[simp] theorem setXmm_cpl (r : Reg) (v : BitVec 128) : (s.setXmm r v).cpl = s.cpl := rfl
@[simp] theorem setXmm_sys (r : Reg) (v : BitVec 128) : (s.setXmm r v).sys = s.sys := rfl
@[simp] theorem setXmm_msr (r : Reg) (v : BitVec 128) : (s.setXmm r v).msr = s.msr := rfl
@[simp] theorem setXmm_mxcsr (r : Reg) (v : BitVec 128) : (s.setXmm r v).mxcsr = s.mxcsr := rfl
@[simp] theorem setXmm_fpu (r : Reg) (v : BitVec 128) : (s.setXmm r v).fpu = s.fpu := rfl
@[simp] theorem setXmm_xrstor (r : Reg) (v : BitVec 128) : (s.setXmm r v).xrstor = s.xrstor := rfl
@[simp] theorem setXmm_act (r : Reg) (v : BitVec 128) : (s.setXmm r v).act = s.act := rfl
@[simp] theorem setXmm_rtm (r : Reg) (v : BitVec 128) : (s.setXmm r v).rtm = s.rtm := rfl
@[simp] theorem setXmm_mem (r : Reg) (v : BitVec 128) : (s.setXmm r v).mem = s.mem := rfl
@[simp] theorem setXmm_pins (r : Reg) (v : BitVec 128) : (s.setXmm r v).pins = s.pins := rfl
@[simp] theorem setXmm_io (r : Reg) (v : BitVec 128) : (s.setXmm r v).io = s.io := rfl
@[simp] theorem setXmm_free (r : Reg) (v : BitVec 128) : (s.setXmm r v).free = s.free := rfl

/-! setVec. -/

@[simp] theorem setVec_cfg {n : Nat} (r : Reg) (v : BitVec n) : (s.setVec r v).cfg = s.cfg := rfl
@[simp] theorem setVec_gpr {n : Nat} (r : Reg) (v : BitVec n) : (s.setVec r v).gpr = s.gpr := rfl
@[simp] theorem setVec_rip {n : Nat} (r : Reg) (v : BitVec n) : (s.setVec r v).rip = s.rip := rfl
@[simp] theorem setVec_ripNext {n : Nat} (r : Reg) (v : BitVec n) : (s.setVec r v).ripNext = s.ripNext := rfl
@[simp] theorem setVec_fopNext {n : Nat} (r : Reg) (v : BitVec n) : (s.setVec r v).fopNext = s.fopNext := rfl
@[simp] theorem setVec_flags {n : Nat} (r : Reg) (v : BitVec n) : (s.setVec r v).flags = s.flags := rfl
@[simp] theorem setVec_seg {n : Nat} (r : Reg) (v : BitVec n) : (s.setVec r v).seg = s.seg := rfl
@[simp] theorem setVec_cpl {n : Nat} (r : Reg) (v : BitVec n) : (s.setVec r v).cpl = s.cpl := rfl
@[simp] theorem setVec_sys {n : Nat} (r : Reg) (v : BitVec n) : (s.setVec r v).sys = s.sys := rfl
@[simp] theorem setVec_msr {n : Nat} (r : Reg) (v : BitVec n) : (s.setVec r v).msr = s.msr := rfl
@[simp] theorem setVec_mxcsr {n : Nat} (r : Reg) (v : BitVec n) : (s.setVec r v).mxcsr = s.mxcsr := rfl
@[simp] theorem setVec_ymm {n : Nat} (r : Reg) (v : BitVec n) : (s.setVec r v).ymm = s.ymm.set r (v.setWidth 256) := rfl
@[simp] theorem setVec_fpu {n : Nat} (r : Reg) (v : BitVec n) : (s.setVec r v).fpu = s.fpu := rfl
@[simp] theorem setVec_xrstor {n : Nat} (r : Reg) (v : BitVec n) : (s.setVec r v).xrstor = s.xrstor := rfl
@[simp] theorem setVec_act {n : Nat} (r : Reg) (v : BitVec n) : (s.setVec r v).act = s.act := rfl
@[simp] theorem setVec_rtm {n : Nat} (r : Reg) (v : BitVec n) : (s.setVec r v).rtm = s.rtm := rfl
@[simp] theorem setVec_mem {n : Nat} (r : Reg) (v : BitVec n) : (s.setVec r v).mem = s.mem := rfl
@[simp] theorem setVec_pins {n : Nat} (r : Reg) (v : BitVec n) : (s.setVec r v).pins = s.pins := rfl
@[simp] theorem setVec_io {n : Nat} (r : Reg) (v : BitVec n) : (s.setVec r v).io = s.io := rfl
@[simp] theorem setVec_free {n : Nat} (r : Reg) (v : BitVec n) : (s.setVec r v).free = s.free := rfl

/-! setMm. -/

@[simp] theorem setMm_cfg (r : Fin 8) (v : BitVec 64) : (s.setMm r v).cfg = s.cfg := rfl
@[simp] theorem setMm_gpr (r : Fin 8) (v : BitVec 64) : (s.setMm r v).gpr = s.gpr := rfl
@[simp] theorem setMm_rip (r : Fin 8) (v : BitVec 64) : (s.setMm r v).rip = s.rip := rfl
@[simp] theorem setMm_ripNext (r : Fin 8) (v : BitVec 64) : (s.setMm r v).ripNext = s.ripNext := rfl
@[simp] theorem setMm_fopNext (r : Fin 8) (v : BitVec 64) : (s.setMm r v).fopNext = s.fopNext := rfl
@[simp] theorem setMm_flags (r : Fin 8) (v : BitVec 64) : (s.setMm r v).flags = s.flags := rfl
@[simp] theorem setMm_seg (r : Fin 8) (v : BitVec 64) : (s.setMm r v).seg = s.seg := rfl
@[simp] theorem setMm_cpl (r : Fin 8) (v : BitVec 64) : (s.setMm r v).cpl = s.cpl := rfl
@[simp] theorem setMm_sys (r : Fin 8) (v : BitVec 64) : (s.setMm r v).sys = s.sys := rfl
@[simp] theorem setMm_msr (r : Fin 8) (v : BitVec 64) : (s.setMm r v).msr = s.msr := rfl
@[simp] theorem setMm_mxcsr (r : Fin 8) (v : BitVec 64) : (s.setMm r v).mxcsr = s.mxcsr := rfl
@[simp] theorem setMm_ymm (r : Fin 8) (v : BitVec 64) : (s.setMm r v).ymm = s.ymm := rfl
@[simp] theorem setMm_xrstor (r : Fin 8) (v : BitVec 64) : (s.setMm r v).xrstor = s.xrstor := rfl
@[simp] theorem setMm_act (r : Fin 8) (v : BitVec 64) : (s.setMm r v).act = s.act := rfl
@[simp] theorem setMm_rtm (r : Fin 8) (v : BitVec 64) : (s.setMm r v).rtm = s.rtm := rfl
@[simp] theorem setMm_mem (r : Fin 8) (v : BitVec 64) : (s.setMm r v).mem = s.mem := rfl
@[simp] theorem setMm_pins (r : Fin 8) (v : BitVec 64) : (s.setMm r v).pins = s.pins := rfl
@[simp] theorem setMm_io (r : Fin 8) (v : BitVec 64) : (s.setMm r v).io = s.io := rfl
@[simp] theorem setMm_free (r : Fin 8) (v : BitVec 64) : (s.setMm r v).free = s.free := rfl

/-! mmxUsed. -/

@[simp] theorem mmxUsed_cfg : s.mmxUsed.cfg = s.cfg := rfl
@[simp] theorem mmxUsed_gpr : s.mmxUsed.gpr = s.gpr := rfl
@[simp] theorem mmxUsed_rip : s.mmxUsed.rip = s.rip := rfl
@[simp] theorem mmxUsed_ripNext : s.mmxUsed.ripNext = s.ripNext := rfl
@[simp] theorem mmxUsed_fopNext : s.mmxUsed.fopNext = s.fopNext := rfl
@[simp] theorem mmxUsed_flags : s.mmxUsed.flags = s.flags := rfl
@[simp] theorem mmxUsed_seg : s.mmxUsed.seg = s.seg := rfl
@[simp] theorem mmxUsed_cpl : s.mmxUsed.cpl = s.cpl := rfl
@[simp] theorem mmxUsed_sys : s.mmxUsed.sys = s.sys := rfl
@[simp] theorem mmxUsed_msr : s.mmxUsed.msr = s.msr := rfl
@[simp] theorem mmxUsed_mxcsr : s.mmxUsed.mxcsr = s.mxcsr := rfl
@[simp] theorem mmxUsed_ymm : s.mmxUsed.ymm = s.ymm := rfl
@[simp] theorem mmxUsed_fpu : s.mmxUsed.fpu = s.fpu.mmxUse := rfl
@[simp] theorem mmxUsed_xrstor : s.mmxUsed.xrstor = s.xrstor := rfl
@[simp] theorem mmxUsed_act : s.mmxUsed.act = s.act := rfl
@[simp] theorem mmxUsed_rtm : s.mmxUsed.rtm = s.rtm := rfl
@[simp] theorem mmxUsed_mem : s.mmxUsed.mem = s.mem := rfl
@[simp] theorem mmxUsed_pins : s.mmxUsed.pins = s.pins := rfl
@[simp] theorem mmxUsed_io : s.mmxUsed.io = s.io := rfl
@[simp] theorem mmxUsed_free : s.mmxUsed.free = s.free := rfl

/-! physWrite. -/

@[simp] theorem physWrite_cfg (as : List Nat) (v : Nat) : (s.physWrite as v).cfg = s.cfg := rfl
@[simp] theorem physWrite_gpr (as : List Nat) (v : Nat) : (s.physWrite as v).gpr = s.gpr := rfl
@[simp] theorem physWrite_rip (as : List Nat) (v : Nat) : (s.physWrite as v).rip = s.rip := rfl
@[simp] theorem physWrite_ripNext (as : List Nat) (v : Nat) : (s.physWrite as v).ripNext = s.ripNext := rfl
@[simp] theorem physWrite_fopNext (as : List Nat) (v : Nat) : (s.physWrite as v).fopNext = s.fopNext := rfl
@[simp] theorem physWrite_flags (as : List Nat) (v : Nat) : (s.physWrite as v).flags = s.flags := rfl
@[simp] theorem physWrite_seg (as : List Nat) (v : Nat) : (s.physWrite as v).seg = s.seg := rfl
@[simp] theorem physWrite_cpl (as : List Nat) (v : Nat) : (s.physWrite as v).cpl = s.cpl := rfl
@[simp] theorem physWrite_sys (as : List Nat) (v : Nat) : (s.physWrite as v).sys = s.sys := rfl
@[simp] theorem physWrite_msr (as : List Nat) (v : Nat) : (s.physWrite as v).msr = s.msr := rfl
@[simp] theorem physWrite_mxcsr (as : List Nat) (v : Nat) : (s.physWrite as v).mxcsr = s.mxcsr := rfl
@[simp] theorem physWrite_ymm (as : List Nat) (v : Nat) : (s.physWrite as v).ymm = s.ymm := rfl
@[simp] theorem physWrite_fpu (as : List Nat) (v : Nat) : (s.physWrite as v).fpu = s.fpu := rfl
@[simp] theorem physWrite_xrstor (as : List Nat) (v : Nat) : (s.physWrite as v).xrstor = s.xrstor := rfl
@[simp] theorem physWrite_rtm (as : List Nat) (v : Nat) : (s.physWrite as v).rtm = s.rtm := rfl
@[simp] theorem physWrite_mem (as : List Nat) (v : Nat) : (s.physWrite as v).mem = s.mem.writeList as v := rfl
@[simp] theorem physWrite_pins (as : List Nat) (v : Nat) : (s.physWrite as v).pins = s.pins := rfl
@[simp] theorem physWrite_io (as : List Nat) (v : Nat) : (s.physWrite as v).io = s.io := rfl
@[simp] theorem physWrite_free (as : List Nat) (v : Nat) : (s.physWrite as v).free = s.free := rfl

/-! flagsDrawn. -/

@[simp] theorem flagsDrawn_cfg (f : Flags) (k : Nat) : (s.flagsDrawn f k).cfg = s.cfg := rfl
@[simp] theorem flagsDrawn_gpr (f : Flags) (k : Nat) : (s.flagsDrawn f k).gpr = s.gpr := rfl
@[simp] theorem flagsDrawn_rip (f : Flags) (k : Nat) : (s.flagsDrawn f k).rip = s.rip := rfl
@[simp] theorem flagsDrawn_ripNext (f : Flags) (k : Nat) : (s.flagsDrawn f k).ripNext = s.ripNext := rfl
@[simp] theorem flagsDrawn_fopNext (f : Flags) (k : Nat) : (s.flagsDrawn f k).fopNext = s.fopNext := rfl
@[simp] theorem flagsDrawn_flags (f : Flags) (k : Nat) : (s.flagsDrawn f k).flags = f := rfl
@[simp] theorem flagsDrawn_seg (f : Flags) (k : Nat) : (s.flagsDrawn f k).seg = s.seg := rfl
@[simp] theorem flagsDrawn_cpl (f : Flags) (k : Nat) : (s.flagsDrawn f k).cpl = s.cpl := rfl
@[simp] theorem flagsDrawn_sys (f : Flags) (k : Nat) : (s.flagsDrawn f k).sys = s.sys := rfl
@[simp] theorem flagsDrawn_msr (f : Flags) (k : Nat) : (s.flagsDrawn f k).msr = s.msr := rfl
@[simp] theorem flagsDrawn_mxcsr (f : Flags) (k : Nat) : (s.flagsDrawn f k).mxcsr = s.mxcsr := rfl
@[simp] theorem flagsDrawn_ymm (f : Flags) (k : Nat) : (s.flagsDrawn f k).ymm = s.ymm := rfl
@[simp] theorem flagsDrawn_fpu (f : Flags) (k : Nat) : (s.flagsDrawn f k).fpu = s.fpu := rfl
@[simp] theorem flagsDrawn_xrstor (f : Flags) (k : Nat) : (s.flagsDrawn f k).xrstor = s.xrstor := rfl
@[simp] theorem flagsDrawn_act (f : Flags) (k : Nat) : (s.flagsDrawn f k).act = s.act := rfl
@[simp] theorem flagsDrawn_rtm (f : Flags) (k : Nat) : (s.flagsDrawn f k).rtm = s.rtm := rfl
@[simp] theorem flagsDrawn_mem (f : Flags) (k : Nat) : (s.flagsDrawn f k).mem = s.mem := rfl
@[simp] theorem flagsDrawn_pins (f : Flags) (k : Nat) : (s.flagsDrawn f k).pins = s.pins := rfl
@[simp] theorem flagsDrawn_io (f : Flags) (k : Nat) : (s.flagsDrawn f k).io = s.io := rfl
@[simp] theorem flagsDrawn_free (f : Flags) (k : Nat) : (s.flagsDrawn f k).free = s.free + k := rfl

/-! flagged. -/

@[simp] theorem flagged_cfg (fl : FpFlags) : (s.flagged fl).cfg = s.cfg := rfl
@[simp] theorem flagged_gpr (fl : FpFlags) : (s.flagged fl).gpr = s.gpr := rfl
@[simp] theorem flagged_rip (fl : FpFlags) : (s.flagged fl).rip = s.rip := rfl
@[simp] theorem flagged_ripNext (fl : FpFlags) : (s.flagged fl).ripNext = s.ripNext := rfl
@[simp] theorem flagged_fopNext (fl : FpFlags) : (s.flagged fl).fopNext = s.fopNext := rfl
@[simp] theorem flagged_flags (fl : FpFlags) : (s.flagged fl).flags = s.flags := rfl
@[simp] theorem flagged_seg (fl : FpFlags) : (s.flagged fl).seg = s.seg := rfl
@[simp] theorem flagged_cpl (fl : FpFlags) : (s.flagged fl).cpl = s.cpl := rfl
@[simp] theorem flagged_sys (fl : FpFlags) : (s.flagged fl).sys = s.sys := rfl
@[simp] theorem flagged_msr (fl : FpFlags) : (s.flagged fl).msr = s.msr := rfl
@[simp] theorem flagged_ymm (fl : FpFlags) : (s.flagged fl).ymm = s.ymm := rfl
@[simp] theorem flagged_fpu (fl : FpFlags) : (s.flagged fl).fpu = s.fpu := rfl
@[simp] theorem flagged_xrstor (fl : FpFlags) : (s.flagged fl).xrstor = s.xrstor := rfl
@[simp] theorem flagged_act (fl : FpFlags) : (s.flagged fl).act = s.act := rfl
@[simp] theorem flagged_rtm (fl : FpFlags) : (s.flagged fl).rtm = s.rtm := rfl
@[simp] theorem flagged_mem (fl : FpFlags) : (s.flagged fl).mem = s.mem := rfl
@[simp] theorem flagged_pins (fl : FpFlags) : (s.flagged fl).pins = s.pins := rfl
@[simp] theorem flagged_io (fl : FpFlags) : (s.flagged fl).io = s.io := rfl
@[simp] theorem flagged_free (fl : FpFlags) : (s.flagged fl).free = s.free := rfl

/-! begin. -/

@[simp] theorem begin_cfg : s.begin.cfg = s.cfg := rfl
@[simp] theorem begin_gpr : s.begin.gpr = s.gpr := rfl
@[simp] theorem begin_rip : s.begin.rip = s.ripNext := rfl
@[simp] theorem begin_ripNext : s.begin.ripNext = s.ripNext := rfl
@[simp] theorem begin_fopNext : s.begin.fopNext = s.fopNext := rfl
@[simp] theorem begin_flags : s.begin.flags = { s.flags with rf := false } := rfl
@[simp] theorem begin_seg : s.begin.seg = s.seg := rfl
@[simp] theorem begin_cpl : s.begin.cpl = s.cpl := rfl
@[simp] theorem begin_sys : s.begin.sys = s.sys := rfl
@[simp] theorem begin_msr : s.begin.msr = s.msr := rfl
@[simp] theorem begin_mxcsr : s.begin.mxcsr = s.mxcsr := rfl
@[simp] theorem begin_ymm : s.begin.ymm = s.ymm := rfl
@[simp] theorem begin_fpu : s.begin.fpu = s.fpu := rfl
@[simp] theorem begin_xrstor : s.begin.xrstor = s.xrstor := rfl
@[simp] theorem begin_rtm : s.begin.rtm = s.rtm := rfl
@[simp] theorem begin_mem : s.begin.mem = s.mem := rfl
@[simp] theorem begin_pins : s.begin.pins = s.pins := rfl
@[simp] theorem begin_io : s.begin.io = s.io := rfl
@[simp] theorem begin_free : s.begin.free = s.free := rfl

/-! marked. -/

@[simp] theorem marked_cfg (as : List Nat) : (s.marked as).cfg = s.cfg := rfl
@[simp] theorem marked_gpr (as : List Nat) : (s.marked as).gpr = s.gpr := rfl
@[simp] theorem marked_rip (as : List Nat) : (s.marked as).rip = s.rip := rfl
@[simp] theorem marked_ripNext (as : List Nat) : (s.marked as).ripNext = s.ripNext := rfl
@[simp] theorem marked_fopNext (as : List Nat) : (s.marked as).fopNext = s.fopNext := rfl
@[simp] theorem marked_flags (as : List Nat) : (s.marked as).flags = s.flags := rfl
@[simp] theorem marked_seg (as : List Nat) : (s.marked as).seg = s.seg := rfl
@[simp] theorem marked_cpl (as : List Nat) : (s.marked as).cpl = s.cpl := rfl
@[simp] theorem marked_sys (as : List Nat) : (s.marked as).sys = s.sys := rfl
@[simp] theorem marked_msr (as : List Nat) : (s.marked as).msr = s.msr := rfl
@[simp] theorem marked_mxcsr (as : List Nat) : (s.marked as).mxcsr = s.mxcsr := rfl
@[simp] theorem marked_ymm (as : List Nat) : (s.marked as).ymm = s.ymm := rfl
@[simp] theorem marked_fpu (as : List Nat) : (s.marked as).fpu = s.fpu := rfl
@[simp] theorem marked_xrstor (as : List Nat) : (s.marked as).xrstor = s.xrstor := rfl
@[simp] theorem marked_rtm (as : List Nat) : (s.marked as).rtm = s.rtm := rfl
@[simp] theorem marked_pins (as : List Nat) : (s.marked as).pins = s.pins := rfl
@[simp] theorem marked_io (as : List Nat) : (s.marked as).io = s.io := rfl
@[simp] theorem marked_free (as : List Nat) : (s.marked as).free = s.free := rfl

/-! withCode. -/

@[simp] theorem withCode_cfg (d : SegLoad) (cpl : BitVec 2) (off : Word) : (s.withCode d cpl off).cfg = s.cfg := rfl
@[simp] theorem withCode_gpr (d : SegLoad) (cpl : BitVec 2) (off : Word) : (s.withCode d cpl off).gpr = s.gpr := rfl
@[simp] theorem withCode_rip (d : SegLoad) (cpl : BitVec 2) (off : Word) : (s.withCode d cpl off).rip = off := rfl
@[simp] theorem withCode_ripNext (d : SegLoad) (cpl : BitVec 2) (off : Word) :
    (s.withCode d cpl off).ripNext = s.ripNext := rfl
@[simp] theorem withCode_fopNext (d : SegLoad) (cpl : BitVec 2) (off : Word) :
    (s.withCode d cpl off).fopNext = s.fopNext := rfl
@[simp] theorem withCode_flags (d : SegLoad) (cpl : BitVec 2) (off : Word) : (s.withCode d cpl off).flags = s.flags := rfl
@[simp] theorem withCode_seg (d : SegLoad) (cpl : BitVec 2) (off : Word) :
    (s.withCode d cpl off).seg = s.seg.set 1 { d.cache with sel := withRpl d.cache.sel cpl } := rfl
@[simp] theorem withCode_cpl (d : SegLoad) (cpl : BitVec 2) (off : Word) : (s.withCode d cpl off).cpl = cpl := rfl
@[simp] theorem withCode_sys (d : SegLoad) (cpl : BitVec 2) (off : Word) : (s.withCode d cpl off).sys = s.sys := rfl
@[simp] theorem withCode_msr (d : SegLoad) (cpl : BitVec 2) (off : Word) : (s.withCode d cpl off).msr = s.msr := rfl
@[simp] theorem withCode_mxcsr (d : SegLoad) (cpl : BitVec 2) (off : Word) : (s.withCode d cpl off).mxcsr = s.mxcsr := rfl
@[simp] theorem withCode_ymm (d : SegLoad) (cpl : BitVec 2) (off : Word) : (s.withCode d cpl off).ymm = s.ymm := rfl
@[simp] theorem withCode_fpu (d : SegLoad) (cpl : BitVec 2) (off : Word) : (s.withCode d cpl off).fpu = s.fpu := rfl
@[simp] theorem withCode_xrstor (d : SegLoad) (cpl : BitVec 2) (off : Word) : (s.withCode d cpl off).xrstor = s.xrstor := rfl
@[simp] theorem withCode_act (d : SegLoad) (cpl : BitVec 2) (off : Word) : (s.withCode d cpl off).act = s.act := rfl
@[simp] theorem withCode_rtm (d : SegLoad) (cpl : BitVec 2) (off : Word) : (s.withCode d cpl off).rtm = s.rtm := rfl
@[simp] theorem withCode_mem (d : SegLoad) (cpl : BitVec 2) (off : Word) : (s.withCode d cpl off).mem = s.mem := rfl
@[simp] theorem withCode_pins (d : SegLoad) (cpl : BitVec 2) (off : Word) : (s.withCode d cpl off).pins = s.pins := rfl
@[simp] theorem withCode_io (d : SegLoad) (cpl : BitVec 2) (off : Word) : (s.withCode d cpl off).io = s.io := rfl
@[simp] theorem withCode_free (d : SegLoad) (cpl : BitVec 2) (off : Word) : (s.withCode d cpl off).free = s.free := rfl

/-! faulted. -/

@[simp] theorem faulted_cfg (u : State) : (s.faulted u).cfg = s.cfg := rfl
@[simp] theorem faulted_gpr (u : State) : (s.faulted u).gpr = s.gpr := rfl
@[simp] theorem faulted_rip (u : State) : (s.faulted u).rip = s.rip := rfl
@[simp] theorem faulted_ripNext (u : State) : (s.faulted u).ripNext = s.ripNext := rfl
@[simp] theorem faulted_fopNext (u : State) : (s.faulted u).fopNext = s.fopNext := rfl
@[simp] theorem faulted_flags (u : State) : (s.faulted u).flags = s.flags := rfl
@[simp] theorem faulted_seg (u : State) : (s.faulted u).seg = s.seg := rfl
@[simp] theorem faulted_cpl (u : State) : (s.faulted u).cpl = s.cpl := rfl
@[simp] theorem faulted_sys (u : State) : (s.faulted u).sys = s.sys := rfl
@[simp] theorem faulted_msr (u : State) : (s.faulted u).msr = s.msr := rfl
@[simp] theorem faulted_mxcsr (u : State) : (s.faulted u).mxcsr = s.mxcsr := rfl
@[simp] theorem faulted_ymm (u : State) : (s.faulted u).ymm = s.ymm := rfl
@[simp] theorem faulted_fpu (u : State) : (s.faulted u).fpu = s.fpu := rfl
@[simp] theorem faulted_xrstor (u : State) : (s.faulted u).xrstor = s.xrstor := rfl
@[simp] theorem faulted_rtm (u : State) : (s.faulted u).rtm = s.rtm := rfl
@[simp] theorem faulted_mem (u : State) : (s.faulted u).mem = u.mem := rfl
@[simp] theorem faulted_pins (u : State) : (s.faulted u).pins = s.pins := rfl
@[simp] theorem faulted_io (u : State) : (s.faulted u).io = s.io := rfl
@[simp] theorem faulted_free (u : State) : (s.faulted u).free = s.free := rfl

/-! softBegin. -/

@[simp] theorem softBegin_cfg : s.softBegin.cfg = s.cfg := rfl
@[simp] theorem softBegin_gpr : s.softBegin.gpr = s.gpr := rfl
@[simp] theorem softBegin_rip : s.softBegin.rip = s.rip := rfl
@[simp] theorem softBegin_ripNext : s.softBegin.ripNext = s.ripNext := rfl
@[simp] theorem softBegin_fopNext : s.softBegin.fopNext = s.fopNext := rfl
@[simp] theorem softBegin_flags : s.softBegin.flags = { s.flags with rf := false } := rfl
@[simp] theorem softBegin_seg : s.softBegin.seg = s.seg := rfl
@[simp] theorem softBegin_cpl : s.softBegin.cpl = s.cpl := rfl
@[simp] theorem softBegin_sys : s.softBegin.sys = s.sys := rfl
@[simp] theorem softBegin_msr : s.softBegin.msr = s.msr := rfl
@[simp] theorem softBegin_mxcsr : s.softBegin.mxcsr = s.mxcsr := rfl
@[simp] theorem softBegin_ymm : s.softBegin.ymm = s.ymm := rfl
@[simp] theorem softBegin_fpu : s.softBegin.fpu = s.fpu := rfl
@[simp] theorem softBegin_xrstor : s.softBegin.xrstor = s.xrstor := rfl
@[simp] theorem softBegin_rtm : s.softBegin.rtm = s.rtm := rfl
@[simp] theorem softBegin_mem : s.softBegin.mem = s.mem := rfl
@[simp] theorem softBegin_pins : s.softBegin.pins = s.pins := rfl
@[simp] theorem softBegin_io : s.softBegin.io = s.io := rfl
@[simp] theorem softBegin_free : s.softBegin.free = s.free := rfl

/-! atInstr. -/

@[simp] theorem atInstr_cfg (n : Nat) (f : BitVec 11) : (s.atInstr n f).cfg = s.cfg := rfl
@[simp] theorem atInstr_gpr (n : Nat) (f : BitVec 11) : (s.atInstr n f).gpr = s.gpr := rfl
@[simp] theorem atInstr_rip (n : Nat) (f : BitVec 11) : (s.atInstr n f).rip = s.rip := rfl
@[simp] theorem atInstr_ripNext (n : Nat) (f : BitVec 11) :
    (s.atInstr n f).ripNext = s.ripTrunc (s.rip + BitVec.ofNat 64 n) := rfl
@[simp] theorem atInstr_fopNext (n : Nat) (f : BitVec 11) : (s.atInstr n f).fopNext = f := rfl
@[simp] theorem atInstr_flags (n : Nat) (f : BitVec 11) : (s.atInstr n f).flags = s.flags := rfl
@[simp] theorem atInstr_seg (n : Nat) (f : BitVec 11) : (s.atInstr n f).seg = s.seg := rfl
@[simp] theorem atInstr_cpl (n : Nat) (f : BitVec 11) : (s.atInstr n f).cpl = s.cpl := rfl
@[simp] theorem atInstr_sys (n : Nat) (f : BitVec 11) : (s.atInstr n f).sys = s.sys := rfl
@[simp] theorem atInstr_msr (n : Nat) (f : BitVec 11) : (s.atInstr n f).msr = s.msr := rfl
@[simp] theorem atInstr_mxcsr (n : Nat) (f : BitVec 11) : (s.atInstr n f).mxcsr = s.mxcsr := rfl
@[simp] theorem atInstr_ymm (n : Nat) (f : BitVec 11) : (s.atInstr n f).ymm = s.ymm := rfl
@[simp] theorem atInstr_fpu (n : Nat) (f : BitVec 11) : (s.atInstr n f).fpu = s.fpu := rfl
@[simp] theorem atInstr_xrstor (n : Nat) (f : BitVec 11) : (s.atInstr n f).xrstor = s.xrstor := rfl
@[simp] theorem atInstr_act (n : Nat) (f : BitVec 11) : (s.atInstr n f).act = s.act := rfl
@[simp] theorem atInstr_rtm (n : Nat) (f : BitVec 11) : (s.atInstr n f).rtm = s.rtm := rfl
@[simp] theorem atInstr_mem (n : Nat) (f : BitVec 11) : (s.atInstr n f).mem = s.mem := rfl
@[simp] theorem atInstr_pins (n : Nat) (f : BitVec 11) : (s.atInstr n f).pins = s.pins := rfl
@[simp] theorem atInstr_io (n : Nat) (f : BitVec 11) : (s.atInstr n f).io = s.io := rfl
@[simp] theorem atInstr_free (n : Nat) (f : BitVec 11) : (s.atInstr n f).free = s.free := rfl

/-! What is read back. -/

theorem get_set_same {α : Type} {n : Nat} (v : Vector α n) (i : Fin n) (a : α) : (v.set i a).get i = a :=
  Vector.getElem_set_self i.isLt
theorem get_set_other {α : Type} {n : Nat} (v : Vector α n) {i j : Fin n} (a : α) (h : j ≠ i) :
    (v.set i a).get j = v.get j := Vector.getElem_set_ne i.isLt j.isLt (fun e => h (Fin.ext e.symm))

@[simp] theorem setGp_same (r : Reg) (v : Word) : (s.setGp r v).gp r = v := get_set_same _ _ _
theorem setGp_other {r x : Reg} (v : Word) (h : x ≠ r) : (s.setGp r v).gp x = s.gp x := get_set_other _ _ h
@[simp] theorem setSeg_same (r : SReg) (c : SegCache) : (s.setSeg r c).segOf r = c := get_set_same _ _ _
theorem setSeg_other {r x : SReg} (c : SegCache) (h : x ≠ r) : (s.setSeg r c).segOf x = s.segOf x :=
  get_set_other _ _ (by cases r <;> cases x <;> first | exact absurd rfl h | decide)

end Sys2Proof.Machine.State
end

