-- ==== Sys2Proof/Laws/Moves.lean ====
section
/-! SUPPORT. What the shared operations of the vector moves, packed shifts, element insertions, masked moves, gathers and fused
operations do when their conditions hold: one lemma for each. -/

namespace Sys2Proof.Machine

variable {s u : State}

theorem storeVec_passes {al : Align} {m : MemRef} {n k : Nat} {v : BitVec k} {as : List Nat}
    (h : Passes (resolveVec .write al m n) s as u) :
    Passes (storeVec al m n v) s () (u.physWrite as (v.toNat % 2 ^ (8 * n))) :=
  passes_bind h rfl

theorem writeRm_passes {w : Width} {o : Rm} {v : BitVec w.bits} {p : Place} (h : Passes (place .write w o) s p u) :
    Passes (writeRm w o v) s () (u.setPlace w p v) :=
  passes_bind h rfl

theorem ntStore_passes {fx : Config.Feature} {o : MemX} {as : List Nat} (h : SseReady fx s)
    (hr : Passes (resolveVec .write .size o.mem 16) s as u) :
    Passes (ntStore fx o) s () (u.physWrite as ((s.xmm o.src).toNat % 2 ^ 128)) :=
  passes_bind (passes_needSse h) (passes_bind rfl (storeVec_passes hr))

theorem vntStore_passes {o : VMemX} {as : List Nat} (h : VexReady [.avx] s)
    (hr : Passes (resolveVec .write .size o.mem (vbytes o.l)) s as u) :
    Passes (vntStore o) s () (u.physWrite as ((s.vec o.l o.src).toNat % 2 ^ (8 * vbytes o.l))) :=
  passes_bind (passes_needVex h) (passes_bind rfl (storeVec_passes hr))

theorem packedShift_mm_passes {w : Nat} {f : Nat → BitVec w → BitVec w} {dst : Fin 8} {cnt : Mm} {c : BitVec (8 * 8)}
    (h : MmxReady .mmx s) (hc : Passes (readMmM 8 cnt) s c u) :
    Passes (packedShift w f (.mm dst cnt)) s () ((u.setMm dst (each w (f c.toNat) 64 (u.mm dst))).mmxUsed) :=
  passes_bind (passes_needMmx h) (passes_bind hc rfl)

theorem packedShift_xx_passes {w : Nat} {f : Nat → BitVec w → BitVec w} {dst : Reg} {cnt : Xm} {c : BitVec (8 * 16)}
    (h : SseReady .sse2 s) (hc : Passes (readXm .size 16 cnt) s c u) :
    Passes (packedShift w f (.xx dst cnt)) s () (u.setXmm dst (each w (f (c.toNat % 2 ^ 64)) 128 (u.xmm dst))) :=
  passes_bind (passes_needSse h) (passes_bind hc rfl)

theorem vpackedShift_vec_passes {w : Nat} {f : Nat → BitVec w → BitVec w} {l : VLen} {dst a : Reg} {cnt : Xm}
    {c : BitVec (8 * 16)} (h : VexReady (avxInt l) s) (hc : Passes (readXm .free 16 cnt) s c u) :
    Passes (vpackedShift w f (.vec l dst a cnt)) s () (u.setVec dst (each w (f (c.toNat % 2 ^ 64)) l.bits (u.vec l a))) :=
  passes_bind (passes_needVex h) (passes_bind hc rfl)

theorem insertRun_passes {fx : Config.Feature} {w : Width} {o : InsOps} {v : BitVec w.bits} (h : SseReady fx s)
    (hv : Passes (readInsert w o.src) s v u) :
    Passes (insertRun fx w o) s () (u.setXmm o.dst (replaceLane (u.xmm o.dst) (o.imm.toNat % (128 / w.bits)) v)) :=
  passes_bind (passes_needSse h) (passes_bind hv rfl)

theorem vinsertRun_passes {w : Width} {o : VInsOps} {v : BitVec w.bits} (h : VexReady [.avx] s)
    (hv : Passes (readInsert w o.src) s v u) :
    Passes (vinsertRun w o) s () (u.setVec o.dst (replaceLane (u.xmm o.a) (o.imm.toNat % (128 / w.bits)) v)) :=
  passes_bind (passes_needVex h) (passes_bind hv rfl)

theorem extractRun_reg_passes {enter : M Unit} {w : Width} {r src : Reg} {imm : BitVec 8} (h : Passes enter s () s) :
    Passes (extractRun enter w { dst := .reg (.lo r), src := src, imm := imm }) s ()
      (s.setGp r (regWrite s.isLong s.wide (s.gp r)
        ((lane w.bits (s.xmm src) (imm.toNat % (128 / w.bits))).setWidth s.wide.bits))) :=
  passes_bind h rfl

theorem extractRun_mem_passes {enter : M Unit} {w : Width} {m : MemRef} {src : Reg} {imm : BitVec 8} {p : Place}
    (h : Passes enter s () s) (hp : Passes (place .write w (.mem m)) s p u) :
    Passes (extractRun enter w { dst := .mem m, src := src, imm := imm }) s ()
      (u.setPlace w p (lane w.bits (s.xmm src) (imm.toNat % (128 / w.bits)))) :=
  passes_bind h (passes_bind rfl (writeRm_passes hp))

theorem storeParts_passes (l : List (List Nat × Nat)) : ∀ s : State, Passes (storeParts l) s () (s.withParts l) := by
  induction l with
  | nil => intro s; rfl
  | cons p l ih =>
    intro s
    have h : storeParts (p :: l) = (do physWrite p.1 p.2; storeParts l) := List.forM_cons
    rw [h]
    exact passes_bind rfl (ih _)

theorem maskStore_passes {n : Nat} {a : ASize} {ovr : Option SReg} {src mask : BitVec n} {ps : List (List Nat × Nat)}
    (h : Passes (maskedBytes (ovr.getD .ds) (a.trunc (s.gp rDI)) (List.zip ((lanes 8 mask).map (·.msb)) (lanes 8 src)) 0)
      s ps u) :
    Passes (maskStore a ovr src mask) s () (u.withParts ps) :=
  passes_bind rfl (passes_bind h (storeParts_passes _ _))

theorem replaceLane_bit {n w : Nat} (v : BitVec n) (i : Nat) (x : BitVec w) (k : Nat) (hk : k < n) :
    (replaceLane v i x).getLsbD k = if w * i ≤ k ∧ k < w * i + w then x.getLsbD (k - w * i) else v.getLsbD k := by
  unfold replaceLane
  simp only [BitVec.getLsbD_or, BitVec.getLsbD_and, BitVec.getLsbD_not, BitVec.getLsbD_shiftLeft, BitVec.getLsbD_setWidth,
    BitVec.getLsbD_allOnes, hk, decide_true, Bool.true_and]
  by_cases h1 : w * i ≤ k
  · have h4 : k - w * i < n := by omega
    by_cases h2 : k < w * i + w
    · have h3 : k - w * i < w := by omega
      simp [h1, h2, h3, h4, Nat.not_lt.2 h1]
    · have h3 : ¬ k - w * i < w := by omega
      rw [if_neg (by omega), BitVec.getLsbD_of_ge x _ (by omega)]
      simp [h3]
  · rw [if_neg (by omega)]
    simp [Nat.lt_of_not_le h1]

theorem lane_bit {n w : Nat} (v : BitVec n) (i k : Nat) : (lane w v i).getLsbD k = (decide (k < w) && v.getLsbD (w * i + k)) := by
  unfold lane
  rw [BitVec.getLsbD_extractLsb']

/-- A replaced element, and the others. -/
theorem lane_replaceLane {n w : Nat} (v : BitVec n) (i j : Nat) (x : BitVec w) (hj : w * (j + 1) ≤ n) :
    lane w (replaceLane v i x) j = if j = i then x else lane w v j := by
  rw [Nat.mul_add, Nat.mul_one] at hj
  refine BitVec.eq_of_getLsbD_eq fun k hk => ?_
  rw [lane_bit, replaceLane_bit v i x _ (by omega)]
  by_cases h : j = i
  · subst h
    rw [if_pos rfl, if_pos (by omega), Nat.add_sub_cancel_left, decide_eq_true hk, Bool.true_and]
  · have hne : ¬ (w * i ≤ w * j + k ∧ w * j + k < w * i + w) := by
      rcases Nat.lt_or_gt_of_ne h with h | h
      · have := Nat.mul_le_mul_left w (show j + 1 ≤ i from h)
        rw [Nat.mul_add, Nat.mul_one] at this
        omega
      · have := Nat.mul_le_mul_left w (show i + 1 ≤ j from h)
        rw [Nat.mul_add, Nat.mul_one] at this
        omega
    rw [if_neg hne, if_neg h, lane_bit]

/-- The mask that a gather leaves with elements below f done. -/
theorem gatherMask_lane (g : GatherShape) (f : Nat) (mask : BitVec 256) (j : Nat) (hj : j < g.count) (hw : g.dw * g.count ≤ 256) :
    lane g.dw (gatherMask g f mask) j = maskOf g.dw (decide (f ≤ j) && (lane g.dw mask j).msb) := by
  have fit : ∀ i, i < g.count → g.dw * (i + 1) ≤ 256 := fun i hi => Nat.le_trans (Nat.mul_le_mul_left _ hi) hw
  have key : ∀ k, k ≤ g.count → ∀ i, i < g.count →
      lane g.dw ((List.range k).foldl
        (fun acc j => replaceLane acc j (maskOf g.dw (decide (f ≤ j) && (lane g.dw mask j).msb))) mask) i =
        if i < k then maskOf g.dw (decide (f ≤ i) && (lane g.dw mask i).msb) else lane g.dw mask i := by
    intro k
    induction k with
    | zero => intro _ i _; rfl
    | succ k ih =>
      intro hk i hi
      rw [List.range_succ, List.foldl_append, List.foldl_cons, List.foldl_nil, lane_replaceLane _ _ _ _ (fit i hi)]
      by_cases h : i = k
      · subst h; rw [if_pos rfl, if_pos (Nat.lt_succ_self _)]
      · rw [if_neg h, ih (by omega) i hi]
        by_cases h2 : i < k
        · rw [if_pos h2, if_pos (by omega)]
        · rw [if_neg h2, if_neg (by omega)]
  unfold gatherMask
  rw [key g.count (Nat.le_refl _) j hj, if_pos hj]

theorem gatherLoop_passes {g : GatherShape} {o : VGather} {s0 t : State} {n j : Nat}
    (h : Gathered g o s0 (List.range' j n) s t) : Passes (gatherLoop g o s0 n j) s () t := by
  induction n generalizing s j with
  | zero => cases h; rfl
  | succ n ih =>
    rw [List.range'_succ] at h
    unfold Gathered at h
    unfold gatherLoop
    refine passes_bind (passes_get s) ?_
    by_cases hm : (lane g.dw (s0.ymm.get o.mask) j).msb
    · rw [if_pos hm] at h ⊢
      obtain ⟨as, x, h1, h2⟩ := h
      rw [show (resolve _ _ _ _ _ _).run s = _ from h1]
      exact passes_bind rfl (ih h2)
    · rw [if_neg hm] at h ⊢
      exact ih h

/-- An element that faults after the elements before it were gathered. -/
theorem gatherLoop_raises {g : GatherShape} {o : VGather} {s0 t y : State} {n k j : Nat} {e : Exc}
    (h : Gathered g o s0 (List.range' j k) s t) (hk : k < n) (hm : (lane g.dw (s0.ymm.get o.mask) (j + k)).msb = true)
    (he : Raises (resolve o.mem.seg .read 1 1 (s0.gatherAddr g o (j + k)) (g.dw / 8)) t e y) :
    Raises (gatherLoop g o s0 n j) s (gatherFault (s0.gatherBreaks g o (j + k)) e) (y.gatherPause g o (j + k)) := by
  induction k generalizing s j n with
  | zero =>
    obtain ⟨n, rfl⟩ := Nat.exists_eq_succ_of_ne_zero (Nat.ne_of_gt hk)
    obtain rfl : t = s := h
    unfold gatherLoop
    refine raises_after (passes_get _) ?_
    rw [Nat.add_zero] at hm he ⊢
    rw [if_pos hm, show (resolve _ _ _ _ _ _).run t = _ from he]
    exact raises_after rfl (raises_bind rfl)
  | succ k ih =>
    obtain ⟨n, rfl⟩ := Nat.exists_eq_succ_of_ne_zero (Nat.ne_of_gt (Nat.lt_of_le_of_lt (Nat.zero_le _) hk))
    rw [List.range'_succ] at h
    unfold Gathered at h
    unfold gatherLoop
    refine raises_after (passes_get _) ?_
    have e1 : j + (k + 1) = j + 1 + k := by omega
    rw [e1] at hm he ⊢
    by_cases hj : (lane g.dw (s0.ymm.get o.mask) j).msb
    · rw [if_pos hj] at h ⊢
      obtain ⟨as, x, h1, h2⟩ := h
      rw [show (resolve _ _ _ _ _ _).run s = _ from h1]
      exact raises_after rfl (ih h2 (by omega) hm he)
    · rw [if_neg hj] at h ⊢
      exact ih h (by omega) hm he

theorem gatherRun_passes {g : VLen → GatherShape} {o : VGather}
    (hd : o.dst ≠ o.mask ∧ o.dst ≠ o.mem.index ∧ o.mask ≠ o.mem.index) (h : VexReady [.avx2] s)
    (hl : Gathered (g o.l) o s (List.range (g o.l).count) s u) :
    Passes (gatherRun g o) s ()
      { u with ymm := (u.ymm.set o.dst
          (((u.ymm.get o.dst).setWidth ((g o.l).dw * (g o.l).count)).setWidth 256)).set o.mask 0 } :=
  passes_bind (passes_ensure (by simp [hd]) s) (passes_bind (passes_needVex h) (passes_bind rfl
    (passes_bind (gatherLoop_passes (List.range_eq_range' ▸ hl)) rfl)))

/-- What gathered elements hold: each enabled one what its read gives, each other one what it held. -/
theorem gathered_lanes {g : GatherShape} {o : VGather} {s0 t : State} {js : List Nat} (hn : js.Nodup)
    (hf : ∀ j ∈ js, g.dw * (j + 1) ≤ 256) (h : Gathered g o s0 js s t) :
    AccessOnly { s with ymm := t.ymm } t ∧ (∀ r, r ≠ o.dst → t.ymm.get r = s.ymm.get r) ∧
      (∀ j, j ∉ js → g.dw * (j + 1) ≤ 256 → lane g.dw (t.ymm.get o.dst) j = lane g.dw (s.ymm.get o.dst) j) ∧
      ∀ j ∈ js, ((lane g.dw (s0.ymm.get o.mask) j).msb = false →
          lane g.dw (t.ymm.get o.dst) j = lane g.dw (s.ymm.get o.dst) j) ∧
        ((lane g.dw (s0.ymm.get o.mask) j).msb = true → ∃ as x y, AccessOnly { s with ymm := x.ymm } x ∧
          Passes (resolve o.mem.seg .read 1 1 (s0.gatherAddr g o j) (g.dw / 8)) x as y ∧
          lane g.dw (t.ymm.get o.dst) j = BitVec.ofNat g.dw (y.mem.readList as)) := by
  induction js generalizing s with
  | nil => cases h; exact ⟨.refl _, fun _ _ => rfl, fun _ _ _ => rfl, fun j hj => nomatch hj⟩
  | cons i js ih =>
    unfold Gathered at h
    obtain ⟨hi, hn⟩ := List.nodup_cons.1 hn
    have hf' : ∀ j ∈ js, g.dw * (j + 1) ≤ 256 := fun j hj => hf j (List.mem_cons_of_mem _ hj)
    by_cases hm : (lane g.dw (s0.ymm.get o.mask) i).msb = true
    · rw [if_pos hm] at h
      obtain ⟨as, x, h1, h2⟩ := h
      obtain ⟨a1, a2, a3, a4⟩ := ih hn hf' h2
      have ax := resolve_accessOnly h1
      have ex : x.ymm = s.ymm := ax.ymm
      have ac : ∀ y : Vector (BitVec 256) 16, AccessOnly { s with ymm := y } { x with ymm := y } := by
        intro y; obtain ⟨m, p, q, rfl⟩ := ax; exact ⟨m, p, q, rfl⟩
      have l1 : ∀ j, g.dw * (j + 1) ≤ 256 → j ≠ i →
          lane g.dw ((x.ymm.set o.dst (replaceLane (x.ymm.get o.dst) i (BitVec.ofNat g.dw (x.mem.readList as)))).get o.dst) j =
            lane g.dw (s.ymm.get o.dst) j := by
        intro j hj hne
        rw [State.get_set_same, lane_replaceLane _ _ _ _ hj, if_neg hne, ex]
      refine ⟨(ac _).trans a1, fun r hr => ?_, fun j hj hw => ?_, fun j hj => ?_⟩
      · rw [a2 r hr, State.get_set_other _ _ hr, ex]
      · rw [a3 j (fun h => hj (List.mem_cons_of_mem _ h)) hw, l1 j hw (fun h => hj (h ▸ List.mem_cons_self))]
      · rcases List.mem_cons.1 hj with rfl | hj
        · refine ⟨fun h => absurd (h.symm.trans hm) Bool.false_ne_true, fun _ => ⟨as, s, x, .refl _, h1, ?_⟩⟩
          rw [a3 j hi (hf j List.mem_cons_self), State.get_set_same, lane_replaceLane _ _ _ _ (hf j List.mem_cons_self), if_pos rfl]
        · obtain ⟨b1, b2⟩ := a4 j hj
          have hne : j ≠ i := fun h => hi (h ▸ hj)
          refine ⟨fun h => by rw [b1 h, l1 j (hf' j hj) hne], fun h => ?_⟩
          obtain ⟨bs, y, z, c1, c2, c3⟩ := b2 h
          exact ⟨bs, y, z, (ac _).trans c1, c2, c3⟩
    · rw [if_neg hm] at h
      obtain ⟨a1, a2, a3, a4⟩ := ih hn hf' h
      refine ⟨a1, a2, fun j hj hw => a3 j (fun h => hj (List.mem_cons_of_mem _ h)) hw, fun j hj => ?_⟩
      rcases List.mem_cons.1 hj with rfl | hj
      · exact ⟨fun _ => a3 j hi (hf j List.mem_cons_self), fun h => absurd h hm⟩
      · exact a4 j hj

theorem gather_fits {iw dw : Nat} (l : VLen) (hi : 0 < max iw dw := by decide) :
    (gatherShape iw dw l).dw * (gatherShape iw dw l).count ≤ 256 := by
  have h : dw * (l.bits / max iw dw) ≤ l.bits :=
    Nat.le_trans (Nat.mul_le_mul_right _ (Nat.le_max_right iw dw)) (Nat.mul_div_le _ _)
  refine Nat.le_trans h ?_
  cases l <;> decide

/-- The first n elements gathered. -/
theorem gathered_range {g : GatherShape} {o : VGather} {s0 t : State} {n : Nat} (hn : g.dw * n ≤ 256)
    (h : Gathered g o s0 (List.range n) s t) :
    AccessOnly { s with ymm := t.ymm } t ∧ (∀ r, r ≠ o.dst → t.ymm.get r = s.ymm.get r) ∧
      ∀ j, g.dw * (j + 1) ≤ 256 →
        ((n ≤ j ∨ (lane g.dw (s0.ymm.get o.mask) j).msb = false) →
          lane g.dw (t.ymm.get o.dst) j = lane g.dw (s.ymm.get o.dst) j) ∧
        (j < n → (lane g.dw (s0.ymm.get o.mask) j).msb = true → ∃ as x y, AccessOnly { s with ymm := x.ymm } x ∧
          Passes (resolve o.mem.seg .read 1 1 (s0.gatherAddr g o j) (g.dw / 8)) x as y ∧
          lane g.dw (t.ymm.get o.dst) j = BitVec.ofNat g.dw (y.mem.readList as)) := by
  obtain ⟨a1, a2, a3, a4⟩ := gathered_lanes List.nodup_range
    (fun j hj => Nat.le_trans (Nat.mul_le_mul_left _ (List.mem_range.1 hj)) hn) h
  refine ⟨a1, a2, fun j hj => ⟨?_, fun hl hm => (a4 j (List.mem_range.2 hl)).2 hm⟩⟩
  intro hc
  by_cases hl : j < n
  · exact (a4 j (List.mem_range.2 hl)).1 (hc.resolve_left (Nat.not_le.2 hl))
  · exact a3 j (fun h => hl (List.mem_range.1 h)) hj

/-- A gather whose element f faults keeps its progress (decision D59). -/
theorem gatherRun_raises {g : VLen → GatherShape} {o : VGather} {t y : State} {f : Nat} {e : Exc}
    (hd : o.dst ≠ o.mask ∧ o.dst ≠ o.mem.index ∧ o.mask ≠ o.mem.index) (h : VexReady [.avx2] s)
    (hl : Gathered (g o.l) o s.begin (List.range f) s.begin t) (hf : f < (g o.l).count)
    (hw : (g o.l).dw * (g o.l).count ≤ 256)
    (hm : (lane (g o.l).dw (s.ymm.get o.mask) f).msb = true)
    (he : Raises (resolve o.mem.seg .read 1 1 (s.begin.gatherAddr (g o.l) o f) ((g o.l).dw / 8)) t e y)
    (ha : AccessOnly t y) :
    run (gatherRun g o) s = takeException (gatherFault (s.begin.gatherBreaks (g o.l) o f) e)
      (State.faulted { s with ymm := y.ymm.set o.mask (gatherMask (g o.l) f (y.ymm.get o.mask)) } y) := by
  have fit : ∀ j ∈ List.range f, (g o.l).dw * (j + 1) ≤ 256 := fun j hj =>
    Nat.le_trans (Nat.mul_le_mul_left _ (Nat.le_trans (List.mem_range.1 hj) (Nat.le_of_lt hf))) hw
  have a1 := (gathered_lanes List.nodup_range fit hl).1
  rw [List.range_eq_range'] at hl
  have hr := gatherLoop_raises (j := 0) hl hf (by rw [Nat.zero_add]; exact hm) (by rw [Nat.zero_add]; exact he)
  rw [Nat.zero_add] at hr
  have hb : Raises (gatherRun g o) s.begin _ _ :=
    raises_after (passes_ensure (by simp [hd]) s.begin) (raises_after (passes_needVex h) (raises_after (passes_get _)
      (raises_bind hr)))
  rw [run_of_raise hb]
  have hk : (gatherFault (s.begin.gatherBreaks (g o.l) o f) e).keep = true := by unfold gatherFault; split <;> rfl
  rw [hk]
  obtain ⟨m, p, q, rfl⟩ := ha
  obtain ⟨m2, p2, q2, ht⟩ := a1
  rw [ht]
  rfl

theorem fmaScalar_passes {f : FpFmt} {w : FmaOrder} {np nc : Bool} {x : VVX} {c : BitVec (8 * (f.width / 8))}
    (h : VexReady [.fma] s) (hm : SimdMasked s) (hc : Passes (readXm .free (f.width / 8) x.b) s c u) :
    let r := fpFma f w np nc (mxcsrEnv u.mxcsr) ((u.xmm x.dst).toNat % 2 ^ f.width) ((u.xmm x.a).toNat % 2 ^ f.width) c.toNat
    Passes (fmaScalar f w np nc x) s ()
      ((u.flagged r.flags).setVec x.dst (withLow (u.xmm x.dst) (BitVec.ofNat f.width r.bits))) :=
  passes_bind (passes_needVex h) (passes_bind hc (passes_bind rfl (passes_bind rfl (passes_bind rfl
    (passes_bind (passes_commit (hm.access (readXm_accessOnly hc)) _) rfl)))))

theorem fmaPacked_passes {f : FpFmt} {w : FmaOrder} {np even odd : Bool} {x : VVX} {c : BitVec x.l.bits}
    (h : VexReady [.fma] s) (hm : SimdMasked s) (hc : Passes (readVx x.l x.b) s c u) :
    let r := fmaResult f w np even odd (mxcsrEnv u.mxcsr) (u.vec x.l x.dst) (u.vec x.l x.a) c
    Passes (fmaPacked f w np even odd x) s () ((u.flagged r.flags).setVec x.dst r.val) :=
  passes_bind (passes_needVex h) (passes_bind hc (passes_bind rfl (passes_bind rfl (passes_bind rfl
    (passes_bind (passes_commit (hm.access (readVx_accessOnly hc)) _) rfl)))))

/-! String comparison. -/

theorem strOperands_passes {dst : Reg} {src : Xm} {b : BitVec (8 * 16)} (h : Passes (readXm .free 16 src) s b u) :
    Passes (strOperands dst src) s (u.xmm dst, b) u :=
  passes_bind h rfl

theorem strToIndex_passes (w : Width) (imm : BitVec 8) (r : StrRun) (s : State) :
    Passes (strToIndex w imm r) s ()
      { s.setGp rCX (regWrite s.isLong w (s.gp rCX) (BitVec.ofNat w.bits (strIndex imm (r.res imm)))) with
        flags := r.flags imm s.flags } :=
  passes_bind rfl rfl

theorem strToMask_passes (imm : BitVec 8) (r : StrRun) (s : State) :
    Passes (strToMask false imm r) s () { s.setXmm 0 (strMask imm (r.res imm)) with flags := r.flags imm s.flags } :=
  passes_bind rfl rfl

theorem strToMask_vex_passes (imm : BitVec 8) (r : StrRun) (s : State) :
    Passes (strToMask true imm r) s () { s.setVec 0 (strMask imm (r.res imm)) with flags := r.flags imm s.flags } :=
  passes_bind rfl rfl

end Sys2Proof.Machine
end

