-- ==== Sys2Proof/Laws/Data.lean ====
section
/-! SUPPORT. What the shared operations of the stack, the conditional moves and the flag instructions do. -/

namespace Sys2Proof.Machine

variable {s t u v : State}

theorem Passes.of_eq {α : Type} {m : M α} {a : α} (h : Passes m s a t) (e : t = u) : Passes m s a u := e ▸ h

/-! The stack. -/

theorem pushStore_passes (ass : List (List Nat)) (vs : List Nat) (s : State) :
    Passes (pushStore ass vs) s () (storeAll s ass vs) := by
  induction ass generalizing s vs with
  | nil => cases vs <;> rfl
  | cons as ass ih =>
    cases vs with
    | nil => rfl
    | cons v vs => exact passes_bind rfl (ih vs (s.physWrite as v))

theorem storeAll_eq (s : State) (ass : List (List Nat)) (vs : List Nat) : storeAll s ass vs = s.stored ass vs := by
  induction ass generalizing s vs with
  | nil => cases vs <;> rfl
  | cons as ass ih =>
    cases vs with
    | nil => rfl
    | cons v vs =>
      show storeAll (s.physWrite as v) ass vs = _
      rw [ih]
      unfold State.stored
      show _ = { s with mem := (storeAll (s.physWrite as v) ass vs).mem, act := (storeAll (s.physWrite as v) ass vs).act }
      rw [ih]
      rfl

theorem pushStore_stored (ass : List (List Nat)) (vs : List Nat) (s : State) :
    Passes (pushStore ass vs) s () (s.stored ass vs) := storeAll_eq s ass vs ▸ pushStore_passes ass vs s

theorem pushPlan_accessOnly {c : SegCache} {a : ASize} {user ac : Bool} {ns : List Nat} {sp : Word}
    {r : List (List Nat) × Word} (h : Passes (pushPlan c a user ac sp ns) s r u) : AccessOnly s u := by
  induction ns generalizing s sp r with
  | nil => unfold pushPlan at h; rw [passes_pure_iff] at h; obtain ⟨_, rfl⟩ := h; exact .refl _
  | cons n ns ih =>
    unfold pushPlan at h
    obtain ⟨as, t1, h1, h⟩ := passes_bind_iff.1 h
    obtain ⟨⟨rest, fin⟩, t2, h2, h⟩ := passes_bind_iff.1 h
    rw [passes_pure_iff] at h; obtain ⟨_, rfl⟩ := h
    exact (resolveIn_accessOnly h1).trans (ih h2)

/-- A plan gives each push the addresses its slot resolves to, one slot below the other. -/
theorem pushPlan_slots {c : SegCache} {a : ASize} {user ac : Bool} {ns : List Nat} {sp fin : Word} {ass : List (List Nat)}
    (h : Passes (pushPlan c a user ac sp ns) s (ass, fin) u) :
    ass.length = ns.length ∧ fin = (pushOffsets a sp ns).getLastD sp ∧
      ∀ p ∈ (pushOffsets a sp ns).zip (ns.zip ass), ∃ x y, AccessOnly s x ∧
        Passes (resolveIn .ss c user .write (if ac then p.2.1 else 1) 1 p.1 p.2.1) x p.2.2 y := by
  induction ns generalizing s u sp ass with
  | nil =>
    unfold pushPlan at h; rw [passes_pure_iff] at h
    obtain ⟨h, _⟩ := h
    obtain ⟨rfl, rfl⟩ := Prod.mk.inj h
    exact ⟨rfl, rfl, fun p hp => nomatch hp⟩
  | cons n ns ih =>
    unfold pushPlan at h
    obtain ⟨as, t1, h1, h⟩ := passes_bind_iff.1 h
    obtain ⟨⟨rest, f⟩, t2, h2, h⟩ := passes_bind_iff.1 h
    rw [passes_pure_iff] at h
    obtain ⟨h, _⟩ := h
    obtain ⟨rfl, rfl⟩ := Prod.mk.inj h
    obtain ⟨i1, i2, i3⟩ := ih h2
    refine ⟨by rw [List.length_cons, List.length_cons, i1], ?_, ?_⟩
    · rw [i2]; unfold pushOffsets; cases ns <;> rfl
    · intro p hp
      unfold pushOffsets at hp
      rcases List.mem_cons.1 hp with rfl | hp
      · exact ⟨s, t1, .refl _, h1⟩
      · obtain ⟨x, y, h3, h4⟩ := i3 p hp
        exact ⟨x, y, (resolveIn_accessOnly h1).trans h3, h4⟩

theorem pushFrom_iff {ns : List Nat} {sp : Word} {r : List (List Nat) × Word} :
    Passes (pushFrom sp ns) s r u ↔ Passes (pushPlan (s.segOf .ss) s.stackSize (decide (s.cpl = 3)) true sp ns) s r u := by
  unfold pushFrom
  rw [passes_bind_iff]
  constructor
  · rintro ⟨a, t, h1, h⟩; rw [passes_get_iff] at h1; obtain ⟨rfl, rfl⟩ := h1; exact h
  · intro h; exact ⟨s, s, passes_get s, h⟩

theorem pushFrom_accessOnly {ns : List Nat} {sp : Word} {r : List (List Nat) × Word} (h : Passes (pushFrom sp ns) s r u) :
    AccessOnly s u := pushPlan_accessOnly (pushFrom_iff.1 h)

theorem pushSlots_iff {ns : List Nat} {r : List (List Nat) × Word} :
    Passes (pushSlots ns) s r u ↔ Passes (pushPlan (s.segOf .ss) s.stackSize (decide (s.cpl = 3)) true s.sp ns) s r u := by
  rw [← pushFrom_iff]
  unfold pushSlots
  rw [passes_bind_iff]
  constructor
  · rintro ⟨a, t, h1, h⟩; rw [passes_get_iff] at h1; obtain ⟨rfl, rfl⟩ := h1; exact h
  · intro h; exact ⟨s, s, passes_get s, h⟩

theorem pushSlots_accessOnly {ns : List Nat} {r : List (List Nat) × Word} (h : Passes (pushSlots ns) s r u) :
    AccessOnly s u := pushPlan_accessOnly (pushSlots_iff.1 h)

theorem AccessOnly.stackSize (h : AccessOnly s u) : u.stackSize = s.stackSize := by obtain ⟨m, p, q, rfl⟩ := h; rfl
theorem AccessOnly.sp (h : AccessOnly s u) : u.sp = s.sp := by obtain ⟨m, p, q, rfl⟩ := h; rfl
theorem AccessOnly.isLong (h : AccessOnly s u) : u.isLong = s.isLong := by obtain ⟨m, p, q, rfl⟩ := h; rfl

theorem pushCommit_passes {ass : List (List Nat)} {fin : Word} {vs : List Nat} :
    Passes (pushCommit (ass, fin) vs) s () ((s.stored ass vs).setSp s.stackSize fin) :=
  passes_bind (pushStore_stored _ _ _) rfl

/-- Pushes whose checks pass store every value and move the stack pointer. -/
theorem pushList_passes {items : List (Nat × Nat)} {ass : List (List Nat)} {fin : Word}
    (h : Passes (pushSlots (items.map (·.1))) s (ass, fin) v) :
    Passes (pushList items) s () ((v.stored ass (items.map (·.2))).setSp s.stackSize fin) := by
  have e := (pushSlots_accessOnly h).stackSize
  rw [← e]
  exact passes_bind h pushCommit_passes

theorem push_passes {n x : Nat} {ass : List (List Nat)} {fin : Word} (h : Passes (pushSlots [n]) s (ass, fin) v) :
    Passes (push n x) s () ((v.stored ass [x]).setSp s.stackSize fin) := pushList_passes (items := [(n, x)]) h

theorem push_rm {w : Width} {src : Rm} {x : BitVec w.bits} {ass : List (List Nat)} {fin : Word}
    (h : Passes (readRm w src) s.begin x u) (hp : Passes (pushSlots [w.bytes]) u (ass, fin) v) :
    Completes (.push (.rm w src)) s ((v.stored ass [x.toNat]).setSp s.stackSize fin) := by
  have e : s.stackSize = u.stackSize := ((readRm_accessOnly h).stackSize).symm
  rw [e]
  exact run_of_passes (passes_bind h (push_passes hp))

theorem stackPeek_accessOnly {sp : Word} {n x : Nat} (h : Passes (stackPeek sp n) s x u) : AccessOnly s u := by
  unfold stackPeek at h
  rw [passes_bind_iff] at h
  obtain ⟨a, t, h1, h⟩ := h
  rw [passes_get_iff] at h1
  obtain ⟨rfl, rfl⟩ := h1
  exact memRead_accessOnly h

theorem pop_passes {n x : Nat} (h : Passes (stackPeek s.sp n) s x u) : Passes (pop n) s x (u.popped n) := by
  have e := (stackPeek_accessOnly h)
  unfold pop
  refine passes_bind (passes_get s) (passes_bind h ?_)
  rw [← e.stackSize, ← e.sp]; rfl

theorem popRegs_passes {w : Width} {rs : List Reg} (h : PopsRegs w rs s t) : Passes (popRegs w rs) s () t := by
  induction rs generalizing s with
  | nil => cases h; rfl
  | cons r rs ih =>
    obtain ⟨v, u, h1, h⟩ := h
    unfold popRegs
    refine passes_bind (pop_passes h1) ?_
    by_cases hr : r = rSP
    · rw [if_neg (not_not.2 hr)] at h
      simp only [hr, ne_eq, not_true_eq_false, if_false]
      exact passes_bind rfl (ih h)
    · rw [if_pos hr] at h
      simp only [ne_eq, hr, not_false_eq_true, if_true]
      exact passes_bind rfl (ih h)

theorem pushSeg_passes {w : Width} {r : SReg} {ass : List (List Nat)} {fin : Word}
    (hl : s.isLong = true → r = .fs ∨ r = .gs) (hz : w = .w32 → s.cfg.pushSreg32Zext = true)
    (h : Passes (pushSlots [w.bytes]) s.begin (ass, fin) v) :
    Completes (.push (.seg w r)) s ((v.stored ass [(s.segOf r).sel.toNat]).setSp s.stackSize fin) := by
  refine run_of_passes (passes_bind (passes_get _) (passes_bind (passes_ensure ?_ _) ?_))
  · cases hh : s.isLong with
    | false => simp [show s.begin.isLong = s.isLong from rfl, hh]
    | true => simp [hl hh]
  · by_cases hw : w = .w32
    · subst hw
      refine passes_if_pos rfl ?_
      unfold pushSel32
      exact passes_bind (passes_get _) (passes_if_pos (hz rfl) (push_passes h))
    · exact passes_if_neg hw (push_passes h)

theorem pushSeg32_passes {r : SReg} {as : List Nat} {t : Word}
    (hl : s.isLong = true → r = .fs ∨ r = .gs) (hz : s.cfg.pushSreg32Zext = false)
    (ht : t = s.stackSize.trunc (s.sp - 4)) (h : Passes (resolve .ss .write 2 1 t 2) s.begin as v) :
    Completes (.push (.seg .w32 r)) s ((v.physWrite as (s.segOf r).sel.toNat).setSp s.stackSize t) := by
  subst ht
  have e := (resolve_accessOnly h).stackSize
  refine run_of_passes (passes_bind (passes_get _) (passes_bind (passes_ensure ?_ _) ?_))
  · cases hh : s.isLong with
    | false => simp [show s.begin.isLong = s.isLong from rfl, hh]
    | true => simp [hl hh]
  · refine passes_if_pos rfl ?_
    unfold pushSel32 memWrite
    refine passes_bind (passes_get _) (passes_if_neg (by simp [show s.begin.cfg = s.cfg from rfl, hz])
      (passes_bind (passes_bind h rfl) ?_))
    refine Passes.of_eq rfl ?_
    show (v.physWrite as _).setSp v.stackSize _ = _
    rw [e]; rfl

theorem popMem_passes {w : Width} {m : MemRef} {x : Nat} {q : Place} (hw : s.popWraps m w.bytes = false)
    (h : Passes (stackPeek s.sp w.bytes) s.begin x u) (hq : Passes (place .write w (.mem m)) (u.popped w.bytes) q t) :
    Completes (.pop ⟨w, .mem m⟩) s (t.setPlace w q (BitVec.ofNat w.bits x)) := by
  refine run_of_passes (passes_bind (passes_get _) (passes_bind (pop_passes h) ?_))
  have : s.begin.popWraps m w.bytes = false := hw
  rw [this]
  exact passes_if_neg (by decide) (writeRm_passes hq)

/-- A load of a segment register whose checks pass sets the accessed bit and the register. -/
theorem loadSeg_passes {r : SReg} {sel : BitVec 16} {l : SegLoad} {as : List Nat} (hc : Passes (checkSegLoad r sel) s l u)
    (hm : Passes l.resolve u as t) : Passes (loadSeg r sel) s () ((t.marked as).setSeg r l.cache) :=
  passes_bind hc (passes_bind hm (passes_bind rfl rfl))

theorem popSeg_passes {w : Width} {r : SReg} {x : Nat} {l : SegLoad} {as : List Nat} (hr : r ≠ .cs)
    (hl : s.isLong = true → r = .fs ∨ r = .gs) (h : Passes (stackPeek s.sp w.bytes) s.begin x u)
    (hc : Passes (checkSegLoad r (BitVec.ofNat 16 x)) u l v) (hm : Passes l.resolve v as t) :
    Completes (.popSeg ⟨w, r⟩) s
      ((((t.marked as).setSeg r l.cache).setSp s.stackSize (s.sp + BitVec.ofNat 64 w.bytes)).afterSs r) := by
  refine run_of_passes (passes_bind (passes_get _) (passes_bind (passes_ensure ?_ _)
    (passes_bind h (passes_bind (loadSeg_passes hc hm) rfl))))
  cases hh : s.isLong with
  | false => simp [show s.begin.isLong = s.isLong from rfl, hh, hr]
  | true => simp [hl hh, hr]

theorem pushAll_passes {w : Width} {ass : List (List Nat)} {fin : Word} (hl : s.isLong = false)
    (ho : s.isLegacySeg = true → s.sp ∉ ([7, 9, 11, 13, 15] : List Word))
    (h : Passes (pushSlots (List.replicate 8 w.bytes)) s.begin (ass, fin) v) :
    Passes (pushAll w) s.begin () ((v.stored ass ([rAX, rCX, rDX, rBX, rSP, rBP, rSI, rDI].map fun r => (s.reg w r).toNat)).setSp
      s.stackSize fin) := by
  unfold pushAll
  refine passes_bind (passes_notInLong hl) (passes_bind (passes_get _) (passes_bind (passes_ensure ?_ _) ?_))
  · cases hh : s.isLegacySeg with
    | false => simp [show s.begin.isLegacySeg = s.isLegacySeg from rfl, hh]
    | true =>
      have := ho hh
      simp [show s.begin.sp = s.sp from rfl] at this ⊢
      tauto
  · exact pushList_passes h

theorem pushFlags_passes {n : Nat} {ass : List (List Nat)} {fin : Word}
    (hv : s.pe = true → s.flags.vm = true → s.flags.iopl = 3) (h : Passes (pushSlots [n]) s.begin (ass, fin) v) :
    Passes (pushFlags n) s.begin () ((v.stored ass [(s.begin.flags.image &&& 0xFCFFFF).toNat % 2 ^ (8 * n)]).setSp
      s.stackSize fin) := by
  unfold pushFlags
  refine passes_bind (passes_get _) (passes_bind (passes_ensure ?_ _) (push_passes h))
  show (!(s.pe && s.flags.vm && decide (s.flags.iopl ≠ 3))) = true
  cases hp : s.pe <;> cases hm : s.flags.vm <;> simp [hp, hm] at hv ⊢
  exact hv

theorem popFlags_passes {n x : Nat} {m1 m2 m3 : Word} (hv : s.pe = true → s.flags.vm = true → s.flags.iopl = 3)
    (h : Passes (stackPeek s.sp n) s.begin x u) (h1 : m1 = (if n = 2 then flagsW16 else flagsW32))
    (h2 : m2 = (if s.pe && decide (s.cpl ≠ 0) then m1 &&& ~~~flagsIopl else m1))
    (h3 : m3 = (if s.pe && decide (s.flags.iopl < s.cpl) then m2 &&& ~~~flagsIf else m2)) :
    Passes (popFlags n) s.begin () { u.popped n with flags := u.flags.load m3 (BitVec.ofNat 64 x) } := by
  unfold popFlags
  refine passes_bind (passes_get _) (passes_if_neg ?_ (passes_bind (pop_passes h) ?_))
  · show ¬ (s.pe && s.flags.vm && decide (s.flags.iopl ≠ 3)) = true
    cases hp : s.pe <;> cases hm : s.flags.vm <;> simp [hp, hm] at hv ⊢
    exact hv
  · subst h1 h2 h3; rfl

theorem enter_passes {w : Width} {size : BitVec 16} {level : BitVec 8} {n : Nat} {ass bss : List (List Nat)}
    {copies : List (List Nat × List Nat)} {frame sp1 sp2 fin : Word} {u1 u2 u3 : State}
    (hn : n = (if s.isLong then 8 else w.bytes)) (h1 : Passes (pushFrom s.sp [n]) s.begin (ass, frame) u1)
    (h2 : Passes (enterCopies s.stackSize n (level.toNat % 32 - 1) (s.stackSize.trunc (s.gp rBP)) frame) u1 (copies, sp1) u2)
    (h3 : Passes (pushFrom sp1 (if level.toNat % 32 = 0 then [] else [n])) u2 (bss, sp2) u3)
    (hf : fin = s.stackSize.trunc (sp2 - size.setWidth 64)) (h4 : Passes (probeStack fin) u3 () t) :
    Completes (.enter ⟨w, size, level⟩) s
      ((((t.stored ass [(s.gp rBP).toNat % 2 ^ (8 * n)]).copied copies).stored bss [frame.toNat % 2 ^ (8 * n)]).framed
        s.stackSize frame fin) := by
  subst hn hf
  exact run_of_passes (passes_bind (passes_get _) (passes_bind h1 (passes_bind h2 (passes_bind h3 (passes_bind h4
    (passes_bind (pushStore_stored _ _ _) (passes_bind rfl (passes_bind (pushStore_stored _ _ _) rfl))))))))

theorem leave_passes {w : Width} {x : Nat} {bp : Word} (hb : bp = s.stackSize.trunc (s.gp rBP))
    (hl : s.isLegacySeg = true → s.segVerdict .ss (s.segOf .ss) .read bp w.bytes = .ok)
    (h : Passes (stackPeek (s.begin.setSp s.stackSize bp).sp w.bytes) (s.begin.setSp s.stackSize bp) x u) :
    Completes (.leave w) s ((u.popped w.bytes).setReg w rBP (BitVec.ofNat w.bits x)) := by
  subst hb
  refine run_of_passes (passes_bind (passes_get _) (passes_bind (passes_ensure ?_ _) (passes_bind rfl
    (passes_bind (pop_passes h) rfl))))
  cases hh : s.isLegacySeg with
  | false => simp [show s.begin.isLegacySeg = s.isLegacySeg from rfl, hh]
  | true => simp; right; exact hl hh

/-! Flags and conditions. -/

theorem passes_needLahf (h : s.isLong = true → s.has .lahf64 = true) : Passes needLahf s.begin () s.begin := by
  refine passes_bind (passes_get _) (passes_ensure ?_ _)
  show (!s.isLong || s.has .lahf64) = true
  cases hh : s.isLong <;> simp
  exact h hh

theorem passes_needSmap (h : s.pe = false ∨ s.flags.vm = false ∧ s.cpl = 0) (hf : s.has .smap = true) :
    Passes needSmapRing0 s.begin () s.begin := by
  refine passes_bind (passes_get _) (passes_bind (passes_ensure ?_ _) (passes_needFeature hf))
  show (!(s.pe && (s.flags.vm || decide (s.cpl ≠ 0)))) = true
  rcases h with h | ⟨h1, h2⟩
  · simp [h]
  · simp [h1, h2]

theorem cmov_true {c : Cond} {w : Width} {dst : Reg} {src : Rm} {x : BitVec w.bits} (hf : s.has .cmov = true)
    (h : Passes (readRm w src) s x u) (hc : u.flags.holds c = true) :
    Passes (cmovBody c ⟨w, dst, src⟩) s () (u.setReg w dst x) :=
  passes_bind (passes_needFeature hf) (passes_bind h (passes_bind (passes_get _) (passes_if_pos hc rfl)))

theorem cmov_upper {c : Cond} {w : Width} {dst : Reg} {src : Rm} {x : BitVec w.bits} (hf : s.has .cmov = true)
    (h : Passes (readRm w src) s x u) (hc : u.flags.holds c = false) (hw : w = .w32 ∧ u.lma = true) :
    Passes (cmovBody c ⟨w, dst, src⟩) s () (u.setGp dst ((u.gp dst).setWidth 32 |>.setWidth 64)) :=
  passes_bind (passes_needFeature hf) (passes_bind h (passes_bind (passes_get _) (passes_if_neg (by simp [hc])
    (passes_if_pos hw rfl))))

theorem cmov_false {c : Cond} {w : Width} {dst : Reg} {src : Rm} {x : BitVec w.bits} (hf : s.has .cmov = true)
    (h : Passes (readRm w src) s x u) (hc : u.flags.holds c = false) (hw : ¬ (w = .w32 ∧ u.lma = true)) :
    Passes (cmovBody c ⟨w, dst, src⟩) s () u :=
  passes_bind (passes_needFeature hf) (passes_bind h (passes_bind (passes_get _) (passes_if_neg (by simp [hc])
    (passes_if_neg hw rfl))))

theorem cli_real (h : s.ifTarget = .real) :
    Completes .cli s { s.begin with flags := { s.begin.flags with ifl := false } } := by
  refine run_of_passes (passes_bind (passes_get _) ?_)
  rw [show s.begin.ifTarget = _ from h]; rfl

theorem cli_virtual (h : s.ifTarget = .virtual) :
    Completes .cli s { s.begin with flags := { s.begin.flags with vif := false } } := by
  refine run_of_passes (passes_bind (passes_get _) ?_)
  rw [show s.begin.ifTarget = _ from h]; rfl

theorem sti_real (h : s.ifTarget = .real) : Completes .sti s { s.begin with
    flags := { s.begin.flags with ifl := true }
    act := if s.flags.ifl then s.begin.act else { s.begin.act with inhibit := .sti } } := by
  refine run_of_passes (passes_bind (passes_get _) ?_)
  rw [show s.begin.ifTarget = _ from h]; rfl

theorem sti_virtual (h : s.ifTarget = .virtual) (hv : s.flags.vip = false) :
    Completes .sti s { s.begin with flags := { s.begin.flags with vif := true } } := by
  refine run_of_passes (passes_bind (passes_get _) ?_)
  rw [show s.begin.ifTarget = _ from h]
  exact passes_bind (passes_ensure (by simp [show s.begin.flags.vip = s.flags.vip from rfl, hv]) _) rfl

end Sys2Proof.Machine
end

