-- ==== Sys2Proof/Laws/Control.lean ====
section
/-! SUPPORT. What the shared operations of the control transfers do. -/

namespace Sys2Proof.Machine

variable {s t u v : State}

theorem checkTarget_passes {a : Word} (h : s.targetIn a) : Passes (checkTarget a) s () s :=
  passes_bind (passes_get s) (passes_ensure (decide_eq_true (show s.segVerdict .cs (s.segOf .cs) .exec a 1 = .ok from h)) s)

theorem jumpNear_passes {w : Width} {a b : Word} (ha : a = cutTarget w b) (h : s.targetIn a) :
    Passes (jumpNear w b) s () { s with rip := a } := by
  subst ha; exact passes_bind (checkTarget_passes h) rfl

theorem jcc_not {c : Cond} {w : Width} {d : BitVec 32} (hc : s.flags.holds c = false) :
    Passes (jccBody c ⟨w, d⟩) s.begin () s.begin := by
  refine passes_bind (passes_get _) (passes_if_neg ?_ rfl)
  have : s.begin.flags.holds c = s.flags.holds c := by cases c <;> rfl
  rw [this, hc]; decide

theorem jcc_taken {c : Cond} {w : Width} {d : BitVec 32} {a : Word} (ha : a = cutTarget w (s.ripNext + d.signExtend 64))
    (hc : s.flags.holds c = true) (h : s.targetIn a) : Passes (jccBody c ⟨w, d⟩) s.begin () { s.begin with rip := a } := by
  refine passes_bind (passes_get _) (passes_if_pos ?_ (passes_bind rfl (jumpNear_passes ha h)))
  have : s.begin.flags.holds c = s.flags.holds c := by cases c <;> rfl
  rw [this, hc]

theorem loop_not {f : Flags → Bool} {w : Width} {a : ASize} {d : BitVec 8} {x : State} {n : Word}
    (hn : n = a.trunc (a.trunc (s.gp rCX) - 1)) (hx : x = s.begin.setReg a.width rCX (n.setWidth a.width.bits))
    (hc : n = 0 ∨ f s.begin.flags = false) : Passes (loopBody f ⟨w, a, d⟩) s.begin () x := by
  subst hn hx
  refine passes_bind rfl (passes_bind rfl (passes_bind (passes_get _) (passes_if_neg ?_ rfl)))
  show ¬ (decide (a.trunc (a.trunc (s.gp rCX) - 1) ≠ 0) && f s.begin.flags) = true
  rcases hc with hc | hc
  · rw [hc]; simp
  · rw [hc]; simp

theorem loop_taken {f : Flags → Bool} {w : Width} {a : ASize} {d : BitVec 8} {x : State} {n b : Word}
    (hn : n = a.trunc (a.trunc (s.gp rCX) - 1)) (hx : x = s.begin.setReg a.width rCX (n.setWidth a.width.bits))
    (hb : b = cutTarget w (s.ripNext + d.signExtend 64)) (h0 : n ≠ 0) (hc : f s.begin.flags = true) (h : x.targetIn b) :
    Passes (loopBody f ⟨w, a, d⟩) s.begin () { x with rip := b } := by
  subst hn hx
  refine passes_bind rfl (passes_bind rfl (passes_bind (passes_get _) (passes_if_pos ?_ (passes_bind rfl (jumpNear_passes hb h)))))
  show (decide (a.trunc (a.trunc (s.gp rCX) - 1) ≠ 0) && f s.begin.flags) = true
  rw [hc, decide_eq_true h0]; rfl

theorem callNear_passes {w : Width} {a b : Word} {ass : List (List Nat)} {fin : Word} (ha : a = cutTarget w b)
    (hi : s.targetIn a) (h : Passes (pushSlots [w.bytes]) s (ass, fin) v) :
    Passes (callNear w b) s () { (v.stored ass [s.ripNext.toNat % 2 ^ w.bits]).setSp s.stackSize fin with rip := a } := by
  subst ha
  exact passes_bind (checkTarget_passes hi) (passes_bind (passes_get _) (passes_bind (push_passes h) rfl))

/-! Segment registers. -/

/-- LSS's own check holds whenever the checks of the load of SS do. -/
theorem checkLss_passes {r : SReg} {sel : BitVec 16} {l : SegLoad} (hc : Passes (checkSegLoad r sel) s l u) :
    Passes (checkLss r sel) s () s := by
  refine passes_bind (passes_get s) (passes_ensure ?_ s)
  by_contra h
  simp only [Bool.not_eq_true', Bool.not_eq_false, Bool.and_eq_true, decide_eq_true_iff] at h
  obtain ⟨⟨⟨rfl, hl⟩, hn⟩, hs⟩ := h
  have hm : s.mode = .long := of_decide_eq_true hl
  unfold checkSegLoad at hc
  have h := passes_get_bind.1 hc
  rw [hm] at h
  have h := passes_get_bind.1 (show Passes (checkStackSeg sel) s l u from h)
  rw [if_neg (by simp [hn])] at h
  obtain ⟨a, x, h1, h⟩ := passes_bind_iff.1 h
  have ha : s.descAddr sel 8 = none := by unfold State.descAddr; simp [hs]
  unfold fetchDesc at h1
  have h1 := passes_get_bind.1 h1
  rw [ha, passes_pure_iff] at h1
  obtain ⟨rfl, rfl⟩ := h1
  exact passes_raise_iff.1 h

theorem loadFarPtr_passes {r : SReg} {w : Width} {dst : Reg} {m : MemRef} {off : Word} {sel : BitVec 16} {l : SegLoad}
    {as : List Nat} (h : Passes (readFarPtr w m) s (off, sel) u) (hc : Passes (checkSegLoad r sel) u l v)
    (hm : Passes l.resolve v as t) :
    Passes (loadFarPtr r ⟨w, dst, m⟩) s () (((t.marked as).setSeg r l.cache).setReg w dst (off.setWidth w.bits)) :=
  passes_bind h (passes_bind (checkLss_passes hc) (passes_bind (loadSeg_passes hc hm) rfl))

theorem plain_resolve (c : SegCache) (s : State) : Passes (SegLoad.plain c).resolve s [] s := rfl

theorem checkSegLoad_real {r : SReg} {sel : BitVec 16} (h : s.mode = .real) :
    Passes (checkSegLoad r sel) s (.plain ((s.segOf r).realLoad sel)) s := by
  unfold checkSegLoad; refine passes_bind (passes_get s) ?_; rw [h]; rfl
theorem checkSegLoad_v86 {r : SReg} {sel : BitVec 16} (h : s.mode = .v86) :
    Passes (checkSegLoad r sel) s (.plain (SegCache.v86Load sel)) s := by
  unfold checkSegLoad; refine passes_bind (passes_get s) ?_; rw [h]; rfl
theorem checkSegLoad_null {r : SReg} {sel : BitVec 16} (h : s.mode = .prot ∨ s.mode = .compat ∨ s.mode = .long)
    (hr : r ≠ .ss) (hn : isNull sel = true) : Passes (checkSegLoad r sel) s (.plain ((s.segOf r).nullLoad sel)) s := by
  unfold checkSegLoad
  refine passes_bind (passes_get s) ?_
  rcases h with h | h | h <;> rw [h] <;>
    exact passes_if_neg hr (passes_bind (passes_get s) (passes_if_pos hn rfl))

/-- A descriptor that lies in its table is fetched with its address. -/
theorem fetchDesc_passes {sel : BitVec 16} {n x : Nat} {a : Word} (h : s.descAddr sel n = some a) (hx : Passes (sysRead a n) s x u) :
    Passes (fetchDesc sel n) s (some (a, BitVec.ofNat 128 x)) u := by
  refine passes_bind (passes_get s) ?_
  rw [h]; exact passes_bind hx rfl

theorem checkSegLoad_stack {sel : BitVec 16} {a : Word} {x : Nat} {c : SegCache}
    (h : s.mode = .prot ∨ s.mode = .compat ∨ s.mode = .long) (hn : isNull sel = false) (ha : s.descAddr sel 8 = some a)
    (hx : Passes (sysRead a 8) s x u) (hc : c = descCache sel (BitVec.ofNat 128 x)) (h1 : rpl sel = s.cpl) (h2 : c.writable = true)
    (h3 : c.dpl = s.cpl) (h4 : c.p = true) : Passes (checkSegLoad .ss sel) s (.ofDesc sel a (BitVec.ofNat 128 x)) u := by
  subst hc
  have : Passes (checkStackSeg sel) s (.ofDesc sel a (BitVec.ofNat 128 x)) u := by
    refine passes_bind (passes_get s) (passes_if_neg (by simp [hn]) (passes_bind (fetchDesc_passes ha hx) ?_))
    exact passes_if_neg (by simp [h1, h2, h3]) (passes_if_neg (by simp [h4]) rfl)
  unfold checkSegLoad
  refine passes_bind (passes_get s) ?_
  rcases h with h | h | h <;> rw [h] <;> exact passes_if_pos rfl this

theorem checkSegLoad_data {r : SReg} {sel : BitVec 16} {a : Word} {x : Nat} {c : SegCache}
    (h : s.mode = .prot ∨ s.mode = .compat ∨ s.mode = .long) (hr : r ≠ .ss) (hn : isNull sel = false)
    (ha : s.descAddr sel 8 = some a) (hx : Passes (sysRead a 8) s x u) (hc : c = descCache sel (BitVec.ofNat 128 x))
    (h1 : c.readable = true) (h2 : (c.isCode = true ∧ c.typ.getLsbD 2 = true) ∨ (rpl sel ≤ c.dpl ∧ s.cpl ≤ c.dpl))
    (h3 : c.p = true) : Passes (checkSegLoad r sel) s (.ofDesc sel a (BitVec.ofNat 128 x)) u := by
  subst hc
  have : Passes (checkDataSeg r sel) s (.ofDesc sel a (BitVec.ofNat 128 x)) u := by
    refine passes_bind (passes_get s) (passes_if_neg (by simp [hn]) (passes_bind (fetchDesc_passes ha hx) ?_))
    refine passes_if_neg (by simp [h1]) (passes_if_neg ?_ (passes_if_neg (by simp [h3]) rfl))
    rcases h2 with ⟨h, h'⟩ | ⟨h, h'⟩
    · simp [h, h']
    · simp; intro _; exact ⟨h, h'⟩
  unfold checkSegLoad
  refine passes_bind (passes_get s) ?_
  rcases h with h | h | h <;> rw [h] <;> exact passes_if_neg hr this

/-! Far transfers. -/

theorem legacyCode_passes {sel : BitVec 16} {off : Word} (h : s.segVerdict .cs (s.legacyCs sel) .exec off 1 = .ok) :
    Passes (legacyCode sel off) s (s.legacyCs sel) s :=
  passes_bind (passes_get s) (passes_bind (passes_ensure (decide_eq_true h) s) rfl)

theorem enterCode_passes {d : SegLoad} {cpl : BitVec 2} {off : Word} {as : List Nat} (h : Passes d.resolve s as t) :
    Passes (enterCode d cpl off) s () ((t.marked as).withCode d cpl off) := passes_bind h (passes_bind rfl rfl)

theorem jmpFar_completes {o : FarOps} {off : Word} {sel : BitVec 16} (ho : FarOperand o s off sel u)
    (h : Passes (jmpFar (farWidth o) sel off) u () t) : Completes (.jmpFar o) s t := by
  cases o with
  | ptr p =>
    obtain ⟨hl, rfl, rfl, rfl⟩ := ho
    exact run_of_passes (passes_bind (passes_bind (passes_notInLong hl) rfl) h)
  | far p => exact run_of_passes (passes_bind ho h)

theorem callFar_completes {o : FarOps} {off : Word} {sel : BitVec 16} (ho : FarOperand o s off sel u)
    (h : Passes (callFar (farWidth o) sel off) u () t) : Completes (.call (callOf o)) s t := by
  cases o with
  | ptr p =>
    obtain ⟨hl, rfl, rfl, rfl⟩ := ho
    exact run_of_passes (passes_bind (passes_bind (passes_notInLong hl) rfl) h)
  | far p => exact run_of_passes (passes_bind ho h)

variable {w : Width} {off0 off : Word} {sel : BitVec 16} {d : SegLoad} {g : CallGate} {x y : State} {as : List Nat}

theorem jmpFar_legacy (hf : off = cutTarget w off0) (hl : s.isLegacySeg = true)
    (h : s.segVerdict .cs (s.legacyCs sel) .exec off 1 = .ok) :
    Passes (jmpFar w sel off0) s () (s.withLegacyCode (s.legacyCs sel) off) := by
  subst hf
  exact passes_bind (passes_get s) (passes_if_pos hl (passes_bind (legacyCode_passes h) rfl))

theorem jmpFar_code (hf : off = cutTarget w off0) (hl : s.isLegacySeg = false) (h1 : Passes (farTarget sel) s (.code d) v)
    (h2 : s.targetOk d.cache off = true) (h3 : Passes d.resolve v as x) :
    Passes (jmpFar w sel off0) s () ((x.marked as).withCode d s.cpl off) := by
  subst hf
  exact passes_bind (passes_get s) (passes_if_neg (by simp [hl]) (passes_bind h1
    (passes_bind (passes_ensure h2 v) (enterCode_passes h3))))

theorem jmpFar_gate (hl : s.isLegacySeg = false) (h1 : Passes (farTarget sel) s (.gate g) v)
    (h2 : Passes (gateCode g fun c => if c.conforming then decide (c.dpl ≤ s.cpl) else decide (c.dpl = s.cpl)) v d x)
    (h3 : s.targetOk d.cache g.off = true) (h4 : Passes d.resolve x as y) :
    Passes (jmpFar w sel off0) s () ((y.marked as).withCode d s.cpl g.off) :=
  passes_bind (passes_get s) (passes_if_neg (by simp [hl]) (passes_bind h1 (passes_bind h2
    (passes_bind (passes_ensure h3 x) (enterCode_passes h4)))))

theorem needRoom_passes {ns : List Nat} (h : s.pushRoom (s.segOf .ss) s.stackSize s.sp ns = true) :
    Passes (needRoom ns) s () s := passes_bind (passes_get s) (passes_ensure h s)

theorem callFar_legacy {ass : List (List Nat)} {fin : Word} (hf : off = cutTarget w off0) (hl : s.isLegacySeg = true)
    (h1 : s.pushRoom (s.segOf .ss) s.stackSize s.sp (legacyRoom w) = true) (h2 : off.toNat < 2 ^ 16)
    (h3 : s.segVerdict .cs (s.legacyCs sel) .exec off 1 = .ok) (h4 : Passes (pushSlots [w.bytes, w.bytes]) s (ass, fin) v) :
    Passes (callFar w sel off0) s ()
      (((v.stored ass ((s.returnItems w.bytes).map (·.2))).setSp s.stackSize fin).withLegacyCode (s.legacyCs sel) off) := by
  subst hf
  exact passes_bind (passes_get s) (passes_if_pos hl (passes_bind (needRoom_passes h1)
    (passes_bind (passes_ensure (decide_eq_true h2) s) (passes_bind (legacyCode_passes h3)
      (passes_bind (pushList_passes (items := s.returnItems w.bytes) h4) rfl)))))

theorem resolve_accessOnly' {l : SegLoad} {as : List Nat} (h : Passes l.resolve s as u) : AccessOnly s u := by
  unfold SegLoad.resolve at h
  split at h
  · rw [passes_pure_iff] at h; obtain ⟨_, rfl⟩ := h; exact .refl _
  · exact sysResolve_accessOnly h

theorem callFar_code {ass : List (List Nat)} {fin : Word} (hf : off = cutTarget w off0) (hl : s.isLegacySeg = false)
    (h1 : Passes (farTarget sel) s (.code d) v)
    (h2 : v.pushRoom (v.segOf .ss) v.stackSize v.sp [w.bytes, w.bytes] = true) (h3 : s.targetOk d.cache off = true)
    (h4 : Passes (pushSlots [w.bytes, w.bytes]) v (ass, fin) x) (h5 : Passes d.resolve x as y) :
    Passes (callFar w sel off0) s ()
      ((((y.stored ass ((s.returnItems w.bytes).map (·.2))).setSp v.stackSize fin).marked as).withCode d s.cpl off) := by
  subst hf
  rw [← (pushSlots_accessOnly h4).stackSize, ← (resolve_accessOnly' h5).stackSize]
  exact passes_bind (passes_get s) (passes_if_neg (by simp [hl]) (passes_bind h1 (passes_bind (needRoom_passes h2)
    (passes_bind (passes_ensure h3 v) (passes_bind h4 (passes_bind h5 (passes_bind pushCommit_passes (passes_bind rfl rfl))))))))

/-- Through a gate to the same level: CS, then the pushes on the current stack. -/
theorem callSame_passes {n : Nat} {ass : List (List Nat)} {fin : Word} {z : State} (hn : n = g.slot s.lma)
    (hu : u = s.gateStack.withCode d s.cpl g.off) (h1 : u.pushRoom (u.segOf .ss) u.stackSize u.sp [n, n] = true)
    (h2 : s.targetOk d.cache g.off = true) (h3 : Passes d.resolve u as y) (h4 : Passes (pushSlots [n, n]) y (ass, fin) z) :
    Passes (callSame g d) s () (((z.marked as).stored ass ((s.returnItems n).map (·.2))).setSp u.stackSize fin) := by
  subst hn hu
  rw [← (resolve_accessOnly' h3).stackSize, ← (pushSlots_accessOnly h4).stackSize]
  unfold callSame
  have rest : Passes (do
      loadCode d s.cpl g.off
      needRoom [g.slot s.lma, g.slot s.lma]
      ensure (s.targetOk d.cache g.off) raiseGP
      let as ← d.resolve
      let p ← pushSlots [g.slot s.lma, g.slot s.lma]
      markAccessed as
      pushCommit p ((s.returnItems (g.slot s.lma)).map (·.2))) s.gateStack ()
      (((z.marked as).stored ass ((s.returnItems (g.slot s.lma)).map (·.2))).setSp z.stackSize fin) :=
    passes_bind rfl (passes_bind (needRoom_passes h1) (passes_bind (passes_ensure h2 _) (passes_bind h3 (passes_bind h4
      (passes_bind rfl pushCommit_passes)))))
  refine passes_bind (passes_get s) ?_
  by_cases h : (s.lma && !s.isLong) = true
  · refine passes_if_pos h (passes_bind (passes_freeValue 32 s) (passes_bind (t := s.gateStack) (a := ()) ?_ rest))
    unfold State.gateStack
    rw [if_pos h]; rfl
  · refine passes_if_neg h ?_
    rwa [show s.gateStack = s by unfold State.gateStack; rw [if_neg h]] at rest

/-- Through a 64-bit gate to a more privileged level. -/
theorem callInner_long {cpl : BitVec 2} {rsp fin : Word} {ass : List (List Nat)} {z : State} (hl : s.lma = true)
    (hc : cpl = d.cache.dpl) (h1 : Passes (tssWord (cpl.toNat * 8 + 4) false) s rsp u)
    (h2 : canonical (rsp - 32) = true ∧ canonical (rsp - 1) = true) (h3 : canonical g.off = true)
    (h4 : Passes d.resolve (u.withCode d cpl g.off) as y)
    (h5 : Passes (pushPlan (s.nullStack cpl) .a64 false false rsp [8, 8, 8, 8]) y (ass, fin) z) :
    Passes (callInner g d) s ()
      ((((z.marked as).stored ass ((s.oldStack 8 ++ s.returnItems 8).map (·.2))).setSeg .ss (s.nullStack cpl)).setGp rSP fin) := by
  subst hc
  unfold callInner callInnerLong
  exact passes_bind (passes_get s) (passes_if_pos hl (passes_bind (passes_get s) (passes_bind h1 (passes_bind
    (passes_ensure (by rw [h2.1, h2.2]; rfl) _) (passes_bind (passes_ensure h3 _) (passes_bind rfl (passes_bind h4 (passes_bind h5
    (passes_bind rfl (passes_bind (pushStore_stored _ _ _) rfl))))))))))

/-- Through a 16- or 32-bit gate to a more privileged level. -/
theorem callInner_legacy {n : Nat} {cpl : BitVec 2} {ss : SegLoad} {size : ASize} {esp sp1 fin : Word} {sas : List Nat}
    {as1 as2 : List (List Nat)} {params : List (Nat × Nat)} {u1 u2 u3 u4 u5 u6 : State} (hl : s.lma = false)
    (hn : n = g.slot false) (hc : cpl = d.cache.dpl) (h1 : Passes (innerStack cpl false) s (ss, esp) u1)
    (hz : size = s.stackSizeOf ss.cache)
    (h2 : s.pushRoom ss.cache size (size.trunc esp) (List.replicate (4 + g.count) n) = true) (h3 : s.targetOk d.cache g.off = true)
    (h4 : Passes ss.resolve u1 sas u2) (h5 : Passes d.resolve u2 as u3)
    (h6 : Passes (pushPlan ss.cache size false false (size.trunc esp) [n, n]) u3 (as1, sp1) u4)
    (h7 : Passes (gateParams n s.sp g.count) u4 params u5)
    (h8 : Passes (pushPlan ss.cache size false false sp1 (List.replicate (g.count + 2) n)) u5 (as2, fin) u6) :
    Passes (callInner g d) s () (((u6.marked sas).marked as).enterInner d cpl g.off ss.cache size esp fin (as1 ++ as2)
      ((s.oldStack n ++ params.reverse ++ s.returnItems n).map (·.2))) := by
  subst hn hc hz
  unfold callInner callInnerLegacy
  exact passes_bind (passes_get s) (passes_if_neg (by simp [hl]) (passes_bind (passes_get s) (passes_bind h1 (passes_bind
    (passes_ensure h2 _) (passes_bind (passes_ensure h3 _) (passes_bind h4 (passes_bind h5 (passes_bind h6 (passes_bind h7
    (passes_bind h8 (passes_bind rfl (passes_bind rfl (passes_bind (pushStore_stored _ _ _) rfl)))))))))))))

/-- The parameters of a call gate are the items above the old stack pointer. -/
theorem gateParams_reads {n k : Nat} {sp : Word} {ps : List (Nat × Nat)} (h : Passes (gateParams n sp k) s ps t) :
    ps.length = k ∧ ∀ p ∈ (List.range k).zip ps, p.2.1 = n ∧
      ∃ x y, AccessOnly s x ∧ Passes (stackPeek (sp + BitVec.ofNat 64 (p.1 * n)) n) x p.2.2 y := by
  suffices H : ∀ j, ps.length = k ∧ ∀ p ∈ (List.range' j k).zip ps, p.2.1 = n ∧
      ∃ x y, AccessOnly s x ∧ Passes (stackPeek (sp + BitVec.ofNat 64 ((p.1 - j) * n)) n) x p.2.2 y by
    have h := H 0
    rw [← List.range_eq_range'] at h
    exact h
  intro j
  induction k generalizing s t sp ps j with
  | zero =>
    unfold gateParams at h; rw [passes_pure_iff] at h
    obtain ⟨rfl, _⟩ := h
    exact ⟨rfl, fun p hp => nomatch hp⟩
  | succ k ih =>
    unfold gateParams at h
    obtain ⟨v, t1, h1, h⟩ := passes_bind_iff.1 h
    obtain ⟨rest, t2, h2, h⟩ := passes_bind_iff.1 h
    rw [passes_pure_iff] at h
    obtain ⟨rfl, _⟩ := h
    obtain ⟨i1, i2⟩ := ih h2 (j + 1)
    refine ⟨by rw [List.length_cons, i1], ?_⟩
    intro p hp
    rw [List.range'_succ, List.zip_cons_cons] at hp
    rcases List.mem_cons.1 hp with rfl | hp
    · refine ⟨rfl, s, t1, .refl _, ?_⟩
      simpa using h1
    · obtain ⟨h0, x, y, h3, h4⟩ := i2 p hp
      refine ⟨h0, x, y, (stackPeek_accessOnly h1).trans h3, ?_⟩
      have hj : j + 1 ≤ p.1 := by
        have h5 := (List.mem_range'_1.1 (List.of_mem_zip hp).1).1
        exact h5
      have e : sp + BitVec.ofNat 64 n + BitVec.ofNat 64 ((p.1 - (j + 1)) * n) = sp + BitVec.ofNat 64 ((p.1 - j) * n) := by
        rw [BitVec.add_assoc, ← BitVec.ofNat_add]
        congr 2
        rw [show p.1 - j = (p.1 - (j + 1)) + 1 by omega, Nat.add_mul, Nat.one_mul, Nat.add_comm]
      rw [← e]
      exact h4

theorem callFar_gate (hl : s.isLegacySeg = false) (h1 : Passes (farTarget sel) s (.gate g) v)
    (h2 : Passes (gateCode g fun c => decide (c.dpl ≤ s.cpl)) v d x)
    (h3 : Passes (if !d.cache.conforming && decide (d.cache.dpl < s.cpl) then callInner g d else callSame g d) x () t) :
    Passes (callFar w sel off0) s () t :=
  passes_bind (passes_get s) (passes_if_neg (by simp [hl]) (passes_bind h1 (passes_bind h2 h3)))

theorem callFar_gateSame (hl : s.isLegacySeg = false) (h1 : Passes (farTarget sel) s (.gate g) v)
    (h2 : Passes (gateCode g fun c => decide (c.dpl ≤ s.cpl)) v d x) (hc : d.cache.conforming = true ∨ s.cpl ≤ d.cache.dpl)
    (h3 : Passes (callSame g d) x () t) : Passes (callFar w sel off0) s () t := by
  refine callFar_gate hl h1 h2 (passes_if_neg ?_ h3)
  rcases hc with hc | hc
  · simp [hc]
  · simp; intro _; exact hc

theorem callFar_gateInner (hl : s.isLegacySeg = false) (h1 : Passes (farTarget sel) s (.gate g) v)
    (h2 : Passes (gateCode g fun c => decide (c.dpl ≤ s.cpl)) v d x) (hc : d.cache.conforming = false) (hd : d.cache.dpl < s.cpl)
    (h3 : Passes (callInner g d) x () t) : Passes (callFar w sel off0) s () t :=
  callFar_gate hl h1 h2 (passes_if_pos (by simp [hc, hd]) h3)

theorem stackPeek_zero {a : Nat} (h : Passes (stackPeek s.sp w.bytes) u a v) :
    Passes (stackPeek (s.iretBegin.sp + BitVec.ofNat 64 (0 * w.bytes)) w.bytes) u a v := by
  have : s.iretBegin.sp + BitVec.ofNat 64 (0 * w.bytes) = s.sp := by
    show s.sp + _ = _
    simp
  rw [this]; exact h
theorem stackPeek_one {a : Nat} (h : Passes (stackPeek (s.sp + BitVec.ofNat 64 w.bytes) w.bytes) u a v) :
    Passes (stackPeek (s.iretBegin.sp + BitVec.ofNat 64 (1 * w.bytes)) w.bytes) u a v := by
  rw [Nat.one_mul]; exact h

theorem needTop_passes {n : Nat} (h : s.stackTop n) : Passes (needTop n) s () s :=
  passes_bind (passes_get s) (passes_ensure (decide_eq_true (show s.segVerdict .ss (s.segOf .ss) .read s.sp n ≠ .limit from h)) s)

theorem retFar_legacy {i : Option (BitVec 16)} {imm : Word} {a b : Nat} (hi : imm = (i.getD 0).setWidth 64)
    (hl : s.isLegacySeg = true) (h0 : s.stackTop (2 * w.bytes)) (h1 : Passes (stackPeek s.sp w.bytes) s.begin a u)
    (h2 : Passes (stackPeek (u.popped w.bytes).sp w.bytes) (u.popped w.bytes) b v)
    (h3 : v.segVerdict .cs (v.segOf .cs) .exec (BitVec.ofNat 64 a) 1 = .ok)
    (h4 : v.segVerdict .cs (v.legacyCs (BitVec.ofNat 16 b)) .exec (BitVec.ofNat 64 a) 1 = .ok) :
    let t := (v.popped w.bytes).withLegacyCode (v.legacyCs (BitVec.ofNat 16 b)) (BitVec.ofNat 64 a)
    Completes (.retFar ⟨w, i⟩) s (t.setSp t.stackSize (t.sp + imm)) := by
  subst hi
  refine run_of_passes (passes_bind (passes_get _) (passes_if_pos hl (passes_bind (needTop_passes (s := s.begin) h0)
    (passes_bind (pop_passes h1) (passes_bind (pop_passes h2)
    (passes_bind (passes_get _) (passes_bind (passes_get _) (passes_bind (passes_ensure (decide_eq_true h3) _)
      (passes_bind (legacyCode_passes (s := v.popped w.bytes) h4) ?_)))))))))
  exact passes_bind rfl (passes_bind rfl (passes_bind (passes_get _) rfl))

theorem retFar_same {i : Option (BitVec 16)} {imm : Word} {a b : Nat} (hi : imm = (i.getD 0).setWidth 64)
    (hl : s.isLegacySeg = false) (h0 : s.stackTop (2 * w.bytes))
    (h1 : Passes (stackPeek (s.sp + BitVec.ofNat 64 w.bytes) w.bytes) s.begin b u)
    (h2 : Passes (stackPeek s.sp w.bytes) u a v) (h3 : Passes (returnCode (BitVec.ofNat 16 b)) v d x)
    (h4 : rpl (BitVec.ofNat 16 b) = s.cpl) (h5 : s.targetOk d.cache (BitVec.ofNat 64 a) = true)
    (h6 : Passes d.resolve x as y) :
    Completes (.retFar ⟨w, i⟩) s (((y.marked as).withCode d s.cpl (BitVec.ofNat 64 a)).setSp s.stackSize
      (s.sp + BitVec.ofNat 64 (2 * w.bytes) + imm)) := by
  subst hi
  refine run_of_passes (passes_bind (passes_get _) (passes_if_neg (by simp [show s.begin.isLegacySeg = _ from hl]) ?_))
  unfold retFarTable
  refine passes_bind (passes_get _) (passes_bind (needTop_passes (s := s.begin) h0) (passes_bind (a := b) (t := u) ?_
    (passes_bind (a := a) (t := v) ?_ (passes_bind h3
    (passes_if_pos h4 (passes_bind (passes_ensure h5 _) (passes_bind (enterCode_passes h6) rfl)))))))
  · exact stackPeek_one (s := s) h1
  · exact stackPeek_zero (s := s) h2

theorem retFar_outer {i : Option (BitVec 16)} {imm : Word} {a b c e : Nat} {z r q1 q : State} {ss : SegLoad} {sas : List Nat}
    (hi : imm = (i.getD 0).setWidth 64)
    (hl : s.isLegacySeg = false) (h0 : s.stackTop (2 * w.bytes))
    (h1 : Passes (stackPeek (s.sp + BitVec.ofNat 64 w.bytes) w.bytes) s.begin b u)
    (h2 : Passes (stackPeek s.sp w.bytes) u a v) (h3 : Passes (returnCode (BitVec.ofNat 16 b)) v d x)
    (h4 : rpl (BitVec.ofNat 16 b) ≠ s.cpl) (h00 : x.stackTop (4 * w.bytes + imm.toNat))
    (h5 : Passes (stackPeek (s.sp + BitVec.ofNat 64 (3 * w.bytes) + imm) w.bytes) x c y)
    (h6 : Passes (stackPeek (s.sp + BitVec.ofNat 64 (2 * w.bytes) + imm) w.bytes) y e z)
    (h7 : Passes (returnStack (fun k => raiseSS k) d (BitVec.ofNat 16 c)) z ss r)
    (h8 : s.targetOk d.cache (BitVec.ofNat 64 a) = true) (h9 : Passes d.resolve r as q1) (h10 : Passes ss.resolve q1 sas q) :
    let t := (((((q.marked as).withCode d (rpl (BitVec.ofNat 16 b)) (BitVec.ofNat 64 a)).withPoppedSp w s.isLong e).marked
      sas).setSeg .ss ss.cache).hideSegs (rpl (BitVec.ofNat 16 b))
    Completes (.retFar ⟨w, i⟩) s (t.setSp t.stackSize (t.sp + imm)) := by
  subst hi
  refine run_of_passes (passes_bind (passes_get _) (passes_if_neg (by simp [show s.begin.isLegacySeg = _ from hl]) ?_))
  unfold retFarTable
  refine passes_bind (passes_get _) (passes_bind (needTop_passes (s := s.begin) h0) (passes_bind (a := b) (t := u) ?_
    (passes_bind (a := a) (t := v) ?_ (passes_bind h3
    (passes_if_neg h4 (passes_bind (needTop_passes h00) (passes_bind h5 (passes_bind h6 (passes_bind h7
      (passes_bind (passes_ensure h8 _) (passes_bind h9 (passes_bind h10 (passes_bind rfl (passes_bind rfl (passes_bind rfl
      (passes_bind rfl (passes_bind rfl (passes_bind rfl (passes_bind (passes_get _) rfl)))))))))))))))))))
  · exact stackPeek_one (s := s) h1
  · exact stackPeek_zero (s := s) h2

/-! IRET. -/

theorem iret_real {a b f : Nat} (hm : s.mode = .real) (h0 : s.stackTop (3 * w.bytes))
    (h1 : Passes (stackPeek s.sp w.bytes) s.iretBegin a u)
    (h2 : Passes (stackPeek (u.popped w.bytes).sp w.bytes) (u.popped w.bytes) b v)
    (h3 : Passes (stackPeek (v.popped w.bytes).sp w.bytes) (v.popped w.bytes) f x)
    (h4 : x.segVerdict .cs (x.legacyCs (BitVec.ofNat 16 b)) .exec (BitVec.ofNat 64 a) 1 = .ok) :
    Passes (iretBody w) s.begin () { (x.popped w.bytes).withLegacyCode (x.legacyCs (BitVec.ofNat 16 b)) (BitVec.ofNat 64 a) with
      flags := x.flags.load (if w = .w16 then flagsW16 else iretReal32) (BitVec.ofNat 64 f) } := by
  unfold iretBody
  refine passes_bind (t := s.iretBegin) rfl (passes_bind (passes_get _) ?_)
  rw [show s.iretBegin.mode = .real from hm]
  exact passes_bind (needTop_passes (s := s.iretBegin) h0) (passes_bind (pop_passes h1) (passes_bind (pop_passes h2)
    (passes_bind (pop_passes h3) (passes_bind (legacyCode_passes (s := x.popped w.bytes) h4) rfl))))

theorem iret_v86 {a b f : Nat} (hm : s.mode = .v86) (hi : s.flags.iopl = 3) (h0 : s.stackTop (3 * w.bytes))
    (h1 : Passes (stackPeek s.sp w.bytes) s.iretBegin a u)
    (h2 : Passes (stackPeek (u.popped w.bytes).sp w.bytes) (u.popped w.bytes) b v)
    (h3 : Passes (stackPeek (v.popped w.bytes).sp w.bytes) (v.popped w.bytes) f x)
    (h4 : x.segVerdict .cs (x.legacyCs (BitVec.ofNat 16 b)) .exec (BitVec.ofNat 64 a) 1 = .ok) :
    Passes (iretBody w) s.begin () { (x.popped w.bytes).withLegacyCode (x.legacyCs (BitVec.ofNat 16 b)) (BitVec.ofNat 64 a) with
      flags := x.flags.load ((if w = .w16 then flagsW16 else iretReal32) &&& ~~~flagsIopl) (BitVec.ofNat 64 f) } := by
  unfold iretBody
  refine passes_bind (t := s.iretBegin) rfl (passes_bind (passes_get _) ?_)
  rw [show s.iretBegin.mode = .v86 from hm]
  exact passes_bind (passes_get _) (passes_bind (passes_ensure (decide_eq_true hi) _) (passes_bind
    (needTop_passes (s := s.iretBegin) h0) (passes_bind (pop_passes h1)
    (passes_bind (pop_passes h2) (passes_bind (pop_passes h3) (passes_bind (legacyCode_passes (s := x.popped w.bytes) h4) rfl))))))

theorem iretTable_of (hm : s.mode = .prot ∨ s.mode = .compat ∨ s.mode = .long)
    (h : Passes (iretTable w) s.iretBegin () t) : Passes (iretBody w) s.begin () t := by
  unfold iretBody
  refine passes_bind (t := s.iretBegin) rfl (passes_bind (passes_get _) ?_)
  rcases hm with hm | hm | hm <;> rw [show s.iretBegin.mode = _ from hm] <;> exact h

theorem iret_notV86 {f : Nat} (hv : s.lma = true ∨ (BitVec.ofNat 64 f).getLsbD 17 = false ∨ s.cpl ≠ 0) :
    ¬ (!s.iretBegin.lma && (BitVec.ofNat 64 f).getLsbD 17 && decide (s.iretBegin.cpl = 0)) = true := by
  show ¬ (!s.lma && (BitVec.ofNat 64 f).getLsbD 17 && decide (s.cpl = 0)) = true
  rcases hv with hv | hv | hv
  · rw [hv]; simp
  · rw [hv]; simp
  · rw [decide_eq_false hv]; simp

theorem iret_same {a b f : Nat} {z : State} (hm : s.mode = .prot ∨ s.mode = .compat ∨ s.mode = .long) (hn : s.flags.nt = false)
    (h0 : s.stackTop (3 * w.bytes)) (h1 : Passes (stackPeek s.sp w.bytes) s.iretBegin a u)
    (h2 : Passes (stackPeek (s.sp + BitVec.ofNat 64 w.bytes) w.bytes) u b v)
    (h3 : Passes (stackPeek (s.sp + BitVec.ofNat 64 (2 * w.bytes)) w.bytes) v f x)
    (hv : s.lma = true ∨ (BitVec.ofNat 64 f).getLsbD 17 = false ∨ s.cpl ≠ 0)
    (h4 : Passes (returnCode (BitVec.ofNat 16 b)) x d y) (h5 : s.targetOk d.cache (BitVec.ofNat 64 a) = true)
    (hr : rpl (BitVec.ofNat 16 b) = s.cpl) (hl : s.isLong = false) (h6 : Passes d.resolve y as z) :
    Passes (iretBody w) s.begin () (State.setSp { (z.marked as).withCode d s.cpl (BitVec.ofNat 64 a) with
      flags := z.flags.load (iretMask w s.cpl s.flags.iopl) (BitVec.ofNat 64 f) } s.stackSize
      (s.sp + BitVec.ofNat 64 (3 * w.bytes))) := by
  refine iretTable_of hm ?_
  unfold iretTable
  refine passes_bind (passes_get _) (passes_if_neg (by simp [show s.iretBegin.flags.nt = _ from hn])
    (passes_bind (needTop_passes (s := s.iretBegin) h0) (passes_bind (stackPeek_zero h1) (passes_bind (stackPeek_one h2)
    (passes_bind h3 (passes_if_neg ?_ (passes_bind h4 ?_)))))))
  · exact iret_notV86 hv
  · have ho : ¬ (decide (rpl (BitVec.ofNat 16 b) ≠ s.cpl) || s.isLong) = true := by simp [hr, hl]
    refine passes_bind (a := none) (passes_if_neg ho rfl) (passes_bind (passes_ensure h5 _) (passes_bind h6 (passes_bind rfl ?_)))
    rw [hr]
    exact passes_bind rfl (passes_bind rfl (passes_bind rfl (passes_bind rfl
      (passes_if_neg (by simp [show s.iretBegin.cpl = s.cpl from rfl]) rfl))))

theorem iret_outer {a b f c e : Nat} {z z1 y1 y2 y3 : State} {ss : SegLoad} {sas : List Nat}
    (hm : s.mode = .prot ∨ s.mode = .compat ∨ s.mode = .long) (hn : s.flags.nt = false)
    (h0 : s.stackTop (3 * w.bytes)) (h1 : Passes (stackPeek s.sp w.bytes) s.iretBegin a u)
    (h2 : Passes (stackPeek (s.sp + BitVec.ofNat 64 w.bytes) w.bytes) u b v)
    (h3 : Passes (stackPeek (s.sp + BitVec.ofNat 64 (2 * w.bytes)) w.bytes) v f x)
    (hv : s.lma = true ∨ (BitVec.ofNat 64 f).getLsbD 17 = false ∨ s.cpl ≠ 0)
    (h4 : Passes (returnCode (BitVec.ofNat 16 b)) x d y) (h5 : s.targetOk d.cache (BitVec.ofNat 64 a) = true)
    (hr : rpl (BitVec.ofNat 16 b) ≠ s.cpl ∨ s.isLong = true) (h00 : y.stackTop (5 * w.bytes))
    (h6 : Passes (stackPeek (s.sp + BitVec.ofNat 64 (3 * w.bytes)) w.bytes) y e y1)
    (h7 : Passes (stackPeek (s.sp + BitVec.ofNat 64 (4 * w.bytes)) w.bytes) y1 c y2)
    (h8 : Passes (returnStack (fun k => raiseNP k) d (BitVec.ofNat 16 c)) y2 ss y3) (h9 : Passes d.resolve y3 as z1)
    (h10 : Passes ss.resolve z1 sas z) :
    let t := ((State.withPoppedSp { (z.marked as).withCode d (rpl (BitVec.ofNat 16 b)) (BitVec.ofNat 64 a) with
      flags := z.flags.load (iretMask w s.cpl s.flags.iopl) (BitVec.ofNat 64 f) } w s.isLong e).marked sas).setSeg .ss ss.cache
    Passes (iretBody w) s.begin () (if rpl (BitVec.ofNat 16 b) ≠ s.cpl then t.hideSegs (rpl (BitVec.ofNat 16 b)) else t) := by
  refine iretTable_of hm ?_
  unfold iretTable
  refine passes_bind (passes_get _) (passes_if_neg (by simp [show s.iretBegin.flags.nt = _ from hn])
    (passes_bind (needTop_passes (s := s.iretBegin) h0) (passes_bind (stackPeek_zero h1) (passes_bind (stackPeek_one h2)
    (passes_bind h3 (passes_if_neg ?_ (passes_bind h4 ?_)))))))
  · exact iret_notV86 hv
  · have ho : (decide (rpl (BitVec.ofNat 16 b) ≠ s.cpl) || s.isLong) = true := by
      rcases hr with hr | hr
      · simp [hr]
      · simp [hr]
    refine passes_bind (a := some (e, ss)) (passes_if_pos ho (passes_bind (needTop_passes h00) (passes_bind h6 (passes_bind h7
      (passes_bind h8 rfl))))) (passes_bind (passes_ensure h5 _) (passes_bind h9 (passes_bind h10 (passes_bind rfl
      (passes_bind rfl (passes_bind rfl (passes_bind (passes_bind rfl (passes_bind rfl rfl)) ?_)))))))
    by_cases hc : rpl (BitVec.ofNat 16 b) = s.cpl
    · rw [if_neg (not_not.2 hc)]
      exact passes_if_neg (by simp [show s.iretBegin.cpl = s.cpl from rfl, hc]) rfl
    · rw [if_pos hc]
      exact passes_if_pos (decide_eq_true hc) rfl

/-- The return to virtual-8086 mode pops ESP, SS, ES, DS, FS and GS. -/
theorem iretToV86_passes {image : Word} {esp ss es ds fs gs : Nat} {t1 t2 t3 t4 t5 : State} (h0 : s.stackTop 36)
    (h1 : Passes (stackPeek (s.sp + 12) 4) s esp t1) (h2 : Passes (stackPeek (s.sp + 16) 4) t1 ss t2)
    (h3 : Passes (stackPeek (s.sp + 20) 4) t2 es t3) (h4 : Passes (stackPeek (s.sp + 24) 4) t3 ds t4)
    (h5 : Passes (stackPeek (s.sp + 28) 4) t4 fs t5) (h6 : Passes (stackPeek (s.sp + 32) 4) t5 gs t) (h7 : off.toNat ≤ 0xFFFF) :
    Passes (iretToV86 sel off image) s () (t.toV86 sel off image esp ss es ds fs gs) :=
  passes_bind (passes_get s) (passes_bind (needTop_passes h0) (passes_bind h1 (passes_bind (passes_bind h2 rfl)
    (passes_bind (passes_bind h3 rfl) (passes_bind (passes_bind h4 rfl) (passes_bind (passes_bind h5 rfl)
    (passes_bind (passes_bind h6 rfl) (passes_bind (passes_ensure (decide_eq_true h7) _) rfl))))))))

theorem iretToV86_at {a b f : Nat} {x y : State} {image : Word} {esp ss es ds fs gs : Nat} {t1 t2 t3 t4 t5 : State}
    (h1 : Passes (stackPeek s.sp w.bytes) s.iretBegin a u) (h2 : Passes (stackPeek (s.sp + BitVec.ofNat 64 w.bytes) w.bytes) u b v)
    (h3 : Passes (stackPeek (s.sp + BitVec.ofNat 64 (2 * w.bytes)) w.bytes) v f x) (h0 : x.stackTop 36)
    (h4 : Passes (stackPeek (s.sp + 12) 4) x esp t1) (h5 : Passes (stackPeek (s.sp + 16) 4) t1 ss t2)
    (h6 : Passes (stackPeek (s.sp + 20) 4) t2 es t3) (h7 : Passes (stackPeek (s.sp + 24) 4) t3 ds t4)
    (h8 : Passes (stackPeek (s.sp + 28) 4) t4 fs t5) (h9 : Passes (stackPeek (s.sp + 32) 4) t5 gs y) (h10 : off.toNat ≤ 0xFFFF) :
    Passes (iretToV86 sel off image) x () (y.toV86 sel off image esp ss es ds fs gs) := by
  have e : x.sp = s.sp :=
    (((stackPeek_accessOnly h1).trans (stackPeek_accessOnly h2)).trans (stackPeek_accessOnly h3)).sp
  rw [← e] at h4 h5 h6 h7 h8 h9
  exact iretToV86_passes h0 h4 h5 h6 h7 h8 h9 h10

theorem iret_toV86 {a b f : Nat} (hm : s.mode = .prot) (hn : s.flags.nt = false) (hc : s.cpl = 0)
    (hv : (BitVec.ofNat 64 f).getLsbD 17 = true) (h0 : s.stackTop (3 * w.bytes))
    (h1 : Passes (stackPeek s.sp w.bytes) s.iretBegin a u)
    (h2 : Passes (stackPeek (s.sp + BitVec.ofNat 64 w.bytes) w.bytes) u b v)
    (h3 : Passes (stackPeek (s.sp + BitVec.ofNat 64 (2 * w.bytes)) w.bytes) v f x)
    (h4 : Passes (iretToV86 (BitVec.ofNat 16 b) (BitVec.ofNat 64 a) (BitVec.ofNat 64 f)) x () t) :
    Passes (iretBody w) s.begin () t := by
  refine iretTable_of (.inl hm) ?_
  unfold iretTable
  refine passes_bind (passes_get _) (passes_if_neg (by simp [show s.iretBegin.flags.nt = _ from hn])
    (passes_bind (needTop_passes (s := s.iretBegin) h0) (passes_bind (stackPeek_zero h1) (passes_bind (stackPeek_one h2)
    (passes_bind h3 (passes_if_pos ?_ h4))))))
  show (!s.lma && (BitVec.ofNat 64 f).getLsbD 17 && decide (s.cpl = 0)) = true
  have hl : s.lma = false := by
    unfold State.mode at hm
    split at hm
    · cases hm
    · split at hm
      · split at hm <;> cases hm
      · rename_i h; simpa using h
  rw [hl, hv, decide_eq_true hc]; rfl

/-! Interrupts. -/

theorem deliver_passes {k : Nat} {e : Event} (h : Passes (deliverOnce e) s () t) : deliver (k + 1) e s = .next t := by
  unfold deliver
  rw [show (deliverOnce e).run s = .ok () t from h]

theorem takeSoftware_passes {k : EventKind} {n : BitVec 8} (hr : s.rtm.snapshot = none)
    (h : Passes (deliverOnce { kind := k, vec := n, ret := s.ripNext }) s.softBegin () t) : takeSoftware k n s = .next t := by
  unfold takeSoftware
  rw [if_neg (by simp [hr])]
  exact deliver_passes h

theorem into_passes (hr : s.rtm.snapshot = none) (hl : s.isLong = false) (ho : s.flags.of = true)
    (h : Passes (deliverOnce { kind := .into, vec := 4, ret := s.ripNext }) s.softBegin () t) : exec .into s = .next t := by
  show execInto s = _
  unfold execInto
  rw [if_neg (by simp [hl]), if_pos ho]
  exact takeSoftware_passes hr h

theorem into_not (hl : s.isLong = false) (ho : s.flags.of = false) : Completes .into s s.begin := by
  show execInto s = _
  unfold execInto
  rw [if_neg (by simp [hl]), if_neg (by simp [ho])]
  exact run_of_passes rfl

theorem takeException_passes {e : Exc} (hr : s.rtm.snapshot = none) (hc : e.cr2 = none)
    (h : Passes (deliverOnce (e.event s)) s () t) : takeException e s = .next t := by
  unfold takeException
  rw [if_neg (by simp [hr])]
  have : s.noteCr2 e = s := by unfold State.noteCr2; rw [hc]
  rw [this]
  exact deliver_passes h

theorem takeUD_passes (hr : s.rtm.snapshot = none)
    (h : Passes (deliverOnce { kind := .exception, vec := 6, ret := s.rip, rf := true }) s () t) : run raiseUD s = .next t :=
  (run_of_raise_access (e := { vec := 6 }) rfl rfl (.refl s.begin)).trans
    (by rw [s.faulted_begin]; exact takeException_passes hr rfl h)

end Sys2Proof.Machine
end

