-- ==== Sys2Proof/Laws/Delivery.lean ====
section
/-! SUPPORT. What delivery does: one lemma for each kind of gate, in the terms of Safety (spec/60_exceptions.md rules R2020 to
R2029). -/

namespace Sys2Proof.Machine

variable {s t u v w : State} {e : Event} {g : Gate} {cs : SegLoad}

theorem typ_bit (x : BitVec 4) (i : Nat) (h : i = 1 ∨ i = 2 ∨ i = 3) : (x ||| 1).getLsbD i = x.getLsbD i := by
  rcases h with rfl | rfl | rfl <;> revert x <;> decide

theorem ofDesc_isCode (sel : BitVec 16) (a : Word) (d : BitVec 128) : (SegLoad.ofDesc sel a d).cache.isCode = (descCache sel d).isCode := by
  unfold SegCache.isCode SegLoad.ofDesc
  dsimp only
  rw [typ_bit _ _ (by simp)]
theorem ofDesc_writable (sel : BitVec 16) (a : Word) (d : BitVec 128) :
    (SegLoad.ofDesc sel a d).cache.writable = (descCache sel d).writable := by
  unfold SegCache.writable SegLoad.ofDesc
  dsimp only
  rw [typ_bit _ _ (by simp), typ_bit _ _ (by simp)]
theorem ofDesc_goesInner (s : State) (sel : BitVec 16) (a : Word) (d : BitVec 128) :
    s.goesInner (SegLoad.ofDesc sel a d).cache = s.goesInner (descCache sel d) := by
  unfold State.goesInner SegLoad.ofDesc
  dsimp only
  rw [typ_bit _ _ (by simp)]

theorem deliverReal_passes (h : RealDelivered e s t) : Passes (deliverReal e) s () t := by
  obtain ⟨hp, hl, hr, ass, fin, v, p, u, entry, h1, rfl, h2, rfl⟩ := h
  have a1 := pushSlots_accessOnly h1
  have hf : u.flags = s.flags := by
    have a2 := sysRead_accessOnly h2
    exact a2.flags.trans a1.flags
  refine passes_bind (passes_get s) (passes_bind (passes_ensure (decide_eq_true hl) s) (passes_bind (passes_ensure hr s)
    (passes_bind (pushList_passes h1) (passes_bind h2 (passes_bind rfl (passes_bind rfl ((passes_modify _ _).of_eq ?_)))))))
  rw [← hf]; rfl

theorem innerStack_passes {dpl : BitVec 2} {ext : Bool} {ss : SegLoad} {esp : Word} (h : InnerStack dpl s ss esp u) :
    Passes (innerStack dpl ext) s (ss, esp) u := by
  unfold InnerStack at h
  obtain ⟨hl, sel, x, a, d, u1, u2, h1, h2, rfl, hn, hr, ha, h3, rfl, hd, hw, hp⟩ := h
  unfold innerStack
  refine passes_bind (passes_get s) (passes_bind (passes_ensure ?_ s) (passes_bind h1 (passes_bind h2
    (passes_bind (passes_ensure (by rw [hn]; rfl) _) (passes_bind (passes_ensure (decide_eq_true hr) _)
    (passes_bind (fetchDesc_passes ha h3) (passes_bind (passes_ensure ?_ _) (passes_bind (passes_ensure hp _) rfl))))))))
  · generalize s.sys.tr.typ.getLsbD 3 = b at hl ⊢
    cases b <;> exact decide_eq_true hl
  · rw [ofDesc_writable] at hw
    exact Bool.and_eq_true_iff.2 ⟨decide_eq_true hd, hw⟩

theorem tssWord_passes {off : Nat} {ext : Bool} {x : Word} (h : TssWord off s x u) : Passes (tssWord off ext) s x u := by
  obtain ⟨hl, h1, h2, x, h3, rfl⟩ := h
  exact passes_bind (passes_get s) (passes_bind (passes_ensure (decide_eq_true hl) s)
    (passes_bind (passes_ensure (by rw [h1, h2]; rfl) s) (passes_bind h3 rfl)))

theorem deliverLegacyGate_passes (h : LegacyDelivered e g cs s t) : Passes (deliverLegacyGate e g cs) s () t := by
  unfold LegacyDelivered at h
  obtain ⟨ss, esp, u, u0, size, fin, v, hs, rfl, rfl, hr, ho, ⟨sas, cas, as1, as2, sp1, u1, u2, u3, u4, h1, h2, h3, h4, rfl⟩, rfl⟩ := h
  unfold deliverLegacyGate
  refine passes_bind (passes_get s) ?_
  cases hi : s.goesInner cs.cache with
  | true =>
    simp only [hi, if_true] at hs hr h1 h2 h4 ⊢
    refine passes_bind (a := some (ss, esp)) (t := u) (passes_bind (innerStack_passes hs) rfl) ?_
    exact passes_bind rfl (passes_bind (passes_get _) (passes_bind (passes_ensure hr _) (passes_bind
      (passes_ensure (decide_eq_true ho) _) (passes_bind h1 (passes_bind h2 (passes_bind h3 (passes_bind h4 (passes_bind rfl
      (passes_bind (pushStore_stored _ _ _) (passes_bind rfl (passes_bind (pushStore_stored _ _ _) rfl)))))))))))
  | false =>
    simp only [hi, Bool.false_eq_true, if_false] at hs hr h1 h2 h4 ⊢
    obtain ⟨rfl, rfl, rfl⟩ := hs
    refine passes_bind (a := none) (t := u) rfl ?_
    exact passes_bind rfl (passes_bind (passes_get _) (passes_bind (passes_ensure hr _) (passes_bind
      (passes_ensure (decide_eq_true ho) _) (passes_bind h1 (passes_bind h2 (passes_bind h3 (passes_bind h4 (passes_bind rfl
      (passes_bind (pushStore_stored _ _ _) (passes_bind rfl (passes_bind (pushStore_stored _ _ _) rfl)))))))))))

theorem marked_nil (s : State) : s.marked [] = s := by
  show { s with act := { s.act with monitorArmed := s.act.monitorArmed && !(s.act.monitorArmed && false) } } = s
  simp

/-- Delivery at the same level outside virtual-8086 mode (rule R2028). -/
theorem deliverSame_passes {n : Nat} {as1 as2 : List (List Nat)} {cas : List Nat} {sp fin : Word} (hv : s.flags.vm = false)
    (hi : cs.cache.typ.getLsbD 2 = true ∨ s.cpl ≤ cs.cache.dpl) (hn : n = if g.is32 then 4 else 2)
    (hr : s.pushRoom (s.segOf .ss) s.stackSize s.sp ([n, n, n] ++ (e.codeItem n).map (·.1)) = true)
    (ho : g.off.toNat ≤ cs.cache.limit.toNat)
    (h1 : Passes (pushPlan (s.segOf .ss) s.stackSize (decide (s.cpl = 3)) (decide (g.dpl = 3)) s.sp [n, n, n]) s (as1, sp) u)
    (h2 : Passes cs.resolve u cas v)
    (h3 : Passes (pushPlan (s.segOf .ss) s.stackSize (decide (s.cpl = 3)) (decide (g.dpl = 3)) sp ((e.codeItem n).map (·.1))) v
      (as2, fin) w) :
    Passes (deliverLegacyGate e g cs) s ()
      { ((((w.stored as1 [(e.flagsImage s).toNat % 2 ^ (8 * n), (e.cs s).toNat, e.ret.toNat % 2 ^ (8 * n)]).marked cas).stored as2
          ((e.codeItem n).map (·.2))).setSp s.stackSize fin).withCode cs s.cpl g.off with
        flags := s.flags.afterGate g } := by
  subst hn
  have hin : s.goesInner cs.cache = false := by
    unfold State.goesInner
    rcases hi with h | h
    · rw [h]; rfl
    · rw [decide_eq_false (by simpa using h), Bool.and_false]
  have e1 : { s with flags := { s.flags with vm := false }, cpl := s.cpl } = s := by rw [← hv]
  have ha := (pushPlan_accessOnly h1).trans ((resolve_accessOnly' h2).trans (pushPlan_accessOnly h3))
  have hf : (if s.goesInner cs.cache then cs.cache.dpl else s.cpl) = s.cpl := if_neg (by rw [hin]; decide)
  have hs : (if s.goesInner cs.cache then some (SegLoad.plain (s.segOf .ss), s.gp rSP) else none) = none :=
    if_neg (by rw [hin]; decide)
  have hp : e.parts s (if g.is32 then 4 else 2) (s.goesInner cs.cache) =
      (e.frame s (if g.is32 then 4 else 2), e.codeItem (if g.is32 then 4 else 2)) := by
    unfold Event.parts; rw [hv, hin]; rfl
  have h : LegacyDelivered e g cs s (State.enterGate (((((w.marked []).stored as1
      ((e.frame s (if g.is32 then 4 else 2)).map (·.2))).marked cas).stored as2
      ((e.codeItem (if g.is32 then 4 else 2)).map (·.2)))) s.flags.vm g cs s.cpl none s.stackSize fin) := by
    unfold LegacyDelivered
    refine ⟨.plain (s.segOf .ss), s.gp rSP, s, s, s.stackSize, fin, ((((w.marked []).stored as1
      ((e.frame s (if g.is32 then 4 else 2)).map (·.2))).marked cas).stored as2
      ((e.codeItem (if g.is32 then 4 else 2)).map (·.2))), ?_, ?_, rfl, ?_, ho, ?_, ?_⟩
    · rw [if_neg (by rw [hin]; decide)]; exact ⟨rfl, rfl, rfl⟩
    · rw [hf, e1]
    · rw [hp]; exact hr
    · rw [hp, hf]; exact ⟨[], cas, as1, as2, sp, s, u, v, w, rfl, h1, h2, h3, rfl⟩
    · rw [hf, hs]
  refine (deliverLegacyGate_passes h).of_eq ?_
  obtain ⟨m, p, q, rfl⟩ := ha
  rw [marked_nil, hv]
  rfl

theorem deliverLongGate_passes (h : LongDelivered e g cs s t) : Passes (deliverLongGate e g cs) s () t := by
  unfold LongDelivered at h
  obtain ⟨rsp, u, fin, v, hs, hc, ho, ⟨sas, cas, as1, as2, sp1, u1, u2, u3, u4, h1, h2, h3, h4, rfl⟩, rfl⟩ := h
  cases h1
  rw [marked_nil]
  unfold deliverLongGate
  refine passes_bind (passes_get s) (passes_bind (a := rsp) (t := u) ?_ (passes_bind (passes_ensure hc _)
    (passes_bind (passes_ensure ho _) ?_)))
  · split at hs
    · rename_i hg; exact passes_if_pos hg (tssWord_passes hs)
    · rename_i hg
      refine passes_if_neg hg ?_
      split at hs
      · rename_i hi; refine passes_if_pos hi ?_; rw [if_pos hi]; exact tssWord_passes hs
      · rename_i hi; obtain ⟨rfl, rfl⟩ := hs; exact passes_if_neg hi rfl
  · cases hi : s.goesInner cs.cache with
    | true =>
      simp only [hi, if_true] at h2 h4 ⊢
      exact passes_bind rfl (passes_bind h2 (passes_bind h3 (passes_bind h4 (passes_bind (pushStore_stored _ _ _)
        (passes_bind rfl (passes_bind (pushStore_stored _ _ _) rfl))))))
    | false =>
      simp only [hi, Bool.false_eq_true, if_false] at h2 h4 ⊢
      exact passes_bind rfl (passes_bind h2 (passes_bind h3 (passes_bind h4 (passes_bind (pushStore_stored _ _ _)
        (passes_bind rfl (passes_bind (pushStore_stored _ _ _) rfl))))))

/-- The gate's code segment is fetched and serves: delivery goes on through the gate of the mode. -/
theorem deliverGate_passes (hd : GateSegment s g cs u) (hs : SegmentServes s cs.cache) (hp : cs.cache.p = true)
    (hv : FromV86Ok s cs.cache) (h : if s.lma then LongDelivered e g cs u t else LegacyDelivered e g cs u t) :
    Passes (deliverGate e s.lma g) s () t := by
  obtain ⟨hn, a, d, ha, hx, rfl⟩ := hd
  unfold SegmentServes at hs
  unfold FromV86Ok at hv
  rw [ofDesc_isCode] at hs
  rw [ofDesc_goesInner] at hv
  obtain ⟨h1, h2, h3⟩ := hs
  unfold deliverGate
  refine passes_bind (passes_get s) (passes_bind (passes_ensure (by rw [hn]; rfl) s) (passes_bind (fetchDesc_passes ha hx) ?_))
  refine passes_bind (passes_ensure (Bool.and_eq_true_iff.2 ⟨h1, decide_eq_true h2⟩) _) (passes_bind (passes_ensure ?_ _)
    (passes_bind (passes_ensure hp _) (passes_bind (passes_ensure ?_ _) ?_)))
  · cases hm : s.lma with
    | false => rfl
    | true =>
      obtain ⟨hl, hb⟩ := h3 hm
      show (false || ((descCache g.sel (BitVec.ofNat 128 d)).l && !(descCache g.sel (BitVec.ofNat 128 d)).db)) = true
      rw [show (descCache g.sel (BitVec.ofNat 128 d)).l = true from hl, show (descCache g.sel (BitVec.ofNat 128 d)).db = false from hb]
      rfl
  · cases hm : s.flags.vm with
    | false => rfl
    | true =>
      obtain ⟨hi, h0⟩ := hv hm
      rw [hi, decide_eq_true (show (descCache g.sel (BitVec.ofNat 128 d)).dpl = 0 from h0)]; rfl
  · cases hm : s.lma with
    | false => rw [hm] at h; exact passes_if_neg (by decide) (deliverLegacyGate_passes h)
    | true => rw [hm] at h; exact passes_if_pos rfl (deliverLongGate_passes h)

/-- The entry of the table is read and serves: delivery goes on through its gate. -/
theorem deliverTable_passes (h1 : IdtEntry e s g u) (h2 : GateServes e s g) (h : Passes (deliverGate e s.lma g) u () t) :
    Passes (deliverTable e s.lma) s () t := by
  unfold IdtEntry at h1
  obtain ⟨hi, hl, d, hd, rfl⟩ := h1
  obtain ⟨ht, hs, hp⟩ := h2
  unfold Gate.isTransfer at ht
  obtain ⟨hts, ht⟩ := Bool.and_eq_true_iff.1 ht
  unfold deliverTable
  refine passes_bind (passes_get s) (passes_bind (passes_ensure ?_ s) (passes_bind (passes_ensure (decide_eq_true hl) s)
    (passes_bind hd (passes_bind (passes_ensure ?_ _) (passes_bind (passes_ensure ?_ _) (passes_bind (passes_ensure hp _)
    (passes_if_neg ?_ h)))))))
  · cases hm : s.lma with
    | false => rfl
    | true =>
      by_cases hk : e.kind = .into
      · rw [hi hm hk, decide_eq_true hk]; rfl
      · rw [decide_eq_false hk]; rfl
  · refine Bool.and_eq_true_iff.2 ⟨hts, ?_⟩
    cases hm : s.lma with
    | true => rw [hm] at ht; exact ht
    | false =>
      rw [hm] at ht
      simp only [Bool.not_false, Bool.true_and, Bool.or_eq_true, decide_eq_true_iff] at ht ⊢
      tauto
  · cases hk : e.isSoft with
    | false => rfl
    | true => rw [decide_eq_false (by simpa using hs hk)]; rfl
  · intro h5
    rw [h5] at ht
    revert ht
    cases s.lma <;> decide

/-- Delivery that no check stops leaves the state `Delivered` says. -/
theorem deliverOnce_passes (h : Delivered e s t) : Passes (deliverOnce e) s () t := by
  obtain ⟨w, rfl, h⟩ := h
  unfold deliverOnce
  refine passes_bind (passes_get s) ?_
  rcases h with h | ⟨⟨hp, hv⟩, g, cs, u, v, h1, h2, h3, h4, h5, h6, h7⟩
  · exact passes_if_pos (by rw [h.1]; rfl) (passes_bind (deliverReal_passes h) rfl)
  · have hu : u.lma = s.lma := by obtain ⟨-, -, d, hd, -⟩ := h1; obtain ⟨m, p, q, rfl⟩ := sysRead_accessOnly hd; rfl
    have hd := deliverTable_passes h1 h2 (by rw [← hu] at h7 ⊢; exact deliverGate_passes h3 h4 h5 h6 h7)
    refine passes_if_neg (by rw [hp]; decide) (passes_if_neg ?_ ?_)
    · cases hm : s.flags.vm with
      | false => simp
      | true =>
        by_cases hk : e.kind = .softInt
        · simp [hv hm hk]
        · simp [hk]
    · cases hm : s.lma with
      | false => rw [hm] at hd; exact passes_if_pos rfl (passes_bind hd rfl)
      | true => rw [hm] at hd; exact passes_if_neg (by decide) (passes_bind hd rfl)

/-! Events whose delivery a check stops. -/

/-- An exception outside a transaction is delivered, a page fault after CR2 took its address (rules R2014, R2020). -/
theorem takeException_delivers {x : Exc} {y : State} (hr : s.rtm.snapshot = none) (hy : y = s.noteCr2 x)
    (h : Delivered (x.event y) y t) : takeException x s = .next t := by
  subst hy
  unfold takeException
  rw [if_neg (by rw [hr]; decide)]
  exact deliver_passes (deliverOnce_passes h)

theorem deliverTable_limit (hi : s.lma = true → e.kind = .into → s.isLong = false) {n : Nat} (hn : n = if s.lma then 16 else 8)
    (h : ¬ e.vec.toNat * n + (n - 1) ≤ s.sys.idtr.limit.toNat) :
    Raises (deliverTable e s.lma) s { vec := 13, code := some (idtCode e.vec e.ext) } s := by
  subst hn
  refine raises_after (passes_get s) (raises_after (passes_ensure ?_ s) (raises_bind (raises_ensure (decide_eq_false h) rfl)))
  cases hm : s.lma with
  | false => rfl
  | true =>
    by_cases hk : e.kind = .into
    · rw [hi hm hk, decide_eq_true hk]; rfl
    · rw [decide_eq_false hk]; rfl

/-- What follows the read of the table entry. -/
theorem deliverTable_entry {x : Exc} (h1 : IdtEntry e s g u)
    (h : Raises (do
      ensure (!g.s && (decide (g.typ = 14 ∨ g.typ = 15) || (!s.lma && decide (g.typ = 5 ∨ g.typ = 6 ∨ g.typ = 7))))
        (raiseGP (idtCode e.vec e.ext))
      ensure (!(e.isSoft && decide (g.dpl < s.cpl))) (raiseGP (idtCode e.vec e.ext))
      ensure g.p (raiseNP (idtCode e.vec e.ext))
      if g.typ = 5 then taskGate g.sel e.ext else deliverGate e s.lma g : M Unit) u x v) :
    Raises (deliverTable e s.lma) s x v := by
  unfold IdtEntry at h1
  obtain ⟨hi, hl, d, hd, rfl⟩ := h1
  unfold deliverTable
  refine raises_after (passes_get s) (raises_after (passes_ensure ?_ s) (raises_after (passes_ensure (decide_eq_true hl) s)
    (raises_after hd h)))
  cases hm : s.lma with
  | false => rfl
  | true =>
    by_cases hk : e.kind = .into
    · rw [hi hm hk, decide_eq_true hk]; rfl
    · rw [decide_eq_false hk]; rfl

theorem Gate.isTransfer_type {b : Bool} (h : g.isTransfer b = true) :
    (!g.s && (decide (g.typ = 14 ∨ g.typ = 15) || (!b && decide (g.typ = 5 ∨ g.typ = 6 ∨ g.typ = 7)))) = true ∧ g.typ ≠ 5 := by
  unfold Gate.isTransfer at h
  obtain ⟨hs, ht⟩ := Bool.and_eq_true_iff.1 h
  rw [hs]
  clear h hs
  generalize g.typ = ty at ht ⊢
  revert ht
  revert ty b
  decide

theorem deliverTable_type (h1 : IdtEntry e s g u) (h : g.isTransfer s.lma = false)
    (h5 : ¬ (s.lma = false ∧ g.s = false ∧ g.typ = 5)) :
    Raises (deliverTable e s.lma) s { vec := 13, code := some (idtCode e.vec e.ext) } u := by
  refine deliverTable_entry h1 (raises_bind (raises_ensure ?_ rfl))
  unfold Gate.isTransfer at h
  generalize g.typ = ty at h h5 ⊢
  generalize g.s = b at h h5 ⊢
  generalize s.lma = c at h h5 ⊢
  revert h h5
  revert ty b c
  decide

theorem passes_softOk (hs : e.isSoft = true → s.cpl ≤ g.dpl) (m : M Unit) (u : State) :
    Passes (ensure (!(e.isSoft && decide (g.dpl < s.cpl))) m) u () u := by
  refine passes_ensure ?_ _
  cases hk : e.isSoft with
  | false => rfl
  | true => rw [decide_eq_false (by simpa using hs hk)]; rfl

theorem deliverTable_dpl (h1 : IdtEntry e s g u) (h : g.isTransfer s.lma = true) (hs : e.isSoft = true) (hd : g.dpl < s.cpl) :
    Raises (deliverTable e s.lma) s { vec := 13, code := some (idtCode e.vec e.ext) } u :=
  deliverTable_entry h1 (raises_after (passes_ensure (Gate.isTransfer_type h).1 _)
    (raises_bind (raises_ensure (by rw [hs, decide_eq_true hd]; rfl) rfl)))

theorem deliverTable_absent (h1 : IdtEntry e s g u) (h : g.isTransfer s.lma = true) (hs : e.isSoft = true → s.cpl ≤ g.dpl)
    (hp : g.p = false) : Raises (deliverTable e s.lma) s { vec := 11, code := some (idtCode e.vec e.ext) } u :=
  deliverTable_entry h1 (raises_after (passes_ensure (Gate.isTransfer_type h).1 _) (raises_after (passes_softOk hs _ _)
    (raises_bind (raises_ensure hp rfl))))

theorem deliverTable_gate {x : Exc} (h1 : IdtEntry e s g u) (h : GateServes e s g) (hx : Raises (deliverGate e s.lma g) u x v) :
    Raises (deliverTable e s.lma) s x v :=
  deliverTable_entry h1 (raises_after (passes_ensure (Gate.isTransfer_type h.1).1 _) (raises_after (passes_softOk h.2.1 _ _)
    (raises_after (passes_ensure h.2.2 _) (raises_if_neg (Gate.isTransfer_type h.1).2 hx))))

theorem deliverGate_null (hn : isNull g.sel = true) (b : Bool) :
    Raises (deliverGate e b g) s { vec := 13, code := some (extCode e.ext) } s :=
  raises_after (passes_get s) (raises_bind (raises_ensure (by rw [hn]; rfl) rfl))

theorem deliverGate_noDesc (hn : isNull g.sel = false) (ha : s.descAddr g.sel 8 = none) (b : Bool) :
    Raises (deliverGate e b g) s { vec := 13, code := some (selCode g.sel e.ext) } s := by
  refine raises_after (passes_get s) (raises_after (passes_ensure (by rw [hn]; rfl) s) (raises_after (a := none) (t := s) ?_ rfl))
  refine passes_bind (passes_get s) ?_
  rw [ha]; rfl

/-- What follows the read of the code segment. -/
theorem deliverGate_segment {x : Exc} (hd : GateSegment s g cs u) (h : Raises (do
      ensure (cs.cache.isCode && decide (cs.cache.dpl ≤ s.cpl)) (raiseGP (selCode g.sel e.ext))
      ensure (!s.lma || (cs.cache.l && !cs.cache.db)) (raiseGP (selCode g.sel e.ext))
      ensure cs.cache.p (raiseNP (selCode g.sel e.ext))
      ensure (!s.flags.vm || (s.goesInner cs.cache && decide (cs.cache.dpl = 0))) (raiseGP (selCode g.sel e.ext))
      if s.lma then deliverLongGate e g cs else deliverLegacyGate e g cs : M Unit) u x v) :
    Raises (deliverGate e s.lma g) s x v := by
  obtain ⟨hn, a, d, ha, hx, rfl⟩ := hd
  rw [ofDesc_isCode, ofDesc_goesInner] at h
  exact raises_after (passes_get s) (raises_after (passes_ensure (by rw [hn]; rfl) s) (raises_after (fetchDesc_passes ha hx) h))

theorem deliverGate_serves (h : ¬ SegmentServes s cs.cache) (hd : GateSegment s g cs u) :
    Raises (deliverGate e s.lma g) s { vec := 13, code := some (selCode g.sel e.ext) } u := by
  refine deliverGate_segment hd ?_
  by_cases h1 : (cs.cache.isCode && decide (cs.cache.dpl ≤ s.cpl)) = true
  · refine raises_after (passes_ensure h1 _) (raises_bind (raises_ensure ?_ rfl))
    obtain ⟨h1, h2⟩ := Bool.and_eq_true_iff.1 h1
    unfold SegmentServes at h
    cases hm : s.lma with
    | false => exact absurd ⟨h1, of_decide_eq_true h2, fun h => by rw [hm] at h; cases h⟩ h
    | true =>
      cases hl : cs.cache.l with
      | false => rfl
      | true =>
        cases hb : cs.cache.db with
        | true => rfl
        | false => exact absurd ⟨h1, of_decide_eq_true h2, fun _ => ⟨hl, hb⟩⟩ h
  · exact raises_bind (raises_ensure (by simpa using h1) rfl)

theorem passes_serves {α : Type} {r : M α} {x : Exc} (h : SegmentServes s cs.cache) (m : M Unit)
    (h2 : Raises r u x v) : Raises (do
      ensure (cs.cache.isCode && decide (cs.cache.dpl ≤ s.cpl)) m
      ensure (!s.lma || (cs.cache.l && !cs.cache.db)) m
      r) u x v := by
  obtain ⟨h1, hd, hl⟩ := h
  refine raises_after (passes_ensure (by rw [h1, decide_eq_true hd]; rfl) _) (raises_after (passes_ensure ?_ _) h2)
  cases hm : s.lma with
  | false => rfl
  | true => rw [(hl hm).1, (hl hm).2]; rfl

theorem deliverGate_absent (h : SegmentServes s cs.cache) (hp : cs.cache.p = false) (hd : GateSegment s g cs u) :
    Raises (deliverGate e s.lma g) s { vec := 11, code := some (selCode g.sel e.ext) } u :=
  deliverGate_segment hd (passes_serves h _ (raises_bind (raises_ensure hp rfl)))

theorem deliverGate_v86 (h : SegmentServes s cs.cache) (hp : cs.cache.p = true) (hv : ¬ FromV86Ok s cs.cache)
    (hd : GateSegment s g cs u) : Raises (deliverGate e s.lma g) s { vec := 13, code := some (selCode g.sel e.ext) } u := by
  refine deliverGate_segment hd (passes_serves h _ (raises_after (passes_ensure hp _) (raises_bind (raises_ensure ?_ rfl))))
  unfold FromV86Ok at hv
  simp only [Classical.not_imp] at hv
  obtain ⟨hm, hv⟩ := hv
  rw [hm]
  cases hi : s.goesInner cs.cache with
  | false => rfl
  | true => rw [decide_eq_false (fun h0 => hv ⟨hi, h0⟩)]; rfl

theorem deliverOnce_raises {x : Exc} (h : GateOpen e s) (hx : Raises (deliverTable e s.lma) s x u) :
    Raises (deliverOnce e) s x u := by
  obtain ⟨hp, hv⟩ := h
  unfold deliverOnce
  refine raises_after (passes_get s) (raises_if_neg (by rw [hp]; decide) (raises_if_neg ?_ ?_))
  · cases hm : s.flags.vm with
    | false => simp
    | true =>
      by_cases hk : e.kind = .softInt
      · simp [hv hm hk]
      · simp [hk]
  · cases hm : s.lma with
    | false => rw [hm] at hx; exact raises_if_pos rfl (raises_bind hx)
    | true => rw [hm] at hx; exact raises_if_neg (by decide) (raises_bind hx)

theorem deliverOnce_iopl (hp : s.pe = true) (hm : s.flags.vm = true) (hk : e.kind = .softInt) (hi : s.flags.iopl ≠ 3) :
    Raises (deliverOnce e) s { vec := 13, code := some 0 } s := by
  unfold deliverOnce
  exact raises_after (passes_get s) (raises_if_neg (by rw [hp]; decide) (raises_if_pos (by rw [hm, hk, decide_eq_true hi]; rfl) (raises_bind rfl)))

/-- A delivery that raises a second exception delivers that one, from the registers as they were (decision D79). -/
theorem deliver_raises {b : Nat} {x y : Exc} (h : Raises (deliverOnce e) s x u) (hn : x.nestedIn e = y)
    (hk : nestingOf e y.vec = .second) :
    deliver (b + 1) e s =
      deliver b (y.event ({ s with mem := u.mem, free := u.free }.noteCr2 y)) ({ s with mem := u.mem, free := u.free }.noteCr2 y) := by
  rw [deliver, show (deliverOnce e).run s = _ from h]
  dsimp only
  rw [hn, hk]

/-- A software interrupt whose delivery raises an exception delivers that exception. -/
theorem takeSoftware_raises {k : EventKind} {n : BitVec 8} {x : Exc} (hr : s.rtm.snapshot = none) (hk : k ≠ .exception)
    (hx : x.vec ≠ 12 ∧ x.vec ≠ 17) (hc : x.cr2 = none) (ha : AccessOnly s.softBegin u)
    (h : Raises (deliverOnce { kind := k, vec := n, ret := s.ripNext }) s.softBegin x u) :
    takeSoftware k n s = deliver 31 (x.event { s.softBegin with mem := u.mem }) { s.softBegin with mem := u.mem } := by
  have hn : x.nestedIn { kind := k, vec := n, ret := s.ripNext } = x :=
    if_neg (fun h => h.elim hx.1 hx.2)
  have hne : nestingOf { kind := k, vec := n, ret := s.ripNext } x.vec = .second := if_neg hk
  have h1 : State.noteCr2 { s.softBegin with mem := u.mem, free := u.free } x = { s.softBegin with mem := u.mem } := by
    unfold State.noteCr2
    rw [hc, ha.free]
  have h2 := deliver_raises (b := 31) h hn hne
  rw [h1] at h2
  rw [← h2]
  unfold takeSoftware
  rw [if_neg (by rw [hr]; decide)]
  rfl

end Sys2Proof.Machine
end

