-- ==== Sys2Proof/Laws/Memory.lean ====
section
/-! SUPPORT. Every memory operation keeps the canonical form, and what it reads back (spec/20_memory.md rule R200). -/

namespace Sys2Proof.Machine

theorem Memory.above_mono {lo lo' : Nat} {m : Memory} (h : lo ≤ lo') (ha : m.above lo' = true) : m.above lo = true := by
  cases m with
  | nil => rfl
  | cons c t => exact decide_eq_true (Nat.lt_of_le_of_lt h (of_decide_eq_true ha))

theorem Memory.wf_cons {c : Host.Cell} {t : Memory} :
    Memory.wf (c :: t) = true ↔ c.2 ≠ Memory.unlisted ∧ Memory.above c.1 t = true ∧ Memory.wf t = true := by
  show (_ && _ && _) = true ↔ _
  rw [Bool.and_eq_true, Bool.and_eq_true, decide_eq_true_iff, and_assoc]

theorem Memory.write_above {lo a : Nat} {b : Byte} (m : Memory) (hm : m.wf = true) (h : m.above lo = true) (ha : lo < a) :
    (m.write a b).above lo = true := by
  cases m with
  | nil => unfold Memory.write; split; · rfl
           · exact decide_eq_true ha
  | cons c t =>
    unfold Memory.write
    split
    · split
      · exact h
      · exact decide_eq_true ha
    · split
      · split
        · exact Memory.above_mono (Nat.le_of_lt (of_decide_eq_true h)) (Memory.wf_cons.1 hm).2.1
        · exact decide_eq_true ha
      · exact h

/-- A write keeps the canonical form. -/
theorem Memory.write_wf (m : Memory) (a : Nat) (b : Byte) (h : m.wf = true) : (m.write a b).wf = true := by
  induction m with
  | nil =>
    unfold Memory.write
    split
    · rfl
    · rename_i hb; exact Memory.wf_cons.2 ⟨hb, rfl, rfl⟩
  | cons c t ih =>
    obtain ⟨h1, h2, h3⟩ := Memory.wf_cons.1 h
    unfold Memory.write
    split
    · rename_i hl
      split
      · exact h
      · rename_i hb; exact Memory.wf_cons.2 ⟨hb, decide_eq_true hl, h⟩
    · rename_i hl
      split
      · rename_i he
        split
        · exact h3
        · rename_i hb; exact Memory.wf_cons.2 ⟨hb, by rw [he]; exact h2, h3⟩
      · rename_i he
        exact Memory.wf_cons.2 ⟨h1, Memory.write_above t h3 h2 (by omega), ih h3⟩

theorem Memory.read_above {lo a : Nat} {m : Memory} (hm : m.wf = true) (h : m.above lo = true) (ha : a ≤ lo) :
    m.read a = Memory.unlisted := by
  induction m generalizing lo with
  | nil => rfl
  | cons c t ih =>
    have hc : lo < c.1 := of_decide_eq_true h
    unfold Memory.read
    rw [if_neg (by omega)]
    exact ih (Memory.wf_cons.1 hm).2.2 (Memory.wf_cons.1 hm).2.1 (by omega)

/-- A byte written is read back. -/
theorem Memory.read_write_same (m : Memory) (a : Nat) (b : Byte) (h : m.wf = true) : (m.write a b).read a = b := by
  induction m with
  | nil => unfold Memory.write; split
           · rename_i hb; exact hb.symm
           · exact if_pos rfl
  | cons c t ih =>
    obtain ⟨-, h2, h3⟩ := Memory.wf_cons.1 h
    unfold Memory.write
    split
    · rename_i hl
      split
      · rename_i hb
        rw [hb]
        refine Memory.read_above (lo := a) h ?_ (Nat.le_refl a)
        exact decide_eq_true hl
      · exact if_pos rfl
    · split
      · rename_i he
        split
        · rename_i hb; rw [hb]; exact Memory.read_above h3 h2 (by omega)
        · exact if_pos rfl
      · rename_i he
        unfold Memory.read
        rw [if_neg (fun e => he e.symm)]
        exact ih h3

/-- A write leaves every other byte alone. -/
theorem Memory.read_write_other (m : Memory) {a x : Nat} (b : Byte) (h : m.wf = true) (hx : x ≠ a) :
    (m.write a b).read x = m.read x := by
  induction m with
  | nil => unfold Memory.write; split
           · rfl
           · exact if_neg (fun e => hx e.symm)
  | cons c t ih =>
    obtain ⟨-, h2, h3⟩ := Memory.wf_cons.1 h
    unfold Memory.write
    split
    · split
      · rfl
      · exact if_neg (fun e => hx e.symm)
    · split
      · rename_i he
        have hr : Memory.read (c :: t) x = Memory.read t x := if_neg (fun e => hx (by omega))
        split
        · exact hr.symm
        · exact (if_neg (fun e => hx e.symm)).trans hr.symm
      · unfold Memory.read
        split
        · rfl
        · exact ih h3

/-- A store of several bytes keeps the canonical form. -/
theorem Memory.writeList_wf (m : Memory) (as : List Nat) (v : Nat) (h : m.wf = true) : (m.writeList as v).wf = true := by
  induction as generalizing m v with
  | nil => exact h
  | cons a as ih => exact ih _ _ (Memory.write_wf m a _ h)

/-- A store leaves every byte outside its addresses alone. -/
theorem Memory.read_writeList_other (m : Memory) (as : List Nat) (v : Nat) {x : Nat} (h : m.wf = true) (hx : x ∉ as) :
    (m.writeList as v).read x = m.read x := by
  induction as generalizing m v with
  | nil => rfl
  | cons a as ih =>
    rw [List.mem_cons, not_or] at hx
    exact (ih _ _ (Memory.write_wf m a _ h) hx.2).trans (Memory.read_write_other m _ h hx.1)

/-- Setting accessed and dirty bits keeps the canonical form. -/
theorem Memory.markUsed_wf (m : Memory) (w : Bool) (as : List Nat) (h : m.wf = true) : (m.markUsed w as).wf = true := by
  cases as with
  | nil => exact h
  | cons a as =>
    show (List.foldl _ (m.write a _) as).wf = true
    have h1 := Memory.write_wf m a (m.read a ||| (if w then 0x60 else 0x20)) h
    generalize m.write a _ = m1 at h1 ⊢
    induction as generalizing m1 with
    | nil => exact h1
    | cons b as ih => exact ih _ (Memory.write_wf _ _ _ h1)

/-- Storing an instruction's bytes keeps the canonical form. -/
theorem Memory.storeBytes_wf (m : Memory) (as : List (Option Nat)) (bs : List Byte) (h : m.wf = true) :
    (m.storeBytes as bs).wf = true := by
  induction as generalizing m bs with
  | nil => cases bs <;> exact h
  | cons a as ih =>
    cases bs with
    | nil => cases a <;> exact h
    | cons b bs =>
      cases a with
      | none => exact ih m bs h
      | some a => exact ih _ bs (Memory.write_wf m a b h)

/-- A store to memory keeps the canonical form of memory. -/
theorem State.physWrite_wf (s : State) (as : List Nat) (v : Nat) (h : s.mem.wf = true) : (s.physWrite as v).mem.wf = true :=
  Memory.writeList_wf s.mem as v h

/-- The memory of the reset state has the canonical form. -/
theorem State.reset_mem_wf : State.reset.mem.wf = true := rfl

end Sys2Proof.Machine
end

