-- ==== Sys2Proof/Laws/Strings.lean ====
section
/-! SUPPORT. What one element of a string instruction, and one iteration of a repeated one, do. -/

namespace Sys2Proof.Machine

variable {s t u : State} {w : Width} {a : ASize} {r : SReg}

theorem movs_passes (h : MovsDone w a r s t) : Passes (movsItem w a r) s () t := by
  obtain ⟨v, u, as, x, h1, h2, rfl⟩ := h
  exact passes_bind rfl (passes_bind h1 (passes_bind rfl (passes_bind (passes_bind h2 rfl) rfl)))

theorem cmps_passes (h : CmpsDone w a r s t) : Passes (cmpsItem w a r) s () t := by
  obtain ⟨v, u, y, x, h1, h2, rfl⟩ := h
  exact passes_bind rfl (passes_bind h1 (passes_bind rfl (passes_bind h2 rfl)))

theorem lods_passes (h : LodsDone w a r s t) : Passes (lodsItem w a r) s () t := by
  obtain ⟨v, u, h1, rfl⟩ := h
  exact passes_bind rfl (passes_bind h1 rfl)

theorem stos_passes (h : StosDone w a s t) : Passes (stosItem w a) s () t := by
  obtain ⟨as, x, h1, rfl⟩ := h
  exact passes_bind rfl (passes_bind rfl (passes_bind (passes_bind h1 rfl) rfl))

theorem scas_passes (h : ScasDone w a s t) : Passes (scasItem w a) s () t := by
  obtain ⟨y, x, h1, rfl⟩ := h
  exact passes_bind rfl (passes_bind h1 rfl)

theorem ins_passes (h : InsDone w a s t) : Passes (insItem w a) s () t := by
  obtain ⟨u, as, x, h1, h2, rfl⟩ := h
  exact passes_bind (passes_get s) (passes_bind h1 (passes_bind rfl (passes_bind h2 rfl)))

theorem outs_passes (h : OutsDone w a r s t) : Passes (outsItem w a r) s () t := by
  obtain ⟨u, v, x, h1, h2, rfl⟩ := h
  exact passes_bind (passes_get s) (passes_bind h1 (passes_bind rfl (passes_bind h2 rfl)))

theorem repRun_zero {stops : Flags → Bool} {item : M Unit} {n : Word} (hn : n = a.trunc (s.gp rCX)) (h0 : n = 0) :
    repRun a stops item s = .next (s.repBegin.finish s.repBegin.begin) := by
  subst hn
  exact run_of_passes (s := s.repBegin) (passes_bind rfl (passes_if_neg (not_not.2 h0) rfl))

theorem repRun_step {stops : Flags → Bool} {item : M Unit} {n : Word} (hn : n = a.trunc (s.gp rCX)) (h0 : n ≠ 0)
    (h : Passes item s.repBegin.begin () u) : repRun a stops item s = .next (s.repBegin.finish
      (s.repNext (u.setReg a.width rCX ((n - 1).setWidth a.width.bits)) (n - 1) (stops u.flags))) := by
  subst hn
  refine run_of_passes (s := s.repBegin) (passes_bind rfl (passes_if_pos h0 (passes_bind h (passes_bind rfl
    (passes_bind (passes_get _) ?_)))))
  have hs : (a.trunc (s.gp rCX) - 1 ≠ 0) ↔ a.trunc (s.gp rCX) ≠ 1 := by
    constructor
    · intro h e; exact h (by rw [e]; rfl)
    · intro h e; exact h (by
        have := congrArg (· + 1) e
        simpa using this)
  unfold State.repNext
  by_cases hc : a.trunc (s.gp rCX) ≠ 1 ∧ stops u.flags = false
  · refine Passes.of_eq (passes_if_pos hc rfl) ?_
    rw [if_pos ⟨hs.2 hc.1, hc.2⟩]; rfl
  · refine Passes.of_eq (passes_if_neg hc rfl) ?_
    rw [if_neg fun e => hc ⟨hs.1 e.1, e.2⟩]; rfl

theorem rep_zero {o : RepOp} {n : Word} (hn : n = (repSize o).trunc (s.gp rCX)) (h0 : n = 0) :
    exec (.rep o) s = .next (s.repBegin.finish s.repBegin.begin) := by
  show execRep o s = _
  unfold execRep
  cases o with
  | ins o => exact repRun_zero (a := o.a) hn h0
  | movs o => exact repRun_zero (a := o.a) hn h0
  | outs o => exact repRun_zero (a := o.a) hn h0
  | lods o => exact repRun_zero (a := o.a) hn h0
  | stos o => exact repRun_zero (a := o.a) hn h0

theorem rep_step {o : RepOp} {n : Word} (hn : n = (repSize o).trunc (s.gp rCX)) (h0 : n ≠ 0)
    (h : RepDone o s.repBegin.begin u) : exec (.rep o) s = .next (s.repBegin.finish
      (s.repNext (u.setReg (repSize o).width rCX ((n - 1).setWidth (repSize o).width.bits)) (n - 1) false)) := by
  show execRep o s = _
  unfold execRep
  cases o with
  | ins o => exact repRun_step (a := o.a) (stops := fun _ => false) hn h0 (ins_passes h)
  | movs o => exact repRun_step (a := o.a) (stops := fun _ => false) hn h0 (movs_passes h)
  | outs o => exact repRun_step (a := o.a) (stops := fun _ => false) hn h0 (outs_passes h)
  | lods o => exact repRun_step (a := o.a) (stops := fun _ => false) hn h0 (lods_passes h)
  | stos o => exact repRun_step (a := o.a) (stops := fun _ => false) hn h0 (stos_passes h)

theorem cmpItem_passes {o : RepCmpOp} (h : RepCmpDone o s t) : Passes (cmpItem o) s () t := by
  cases o with
  | cmps o => exact cmps_passes h
  | scas o => exact scas_passes h

theorem repe_zero {o : RepCmpOp} {n : Word} (hn : n = (cmpSize o).trunc (s.gp rCX)) (h0 : n = 0) :
    exec (.repe o) s = .next (s.repBegin.finish s.repBegin.begin) :=
  repRun_zero (stops := fun f => !f.zf) (item := cmpItem o) hn h0
theorem repne_zero {o : RepCmpOp} {n : Word} (hn : n = (cmpSize o).trunc (s.gp rCX)) (h0 : n = 0) :
    exec (.repne o) s = .next (s.repBegin.finish s.repBegin.begin) :=
  repRun_zero (stops := fun f => f.zf) (item := cmpItem o) hn h0

theorem repe_step {o : RepCmpOp} {n : Word} (hn : n = (cmpSize o).trunc (s.gp rCX)) (h0 : n ≠ 0)
    (h : RepCmpDone o s.repBegin.begin u) : exec (.repe o) s = .next (s.repBegin.finish
      (s.repNext (u.setReg (cmpSize o).width rCX ((n - 1).setWidth (cmpSize o).width.bits)) (n - 1) (!u.flags.zf))) :=
  repRun_step (stops := fun f => !f.zf) hn h0 (cmpItem_passes h)
theorem repne_step {o : RepCmpOp} {n : Word} (hn : n = (cmpSize o).trunc (s.gp rCX)) (h0 : n ≠ 0)
    (h : RepCmpDone o s.repBegin.begin u) : exec (.repne o) s = .next (s.repBegin.finish
      (s.repNext (u.setReg (cmpSize o).width rCX ((n - 1).setWidth (cmpSize o).width.bits)) (n - 1) u.flags.zf)) :=
  repRun_step (stops := fun f => f.zf) hn h0 (cmpItem_passes h)

theorem ioCheck_free {port : BitVec 16} {n : Nat} (h : s.pe = false ∨ s.flags.vm = false ∧ s.cpl ≤ s.flags.iopl) :
    Passes (ioCheck port n) s () (s.portMet port n) := by
  refine passes_bind (passes_get s) (passes_if_neg ?_ rfl)
  rcases h with h | ⟨h1, h2⟩
  · rw [h]; simp
  · rw [h1, decide_eq_false (BitVec.not_lt.2 h2)]; simp

end Sys2Proof.Machine
end

