-- ==== Sys2Proof/Laws/System.lean ====
section
/-! SUPPORT. What the shared operations of the system instructions do. -/

namespace Sys2Proof.Machine

variable {s t u v : State}

theorem passes_needCpl0 (h : s.privileged = true) : Passes needCpl0 s () s := passes_bind (passes_get s) (passes_ensure h s)
theorem passes_needProtected (h : s.isLegacySeg = false) : Passes needProtected s () s :=
  passes_bind (passes_get s) (passes_ensure (by simp [h]) s)
theorem passes_needMonitor (hf : s.has .monitor = true) (hc : s.cpl = 0) (hm : s.mode ≠ .v86) : Passes needMonitor s () s :=
  passes_bind (passes_needFeature hf) (passes_bind (passes_get s) (passes_ensure (by rw [decide_eq_true hc, decide_eq_true hm]; rfl) s))
theorem passes_needTsc (h : TscReady s) : Passes needTsc s () s := by
  refine passes_bind (passes_get s) (passes_ensure ?_ s)
  rcases h with h | h | h <;> simp [h]
theorem passes_needOsXsave (h : XsaveReady s) : Passes needOsXsave s () s :=
  passes_bind (passes_needFeature h.1) (passes_bind (passes_get s) (passes_ensure h.2 s))
theorem passes_needFsGsBase (hl : s.isLong = true) (hc : s.cr4Bit 16 = true) (hf : s.has .fsgsbase = true) :
    Passes needFsGsBase s () s := passes_bind (passes_get s) (passes_ensure (by simp [hl, hc, hf]) s)
theorem passes_needCr {cr : Fin 16} (h : cr = 0 ∨ cr = 2 ∨ cr = 3 ∨ cr = 4 ∨ cr = 8 ∧ s.isLong = true) :
    Passes (needCr cr) s () s := by
  refine passes_bind (passes_get s) (passes_ensure ?_ s)
  rcases h with h | h | h | h | ⟨h, h2⟩ <;> simp [*]

theorem clobberStatus_passes (s : State) :
    Passes clobberStatus s () (s.statusDrawn (drawnStatus s.flags s.free)) := rfl

theorem installPaging_passes {b : Bool} (h : PagingInstalled b s t u) : Passes (installPaging b t) s () u := by
  unfold PagingInstalled at h
  unfold installPaging
  refine passes_bind (passes_get s) ?_
  by_cases hc : t.withLma.paging = .pae ∧ (b = true ∨ s.paging ≠ .pae)
  · rw [if_pos hc] at h
    exact passes_if_pos hc (passes_bind h rfl)
  · rw [if_neg hc] at h
    subst h
    exact passes_if_neg hc rfl

theorem clflush_passes {m : MemRef} {a : Nat} (hv : s.segVerdict m.seg (s.segOf m.seg) .exec (s.ea m) 1 = .ok)
    (ha : Passes (translate .read (decide (s.cpl = 3)) false (s.linear m.seg (s.segOf m.seg) (s.ea m))) s.begin a u) :
    Passes (match s.begin.segVerdict m.seg (s.begin.segOf m.seg) .exec (s.begin.ea m) 1 with
      | .general => raiseGP
      | .limit => raiseLimit m.seg
      | .ok => do
        let _ ← translate .read (decide (s.begin.cpl = 3)) false
          (s.begin.linear m.seg (s.begin.segOf m.seg) (s.begin.ea m)) : M Unit) s.begin () u := by
  rw [show s.begin.segVerdict m.seg (s.begin.segOf m.seg) .exec (s.begin.ea m) 1 = _ from hv]
  exact passes_bind ha rfl

theorem mwait_completes {e : Word} (hf : s.has .monitor = true) (hc : s.cpl = 0) (hm : s.mode ≠ .v86)
    (he : e = (if s.isLong then s.gp rCX else (s.gp rCX).setWidth 32 |>.setWidth 64)) (h1 : e >>> 1 = 0)
    (h2 : e.getLsbD 0 = true → s.mwaitBreak = true) :
    Completes .mwait s (if s.act.monitorArmed then
      { s.begin with act := { s.begin.act with mwaitWaiting := true, mwaitMaskedBreak := e.getLsbD 0 } } else s.begin) := by
  subst he
  refine run_of_passes (passes_bind (passes_needMonitor hf hc hm) (passes_bind rfl (passes_bind (passes_get _)
    (passes_bind (passes_ensure ?_ _) ?_))))
  · refine Bool.and_eq_true_iff.2 ⟨decide_eq_true h1, ?_⟩
    show (!BitVec.getLsbD _ 0 || s.mwaitBreak) = true
    cases hb : (if s.isLong then s.gp rCX else (s.gp rCX).setWidth 32 |>.setWidth 64).getLsbD 0 with
    | false => exact Bool.or_eq_true_iff.2 (.inl (congrArg (!·) hb))
    | true => exact Bool.or_eq_true_iff.2 (.inr (h2 hb))
  · rfl

/-! Control and debug registers. -/

variable {r : Reg} {x : Word}

theorem movCr_store {cr : Fin 16} (h : s.privileged = true)
    (hc : cr = 0 ∨ cr = 2 ∨ cr = 3 ∨ cr = 4 ∨ cr = 8 ∧ s.isLong = true) : Completes (.movCr (.store r cr)) s
      (let t := s.begin.setReg s.crWidth r ((s.sys.cr cr).setWidth s.crWidth.bits)
       t.statusDrawn (drawnStatus t.flags t.free)) :=
  run_of_passes (passes_bind (passes_needCr (s := s.begin) hc) (passes_bind (passes_needCpl0 (s := s.begin) h)
    (passes_bind (passes_get _) (passes_bind rfl (clobberStatus_passes _)))))

theorem movCr_load {cr : Fin 16} (h : s.privileged = true) (hx : x = (s.reg s.crWidth r).setWidth 64)
    (hc : cr = 0 ∨ cr = 2 ∨ cr = 3 ∨ cr = 4 ∨ cr = 8 ∧ s.isLong = true) (hw : Passes (writeCr cr x) s.begin () u) :
    Completes (.movCr (.load cr r)) s (u.statusDrawn (drawnStatus u.flags u.free)) := by
  subst hx
  exact run_of_passes (passes_bind (passes_needCr (s := s.begin) hc) (passes_bind (passes_needCpl0 (s := s.begin) h)
    (passes_bind (passes_get _) (passes_bind rfl (passes_bind hw (clobberStatus_passes _))))))

theorem movCr_cr2 (h : s.privileged = true) : Completes (.movCr (.load 2 r)) s
    (let u : State := { s.begin with sys := { s.sys with cr2 := (s.reg s.crWidth r).setWidth 64 } }
     u.statusDrawn (drawnStatus u.flags u.free)) := movCr_load h rfl (by simp) rfl
theorem movCr_cr0 (h : s.privileged = true) (hx : x = (s.reg s.crWidth r).setWidth 64) (ho : s.cr0Ok x = true)
    (hp : PagingInstalled false s.begin { s.begin with sys := { s.sys with cr0 := (x &&& cr0Writable) ||| 0x10 } } u) :
    Completes (.movCr (.load 0 r)) s (u.statusDrawn (drawnStatus u.flags u.free)) :=
  movCr_load h hx (by simp) (passes_bind (passes_get _) (passes_bind (passes_ensure ho _) (installPaging_passes hp)))
theorem movCr_cr3 (h : s.privileged = true) (hx : x = (s.reg s.crWidth r).setWidth 64)
    (ho : s.lma = true → x &&& s.cr3Reserved = 0)
    (hp : PagingInstalled true s.begin { s.begin with sys := { s.sys with cr3 := x &&& ~~~(bitsMask 63 s.cfg.maxPhyAddr) } } u) :
    Completes (.movCr (.load 3 r)) s (u.statusDrawn (drawnStatus u.flags u.free)) := by
  refine movCr_load h hx (by simp) (passes_bind (passes_get _) (passes_bind (passes_ensure ?_ _) (installPaging_passes hp)))
  show (!s.lma || decide (x &&& s.cr3Reserved = 0)) = true
  cases hl : s.lma with
  | false => rfl
  | true => exact decide_eq_true (ho hl)
theorem movCr_cr4 (h : s.privileged = true) (hx : x = (s.reg s.crWidth r).setWidth 64) (ho : s.cr4Ok x = true)
    (hp : PagingInstalled false s.begin { s.begin with sys := { s.sys with cr4 := x } } u) :
    Completes (.movCr (.load 4 r)) s (u.statusDrawn (drawnStatus u.flags u.free)) :=
  movCr_load h hx (by simp) (passes_bind (passes_get _) (passes_bind (passes_ensure ho _) (installPaging_passes hp)))
theorem movCr_cr8 (h : s.privileged = true) (hx : x = (s.reg s.crWidth r).setWidth 64) (hl : s.isLong = true) (h8 : x >>> 4 = 0) :
    Completes (.movCr (.load 8 r)) s
      (let u : State := { s.begin with sys := { s.sys with cr8 := x } }
       u.statusDrawn (drawnStatus u.flags u.free)) :=
  movCr_load h hx (by simp [hl]) (passes_bind (passes_ensure (decide_eq_true h8) _) rfl)

theorem openDr_passes {dr : Fin 8} {n : Nat} (h : s.privileged = true) (hg : s.sys.dr7.getLsbD 13 = false)
    (h1 : dr = 4 ∨ dr = 5 → s.cr4Bit 3 = false ∧ n = dr.val + 2) (h2 : ¬ (dr = 4 ∨ dr = 5) → n = dr.val) :
    Passes (openDr dr) s n s := by
  have e : n = (if decide (dr = 4 ∨ dr = 5) then dr.val + 2 else dr.val) := by
    by_cases hd : dr = 4 ∨ dr = 5
    · rw [if_pos (decide_eq_true hd)]; exact (h1 hd).2
    · rw [if_neg (by simpa using hd)]; exact h2 hd
  refine passes_bind (passes_needCpl0 h) (passes_bind (passes_get s) (passes_bind (passes_ensure ?_ s)
    (passes_bind (passes_ensure (by rw [hg]; rfl) s) (by rw [e]; rfl))))
  by_cases hd : dr = 4 ∨ dr = 5
  · rw [(h1 hd).1, Bool.and_false]; rfl
  · rw [decide_eq_false hd]; rfl

theorem movDr_store {dr : Fin 8} {n : Nat} (h : s.privileged = true) (hg : s.sys.dr7.getLsbD 13 = false)
    (h1 : dr = 4 ∨ dr = 5 → s.cr4Bit 3 = false ∧ n = dr.val + 2) (h2 : ¬ (dr = 4 ∨ dr = 5) → n = dr.val) :
    Completes (.movDr (.store r dr)) s
      (let t := s.begin.setReg s.crWidth r ((s.sys.drOf n).setWidth s.crWidth.bits)
       t.statusDrawn (drawnStatus t.flags t.free)) :=
  run_of_passes (passes_bind (openDr_passes (s := s.begin) h hg h1 h2) (passes_bind (passes_get _) (passes_bind rfl
    (clobberStatus_passes _))))

theorem movDr_load {dr : Fin 8} {n : Nat} (h : s.privileged = true) (hg : s.sys.dr7.getLsbD 13 = false)
    (h1 : dr = 4 ∨ dr = 5 → s.cr4Bit 3 = false ∧ n = dr.val + 2) (h2 : ¬ (dr = 4 ∨ dr = 5) → n = dr.val)
    (hx : x = (s.reg s.crWidth r).setWidth 64) (hn : n < 6 ∨ x >>> 32 = 0) :
    Completes (.movDr (.load dr r)) s
      (let t : State := { s.begin with sys := s.sys.setDr n (drFixed n x) }
       t.statusDrawn (drawnStatus t.flags t.free)) := by
  subst hx
  refine run_of_passes (passes_bind (openDr_passes (s := s.begin) h hg h1 h2) (passes_bind (passes_get _) (passes_bind rfl
    (passes_bind (passes_ensure ?_ _) (passes_bind rfl (clobberStatus_passes _))))))
  rcases hn with hn | hn
  · rw [decide_eq_true hn]; rfl
  · exact Bool.or_eq_true_iff.2 (.inr (decide_eq_true hn))

theorem smsw_free {g : Gp} (hl : s.isLong = false) : Completes (.smsw ⟨.w32, .reg g⟩) s
    ({ s.begin with free := s.free + 1 }.setGpVal .w32 g (Config.freeBits 16 s.free ++ s.sys.cr0.setWidth 16)) := by
  refine run_of_passes (passes_bind (passes_get _) ?_)
  rw [show s.begin.isLong = false from hl]
  rfl
theorem smsw_reg {w : Width} {g : Gp} (hw : s.isLong = true ∨ w ≠ .w32) : Completes (.smsw ⟨w, .reg g⟩) s
    (s.begin.setGpVal w g (s.sys.cr0.setWidth w.bits)) := by
  refine run_of_passes (passes_bind (passes_get _) ?_)
  cases hl : s.isLong with
  | true => rw [show s.begin.isLong = true from hl]; rfl
  | false =>
    rw [show s.begin.isLong = false from hl]
    rcases hw with hw | hw
    · rw [hl] at hw; cases hw
    · cases w with
      | w32 => exact absurd rfl hw
      | _ => rfl
theorem smsw_mem {w : Width} {m : MemRef} {q : Place} (hq : Passes (place .write .w16 (.mem m)) s.begin q u) :
    Completes (.smsw ⟨w, .mem m⟩) s (u.setPlace .w16 q (s.sys.cr0.setWidth 16)) := by
  refine run_of_passes (passes_bind (passes_get _) ?_)
  cases s.begin.isLong <;> cases w <;> exact writeRm_passes hq

/-! Descriptor tables. -/

variable {o : Rm} {sel : BitVec 16} {a : Word} {d : BitVec 128} {c : SegCache}

theorem lldt_null (hl : s.isLegacySeg = false) (hp : s.privileged = true) (h : Passes (readRm .w16 o) s.begin sel u)
    (hn : isNull sel = true) : Completes (.lldt o) s { u with sys := { u.sys with ldtr := u.sys.ldtr.nullLoad sel } } :=
  run_of_passes (passes_bind (passes_needProtected (s := s.begin) hl) (passes_bind (passes_needCpl0 (s := s.begin) hp)
    (passes_bind h (passes_if_pos hn rfl))))

theorem lldt_desc (hl : s.isLegacySeg = false) (hp : s.privileged = true) (h : Passes (readRm .w16 o) s.begin sel u)
    (hn : isNull sel = false) (hd : Passes (gdtSystem sel) u (a, d) v) (hc : c = descCache sel d) (hs : c.s = false)
    (hpr : c.p = true) (ht : c.typ = 2) : Completes (.lldt o) s { v with sys := { v.sys with ldtr := c } } := by
  subst hc
  exact run_of_passes (passes_bind (passes_needProtected (s := s.begin) hl) (passes_bind (passes_needCpl0 (s := s.begin) hp)
    (passes_bind h (passes_if_neg (by rw [hn]; decide) (passes_bind hd (passes_bind (passes_ensure (by rw [hs, ht]; rfl) _)
      (passes_bind (passes_ensure hpr _) rfl)))))))

theorem ltr_desc {as : List Nat} {y : State} (hl : s.isLegacySeg = false) (hp : s.privileged = true)
    (h : Passes (readRm .w16 o) s.begin sel u) (hn : isNull sel = false) (hd : Passes (gdtSystem sel) u (a, d) v)
    (hc : c = descCache sel d) (hs : c.s = false) (hpr : c.p = true) (ht : c.typ = 9 ∨ v.lma = false ∧ c.typ = 1)
    (h5 : v.lma = true → d.extractLsb' 104 5 = 0) (ha : Passes (sysResolve .write (a + 5) 1) v as y) :
    Completes (.ltr o) s { y.physWrite as (y.mem.readList as ||| 2) with
      sys := { y.sys with tr := { c with typ := c.typ ||| 2 } } } := by
  subst hc
  refine run_of_passes (passes_bind (passes_needProtected (s := s.begin) hl) (passes_bind (passes_needCpl0 (s := s.begin) hp)
    (passes_bind h (passes_bind (passes_ensure (by rw [hn]; rfl) _) (passes_bind hd (passes_bind (passes_get _)
      (passes_bind (passes_ensure ?_ _) (passes_bind (passes_ensure ?_ _) (passes_bind (passes_ensure hpr _)
        (passes_bind ha rfl))))))))))
  · rcases ht with ht | ⟨h1, ht⟩
    · rw [hs, ht]; rfl
    · rw [hs, ht, h1]; rfl
  · cases hm : v.lma with
    | false => rfl
    | true => rw [h5 hm]; rfl

variable {src : Rm} {w : Width} {dst : Reg} {q : Option (SegCache × BitVec 128)}

theorem lar_not (hl : s.isLegacySeg = false) (h : Passes (readRm .w16 src) s.begin sel u) (hi : Passes (inspect sel) u q v)
    (hq : q = none ∨ (∃ c d, q = some (c, d) ∧ (u.mayInspect c sel && (c.s || larType u.lma c.typ)) = false)) :
    Completes (.lar ⟨w, dst, src⟩) s { v with flags := { v.flags with zf := false } } := by
  refine run_of_passes (passes_bind (passes_needProtected (s := s.begin) hl) (passes_bind h (passes_bind (passes_get _)
    (passes_bind hi ?_))))
  rcases hq with rfl | ⟨c, d, rfl, hq⟩
  · rfl
  · exact passes_if_neg (by rw [hq]; decide) rfl

theorem lar_yes (hl : s.isLegacySeg = false) (h : Passes (readRm .w16 src) s.begin sel u)
    (hi : Passes (inspect sel) u (some (c, d)) v) (hm : (u.mayInspect c sel && (c.s || larType u.lma c.typ)) = true) :
    Completes (.lar ⟨w, dst, src⟩) s (State.setReg { v with flags := { v.flags with zf := true }, free := v.free + 1 } w dst
      (((d.extractLsb' 32 32 &&& 0x00F0FF00) ||| ((Config.freeBits 4 v.free).setWidth 32 <<< 16)).setWidth w.bits)) :=
  run_of_passes (passes_bind (passes_needProtected (s := s.begin) hl) (passes_bind h (passes_bind (passes_get _)
    (passes_bind hi (passes_if_pos hm rfl)))))

theorem lsl_not (hl : s.isLegacySeg = false) (h : Passes (readRm .w16 src) s.begin sel u) (hi : Passes (inspect sel) u q v)
    (hq : q = none ∨ (∃ c d, q = some (c, d) ∧ (u.mayInspect c sel && (c.s || lslType u.lma c.typ)) = false)) :
    Completes (.lsl ⟨w, dst, src⟩) s { v with flags := { v.flags with zf := false } } := by
  refine run_of_passes (passes_bind (passes_needProtected (s := s.begin) hl) (passes_bind h (passes_bind (passes_get _)
    (passes_bind hi ?_))))
  rcases hq with rfl | ⟨c, d, rfl, hq⟩
  · rfl
  · exact passes_if_neg (by rw [hq]; decide) rfl

theorem lsl_yes (hl : s.isLegacySeg = false) (h : Passes (readRm .w16 src) s.begin sel u)
    (hi : Passes (inspect sel) u (some (c, d)) v) (hm : (u.mayInspect c sel && (c.s || lslType u.lma c.typ)) = true) :
    Completes (.lsl ⟨w, dst, src⟩) s (State.setReg { v with flags := { v.flags with zf := true } } w dst
      (c.limit.setWidth w.bits)) :=
  run_of_passes (passes_bind (passes_needProtected (s := s.begin) hl) (passes_bind h (passes_bind (passes_get _)
    (passes_bind hi (passes_if_pos hm rfl)))))

theorem verify_none {f : SegCache → Bool} (hl : s.isLegacySeg = false) (h : Passes (readRm .w16 src) s.begin sel u)
    (hi : Passes (inspect sel) u none v) :
    Passes (verify f src) s.begin () { v with flags := { v.flags with zf := false } } :=
  passes_bind (passes_needProtected (s := s.begin) hl) (passes_bind h (passes_bind (passes_get _) (passes_bind hi rfl)))
theorem verify_some {f : SegCache → Bool} (hl : s.isLegacySeg = false) (h : Passes (readRm .w16 src) s.begin sel u)
    (hi : Passes (inspect sel) u (some (c, d)) v) : Passes (verify f src) s.begin ()
      { v with flags := { v.flags with zf := c.s && u.mayInspect c sel && f c } } :=
  passes_bind (passes_needProtected (s := s.begin) hl) (passes_bind h (passes_bind (passes_get _) (passes_bind hi rfl)))

/-! Special registers. -/

variable {k : BitVec 32}

theorem rdmsr_tsc (h : s.privileged = true) (hk : k = s.reg .w32 rCX) (h1 : k = 0x10) :
    Completes .rdmsr s (s.begin.tscRead.withEdxEax s.begin.tscRead.msr.tsc) := by
  subst hk
  exact run_of_passes (passes_bind (passes_needCpl0 (s := s.begin) h) (passes_bind rfl (passes_if_pos h1 rfl)))
theorem rdmsr_value (h : s.privileged = true) (hk : k = s.reg .w32 rCX) (h1 : k ≠ 0x10) (hv : s.msrValue k = some x) :
    Completes .rdmsr s (s.begin.withEdxEax x) := by
  subst hk
  refine run_of_passes (passes_bind (passes_needCpl0 (s := s.begin) h) (passes_bind rfl (passes_if_neg h1
    (passes_bind (passes_get _) ?_))))
  rw [show s.begin.msrValue ((s.begin.gp rCX).setWidth Width.w32.bits) = some x from hv]
  rfl
theorem wrmsr_passes (h : s.privileged = true) (hk : k = s.reg .w32 rCX) (h1 : s.msrWritable k = true)
    (h2 : s.edxEax &&& s.msrReserved k = 0) (h3 : msrCanonical k = true → canonical s.edxEax = true)
    (h4 : k = 0xC0000080 → s.eferOk s.edxEax = true) :
    Completes .wrmsr s (s.begin.setMsr k (s.msrMerge k s.edxEax)) := by
  subst hk
  refine run_of_passes (passes_bind (passes_needCpl0 (s := s.begin) h) (passes_bind rfl (passes_bind rfl
    (passes_bind (passes_get _) (passes_bind (passes_ensure h1 _) (passes_bind (passes_ensure (decide_eq_true h2) _)
      (passes_bind (passes_ensure ?_ _) (passes_bind (passes_ensure ?_ _) rfl))))))))
  rotate_left
  · show (decide (s.reg .w32 rCX ≠ 0xC0000080) || s.eferOk s.edxEax) = true
    by_cases hk : s.reg .w32 rCX = 0xC0000080
    · rw [h4 hk, Bool.or_true]
    · rw [decide_eq_true hk]; rfl
  · refine Bool.or_eq_true_iff.2 ?_
    cases hm : msrCanonical (s.reg .w32 rCX) with
    | false => exact .inl (by rw [show msrCanonical ((s.begin.gp rCX).setWidth Width.w32.bits) = false from hm]; rfl)
    | true => exact .inr (h3 hm)

theorem rdpmc_passes (h : s.cr4Bit 8 = true ∨ s.cpl = 0 ∨ s.pe = false)
    (hv : s.cfg.pmcValid.contains (s.reg .w32 rCX) = true) :
    ∃ v : Word, v.toNat < 2 ^ (s.cfg.pmcMscb + 1) ∧ Completes .rdpmc s
      ((State.setReg { s.begin with free := s.free + 1 } .w32 rAX (v.setWidth 32)).setReg .w32 rDX ((v >>> 32).setWidth 32)) := by
  refine ⟨_, ?_, run_of_passes (passes_bind (passes_get _) (passes_bind (passes_ensure ?_ _) (passes_bind rfl
    (passes_bind (passes_ensure hv _) rfl))))⟩
  · rw [BitVec.toNat_ofNat]
    exact Nat.lt_of_le_of_lt (Nat.mod_le _ _) (Nat.mod_lt _ (Nat.two_pow_pos _))
  · show (s.cr4Bit 8 || decide (s.cpl = 0) || !s.pe) = true
    rcases h with h | h | h <;> rw [h] <;> simp

theorem wrpkru_passes (h : s.cr4Bit 22 = true) (hc : s.reg .w32 rCX = 0) (hd : s.reg .w32 rDX = 0) :
    Completes .wrpkru s { s.begin with sys := { s.sys with pkru := s.reg .w32 rAX } } :=
  run_of_passes (passes_bind (passes_bind (passes_get _) (passes_ensure h _)) (passes_bind rfl (passes_bind rfl (passes_bind
    (passes_ensure (Bool.and_eq_true_iff.2 ⟨decide_eq_true hc, decide_eq_true hd⟩) _) rfl))))

theorem xgetbv_one (hx : XsaveReady s) (hc : s.reg .w32 rCX = 1) (hf : s.has .xg1 = true) :
    Completes .xgetbv s (s.begin.withEdxEax (s.sys.xcr0 &&& s.begin.xinuse)) := by
  refine run_of_passes (passes_bind (passes_needOsXsave (s := s.begin) hx) (passes_bind (passes_get _) (passes_bind rfl
    (passes_if_neg ?_ (passes_if_pos ?_ rfl)))))
  · rw [show (s.begin.gp rCX).setWidth Width.w32.bits = 1 from hc]; decide
  · exact Bool.and_eq_true_iff.2 ⟨decide_eq_true hc, hf⟩

theorem xsetbv_passes (hx : XsaveReady s) (hp : s.privileged = true) (hc : s.reg .w32 rCX = 0)
    (h1 : s.edxEax &&& ~~~xcr0Supported = 0) (h2 : s.edxEax.getLsbD 0 = true)
    (h3 : s.edxEax.getLsbD 2 = true → s.edxEax.getLsbD 1 = true) :
    Completes .xsetbv s { s.begin with sys := { s.sys with xcr0 := s.edxEax } } := by
  refine run_of_passes (passes_bind (passes_needOsXsave (s := s.begin) hx) (passes_bind (passes_needCpl0 (s := s.begin) hp)
    (passes_bind rfl (passes_bind rfl (passes_bind (passes_ensure (decide_eq_true hc) _)
      (passes_bind (passes_ensure ?_ _) rfl))))))
  show (decide (s.edxEax &&& ~~~xcr0Supported = 0) && s.edxEax.getLsbD 0 && !(s.edxEax.getLsbD 2 && !s.edxEax.getLsbD 1)) = true
  rw [decide_eq_true h1, h2]
  cases hh : s.edxEax.getLsbD 2 with
  | false => rfl
  | true => rw [h3 hh]; rfl

theorem sysexit_canonical {w : Width} (hw : w = .w64 → canonical (s.gp rCX) = true ∧ canonical (s.gp rDX) = true) :
    (!decide (w = .w64) || (canonical (s.begin.gp rCX) && canonical (s.begin.gp rDX))) = true := by
  by_cases h : w = .w64
  · obtain ⟨h1, h2⟩ := hw h
    rw [show canonical (s.begin.gp rCX) = true from h1, show canonical (s.begin.gp rDX) = true from h2]; simp
  · rw [decide_eq_false h]; rfl

theorem cpuid_completes (s : State) : Completes .cpuid s
    (let r := s.begin.cpuidRow ((s.gp rAX).setWidth 32) ((s.gp rCX).setWidth 32)
     (((({ s.begin with msr := { s.msr with biosSignId := s.cfg.microcode ++ (0 : BitVec 32) } }.setGp rAX
        (r.eax.setWidth 64)).setGp rBX (r.ebx.setWidth 64)).setGp rCX (r.ecx.setWidth 64)).setGp rDX (r.edx.setWidth 64))) := by
  show execCpuid s = _
  unfold execCpuid
  rw [run_of_passes (passes_modify _ _)]
  rfl

end Sys2Proof.Machine
end

