-- ==== Sys2Proof/Laws/X87.lean ====
section
/-! SUPPORT. What the shared operations of the x87 instructions do. A numeric exception of the x87 unit never ends an instruction
by itself (it is reported by the next one), so every operation here passes in every state: `FpuStep` says that it changes the x87
unit and draws free values at most. -/

namespace Sys2Proof.Machine

variable {α β : Type} {s u : State}

theorem FpuOnly.refl (s : State) : FpuOnly s s := ⟨s.fpu, s.free, rfl⟩
theorem FpuOnly.trans {t : State} (h : FpuOnly s t) (h2 : FpuOnly t u) : FpuOnly s u := by
  obtain ⟨f, n, rfl⟩ := h
  obtain ⟨f2, n2, rfl⟩ := h2
  exact ⟨f2, n2, rfl⟩

/-- The step passes in every state, and changes the x87 unit and the number of free values drawn at most. -/
def FpuStep (m : M α) : Prop := ∀ s, ∃ a t, Passes m s a t ∧ FpuOnly s t

theorem FpuStep.pure (a : α) : FpuStep (pure a : M α) := fun s => ⟨a, s, rfl, .refl s⟩
theorem FpuStep.bind {m : M α} {f : α → M β} (h : FpuStep m) (h2 : ∀ a, FpuStep (f a)) : FpuStep (m >>= f) := fun s => by
  obtain ⟨a, t, h1, o1⟩ := h s
  obtain ⟨b, v, h3, o2⟩ := h2 a t
  exact ⟨b, v, passes_bind h1 h3, o1.trans o2⟩
theorem FpuStep.ite {c : Prop} [Decidable c] {m n : M α} (h : FpuStep m) (h2 : FpuStep n) : FpuStep (if c then m else n) := by
  split
  · exact h
  · exact h2

theorem modifyFpu_step (g : Fpu → Fpu) : FpuStep (modifyFpu g) := fun s => ⟨(), _, rfl, g s.fpu, s.free, rfl⟩
theorem getFpu_step : FpuStep getFpu := fun s => ⟨s.fpu, s, rfl, .refl s⟩
theorem get_step : FpuStep (get : M State) := fun s => ⟨s, s, rfl, .refl s⟩
theorem freeValue_step (w : Nat) : FpuStep (freeValue w) := fun s => ⟨_, _, rfl, s.fpu, s.free + 1, rfl⟩
theorem freeBit_step : FpuStep freeBit := .bind (freeValue_step _) fun _ => .pure _
theorem freeCodes_step : FpuStep freeCodes := .bind (freeValue_step _) fun _ => modifyFpu_step _
theorem freeAllCodes_step : FpuStep freeAllCodes := .bind (freeValue_step _) fun _ => modifyFpu_step _
theorem report_step (stop fl : FpFlags) (up : Bool) : FpuStep (report stop fl up) :=
  .bind getFpu_step fun _ => .bind (modifyFpu_step _) fun _ => .pure _
theorem stackFault_step (b : Bool) : FpuStep (stackFault b) :=
  .bind (modifyFpu_step _) fun _ => .bind getFpu_step fun _ => .pure _

theorem needSt_step {is : List (Fin 8)} {masked body : M Unit} (h : FpuStep masked) (h2 : FpuStep body) :
    FpuStep (needSt is masked body) :=
  .bind getFpu_step fun _ => .ite (.bind (stackFault_step _) fun _ => .ite h (.pure ())) h2
theorem needStFree_step {is : List (Fin 8)} {masked body : M Unit} (h : FpuStep masked) (h2 : FpuStep body) :
    FpuStep (needStFree is masked body) := .bind freeCodes_step fun _ => needSt_step h h2
theorem needFree_step {masked body : M Unit} (h : FpuStep masked) (h2 : FpuStep body) : FpuStep (needFree masked body) :=
  .bind getFpu_step fun _ => .ite (.bind (stackFault_step _) fun _ => .ite h (.pure ())) h2

theorem xEnvPc_step : FpuStep xEnvPc := .bind getFpu_step fun _ => .bind (freeValue_step _) fun _ => .pure _
theorem xEnv_step : FpuStep xEnv := .bind xEnvPc_step fun _ => .pure _
theorem argSt_step (i : Fin 8) : FpuStep (argSt i) := .bind getFpu_step fun _ => .pure _

theorem deliverSt_step (r : XOut) (i : Fin 8) (n : Nat) : FpuStep (deliverSt r i n) :=
  .bind (report_step _ _ _) fun _ => .ite (modifyFpu_step _) (.pure ())
theorem underflowSt_step (i : Fin 8) (n : Nat) : FpuStep (underflowSt i n) := modifyFpu_step _
theorem arithSt_step (op : XOp2) (i : Fin 8) (x : XArg) (n : Nat) : FpuStep (arithSt op i x n) :=
  .bind xEnvPc_step fun _ => .bind (argSt_step _) fun _ => deliverSt_step _ _ _
theorem arithRegs_step (op : XOp2) (i j : Fin 8) (n : Nat) : FpuStep (arithRegs op i j n) :=
  needStFree_step (underflowSt_step _ _) (.bind (argSt_step _) fun _ => arithSt_step _ _ _ _)
theorem arithMem_step (op : XOp2) (x : XArg) : FpuStep (needStFree [0] (underflowSt 0 0) (arithSt op 0 x 0)) :=
  needStFree_step (underflowSt_step _ _) (arithSt_step _ _ _ _)

theorem pushValue_step (v : BitVec 80) (fl : FpFlags) : FpuStep (pushValue v fl) :=
  .bind freeCodes_step fun _ => needFree_step (modifyFpu_step _)
    (.bind (report_step _ _ _) fun _ => .ite (modifyFpu_step _) (.pure ()))
theorem pushConverted_step (a : XArg) : FpuStep (pushConverted a) := pushValue_step _ _
theorem loadSt_step (i : Fin 8) : FpuStep (loadSt i) := by
  refine .bind getFpu_step fun f => .ite (.bind freeCodes_step fun _ => ?_) (pushValue_step _ _)
  dsimp only
  split
  · exact .bind freeBit_step fun _ => .bind (stackFault_step _) fun _ => .ite (modifyFpu_step _) (.pure ())
  · exact .bind (.pure _) fun _ => .bind (stackFault_step _) fun _ => .ite (modifyFpu_step _) (.pure ())

theorem compareWith_step (q : Bool) (b : XArg) (n : Nat) : FpuStep (compareWith q b n) :=
  .bind (argSt_step _) fun _ => .bind (report_step _ _ _) fun _ => modifyFpu_step _
theorem underflowCompare_step (n : Nat) : FpuStep (underflowCompare n) := modifyFpu_step _
theorem compareMem_step (b : XArg) (n : Nat) : FpuStep (needSt [0] (underflowCompare n) (compareWith false b n)) :=
  needSt_step (underflowCompare_step _) (compareWith_step _ _ _)

theorem deliverTwo_step (a b : BitVec 80) (fl : FpFlags) (up : Bool) : FpuStep (deliverTwo a b fl up) :=
  .bind (report_step _ _ _) fun _ => .ite (modifyFpu_step _) (.pure ())

/-! Entry. -/

theorem passes_needFpu (h : FpuThere s) : Passes needFpu s () s := by
  obtain ⟨h1, h2, h3⟩ := h
  exact passes_bind (passes_get s) (passes_bind (passes_ensure h1 s) (passes_ensure (by simp [h2, h3]) s))

theorem passes_waitFpu (h : FpuReady s) : Passes waitFpu s () s :=
  passes_bind (passes_needFpu h.1) (passes_needNoPending h.2)

theorem passes_enterFpu {ip : Word} {mem : Option MemRef} (h : FpuReady s) :
    Passes (enterFpu ip mem) s () (s.fpuEntered ip mem) :=
  passes_bind (passes_waitFpu h) rfl

theorem fpuEntered_only (ip : Word) (mem : Option MemRef) (s : State) : FpuOnly s (s.fpuEntered ip mem) := ⟨_, s.free, rfl⟩

/-- An instruction without a memory operand: it enters, then changes the x87 unit. -/
theorem entered_passes {ip : Word} {body : M Unit} (h : FpuReady s) (hb : FpuStep body) :
    ∃ t, Passes (do enterFpu ip none; body) s () t ∧ FpuOnly s t := by
  obtain ⟨_, t, h1, o⟩ := hb (s.fpuEntered ip none)
  exact ⟨t, passes_bind (passes_enterFpu h) h1, (fpuEntered_only ip none s).trans o⟩

/-- An instruction with a memory operand that is read: after the read it changes the x87 unit. -/
theorem readEntered_passes {ip : Word} {m : MemRef} {n k : Nat} {f : Nat → M Unit} {v : Nat} (h : FpuReady s)
    (hv : Passes (readFpu m n k) (s.fpuEntered ip (some m)) v u) (hb : FpuStep (f v)) :
    ∃ t, Passes (do enterFpu ip (some m); f (← readFpu m n k)) s () t ∧ FpuOnly u t := by
  obtain ⟨_, t, h1, o⟩ := hb u
  exact ⟨t, passes_bind (passes_enterFpu h) (passes_bind hv h1), o⟩

theorem storeSt_passes {ip : Word} {m : MemRef} {n nat indef pops : Nat} {f : XEnv → BitVec 80 → XStore} {as : List Nat}
    (h : FpuReady s) (hp : Passes (placeFpu m n nat) (s.fpuEntered ip (some m)) as u) :
    ∃ t, Passes (storeSt ip m n nat indef pops f) s () t ∧ StoredOnly u as t := by
  have write (v : Nat) (g : Fpu → Fpu) (x : State) (o : FpuOnly u x) :
      ∃ t, Passes (do physWrite as v; modifyFpu g) x () t ∧ StoredOnly u as t := by
    obtain ⟨y, k, rfl⟩ := o
    exact ⟨_, passes_bind rfl rfl, .inr ⟨v, _, k, rfl⟩⟩
  obtain ⟨_, t1, p1, o1⟩ := freeCodes_step u
  obtain ⟨f1, t2, p2, o2⟩ := getFpu_step t1
  by_cases he : ([0] : List (Fin 8)).any f1.isEmpty
  · obtain ⟨mk, t3, p3, o3⟩ := stackFault_step false t2
    cases mk with
    | true =>
      obtain ⟨t, pw, ow⟩ := write indef (fun g => g.popN pops) t3 ((o1.trans o2).trans o3)
      exact ⟨t, passes_bind (passes_enterFpu h) (passes_bind hp (passes_bind p1 (passes_bind p2
        (passes_if_pos he (passes_bind p3 (passes_if_pos rfl pw)))))), ow⟩
    | false =>
      exact ⟨t3, passes_bind (passes_enterFpu h) (passes_bind hp (passes_bind p1 (passes_bind p2
        (passes_if_pos he (passes_bind p3 (passes_if_neg (by decide) rfl)))))), .inl ((o1.trans o2).trans o3)⟩
  · obtain ⟨e, t3, p3, o3⟩ := xEnv_step t2
    obtain ⟨g, t4, p4, o4⟩ := getFpu_step t3
    obtain ⟨ok, t5, p5, o5⟩ := report_step storeStop (f e (g.st 0)).flags (f e (g.st 0)).up t4
    have o := (((o1.trans o2).trans o3).trans o4).trans o5
    cases ok with
    | true =>
      obtain ⟨t, pw, ow⟩ := write (f e (g.st 0)).val (fun g => g.popN pops) t5 o
      exact ⟨t, passes_bind (passes_enterFpu h) (passes_bind hp (passes_bind p1 (passes_bind p2
        (passes_if_neg he (passes_bind p3 (passes_bind p4 (passes_bind p5 (passes_if_pos rfl pw)))))))), ow⟩
    | false =>
      exact ⟨t5, passes_bind (passes_enterFpu h) (passes_bind hp (passes_bind p1 (passes_bind p2
        (passes_if_neg he (passes_bind p3 (passes_bind p4 (passes_bind p5 (passes_if_neg (by decide) rfl)))))))), .inl o⟩

theorem trig_passes {ip : Word} {out : M Bool} {empty : M Unit} {body : XArg → M Unit} (h : FpuReady s) (ho : FpuStep out)
    (he : FpuStep empty) (hb : ∀ a, FpuStep (body a)) : ∃ t, Passes (trig ip out empty body) s () t ∧ FpuOnly s t :=
  entered_passes h (needStFree_step he (.bind (argSt_step 0) fun _ =>
    .ite (.bind ho fun _ => modifyFpu_step _) (.bind (modifyFpu_step _) fun _ => hb _)))

theorem trigOne_passes {ip : Word} {out : M Bool} {f : XEnv → XArg → XOut} (h : FpuReady s) (ho : FpuStep out) :
    ∃ t, Passes (trigOne ip out f) s () t ∧ FpuOnly s t :=
  trig_passes h ho (modifyFpu_step _) fun _ =>
    .bind xEnv_step fun _ => .bind (report_step _ _ _) fun _ => .ite (modifyFpu_step _) (.pure ())

theorem partialRem_passes {near : Bool} {ip : Word} (h : FpuReady s) :
    ∃ t, Passes (partialRem near ip) s () t ∧ FpuOnly s t := by
  refine entered_passes h (needStFree_step (underflowSt_step _ _) (.bind xEnv_step fun _ => .bind (argSt_step _) fun _ =>
    .bind (argSt_step _) fun _ => .bind (report_step _ _ _) fun _ => .ite
    (.bind (modifyFpu_step _) fun _ => ?_) (.pure ())))
  split
  · exact modifyFpu_step _
  · exact .bind freeBit_step fun _ => modifyFpu_step _
  · exact freeAllCodes_step

theorem fpUnary_passes {env : M XEnv} {f : XEnv → XArg → XOut} {ip : Word} (h : FpuReady s) (he : FpuStep env) :
    ∃ t, Passes (fpUnary env f ip) s () t ∧ FpuOnly s t :=
  entered_passes h (needStFree_step (underflowSt_step _ _) (.bind he fun _ => .bind (argSt_step _) fun _ => deliverSt_step _ _ _))

theorem fpBinaryPop_passes {f : XOp2} {ip : Word} (h : FpuReady s) :
    ∃ t, Passes (fpBinaryPop f ip) s () t ∧ FpuOnly s t :=
  entered_passes h (needStFree_step (underflowSt_step _ _) (.bind xEnv_step fun _ => .bind (argSt_step _) fun _ =>
    .bind (argSt_step _) fun _ => deliverSt_step _ _ _))

theorem fpSign_passes {g : BitVec 80 → BitVec 80} {ip : Word} (h : FpuReady s) :
    ∃ t, Passes (fpSign g ip) s () t ∧ FpuOnly s t :=
  entered_passes h (needStFree_step (underflowSt_step _ _) (modifyFpu_step _))

theorem copySt_passes {ip : Word} {i : Fin 8} {n : Nat} (h : FpuReady s) :
    ∃ t, Passes (copySt ip i n) s () t ∧ FpuOnly s t :=
  entered_passes h (needStFree_step (underflowSt_step _ _) (modifyFpu_step _))

theorem pushConst_passes {ip : Word} {e c n : Nat} (h : FpuReady s) :
    ∃ t, Passes (pushConst ip e c n) s () t ∧ FpuOnly s t :=
  entered_passes h (.bind getFpu_step fun _ => pushValue_step _ _)

theorem compareSt_passes {q : Bool} {ip : Word} {i : Fin 8} {n : Nat} (h : FpuReady s) :
    ∃ t, Passes (compareSt q ip i n) s () t ∧ FpuOnly s t :=
  entered_passes h (needSt_step (underflowCompare_step _) (.bind (argSt_step _) fun _ => compareWith_step _ _ _))

theorem condMove_passes {c : Cond} {ip : Word} {i : Fin 8} (h : FpuReady s) (hc : s.has .cmov = true) :
    ∃ t, Passes (condMove c ip i) s () t ∧ FpuOnly s t := by
  obtain ⟨t, p, o⟩ := entered_passes (ip := ip) h (needStFree_step (is := [i]) (underflowSt_step 0 0)
    (.bind get_step fun s => FpuStep.ite (c := s.flags.holds c = true)
      (modifyFpu_step fun f => f.setStTag 0 (f.st i) (f.tagAt (f.phys i))) (.pure ())))
  exact ⟨t, passes_bind (passes_needFeature hc) p, o⟩

/-! What the shared operations leave in the x87 unit, exactly; every other part of the state but the count of free values is
kept. -/

theorem passes_argSt (i : Fin 8) (s : State) : Passes (argSt i) s (xreg (s.fpu.st i)) s := rfl
theorem passes_getFpu (s : State) : Passes getFpu s s.fpu s := rfl
theorem passes_modifyFpu (g : Fpu → Fpu) (s : State) : Passes (modifyFpu g) s () (s.withFpu (g s.fpu) s.free) := rfl

theorem passes_freeCodes (s : State) : Passes freeCodes s ()
    (s.withFpu (s.fpu.withCodes (Config.freeBits 3 s.free)) (s.free + 1)) := passes_bind (passes_freeValue 3 s) rfl
theorem passes_freeAllCodes (s : State) : Passes freeAllCodes s ()
    (s.withFpu (s.fpu.withAllCodes (Config.freeBits 4 s.free)) (s.free + 1)) := passes_bind (passes_freeValue 4 s) rfl

theorem passes_report (s : State) (stop fl : FpFlags) (up : Bool) :
    Passes (report stop fl up) s (!(s.fpu.unmasked fl 7 || s.fpu.unmasked fl stop)) (s.withFpu (s.fpu.record fl up) s.free) := by
  refine passes_bind rfl (passes_bind (a := ()) (t := (s.withFpu (s.fpu.record fl up) s.free)) ?_ rfl)
  unfold Fpu.record
  cases s.fpu.unmasked fl 7 <;> rfl

theorem passes_stackFault (s : State) (ovf : Bool) : Passes (stackFault ovf) s (s.fpu.fcw.getLsbD 0)
    (s.withFpu ({ s.fpu with fsw := { s.fpu.fsw with ie := true, sf := true, c1 := ovf } }) s.free) :=
  passes_bind rfl (passes_bind rfl rfl)

/-- A delivery that only stops at an exception detected before the result. -/
theorem passes_deliver (s : State) (fl : FpFlags) (up : Bool) (k : Fpu → Fpu) :
    Passes (do if ← report preOnly fl up then modifyFpu k) s () (s.withFpu (s.fpu.deliver fl up k) s.free) := by
  refine passes_bind (passes_report s preOnly fl up) ?_
  unfold Fpu.deliver
  cases s.fpu.unmasked fl 7 <;> rfl

theorem passes_deliverSt (s : State) (r : XOut) (i : Fin 8) (n : Nat) :
    Passes (deliverSt r i n) s () (s.withFpu (s.fpu.deliverTo r i n) s.free) := passes_deliver _ _ _ _

theorem passes_xEnvPc (s : State) : ∃ e, s.fpu.HasEnv true e ∧ Passes xEnvPc s e (s.withFpu s.fpu (s.free + 1)) :=
  ⟨_, ⟨rfl, rfl, rfl⟩, passes_bind rfl (passes_bind (passes_freeValue 82 s) rfl)⟩
theorem passes_xEnv (s : State) : ∃ e, s.fpu.HasEnv false e ∧ Passes xEnv s e (s.withFpu s.fpu (s.free + 1)) := by
  obtain ⟨e, ⟨h1, -, h3⟩, p⟩ := passes_xEnvPc s
  exact ⟨{ e with prec := 64 }, ⟨h1, rfl, h3⟩, passes_bind p rfl⟩

/-- A stack underflow and its masked response. -/
theorem passes_underflow {masked : M Unit} {mk : Fpu → Fpu} (ovf : Bool)
    (hm : ∀ u, Passes masked u () (u.withFpu (mk u.fpu) u.free)) (s : State) :
    Passes (do if ← stackFault ovf then masked) s () (s.withFpu (s.fpu.stackFault ovf mk) s.free) := by
  refine passes_bind (passes_stackFault s ovf) ?_
  unfold Fpu.stackFault
  cases h : s.fpu.fcw.getLsbD 0
  · rfl
  · exact hm _

theorem passes_needSt {is : List (Fin 8)} {masked body : M Unit} {mk bd : Fpu → Fpu} {n : Nat}
    (hm : ∀ u, Passes masked u () (u.withFpu (mk u.fpu) u.free)) (hb : Passes body s () (s.withFpu (bd s.fpu) n)) :
    ∃ k, Passes (needSt is masked body) s () (s.withFpu (s.fpu.whenHeld is mk bd) k) := by
  unfold Fpu.whenHeld
  by_cases h : is.any s.fpu.isEmpty
  · rw [if_pos h]; exact ⟨s.free, passes_bind rfl (passes_if_pos h (passes_underflow false hm s))⟩
  · rw [if_neg h]; exact ⟨n, passes_bind rfl (passes_if_neg h hb)⟩

theorem passes_needFree {masked body : M Unit} {mk bd : Fpu → Fpu} {n : Nat}
    (hm : ∀ u, Passes masked u () (u.withFpu (mk u.fpu) u.free)) (hb : Passes body s () (s.withFpu (bd s.fpu) n)) :
    ∃ k, Passes (needFree masked body) s () (s.withFpu (s.fpu.whenRoom mk bd) k) := by
  unfold Fpu.whenRoom
  by_cases h : s.fpu.full = true
  · rw [if_pos h]; exact ⟨s.free, passes_bind rfl (passes_if_pos h (passes_underflow true hm s))⟩
  · rw [if_neg h]; exact ⟨n, passes_bind rfl (passes_if_neg h hb)⟩

/-- Registers needed by an instruction whose page leaves C0, C2 and C3 undefined: what the body does with the open things `e` it
draws. -/
theorem passes_needStOpen {ε : Type} {P : ε → Fpu → Prop} (is : List (Fin 8)) {masked body : M Unit} {mk : Fpu → Fpu}
    {bd : ε → Fpu → Fpu} (hm : ∀ u, Passes masked u () (u.withFpu (mk u.fpu) u.free))
    (hb : ∀ u : State, ∃ e n, P e u.fpu ∧ Passes body u () (u.withFpu (bd e u.fpu) n)) (s : State) :
    ∃ v e n, P e (s.fpu.withCodes v) ∧
      Passes (needStFree is masked body) s () (s.withFpu ((s.fpu.withCodes v).whenHeld is mk (bd e)) n) := by
  obtain ⟨e, n, he, p⟩ := hb (s.withFpu (s.fpu.withCodes (Config.freeBits 3 s.free)) (s.free + 1))
  obtain ⟨k, q⟩ := passes_needSt (is := is) hm p
  exact ⟨_, e, k, he, passes_bind (passes_freeCodes s) q⟩

theorem passes_needStFree {is : List (Fin 8)} {masked body : M Unit} {mk : Fpu → Fpu} {bd : XEnv → Fpu → Fpu} {pc : Bool}
    (hm : ∀ u, Passes masked u () (u.withFpu (mk u.fpu) u.free))
    (hb : ∀ u, ∃ e n, u.fpu.HasEnv pc e ∧ Passes body u () (u.withFpu (bd e u.fpu) n)) (s : State) :
    ∃ v e n, s.fpu.HasEnv pc e ∧
      Passes (needStFree is masked body) s () (s.withFpu ((s.fpu.withCodes v).whenHeld is mk (bd e)) n) :=
  passes_needStOpen (P := fun e f => f.HasEnv pc e) is hm hb s

theorem passes_arithSt (op : XOp2) (i : Fin 8) (src : XArg) (n : Nat) (s : State) : ∃ e k, s.fpu.HasEnv true e ∧
    Passes (arithSt op i src n) s () (s.withFpu (s.fpu.deliverTo (op e (xreg (s.fpu.st i)) src) i n) k) := by
  obtain ⟨e, he, p⟩ := passes_xEnvPc s
  exact ⟨e, _, he, passes_bind p (passes_bind (passes_argSt i _) (passes_deliverSt _ _ _ _))⟩

theorem passes_arithRegs (op : XOp2) (i j : Fin 8) (n : Nat) (s : State) : ∃ v e k, s.fpu.HasEnv true e ∧
    Passes (arithRegs op i j n) s () (s.withFpu ((s.fpu.withCodes v).binary op e i j n) k) :=
  passes_needStFree (masked := underflowSt i n) (mk := fun g => (g.setSt i indefinite80).popN n)
    (bd := fun e g => g.deliverTo (op e (xreg (g.st i)) (xreg (g.st j))) i n) (fun _ => rfl) (fun u =>
    have ⟨e, k, he, p⟩ := passes_arithSt op i (xreg (u.fpu.st j)) n u
    ⟨e, k, he, passes_bind (passes_argSt j _) p⟩) s

theorem passes_arithMem (op : XOp2) (src : XArg) (s : State) : ∃ v e k, s.fpu.HasEnv true e ∧
    Passes (needStFree [0] (underflowSt 0 0) (arithSt op 0 src 0)) s ()
      (s.withFpu ((s.fpu.withCodes v).unary (op e · src)) k) :=
  passes_needStFree (masked := underflowSt 0 0) (mk := fun g => g.setSt 0 indefinite80)
    (bd := fun e g => g.deliverTo (op e (xreg (g.st 0)) src) 0 0) (fun _ => rfl) (passes_arithSt op 0 src 0) s

/-- FPATAN and its kin, FSCALE. -/
theorem passes_binary (f : XOp2) (i j : Fin 8) (n : Nat) (s : State) : ∃ v e k, s.fpu.HasEnv false e ∧
    Passes (needStFree [i, j] (underflowSt i n) do
        let e ← xEnv
        deliverSt (f e (← argSt i) (← argSt j)) i n) s () (s.withFpu ((s.fpu.withCodes v).binary f e i j n) k) :=
  passes_needStFree (masked := underflowSt i n) (mk := fun g => (g.setSt i indefinite80).popN n)
    (bd := fun e g => g.deliverTo (f e (xreg (g.st i)) (xreg (g.st j))) i n) (fun _ => rfl) (fun u =>
    have ⟨e, he, p⟩ := passes_xEnv u
    ⟨e, _, he, passes_bind p (passes_bind (passes_argSt i _) (passes_bind (passes_argSt j _) (passes_deliverSt _ _ _ _)))⟩) s

theorem passes_unary {env : M XEnv} {pc : Bool} (f : XEnv → XArg → XOut)
    (h : ∀ u : State, ∃ e, u.fpu.HasEnv pc e ∧ Passes env u e (u.withFpu u.fpu (u.free + 1))) (s : State) :
    ∃ v e k, s.fpu.HasEnv pc e ∧
      Passes (needStFree [0] (underflowSt 0 0) do
        let e ← env
        deliverSt (f e (← argSt 0)) 0 0) s () (s.withFpu ((s.fpu.withCodes v).unary (f e)) k) :=
  passes_needStFree (masked := underflowSt 0 0) (mk := fun g => g.setSt 0 indefinite80)
    (bd := fun e g => g.deliverTo (f e (xreg (g.st 0))) 0 0) (fun _ => rfl) (fun u =>
    have ⟨e, he, p⟩ := h u
    ⟨e, _, he, passes_bind p (passes_bind (passes_argSt 0 _) (passes_deliverSt _ _ _ _))⟩) s

/-- Registers needed, and a body that draws no environment. -/
theorem passes_needStPlain (is : List (Fin 8)) {masked body : M Unit} {mk bd : Fpu → Fpu}
    (hm : ∀ u, Passes masked u () (u.withFpu (mk u.fpu) u.free)) (hb : ∀ u, Passes body u () (u.withFpu (bd u.fpu) u.free))
    (s : State) :
    ∃ v n, Passes (needStFree is masked body) s () (s.withFpu ((s.fpu.withCodes v).whenHeld is mk bd) n) := by
  obtain ⟨k, q⟩ := passes_needSt (s := (s.withFpu (s.fpu.withCodes (Config.freeBits 3 s.free)) (s.free + 1)))
    (is := is) hm (hb _)
  exact ⟨_, k, passes_bind (passes_freeCodes s) q⟩

theorem passes_pushValue (v : BitVec 80) (fl : FpFlags) (s : State) :
    ∃ c n, Passes (pushValue v fl) s () (s.withFpu ((s.fpu.withCodes c).pushed v fl) n) := by
  obtain ⟨k, q⟩ := passes_needFree (s := (s.withFpu (s.fpu.withCodes (Config.freeBits 3 s.free)) (s.free + 1)))
    (mk := fun g => g.push indefinite80) (bd := fun g => g.deliver fl false fun h => h.push v)
    (passes_modifyFpu fun g => g.push indefinite80) (passes_deliver _ fl false fun h => h.push v)
  exact ⟨_, k, passes_bind (passes_freeCodes s) q⟩

/-- A delivery with a step after it that is made in any case. -/
theorem passes_deliverThen (s : State) (fl : FpFlags) (k : Fpu → Fpu) (z : Fpu → Fpu) :
    Passes (do
      let ok ← report preOnly fl false
      modifyFpu fun f => z (if ok then k f else f)) s () (s.withFpu (z (s.fpu.deliver fl false k)) s.free) := by
  refine passes_bind (passes_report s preOnly fl false) ?_
  unfold Fpu.deliver
  cases s.fpu.unmasked fl 7 <;> rfl

theorem passes_compareWith (quiet : Bool) (b : XArg) (n : Nat) (s : State) :
    Passes (compareWith quiet b n) s () (s.withFpu (s.fpu.compared quiet b n) s.free) :=
  passes_bind (passes_argSt 0 s) (passes_deliverThen s (xCompare quiet (xreg (s.fpu.st 0)) b).2
    (fun g => { g with fsw := g.fsw.withOrder (xCompare quiet (xreg (s.fpu.st 0)) b).1 }) (·.popN n))

theorem passes_compareNeed (is : List (Fin 8)) (quiet : Bool) {b : M XArg} (x : Fpu → XArg)
    (hb : ∀ u : State, Passes b u (x u.fpu) u) (n : Nat) (s : State) :
    ∃ k, Passes (needSt is (underflowCompare n) do compareWith quiet (← b) n) s ()
      (s.withFpu (s.fpu.whenHeld is (·.unordered n) (fun g => g.compared quiet (x g) n)) k) :=
  passes_needSt (masked := underflowCompare n) (mk := (·.unordered n)) (bd := fun g => g.compared quiet (x g) n) (n := s.free)
    (fun _ => rfl)
    (passes_bind (hb s) (passes_compareWith _ _ _ _))

theorem passes_loadSt (i : Fin 8) (s : State) : ∃ v c n, (c = true → s.fpu.full = true) ∧
    Passes (loadSt i) s () (s.withFpu (if s.fpu.isEmpty i then (s.fpu.withCodes v).stackFault c (·.push indefinite80)
      else (s.fpu.withCodes v).pushed (s.fpu.st i) 0) n) := by
  by_cases h : s.fpu.isEmpty i = true
  · simp only [h, if_true]
    let t := s.withFpu (s.fpu.withCodes (Config.freeBits 3 s.free)) (s.free + 1)
    have push : ∀ u, Passes (modifyFpu fun g => g.push indefinite80) u () _ := passes_modifyFpu fun g => g.push indefinite80
    by_cases hf : s.fpu.full = true
    · have p := passes_underflow (mk := (·.push indefinite80)) ((Config.freeBits 1 t.free).getLsbD 0) push (t.withFpu t.fpu (t.free + 1))
      exact ⟨_, _, _, fun _ => hf, passes_bind rfl (passes_if_pos h (passes_bind (passes_freeCodes s)
        (passes_if_pos hf (passes_bind (passes_freeBit t) p))))⟩
    · have p := passes_underflow (mk := (·.push indefinite80)) false push t
      exact ⟨_, _, _, (fun hx => by cases hx), passes_bind rfl (passes_if_pos h (passes_bind (passes_freeCodes s)
        (passes_if_neg hf (passes_bind (passes_pure false t) p))))⟩
  · simp only [h]
    obtain ⟨c, n, p⟩ := passes_pushValue (s.fpu.st i) 0 s
    exact ⟨c, false, n, (fun hx => by cases hx), passes_bind rfl (passes_if_neg h p)⟩

theorem passes_faultTwo (u : State) : Passes faultTwo u () (u.withFpu u.fpu.twoIndefinite u.free) := rfl

theorem passes_deliverTwo (a b : BitVec 80) (fl : FpFlags) (up : Bool) (s : State) :
    ∃ n, Passes (needFree faultTwo (deliverTwo a b fl up)) s () (s.withFpu (s.fpu.deliverTwo a b fl up) n) :=
  passes_needFree (bd := fun g => g.deliver fl up fun h => (h.setSt 0 a).push b) passes_faultTwo
    (passes_deliver s fl up fun h => (h.setSt 0 a).push b)

/-- The body of an instruction with two results. -/
theorem passes_two (x y : XEnv → BitVec 80) (fl : XEnv → FpFlags) (up : XEnv → Bool) (u : State) :
    ∃ e n, u.fpu.HasEnv false e ∧ Passes (needFree faultTwo do
      let e ← xEnv
      deliverTwo (x e) (y e) (fl e) (up e)) u () (u.withFpu (u.fpu.deliverTwo (x e) (y e) (fl e) (up e)) n) := by
  obtain ⟨e, he, p⟩ := passes_xEnv u
  obtain ⟨n, q⟩ := passes_needFree (masked := faultTwo) (body := do
      let e ← xEnv
      deliverTwo (x e) (y e) (fl e) (up e))
    (bd := fun g => g.deliver (fl e) (up e) fun h => (h.setSt 0 (x e)).push (y e)) passes_faultTwo
    (passes_bind p (passes_deliver _ _ _ _))
  exact ⟨e, n, he, q⟩

/-- A trigonometric instruction: `c` is the C1 of an operand out of range. -/
theorem passes_trig {out : M Bool} {masked : M Unit} {body : XArg → M Unit} {mk : Fpu → Fpu} {bd : XEnv → XArg → Fpu → Fpu}
    {C : Bool → Prop} (hm : ∀ u, Passes masked u () (u.withFpu (mk u.fpu) u.free))
    (ho : ∀ u : State, ∃ c n, C c ∧ Passes out u c (u.withFpu u.fpu n))
    (hb : ∀ (u : State) a, ∃ e n, u.fpu.HasEnv false e ∧ Passes (body a) u () (u.withFpu (bd e a u.fpu) n))
    (s : State) (ip : Word) (h : FpuReady s) :
    ∃ v c e n, C c ∧ s.fpu.HasEnv false e ∧ Passes (trig ip out masked body) s ()
      ((s.fpuEntered ip none).withFpu
        (((s.fpuEntered ip none).fpu.withCodes v).trig c mk fun g => bd e (xreg (g.st 0)) g) n) := by
  obtain ⟨v, ⟨c, e⟩, n, ⟨hc, he⟩, p⟩ := passes_needStOpen (ε := Bool × XEnv) (P := fun x f => C x.1 ∧ f.HasEnv false x.2) [0]
    (body := do
      let a ← argSt 0
      if bigAngle a.v then
        let c ← out
        modifyFpu fun f => { f with fsw := { f.fsw with c1 := c, c2 := true } }
      else
        setC2 false
        body a)
    (bd := fun x g => if bigAngle (g.st 0) then { g with fsw := { g.fsw with c1 := x.1, c2 := true } }
      else bd x.2 (xreg (g.st 0)) { g with fsw := { g.fsw with c2 := false } }) hm (fun u => by
    obtain ⟨c, n, hc, po⟩ := ho u
    obtain ⟨e, k, he, pb⟩ := hb (u.withFpu { u.fpu with fsw := { u.fpu.fsw with c2 := false } } u.free) (xreg (u.fpu.st 0))
    by_cases ha : bigAngle (u.fpu.st 0) = true
    · exact ⟨(c, e), n, ⟨hc, he⟩, by
        simp only [ha, if_true]
        exact passes_bind (passes_argSt 0 u) (passes_if_pos ha (passes_bind po rfl))⟩
    · exact ⟨(c, e), k, ⟨hc, he⟩, by
        simp only [ha]
        exact passes_bind (passes_argSt 0 u) (passes_if_neg ha (passes_bind rfl pb))⟩) (s.fpuEntered ip none)
  exact ⟨v, c, e, n, hc, he, passes_bind (passes_enterFpu h) p⟩

theorem passes_trigOne {out : M Bool} {C : Bool → Prop} (f : XEnv → XArg → XOut)
    (ho : ∀ u : State, ∃ c n, C c ∧ Passes out u c (u.withFpu u.fpu n)) (s : State) (ip : Word) (h : FpuReady s) :
    ∃ v c e n, C c ∧ s.fpu.HasEnv false e ∧ Passes (trigOne ip out f) s ()
      ((s.fpuEntered ip none).withFpu (((s.fpuEntered ip none).fpu.withCodes v).trig c (·.setSt 0 indefinite80)
        fun g => g.deliver (f e (xreg (g.st 0))).flags (f e (xreg (g.st 0))).up (·.setSt 0 (f e (xreg (g.st 0))).val)) n) :=
  passes_trig (bd := fun e a g => g.deliver (f e a).flags (f e a).up (·.setSt 0 (f e a).val))
    (passes_modifyFpu fun g => g.setSt 0 indefinite80) ho (fun u a => by
      obtain ⟨e, he, p⟩ := passes_xEnv u
      exact ⟨e, _, he, passes_bind p (passes_deliver _ _ _ _)⟩) s ip h

theorem passes_partialRem (near : Bool) (s : State) (ip : Word) (h : FpuReady s) :
    ∃ v c o e n, s.fpu.HasEnv false e ∧ Passes (partialRem near ip) s ()
      ((s.fpuEntered ip none).withFpu (((s.fpuEntered ip none).fpu.withCodes v).whenHeld [0, 1] (·.setSt 0 indefinite80)
        fun g => g.remainder c o (xRem near e (xreg (g.st 0)) (xreg (g.st 1)))) n) := by
  obtain ⟨v, ⟨e, c, o⟩, n, he, p⟩ := passes_needStOpen (ε := XEnv × Bool × BitVec 4) (P := fun x f => f.HasEnv false x.1)
    [0, 1] (masked := underflowSt 0 0) (mk := (·.setSt 0 indefinite80))
    (body := do
      let r := xRem near (← xEnv) (← argSt 0) (← argSt 1)
      if ← report preOnly r.out.flags false then
        modifyFpu fun f => f.setSt 0 r.out.val
        match r.quotient with
        | .complete q =>
          modifyFpu fun f =>
            { f with fsw := { f.fsw with c2 := false, c0 := decide (q / 4 % 2 = 1), c3 := decide (q / 2 % 2 = 1),
                                         c1 := decide (q % 2 = 1) } }
        | .incomplete =>
          let c ← freeBit
          modifyFpu fun f => { f with fsw := { f.fsw with c1 := c, c2 := true } }
        | .absent => freeAllCodes)
    (bd := fun x g => g.remainder x.2.1 x.2.2 (xRem near x.1 (xreg (g.st 0)) (xreg (g.st 1)))) (fun _ => rfl) (fun u => by
      obtain ⟨e, he, p⟩ := passes_xEnv u
      have go (r : XRem) (t : State) : ∃ c o n, Passes (do
          if ← report preOnly r.out.flags false then
            modifyFpu fun f => f.setSt 0 r.out.val
            match r.quotient with
            | .complete q =>
              modifyFpu fun f =>
                { f with fsw := { f.fsw with c2 := false, c0 := decide (q / 4 % 2 = 1), c3 := decide (q / 2 % 2 = 1),
                                             c1 := decide (q % 2 = 1) } }
            | .incomplete =>
              let c ← freeBit
              modifyFpu fun f => { f with fsw := { f.fsw with c1 := c, c2 := true } }
            | .absent => freeAllCodes) t () (t.withFpu (t.fpu.remainder c o r) n) := by
        cases hu : t.fpu.unmasked r.out.flags 7
        · cases hq : r.quotient with
          | complete q =>
            refine ⟨false, 0, t.free, passes_bind (passes_report t preOnly _ false) ?_⟩
            simp only [hu, hq, Fpu.remainder, Fpu.deliver]; rfl
          | incomplete =>
            refine ⟨(Config.freeBits 1 t.free).getLsbD 0, 0, t.free + 1, passes_bind (passes_report t preOnly _ false) ?_⟩
            simp only [hu, hq, Fpu.remainder, Fpu.deliver]; rfl
          | absent =>
            refine ⟨false, Config.freeBits 4 t.free, t.free + 1, passes_bind (passes_report t preOnly _ false) ?_⟩
            simp only [hu, hq, Fpu.remainder, Fpu.deliver]; rfl
        · refine ⟨false, 0, t.free, passes_bind (passes_report t preOnly _ false) ?_⟩
          simp only [hu, Fpu.remainder, Fpu.deliver]; rfl
      obtain ⟨c, o, n, q⟩ := go (xRem near e (xreg (u.fpu.st 0)) (xreg (u.fpu.st 1))) (u.withFpu u.fpu (u.free + 1))
      exact ⟨(e, c, o), n, he, passes_bind p (passes_bind (passes_argSt 0 _) (passes_bind (passes_argSt 1 _) q))⟩)
    (s.fpuEntered ip none)
  exact ⟨v, c, o, e, n, he, passes_bind (passes_enterFpu h) p⟩

theorem passes_exchange (j : Fin 8) (s : State) : ∃ v n, Passes (do
    let f ← getFpu
    let empty := f.isEmpty 0 || f.isEmpty j
    let ok ← if empty then stackFault false else pure true
    freeCodes
    if ok then
      let g := { f with fsw := (← getFpu).fsw }
      let h := if empty then g else { g with fsw := { g.fsw with c1 := false } }
      let reg (i : Fin 8) : BitVec 80 × BitVec 2 :=
        if f.isEmpty i then (indefinite80, 2) else (f.st i, f.tagAt (f.phys i))
      modifyFpu fun _ => (h.setStTag 0 (reg j).1 (reg j).2).setStTag j (reg 0).1 (reg 0).2) s ()
    (s.withFpu ((s.fpu.withCodes v).whenHeld [0, j] (·.exchange j) fun g => (g.withC1 false).exchange j) n) := by
  have hw : ∀ v, ([0, j] : List (Fin 8)).any (s.fpu.withCodes v).isEmpty = (s.fpu.isEmpty 0 || s.fpu.isEmpty j) := fun v => by
    simp only [List.any_cons, List.any_nil, Bool.or_false]; rfl
  cases he : s.fpu.isEmpty 0 || s.fpu.isEmpty j
  · refine ⟨Config.freeBits 3 s.free, s.free + 1, ?_⟩
    unfold Fpu.whenHeld
    rw [hw, he]
    refine passes_bind (passes_getFpu s) ?_
    rw [he]
    exact passes_bind (passes_pure true s) (passes_bind (passes_freeCodes s) (passes_bind rfl rfl))
  · refine ⟨Config.freeBits 3 s.free, s.free + 1, ?_⟩
    unfold Fpu.whenHeld
    rw [hw, he]
    refine passes_bind (passes_getFpu s) ?_
    rw [he]
    refine passes_bind (passes_stackFault s false) (passes_bind (passes_freeCodes _) ?_)
    unfold Fpu.stackFault
    have hm : (s.fpu.withCodes (Config.freeBits 3 s.free)).fcw = s.fpu.fcw := rfl
    rw [hm]
    cases hk : s.fpu.fcw.getLsbD 0
    · rfl
    · exact passes_bind rfl rfl

/-- An exception detected before the result is one that withholds a store. -/
theorem unmasked_or (f : Fpu) (fl : FpFlags) : (f.unmasked fl 7 || f.unmasked fl 63) = f.unmasked fl 63 := by
  cases h : f.unmasked fl 63
  · have h2 : fl &&& 63 &&& ~~~(f.fcw.setWidth 6) = 0 := by simpa [Fpu.unmasked] using h
    have h3 : fl &&& 7 &&& ~~~(f.fcw.setWidth 6) = 7 &&& (fl &&& 63 &&& ~~~(f.fcw.setWidth 6)) := by
      generalize ~~~(f.fcw.setWidth 6 : BitVec 6) = m
      clear h h2; revert fl m; decide +kernel
    unfold Fpu.unmasked
    rw [h3, h2]; rfl
  · simp

theorem passes_storeSt {m : MemRef} {n nat indef pops : Nat} {f : XEnv → BitVec 80 → XStore} {as : List Nat} {ip : Word}
    (h : FpuReady s) (hp : Passes (placeFpu m n nat) (s.fpuEntered ip (some m)) as u) :
    ∃ v e k, u.fpu.HasEnv false e ∧ Passes (storeSt ip m n nat indef pops f) s ()
      (u.storedSt as indef pops (u.fpu.withCodes v) (f e (u.fpu.st 0)) k) := by
  let t := u.withFpu (u.fpu.withCodes (Config.freeBits 3 u.free)) (u.free + 1)
  obtain ⟨e, he, pe⟩ := passes_xEnv t
  let g := u.fpu.withCodes (Config.freeBits 3 u.free)
  suffices ∃ k, Passes (storeSt ip m n nat indef pops f) s () (u.storedSt as indef pops g (f e (u.fpu.st 0)) k) from
    have ⟨k, p⟩ := this
    ⟨_, e, k, he, p⟩
  unfold State.storedSt
  by_cases h0 : g.isEmpty 0 = true
  · have hn : ([0] : List (Fin 8)).any t.fpu.isEmpty = true := by rw [List.any_cons, show t.fpu.isEmpty 0 = true from h0]; rfl
    refine ⟨t.free, ?_⟩
    rw [if_pos h0]
    refine passes_bind (passes_enterFpu h) (passes_bind hp (passes_bind (passes_freeCodes u) (passes_bind (passes_getFpu _)
      (passes_if_pos hn (passes_bind (passes_stackFault _ _) ?_)))))
    unfold Fpu.stackFault
    rw [show t.fpu.fcw = g.fcw from rfl]
    cases hk : g.fcw.getLsbD 0
    · rfl
    · exact passes_bind rfl rfl
  · have hn : ¬ (([0] : List (Fin 8)).any t.fpu.isEmpty = true) := by
      rw [List.any_cons, Bool.eq_false_of_not_eq_true (show ¬ t.fpu.isEmpty 0 = true from h0)]; exact Bool.false_ne_true
    refine ⟨t.free + 1, ?_⟩
    rw [if_neg h0]
    refine passes_bind (passes_enterFpu h) (passes_bind hp (passes_bind (passes_freeCodes u) (passes_bind (passes_getFpu _)
      (passes_if_neg hn (passes_bind pe (passes_bind (passes_getFpu _) (passes_bind (passes_report _ _ _ _) ?_)))))))
    rw [unmasked_or, show (t.withFpu t.fpu (t.free + 1)).fpu = g from rfl, show g.st 0 = u.fpu.st 0 from rfl]
    cases hu : g.unmasked (f e (u.fpu.st 0)).flags 63
    · exact passes_if_pos rfl (passes_bind rfl rfl)
    · exact passes_if_neg (by decide) rfl

theorem passes_waitOnly (h : s.cr0Bit 1 = false ∨ s.cr0Bit 3 = false) (he : s.fpu.es = false) :
    ∃ v n, Passes waitOnly s () (s.withFpu (s.fpu.withAllCodes v) n) := by
  refine ⟨_, _, passes_bind (passes_get s) (passes_bind (passes_ensure ?_ s) (passes_bind (passes_needNoPending he)
    (passes_freeAllCodes s)))⟩
  rcases h with h | h <;> simp [h]

/-! FCOMI and its kin change the flags too. -/

theorem passes_compareEflags (q : Bool) (ip : Word) (i : Fin 8) (n : Nat) (hc : s.has .cmov = true) (h : FpuReady s) :
    Passes (compareEflags q ip i n) s () ((s.fpuEntered ip none).comparedFlags q i n) := by
  refine passes_bind (passes_needFeature hc) (passes_bind (passes_enterFpu h) (passes_bind rfl (passes_bind (passes_getFpu _) ?_)))
  generalize s.fpuEntered ip none = u
  unfold State.comparedFlags
  dsimp only
  cases he : u.fpu.isEmpty 0 || u.fpu.isEmpty i
  · have hn : ¬ (([0, i] : List (Fin 8)).any u.fpu.isEmpty = true) := by
      rw [List.any_cons, List.any_cons, List.any_nil, Bool.or_false, he]; exact Bool.false_ne_true
    refine passes_if_neg hn (passes_bind (passes_argSt 0 _) (passes_bind (passes_argSt i _) ?_))
    show Passes (do
      if ← report preOnly ((xCompare q (xreg (u.fpu.st 0)) (xreg (u.fpu.st i))).2 &&& 1) false then
        setOrderFlags (xCompare q (xreg (u.fpu.st 0)) (xreg (u.fpu.st i))).1
      modifyFpu fun f => f.popN n) _ _ _
    generalize xCompare q (xreg (u.fpu.st 0)) (xreg (u.fpu.st i)) = r
    refine passes_bind (passes_report _ _ _ _) ?_
    cases hu : u.fpu.unmasked (r.2 &&& 1) 7
    · exact passes_if_pos (by rw [Bool.or_self]; simp) (passes_bind rfl rfl)
    · exact passes_if_neg (by rw [Bool.or_self]; simp) rfl
  · have hn : ([0, i] : List (Fin 8)).any u.fpu.isEmpty = true := by
      rw [List.any_cons, List.any_cons, List.any_nil, Bool.or_false, he]
    refine passes_if_pos hn (passes_bind (passes_stackFault _ _) ?_)
    unfold Fpu.stackFault
    cases hk : u.fpu.fcw.getLsbD 0
    · exact passes_if_neg (by simp) rfl
    · exact passes_if_pos rfl (passes_bind rfl rfl)

theorem compareEflags_passes {q : Bool} {ip : Word} {i : Fin 8} {n : Nat} (hc : s.has .cmov = true) (h : FpuReady s) :
    ∃ t, Passes (compareEflags q ip i n) s () t ∧ FpuFlagsOnly s t := by
  have w (x t : State) (o : FpuFlagsOnly s x) (o2 : FpuOnly x t) : FpuFlagsOnly s t := by
    obtain ⟨f, g, k, rfl⟩ := o
    obtain ⟨f2, k2, rfl⟩ := o2
    exact ⟨f2, g, k2, rfl⟩
  have fin (ord : Order) (x : State) (o : FpuFlagsOnly s x) :
      ∃ t, Passes (do setOrderFlags ord; modifyFpu fun f => f.popN n) x () t ∧ FpuFlagsOnly s t := by
    obtain ⟨f, g, k, rfl⟩ := o
    exact ⟨_, passes_bind rfl rfl, ⟨_, _, k, rfl⟩⟩
  have pop (x : State) (o : FpuFlagsOnly s x) :
      ∃ t, Passes (modifyFpu fun f => f.popN n) x () t ∧ FpuFlagsOnly s t := by
    obtain ⟨f, g, k, rfl⟩ := o
    exact ⟨_, rfl, ⟨_, _, k, rfl⟩⟩
  let s1 : State := { s.fpuEntered ip none with flags := { s.flags with of := false, sf := false, af := false } }
  have e1 : FpuFlagsOnly s s1 := ⟨_, _, s.free, rfl⟩
  obtain ⟨f1, t2, p2, o2⟩ := getFpu_step s1
  have e2 := w _ _ e1 o2
  suffices ∃ t, Passes (do
      needSt [0, i]
        (do setOrderFlags .unordered
            modifyFpu fun f => f.popN n)
        (do let (o, fl) := xCompare q (← argSt 0) (← argSt i)
            if ← report preOnly (fl &&& 1) false then setOrderFlags o
            modifyFpu fun f => f.popN n)) s1 () t ∧ FpuFlagsOnly s t by
    obtain ⟨t, p, o⟩ := this
    exact ⟨t, passes_bind (passes_needFeature hc) (passes_bind (passes_enterFpu h) (passes_bind (t := s1) rfl p)), o⟩
  by_cases he : ([0, i] : List (Fin 8)).any f1.isEmpty
  · obtain ⟨mk, t3, p3, o3⟩ := stackFault_step false t2
    have e3 := w _ _ e2 o3
    cases mk with
    | true =>
      obtain ⟨t, pw, ow⟩ := fin .unordered t3 e3
      exact ⟨t, passes_bind p2 (passes_if_pos he (passes_bind p3 (passes_if_pos rfl pw))), ow⟩
    | false =>
      exact ⟨t3, passes_bind p2 (passes_if_pos he (passes_bind p3 (passes_if_neg (by decide) rfl))), e3⟩
  · obtain ⟨a, t3, p3, o3⟩ := argSt_step 0 t2
    obtain ⟨b, t4, p4, o4⟩ := argSt_step i t3
    obtain ⟨ok, t5, p5, o5⟩ := report_step preOnly ((xCompare q a b).2 &&& 1) false t4
    have e5 := w _ _ (w _ _ (w _ _ e2 o3) o4) o5
    cases ok with
    | true =>
      obtain ⟨t, pw, ow⟩ := fin (xCompare q a b).1 t5 e5
      exact ⟨t, passes_bind p2 (passes_if_neg he (passes_bind p3 (passes_bind p4 (passes_bind p5 (passes_if_pos rfl pw))))), ow⟩
    | false =>
      obtain ⟨t, pw, ow⟩ := pop t5 e5
      exact ⟨t, passes_bind p2 (passes_if_neg he (passes_bind p3 (passes_bind p4 (passes_bind p5
        (passes_if_neg (by decide) pw))))), ow⟩

end Sys2Proof.Machine
end

