-- ==== Sys2Proof/Laws/Xsave.lean ====
section
/-! SUPPORT. LOCK, the transactions, and the shared operations of FXSAVE, FXRSTOR and the XSAVE family. -/

namespace Sys2Proof.Machine

variable {s t u v : State}

/-! LOCK. -/

theorem lockBody_passes {l : Lockable} (h : LockReady l s) : ∃ t, Passes (lockBody l) s.begin () t := by
  cases l with
  | aluReg op w m r => obtain ⟨q, u, hq⟩ := h; cases op <;> exact ⟨_, passes_bind hq rfl⟩
  | aluImm op w m imm => obtain ⟨q, u, hq⟩ := h; cases op <;> exact ⟨_, passes_bind hq rfl⟩
  | bit op w m src =>
    obtain ⟨q, u, hq⟩ := h
    refine ⟨_, passes_bind hq (passes_bind rfl (passes_bind (passes_bind (passes_get _)
      (passes_bind (undefStatus_passes _ _) rfl)) rfl))⟩
  | un op w m => obtain ⟨q, u, hq⟩ := h; cases op <;> exact ⟨_, passes_bind hq rfl⟩
  | cmpxchg w m r =>
    obtain ⟨q, u, hq⟩ := h
    by_cases he : u.reg w rAX = u.placeVal w q
    · exact ⟨_, cmpxchgBody_eq hq he⟩
    · exact ⟨_, cmpxchgBody_ne hq he⟩
  | xadd w m r => obtain ⟨q, u, hq⟩ := h; exact ⟨_, passes_bind hq rfl⟩
  | xchg w m r => obtain ⟨q, u, hq⟩ := h; exact ⟨_, passes_bind hq rfl⟩
  | cmpxchg8b m =>
    obtain ⟨hf, as, u, hq⟩ := h
    by_cases he : (u.reg .w32 rDX).toNat * 2 ^ Width.w32.bits + (u.reg .w32 rAX).toNat = u.mem.readList as
    · exact ⟨_, passes_bind (passes_needFeature hf) (cmpxchgPair_eq hq he)⟩
    · exact ⟨_, passes_bind (passes_needFeature hf) (cmpxchgPair_ne hq he)⟩
  | cmpxchg16b m =>
    obtain ⟨hf, as, u, hq⟩ := h
    by_cases he : (u.reg .w64 rDX).toNat * 2 ^ Width.w64.bits + (u.reg .w64 rAX).toNat = u.mem.readList as
    · exact ⟨_, passes_bind (passes_get _) (passes_bind (passes_ensure hf _) (cmpxchgPair_eq hq he))⟩
    · exact ⟨_, passes_bind (passes_get _) (passes_bind (passes_ensure hf _) (cmpxchgPair_ne hq he))⟩

theorem plainOf_eq (l : Lockable) (s : State) : exec (plainOf l) s = run (lockBody l) s := by
  cases l with
  | aluReg op w m r => cases op <;> rfl
  | aluImm op w m imm => cases op <;> rfl
  | bit op w m src => cases op <;> rfl
  | un op w m => cases op <;> rfl
  | cmpxchg w m r => rfl
  | xadd w m r => rfl
  | xchg w m r => rfl
  | cmpxchg8b m => rfl
  | cmpxchg16b m => rfl

/-- An instruction with the meaning of a lockable one completes as the plain instruction does. -/
theorem lock_completes {i : Instr} {l : Lockable} (hi : exec i s = run (lockBody l) s) (h : LockReady l s) :
    ∃ t, Completes i s t ∧ Completes (plainOf l) s t := by
  obtain ⟨t, ht⟩ := lockBody_passes h
  exact ⟨t, hi.trans (run_of_passes ht), (plainOf_eq l s).trans (run_of_passes ht)⟩

/-! FXSAVE and FXRSTOR. -/

theorem needFxsr_passes (hf : s.has .fxsr = true) (hm : s.cr0Bit 2 = false) (ht : s.cr0Bit 3 = false) :
    Passes needFxsr s () s :=
  passes_bind (passes_needFeature hf) (passes_bind (passes_get s) (passes_ensure (by rw [hm, ht]; rfl) s))

theorem writeInto_passes (as : List Nat) (ps : List Part) (s : State) : Passes (writeInto as ps) s () (s.withFields as ps) := by
  induction ps generalizing s with
  | nil => rfl
  | cons p ps ih => exact passes_bind rfl (ih _)

theorem writeParts_passes (ps : List (List Nat × Nat)) (s : State) : Passes (writeParts ps) s () (s.withParts ps) := by
  induction ps generalizing s with
  | nil => rfl
  | cons p ps ih => exact passes_bind rfl (ih _)

theorem needSpan_passes {off : Word} {n : Nat} (h : s.mode = .real → off.toNat + n - 1 ≤ 0xFFFF) :
    Passes (needSpan off n) s () s := by
  refine passes_bind (passes_get s) (passes_ensure ?_ s)
  by_cases hm : s.mode = .real
  · have := h hm
    simp only [hm, decide_true, Bool.true_and, Bool.not_eq_true', decide_eq_false_iff_not]
    omega
  · rw [decide_eq_false hm]; rfl

theorem fxsave_passes {wide : Bool} {m : MemRef} {as : List Nat} (hf : s.has .fxsr = true) (hm : s.cr0Bit 2 = false)
    (ht : s.cr0Bit 3 = false) (hs : s.mode = .real → (s.ea m).toNat + 511 ≤ 0xFFFF) (ha : Passes (resolve m.seg .write 1 16 (s.ea m) 512) s as u) :
    Passes (fxsave wide m) s () ({ u with free := u.free + 1 }.withFields as (s.x87Head wide ++ s.x87Regs ++
      s.sseImage (Config.freeBits 2080 u.free))) :=
  passes_bind (needFxsr_passes hf hm ht) (passes_bind (passes_get _) (passes_bind (needSpan_passes hs) (passes_bind ha
    (passes_bind rfl (writeInto_passes _ _ _)))))

theorem fxrstor_passes {wide : Bool} {m : MemRef} {as : List Nat} {n mx xs : Nat} (hf : s.has .fxsr = true)
    (hm : s.cr0Bit 2 = false) (ht : s.cr0Bit 3 = false) (hs : s.mode = .real → (s.ea m).toNat + 511 ≤ 0xFFFF)
    (ha : Passes (resolve m.seg .read 1 16 (s.ea m) 512) s as u)
    (hn : n = u.mem.readList as) (hx : badMxcsr (n / 2 ^ 192) = false)
    (h9 : (mx, xs) = if s.cr4Bit 9 then (n / 2 ^ 192 % 2 ^ 32, n / 2 ^ 1280) else
      ((Config.freeBits 2064 u.free).toNat % 2 ^ 16, (Config.freeBits 2064 u.free).toNat / 2 ^ 16)) :
    Passes (fxrstor wide m) s ()
      { State.loadXmms { u with fpu := fpuOfImage wide (Config.freeBits 32 (u.free + 1)) n (n / 2 ^ 256), free := u.free + 2 }
          xs with mxcsr := BitVec.ofNat 32 mx } := by
  subst hn
  refine passes_bind (needFxsr_passes hf hm ht) (passes_bind (passes_get _) (passes_bind (needSpan_passes hs)
    (passes_bind ha (passes_bind rfl (passes_bind (passes_ensure (by rw [hx]; rfl) _) (passes_bind rfl ?_))))))
  rw [← h9]
  exact passes_bind rfl rfl

/-! The XSAVE family. -/

theorem needXsave_passes {own : Option Config.Feature} {sup : Bool} {m : MemRef} (h : XsaveImage own sup m s) :
    Passes (needXsave own sup m) s () s := by
  obtain ⟨hx, ho, ht, hp, ha⟩ := h
  have hj : Passes (do
      ensure (!(← get).cr0Bit 3) raiseNM
      if sup then needCpl0
      let s ← get
      ensure (decide ((s.linear m.seg (s.segOf m.seg) (s.ea m)).toNat % 64 = 0)) raiseGP : M Unit) s () s := by
    refine passes_bind (passes_get s) (passes_bind (passes_ensure (c := !s.cr0Bit 3) (by rw [ht]; rfl) _) ?_)
    have hg : Passes (do
        let s ← get
        ensure (decide ((s.linear m.seg (s.segOf m.seg) (s.ea m)).toNat % 64 = 0)) raiseGP : M Unit) s () s :=
      passes_bind (passes_get s) (passes_ensure (decide_eq_true ha) s)
    cases sup with
    | true => exact passes_bind (passes_needCpl0 (hp rfl)) hg
    | false => exact hg
  cases own with
  | none => exact passes_bind (passes_needOsXsave hx) hj
  | some f => exact passes_bind (passes_needOsXsave hx) (passes_bind (passes_needFeature (ho f rfl)) hj)

theorem component_passes {asked present : Bool} {load init : M Unit} {t1 t2 : State} (h1 : Passes load s () t1)
    (h2 : Passes init s () t2) :
    Passes (component asked present load init) s () (if asked then (if present then t1 else t2) else s) := by
  cases asked <;> cases present <;> first | rfl | exact h1 | exact h2

theorem requested_passes (sup : Bool) (s : State) : Passes (requested sup) s (s.rfbm sup) s := rfl

theorem xsaveStd_passes {own : Option Config.Feature} {opt wide : Bool} {m : MemRef} {low high : List (List Nat × Nat)}
    {head : List Nat} {x0 x1 x2 y : Bool} {u1 u2 u3 : State} (h : XsaveImage own false m s)
    (h0 : x0 = ((s.rfbm false).getLsbD 0 && (!opt || s.xinuse.getLsbD 0)))
    (h1 : x1 = ((s.rfbm false).getLsbD 1 && (!opt || s.xinuse.getLsbD 1)))
    (h2 : x2 = ((s.rfbm false).getLsbD 2 && (!opt || s.xinuse.getLsbD 2)))
    (hy : y = ((s.rfbm false).getLsbD 1 || (s.rfbm false).getLsbD 2))
    (hl : Passes (placeParts m (s.legacyParts wide x0 y x1)) s low u1) (hh : Passes (resolvePart .write m 512 8) u1 head u2)
    (hi : Passes (placeParts m (if x2 then s.avxParts else [])) u2 high u3) :
    Passes (xsaveStd own opt wide m) s () (((u3.withParts low).withParts high).physWrite head
      (((BitVec.ofNat 64 (u3.mem.readList head) &&& ~~~(s.rfbm false)) ||| (s.xinuse &&& s.rfbm false)) : Word).toNat) := by
  subst h0 h1 h2 hy
  exact passes_bind (needXsave_passes h) (passes_bind (requested_passes false s) (passes_bind (passes_get _) (passes_bind hl
    (passes_bind hh (passes_bind hi (passes_bind rfl (passes_bind (writeParts_passes _ _)
      (passes_bind (writeParts_passes _ _) rfl))))))))

theorem xsaveCompact_passes {own : Config.Feature} {sup wide : Bool} {m : MemRef} {low head high : List (List Nat × Nat)}
    {bv : Word} {u1 u2 u3 : State} (h : XsaveImage (some own) sup m s)
    (hb : bv = (s.xinuse ||| if s.mxcsr = 0x1F80 then 0 else 2) &&& s.rfbm sup)
    (hl : Passes (placeParts m (s.legacyParts wide (bv.getLsbD 0) (bv.getLsbD 1) (bv.getLsbD 1))) s low u1)
    (hh : Passes (placeParts m [⟨512, 8, bv.toNat⟩, ⟨520, 8, (s.rfbm sup ||| 0x8000000000000000).toNat⟩]) u1 head u2)
    (hi : Passes (placeParts m (if bv.getLsbD 2 then s.avxParts else [])) u2 high u3) :
    Passes (xsaveCompact own sup wide m) s () (((u3.withParts low).withParts high).withParts head) := by
  subst hb
  exact passes_bind (needXsave_passes h) (passes_bind (requested_passes sup s) (passes_bind (passes_get _) (passes_bind hl
    (passes_bind hh (passes_bind hi (passes_bind (writeParts_passes _ _) (passes_bind (writeParts_passes _ _)
      (writeParts_passes _ _))))))))

theorem passes_when (c : Bool) (f : State → State) (s : State) :
    Passes (if c then modify f else pure () : M Unit) s () (if c then f s else s) := by cases c <;> rfl

theorem loadXmms_mem (s : State) (v : Nat) : (s.loadXmms v).mem = s.mem := by
  unfold State.loadXmms
  generalize s.imageRegs = l
  induction l generalizing s with
  | nil => rfl
  | cons r l ih => exact (ih _).trans rfl

theorem loadHighs_mem (s : State) (v : Nat) : (s.loadHighs v).mem = s.mem := by
  unfold State.loadHighs
  generalize s.imageRegs = l
  induction l generalizing s with
  | nil => rfl
  | cons r l ih => exact (ih _).trans rfl

theorem loadXmms_eq (s : State) (v : Nat) : s.loadXmms v = { s with ymm := (s.loadXmms v).ymm } := by
  unfold State.loadXmms
  generalize s.imageRegs = l
  induction l generalizing s with
  | nil => rfl
  | cons r l ih => exact (ih _).trans rfl

theorem loadHighs_eq (s : State) (v : Nat) : s.loadHighs v = { s with ymm := (s.loadHighs v).ymm } := by
  unfold State.loadHighs
  generalize s.imageRegs = l
  induction l generalizing s with
  | nil => rfl
  | cons r l ih => exact (ih _).trans rfl

theorem xrestore_passes {own : Option Config.Feature} {sup wide mx : Bool} {m : MemRef} {rfbm bv comp : Word}
    {hd rs a0 a1 a2 a3 a4 : List Nat} {u1 u2 u3 u4 u5 u6 u7 : State} (h : XsaveImage own sup m s) (hr : rfbm = s.rfbm sup)
    (hh : Passes (resolvePart .read m 512 16) s hd u1) (hb : bv = BitVec.ofNat 64 (u1.mem.readList hd))
    (hc : comp = BitVec.ofNat 64 (u1.mem.readList hd / 2 ^ 64))
    (hs : Passes (resolvePart .read m 528 (if comp.getLsbD 63 then 48 else 8)) u1 rs u2)
    (hm : mx = if comp.getLsbD 63 then rfbm.getLsbD 1 && bv.getLsbD 1 else rfbm.getLsbD 1 || rfbm.getLsbD 2)
    (p0 : Passes (readIf (rfbm.getLsbD 0 && bv.getLsbD 0) m 0 24) u2 a0 u3) (p1 : Passes (readIf mx m 24 4) u3 a1 u4)
    (p2 : Passes (readIf (rfbm.getLsbD 0 && bv.getLsbD 0) m 32 128) u4 a2 u5)
    (p3 : Passes (readIf (rfbm.getLsbD 1 && bv.getLsbD 1) m 160 (16 * u2.imageRegs.length)) u5 a3 u6)
    (p4 : Passes (readIf (rfbm.getLsbD 2 && bv.getLsbD 2) m 576 (16 * u2.imageRegs.length)) u6 a4 u7)
    (ho : headerOk sup (u2.has .xsavec) (if sup then u2.sys.xcr0 ||| u2.msr.xss else u2.sys.xcr0) bv comp
      (u2.mem.readList rs) = true)
    (hx : badMxcsr (u7.mem.readList a1) = false) :
    Passes (xrestore own sup wide m) s () (u7.restored wide (comp.getLsbD 63) mx rfbm bv (u7.xrstorInfo m comp) (Config.freeBits 32 u7.free)
      (u7.mem.readList a0) (u7.mem.readList a2) (u7.mem.readList a3) (u7.mem.readList a4) (u7.mem.readList a1)) := by
  subst hr hb hc hm
  refine passes_bind (needXsave_passes h) (passes_bind (requested_passes sup s) (passes_bind hh (passes_bind rfl
    (passes_bind hs (passes_bind rfl (passes_bind (passes_get _) (passes_bind p0 (passes_bind p1 (passes_bind p2 (passes_bind p3
      (passes_bind p4 (passes_bind (passes_ensure ho _) (passes_bind rfl (passes_bind
        (passes_ensure (c := !badMxcsr (u7.mem.readList a1)) (by rw [hx]; rfl) _) (passes_bind
          (component_passes (passes_bind rfl (passes_bind rfl rfl)) rfl) ?_)))))))))))))))
  unfold State.restored
  extract_lets jp t1 src t2 t3 fin
  have h1 : t1.mem = u7.mem := by
    simp only [t1]
    cases (s.rfbm sup).getLsbD 0 <;> cases (BitVec.ofNat 64 (u1.mem.readList hd)).getLsbD 0 <;> rfl
  have h2 : t2.mem = u7.mem := by
    refine Eq.trans ?_ h1
    simp only [t2]
    split
    · split
      · exact loadXmms_mem _ _
      · exact loadXmms_mem _ _
    · rfl
  refine passes_bind (a := u7.mem.readList a3) (t := t1) (congrArg (fun x : Memory => EStateM.Result.ok (x.readList a3) t1) h1)
    (passes_bind (a := ()) (t := t2) (component_passes (passes_modify _ _) (passes_modify _ _))
      (passes_bind (a := u7.mem.readList a4) (t := t2) (congrArg (fun x : Memory => EStateM.Result.ok (x.readList a4) t2) h2)
        (passes_bind (a := ()) (t := t3) (component_passes (passes_modify _ _) (passes_modify _ _))
          ?_)))
  dsimp only
  have e1 : ∃ f y x n, t1 = { u7 with fpu := f, ymm := y, mxcsr := x, free := n } := by
    simp only [t1]
    split
    · split
      · exact ⟨_, _, _, _, rfl⟩
      · exact ⟨_, _, _, _, rfl⟩
    · exact ⟨_, _, _, _, rfl⟩
  obtain ⟨f1, y1, x1, n1, e1⟩ := e1
  have e2 : ∃ f y x n, t2 = { u7 with fpu := f, ymm := y, mxcsr := x, free := n } := by
    simp only [t2]
    rw [e1]
    split
    · split
      · rw [loadXmms_eq]; exact ⟨_, _, _, _, rfl⟩
      · simp only [src]; rw [e1, loadXmms_eq]; exact ⟨_, _, _, _, rfl⟩
    · exact ⟨_, _, _, _, rfl⟩
  obtain ⟨f2, y2, x2, n2, e2⟩ := e2
  have e3 : ∃ f y x n, t3 = { u7 with fpu := f, ymm := y, mxcsr := x, free := n } := by
    simp only [t3]
    rw [e2]
    split
    · split
      · rw [loadHighs_eq]; exact ⟨_, _, _, _, rfl⟩
      · rw [loadHighs_eq]; exact ⟨_, _, _, _, rfl⟩
    · exact ⟨_, _, _, _, rfl⟩
  obtain ⟨f3, y3, x3, n3, e3⟩ := e3
  simp only [fin]
  rw [e3]
  generalize (if (BitVec.ofNat 64 (u1.mem.readList hd / 2 ^ 64)).getLsbD 63 then
    (s.rfbm sup).getLsbD 1 && (BitVec.ofNat 64 (u1.mem.readList hd)).getLsbD 1
    else (s.rfbm sup).getLsbD 1 || (s.rfbm sup).getLsbD 2) = b
  cases b
  · exact passes_modify _ _
  · exact passes_bind rfl (passes_modify _ _)

theorem xend_commits (hf : s.has .rtm = true) (hs : s.rtm.snapshot.isSome = true) (hn : s.rtm.nest ≤ 1)
    (hp : s.pins.rtmCommitFail = none) : Completes .xend s { s.begin with rtm := {} } := by
  refine run_of_passes (passes_bind (passes_needFeature hf) (passes_bind (passes_get _) (passes_bind (passes_ensure hs _)
    (passes_if_pos hn ?_))))
  rw [show s.begin.pins.rtmCommitFail = none from hp]
  rfl

theorem xend_fails {st : BitVec 32} (hf : s.has .rtm = true) (hs : s.rtm.snapshot.isSome = true) (hn : s.rtm.nest ≤ 1)
    (hp : s.pins.rtmCommitFail = some st) :
    Completes .xend s ({ s.begin with pins := { s.pins with rtmCommitFail := none } }.rtmAbort st) := by
  refine run_of_passes (passes_bind (passes_needFeature hf) (passes_bind (passes_get _) (passes_bind (passes_ensure hs _)
    (passes_if_pos hn ?_))))
  rw [show s.begin.pins.rtmCommitFail = some st from hp]
  rfl

end Sys2Proof.Machine
end

