-- ==== Sys2Proof/Tests/Slice0.lean ====
section
/-! SUPPORT. Tests: what well-formedness refuses, a word of every constructor written out from the encodings of the spec, results
of single instructions, and for every obligation a state and operands that meet the hypotheses of each clause. -/

open Sys2Proof Sys2Proof.Machine

namespace Sys2Proof.Tests

set_option Elab.async false

/-- 64-bit mode, and a 32-bit code segment. -/
def m64 : CMode := ⟨true, true, true⟩
def m32 : CMode := ⟨false, true, true⟩
/-- The operand [rBX] or [EBX]. -/
def atRbx : MemRef := { ovr := none, asz := .a64, base := some 3, index := none, scale := 0, disp := 0, rip := false }
/-- The operand [EBX]. -/
def atEbx : MemRef := { atRbx with asz := .a32 }
/-- The bytes of each row decode in the mode to its instruction, with no byte left. -/
def Decodes (m : CMode) (l : List (List Byte × Instr)) : Prop :=
  ∀ p ∈ l, (decode m p.1).toOption.map (fun d => (d.instr, d.len)) = some (p.2, p.1.length)

/-! What the checks of well-formedness refuse: one ill-formed term for each check. -/

/-- The mode refuses every term of a list. -/
def Refuses (m : CMode) (l : List Instr) : Prop := ∀ i ∈ l, i.wf m = false
/-- Memory operands no encoding stands for: RSP as index, two bases in 16-bit addressing, a scaled operand without an index,
RIP-relative with a base, a 16-bit displacement that is no sign extension, an address size of another mode. -/
def badMem : List MemRef :=
  [{ atRbx with index := some 4 }, { atEbx with asz := .a16, base := some 3, index := some 5 }, { atRbx with scale := 1 },
   { atRbx with rip := true }, { atEbx with asz := .a16, disp := 0x8000 }, { atRbx with asz := .a16 }, { atRbx with ovr := some .es }]

theorem test_wf_refuses_memory : Refuses m64 (badMem.map fun a => .lea ⟨.w32, 1, a⟩) := by unfold Refuses; decide +kernel

theorem test_wf_refuses_memory_outside_64_bit_mode :
    Refuses m32 [.lea ⟨.w32, 1, atRbx⟩, .lea ⟨.w32, 1, { atEbx with base := some 8 }⟩,
      .lea ⟨.w32, 1, { atEbx with rip := true, base := none }⟩, .mov (.fromMoffs .w32 ⟨none, .a16, 0x10000⟩),
      .vgatherdps ⟨.l256, 1, 2, ⟨none, .a16, some 3, 1, 0, 0⟩⟩, .vgatherdps ⟨.l256, 1, 2, ⟨none, .a32, some 3, 9, 0, 0⟩⟩] := by
  unfold Refuses; decide +kernel

theorem test_wf_refuses_general :
    Refuses m32 [.add (.mr .w64 (.reg (.lo 0)) (.lo 1)), .add (.rm .w8 (.lo 4) (.reg (.lo 0))), .add (.mi .w16 (.reg (.lo 0)) 0x8000),
      .test (.mi .w8 (.reg (.lo 0)) 0x80), .test (.mr .w32 (.reg (.hi 0)) (.lo 1)), .shl ⟨.w64, .reg (.lo 0), .one⟩,
      .shld ⟨.w8, .reg (.lo 0), 1, .cl⟩, .shld ⟨.w32, .reg (.lo 0), 1, .one⟩, .inc ⟨.w32, .reg (.lo 9)⟩, .str ⟨.w8, .reg (.lo 0)⟩,
      .pop ⟨.w64, .reg (.lo 0)⟩, .pop ⟨.w8, .reg (.lo 0)⟩, .xchg ⟨.w32, .reg (.lo 8), .lo 0⟩, .arpl ⟨.w32, .reg (.lo 0), .lo 1⟩,
      .bsf ⟨.w8, 1, .reg (.lo 0)⟩, .adcx ⟨.w16, 1, .reg (.lo 0)⟩, .blsi ⟨.w64, 1, .reg (.lo 0)⟩, .imul (.two .w8 1 (.reg (.lo 0))),
      .imul (.three .w16 1 (.reg (.lo 0)) 0x10000), .bt ⟨.w8, .reg (.lo 0), .imm 1⟩, .bt ⟨.w32, .reg (.lo 0), .reg 8⟩,
      .movsx ⟨.w32, 1, .w32, .reg (.lo 0)⟩, .movsxd ⟨.w32, 1, .w32, .reg (.lo 0)⟩, .crc32 ⟨.w64, 1, .w8, .reg (.lo 0)⟩,
      .crc32 ⟨.w32, 1, .w64, .reg (.lo 0)⟩, .bswap ⟨.w8, 1⟩, .rdfsbase ⟨.w32, 1⟩, .movnti ⟨.w16, 1, atEbx⟩,
      .invpcid ⟨.w64, 1, atEbx⟩, .movbe (.load .w8 1 atEbx), .andn ⟨.w16, 1, 2, .reg (.lo 0)⟩, .rorx ⟨.w8, 1, .reg (.lo 0), 3⟩] := by
  unfold Refuses; decide +kernel

theorem test_wf_refuses_in_64_bit_mode :
    Refuses m64 [.aaa, .aam 10, .into, .pusha, .popfd, .les ⟨.w32, 1, atRbx⟩, .bound ⟨.w32, 1, atRbx⟩, .arpl ⟨.w16, .reg (.lo 0), .lo 1⟩,
      .push (.rm .w32 (.reg (.lo 0))), .push (.seg .w64 .es), .push (.imm .w16 0x8000), .popSeg ⟨.w64, .ss⟩, .jo ⟨.w32, 0⟩,
      .jmpFar (.ptr ⟨.w32, 8, 0⟩), .call (.rel .w32 0), .call (.ptr ⟨.w32, 8, 0⟩), .retNear ⟨.w32, none⟩, .lgdt ⟨.w32, atRbx⟩,
      .add (.mr .w8 (.reg (.hi 0)) (.lo 8)), .add (.mr .w8 (.reg (.lo 4)) (.hi 1)), .add (.mr .w32 (.reg (.hi 0)) (.lo 1)),
      .crc32 ⟨.w64, 1, .w8, .reg (.hi 0)⟩, .mov (.mi .w64 (.mem atRbx) 0x80000000), .mov (.mi .w32 (.reg (.lo 0)) 0x100000000),
      .inp ⟨.w64, .dx⟩, .ins ⟨.w64, .a64, .fs⟩, .lods ⟨.w8, .a64, .es⟩, .lodsb .a16, .loop ⟨.w64, .a16, 0⟩, .xlat ⟨.a16, .fs⟩,
      .monitor ⟨.a16, none⟩, .maskmovq ⟨.a64, some .ds, 1, 2⟩, .enter ⟨.w32, 0, 0⟩, .xbegin ⟨.w16, 0x8000⟩] := by
  unfold Refuses; decide +kernel

theorem test_wf_refuses_outside_64_bit_mode :
    Refuses m32 [.cdqe, .push (.rm .w64 (.reg (.lo 0))), .popSeg ⟨.w32, .cs⟩, .movSeg (.load .cs (.reg (.lo 0))),
      .movSeg (.store .w32 (.mem atEbx) .ds), .movCr (.load 8 1), .movDr (.load 1 9), .jo ⟨.w16, 0x8000⟩, .jcxz ⟨.w64, 0⟩,
      .loop ⟨.w64, .a32, 0⟩, .jmpFar (.ptr ⟨.w16, 8, 0x10000⟩), .jmpFar (.far ⟨.w8, atEbx⟩), .jmpNear (.ind .w64 (.reg (.lo 0))),
      .retFar ⟨.w64, none⟩, .enter ⟨.w64, 0, 0⟩, .cmpxchg16b atEbx, .rep (.movs ⟨.w64, .a32, none⟩), .rep (.ins ⟨.w8, .a64, none⟩),
      .repe (.cmps ⟨.w8, .a64, none⟩), .maskmovdqu ⟨.a32, none, 8, 1⟩, .lock (.un .inc .w32 { atEbx with base := some 9 }),
      .lock (.aluImm .add .w16 atEbx 0x8000), .lock (.bit .bts .w8 atEbx (.imm 1)), .lock (.xadd .w8 atEbx (.lo 4)),
      .lock (.cmpxchg16b atEbx), .xacquire (.xchg .w64 atEbx (.lo 0)), .xrelease (.movReg .w64 atEbx (.lo 0)),
      .xrelease (.movImm .w16 atEbx 0x8000), .xrelease (.locked (.cmpxchg .w64 atEbx (.lo 0)))] := by
  unfold Refuses; decide +kernel

theorem test_wf_refuses_x87 :
    Refuses m32 ([.fadd (.m32 atRbx), .fadd (.m64 atRbx), .fcom (.m32 atRbx), .fld (.m80 atRbx), .fiadd (.m16 atRbx), .fild (.m64 atRbx),
      .fldenv ⟨.w64, atEbx⟩, .fldenv ⟨.w32, atRbx⟩, .fnstsw (.mem atRbx), .fldcw atRbx, .fbld atRbx] ++
      [.finit, .fclex, .fstcw atEbx, .fstenv ⟨.w32, atEbx⟩, .fsave ⟨.w32, atEbx⟩, .fstsw .ax, .fwait,
        .sal ⟨.w32, .reg (.lo 0), .one⟩]) := by
  unfold Refuses; decide +kernel

theorem test_wf_refuses_sse :
    Refuses m32 [.addps ⟨8, .reg 0⟩, .addps ⟨0, .mem atRbx⟩, .shufps ⟨8, .reg 0, 1⟩, .pcmpestri ⟨.w16, 0, .reg 1, 0⟩, .paddb (.xx 8 (.reg 0)),
      .paddb (.mm 0 (.mem atRbx)), .palignr (.xx 8 (.reg 0) 1), .psllw (.xxI 8 1), .psllw (.mm 0 (.mem atRbx)), .pshufw ⟨0, .mem atRbx, 1⟩,
      .pslldq ⟨8, 1⟩, .movaps (.load 8 (.reg 0)), .movaps (.store (.reg 8) 0), .movhps (.load 8 atEbx), .lddqu ⟨8, atEbx⟩,
      .movntdq ⟨atEbx, 8⟩, .movhlps ⟨0, 8⟩, .movntq ⟨atRbx, 0⟩, .cvtpd2pi ⟨0, .reg 8⟩, .cvtpi2ps ⟨8, .reg 0⟩, .cvtsd2si ⟨.w64, 0, .reg 0⟩,
      .cvtsi2ss ⟨0, .w16, .reg (.lo 0)⟩, .pmovmskb (.xx 0 8), .pextrb ⟨.reg (.lo 8), 0, 1⟩, .pextrw (.mm 8 0 1), .pinsrb ⟨8, .reg (.lo 0), 1⟩,
      .pinsrw (.xx 8 (.reg (.lo 0)) 1), .movd (.toX 8 (.reg (.lo 0))), .movqGp (.toX 0 (.reg (.lo 0))), .movqX (.xStore (.reg 8) 0),
      .movdq2q ⟨0, 8⟩, .movq2dq ⟨8, 0⟩] := by
  unfold Refuses; decide +kernel

theorem test_wf_refuses_vex :
    Refuses m64 [.vaddsd ⟨.l256, 0, 1, .reg 2⟩, .vpermd ⟨.l128, 0, 1, .reg 2⟩, .vaesimc ⟨.l256, 0, .reg 1⟩, .vpermq ⟨.l128, 0, .reg 1, 0⟩,
      .vdppd ⟨.l256, 0, 1, .reg 2, 0⟩, .vbroadcastf128 ⟨.l128, 0, atRbx⟩, .vextractf128 ⟨.l128, .reg 0, 1, 0⟩,
      .vpinsrd ⟨0, 1, .mem { atRbx with scale := 1 }, 0⟩, .vcvtsi2sd ⟨0, 1, .w16, .reg (.lo 0)⟩, .vcvtsd2si ⟨.w8, 0, .reg 1⟩] ∧
    Refuses ⟨false, false, false⟩ [.vaddps ⟨.l128, 0, 1, .reg 2⟩, .vsqrtps ⟨.l128, 0, .reg 1⟩, .vpshufd ⟨.l128, 0, .reg 1, 0⟩,
      .vblendps ⟨.l128, 0, 1, .reg 2, 0⟩, .vblendvps ⟨.l128, 0, 1, .reg 2, 3⟩, .vpsllw (.vec .l128 0 1 (.reg 2)),
      .vpslldq ⟨.l128, 0, 1, 0⟩, .vmovaps (.load .l128 0 (.reg 1)), .vmovhps (.load 0 1 atEbx), .vlddqu ⟨.l128, 0, atEbx⟩,
      .vmovntps ⟨.l128, atEbx, 0⟩, .vmaskmovps (.load .l128 0 1 atEbx), .vmovhlps ⟨0, 1, 2⟩, .vmovmskps ⟨.l128, 0, 1⟩,
      .vpinsrb ⟨0, 1, .reg (.lo 0), 0⟩, .vmovd (.load 0 (.reg (.lo 0))), .vmovss (.reg 0 1 2), .vpermilps (.vec ⟨.l128, 0, 1, .reg 2⟩),
      .vmaskmovdqu ⟨.a32, none, 0, 1⟩, .vpextrb ⟨.reg (.lo 0), 1, 0⟩, .vldmxcsr atEbx, .vzeroall] := by
  unfold Refuses; decide +kernel

/-- The second spellings of rule R400 are read as the first: WAIT, and SHL for SAL. -/
theorem test_decode_second_spellings :
    Decodes m64 [([0x9B], .wait), ([0xD1, 0xE1], .shl ⟨.w32, .reg (.lo 1), .one⟩)] := by unfold Decodes; decide +kernel
/-- Reserved bytes are refused by name. -/
theorem test_decode_refuses :
    ∀ bs ∈ ([[0x0F, 0xFF], [0xF0, 0x90], [0x0F, 0x04], [0xFE, 0xD0]] : List (List Byte)),
      (decode m64 bs).toOption = none := by decide +kernel

/-! Decoding: for every constructor a word put together from its row of spec/opcode_forms_*.json (ModRM.reg 2, a register operand
r/m 1 or memory at rBX, VEX.vvvv 5, immediates 11H 22H, displacements 5), and the instruction it stands for. -/

theorem test_decode_general_32_1 : Decodes m32 [
    ([0x37], .aaa), ([0xD5, 0x0A], .aad 10), ([0xD4, 0x0A], .aam 10), ([0x3F], .aas),
    ([0x66, 0x63, 0xD1], .arpl ⟨.w16, .reg (.lo 1), .lo 2⟩), ([0x62, 0x13], .bound ⟨.w32, 2, atEbx⟩), ([0x27], .daa),
    ([0x2F], .das), ([0xCE], .into), ([0xE3, 0x05], .jecxz ⟨.w32, 5⟩), ([0xC5, 0x13], .lds ⟨.w32, 2, atEbx⟩),
    ([0xC4, 0x13], .les ⟨.w32, 2, atEbx⟩), ([0x1F], .popSeg ⟨.w32, .ds⟩), ([0x61], .popad), ([0x9D], .popfd),
    ([0x60], .pushad), ([0x9C], .pushfd)] := by
  unfold Decodes; decide +kernel

theorem test_decode_general_64_1 : Decodes m64 [
    ([0x11, 0xD1], .adc (.mr .w32 (.reg (.lo 1)) (.lo 2))),
    ([0x66, 0x0F, 0x38, 0xF6, 0xD1], .adcx ⟨.w32, 2, .reg (.lo 1)⟩),
    ([0x01, 0xD1], .add (.mr .w32 (.reg (.lo 1)) (.lo 2))),
    ([0xF3, 0x0F, 0x38, 0xF6, 0xD1], .adox ⟨.w32, 2, .reg (.lo 1)⟩),
    ([0x21, 0xD1], .and (.mr .w32 (.reg (.lo 1)) (.lo 2))), ([0x0F, 0xBC, 0xD1], .bsf ⟨.w32, 2, .reg (.lo 1)⟩),
    ([0x0F, 0xBD, 0xD1], .bsr ⟨.w32, 2, .reg (.lo 1)⟩), ([0x0F, 0xCB], .bswap ⟨.w32, 3⟩),
    ([0x0F, 0xA3, 0xD1], .bt ⟨.w32, .reg (.lo 1), .reg 2⟩), ([0x0F, 0xBB, 0xD1], .btc ⟨.w32, .reg (.lo 1), .reg 2⟩),
    ([0x0F, 0xB3, 0xD1], .btr ⟨.w32, .reg (.lo 1), .reg 2⟩), ([0x0F, 0xAB, 0xD1], .bts ⟨.w32, .reg (.lo 1), .reg 2⟩),
    ([0xFF, 0xD1], .call (.ind .w64 (.reg (.lo 1)))), ([0x98], .cwde), ([0x48, 0x98], .cdqe), ([0x0F, 0x01, 0xCA], .clac),
    ([0xF8], .clc), ([0xFC], .cld), ([0x0F, 0xAE, 0x3B], .clflush atRbx), ([0xFA], .cli), ([0x0F, 0x06], .clts),
    ([0xF5], .cmc), ([0x0F, 0x40, 0xD1], .cmovo ⟨.w32, 2, .reg (.lo 1)⟩),
    ([0x0F, 0x41, 0xD1], .cmovno ⟨.w32, 2, .reg (.lo 1)⟩), ([0x0F, 0x42, 0xD1], .cmovb ⟨.w32, 2, .reg (.lo 1)⟩),
    ([0x0F, 0x43, 0xD1], .cmovae ⟨.w32, 2, .reg (.lo 1)⟩), ([0x0F, 0x44, 0xD1], .cmove ⟨.w32, 2, .reg (.lo 1)⟩),
    ([0x0F, 0x45, 0xD1], .cmovne ⟨.w32, 2, .reg (.lo 1)⟩), ([0x0F, 0x46, 0xD1], .cmovbe ⟨.w32, 2, .reg (.lo 1)⟩),
    ([0x0F, 0x47, 0xD1], .cmova ⟨.w32, 2, .reg (.lo 1)⟩), ([0x0F, 0x48, 0xD1], .cmovs ⟨.w32, 2, .reg (.lo 1)⟩),
    ([0x0F, 0x49, 0xD1], .cmovns ⟨.w32, 2, .reg (.lo 1)⟩), ([0x0F, 0x4A, 0xD1], .cmovp ⟨.w32, 2, .reg (.lo 1)⟩),
    ([0x0F, 0x4B, 0xD1], .cmovnp ⟨.w32, 2, .reg (.lo 1)⟩), ([0x0F, 0x4C, 0xD1], .cmovl ⟨.w32, 2, .reg (.lo 1)⟩),
    ([0x0F, 0x4D, 0xD1], .cmovge ⟨.w32, 2, .reg (.lo 1)⟩), ([0x0F, 0x4E, 0xD1], .cmovle ⟨.w32, 2, .reg (.lo 1)⟩),
    ([0x0F, 0x4F, 0xD1], .cmovg ⟨.w32, 2, .reg (.lo 1)⟩), ([0x39, 0xD1], .cmp (.mr .w32 (.reg (.lo 1)) (.lo 2))),
    ([0x64, 0xA6], .cmps ⟨.w8, .a64, .fs⟩)] := by
  unfold Decodes; decide +kernel

theorem test_decode_general_64_2 : Decodes m64 [
    ([0xA6], .cmpsb .a64), ([0xA7], .cmpsdStr .a64), ([0x48, 0xA7], .cmpsq .a64),
    ([0x0F, 0xB1, 0xD1], .cmpxchg ⟨.w32, .reg (.lo 1), .lo 2⟩), ([0x0F, 0xC7, 0x0B], .cmpxchg8b atRbx),
    ([0x48, 0x0F, 0xC7, 0x0B], .cmpxchg16b atRbx), ([0x0F, 0xA2], .cpuid),
    ([0xF2, 0x0F, 0x38, 0xF0, 0xD1], .crc32 ⟨.w32, 2, .w8, .reg (.lo 1)⟩), ([0x99], .cdq), ([0x48, 0x99], .cqo),
    ([0xFF, 0xC9], .dec ⟨.w32, .reg (.lo 1)⟩), ([0xF7, 0xF1], .div ⟨.w32, .reg (.lo 1)⟩), ([0x0F, 0x77], .emms),
    ([0x0F, 0xAE, 0x0B], .fxrstor atRbx), ([0x48, 0x0F, 0xAE, 0x0B], .fxrstor64 atRbx),
    ([0x0F, 0xAE, 0x03], .fxsave atRbx), ([0x48, 0x0F, 0xAE, 0x03], .fxsave64 atRbx), ([0xF4], .hlt),
    ([0xF7, 0xF9], .idiv ⟨.w32, .reg (.lo 1)⟩), ([0x0F, 0xAF, 0xD1], .imul (.two .w32 2 (.reg (.lo 1)))),
    ([0xE4, 0x11], .inp ⟨.w8, .imm 17⟩), ([0x64, 0x6C], .ins ⟨.w8, .a64, .fs⟩), ([0x6C], .insb .a64), ([0x6D], .insd .a64),
    ([0xFF, 0xC1], .inc ⟨.w32, .reg (.lo 1)⟩), ([0xCC], .int3), ([0x0F, 0x08], .invd), ([0x0F, 0x01, 0x3B], .invlpg atRbx),
    ([0x66, 0x0F, 0x38, 0x82, 0x13], .invpcid ⟨.w64, 2, atRbx⟩), ([0xCF], .iretd), ([0x48, 0xCF], .iretq),
    ([0x70, 0x05], .jo ⟨.w64, 5⟩), ([0x71, 0x05], .jno ⟨.w64, 5⟩), ([0x72, 0x05], .jb ⟨.w64, 5⟩),
    ([0x73, 0x05], .jae ⟨.w64, 5⟩), ([0x74, 0x05], .je ⟨.w64, 5⟩), ([0x75, 0x05], .jne ⟨.w64, 5⟩),
    ([0x76, 0x05], .jbe ⟨.w64, 5⟩), ([0x77, 0x05], .ja ⟨.w64, 5⟩), ([0x78, 0x05], .js ⟨.w64, 5⟩)] := by
  unfold Decodes; decide +kernel

theorem test_decode_general_64_3 : Decodes m64 [
    ([0x79, 0x05], .jns ⟨.w64, 5⟩), ([0x7A, 0x05], .jp ⟨.w64, 5⟩), ([0x7B, 0x05], .jnp ⟨.w64, 5⟩),
    ([0x7C, 0x05], .jl ⟨.w64, 5⟩), ([0x7D, 0x05], .jge ⟨.w64, 5⟩), ([0x7E, 0x05], .jle ⟨.w64, 5⟩),
    ([0x7F, 0x05], .jg ⟨.w64, 5⟩), ([0xE3, 0x05], .jrcxz ⟨.w64, 5⟩), ([0xFF, 0xE1], .jmpNear (.ind .w64 (.reg (.lo 1)))),
    ([0x66, 0xFF, 0x2B], .jmpFar (.far ⟨.w16, atRbx⟩)), ([0x9F], .lahf),
    ([0x0F, 0x02, 0xD1], .lar ⟨.w32, 2, .reg (.lo 1)⟩), ([0x0F, 0xAE, 0x13], .ldmxcsr atRbx),
    ([0x0F, 0xB4, 0x13], .lfs ⟨.w32, 2, atRbx⟩), ([0x0F, 0xB5, 0x13], .lgs ⟨.w32, 2, atRbx⟩),
    ([0x0F, 0xB2, 0x13], .lss ⟨.w32, 2, atRbx⟩), ([0x8D, 0x13], .lea ⟨.w32, 2, atRbx⟩), ([0xC9], .leave .w64),
    ([0x0F, 0xAE, 0xE8], .lfence), ([0x0F, 0x01, 0x13], .lgdt ⟨.w64, atRbx⟩), ([0x0F, 0x01, 0x1B], .lidt ⟨.w64, atRbx⟩),
    ([0x66, 0x0F, 0x00, 0xD1], .lldt (.reg (.lo 1))), ([0x66, 0x0F, 0x01, 0xF1], .lmsw (.reg (.lo 1))),
    ([0x66, 0x0F, 0x00, 0xD9], .ltr (.reg (.lo 1))), ([0xF0, 0x01, 0x13], .lock (.aluReg .add .w32 atRbx (.lo 2))),
    ([0x64, 0xAC], .lods ⟨.w8, .a64, .fs⟩), ([0xAC], .lodsb .a64), ([0xAD], .lodsd .a64), ([0x48, 0xAD], .lodsq .a64),
    ([0xE2, 0x05], .loop ⟨.w64, .a64, 5⟩), ([0xE1, 0x05], .loope ⟨.w64, .a64, 5⟩), ([0xE0, 0x05], .loopne ⟨.w64, .a64, 5⟩),
    ([0x0F, 0x03, 0xD1], .lsl ⟨.w32, 2, .reg (.lo 1)⟩), ([0xF3, 0x0F, 0xBD, 0xD1], .lzcnt ⟨.w32, 2, .reg (.lo 1)⟩),
    ([0x0F, 0xAE, 0xF0], .mfence), ([0x0F, 0x01, 0xC8], .monitor ⟨.a64, none⟩),
    ([0x89, 0xD1], .mov (.mr .w32 (.reg (.lo 1)) (.lo 2))), ([0x66, 0x8C, 0xD9], .movSeg (.store .w16 (.reg (.lo 1)) .ds)),
    ([0x0F, 0x20, 0xD1], .movCr (.store 1 2)), ([0x0F, 0x21, 0xD1], .movDr (.store 1 2))] := by
  unfold Decodes; decide +kernel

theorem test_decode_general_64_4 : Decodes m64 [
    ([0x0F, 0x38, 0xF0, 0x13], .movbe (.load .w32 2 atRbx)), ([0x0F, 0xC3, 0x13], .movnti ⟨.w32, 2, atRbx⟩),
    ([0x0F, 0xE7, 0x13], .movntq ⟨atRbx, 2⟩), ([0x64, 0xA4], .movs ⟨.w8, .a64, .fs⟩), ([0xA4], .movsb .a64),
    ([0xA5], .movsdStr .a64), ([0x48, 0xA5], .movsq .a64), ([0x0F, 0xBE, 0xD1], .movsx ⟨.w32, 2, .w8, .reg (.lo 1)⟩),
    ([0x48, 0x63, 0xD1], .movsxd ⟨.w64, 2, .w32, .reg (.lo 1)⟩), ([0x0F, 0xB6, 0xD1], .movzx ⟨.w32, 2, .w8, .reg (.lo 1)⟩),
    ([0xF7, 0xE1], .mul ⟨.w32, .reg (.lo 1)⟩), ([0x0F, 0x01, 0xC9], .mwait), ([0xF7, 0xD9], .neg ⟨.w32, .reg (.lo 1)⟩),
    ([0x0F, 0x1F, 0xC1], .nop (some ⟨.w32, .reg (.lo 1)⟩)), ([0xF7, 0xD1], .not ⟨.w32, .reg (.lo 1)⟩),
    ([0x09, 0xD1], .or (.mr .w32 (.reg (.lo 1)) (.lo 2))), ([0x64, 0x6E], .outs ⟨.w8, .a64, .fs⟩), ([0x6E], .outsb .a64),
    ([0x6F], .outsd .a64), ([0xF3, 0x90], .pause), ([0x0F, 0xC5, 0xD1, 0x11], .pextrw (.mm 2 1 17)),
    ([0x0F, 0xD7, 0xD1], .pmovmskb (.mm 2 1)), ([0x8F, 0xC1], .pop ⟨.w64, .reg (.lo 1)⟩),
    ([0xF3, 0x0F, 0xB8, 0xD1], .popcnt ⟨.w32, 2, .reg (.lo 1)⟩), ([0x9D], .popfq), ([0x0F, 0x18, 0x0B], .prefetcht0 atRbx),
    ([0x0F, 0x18, 0x13], .prefetcht1 atRbx), ([0x0F, 0x18, 0x1B], .prefetcht2 atRbx),
    ([0x0F, 0x18, 0x03], .prefetchnta atRbx), ([0x0F, 0x0D, 0x0B], .prefetchw atRbx),
    ([0x0F, 0x0D, 0x13], .prefetchwt1 atRbx), ([0xFF, 0xF1], .push (.rm .w64 (.reg (.lo 1)))), ([0x9C], .pushfq),
    ([0xD1, 0xD1], .rcl ⟨.w32, .reg (.lo 1), .one⟩), ([0xD1, 0xD9], .rcr ⟨.w32, .reg (.lo 1), .one⟩),
    ([0xD1, 0xC1], .rol ⟨.w32, .reg (.lo 1), .one⟩), ([0xD1, 0xC9], .ror ⟨.w32, .reg (.lo 1), .one⟩),
    ([0xF3, 0x0F, 0xAE, 0xC1], .rdfsbase ⟨.w32, 1⟩), ([0xF3, 0x0F, 0xAE, 0xC9], .rdgsbase ⟨.w32, 1⟩),
    ([0x0F, 0x32], .rdmsr)] := by
  unfold Decodes; decide +kernel

theorem test_decode_general_64_5 : Decodes m64 [
    ([0x0F, 0x01, 0xEE], .rdpkru), ([0x0F, 0x33], .rdpmc), ([0x0F, 0xC7, 0xF1], .rdrand ⟨.w32, 1⟩),
    ([0x0F, 0xC7, 0xF9], .rdseed ⟨.w32, 1⟩), ([0x0F, 0x31], .rdtsc), ([0x0F, 0x01, 0xF9], .rdtscp),
    ([0xF3, 0xA4], .rep (.movs ⟨.w8, .a64, none⟩)), ([0xF3, 0xA6], .repe (.cmps ⟨.w8, .a64, none⟩)),
    ([0xF2, 0xAE], .repne (.scas ⟨.w8, .a64, none⟩)), ([0xC3], .retNear ⟨.w64, none⟩), ([0xCB], .retFar ⟨.w32, none⟩),
    ([0x0F, 0xAA], .rsm), ([0x9E], .sahf), ([0xD1, 0xF9], .sar ⟨.w32, .reg (.lo 1), .one⟩),
    ([0xD1, 0xE1], .shl ⟨.w32, .reg (.lo 1), .one⟩), ([0xD1, 0xE9], .shr ⟨.w32, .reg (.lo 1), .one⟩),
    ([0x19, 0xD1], .sbb (.mr .w32 (.reg (.lo 1)) (.lo 2))), ([0x64, 0xAE], .scas ⟨.w8, .a64, .fs⟩), ([0xAE], .scasb .a64),
    ([0xAF], .scasd .a64), ([0x48, 0xAF], .scasq .a64), ([0x0F, 0x90, 0xC1], .seto (.reg (.lo 1))),
    ([0x0F, 0x91, 0xC1], .setno (.reg (.lo 1))), ([0x0F, 0x92, 0xC1], .setb (.reg (.lo 1))),
    ([0x0F, 0x93, 0xC1], .setae (.reg (.lo 1))), ([0x0F, 0x94, 0xC1], .sete (.reg (.lo 1))),
    ([0x0F, 0x95, 0xC1], .setne (.reg (.lo 1))), ([0x0F, 0x96, 0xC1], .setbe (.reg (.lo 1))),
    ([0x0F, 0x97, 0xC1], .seta (.reg (.lo 1))), ([0x0F, 0x98, 0xC1], .sets (.reg (.lo 1))),
    ([0x0F, 0x99, 0xC1], .setns (.reg (.lo 1))), ([0x0F, 0x9A, 0xC1], .setp (.reg (.lo 1))),
    ([0x0F, 0x9B, 0xC1], .setnp (.reg (.lo 1))), ([0x0F, 0x9C, 0xC1], .setl (.reg (.lo 1))),
    ([0x0F, 0x9D, 0xC1], .setge (.reg (.lo 1))), ([0x0F, 0x9E, 0xC1], .setle (.reg (.lo 1))),
    ([0x0F, 0x9F, 0xC1], .setg (.reg (.lo 1))), ([0x0F, 0xAE, 0xF8], .sfence), ([0x0F, 0x01, 0x03], .sgdt ⟨.w64, atRbx⟩),
    ([0x0F, 0xA4, 0xD1, 0x11], .shld ⟨.w32, .reg (.lo 1), 2, .imm 17⟩)] := by
  unfold Decodes; decide +kernel

theorem test_decode_general_64_6 : Decodes m64 [
    ([0x0F, 0xAC, 0xD1, 0x11], .shrd ⟨.w32, .reg (.lo 1), 2, .imm 17⟩), ([0x0F, 0x01, 0x0B], .sidt ⟨.w64, atRbx⟩),
    ([0x66, 0x0F, 0x00, 0xC1], .sldt ⟨.w16, .reg (.lo 1)⟩), ([0x0F, 0x01, 0xE1], .smsw ⟨.w32, .reg (.lo 1)⟩),
    ([0x0F, 0x01, 0xCB], .stac), ([0xF9], .stc), ([0xFD], .std), ([0xFB], .sti), ([0x0F, 0xAE, 0x1B], .stmxcsr atRbx),
    ([0x64, 0xAA], .stos ⟨.w8, .a64, .fs⟩), ([0xAA], .stosb .a64), ([0xAB], .stosd .a64), ([0x48, 0xAB], .stosq .a64),
    ([0x66, 0x0F, 0x00, 0xC9], .str ⟨.w16, .reg (.lo 1)⟩), ([0x29, 0xD1], .sub (.mr .w32 (.reg (.lo 1)) (.lo 2))),
    ([0x0F, 0x01, 0xF8], .swapgs), ([0x0F, 0x05], .syscall), ([0x0F, 0x34], .sysenter), ([0x0F, 0x35], .sysexit .w32),
    ([0x0F, 0x07], .sysret .w32), ([0x85, 0xD1], .test (.mr .w32 (.reg (.lo 1)) (.lo 2))),
    ([0xF3, 0x0F, 0xBC, 0xD1], .tzcnt ⟨.w32, 2, .reg (.lo 1)⟩), ([0x0F, 0x0B], .ud2),
    ([0x66, 0x0F, 0x00, 0xE1], .verr (.reg (.lo 1))), ([0x66, 0x0F, 0x00, 0xE9], .verw (.reg (.lo 1))), ([0x9B], .wait),
    ([0x0F, 0x09], .wbinvd), ([0xF3, 0x0F, 0xAE, 0xD1], .wrfsbase ⟨.w32, 1⟩),
    ([0xF3, 0x0F, 0xAE, 0xD9], .wrgsbase ⟨.w32, 1⟩), ([0x0F, 0x30], .wrmsr), ([0x0F, 0x01, 0xEF], .wrpkru),
    ([0xF2, 0xF0, 0x01, 0x13], .xacquire (.locked (.aluReg .add .w32 atRbx (.lo 2)))),
    ([0xF3, 0xF0, 0x01, 0x13], .xrelease (.locked (.aluReg .add .w32 atRbx (.lo 2)))),
    ([0x0F, 0xC1, 0xD1], .xadd ⟨.w32, .reg (.lo 1), .lo 2⟩),
    ([0xC7, 0xF8, 0x05, 0x06, 0x07, 0x08], .xbegin ⟨.w32, 0x08070605⟩), ([0x87, 0xD1], .xchg ⟨.w32, .reg (.lo 1), .lo 2⟩),
    ([0x0F, 0x01, 0xD5], .xend), ([0x0F, 0x01, 0xD0], .xgetbv), ([0x64, 0xD7], .xlat ⟨.a64, .fs⟩), ([0xD7], .xlatb .a64)] := by
  unfold Decodes; decide +kernel

theorem test_decode_general_64_7 : Decodes m64 [
    ([0x31, 0xD1], .xor (.mr .w32 (.reg (.lo 1)) (.lo 2))), ([0x0F, 0xAE, 0x2B], .xrstor atRbx),
    ([0x48, 0x0F, 0xAE, 0x2B], .xrstor64 atRbx), ([0x0F, 0xC7, 0x1B], .xrstors atRbx),
    ([0x48, 0x0F, 0xC7, 0x1B], .xrstors64 atRbx), ([0x0F, 0xAE, 0x23], .xsave atRbx),
    ([0x48, 0x0F, 0xAE, 0x23], .xsave64 atRbx), ([0x0F, 0xC7, 0x23], .xsavec atRbx),
    ([0x48, 0x0F, 0xC7, 0x23], .xsavec64 atRbx), ([0x0F, 0xAE, 0x33], .xsaveopt atRbx),
    ([0x48, 0x0F, 0xAE, 0x33], .xsaveopt64 atRbx), ([0x0F, 0xC7, 0x2B], .xsaves atRbx),
    ([0x48, 0x0F, 0xC7, 0x2B], .xsaves64 atRbx), ([0x0F, 0x01, 0xD1], .xsetbv), ([0x0F, 0x01, 0xD6], .xtest)] := by
  unfold Decodes; decide +kernel

theorem test_decode_sse_64_1 : Decodes m64 [
    ([0x66, 0x0F, 0x58, 0xD1], .addpd ⟨2, .reg 1⟩), ([0x0F, 0x58, 0xD1], .addps ⟨2, .reg 1⟩),
    ([0xF2, 0x0F, 0x58, 0xD1], .addsd ⟨2, .reg 1⟩), ([0xF3, 0x0F, 0x58, 0xD1], .addss ⟨2, .reg 1⟩),
    ([0x66, 0x0F, 0xD0, 0xD1], .addsubpd ⟨2, .reg 1⟩), ([0xF2, 0x0F, 0xD0, 0xD1], .addsubps ⟨2, .reg 1⟩),
    ([0x66, 0x0F, 0x38, 0xDE, 0xD1], .aesdec ⟨2, .reg 1⟩), ([0x66, 0x0F, 0x38, 0xDF, 0xD1], .aesdeclast ⟨2, .reg 1⟩),
    ([0x66, 0x0F, 0x38, 0xDC, 0xD1], .aesenc ⟨2, .reg 1⟩), ([0x66, 0x0F, 0x38, 0xDD, 0xD1], .aesenclast ⟨2, .reg 1⟩),
    ([0x66, 0x0F, 0x38, 0xDB, 0xD1], .aesimc ⟨2, .reg 1⟩),
    ([0x66, 0x0F, 0x3A, 0xDF, 0xD1, 0x11], .aeskeygenassist ⟨2, .reg 1, 17⟩),
    ([0x66, 0x0F, 0x54, 0xD1], .andpd ⟨2, .reg 1⟩), ([0x0F, 0x54, 0xD1], .andps ⟨2, .reg 1⟩),
    ([0x66, 0x0F, 0x55, 0xD1], .andnpd ⟨2, .reg 1⟩), ([0x0F, 0x55, 0xD1], .andnps ⟨2, .reg 1⟩),
    ([0x66, 0x0F, 0x3A, 0x0D, 0xD1, 0x11], .blendpd ⟨2, .reg 1, 17⟩),
    ([0x66, 0x0F, 0x3A, 0x0C, 0xD1, 0x11], .blendps ⟨2, .reg 1, 17⟩),
    ([0x66, 0x0F, 0x38, 0x15, 0xD1], .blendvpd ⟨2, .reg 1⟩), ([0x66, 0x0F, 0x38, 0x14, 0xD1], .blendvps ⟨2, .reg 1⟩),
    ([0x66, 0x0F, 0xC2, 0xD1, 0x11], .cmppd ⟨2, .reg 1, 17⟩), ([0x0F, 0xC2, 0xD1, 0x11], .cmpps ⟨2, .reg 1, 17⟩),
    ([0xF2, 0x0F, 0xC2, 0xD1, 0x11], .cmpsdSse ⟨2, .reg 1, 17⟩), ([0xF3, 0x0F, 0xC2, 0xD1, 0x11], .cmpss ⟨2, .reg 1, 17⟩),
    ([0x66, 0x0F, 0x2F, 0xD1], .comisd ⟨2, .reg 1⟩), ([0x0F, 0x2F, 0xD1], .comiss ⟨2, .reg 1⟩),
    ([0xF3, 0x0F, 0xE6, 0xD1], .cvtdq2pd ⟨2, .reg 1⟩), ([0x0F, 0x5B, 0xD1], .cvtdq2ps ⟨2, .reg 1⟩),
    ([0xF2, 0x0F, 0xE6, 0xD1], .cvtpd2dq ⟨2, .reg 1⟩), ([0x66, 0x0F, 0x5A, 0xD1], .cvtpd2ps ⟨2, .reg 1⟩),
    ([0x66, 0x0F, 0x5B, 0xD1], .cvtps2dq ⟨2, .reg 1⟩), ([0x0F, 0x5A, 0xD1], .cvtps2pd ⟨2, .reg 1⟩),
    ([0x66, 0x0F, 0xE6, 0xD1], .cvttpd2dq ⟨2, .reg 1⟩), ([0xF3, 0x0F, 0x5B, 0xD1], .cvttps2dq ⟨2, .reg 1⟩),
    ([0x66, 0x0F, 0x2D, 0xD1], .cvtpd2pi ⟨2, .reg 1⟩), ([0x66, 0x0F, 0x2C, 0xD1], .cvttpd2pi ⟨2, .reg 1⟩),
    ([0x66, 0x0F, 0x2A, 0xD1], .cvtpi2pd ⟨2, .reg 1⟩), ([0x0F, 0x2A, 0xD1], .cvtpi2ps ⟨2, .reg 1⟩),
    ([0x0F, 0x2D, 0xD1], .cvtps2pi ⟨2, .reg 1⟩), ([0x0F, 0x2C, 0xD1], .cvttps2pi ⟨2, .reg 1⟩)] := by
  unfold Decodes; decide +kernel

theorem test_decode_sse_64_2 : Decodes m64 [
    ([0xF2, 0x0F, 0x2D, 0xD1], .cvtsd2si ⟨.w32, 2, .reg 1⟩), ([0xF2, 0x0F, 0x2C, 0xD1], .cvttsd2si ⟨.w32, 2, .reg 1⟩),
    ([0xF3, 0x0F, 0x2D, 0xD1], .cvtss2si ⟨.w32, 2, .reg 1⟩), ([0xF3, 0x0F, 0x2C, 0xD1], .cvttss2si ⟨.w32, 2, .reg 1⟩),
    ([0xF2, 0x0F, 0x2A, 0xD1], .cvtsi2sd ⟨2, .w32, .reg (.lo 1)⟩),
    ([0xF3, 0x0F, 0x2A, 0xD1], .cvtsi2ss ⟨2, .w32, .reg (.lo 1)⟩), ([0xF2, 0x0F, 0x5A, 0xD1], .cvtsd2ss ⟨2, .reg 1⟩),
    ([0xF3, 0x0F, 0x5A, 0xD1], .cvtss2sd ⟨2, .reg 1⟩), ([0x66, 0x0F, 0x5E, 0xD1], .divpd ⟨2, .reg 1⟩),
    ([0x0F, 0x5E, 0xD1], .divps ⟨2, .reg 1⟩), ([0xF2, 0x0F, 0x5E, 0xD1], .divsd ⟨2, .reg 1⟩),
    ([0xF3, 0x0F, 0x5E, 0xD1], .divss ⟨2, .reg 1⟩), ([0x66, 0x0F, 0x3A, 0x41, 0xD1, 0x11], .dppd ⟨2, .reg 1, 17⟩),
    ([0x66, 0x0F, 0x3A, 0x40, 0xD1, 0x11], .dpps ⟨2, .reg 1, 17⟩),
    ([0x66, 0xC8, 0x11, 0x22, 0x11], .enter ⟨.w16, 8721, 17⟩),
    ([0x66, 0x0F, 0x3A, 0x17, 0xD1, 0x11], .extractps ⟨.reg (.lo 1), 2, 17⟩),
    ([0x66, 0x0F, 0x7C, 0xD1], .haddpd ⟨2, .reg 1⟩), ([0xF2, 0x0F, 0x7C, 0xD1], .haddps ⟨2, .reg 1⟩),
    ([0x66, 0x0F, 0x7D, 0xD1], .hsubpd ⟨2, .reg 1⟩), ([0xF2, 0x0F, 0x7D, 0xD1], .hsubps ⟨2, .reg 1⟩),
    ([0x66, 0x0F, 0x3A, 0x21, 0xD1, 0x11], .insertps ⟨2, .reg 1, 17⟩), ([0xCD, 0x11], .intN 17),
    ([0xF2, 0x0F, 0xF0, 0x13], .lddqu ⟨2, atRbx⟩), ([0x66, 0x0F, 0xF7, 0xD1], .maskmovdqu ⟨.a64, none, 2, 1⟩),
    ([0x0F, 0xF7, 0xD1], .maskmovq ⟨.a64, none, 2, 1⟩), ([0x66, 0x0F, 0x5F, 0xD1], .maxpd ⟨2, .reg 1⟩),
    ([0x0F, 0x5F, 0xD1], .maxps ⟨2, .reg 1⟩), ([0xF2, 0x0F, 0x5F, 0xD1], .maxsd ⟨2, .reg 1⟩),
    ([0xF3, 0x0F, 0x5F, 0xD1], .maxss ⟨2, .reg 1⟩), ([0x66, 0x0F, 0x5D, 0xD1], .minpd ⟨2, .reg 1⟩),
    ([0x0F, 0x5D, 0xD1], .minps ⟨2, .reg 1⟩), ([0xF2, 0x0F, 0x5D, 0xD1], .minsd ⟨2, .reg 1⟩),
    ([0xF3, 0x0F, 0x5D, 0xD1], .minss ⟨2, .reg 1⟩), ([0x66, 0x0F, 0x28, 0xD1], .movapd (.load 2 (.reg 1))),
    ([0x0F, 0x28, 0xD1], .movaps (.load 2 (.reg 1))), ([0x0F, 0x6E, 0xD1], .movd (.toMm 2 (.reg (.lo 1)))),
    ([0x48, 0x0F, 0x6E, 0xD1], .movqGp (.toMm 2 (.reg (.lo 1)))), ([0xF2, 0x0F, 0x12, 0xD1], .movddup ⟨2, .reg 1⟩),
    ([0x66, 0x0F, 0x6F, 0xD1], .movdqa (.load 2 (.reg 1))), ([0xF3, 0x0F, 0x6F, 0xD1], .movdqu (.load 2 (.reg 1)))] := by
  unfold Decodes; decide +kernel

theorem test_decode_sse_64_3 : Decodes m64 [
    ([0xF2, 0x0F, 0xD6, 0xD1], .movdq2q ⟨2, 1⟩), ([0x0F, 0x12, 0xD1], .movhlps ⟨2, 1⟩),
    ([0x66, 0x0F, 0x16, 0x13], .movhpd (.load 2 atRbx)), ([0x0F, 0x16, 0x13], .movhps (.load 2 atRbx)),
    ([0x0F, 0x16, 0xD1], .movlhps ⟨2, 1⟩), ([0x66, 0x0F, 0x12, 0x13], .movlpd (.load 2 atRbx)),
    ([0x0F, 0x12, 0x13], .movlps (.load 2 atRbx)), ([0x66, 0x0F, 0x50, 0xD1], .movmskpd ⟨2, 1⟩),
    ([0x0F, 0x50, 0xD1], .movmskps ⟨2, 1⟩), ([0x66, 0x0F, 0x38, 0x2A, 0x13], .movntdqa ⟨2, atRbx⟩),
    ([0x66, 0x0F, 0xE7, 0x13], .movntdq ⟨atRbx, 2⟩), ([0x66, 0x0F, 0x2B, 0x13], .movntpd ⟨atRbx, 2⟩),
    ([0x0F, 0x2B, 0x13], .movntps ⟨atRbx, 2⟩), ([0x0F, 0x6F, 0xD1], .movqX (.mmLoad 2 (.reg 1))),
    ([0xF3, 0x0F, 0xD6, 0xD1], .movq2dq ⟨2, 1⟩), ([0xF2, 0x0F, 0x10, 0xD1], .movsdSse (.load 2 (.reg 1))),
    ([0xF3, 0x0F, 0x16, 0xD1], .movshdup ⟨2, .reg 1⟩), ([0xF3, 0x0F, 0x12, 0xD1], .movsldup ⟨2, .reg 1⟩),
    ([0xF3, 0x0F, 0x10, 0xD1], .movss (.load 2 (.reg 1))), ([0x66, 0x0F, 0x10, 0xD1], .movupd (.load 2 (.reg 1))),
    ([0x0F, 0x10, 0xD1], .movups (.load 2 (.reg 1))), ([0x66, 0x0F, 0x3A, 0x42, 0xD1, 0x11], .mpsadbw ⟨2, .reg 1, 17⟩),
    ([0x66, 0x0F, 0x59, 0xD1], .mulpd ⟨2, .reg 1⟩), ([0x0F, 0x59, 0xD1], .mulps ⟨2, .reg 1⟩),
    ([0xF2, 0x0F, 0x59, 0xD1], .mulsd ⟨2, .reg 1⟩), ([0xF3, 0x0F, 0x59, 0xD1], .mulss ⟨2, .reg 1⟩),
    ([0x66, 0x0F, 0x56, 0xD1], .orpd ⟨2, .reg 1⟩), ([0x0F, 0x56, 0xD1], .orps ⟨2, .reg 1⟩),
    ([0xE6, 0x11], .out ⟨.w8, .imm 17⟩), ([0x0F, 0x38, 0x1C, 0xD1], .pabsb (.mm 2 (.reg 1))),
    ([0x0F, 0x38, 0x1D, 0xD1], .pabsw (.mm 2 (.reg 1))), ([0x0F, 0x38, 0x1E, 0xD1], .pabsd (.mm 2 (.reg 1))),
    ([0x0F, 0x63, 0xD1], .packsswb (.mm 2 (.reg 1))), ([0x0F, 0x6B, 0xD1], .packssdw (.mm 2 (.reg 1))),
    ([0x66, 0x0F, 0x38, 0x2B, 0xD1], .packusdw ⟨2, .reg 1⟩), ([0x0F, 0x67, 0xD1], .packuswb (.mm 2 (.reg 1))),
    ([0x0F, 0xFC, 0xD1], .paddb (.mm 2 (.reg 1))), ([0x0F, 0xFD, 0xD1], .paddw (.mm 2 (.reg 1))),
    ([0x0F, 0xFE, 0xD1], .paddd (.mm 2 (.reg 1))), ([0x0F, 0xD4, 0xD1], .paddq (.mm 2 (.reg 1)))] := by
  unfold Decodes; decide +kernel

theorem test_decode_sse_64_4 : Decodes m64 [
    ([0x0F, 0xEC, 0xD1], .paddsb (.mm 2 (.reg 1))), ([0x0F, 0xED, 0xD1], .paddsw (.mm 2 (.reg 1))),
    ([0x0F, 0xDC, 0xD1], .paddusb (.mm 2 (.reg 1))), ([0x0F, 0xDD, 0xD1], .paddusw (.mm 2 (.reg 1))),
    ([0x0F, 0x3A, 0x0F, 0xD1, 0x11], .palignr (.mm 2 (.reg 1) 17)), ([0x0F, 0xDB, 0xD1], .pand (.mm 2 (.reg 1))),
    ([0x0F, 0xDF, 0xD1], .pandn (.mm 2 (.reg 1))), ([0x0F, 0xE0, 0xD1], .pavgb (.mm 2 (.reg 1))),
    ([0x0F, 0xE3, 0xD1], .pavgw (.mm 2 (.reg 1))), ([0x66, 0x0F, 0x38, 0x10, 0xD1], .pblendvb ⟨2, .reg 1⟩),
    ([0x66, 0x0F, 0x3A, 0x0E, 0xD1, 0x11], .pblendw ⟨2, .reg 1, 17⟩),
    ([0x66, 0x0F, 0x3A, 0x44, 0xD1, 0x11], .pclmulqdq ⟨2, .reg 1, 17⟩), ([0x0F, 0x74, 0xD1], .pcmpeqb (.mm 2 (.reg 1))),
    ([0x0F, 0x75, 0xD1], .pcmpeqw (.mm 2 (.reg 1))), ([0x0F, 0x76, 0xD1], .pcmpeqd (.mm 2 (.reg 1))),
    ([0x66, 0x0F, 0x38, 0x29, 0xD1], .pcmpeqq ⟨2, .reg 1⟩), ([0x0F, 0x64, 0xD1], .pcmpgtb (.mm 2 (.reg 1))),
    ([0x0F, 0x65, 0xD1], .pcmpgtw (.mm 2 (.reg 1))), ([0x0F, 0x66, 0xD1], .pcmpgtd (.mm 2 (.reg 1))),
    ([0x66, 0x0F, 0x38, 0x37, 0xD1], .pcmpgtq ⟨2, .reg 1⟩),
    ([0x66, 0x0F, 0x3A, 0x61, 0xD1, 0x11], .pcmpestri ⟨.w32, 2, .reg 1, 17⟩),
    ([0x66, 0x0F, 0x3A, 0x60, 0xD1, 0x11], .pcmpestrm ⟨.w32, 2, .reg 1, 17⟩),
    ([0x66, 0x0F, 0x3A, 0x63, 0xD1, 0x11], .pcmpistri ⟨.w32, 2, .reg 1, 17⟩),
    ([0x66, 0x0F, 0x3A, 0x62, 0xD1, 0x11], .pcmpistrm ⟨2, .reg 1, 17⟩),
    ([0x66, 0x0F, 0x3A, 0x14, 0xD1, 0x11], .pextrb ⟨.reg (.lo 1), 2, 17⟩),
    ([0x66, 0x0F, 0x3A, 0x16, 0xD1, 0x11], .pextrd ⟨.reg (.lo 1), 2, 17⟩),
    ([0x66, 0x48, 0x0F, 0x3A, 0x16, 0xD1, 0x11], .pextrq ⟨.reg (.lo 1), 2, 17⟩),
    ([0x0F, 0x38, 0x01, 0xD1], .phaddw (.mm 2 (.reg 1))), ([0x0F, 0x38, 0x02, 0xD1], .phaddd (.mm 2 (.reg 1))),
    ([0x0F, 0x38, 0x03, 0xD1], .phaddsw (.mm 2 (.reg 1))), ([0x66, 0x0F, 0x38, 0x41, 0xD1], .phminposuw ⟨2, .reg 1⟩),
    ([0x0F, 0x38, 0x05, 0xD1], .phsubw (.mm 2 (.reg 1))), ([0x0F, 0x38, 0x06, 0xD1], .phsubd (.mm 2 (.reg 1))),
    ([0x0F, 0x38, 0x07, 0xD1], .phsubsw (.mm 2 (.reg 1))),
    ([0x66, 0x0F, 0x3A, 0x20, 0xD1, 0x11], .pinsrb ⟨2, .reg (.lo 1), 17⟩),
    ([0x66, 0x0F, 0x3A, 0x22, 0xD1, 0x11], .pinsrd ⟨2, .reg (.lo 1), 17⟩),
    ([0x66, 0x48, 0x0F, 0x3A, 0x22, 0xD1, 0x11], .pinsrq ⟨2, .reg (.lo 1), 17⟩),
    ([0x0F, 0xC4, 0xD1, 0x11], .pinsrw (.mm 2 (.reg (.lo 1)) 17)), ([0x0F, 0x38, 0x04, 0xD1], .pmaddubsw (.mm 2 (.reg 1))),
    ([0x0F, 0xF5, 0xD1], .pmaddwd (.mm 2 (.reg 1)))] := by
  unfold Decodes; decide +kernel

theorem test_decode_sse_64_5 : Decodes m64 [
    ([0x66, 0x0F, 0x38, 0x3C, 0xD1], .pmaxsb ⟨2, .reg 1⟩), ([0x66, 0x0F, 0x38, 0x3D, 0xD1], .pmaxsd ⟨2, .reg 1⟩),
    ([0x0F, 0xEE, 0xD1], .pmaxsw (.mm 2 (.reg 1))), ([0x0F, 0xDE, 0xD1], .pmaxub (.mm 2 (.reg 1))),
    ([0x66, 0x0F, 0x38, 0x3F, 0xD1], .pmaxud ⟨2, .reg 1⟩), ([0x66, 0x0F, 0x38, 0x3E, 0xD1], .pmaxuw ⟨2, .reg 1⟩),
    ([0x66, 0x0F, 0x38, 0x38, 0xD1], .pminsb ⟨2, .reg 1⟩), ([0x66, 0x0F, 0x38, 0x39, 0xD1], .pminsd ⟨2, .reg 1⟩),
    ([0x0F, 0xEA, 0xD1], .pminsw (.mm 2 (.reg 1))), ([0x0F, 0xDA, 0xD1], .pminub (.mm 2 (.reg 1))),
    ([0x66, 0x0F, 0x38, 0x3B, 0xD1], .pminud ⟨2, .reg 1⟩), ([0x66, 0x0F, 0x38, 0x3A, 0xD1], .pminuw ⟨2, .reg 1⟩),
    ([0x66, 0x0F, 0x38, 0x20, 0xD1], .pmovsxbw ⟨2, .reg 1⟩), ([0x66, 0x0F, 0x38, 0x21, 0xD1], .pmovsxbd ⟨2, .reg 1⟩),
    ([0x66, 0x0F, 0x38, 0x22, 0xD1], .pmovsxbq ⟨2, .reg 1⟩), ([0x66, 0x0F, 0x38, 0x23, 0xD1], .pmovsxwd ⟨2, .reg 1⟩),
    ([0x66, 0x0F, 0x38, 0x24, 0xD1], .pmovsxwq ⟨2, .reg 1⟩), ([0x66, 0x0F, 0x38, 0x25, 0xD1], .pmovsxdq ⟨2, .reg 1⟩),
    ([0x66, 0x0F, 0x38, 0x30, 0xD1], .pmovzxbw ⟨2, .reg 1⟩), ([0x66, 0x0F, 0x38, 0x31, 0xD1], .pmovzxbd ⟨2, .reg 1⟩),
    ([0x66, 0x0F, 0x38, 0x32, 0xD1], .pmovzxbq ⟨2, .reg 1⟩), ([0x66, 0x0F, 0x38, 0x33, 0xD1], .pmovzxwd ⟨2, .reg 1⟩),
    ([0x66, 0x0F, 0x38, 0x34, 0xD1], .pmovzxwq ⟨2, .reg 1⟩), ([0x66, 0x0F, 0x38, 0x35, 0xD1], .pmovzxdq ⟨2, .reg 1⟩),
    ([0x66, 0x0F, 0x38, 0x28, 0xD1], .pmuldq ⟨2, .reg 1⟩), ([0x0F, 0x38, 0x0B, 0xD1], .pmulhrsw (.mm 2 (.reg 1))),
    ([0x0F, 0xE4, 0xD1], .pmulhuw (.mm 2 (.reg 1))), ([0x0F, 0xE5, 0xD1], .pmulhw (.mm 2 (.reg 1))),
    ([0x66, 0x0F, 0x38, 0x40, 0xD1], .pmulld ⟨2, .reg 1⟩), ([0x0F, 0xD5, 0xD1], .pmullw (.mm 2 (.reg 1))),
    ([0x0F, 0xF4, 0xD1], .pmuludq (.mm 2 (.reg 1))), ([0x0F, 0xEB, 0xD1], .por (.mm 2 (.reg 1))),
    ([0x0F, 0xEF, 0xD1], .pxor (.mm 2 (.reg 1))), ([0x0F, 0xF6, 0xD1], .psadbw (.mm 2 (.reg 1))),
    ([0x0F, 0x38, 0x00, 0xD1], .pshufb (.mm 2 (.reg 1))), ([0x66, 0x0F, 0x70, 0xD1, 0x11], .pshufd ⟨2, .reg 1, 17⟩),
    ([0xF3, 0x0F, 0x70, 0xD1, 0x11], .pshufhw ⟨2, .reg 1, 17⟩), ([0xF2, 0x0F, 0x70, 0xD1, 0x11], .pshuflw ⟨2, .reg 1, 17⟩),
    ([0x0F, 0x70, 0xD1, 0x11], .pshufw ⟨2, .reg 1, 17⟩), ([0x0F, 0x38, 0x08, 0xD1], .psignb (.mm 2 (.reg 1)))] := by
  unfold Decodes; decide +kernel

theorem test_decode_sse_64_6 : Decodes m64 [
    ([0x0F, 0x38, 0x09, 0xD1], .psignw (.mm 2 (.reg 1))), ([0x0F, 0x38, 0x0A, 0xD1], .psignd (.mm 2 (.reg 1))),
    ([0x66, 0x0F, 0x73, 0xF9, 0x11], .pslldq ⟨1, 17⟩), ([0x66, 0x0F, 0x73, 0xD9, 0x11], .psrldq ⟨1, 17⟩),
    ([0x0F, 0xF1, 0xD1], .psllw (.mm 2 (.reg 1))), ([0x0F, 0xF2, 0xD1], .pslld (.mm 2 (.reg 1))),
    ([0x0F, 0xF3, 0xD1], .psllq (.mm 2 (.reg 1))), ([0x0F, 0xE1, 0xD1], .psraw (.mm 2 (.reg 1))),
    ([0x0F, 0xE2, 0xD1], .psrad (.mm 2 (.reg 1))), ([0x0F, 0xD1, 0xD1], .psrlw (.mm 2 (.reg 1))),
    ([0x0F, 0xD2, 0xD1], .psrld (.mm 2 (.reg 1))), ([0x0F, 0xD3, 0xD1], .psrlq (.mm 2 (.reg 1))),
    ([0x0F, 0xF8, 0xD1], .psubb (.mm 2 (.reg 1))), ([0x0F, 0xF9, 0xD1], .psubw (.mm 2 (.reg 1))),
    ([0x0F, 0xFA, 0xD1], .psubd (.mm 2 (.reg 1))), ([0x0F, 0xFB, 0xD1], .psubq (.mm 2 (.reg 1))),
    ([0x0F, 0xE8, 0xD1], .psubsb (.mm 2 (.reg 1))), ([0x0F, 0xE9, 0xD1], .psubsw (.mm 2 (.reg 1))),
    ([0x0F, 0xD8, 0xD1], .psubusb (.mm 2 (.reg 1))), ([0x0F, 0xD9, 0xD1], .psubusw (.mm 2 (.reg 1))),
    ([0x66, 0x0F, 0x38, 0x17, 0xD1], .ptest ⟨2, .reg 1⟩), ([0x0F, 0x68, 0xD1], .punpckhbw (.mm 2 (.reg 1))),
    ([0x0F, 0x69, 0xD1], .punpckhwd (.mm 2 (.reg 1))), ([0x0F, 0x6A, 0xD1], .punpckhdq (.mm 2 (.reg 1))),
    ([0x66, 0x0F, 0x6D, 0xD1], .punpckhqdq ⟨2, .reg 1⟩), ([0x0F, 0x60, 0xD1], .punpcklbw (.mm 2 (.reg 1))),
    ([0x0F, 0x61, 0xD1], .punpcklwd (.mm 2 (.reg 1))), ([0x0F, 0x62, 0xD1], .punpckldq (.mm 2 (.reg 1))),
    ([0x66, 0x0F, 0x6C, 0xD1], .punpcklqdq ⟨2, .reg 1⟩), ([0x0F, 0x53, 0xD1], .rcpps ⟨2, .reg 1⟩),
    ([0xF3, 0x0F, 0x53, 0xD1], .rcpss ⟨2, .reg 1⟩), ([0x66, 0x0F, 0x3A, 0x09, 0xD1, 0x11], .roundpd ⟨2, .reg 1, 17⟩),
    ([0x66, 0x0F, 0x3A, 0x08, 0xD1, 0x11], .roundps ⟨2, .reg 1, 17⟩),
    ([0x66, 0x0F, 0x3A, 0x0B, 0xD1, 0x11], .roundsd ⟨2, .reg 1, 17⟩),
    ([0x66, 0x0F, 0x3A, 0x0A, 0xD1, 0x11], .roundss ⟨2, .reg 1, 17⟩), ([0x0F, 0x52, 0xD1], .rsqrtps ⟨2, .reg 1⟩),
    ([0xF3, 0x0F, 0x52, 0xD1], .rsqrtss ⟨2, .reg 1⟩), ([0x66, 0x0F, 0xC6, 0xD1, 0x11], .shufpd ⟨2, .reg 1, 17⟩),
    ([0x0F, 0xC6, 0xD1, 0x11], .shufps ⟨2, .reg 1, 17⟩), ([0x66, 0x0F, 0x51, 0xD1], .sqrtpd ⟨2, .reg 1⟩)] := by
  unfold Decodes; decide +kernel

theorem test_decode_sse_64_7 : Decodes m64 [
    ([0x0F, 0x51, 0xD1], .sqrtps ⟨2, .reg 1⟩), ([0xF2, 0x0F, 0x51, 0xD1], .sqrtsd ⟨2, .reg 1⟩),
    ([0xF3, 0x0F, 0x51, 0xD1], .sqrtss ⟨2, .reg 1⟩), ([0x66, 0x0F, 0x5C, 0xD1], .subpd ⟨2, .reg 1⟩),
    ([0x0F, 0x5C, 0xD1], .subps ⟨2, .reg 1⟩), ([0xF2, 0x0F, 0x5C, 0xD1], .subsd ⟨2, .reg 1⟩),
    ([0xF3, 0x0F, 0x5C, 0xD1], .subss ⟨2, .reg 1⟩), ([0x66, 0x0F, 0x2E, 0xD1], .ucomisd ⟨2, .reg 1⟩),
    ([0x0F, 0x2E, 0xD1], .ucomiss ⟨2, .reg 1⟩), ([0x66, 0x0F, 0x15, 0xD1], .unpckhpd ⟨2, .reg 1⟩),
    ([0x0F, 0x15, 0xD1], .unpckhps ⟨2, .reg 1⟩), ([0x66, 0x0F, 0x14, 0xD1], .unpcklpd ⟨2, .reg 1⟩),
    ([0x0F, 0x14, 0xD1], .unpcklps ⟨2, .reg 1⟩), ([0xC6, 0xF8, 0x11], .xabort 17),
    ([0x66, 0x0F, 0x57, 0xD1], .xorpd ⟨2, .reg 1⟩), ([0x0F, 0x57, 0xD1], .xorps ⟨2, .reg 1⟩)] := by
  unfold Decodes; decide +kernel

theorem test_decode_avx_64_1 : Decodes m64 [
    ([0xC4, 0xE1, 0x55, 0x58, 0xD1], .vaddpd ⟨.l256, 2, 5, .reg 1⟩),
    ([0xC4, 0xE1, 0x54, 0x58, 0xD1], .vaddps ⟨.l256, 2, 5, .reg 1⟩),
    ([0xC4, 0xE1, 0x53, 0x58, 0xD1], .vaddsd ⟨.l128, 2, 5, .reg 1⟩),
    ([0xC4, 0xE1, 0x52, 0x58, 0xD1], .vaddss ⟨.l128, 2, 5, .reg 1⟩),
    ([0xC4, 0xE1, 0x55, 0xD0, 0xD1], .vaddsubpd ⟨.l256, 2, 5, .reg 1⟩),
    ([0xC4, 0xE1, 0x57, 0xD0, 0xD1], .vaddsubps ⟨.l256, 2, 5, .reg 1⟩),
    ([0xC4, 0xE2, 0x51, 0xDE, 0xD1], .vaesdec ⟨.l128, 2, 5, .reg 1⟩),
    ([0xC4, 0xE2, 0x51, 0xDF, 0xD1], .vaesdeclast ⟨.l128, 2, 5, .reg 1⟩),
    ([0xC4, 0xE2, 0x51, 0xDC, 0xD1], .vaesenc ⟨.l128, 2, 5, .reg 1⟩),
    ([0xC4, 0xE2, 0x51, 0xDD, 0xD1], .vaesenclast ⟨.l128, 2, 5, .reg 1⟩),
    ([0xC4, 0xE2, 0x79, 0xDB, 0xD1], .vaesimc ⟨.l128, 2, .reg 1⟩),
    ([0xC4, 0xE3, 0x79, 0xDF, 0xD1, 0x11], .vaeskeygenassist ⟨.l128, 2, .reg 1, 17⟩),
    ([0xC4, 0xE1, 0x55, 0x54, 0xD1], .vandpd ⟨.l256, 2, 5, .reg 1⟩),
    ([0xC4, 0xE1, 0x54, 0x54, 0xD1], .vandps ⟨.l256, 2, 5, .reg 1⟩),
    ([0xC4, 0xE1, 0x55, 0x55, 0xD1], .vandnpd ⟨.l256, 2, 5, .reg 1⟩),
    ([0xC4, 0xE1, 0x54, 0x55, 0xD1], .vandnps ⟨.l256, 2, 5, .reg 1⟩),
    ([0xC4, 0xE3, 0x55, 0x0D, 0xD1, 0x11], .vblendpd ⟨.l256, 2, 5, .reg 1, 17⟩),
    ([0xC4, 0xE3, 0x55, 0x0C, 0xD1, 0x11], .vblendps ⟨.l256, 2, 5, .reg 1, 17⟩),
    ([0xC4, 0xE3, 0x55, 0x4B, 0xD1, 0x30], .vblendvpd ⟨.l256, 2, 5, .reg 1, 3⟩),
    ([0xC4, 0xE3, 0x55, 0x4A, 0xD1, 0x30], .vblendvps ⟨.l256, 2, 5, .reg 1, 3⟩),
    ([0xC4, 0xE1, 0x55, 0xC2, 0xD1, 0x11], .vcmppd ⟨.l256, 2, 5, .reg 1, 17⟩),
    ([0xC4, 0xE1, 0x54, 0xC2, 0xD1, 0x11], .vcmpps ⟨.l256, 2, 5, .reg 1, 17⟩),
    ([0xC4, 0xE1, 0x53, 0xC2, 0xD1, 0x11], .vcmpsd ⟨.l128, 2, 5, .reg 1, 17⟩),
    ([0xC4, 0xE1, 0x52, 0xC2, 0xD1, 0x11], .vcmpss ⟨.l128, 2, 5, .reg 1, 17⟩),
    ([0xC4, 0xE1, 0x79, 0x2F, 0xD1], .vcomisd ⟨.l128, 2, .reg 1⟩),
    ([0xC4, 0xE1, 0x78, 0x2F, 0xD1], .vcomiss ⟨.l128, 2, .reg 1⟩),
    ([0xC4, 0xE1, 0x7E, 0xE6, 0xD1], .vcvtdq2pd ⟨.l256, 2, .reg 1⟩),
    ([0xC4, 0xE1, 0x7C, 0x5B, 0xD1], .vcvtdq2ps ⟨.l256, 2, .reg 1⟩),
    ([0xC4, 0xE1, 0x7F, 0xE6, 0xD1], .vcvtpd2dq ⟨.l256, 2, .reg 1⟩),
    ([0xC4, 0xE1, 0x7D, 0x5A, 0xD1], .vcvtpd2ps ⟨.l256, 2, .reg 1⟩),
    ([0xC4, 0xE1, 0x7D, 0x5B, 0xD1], .vcvtps2dq ⟨.l256, 2, .reg 1⟩),
    ([0xC4, 0xE1, 0x7C, 0x5A, 0xD1], .vcvtps2pd ⟨.l256, 2, .reg 1⟩),
    ([0xC4, 0xE1, 0x7D, 0xE6, 0xD1], .vcvttpd2dq ⟨.l256, 2, .reg 1⟩),
    ([0xC4, 0xE1, 0x7E, 0x5B, 0xD1], .vcvttps2dq ⟨.l256, 2, .reg 1⟩),
    ([0xC4, 0xE1, 0x7B, 0x2D, 0xD1], .vcvtsd2si ⟨.w32, 2, .reg 1⟩),
    ([0xC4, 0xE1, 0x7B, 0x2C, 0xD1], .vcvttsd2si ⟨.w32, 2, .reg 1⟩),
    ([0xC4, 0xE1, 0x7A, 0x2D, 0xD1], .vcvtss2si ⟨.w32, 2, .reg 1⟩),
    ([0xC4, 0xE1, 0x7A, 0x2C, 0xD1], .vcvttss2si ⟨.w32, 2, .reg 1⟩),
    ([0xC4, 0xE1, 0x53, 0x2A, 0xD1], .vcvtsi2sd ⟨2, 5, .w32, .reg (.lo 1)⟩),
    ([0xC4, 0xE1, 0x52, 0x2A, 0xD1], .vcvtsi2ss ⟨2, 5, .w32, .reg (.lo 1)⟩)] := by
  unfold Decodes; decide +kernel

theorem test_decode_avx_64_2 : Decodes m64 [
    ([0xC4, 0xE1, 0x53, 0x5A, 0xD1], .vcvtsd2ss ⟨.l128, 2, 5, .reg 1⟩),
    ([0xC4, 0xE1, 0x52, 0x5A, 0xD1], .vcvtss2sd ⟨.l128, 2, 5, .reg 1⟩),
    ([0xC4, 0xE1, 0x55, 0x5E, 0xD1], .vdivpd ⟨.l256, 2, 5, .reg 1⟩),
    ([0xC4, 0xE1, 0x54, 0x5E, 0xD1], .vdivps ⟨.l256, 2, 5, .reg 1⟩),
    ([0xC4, 0xE1, 0x53, 0x5E, 0xD1], .vdivsd ⟨.l128, 2, 5, .reg 1⟩),
    ([0xC4, 0xE1, 0x52, 0x5E, 0xD1], .vdivss ⟨.l128, 2, 5, .reg 1⟩),
    ([0xC4, 0xE3, 0x51, 0x41, 0xD1, 0x11], .vdppd ⟨.l128, 2, 5, .reg 1, 17⟩),
    ([0xC4, 0xE3, 0x55, 0x40, 0xD1, 0x11], .vdpps ⟨.l256, 2, 5, .reg 1, 17⟩),
    ([0xC4, 0xE3, 0x79, 0x17, 0xD1, 0x11], .vextractps ⟨.reg (.lo 1), 2, 17⟩),
    ([0xC4, 0xE1, 0x55, 0x7C, 0xD1], .vhaddpd ⟨.l256, 2, 5, .reg 1⟩),
    ([0xC4, 0xE1, 0x57, 0x7C, 0xD1], .vhaddps ⟨.l256, 2, 5, .reg 1⟩),
    ([0xC4, 0xE1, 0x55, 0x7D, 0xD1], .vhsubpd ⟨.l256, 2, 5, .reg 1⟩),
    ([0xC4, 0xE1, 0x57, 0x7D, 0xD1], .vhsubps ⟨.l256, 2, 5, .reg 1⟩),
    ([0xC4, 0xE3, 0x51, 0x21, 0xD1, 0x11], .vinsertps ⟨.l128, 2, 5, .reg 1, 17⟩),
    ([0xC4, 0xE1, 0x7F, 0xF0, 0x13], .vlddqu ⟨.l256, 2, atRbx⟩), ([0xC4, 0xE1, 0x78, 0xAE, 0x13], .vldmxcsr atRbx),
    ([0xC4, 0xE1, 0x79, 0xF7, 0xD1], .vmaskmovdqu ⟨.a64, none, 2, 1⟩),
    ([0xC4, 0xE1, 0x55, 0x5F, 0xD1], .vmaxpd ⟨.l256, 2, 5, .reg 1⟩),
    ([0xC4, 0xE1, 0x54, 0x5F, 0xD1], .vmaxps ⟨.l256, 2, 5, .reg 1⟩),
    ([0xC4, 0xE1, 0x53, 0x5F, 0xD1], .vmaxsd ⟨.l128, 2, 5, .reg 1⟩),
    ([0xC4, 0xE1, 0x52, 0x5F, 0xD1], .vmaxss ⟨.l128, 2, 5, .reg 1⟩),
    ([0xC4, 0xE1, 0x55, 0x5D, 0xD1], .vminpd ⟨.l256, 2, 5, .reg 1⟩),
    ([0xC4, 0xE1, 0x54, 0x5D, 0xD1], .vminps ⟨.l256, 2, 5, .reg 1⟩),
    ([0xC4, 0xE1, 0x53, 0x5D, 0xD1], .vminsd ⟨.l128, 2, 5, .reg 1⟩),
    ([0xC4, 0xE1, 0x52, 0x5D, 0xD1], .vminss ⟨.l128, 2, 5, .reg 1⟩),
    ([0xC4, 0xE1, 0x7D, 0x28, 0xD1], .vmovapd (.load .l256 2 (.reg 1))),
    ([0xC4, 0xE1, 0x7C, 0x28, 0xD1], .vmovaps (.load .l256 2 (.reg 1))),
    ([0xC4, 0xE1, 0x79, 0x6E, 0xD1], .vmovd (.load 2 (.reg (.lo 1)))),
    ([0xC4, 0xE1, 0xF9, 0x6E, 0xD1], .vmovqGp (.load 2 (.reg (.lo 1)))),
    ([0xC4, 0xE1, 0x7F, 0x12, 0xD1], .vmovddup ⟨.l256, 2, .reg 1⟩),
    ([0xC4, 0xE1, 0x7D, 0x6F, 0xD1], .vmovdqa (.load .l256 2 (.reg 1))),
    ([0xC4, 0xE1, 0x7E, 0x6F, 0xD1], .vmovdqu (.load .l256 2 (.reg 1))),
    ([0xC4, 0xE1, 0x50, 0x12, 0xD1], .vmovhlps ⟨2, 5, 1⟩), ([0xC4, 0xE1, 0x51, 0x16, 0x13], .vmovhpd (.load 2 5 atRbx)),
    ([0xC4, 0xE1, 0x50, 0x16, 0x13], .vmovhps (.load 2 5 atRbx)), ([0xC4, 0xE1, 0x50, 0x16, 0xD1], .vmovlhps ⟨2, 5, 1⟩),
    ([0xC4, 0xE1, 0x51, 0x12, 0x13], .vmovlpd (.load 2 5 atRbx)),
    ([0xC4, 0xE1, 0x50, 0x12, 0x13], .vmovlps (.load 2 5 atRbx)),
    ([0xC4, 0xE1, 0x7D, 0x50, 0xD1], .vmovmskpd ⟨.l256, 2, 1⟩), ([0xC4, 0xE1, 0x7C, 0x50, 0xD1], .vmovmskps ⟨.l256, 2, 1⟩)] := by
  unfold Decodes; decide +kernel

theorem test_decode_avx_64_3 : Decodes m64 [
    ([0xC4, 0xE2, 0x7D, 0x2A, 0x13], .vmovntdqa ⟨.l256, 2, atRbx⟩),
    ([0xC4, 0xE1, 0x7D, 0xE7, 0x13], .vmovntdq ⟨.l256, atRbx, 2⟩),
    ([0xC4, 0xE1, 0x7D, 0x2B, 0x13], .vmovntpd ⟨.l256, atRbx, 2⟩),
    ([0xC4, 0xE1, 0x7C, 0x2B, 0x13], .vmovntps ⟨.l256, atRbx, 2⟩),
    ([0xC4, 0xE1, 0x7A, 0x7E, 0xD1], .vmovqX (.load .l128 2 (.reg 1))),
    ([0xC4, 0xE1, 0x53, 0x10, 0xD1], .vmovsd (.reg 2 5 1)),
    ([0xC4, 0xE1, 0x7E, 0x16, 0xD1], .vmovshdup ⟨.l256, 2, .reg 1⟩),
    ([0xC4, 0xE1, 0x7E, 0x12, 0xD1], .vmovsldup ⟨.l256, 2, .reg 1⟩),
    ([0xC4, 0xE1, 0x7A, 0x10, 0x13], .vmovss (.load 2 atRbx)),
    ([0xC4, 0xE1, 0x7D, 0x10, 0xD1], .vmovupd (.load .l256 2 (.reg 1))),
    ([0xC4, 0xE1, 0x7C, 0x10, 0xD1], .vmovups (.load .l256 2 (.reg 1))),
    ([0xC4, 0xE3, 0x55, 0x42, 0xD1, 0x11], .vmpsadbw ⟨.l256, 2, 5, .reg 1, 17⟩),
    ([0xC4, 0xE1, 0x55, 0x59, 0xD1], .vmulpd ⟨.l256, 2, 5, .reg 1⟩),
    ([0xC4, 0xE1, 0x54, 0x59, 0xD1], .vmulps ⟨.l256, 2, 5, .reg 1⟩),
    ([0xC4, 0xE1, 0x53, 0x59, 0xD1], .vmulsd ⟨.l128, 2, 5, .reg 1⟩),
    ([0xC4, 0xE1, 0x52, 0x59, 0xD1], .vmulss ⟨.l128, 2, 5, .reg 1⟩),
    ([0xC4, 0xE1, 0x55, 0x56, 0xD1], .vorpd ⟨.l256, 2, 5, .reg 1⟩),
    ([0xC4, 0xE1, 0x54, 0x56, 0xD1], .vorps ⟨.l256, 2, 5, .reg 1⟩),
    ([0xC4, 0xE2, 0x7D, 0x1C, 0xD1], .vpabsb ⟨.l256, 2, .reg 1⟩),
    ([0xC4, 0xE2, 0x7D, 0x1D, 0xD1], .vpabsw ⟨.l256, 2, .reg 1⟩),
    ([0xC4, 0xE2, 0x7D, 0x1E, 0xD1], .vpabsd ⟨.l256, 2, .reg 1⟩),
    ([0xC4, 0xE1, 0x55, 0x63, 0xD1], .vpacksswb ⟨.l256, 2, 5, .reg 1⟩),
    ([0xC4, 0xE1, 0x55, 0x6B, 0xD1], .vpackssdw ⟨.l256, 2, 5, .reg 1⟩),
    ([0xC4, 0xE2, 0x55, 0x2B, 0xD1], .vpackusdw ⟨.l256, 2, 5, .reg 1⟩),
    ([0xC4, 0xE1, 0x55, 0x67, 0xD1], .vpackuswb ⟨.l256, 2, 5, .reg 1⟩),
    ([0xC4, 0xE1, 0x55, 0xFC, 0xD1], .vpaddb ⟨.l256, 2, 5, .reg 1⟩),
    ([0xC4, 0xE1, 0x55, 0xFD, 0xD1], .vpaddw ⟨.l256, 2, 5, .reg 1⟩),
    ([0xC4, 0xE1, 0x55, 0xFE, 0xD1], .vpaddd ⟨.l256, 2, 5, .reg 1⟩),
    ([0xC4, 0xE1, 0x55, 0xD4, 0xD1], .vpaddq ⟨.l256, 2, 5, .reg 1⟩),
    ([0xC4, 0xE1, 0x55, 0xEC, 0xD1], .vpaddsb ⟨.l256, 2, 5, .reg 1⟩),
    ([0xC4, 0xE1, 0x55, 0xED, 0xD1], .vpaddsw ⟨.l256, 2, 5, .reg 1⟩),
    ([0xC4, 0xE1, 0x55, 0xDC, 0xD1], .vpaddusb ⟨.l256, 2, 5, .reg 1⟩),
    ([0xC4, 0xE1, 0x55, 0xDD, 0xD1], .vpaddusw ⟨.l256, 2, 5, .reg 1⟩),
    ([0xC4, 0xE3, 0x55, 0x0F, 0xD1, 0x11], .vpalignr ⟨.l256, 2, 5, .reg 1, 17⟩),
    ([0xC4, 0xE1, 0x55, 0xDB, 0xD1], .vpand ⟨.l256, 2, 5, .reg 1⟩),
    ([0xC4, 0xE1, 0x55, 0xDF, 0xD1], .vpandn ⟨.l256, 2, 5, .reg 1⟩),
    ([0xC4, 0xE1, 0x55, 0xE0, 0xD1], .vpavgb ⟨.l256, 2, 5, .reg 1⟩),
    ([0xC4, 0xE1, 0x55, 0xE3, 0xD1], .vpavgw ⟨.l256, 2, 5, .reg 1⟩),
    ([0xC4, 0xE3, 0x55, 0x4C, 0xD1, 0x30], .vpblendvb ⟨.l256, 2, 5, .reg 1, 3⟩),
    ([0xC4, 0xE3, 0x55, 0x0E, 0xD1, 0x11], .vpblendw ⟨.l256, 2, 5, .reg 1, 17⟩)] := by
  unfold Decodes; decide +kernel

theorem test_decode_avx_64_4 : Decodes m64 [
    ([0xC4, 0xE3, 0x51, 0x44, 0xD1, 0x11], .vpclmulqdq ⟨.l128, 2, 5, .reg 1, 17⟩),
    ([0xC4, 0xE1, 0x55, 0x74, 0xD1], .vpcmpeqb ⟨.l256, 2, 5, .reg 1⟩),
    ([0xC4, 0xE1, 0x55, 0x75, 0xD1], .vpcmpeqw ⟨.l256, 2, 5, .reg 1⟩),
    ([0xC4, 0xE1, 0x55, 0x76, 0xD1], .vpcmpeqd ⟨.l256, 2, 5, .reg 1⟩),
    ([0xC4, 0xE2, 0x55, 0x29, 0xD1], .vpcmpeqq ⟨.l256, 2, 5, .reg 1⟩),
    ([0xC4, 0xE1, 0x55, 0x64, 0xD1], .vpcmpgtb ⟨.l256, 2, 5, .reg 1⟩),
    ([0xC4, 0xE1, 0x55, 0x65, 0xD1], .vpcmpgtw ⟨.l256, 2, 5, .reg 1⟩),
    ([0xC4, 0xE1, 0x55, 0x66, 0xD1], .vpcmpgtd ⟨.l256, 2, 5, .reg 1⟩),
    ([0xC4, 0xE2, 0x55, 0x37, 0xD1], .vpcmpgtq ⟨.l256, 2, 5, .reg 1⟩),
    ([0xC4, 0xE3, 0x79, 0x61, 0xD1, 0x11], .vpcmpestri ⟨.l128, 2, .reg 1, 17⟩),
    ([0xC4, 0xE3, 0x79, 0x60, 0xD1, 0x11], .vpcmpestrm ⟨.l128, 2, .reg 1, 17⟩),
    ([0xC4, 0xE3, 0x79, 0x63, 0xD1, 0x11], .vpcmpistri ⟨.l128, 2, .reg 1, 17⟩),
    ([0xC4, 0xE3, 0x79, 0x62, 0xD1, 0x11], .vpcmpistrm ⟨.l128, 2, .reg 1, 17⟩),
    ([0xC4, 0xE3, 0x79, 0x14, 0xD1, 0x11], .vpextrb ⟨.reg (.lo 1), 2, 17⟩),
    ([0xC4, 0xE3, 0x79, 0x16, 0xD1, 0x11], .vpextrd ⟨.reg (.lo 1), 2, 17⟩),
    ([0xC4, 0xE3, 0xF9, 0x16, 0xD1, 0x11], .vpextrq ⟨.reg (.lo 1), 2, 17⟩),
    ([0xC4, 0xE1, 0x79, 0xC5, 0xD1, 0x11], .vpextrw ⟨.reg (.lo 2), 1, 17⟩),
    ([0xC4, 0xE2, 0x55, 0x01, 0xD1], .vphaddw ⟨.l256, 2, 5, .reg 1⟩),
    ([0xC4, 0xE2, 0x55, 0x02, 0xD1], .vphaddd ⟨.l256, 2, 5, .reg 1⟩),
    ([0xC4, 0xE2, 0x55, 0x03, 0xD1], .vphaddsw ⟨.l256, 2, 5, .reg 1⟩),
    ([0xC4, 0xE2, 0x79, 0x41, 0xD1], .vphminposuw ⟨.l128, 2, .reg 1⟩),
    ([0xC4, 0xE2, 0x55, 0x05, 0xD1], .vphsubw ⟨.l256, 2, 5, .reg 1⟩),
    ([0xC4, 0xE2, 0x55, 0x06, 0xD1], .vphsubd ⟨.l256, 2, 5, .reg 1⟩),
    ([0xC4, 0xE2, 0x55, 0x07, 0xD1], .vphsubsw ⟨.l256, 2, 5, .reg 1⟩),
    ([0xC4, 0xE3, 0x51, 0x20, 0xD1, 0x11], .vpinsrb ⟨2, 5, .reg (.lo 1), 17⟩),
    ([0xC4, 0xE3, 0x51, 0x22, 0xD1, 0x11], .vpinsrd ⟨2, 5, .reg (.lo 1), 17⟩),
    ([0xC4, 0xE3, 0xD1, 0x22, 0xD1, 0x11], .vpinsrq ⟨2, 5, .reg (.lo 1), 17⟩),
    ([0xC4, 0xE1, 0x51, 0xC4, 0xD1, 0x11], .vpinsrw ⟨2, 5, .reg (.lo 1), 17⟩),
    ([0xC4, 0xE2, 0x55, 0x04, 0xD1], .vpmaddubsw ⟨.l256, 2, 5, .reg 1⟩),
    ([0xC4, 0xE1, 0x55, 0xF5, 0xD1], .vpmaddwd ⟨.l256, 2, 5, .reg 1⟩),
    ([0xC4, 0xE2, 0x55, 0x3C, 0xD1], .vpmaxsb ⟨.l256, 2, 5, .reg 1⟩),
    ([0xC4, 0xE2, 0x55, 0x3D, 0xD1], .vpmaxsd ⟨.l256, 2, 5, .reg 1⟩),
    ([0xC4, 0xE1, 0x55, 0xEE, 0xD1], .vpmaxsw ⟨.l256, 2, 5, .reg 1⟩),
    ([0xC4, 0xE1, 0x55, 0xDE, 0xD1], .vpmaxub ⟨.l256, 2, 5, .reg 1⟩),
    ([0xC4, 0xE2, 0x55, 0x3F, 0xD1], .vpmaxud ⟨.l256, 2, 5, .reg 1⟩),
    ([0xC4, 0xE2, 0x55, 0x3E, 0xD1], .vpmaxuw ⟨.l256, 2, 5, .reg 1⟩),
    ([0xC4, 0xE2, 0x55, 0x38, 0xD1], .vpminsb ⟨.l256, 2, 5, .reg 1⟩),
    ([0xC4, 0xE2, 0x55, 0x39, 0xD1], .vpminsd ⟨.l256, 2, 5, .reg 1⟩),
    ([0xC4, 0xE1, 0x55, 0xEA, 0xD1], .vpminsw ⟨.l256, 2, 5, .reg 1⟩),
    ([0xC4, 0xE1, 0x55, 0xDA, 0xD1], .vpminub ⟨.l256, 2, 5, .reg 1⟩)] := by
  unfold Decodes; decide +kernel

theorem test_decode_avx_64_5 : Decodes m64 [
    ([0xC4, 0xE2, 0x55, 0x3B, 0xD1], .vpminud ⟨.l256, 2, 5, .reg 1⟩),
    ([0xC4, 0xE2, 0x55, 0x3A, 0xD1], .vpminuw ⟨.l256, 2, 5, .reg 1⟩),
    ([0xC4, 0xE1, 0x7D, 0xD7, 0xD1], .vpmovmskb ⟨.l256, 2, 1⟩),
    ([0xC4, 0xE2, 0x7D, 0x20, 0xD1], .vpmovsxbw ⟨.l256, 2, .reg 1⟩),
    ([0xC4, 0xE2, 0x7D, 0x21, 0xD1], .vpmovsxbd ⟨.l256, 2, .reg 1⟩),
    ([0xC4, 0xE2, 0x7D, 0x22, 0xD1], .vpmovsxbq ⟨.l256, 2, .reg 1⟩),
    ([0xC4, 0xE2, 0x7D, 0x23, 0xD1], .vpmovsxwd ⟨.l256, 2, .reg 1⟩),
    ([0xC4, 0xE2, 0x7D, 0x24, 0xD1], .vpmovsxwq ⟨.l256, 2, .reg 1⟩),
    ([0xC4, 0xE2, 0x7D, 0x25, 0xD1], .vpmovsxdq ⟨.l256, 2, .reg 1⟩),
    ([0xC4, 0xE2, 0x7D, 0x30, 0xD1], .vpmovzxbw ⟨.l256, 2, .reg 1⟩),
    ([0xC4, 0xE2, 0x7D, 0x31, 0xD1], .vpmovzxbd ⟨.l256, 2, .reg 1⟩),
    ([0xC4, 0xE2, 0x7D, 0x32, 0xD1], .vpmovzxbq ⟨.l256, 2, .reg 1⟩),
    ([0xC4, 0xE2, 0x7D, 0x33, 0xD1], .vpmovzxwd ⟨.l256, 2, .reg 1⟩),
    ([0xC4, 0xE2, 0x7D, 0x34, 0xD1], .vpmovzxwq ⟨.l256, 2, .reg 1⟩),
    ([0xC4, 0xE2, 0x7D, 0x35, 0xD1], .vpmovzxdq ⟨.l256, 2, .reg 1⟩),
    ([0xC4, 0xE2, 0x55, 0x28, 0xD1], .vpmuldq ⟨.l256, 2, 5, .reg 1⟩),
    ([0xC4, 0xE2, 0x55, 0x0B, 0xD1], .vpmulhrsw ⟨.l256, 2, 5, .reg 1⟩),
    ([0xC4, 0xE1, 0x55, 0xE4, 0xD1], .vpmulhuw ⟨.l256, 2, 5, .reg 1⟩),
    ([0xC4, 0xE1, 0x55, 0xE5, 0xD1], .vpmulhw ⟨.l256, 2, 5, .reg 1⟩),
    ([0xC4, 0xE2, 0x55, 0x40, 0xD1], .vpmulld ⟨.l256, 2, 5, .reg 1⟩),
    ([0xC4, 0xE1, 0x55, 0xD5, 0xD1], .vpmullw ⟨.l256, 2, 5, .reg 1⟩),
    ([0xC4, 0xE1, 0x55, 0xF4, 0xD1], .vpmuludq ⟨.l256, 2, 5, .reg 1⟩),
    ([0xC4, 0xE1, 0x55, 0xEB, 0xD1], .vpor ⟨.l256, 2, 5, .reg 1⟩),
    ([0xC4, 0xE1, 0x55, 0xEF, 0xD1], .vpxor ⟨.l256, 2, 5, .reg 1⟩),
    ([0xC4, 0xE1, 0x55, 0xF6, 0xD1], .vpsadbw ⟨.l256, 2, 5, .reg 1⟩),
    ([0xC4, 0xE2, 0x55, 0x00, 0xD1], .vpshufb ⟨.l256, 2, 5, .reg 1⟩),
    ([0xC4, 0xE1, 0x7D, 0x70, 0xD1, 0x11], .vpshufd ⟨.l256, 2, .reg 1, 17⟩),
    ([0xC4, 0xE1, 0x7E, 0x70, 0xD1, 0x11], .vpshufhw ⟨.l256, 2, .reg 1, 17⟩),
    ([0xC4, 0xE1, 0x7F, 0x70, 0xD1, 0x11], .vpshuflw ⟨.l256, 2, .reg 1, 17⟩),
    ([0xC4, 0xE2, 0x55, 0x08, 0xD1], .vpsignb ⟨.l256, 2, 5, .reg 1⟩),
    ([0xC4, 0xE2, 0x55, 0x09, 0xD1], .vpsignw ⟨.l256, 2, 5, .reg 1⟩),
    ([0xC4, 0xE2, 0x55, 0x0A, 0xD1], .vpsignd ⟨.l256, 2, 5, .reg 1⟩),
    ([0xC4, 0xE1, 0x55, 0x73, 0xF9, 0x11], .vpslldq ⟨.l256, 5, 1, 17⟩),
    ([0xC4, 0xE1, 0x55, 0x73, 0xD9, 0x11], .vpsrldq ⟨.l256, 5, 1, 17⟩),
    ([0xC4, 0xE1, 0x55, 0xF1, 0xD1], .vpsllw (.vec .l256 2 5 (.reg 1))),
    ([0xC4, 0xE1, 0x55, 0xF2, 0xD1], .vpslld (.vec .l256 2 5 (.reg 1))),
    ([0xC4, 0xE1, 0x55, 0xF3, 0xD1], .vpsllq (.vec .l256 2 5 (.reg 1))),
    ([0xC4, 0xE1, 0x55, 0xE1, 0xD1], .vpsraw (.vec .l256 2 5 (.reg 1))),
    ([0xC4, 0xE1, 0x55, 0xE2, 0xD1], .vpsrad (.vec .l256 2 5 (.reg 1))),
    ([0xC4, 0xE1, 0x55, 0xD1, 0xD1], .vpsrlw (.vec .l256 2 5 (.reg 1)))] := by
  unfold Decodes; decide +kernel

theorem test_decode_avx_64_6 : Decodes m64 [
    ([0xC4, 0xE1, 0x55, 0xD2, 0xD1], .vpsrld (.vec .l256 2 5 (.reg 1))),
    ([0xC4, 0xE1, 0x55, 0xD3, 0xD1], .vpsrlq (.vec .l256 2 5 (.reg 1))),
    ([0xC4, 0xE1, 0x55, 0xF8, 0xD1], .vpsubb ⟨.l256, 2, 5, .reg 1⟩),
    ([0xC4, 0xE1, 0x55, 0xF9, 0xD1], .vpsubw ⟨.l256, 2, 5, .reg 1⟩),
    ([0xC4, 0xE1, 0x55, 0xFA, 0xD1], .vpsubd ⟨.l256, 2, 5, .reg 1⟩),
    ([0xC4, 0xE1, 0x55, 0xFB, 0xD1], .vpsubq ⟨.l256, 2, 5, .reg 1⟩),
    ([0xC4, 0xE1, 0x55, 0xE8, 0xD1], .vpsubsb ⟨.l256, 2, 5, .reg 1⟩),
    ([0xC4, 0xE1, 0x55, 0xE9, 0xD1], .vpsubsw ⟨.l256, 2, 5, .reg 1⟩),
    ([0xC4, 0xE1, 0x55, 0xD8, 0xD1], .vpsubusb ⟨.l256, 2, 5, .reg 1⟩),
    ([0xC4, 0xE1, 0x55, 0xD9, 0xD1], .vpsubusw ⟨.l256, 2, 5, .reg 1⟩),
    ([0xC4, 0xE2, 0x7D, 0x17, 0xD1], .vptest ⟨.l256, 2, .reg 1⟩),
    ([0xC4, 0xE1, 0x55, 0x68, 0xD1], .vpunpckhbw ⟨.l256, 2, 5, .reg 1⟩),
    ([0xC4, 0xE1, 0x55, 0x69, 0xD1], .vpunpckhwd ⟨.l256, 2, 5, .reg 1⟩),
    ([0xC4, 0xE1, 0x55, 0x6A, 0xD1], .vpunpckhdq ⟨.l256, 2, 5, .reg 1⟩),
    ([0xC4, 0xE1, 0x55, 0x6D, 0xD1], .vpunpckhqdq ⟨.l256, 2, 5, .reg 1⟩),
    ([0xC4, 0xE1, 0x55, 0x60, 0xD1], .vpunpcklbw ⟨.l256, 2, 5, .reg 1⟩),
    ([0xC4, 0xE1, 0x55, 0x61, 0xD1], .vpunpcklwd ⟨.l256, 2, 5, .reg 1⟩),
    ([0xC4, 0xE1, 0x55, 0x62, 0xD1], .vpunpckldq ⟨.l256, 2, 5, .reg 1⟩),
    ([0xC4, 0xE1, 0x55, 0x6C, 0xD1], .vpunpcklqdq ⟨.l256, 2, 5, .reg 1⟩),
    ([0xC4, 0xE1, 0x7C, 0x53, 0xD1], .vrcpps ⟨.l256, 2, .reg 1⟩),
    ([0xC4, 0xE1, 0x52, 0x53, 0xD1], .vrcpss ⟨.l128, 2, 5, .reg 1⟩),
    ([0xC4, 0xE3, 0x7D, 0x09, 0xD1, 0x11], .vroundpd ⟨.l256, 2, .reg 1, 17⟩),
    ([0xC4, 0xE3, 0x7D, 0x08, 0xD1, 0x11], .vroundps ⟨.l256, 2, .reg 1, 17⟩),
    ([0xC4, 0xE3, 0x51, 0x0B, 0xD1, 0x11], .vroundsd ⟨.l128, 2, 5, .reg 1, 17⟩),
    ([0xC4, 0xE3, 0x51, 0x0A, 0xD1, 0x11], .vroundss ⟨.l128, 2, 5, .reg 1, 17⟩),
    ([0xC4, 0xE1, 0x7C, 0x52, 0xD1], .vrsqrtps ⟨.l256, 2, .reg 1⟩),
    ([0xC4, 0xE1, 0x52, 0x52, 0xD1], .vrsqrtss ⟨.l128, 2, 5, .reg 1⟩),
    ([0xC4, 0xE1, 0x55, 0xC6, 0xD1, 0x11], .vshufpd ⟨.l256, 2, 5, .reg 1, 17⟩),
    ([0xC4, 0xE1, 0x54, 0xC6, 0xD1, 0x11], .vshufps ⟨.l256, 2, 5, .reg 1, 17⟩),
    ([0xC4, 0xE1, 0x7D, 0x51, 0xD1], .vsqrtpd ⟨.l256, 2, .reg 1⟩),
    ([0xC4, 0xE1, 0x7C, 0x51, 0xD1], .vsqrtps ⟨.l256, 2, .reg 1⟩),
    ([0xC4, 0xE1, 0x53, 0x51, 0xD1], .vsqrtsd ⟨.l128, 2, 5, .reg 1⟩),
    ([0xC4, 0xE1, 0x52, 0x51, 0xD1], .vsqrtss ⟨.l128, 2, 5, .reg 1⟩), ([0xC4, 0xE1, 0x78, 0xAE, 0x1B], .vstmxcsr atRbx),
    ([0xC4, 0xE1, 0x55, 0x5C, 0xD1], .vsubpd ⟨.l256, 2, 5, .reg 1⟩),
    ([0xC4, 0xE1, 0x54, 0x5C, 0xD1], .vsubps ⟨.l256, 2, 5, .reg 1⟩),
    ([0xC4, 0xE1, 0x53, 0x5C, 0xD1], .vsubsd ⟨.l128, 2, 5, .reg 1⟩),
    ([0xC4, 0xE1, 0x52, 0x5C, 0xD1], .vsubss ⟨.l128, 2, 5, .reg 1⟩),
    ([0xC4, 0xE1, 0x79, 0x2E, 0xD1], .vucomisd ⟨.l128, 2, .reg 1⟩),
    ([0xC4, 0xE1, 0x78, 0x2E, 0xD1], .vucomiss ⟨.l128, 2, .reg 1⟩)] := by
  unfold Decodes; decide +kernel

theorem test_decode_avx_64_7 : Decodes m64 [
    ([0xC4, 0xE1, 0x55, 0x15, 0xD1], .vunpckhpd ⟨.l256, 2, 5, .reg 1⟩),
    ([0xC4, 0xE1, 0x54, 0x15, 0xD1], .vunpckhps ⟨.l256, 2, 5, .reg 1⟩),
    ([0xC4, 0xE1, 0x55, 0x14, 0xD1], .vunpcklpd ⟨.l256, 2, 5, .reg 1⟩),
    ([0xC4, 0xE1, 0x54, 0x14, 0xD1], .vunpcklps ⟨.l256, 2, 5, .reg 1⟩),
    ([0xC4, 0xE2, 0x7D, 0x18, 0x13], .vbroadcastss ⟨.l256, 2, .mem atRbx⟩),
    ([0xC4, 0xE2, 0x7D, 0x19, 0x13], .vbroadcastsd ⟨.l256, 2, .mem atRbx⟩),
    ([0xC4, 0xE2, 0x7D, 0x1A, 0x13], .vbroadcastf128 ⟨.l256, 2, atRbx⟩),
    ([0xC4, 0xE2, 0x7D, 0x13, 0xD1], .vcvtph2ps ⟨.l256, 2, .reg 1⟩),
    ([0xC4, 0xE3, 0x7D, 0x1D, 0xD1, 0x11], .vcvtps2ph ⟨.l256, .reg 1, 2, 17⟩),
    ([0xC4, 0xE3, 0x7D, 0x19, 0xD1, 0x11], .vextractf128 ⟨.l256, .reg 1, 2, 17⟩),
    ([0xC4, 0xE3, 0x7D, 0x39, 0xD1, 0x11], .vextracti128 ⟨.l256, .reg 1, 2, 17⟩),
    ([0xC4, 0xE2, 0xD5, 0x92, 0x14, 0x4B], .vgatherdpd ⟨.l256, 2, 5, ⟨none, .a64, (some 3), 1, 1, 0⟩⟩),
    ([0xC4, 0xE2, 0xD5, 0x93, 0x14, 0x4B], .vgatherqpd ⟨.l256, 2, 5, ⟨none, .a64, (some 3), 1, 1, 0⟩⟩),
    ([0xC4, 0xE2, 0x55, 0x92, 0x14, 0x4B], .vgatherdps ⟨.l256, 2, 5, ⟨none, .a64, (some 3), 1, 1, 0⟩⟩),
    ([0xC4, 0xE2, 0x51, 0x93, 0x14, 0x4B], .vgatherqps ⟨.l128, 2, 5, ⟨none, .a64, (some 3), 1, 1, 0⟩⟩),
    ([0xC4, 0xE2, 0x55, 0x90, 0x14, 0x4B], .vpgatherdd ⟨.l256, 2, 5, ⟨none, .a64, (some 3), 1, 1, 0⟩⟩),
    ([0xC4, 0xE2, 0x51, 0x91, 0x14, 0x4B], .vpgatherqd ⟨.l128, 2, 5, ⟨none, .a64, (some 3), 1, 1, 0⟩⟩),
    ([0xC4, 0xE2, 0xD5, 0x90, 0x14, 0x4B], .vpgatherdq ⟨.l256, 2, 5, ⟨none, .a64, (some 3), 1, 1, 0⟩⟩),
    ([0xC4, 0xE2, 0xD5, 0x91, 0x14, 0x4B], .vpgatherqq ⟨.l256, 2, 5, ⟨none, .a64, (some 3), 1, 1, 0⟩⟩),
    ([0xC4, 0xE3, 0x55, 0x18, 0xD1, 0x11], .vinsertf128 ⟨.l256, 2, 5, .reg 1, 17⟩),
    ([0xC4, 0xE3, 0x55, 0x38, 0xD1, 0x11], .vinserti128 ⟨.l256, 2, 5, .reg 1, 17⟩),
    ([0xC4, 0xE2, 0x55, 0x2C, 0x13], .vmaskmovps (.load .l256 2 5 atRbx)),
    ([0xC4, 0xE2, 0x55, 0x2D, 0x13], .vmaskmovpd (.load .l256 2 5 atRbx)),
    ([0xC4, 0xE3, 0x55, 0x02, 0xD1, 0x11], .vpblendd ⟨.l256, 2, 5, .reg 1, 17⟩),
    ([0xC4, 0xE2, 0x7D, 0x78, 0xD1], .vpbroadcastb ⟨.l256, 2, .reg 1⟩),
    ([0xC4, 0xE2, 0x7D, 0x79, 0xD1], .vpbroadcastw ⟨.l256, 2, .reg 1⟩),
    ([0xC4, 0xE2, 0x7D, 0x58, 0xD1], .vpbroadcastd ⟨.l256, 2, .reg 1⟩),
    ([0xC4, 0xE2, 0x7D, 0x59, 0xD1], .vpbroadcastq ⟨.l256, 2, .reg 1⟩),
    ([0xC4, 0xE2, 0x7D, 0x5A, 0x13], .vbroadcasti128 ⟨.l256, 2, atRbx⟩),
    ([0xC4, 0xE2, 0x55, 0x36, 0xD1], .vpermd ⟨.l256, 2, 5, .reg 1⟩),
    ([0xC4, 0xE3, 0xFD, 0x01, 0xD1, 0x11], .vpermpd ⟨.l256, 2, .reg 1, 17⟩),
    ([0xC4, 0xE2, 0x55, 0x16, 0xD1], .vpermps ⟨.l256, 2, 5, .reg 1⟩),
    ([0xC4, 0xE3, 0xFD, 0x00, 0xD1, 0x11], .vpermq ⟨.l256, 2, .reg 1, 17⟩),
    ([0xC4, 0xE3, 0x55, 0x46, 0xD1, 0x11], .vperm2i128 ⟨.l256, 2, 5, .reg 1, 17⟩),
    ([0xC4, 0xE3, 0x55, 0x06, 0xD1, 0x11], .vperm2f128 ⟨.l256, 2, 5, .reg 1, 17⟩),
    ([0xC4, 0xE2, 0x55, 0x0D, 0xD1], .vpermilpd (.vec ⟨.l256, 2, 5, .reg 1⟩)),
    ([0xC4, 0xE2, 0x55, 0x0C, 0xD1], .vpermilps (.vec ⟨.l256, 2, 5, .reg 1⟩)),
    ([0xC4, 0xE2, 0x55, 0x8C, 0x13], .vpmaskmovd (.load .l256 2 5 atRbx)),
    ([0xC4, 0xE2, 0xD5, 0x8C, 0x13], .vpmaskmovq (.load .l256 2 5 atRbx)),
    ([0xC4, 0xE2, 0x55, 0x47, 0xD1], .vpsllvd ⟨.l256, 2, 5, .reg 1⟩)] := by
  unfold Decodes; decide +kernel

theorem test_decode_avx_64_8 : Decodes m64 [
    ([0xC4, 0xE2, 0xD5, 0x47, 0xD1], .vpsllvq ⟨.l256, 2, 5, .reg 1⟩),
    ([0xC4, 0xE2, 0x55, 0x46, 0xD1], .vpsravd ⟨.l256, 2, 5, .reg 1⟩),
    ([0xC4, 0xE2, 0x55, 0x45, 0xD1], .vpsrlvd ⟨.l256, 2, 5, .reg 1⟩),
    ([0xC4, 0xE2, 0xD5, 0x45, 0xD1], .vpsrlvq ⟨.l256, 2, 5, .reg 1⟩),
    ([0xC4, 0xE2, 0x7D, 0x0E, 0xD1], .vtestps ⟨.l256, 2, .reg 1⟩),
    ([0xC4, 0xE2, 0x7D, 0x0F, 0xD1], .vtestpd ⟨.l256, 2, .reg 1⟩), ([0xC4, 0xE1, 0x7C, 0x77], .vzeroall),
    ([0xC4, 0xE1, 0x78, 0x77], .vzeroupper), ([0xC4, 0xE1, 0x55, 0x57, 0xD1], .vxorpd ⟨.l256, 2, 5, .reg 1⟩),
    ([0xC4, 0xE1, 0x54, 0x57, 0xD1], .vxorps ⟨.l256, 2, 5, .reg 1⟩)] := by
  unfold Decodes; decide +kernel

theorem test_decode_bmi_64_1 : Decodes m64 [
    ([0xC4, 0xE2, 0x50, 0xF2, 0xD1], .andn ⟨.w32, 2, 5, .reg (.lo 1)⟩),
    ([0xC4, 0xE2, 0x50, 0xF7, 0xD1], .bextr ⟨.w32, 2, 5, .reg (.lo 1)⟩),
    ([0xC4, 0xE2, 0x50, 0xF3, 0xD9], .blsi ⟨.w32, 5, .reg (.lo 1)⟩),
    ([0xC4, 0xE2, 0x50, 0xF3, 0xD1], .blsmsk ⟨.w32, 5, .reg (.lo 1)⟩),
    ([0xC4, 0xE2, 0x50, 0xF3, 0xC9], .blsr ⟨.w32, 5, .reg (.lo 1)⟩),
    ([0xC4, 0xE2, 0x50, 0xF5, 0xD1], .bzhi ⟨.w32, 2, 5, .reg (.lo 1)⟩),
    ([0xC4, 0xE2, 0x53, 0xF6, 0xD1], .mulx ⟨.w32, 2, 5, .reg (.lo 1)⟩),
    ([0xC4, 0xE2, 0x53, 0xF5, 0xD1], .pdep ⟨.w32, 2, 5, .reg (.lo 1)⟩),
    ([0xC4, 0xE2, 0x52, 0xF5, 0xD1], .pext ⟨.w32, 2, 5, .reg (.lo 1)⟩),
    ([0xC4, 0xE3, 0x7B, 0xF0, 0xD1, 0x11], .rorx ⟨.w32, 2, .reg (.lo 1), 17⟩),
    ([0xC4, 0xE2, 0x52, 0xF7, 0xD1], .sarx ⟨.w32, 2, 5, .reg (.lo 1)⟩),
    ([0xC4, 0xE2, 0x51, 0xF7, 0xD1], .shlx ⟨.w32, 2, 5, .reg (.lo 1)⟩),
    ([0xC4, 0xE2, 0x53, 0xF7, 0xD1], .shrx ⟨.w32, 2, 5, .reg (.lo 1)⟩)] := by
  unfold Decodes; decide +kernel

theorem test_decode_general_16_1 : Decodes ⟨false, false, false⟩ [
    ([0x98], .cbw), ([0xA7], .cmpsw .a16), ([0x99], .cwd), ([0x6D], .insw .a16), ([0xCF], .iret),
    ([0xE3, 0x05], .jcxz ⟨.w16, 5⟩), ([0xAD], .lodsw .a16), ([0xA5], .movsw .a16), ([0x6F], .outsw .a16), ([0x61], .popa),
    ([0x9D], .popf), ([0x60], .pusha), ([0x9C], .pushf), ([0xAF], .scasw .a16), ([0xAB], .stosw .a16)] := by
  unfold Decodes; decide +kernel

theorem test_decode_x87_64_1 : Decodes m64 [
    ([0xD9, 0xF0], .f2xm1), ([0xD9, 0xE1], .fabs), ([0xD8, 0x03], .fadd (.m32 atRbx)), ([0xDE, 0xC3], .faddp 3),
    ([0xDA, 0x03], .fiadd (.m32 atRbx)), ([0xDF, 0x23], .fbld atRbx), ([0xDF, 0x33], .fbstp atRbx), ([0xD9, 0xE0], .fchs),
    ([0xDB, 0xE2], .fnclex), ([0xDA, 0xC3], .fcmovb 3), ([0xDA, 0xCB], .fcmove 3), ([0xDA, 0xD3], .fcmovbe 3),
    ([0xDA, 0xDB], .fcmovu 3), ([0xDB, 0xC3], .fcmovnb 3), ([0xDB, 0xCB], .fcmovne 3), ([0xDB, 0xD3], .fcmovnbe 3),
    ([0xDB, 0xDB], .fcmovnu 3), ([0xD8, 0x13], .fcom (.m32 atRbx)), ([0xD8, 0x1B], .fcomp (.m32 atRbx)),
    ([0xDE, 0xD9], .fcompp), ([0xDB, 0xF3], .fcomi 3), ([0xDF, 0xF3], .fcomip 3), ([0xDB, 0xEB], .fucomi 3),
    ([0xDF, 0xEB], .fucomip 3), ([0xD9, 0xFF], .fcos), ([0xD9, 0xF6], .fdecstp), ([0xD8, 0x33], .fdiv (.m32 atRbx)),
    ([0xDE, 0xFB], .fdivp 3), ([0xDA, 0x33], .fidiv (.m32 atRbx)), ([0xD8, 0x3B], .fdivr (.m32 atRbx)),
    ([0xDE, 0xF3], .fdivrp 3), ([0xDA, 0x3B], .fidivr (.m32 atRbx)), ([0xDD, 0xC3], .ffree 3),
    ([0xDA, 0x13], .ficom (.m32 atRbx)), ([0xDA, 0x1B], .ficomp (.m32 atRbx)), ([0xDB, 0x03], .fild (.m32 atRbx)),
    ([0xD9, 0xF7], .fincstp), ([0xDB, 0xE3], .fninit), ([0xDB, 0x13], .fist (.m32 atRbx)),
    ([0xDB, 0x1B], .fistp (.m32 atRbx))] := by
  unfold Decodes; decide +kernel

theorem test_decode_x87_64_2 : Decodes m64 [
    ([0xDB, 0x0B], .fisttp (.m32 atRbx)), ([0xD9, 0x03], .fld (.m32 atRbx)), ([0xD9, 0xE8], .fld1),
    ([0xD9, 0xE9], .fldl2t), ([0xD9, 0xEA], .fldl2e), ([0xD9, 0xEB], .fldpi), ([0xD9, 0xEC], .fldlg2),
    ([0xD9, 0xED], .fldln2), ([0xD9, 0xEE], .fldz), ([0xD9, 0x2B], .fldcw atRbx), ([0xD9, 0x23], .fldenv ⟨.w32, atRbx⟩),
    ([0xD8, 0x0B], .fmul (.m32 atRbx)), ([0xDE, 0xCB], .fmulp 3), ([0xDA, 0x0B], .fimul (.m32 atRbx)),
    ([0xD9, 0xD0], .fnop), ([0xD9, 0xF3], .fpatan), ([0xD9, 0xF8], .fprem), ([0xD9, 0xF5], .fprem1),
    ([0xD9, 0xF2], .fptan), ([0xD9, 0xFC], .frndint), ([0xDD, 0x23], .frstor ⟨.w32, atRbx⟩),
    ([0xDD, 0x33], .fnsave ⟨.w32, atRbx⟩), ([0xD9, 0xFD], .fscale), ([0xD9, 0xFE], .fsin), ([0xD9, 0xFB], .fsincos),
    ([0xD9, 0xFA], .fsqrt), ([0xD9, 0x13], .fst (.m32 atRbx)), ([0xD9, 0x1B], .fstp (.m32 atRbx)),
    ([0xD9, 0x3B], .fnstcw atRbx), ([0xD9, 0x33], .fnstenv ⟨.w32, atRbx⟩), ([0xDD, 0x3B], .fnstsw (.mem atRbx)),
    ([0xD8, 0x23], .fsub (.m32 atRbx)), ([0xDE, 0xEB], .fsubp 3), ([0xDA, 0x23], .fisub (.m32 atRbx)),
    ([0xD8, 0x2B], .fsubr (.m32 atRbx)), ([0xDE, 0xE3], .fsubrp 3), ([0xDA, 0x2B], .fisubr (.m32 atRbx)),
    ([0xD9, 0xE4], .ftst), ([0xDD, 0xE3], .fucom 3), ([0xDD, 0xEB], .fucomp 3)] := by
  unfold Decodes; decide +kernel

theorem test_decode_x87_64_3 : Decodes m64 [
    ([0xDA, 0xE9], .fucompp), ([0xD9, 0xE5], .fxam), ([0xD9, 0xCB], .fxch 3), ([0xD9, 0xF4], .fxtract),
    ([0xD9, 0xF1], .fyl2x), ([0xD9, 0xF9], .fyl2xp1)] := by
  unfold Decodes; decide +kernel

theorem test_decode_fma_64_1 : Decodes m64 [
    ([0xC4, 0xE2, 0xD5, 0x98, 0xD1], .vfmadd132pd ⟨.l256, 2, 5, .reg 1⟩),
    ([0xC4, 0xE2, 0xD5, 0xA8, 0xD1], .vfmadd213pd ⟨.l256, 2, 5, .reg 1⟩),
    ([0xC4, 0xE2, 0xD5, 0xB8, 0xD1], .vfmadd231pd ⟨.l256, 2, 5, .reg 1⟩),
    ([0xC4, 0xE2, 0x55, 0x98, 0xD1], .vfmadd132ps ⟨.l256, 2, 5, .reg 1⟩),
    ([0xC4, 0xE2, 0x55, 0xA8, 0xD1], .vfmadd213ps ⟨.l256, 2, 5, .reg 1⟩),
    ([0xC4, 0xE2, 0x55, 0xB8, 0xD1], .vfmadd231ps ⟨.l256, 2, 5, .reg 1⟩),
    ([0xC4, 0xE2, 0xD1, 0x99, 0xD1], .vfmadd132sd ⟨.l128, 2, 5, .reg 1⟩),
    ([0xC4, 0xE2, 0xD1, 0xA9, 0xD1], .vfmadd213sd ⟨.l128, 2, 5, .reg 1⟩),
    ([0xC4, 0xE2, 0xD1, 0xB9, 0xD1], .vfmadd231sd ⟨.l128, 2, 5, .reg 1⟩),
    ([0xC4, 0xE2, 0x51, 0x99, 0xD1], .vfmadd132ss ⟨.l128, 2, 5, .reg 1⟩),
    ([0xC4, 0xE2, 0x51, 0xA9, 0xD1], .vfmadd213ss ⟨.l128, 2, 5, .reg 1⟩),
    ([0xC4, 0xE2, 0x51, 0xB9, 0xD1], .vfmadd231ss ⟨.l128, 2, 5, .reg 1⟩),
    ([0xC4, 0xE2, 0xD5, 0x96, 0xD1], .vfmaddsub132pd ⟨.l256, 2, 5, .reg 1⟩),
    ([0xC4, 0xE2, 0xD5, 0xA6, 0xD1], .vfmaddsub213pd ⟨.l256, 2, 5, .reg 1⟩),
    ([0xC4, 0xE2, 0xD5, 0xB6, 0xD1], .vfmaddsub231pd ⟨.l256, 2, 5, .reg 1⟩),
    ([0xC4, 0xE2, 0x55, 0x96, 0xD1], .vfmaddsub132ps ⟨.l256, 2, 5, .reg 1⟩),
    ([0xC4, 0xE2, 0x55, 0xA6, 0xD1], .vfmaddsub213ps ⟨.l256, 2, 5, .reg 1⟩),
    ([0xC4, 0xE2, 0x55, 0xB6, 0xD1], .vfmaddsub231ps ⟨.l256, 2, 5, .reg 1⟩),
    ([0xC4, 0xE2, 0xD5, 0x97, 0xD1], .vfmsubadd132pd ⟨.l256, 2, 5, .reg 1⟩),
    ([0xC4, 0xE2, 0xD5, 0xA7, 0xD1], .vfmsubadd213pd ⟨.l256, 2, 5, .reg 1⟩),
    ([0xC4, 0xE2, 0xD5, 0xB7, 0xD1], .vfmsubadd231pd ⟨.l256, 2, 5, .reg 1⟩),
    ([0xC4, 0xE2, 0x55, 0x97, 0xD1], .vfmsubadd132ps ⟨.l256, 2, 5, .reg 1⟩),
    ([0xC4, 0xE2, 0x55, 0xA7, 0xD1], .vfmsubadd213ps ⟨.l256, 2, 5, .reg 1⟩),
    ([0xC4, 0xE2, 0x55, 0xB7, 0xD1], .vfmsubadd231ps ⟨.l256, 2, 5, .reg 1⟩),
    ([0xC4, 0xE2, 0xD5, 0x9A, 0xD1], .vfmsub132pd ⟨.l256, 2, 5, .reg 1⟩),
    ([0xC4, 0xE2, 0xD5, 0xAA, 0xD1], .vfmsub213pd ⟨.l256, 2, 5, .reg 1⟩),
    ([0xC4, 0xE2, 0xD5, 0xBA, 0xD1], .vfmsub231pd ⟨.l256, 2, 5, .reg 1⟩),
    ([0xC4, 0xE2, 0x55, 0x9A, 0xD1], .vfmsub132ps ⟨.l256, 2, 5, .reg 1⟩),
    ([0xC4, 0xE2, 0x55, 0xAA, 0xD1], .vfmsub213ps ⟨.l256, 2, 5, .reg 1⟩),
    ([0xC4, 0xE2, 0x55, 0xBA, 0xD1], .vfmsub231ps ⟨.l256, 2, 5, .reg 1⟩),
    ([0xC4, 0xE2, 0xD1, 0x9B, 0xD1], .vfmsub132sd ⟨.l128, 2, 5, .reg 1⟩),
    ([0xC4, 0xE2, 0xD1, 0xAB, 0xD1], .vfmsub213sd ⟨.l128, 2, 5, .reg 1⟩),
    ([0xC4, 0xE2, 0xD1, 0xBB, 0xD1], .vfmsub231sd ⟨.l128, 2, 5, .reg 1⟩),
    ([0xC4, 0xE2, 0x51, 0x9B, 0xD1], .vfmsub132ss ⟨.l128, 2, 5, .reg 1⟩),
    ([0xC4, 0xE2, 0x51, 0xAB, 0xD1], .vfmsub213ss ⟨.l128, 2, 5, .reg 1⟩),
    ([0xC4, 0xE2, 0x51, 0xBB, 0xD1], .vfmsub231ss ⟨.l128, 2, 5, .reg 1⟩),
    ([0xC4, 0xE2, 0xD5, 0x9C, 0xD1], .vfnmadd132pd ⟨.l256, 2, 5, .reg 1⟩),
    ([0xC4, 0xE2, 0xD5, 0xAC, 0xD1], .vfnmadd213pd ⟨.l256, 2, 5, .reg 1⟩),
    ([0xC4, 0xE2, 0xD5, 0xBC, 0xD1], .vfnmadd231pd ⟨.l256, 2, 5, .reg 1⟩),
    ([0xC4, 0xE2, 0x55, 0x9C, 0xD1], .vfnmadd132ps ⟨.l256, 2, 5, .reg 1⟩)] := by
  unfold Decodes; decide +kernel

theorem test_decode_fma_64_2 : Decodes m64 [
    ([0xC4, 0xE2, 0x55, 0xAC, 0xD1], .vfnmadd213ps ⟨.l256, 2, 5, .reg 1⟩),
    ([0xC4, 0xE2, 0x55, 0xBC, 0xD1], .vfnmadd231ps ⟨.l256, 2, 5, .reg 1⟩),
    ([0xC4, 0xE2, 0xD1, 0x9D, 0xD1], .vfnmadd132sd ⟨.l128, 2, 5, .reg 1⟩),
    ([0xC4, 0xE2, 0xD1, 0xAD, 0xD1], .vfnmadd213sd ⟨.l128, 2, 5, .reg 1⟩),
    ([0xC4, 0xE2, 0xD1, 0xBD, 0xD1], .vfnmadd231sd ⟨.l128, 2, 5, .reg 1⟩),
    ([0xC4, 0xE2, 0x51, 0x9D, 0xD1], .vfnmadd132ss ⟨.l128, 2, 5, .reg 1⟩),
    ([0xC4, 0xE2, 0x51, 0xAD, 0xD1], .vfnmadd213ss ⟨.l128, 2, 5, .reg 1⟩),
    ([0xC4, 0xE2, 0x51, 0xBD, 0xD1], .vfnmadd231ss ⟨.l128, 2, 5, .reg 1⟩),
    ([0xC4, 0xE2, 0xD5, 0x9E, 0xD1], .vfnmsub132pd ⟨.l256, 2, 5, .reg 1⟩),
    ([0xC4, 0xE2, 0xD5, 0xAE, 0xD1], .vfnmsub213pd ⟨.l256, 2, 5, .reg 1⟩),
    ([0xC4, 0xE2, 0xD5, 0xBE, 0xD1], .vfnmsub231pd ⟨.l256, 2, 5, .reg 1⟩),
    ([0xC4, 0xE2, 0x55, 0x9E, 0xD1], .vfnmsub132ps ⟨.l256, 2, 5, .reg 1⟩),
    ([0xC4, 0xE2, 0x55, 0xAE, 0xD1], .vfnmsub213ps ⟨.l256, 2, 5, .reg 1⟩),
    ([0xC4, 0xE2, 0x55, 0xBE, 0xD1], .vfnmsub231ps ⟨.l256, 2, 5, .reg 1⟩),
    ([0xC4, 0xE2, 0xD1, 0x9F, 0xD1], .vfnmsub132sd ⟨.l128, 2, 5, .reg 1⟩),
    ([0xC4, 0xE2, 0xD1, 0xAF, 0xD1], .vfnmsub213sd ⟨.l128, 2, 5, .reg 1⟩),
    ([0xC4, 0xE2, 0xD1, 0xBF, 0xD1], .vfnmsub231sd ⟨.l128, 2, 5, .reg 1⟩),
    ([0xC4, 0xE2, 0x51, 0x9F, 0xD1], .vfnmsub132ss ⟨.l128, 2, 5, .reg 1⟩),
    ([0xC4, 0xE2, 0x51, 0xAF, 0xD1], .vfnmsub213ss ⟨.l128, 2, 5, .reg 1⟩),
    ([0xC4, 0xE2, 0x51, 0xBF, 0xD1], .vfnmsub231ss ⟨.l128, 2, 5, .reg 1⟩)] := by
  unfold Decodes; decide +kernel

/-- A flat segment of a privilege level: code or data, 64-bit code (`l`) or a default size of 32 bits (`db`). -/
def flatSeg (code : Bool) (dpl : BitVec 2) (sel : BitVec 16) (l db : Bool) : SegCache :=
  { sel := sel, base := 0, limit := 0xFFFFFFFF, typ := if code then 11 else 3, s := true, dpl := dpl, p := true, avl := false,
    l := l, db := db, g := true, valid := true }

/-- A state with bytes placed in memory. -/
def withBytes (s : State) (a : Nat) (bs : List Nat) : State :=
  { s with mem := s.mem.storeBytes ((List.range bs.length).map (fun k => some (a + k))) (bs.map (BitVec.ofNat 8)) }

/-- The six segment registers: one code segment, the others data. -/
def sixSegs (c d : SegCache) : Vector SegCache 6 := (Vector.replicate 6 d).set 1 c

/-- A processor with every vector unit enabled (CR4.OSFXSR, OSXMMEXCPT, FSGSBASE, OSXSAVE, XCR0 = 7), initial x87 unit, registers
0 to 15 at 8000H but rCX, which is 0; descriptor tables at 11000H (GDT) and 10000H (IDT). -/
def ready : State :=
  { State.reset with
    gpr := (Vector.replicate 16 0x8000).set 1 0, rip := 0x1000, ripNext := 0x1003, fpu := Fpu.reset.init
    sys := { State.reset.sys with
      cr0 := 0x31, cr4 := 0x50600, xcr0 := 7, gdtr := ⟨0x11000, 0x7F⟩, idtr := ⟨0x10000, 0x7FF⟩ } }

/-- 32-bit protected mode, paging off. -/
def prot (cpl : BitVec 2) : State :=
  { ready with cpl := cpl, seg := sixSegs (flatSeg true cpl (8 + 19 * (cpl.setWidth 16 &&& 1)) false true)
                          (flatSeg false cpl (0x10 + 19 * (cpl.setWidth 16 &&& 1)) false true) }
/-- 64-bit mode (a state a program reaches only with paging on; the statements hold of it all the same). -/
def long (cpl : BitVec 2) : State :=
  { prot cpl with seg := sixSegs (flatSeg true cpl 8 true false) (flatSeg false cpl 0x10 false true)
                  msr := { State.reset.msr with efer := 0xD01 }
                  sys := { (prot cpl).sys with cr4 := 0x50620 } }
/-- Real-address mode. -/
def real : State :=
  { ready with seg := Vector.replicate 6 SegCache.resetData, sys := { ready.sys with cr0 := 0x10, idtr := ⟨0, 0xFFFF⟩ } }
/-- Virtual-8086 mode, IOPL 3. -/
def v86 : State :=
  { prot 3 with flags := { State.reset.flags with vm := true, iopl := 3 }, seg := Vector.replicate 6 (SegCache.v86Load 0) }
/-- A state with double words placed in memory. -/
def withDwords (s : State) (a : Nat) (l : List Nat) : State :=
  withBytes s a (l.flatMap fun v => [v % 256, v / 256 % 256, v / 65536 % 256, v / 16777216 % 256])
/-- A state with a general register set. -/
def withReg (s : State) (r : Reg) (v : Word) : State := { s with gpr := s.gpr.set r.val v }
/-- The descriptors at 8: code, level 0; 10H: data, level 0; 18H: code, level 3; 20H: data, level 3; 28H: call gate to 8:5000H;
30H: available TSS; 38H: LDT. -/
def tables (s : State) : State :=
  withBytes s 0x11008 [0xFF, 0xFF, 0, 0, 0, 0x9A, 0xCF, 0, 0xFF, 0xFF, 0, 0, 0, 0x93, 0xCF, 0,
    0xFF, 0xFF, 0, 0, 0, 0xFA, 0xCF, 0, 0xFF, 0xFF, 0, 0, 0, 0xF3, 0xCF, 0,
    0, 0x50, 8, 0, 0, 0xEC, 0, 0, 0x67, 0, 0, 0x20, 1, 0x89, 0, 0, 0x7F, 0, 0, 0x30, 1, 0x82, 0, 0]
/-- The load of the code segment at 8, whose descriptor is to be marked accessed. -/
def code8 : SegLoad := ⟨flatSeg true 0 8 false true, some 0x1100D⟩
/-- A gate in the IDT to 8:6000H for each vector below 17, of 32 bits and of level 3, and the call handler's TSS. -/
def gates (s : State) : State :=
  withBytes (tables s) 0x10000 ((List.range 17).flatMap fun _ => [0, 0x60, 8, 0, 0, 0xEE, 0, 0])

/-- The operand DS:2000H. -/
def at2000 : MemRef := { ovr := none, asz := .a32, base := none, index := none, scale := 0, disp := 0x2000, rip := false }
/-- The operand DS:2001H. -/
def at2001 : MemRef := { at2000 with disp := 0x2001 }

/-- An access that succeeds, with a condition on what it leaves. -/
def check {α : Type} (m : M α) (s : State) (k : α → State → Bool) : Bool :=
  match m.run s with
  | .ok a t => k a t
  | .error _ _ => false

theorem found {α : Type} {m : M α} {s : State} {k : α → State → Bool} (h : check m s k = true) :
    ∃ a t, Passes m s a t ∧ k a t = true := by
  unfold check at h
  split at h
  · exact ⟨_, _, ‹_›, h⟩
  · cases h

theorem both {p : Prop} {_ : Decidable p} {b : Bool} (h : (decide p && b) = true) : p ∧ b = true := by simpa using h

/-- The step answers a next state. -/
def isNext : Host.Outcome State Fault Refusal → Bool
  | .next _ => true
  | _ => false
theorem stepped {s : State} (h : isNext (step s) = true) : ∃ t, step s = .next t := by
  unfold isNext at h
  split at h
  · exact ⟨_, ‹_›⟩
  · cases h
/-- The bytes are an instruction of that many bytes. -/
def lengthIs (n : Nat) : Except DecodeError Decoded → Bool
  | .ok d => d.len == n
  | .error _ => false
theorem decoded {n : Nat} {x : Except DecodeError Decoded} (h : lengthIs n x = true) : ∃ d, x = .ok d ∧ d.len = n := by
  cases x with
  | ok d => exact ⟨d, rfl, by simpa [lengthIs] using h⟩
  | error e => cases h
/-- XCHG of a register with memory that can be written. -/
theorem xchg_completes {w : Width} {m : MemRef} {r : Gp} {s u : State} {q : Place}
    (h : Passes (place .write w (.mem m)) s.begin q u) :
    Completes (.xchg ⟨w, .mem m, r⟩) s ((u.setPlace w q (u.gpVal w r)).setGpVal w r (u.placeVal w q)) :=
  run_of_passes (passes_bind h rfl)
/-- The bytes are refused as undefined. -/
def isUndefined : Except DecodeError Decoded → Bool
  | .error .undefined => true
  | _ => false
theorem decode_undefined {x : Except DecodeError Decoded} (h : isUndefined x = true) : x = .error .undefined := by
  unfold isUndefined at h
  split at h
  · rfl
  · cases h

/-! Computing the predicates of Safety on delivery, far transfers and gathers for a concrete state. -/

/-- A step that raises an exception, with a condition on it. -/
def checkRaise {α : Type} (m : M α) (s : State) (k : Exc → State → Bool) : Bool :=
  match m.run s with
  | .error (.exc x) t => k x t
  | _ => false
theorem raised {α : Type} {m : M α} {s : State} {k : Exc → State → Bool} (h : checkRaise m s k = true) :
    ∃ x t, Raises m s x t ∧ k x t = true := by
  unfold checkRaise at h
  split at h
  · exact ⟨_, _, ‹_›, h⟩
  · cases h

/-- An option that holds a value, with a condition on it. -/
def checkSome {α : Type} (o : Option α) (k : α → Bool) : Bool :=
  match o with
  | some a => k a
  | none => false
theorem isSome_of {α : Type} {o : Option α} {k : α → Bool} (h : checkSome o k = true) : ∃ a, o = some a ∧ k a = true := by
  cases o with
  | none => cases h
  | some a => exact ⟨a, rfl, h⟩

/-- The stores of a frame pass. -/
def checkFrame (c : SegCache) (size : ASize) (user ac : Bool) (sp : Word) (ss cs : SegLoad) (pre post : List (Nat × Nat))
    (s : State) : Bool :=
  check ss.resolve s fun _ u1 => check (pushPlan c size user ac sp (pre.map (·.1))) u1 fun r u2 => check cs.resolve u2 fun _ u3 =>
    check (pushPlan c size user ac r.2 (post.map (·.1))) u3 fun _ _ => true
theorem framed {c : SegCache} {size : ASize} {user ac : Bool} {sp : Word} {ss cs : SegLoad} {pre post : List (Nat × Nat)}
    {s : State} (h : checkFrame c size user ac sp ss cs pre post s = true) :
    ∃ fin t, FrameStored c size user ac sp ss cs pre post s fin t := by
  obtain ⟨sas, u1, h1, h⟩ := found h
  obtain ⟨⟨as1, sp1⟩, u2, h2, h⟩ := found h
  obtain ⟨cas, u3, h3, h⟩ := found h
  obtain ⟨⟨as2, fin⟩, u4, h4, _⟩ := found h
  exact ⟨fin, _, sas, cas, as1, as2, sp1, u1, u2, u3, u4, h1, h2, h3, h4, rfl⟩

/-- The stack of a level in a 16- or 32-bit TSS. -/
def checkInner (dpl : BitVec 2) (s : State) (k : SegLoad → Word → State → Bool) : Bool :=
  let n := if s.sys.tr.typ.getLsbD 3 then 4 else 2
  let off := if s.sys.tr.typ.getLsbD 3 then dpl.toNat * 8 + 4 else dpl.toNat * 4 + 2
  decide (off + (n + 1) ≤ s.sys.tr.limit.toNat) && check (sysRead (s.sys.tr.base + BitVec.ofNat 64 (off + n)) 2) s fun sel u1 =>
    check (sysRead (s.sys.tr.base + BitVec.ofNat 64 off) n) u1 fun x u2 =>
      decide (isNull (BitVec.ofNat 16 sel) = false ∧ rpl (BitVec.ofNat 16 sel) = dpl) &&
      checkSome (u2.descAddr (BitVec.ofNat 16 sel) 8) fun a => check (sysRead a 8) u2 fun d u =>
        let ss := SegLoad.ofDesc (BitVec.ofNat 16 sel) a (BitVec.ofNat 128 d)
        decide (ss.cache.dpl = dpl ∧ ss.cache.writable = true ∧ ss.cache.p = true) && k ss (BitVec.ofNat 64 x) u
theorem inner {dpl : BitVec 2} {s : State} {k : SegLoad → Word → State → Bool} (h : checkInner dpl s k = true) :
    ∃ ss esp u, InnerStack dpl s ss esp u ∧ k ss esp u = true := by
  obtain ⟨h0, h⟩ := both h
  obtain ⟨sel, u1, h1, h⟩ := found h
  obtain ⟨x, u2, h2, h⟩ := found h
  obtain ⟨⟨n1, n2⟩, h⟩ := both h
  obtain ⟨a, ha, h⟩ := isSome_of h
  obtain ⟨d, u, h3, h⟩ := found h
  obtain ⟨⟨c1, c2, c3⟩, h⟩ := both h
  exact ⟨_, _, u, ⟨h0, sel, x, a, d, u1, u2, h1, h2, rfl, n1, n2, ha, h3, rfl, c1, c2, c3⟩, h⟩

/-- A word of the 64-bit TSS. -/
def checkTss (off : Nat) (s : State) (k : Word → State → Bool) : Bool :=
  decide (off + 7 ≤ s.sys.tr.limit.toNat ∧ canonical (s.sys.tr.base + BitVec.ofNat 64 off) = true ∧
    canonical (s.sys.tr.base + BitVec.ofNat 64 off + 7) = true) &&
  check (sysRead (s.sys.tr.base + BitVec.ofNat 64 off) 8) s fun x u => k (BitVec.ofNat 64 x) u
theorem tss {off : Nat} {s : State} {k : Word → State → Bool} (h : checkTss off s k = true) :
    ∃ w u, TssWord off s w u ∧ k w u = true := by
  obtain ⟨⟨h1, h2, h3⟩, h⟩ := both h
  obtain ⟨x, u, h4, h⟩ := found h
  exact ⟨_, u, ⟨h1, h2, h3, x, h4, rfl⟩, h⟩

/-- The table entry of an event. -/
def checkEntry (e : Event) (s : State) (k : Gate → State → Bool) : Bool :=
  let n := if s.lma then 16 else 8
  decide ((s.lma = true → e.kind = .into → s.isLong = false) ∧ e.vec.toNat * n + (n - 1) ≤ s.sys.idtr.limit.toNat) &&
  check (sysRead (s.sys.idtr.base + BitVec.ofNat 64 (e.vec.toNat * n)) n) s fun d u => k (gateOf s.lma (BitVec.ofNat 128 d)) u
theorem entry {e : Event} {s : State} {k : Gate → State → Bool} (h : checkEntry e s k = true) :
    ∃ g u, IdtEntry e s g u ∧ k g u = true := by
  obtain ⟨⟨h1, h2⟩, h⟩ := both h
  obtain ⟨d, u, h3, h⟩ := found h
  exact ⟨_, u, ⟨h1, h2, d, h3, rfl⟩, h⟩

/-- The code segment of a gate. -/
def checkCode (s : State) (g : Gate) (k : SegLoad → State → Bool) : Bool :=
  decide (isNull g.sel = false) && checkSome (s.descAddr g.sel 8) fun a =>
    check (sysRead a 8) s fun d u => k (.ofDesc g.sel a (BitVec.ofNat 128 d)) u
theorem code {s : State} {g : Gate} {k : SegLoad → State → Bool} (h : checkCode s g k = true) :
    ∃ cs u, GateSegment s g cs u ∧ k cs u = true := by
  obtain ⟨h1, h⟩ := both h
  obtain ⟨a, ha, h⟩ := isSome_of h
  obtain ⟨d, u, h2, h⟩ := found h
  exact ⟨_, u, ⟨h1, a, d, ha, h2, rfl⟩, h⟩

/-- Delivery in real-address mode. -/
theorem delivered_real {e : Event} {s : State} (h : (decide (s.pe = false ∧ e.vec.toNat * 4 + 3 ≤ s.sys.idtr.limit.toNat ∧
      s.pushRoom (s.segOf .ss) s.stackSize s.sp [2, 2, 2] = true) && check (pushSlots [2, 2, 2]) s fun r v =>
      check (sysRead (s.sys.idtr.base + BitVec.ofNat 64 (e.vec.toNat * 4)) 4) ((v.stored r.1
        [(e.flagsImage s).toNat % 2 ^ 16, (e.cs s).toNat, e.ret.toNat % 2 ^ 16]).setSp s.stackSize r.2) fun _ _ => true) = true) :
    ∃ t, Delivered e s t := by
  obtain ⟨⟨hp, hl, hr⟩, h⟩ := both h
  obtain ⟨⟨ass, fin⟩, v, h1, h⟩ := found h
  obtain ⟨x, u, h2, _⟩ := found h
  exact ⟨_, _, rfl, .inl ⟨hp, hl, hr, ass, fin, v, _, u, x, h1, rfl, h2, rfl⟩⟩

/-- The gate of an event and its code segment pass the checks of delivery. -/
def checkGates (e : Event) (s : State) (k : Gate → SegLoad → State → Bool) : Bool :=
  decide (s.pe = true ∧ (s.flags.vm = true → e.kind = .softInt → s.flags.iopl = 3)) && checkEntry e s fun g u =>
    decide (g.isTransfer s.lma = true ∧ (e.isSoft = true → s.cpl ≤ g.dpl) ∧ g.p = true) && checkCode u g fun cs v =>
      decide ((cs.cache.isCode = true ∧ cs.cache.dpl ≤ u.cpl ∧ (u.lma = true → cs.cache.l = true ∧ cs.cache.db = false)) ∧
        cs.cache.p = true ∧ (u.flags.vm = true → u.goesInner cs.cache = true ∧ cs.cache.dpl = 0)) && k g cs v

/-- Delivery through a 16- or 32-bit gate to the same level. -/
theorem delivered_same {e : Event} {s : State} (hl : s.lma = false) (h : checkGates e s (fun g cs u =>
      let n := if g.is32 then 4 else 2
      let items := e.parts u n false
      decide (u.goesInner cs.cache = false ∧ u.flags.vm = false ∧
        u.pushRoom (u.segOf .ss) u.stackSize u.sp ((items.1 ++ items.2).map (·.1)) = true ∧
        g.off.toNat ≤ cs.cache.limit.toNat) &&
      checkFrame (u.segOf .ss) u.stackSize (decide (u.cpl = 3)) (decide (g.dpl = 3)) u.sp (.plain (u.segOf .ss)) cs items.1 items.2 u) =
      true) : ∃ t, Delivered e s t := by
  obtain ⟨ho, h⟩ := both h
  obtain ⟨g, u, he, h⟩ := entry h
  obtain ⟨hg, h⟩ := both h
  obtain ⟨cs, v, hc, h⟩ := code h
  obtain ⟨⟨hs, hp, hv⟩, h⟩ := both h
  obtain ⟨⟨hi, hm, hr, hf⟩, h⟩ := both h
  obtain ⟨fin, w, hw⟩ := framed h
  have e1 : { v with flags := { v.flags with vm := false }, cpl := v.cpl } = v := by rw [← hm]
  obtain ⟨y, hy⟩ : ∃ y, LegacyDelivered e g cs v y := by
    unfold LegacyDelivered
    simp only [hi, Bool.false_eq_true, if_false]
    exact ⟨_, _, _, _, _, _, fin, w, ⟨rfl, rfl, rfl⟩, rfl, rfl, by rw [e1]; exact hr, hf, by rw [e1]; exact hw, rfl⟩
  exact ⟨_, y, rfl, .inr ⟨ho, g, cs, u, v, he, hg, hc, hs, hp, hv, by rw [if_neg (by simp [hl])]; exact hy⟩⟩

/-- Delivery through a 16- or 32-bit gate to an inner level. -/
theorem delivered_inner {e : Event} {s : State} (hl : s.lma = false) (h : checkGates e s (fun g cs v =>
      let n := if g.is32 then 4 else 2
      let items := e.parts v n true
      decide (v.goesInner cs.cache = true ∧ g.off.toNat ≤ cs.cache.limit.toNat) && checkInner cs.cache.dpl v fun ss esp u =>
        let u0 : State := { u with flags := { u.flags with vm := false }, cpl := cs.cache.dpl }
        let size := u0.stackSizeOf ss.cache
        decide (u0.pushRoom ss.cache size (size.trunc esp) ((items.1 ++ items.2).map (·.1)) = true) &&
        checkFrame ss.cache size (decide (cs.cache.dpl = 3)) (decide (g.dpl = 3)) (size.trunc esp) ss cs items.1 items.2 u0) =
      true) : ∃ t, Delivered e s t := by
  obtain ⟨ho, h⟩ := both h
  obtain ⟨g, u, he, h⟩ := entry h
  obtain ⟨hg, h⟩ := both h
  obtain ⟨cs, v, hc, h⟩ := code h
  obtain ⟨⟨hs, hp, hv⟩, h⟩ := both h
  obtain ⟨⟨hi, hf⟩, h⟩ := both h
  obtain ⟨ss, esp, x, hx, h⟩ := inner h
  obtain ⟨hr, h⟩ := both h
  obtain ⟨fin, w, hw⟩ := framed h
  obtain ⟨y, hy⟩ : ∃ y, LegacyDelivered e g cs v y := by
    unfold LegacyDelivered
    simp only [hi, if_true]
    exact ⟨_, ss, esp, x, _, _, fin, w, hx, rfl, rfl, hr, hf, hw, rfl⟩
  exact ⟨_, y, rfl, .inr ⟨ho, g, cs, u, v, he, hg, hc, hs, hp, hv, by rw [if_neg (by simp [hl])]; exact hy⟩⟩

/-- Delivery through a 64-bit gate without IST to an inner level. -/
theorem delivered_long {e : Event} {s : State} (hl : s.lma = true) (h : checkGates e s (fun g cs v =>
      let items := v.oldStack 8 ++ e.frame v 8 ++ e.codeItem 8
      decide (v.goesInner cs.cache = true ∧ g.ist = 0 ∧ canonical g.off = true) && checkTss (cs.cache.dpl.toNat * 8 + 4) v fun rsp u =>
        decide (canonical rsp = true) &&
        checkFrame (v.segOf .ss) .a64 (decide (cs.cache.dpl = 3)) (decide (g.dpl = 3)) (rsp &&& ~~~15) (.plain (v.segOf .ss)) cs
          [] items (u.withCode cs cs.cache.dpl v.rip)) = true) : ∃ t, Delivered e s t := by
  obtain ⟨ho, h⟩ := both h
  obtain ⟨g, u, he, h⟩ := entry h
  obtain ⟨hg, h⟩ := both h
  obtain ⟨cs, v, hc, h⟩ := code h
  obtain ⟨⟨hs, hp, hv⟩, h⟩ := both h
  obtain ⟨⟨hi, h0, hf⟩, h⟩ := both h
  obtain ⟨rsp, x, hx, h⟩ := tss h
  obtain ⟨hr, h⟩ := both h
  obtain ⟨fin, w, hw⟩ := framed h
  obtain ⟨y, hy⟩ : ∃ y, LongDelivered e g cs v y := by
    unfold LongDelivered
    simp only [hi, h0, if_true, ne_eq, not_true_eq_false, if_false]
    exact ⟨_, rsp, x, fin, w, hx, hr, hf, hw, rfl⟩
  exact ⟨_, y, rfl, .inr ⟨ho, g, cs, u, v, he, hg, hc, hs, hp, hv, by rw [if_pos hl]; exact hy⟩⟩

/-- The elements of a gather pass. -/
def checkGather (g : GatherShape) (o : VGather) (s0 : State) : List Nat → State → Bool
  | [], _ => true
  | j :: js, s =>
    if (lane g.dw (s0.ymm.get o.mask) j).msb then
      check (resolve o.mem.seg .read 1 1 (s0.gatherAddr g o j) (g.dw / 8)) s fun as x => checkGather g o s0 js
        { x with ymm := x.ymm.set o.dst (replaceLane (x.ymm.get o.dst) j (BitVec.ofNat g.dw (x.mem.readList as))) }
    else checkGather g o s0 js s
theorem gathered {g : GatherShape} {o : VGather} {s0 : State} {js : List Nat} {s : State} (h : checkGather g o s0 js s = true) :
    ∃ t, Gathered g o s0 js s t := by
  induction js generalizing s with
  | nil => exact ⟨s, rfl⟩
  | cons j js ih =>
    unfold checkGather at h
    unfold Gathered
    split at h
    · obtain ⟨as, x, h1, h⟩ := found h
      obtain ⟨t, ht⟩ := ih h
      exact ⟨t, by rw [if_pos ‹_›]; exact ⟨as, x, h1, ht⟩⟩
    · obtain ⟨t, ht⟩ := ih h
      exact ⟨t, by rw [if_neg ‹_›]; exact ht⟩

/-- The 32-bit TSS at 12000H, of which the bytes are zero but for the stack of level 0, 10H:9000H. -/
def withTss (s : State) : State :=
  withDwords { s with sys := { s.sys with tr := { SegCache.resetSystem 11 true with base := 0x12000, limit := 0x67 } } } 0x12004
    [0x9000, 0x10]
/-- 64-bit mode with a 64-bit code segment at 8, a gate for each vector below 17 to 8:6000H, and a TSS. -/
def gates64 (s : State) : State :=
  withDwords (withBytes (withTss s) 0x11008 [0xFF, 0xFF, 0, 0, 0, 0x9A, 0xAF, 0]) 0x10000
    ((List.range 17).flatMap fun _ => [0x00086000, 0xEE00, 0, 0])
/-- A gate in the entry of vector 20H. -/
def gateAt20 (s : State) (g : List Nat) : State := withBytes s 0x10100 g
/-- INT 20H. -/
def int20 : Event := { kind := .softInt, vec := 0x20, ret := 0x1003 }
/-- A gather of four double words at rBX. -/
def gather4 : VGather := ⟨.l128, 1, 2, ⟨none, .a32, some 3, 4, 0, 0⟩⟩
/-- A mask for a gather that asks for elements 0 and 2. -/
def masked (s : State) : State := { s with ymm := s.ymm.set 2 0x00000000800000000000000080000000 }
/-- A far pointer at 2000H to the call gate at 28H. -/
def atGate (s : State) : State := withDwords s 0x2000 [0, 0x28]
/-- The descriptor at 28H as a call gate to 8:5000H with a parameter, of level 3. -/
def withParam (s : State) : State := withBytes s 0x11028 [0, 0x50, 8, 0, 1, 0xEC, 0, 0]
/-- The 64-bit call gate at 28H to 8:5000H, of level 3. -/
def withGate64 (s : State) : State := withBytes (gates64 s) 0x11028 [0, 0x50, 8, 0, 0, 0xEC, 0, 0, 0, 0, 0, 0, 0, 0, 0, 0]

/-! Results of single instructions, from the examples of spec/95_test_vectors.md (the rule is named). -/

/-- The instruction answers a next state that a check accepts. -/
def After (i : Instr) (s : State) (k : State → Bool) : Prop := (match exec i s with | .next t => k t | _ => false) = true
/-- CF, PF, AF, ZF, SF, OF of a state. -/
def status (s : State) : List Bool := [s.flags.of, s.flags.sf, s.flags.zf, s.flags.af, s.flags.pf, s.flags.cf]
/-- A state with XMM registers 1 and 2 set. -/
def withX (a b : Nat) : State := (prot 0).setXmm 1 (BitVec.ofNat 128 a) |>.setXmm 2 (BitVec.ofNat 128 b)
/-- A state with 80-bit values pushed on the x87 stack, the last on top. -/
def withSt (l : List Nat) : State :=
  { prot 0 with fpu := l.foldl (fun f v => f.push (BitVec.ofNat 80 v)) (prot 0).fpu }
def regs (a b : Word) : State := withReg (withReg (prot 0) 0 a) 3 b
def eaxEbx : AluOps := .mr .w32 (.reg (.lo 0)) (.lo 3)

/-- R506. -/
theorem test_add_overflow : After (.add eaxEbx) (regs 0x7FFFFFFF 1)
    (fun t => t.gp 0 == 0x80000000 && status t == [true, true, false, true, true, false]) := by unfold After; decide +kernel
/-- R504. -/
theorem test_adc_carry : After (.adc (.mi .w8 (.reg (.lo 0)) 1)) { regs 0xFF 0 with flags := { State.reset.flags with cf := true } }
    (fun t => t.gp 0 == 1 && status t == [false, false, false, true, false, true]) := by unfold After; decide +kernel
/-- R563. -/
theorem test_cmp_borrow : After (.cmp (.mi .w8 (.reg (.lo 0)) 7)) (regs 5 0)
    (fun t => t.gp 0 == 5 && status t == [false, true, false, true, false, true]) := by unfold After; decide +kernel
/-- R606: CF is kept. -/
theorem test_dec_keeps_cf : After (.dec ⟨.w8, .reg (.lo 0)⟩) { regs 0 0 with flags := { State.reset.flags with cf := true } }
    (fun t => t.gp 0 == 0xFF && status t == [false, true, false, true, true, true]) := by unfold After; decide +kernel
/-- R500. -/
theorem test_aaa : After .aaa (regs 0x0C 0) (fun t => t.gp 0 == 0x0102 && t.flags.af && t.flags.cf) := by unfold After; decide +kernel
/-- R607: AX = 0103H divided by 2. -/
theorem test_div : After (.div ⟨.w8, .reg (.lo 3)⟩) (regs 0x103 2) (fun t => t.gp 0 == 0x0181) := by unfold After; decide +kernel
/-- R607: the quotient does not fit, so #DE is taken through gate 0 of the IDT. -/
theorem test_div_overflow : After (.div ⟨.w8, .reg (.lo 3)⟩) (withReg (withReg (gates (prot 0)) 0 0x200) 3 2)
    (fun t => t.rip == 0x6000 && t.gp 0 == 0x200 && t.gp rSP == 0x7FF4) := by unfold After; decide +kernel
/-- R538. -/
theorem test_bswap : After (.bswap ⟨.w32, 0⟩) (regs 0x12345678 0) (fun t => t.gp 0 == 0x78563412) := by unfold After; decide +kernel
/-- R540: the bit number is taken modulo 32 for a register. -/
theorem test_bt_modulo : After (.bt ⟨.w32, .reg (.lo 0), .reg 3⟩) (regs 4 34) (fun t => t.flags.cf) := by unfold After; decide +kernel
/-- R603: sign of EAX into EDX. -/
theorem test_cdq : After .cdq (regs 0x80000000 0) (fun t => t.gp rDX == 0xFFFFFFFF) := by unfold After; decide +kernel
/-- R579: CRC32 of the byte 01H. -/
theorem test_crc32 : After (.crc32 ⟨.w32, 0, .w8, .reg (.lo 3)⟩) (regs 0 1) (fun t => t.gp 0 == 0xF26B8303) := by
  unfold After; decide +kernel
/-- R528. -/
theorem test_bextr : After (.bextr ⟨.w32, 0, 1, .reg (.lo 3)⟩) (withReg (regs 0 0x12345678) 1 0x0804) (fun t => t.gp 0 == 0x67) := by
  unfold After; decide +kernel
/-- R546: the address of the next instruction is pushed. -/
theorem test_call_pushes : After (.call (.rel .w32 0x10)) { prot 0 with ripNext := 0x1005 }
    (fun t => t.rip == 0x1015 && t.gp rSP == 0x7FFC && t.mem.readList [0x7FFC, 0x7FFD, 0x7FFE, 0x7FFF] == 0x1005) := by
  unfold After; decide +kernel
/-- R615: ENTER 16, 0. -/
theorem test_enter : After (.enter ⟨.w32, 16, 0⟩) (withReg (withReg (prot 0) 4 0x1000) 5 0x2000)
    (fun t => t.gp rBP == 0xFFC && t.gp rSP == 0xFEC && t.mem.readList [0xFFC, 0xFFD, 0xFFE, 0xFFF] == 0x2000) := by
  unfold After; decide +kernel
/-- R567. -/
theorem test_cmpsb : After (.cmpsb .a32) (withBytes (withReg (withReg (prot 0) 6 0x2000) 7 0x3000) 0x2000 [0x41]
      |> fun s => withBytes s 0x3000 [0x42])
    (fun t => t.gp rSI == 0x2001 && t.gp rDI == 0x3001 && status t == [false, true, false, true, true, true]) := by
  unfold After; decide +kernel
/-- R2021: INT 21H in real-address mode pushes FLAGS, CS and IP and goes to the vector's entry. -/
theorem test_int_real : After (.intN 0x21) (withBytes real 0x84 [0x34, 0x12, 0x00, 0x20])
    (fun t => t.rip == 0x1234 && (t.segOf .cs).sel == 0x2000 && t.gp rSP == 0x7FFA && !t.flags.ifl) := by
  unfold After; decide +kernel
/-- R507: {2.0, 1.0} + {0.5, 0.25}. -/
theorem test_addpd : After (.addpd ⟨1, .reg 2⟩) (withX 0x40000000000000003FF0000000000000 0x3FE00000000000003FD0000000000000)
    (fun t => t.xmm 1 == 0x40040000000000003FF4000000000000) := by unfold After; decide +kernel
/-- R595: 2.5 rounds to even; 2^31 is out of range: the indefinite value and the invalid flag. -/
theorem test_cvtsd2si : After (.cvtsd2si ⟨.w32, 0, .reg 2⟩) (withX 0 0x4004000000000000) (fun t => t.gp 0 == 2 && t.mxcsr == 0x1FA0) ∧
    After (.cvtsd2si ⟨.w32, 0, .reg 2⟩) (withX 0 0x41E0000000000000) (fun t => t.gp 0 == 0x80000000 && t.mxcsr == 0x1F81) := by
  unfold After; decide +kernel
/-- R572. -/
theorem test_comisd : After (.comisd ⟨1, .reg 2⟩) (withX 0x3FF0000000000000 0x4000000000000000)
    (fun t => status t == [false, false, false, false, false, true]) := by unfold After; decide +kernel
/-- R529: lanes 0 and 2 come from the second source. -/
theorem test_blendps : After (.blendps ⟨1, .reg 2, 5⟩) (withX 0xA3000000A2000000A1000000A0 0xB3000000B2000000B1000000B0)
    (fun t => t.xmm 1 == 0xA3000000B2000000A1000000B0) := by unfold After; decide +kernel
/-- R620: 1.0 + 1.0 in ST(0). -/
theorem test_fadd : After (.fadd (.st0 1)) (withSt [0x3FFF8000000000000000, 0x3FFF8000000000000000])
    (fun t => t.fpu.st 0 == 0x40008000000000000000) := by unfold After; decide +kernel
/-- R639: FDIVR gives ST(1) / ST(0). -/
theorem test_fdivr : After (.fdivr (.st0 1)) (withSt [0x3FFF8000000000000000, 0x40008000000000000000])
    (fun t => t.fpu.st 0 == 0x3FFE8000000000000000) := by unfold After; decide +kernel
/-- R632: 1.0 is below 2.0. -/
theorem test_fcomi : After (.fcomi 1) (withSt [0x40008000000000000000, 0x3FFF8000000000000000])
    (fun t => status t == [false, false, false, false, false, true]) := by unfold After; decide +kernel
/-- R128: an MMX instruction marks every tag valid and sets bits 79:64 of the register it writes. -/
theorem test_paddb_mmx : After (.paddb (.mm 1 (.reg 2))) (((prot 0).setMm 1 0x01FF).setMm 2 0x0101)
    (fun t => t.mm 1 == 0x0200 && t.fpu.ftw == 0 && (t.fpu.fpr.get 1).extractLsb' 64 16 == 0xFFFF) := by unfold After; decide +kernel
/-- R1185 and R2106: a VEX instruction with 128-bit operands zeroes bits 255:128. -/
theorem test_vex_zeroes_upper : After (.vpxor ⟨.l128, 1, 2, .reg 2⟩) ((prot 0).setVec 1 (-1 : BitVec 256))
    (fun t => t.ymm.get 1 == 0) := by unfold After; decide +kernel
/-- R55, R212: a load of DS in real-address mode sets the base to 16 times the selector and keeps the limit. -/
theorem test_mov_ds_real : After (.movSeg (.load .ds (.reg (.lo 0)))) real
    (fun t => (t.segOf .ds).base == 0x80000 && (t.segOf .ds).limit == 0xFFFF) := by unfold After; decide +kernel
/-- R52: a 32-bit result clears bits 63:32 in 64-bit mode; a 16-bit result keeps bits 63:16. -/
theorem test_partial_writes : After (.mov (.mi .w32 (.reg (.lo 0)) 5)) (withReg (long 0) 0 (-1)) (fun t => t.gp 0 == 5) ∧
    After (.mov (.mi .w16 (.reg (.lo 0)) 5)) (withReg (long 0) 0 (-1)) (fun t => t.gp 0 == 0xFFFFFFFFFFFF0005) := by
  unfold After; decide +kernel
/-- R1195, R1196: XABORT in a transaction goes to the fallback address with its status, and stores are undone. -/
theorem test_xabort : After (.xabort 0x12)
    { withBytes (prot 0) 0x2000 [7] with rtm := { nest := 1, fallback := 0x5000, snapshot := some (prot 0).snapshot } }
    (fun t => t.rip == 0x5000 && t.gp 0 == 0x12000001 && t.mem == [] && t.rtm.nest == 0) := by unfold After; decide +kernel
/-- The first step from reset, with an instruction placed at the reset vector: NOP. -/
theorem test_first_step : (match step (State.reset.withFetchWord 8 0x90) with | .next t => t.rip == 0xFFF1 | _ => false) = true := by
  decide +kernel

/-- R385: groups 12 to 14 take no memory operand; R994, R1198: a repeat prefix makes RDRAND and XEND undefined. -/
theorem test_undefined_encodings : ([[0x0F, 0x71, 0x33, 0x11], [0x66, 0x0F, 0x72, 0x33, 0x11], [0xC5, 0xF1, 0x73, 0x33, 0x11],
    [0xF3, 0x0F, 0xC7, 0xF1], [0xF2, 0x0F, 0x01, 0xD5]] : List (List Byte)).all (fun b => isUndefined (decode m64 b)) = true := by
  decide +kernel
/-- R704 with R30 (d): of two NaNs the high element, the first source, is the result. -/
theorem test_haddpd_nan : After (.haddpd ⟨1, .reg 2⟩) (withX 0x7FF80000000000017FF8000000000002 0)
    (fun t => t.xmm 1 == 0x7FF8000000000001) := by unfold After; decide +kernel
/-- R636 with R30 (c): a denormal divided by zero sets DE and ZE. -/
theorem test_fdiv_denormal_by_zero : After (.fdiv (.st0 1)) (withSt [0, 1])
    (fun t => t.fpu.fsw.de && t.fpu.fsw.ze && !t.fpu.fsw.ie) := by unfold After; decide +kernel

/-! Witnesses of the hypotheses of the statements. -/

/-- The hypotheses of `Obligations.SseLegacyResults` can be met, clause by clause. -/
theorem witness_SseLegacyResults :
    (∃ (o : XX) (s u : State) (b : BitVec (8 * 16)), SseReady .aes s ∧ Passes (readXm .size 16 o.src) s.begin b u) ∧
    (∃ (o : XXI) (s u : State) (b : BitVec (8 * 16)), SseReady .aes s ∧ Passes (readXm .size 16 o.src) s.begin b u) ∧
    (∃ (o : XX) (s u : State) (b : BitVec (8 * 16)), SseReady .sse s ∧ Passes (readXm .size 16 o.src) s.begin b u) ∧
    (∃ (o : XX) (s u : State) (b : BitVec (8 * 4)), SseReady .sse s ∧ Passes (readXm .free 4 o.src) s.begin b u) ∧
    (∃ (o : XX) (s u : State) (b : BitVec (8 * 8)), SseReady .sse3 s ∧ Passes (readXm .free 8 o.src) s.begin b u) ∧
    (∃ (o : XX) (s u : State) (b : BitVec (8 * 16)), SseReady .sse41 s ∧ Passes (readXm .size 16 o.src) s.begin b u) ∧
    (∃ (s : State), SseReady .sse2 s) := by
  refine ⟨?_, ?_, ?_, ?_, ?_, ?_, ?_⟩
  · have h0 : (check (readXm .size 16 (⟨1, .mem at2000⟩ : XX).src) (prot 0).begin fun a1 t1 => true) = true :=
      by decide +kernel
    obtain ⟨a1, t1, p5, h1⟩ := found h0
    exact ⟨(⟨1, .mem at2000⟩ : XX), (prot 0), t1, a1, (by unfold SseReady; decide +kernel), p5⟩
  · have h0 : (check (readXm .size 16 (⟨1, .mem at2000, 1⟩ : XXI).src) (prot 0).begin fun a1 t1 => true) = true :=
      by decide +kernel
    obtain ⟨a1, t1, p5, h1⟩ := found h0
    exact ⟨(⟨1, .mem at2000, 1⟩ : XXI), (prot 0), t1, a1, (by unfold SseReady; decide +kernel), p5⟩
  · have h0 : (check (readXm .size 16 (⟨1, .mem at2000⟩ : XX).src) (prot 0).begin fun a1 t1 => true) = true :=
      by decide +kernel
    obtain ⟨a1, t1, p5, h1⟩ := found h0
    exact ⟨(⟨1, .mem at2000⟩ : XX), (prot 0), t1, a1, (by unfold SseReady; decide +kernel), p5⟩
  · have h0 : (check (readXm .free 4 (⟨1, .mem at2000⟩ : XX).src) (prot 0).begin fun a1 t1 => true) = true :=
      by decide +kernel
    obtain ⟨a1, t1, p5, h1⟩ := found h0
    exact ⟨(⟨1, .mem at2000⟩ : XX), (prot 0), t1, a1, (by unfold SseReady; decide +kernel), p5⟩
  · have h0 : (check (readXm .free 8 (⟨1, .mem at2000⟩ : XX).src) (prot 0).begin fun a1 t1 => true) = true :=
      by decide +kernel
    obtain ⟨a1, t1, p5, h1⟩ := found h0
    exact ⟨(⟨1, .mem at2000⟩ : XX), (prot 0), t1, a1, (by unfold SseReady; decide +kernel), p5⟩
  · have h0 : (check (readXm .size 16 (⟨1, .mem at2000⟩ : XX).src) (prot 0).begin fun a1 t1 => true) = true :=
      by decide +kernel
    obtain ⟨a1, t1, p5, h1⟩ := found h0
    exact ⟨(⟨1, .mem at2000⟩ : XX), (prot 0), t1, a1, (by unfold SseReady; decide +kernel), p5⟩
  · exact ⟨(prot 0), (by unfold SseReady; decide +kernel)⟩

/-- The hypotheses of `Obligations.SseFloatResults` can be met, clause by clause. -/
theorem witness_SseFloatResults :
    (∃ (o : XX) (s u : State) (b : BitVec (8 * 16)), SseReady .sse2 s ∧ SimdMasked s ∧ Passes (readXm .size 16 o.src)
      s.begin b u) ∧
    (∃ (o : XX) (s u : State) (b : BitVec (8 * 8)), SseReady .sse2 s ∧ SimdMasked s ∧ Passes (readXm .free 8 o.src)
      s.begin b u) ∧
    (∃ (o : XXI) (s u : State) (b : BitVec (8 * 16)), SseReady .sse41 s ∧ SimdMasked s ∧ Passes (readXm .size 16 o.src)
      s.begin b u) ∧
    (∃ (o : XXI) (s u : State) (b : BitVec (8 * (f64.width / 8))), SseReady .sse41 s ∧ SimdMasked s ∧ Passes (readXm
      .free (f64.width / 8) o.src) s.begin b u) ∧
    (∃ (o : XXI) (s u : State) (b : BitVec (8 * 16)), o.imm.toNat < 2 ^ 3 ∧ SseReady .sse2 s ∧ SimdMasked s ∧ Passes
      (readXm .size 16 o.src) s.begin b u) ∧
    (∃ (o : XXI) (s u : State) (b : BitVec (8 * (f64.width / 8))), o.imm.toNat < 2 ^ 3 ∧ SseReady .sse2 s ∧ SimdMasked s
      ∧ Passes (readXm .free (f64.width / 8) o.src) s.begin b u) := by
  refine ⟨?_, ?_, ?_, ?_, ?_, ?_⟩
  · have h0 : (check (readXm .size 16 (⟨1, .mem at2000⟩ : XX).src) (prot 0).begin fun a1 t1 => true) = true :=
      by decide +kernel
    obtain ⟨a1, t1, p6, h1⟩ := found h0
    exact ⟨(⟨1, .mem at2000⟩ : XX), (prot 0), t1, a1, (by unfold SseReady; decide +kernel),
      (by unfold SimdMasked; decide +kernel), p6⟩
  · have h0 : (check (readXm .free 8 (⟨1, .mem at2000⟩ : XX).src) (prot 0).begin fun a1 t1 => true) = true :=
      by decide +kernel
    obtain ⟨a1, t1, p6, h1⟩ := found h0
    exact ⟨(⟨1, .mem at2000⟩ : XX), (prot 0), t1, a1, (by unfold SseReady; decide +kernel),
      (by unfold SimdMasked; decide +kernel), p6⟩
  · have h0 : (check (readXm .size 16 (⟨1, .mem at2000, 1⟩ : XXI).src) (prot 0).begin fun a1 t1 => true) = true :=
      by decide +kernel
    obtain ⟨a1, t1, p6, h1⟩ := found h0
    exact ⟨(⟨1, .mem at2000, 1⟩ : XXI), (prot 0), t1, a1, (by unfold SseReady; decide +kernel),
      (by unfold SimdMasked; decide +kernel), p6⟩
  · have h0 : (check (readXm .free (f64.width / 8) (⟨1, .mem at2000, 1⟩ : XXI).src) (prot 0).begin fun a1 t1 => true) = true
      := by decide +kernel
    obtain ⟨a1, t1, p6, h1⟩ := found h0
    exact ⟨(⟨1, .mem at2000, 1⟩ : XXI), (prot 0), t1, a1, (by unfold SseReady; decide +kernel),
      (by unfold SimdMasked; decide +kernel), p6⟩
  · have h0 : (decide ((⟨1, .mem at2000, 1⟩ : XXI).imm.toNat < 2 ^ 3) && (check (readXm .size 16 (⟨1, .mem at2000, 1⟩ :
      XXI).src) (prot 0).begin fun a1 t1 => true)) = true := by decide +kernel
    obtain ⟨p4, h1⟩ := both h0
    obtain ⟨a1, t1, p7, h2⟩ := found h1
    exact ⟨(⟨1, .mem at2000, 1⟩ : XXI), (prot 0), t1, a1, p4, (by unfold SseReady; decide +kernel),
      (by unfold SimdMasked; decide +kernel), p7⟩
  · have h0 : (decide ((⟨1, .mem at2000, 1⟩ : XXI).imm.toNat < 2 ^ 3) && (check (readXm .free (f64.width / 8) (⟨1, .mem
      at2000, 1⟩ : XXI).src) (prot 0).begin fun a1 t1 => true)) = true := by decide +kernel
    obtain ⟨p4, h1⟩ := both h0
    obtain ⟨a1, t1, p7, h2⟩ := found h1
    exact ⟨(⟨1, .mem at2000, 1⟩ : XXI), (prot 0), t1, a1, p4, (by unfold SseReady; decide +kernel),
      (by unfold SimdMasked; decide +kernel), p7⟩

/-- The hypotheses of `Obligations.SseConversionResults` can be met, clause by clause. -/
theorem witness_SseConversionResults :
    (∃ (o : XX) (s u : State) (b : BitVec (8 * 8)), SseReady .sse2 s ∧ SimdMasked s ∧ Passes (readXm .free 8 o.src)
      s.begin b u) ∧
    (∃ (o : MXm) (s u : State) (b : BitVec (8 * 16)), SseReady .sse2 s ∧ s.fpu.es = false ∧ SimdMasked s ∧ Passes (readXm
      .size 16 o.src) s.begin b u) ∧
    (∃ (o : GX) (s u : State) (b : BitVec (8 * (f64.width / 8))), SseReady .sse2 s ∧ SimdMasked s ∧ Passes (readXm .free
      (f64.width / 8) o.src) s.begin b u) ∧
    (∃ (o : XG) (s u : State) (b : BitVec o.w.bits), SseReady .sse2 s ∧ SimdMasked s ∧ Passes (readRm o.w o.src) s.begin
      b u) ∧
    (∃ (o : XX) (s u : State) (b : BitVec (8 * (f64.width / 8))), SseReady .sse2 s ∧ SimdMasked s ∧ Passes (readXm .free
      (f64.width / 8) o.src) s.begin b u) ∧
    (∃ (src : Fin 8) (s u : State) (b : BitVec (8 * 8)), SseReady .sse2 s ∧ s.fpu.es = false ∧ SimdMasked s ∧ Passes
      (readMmM 8 (.reg src)) s.begin.mmxUsed b u) ∧
    (∃ (m : MemRef) (s u : State) (b : BitVec (8 * 8)), SseReady .sse2 s ∧ SimdMasked s ∧ Passes (readMmM 8 (.mem m))
      s.begin b u) ∧
    (∃ (o : XMm) (s u : State) (b : BitVec (8 * 8)), SseReady .sse s ∧ s.fpu.es = false ∧ SimdMasked s ∧ Passes (readMmM
      8 o.src) s.begin b u) ∧
    (∃ (m : MemRef) (s u : State) (v : Nat), Passes (readMem m 4) s.begin v u ∧ v / 2 ^ 16 % 2 ^ 16 = 0 ∧ SseReady .sse s) ∧
    (∃ (m : MemRef) (s u : State) (v : Nat), Passes (readMem m 4) s.begin v u ∧ v / 2 ^ 16 % 2 ^ 16 = 0 ∧ VexReady [.avx]
      s) ∧
    (∃ (m : MemRef) (s u : State) (as : List Nat), Passes (resolveMem .write m 4) s.begin as u ∧ SseReady .sse s) ∧
    (∃ (m : MemRef) (s u : State) (as : List Nat), Passes (resolveMem .write m 4) s.begin as u ∧ VexReady [.avx] s) := by
  refine ⟨?_, ?_, ?_, ?_, ?_, ?_, ?_, ?_, ?_, ?_, ?_, ?_⟩
  · have h0 : (check (readXm .free 8 (⟨1, .mem at2000⟩ : XX).src) (prot 0).begin fun a1 t1 => true) = true :=
      by decide +kernel
    obtain ⟨a1, t1, p6, h1⟩ := found h0
    exact ⟨(⟨1, .mem at2000⟩ : XX), (prot 0), t1, a1, (by unfold SseReady; decide +kernel),
      (by unfold SimdMasked; decide +kernel), p6⟩
  · have h0 : (decide ((prot 0).fpu.es = false) && (check (readXm .size 16 (⟨1, .mem at2000⟩ : MXm).src) (prot 0).begin fun
      a1 t1 => true)) = true := by decide +kernel
    obtain ⟨p5, h1⟩ := both h0
    obtain ⟨a1, t1, p7, h2⟩ := found h1
    exact ⟨(⟨1, .mem at2000⟩ : MXm), (prot 0), t1, a1, (by unfold SseReady; decide +kernel), p5,
      (by unfold SimdMasked; decide +kernel), p7⟩
  · have h0 : (check (readXm .free (f64.width / 8) (⟨.w32, 1, .mem at2000⟩ : GX).src) (prot 0).begin fun a1 t1 => true) =
      true := by decide +kernel
    obtain ⟨a1, t1, p6, h1⟩ := found h0
    exact ⟨(⟨.w32, 1, .mem at2000⟩ : GX), (prot 0), t1, a1, (by unfold SseReady; decide +kernel),
      (by unfold SimdMasked; decide +kernel), p6⟩
  · have h0 : (check (readRm (⟨1, .w32, .mem at2000⟩ : XG).w (⟨1, .w32, .mem at2000⟩ : XG).src) (prot 0).begin fun a1 t1 =>
      true) = true := by decide +kernel
    obtain ⟨a1, t1, p6, h1⟩ := found h0
    exact ⟨(⟨1, .w32, .mem at2000⟩ : XG), (prot 0), t1, a1, (by unfold SseReady; decide +kernel),
      (by unfold SimdMasked; decide +kernel), p6⟩
  · have h0 : (check (readXm .free (f64.width / 8) (⟨1, .mem at2000⟩ : XX).src) (prot 0).begin fun a1 t1 => true) = true :=
      by decide +kernel
    obtain ⟨a1, t1, p6, h1⟩ := found h0
    exact ⟨(⟨1, .mem at2000⟩ : XX), (prot 0), t1, a1, (by unfold SseReady; decide +kernel),
      (by unfold SimdMasked; decide +kernel), p6⟩
  · have h0 : (decide ((prot 0).fpu.es = false) && (check (readMmM 8 (.reg (1 : Fin 8))) (prot 0).begin.mmxUsed fun a1 t1 =>
      true)) = true := by decide +kernel
    obtain ⟨p5, h1⟩ := both h0
    obtain ⟨a1, t1, p7, h2⟩ := found h1
    exact ⟨(1 : Fin 8), (prot 0), t1, a1, (by unfold SseReady; decide +kernel), p5, (by unfold SimdMasked; decide +kernel),
      p7⟩
  · have h0 : (check (readMmM 8 (.mem (at2000 : MemRef))) (prot 0).begin fun a1 t1 => true) = true := by decide +kernel
    obtain ⟨a1, t1, p6, h1⟩ := found h0
    exact ⟨(at2000 : MemRef), (prot 0), t1, a1, (by unfold SseReady; decide +kernel),
      (by unfold SimdMasked; decide +kernel), p6⟩
  · have h0 : (decide ((prot 0).fpu.es = false) && (check (readMmM 8 (⟨1, .mem at2000⟩ : XMm).src) (prot 0).begin fun a1 t1
      => true)) = true := by decide +kernel
    obtain ⟨p5, h1⟩ := both h0
    obtain ⟨a1, t1, p7, h2⟩ := found h1
    exact ⟨(⟨1, .mem at2000⟩ : XMm), (prot 0), t1, a1, (by unfold SseReady; decide +kernel), p5,
      (by unfold SimdMasked; decide +kernel), p7⟩
  · have h0 : (check (readMem (at2000 : MemRef) 4) (prot 0).begin fun a1 t1 => decide (a1 / 2 ^ 16 % 2 ^ 16 = 0) && true) =
      true := by decide +kernel
    obtain ⟨a1, t1, p4, h1⟩ := found h0
    obtain ⟨p5, h2⟩ := both h1
    exact ⟨(at2000 : MemRef), (prot 0), t1, a1, p4, p5, (by unfold SseReady; decide +kernel)⟩
  · have h0 : (check (readMem (at2000 : MemRef) 4) (prot 0).begin fun a1 t1 => decide (a1 / 2 ^ 16 % 2 ^ 16 = 0) && true) =
      true := by decide +kernel
    obtain ⟨a1, t1, p4, h1⟩ := found h0
    obtain ⟨p5, h2⟩ := both h1
    exact ⟨(at2000 : MemRef), (prot 0), t1, a1, p4, p5, (by unfold VexReady; decide +kernel)⟩
  · have h0 : (check (resolveMem .write (at2000 : MemRef) 4) (prot 0).begin fun a1 t1 => true) = true := by decide +kernel
    obtain ⟨a1, t1, p4, h1⟩ := found h0
    exact ⟨(at2000 : MemRef), (prot 0), t1, a1, p4, (by unfold SseReady; decide +kernel)⟩
  · have h0 : (check (resolveMem .write (at2000 : MemRef) 4) (prot 0).begin fun a1 t1 => true) = true := by decide +kernel
    obtain ⟨a1, t1, p4, h1⟩ := found h0
    exact ⟨(at2000 : MemRef), (prot 0), t1, a1, p4, (by unfold VexReady; decide +kernel)⟩

/-- The hypotheses of `Obligations.SseMoveResults` can be met, clause by clause. -/
theorem witness_SseMoveResults :
    (∃ (src : Xm) (s u : State) (b : BitVec (8 * 16)), SseReady .sse2 s ∧ Passes (readXm .size 16 src) s.begin b u) ∧
    (∃ (s : State), SseReady .sse2 s) ∧
    (∃ (m : MemRef) (s u : State) (as : List Nat), SseReady .sse2 s ∧ Passes (resolveVec .write .size m 16) s.begin as u) ∧
    (∃ (m : MemRef) (s u : State) (b : BitVec (8 * 8)), SseReady .sse2 s ∧ Passes (readXm .free 8 (.mem m)) s.begin b u) ∧
    (∃ (m : MemRef) (s u : State) (as : List Nat), SseReady .sse2 s ∧ Passes (resolveVec .write .free m 8) s.begin as u) ∧
    (∃ (m : MemRef) (s u : State) (v : BitVec (8 * 8)), SseReady .sse2 s ∧ Passes (readXm .free 8 (.mem m)) s.begin v u) ∧
    (∃ (o : MemX) (s u : State) (as : List Nat), SseReady .sse2 s ∧ Passes (resolveVec .write .size o.mem 16) s.begin as
      u) ∧
    (∃ (o : XMem) (s u : State) (b : BitVec (8 * 16)), SseReady .sse3 s ∧ Passes (readXm .loose 16 (.mem o.mem)) s.begin
      b u) ∧
    (∃ (s : State), SseReady .sse s) ∧
    (∃ (o : InsOps) (s u : State) (v : BitVec Width.w8.bits), SseReady .sse41 s ∧ Passes (readInsert Width.w8 o.src)
      s.begin v u) ∧
    (∃ (o : XXI) (s u : State) (x : BitVec 32), SseReady .sse41 s ∧ Passes (insertPsSource o.imm o.src) s.begin x u) ∧
    (∃ (s : State), (SseReady .sse41) s) ∧
    (∃ (m : MemRef) (s u : State) (d : Place), (SseReady .sse41) s ∧ Passes (place .write Width.w32 (.mem m)) s.begin d u) ∧
    (∃ (src : Rm) (s u : State) (v : BitVec Width.w32.bits), MmxReady .mmx s ∧ Passes (readRm Width.w32 src) s.begin v u) ∧
    (∃ (dst : Rm) (s u : State) (d : Place), MmxReady .mmx s ∧ Passes (place .write Width.w32 dst) s.begin d u) ∧
    (∃ (src : Rm) (s u : State) (v : BitVec Width.w32.bits), SseReady .sse2 s ∧ Passes (readRm Width.w32 src) s.begin v u) ∧
    (∃ (dst : Rm) (s u : State) (d : Place), SseReady .sse2 s ∧ Passes (place .write Width.w32 dst) s.begin d u) ∧
    (∃ (src : Mm) (s u : State) (v : BitVec (8 * 8)), MmxReady .mmx s ∧ Passes (readMmM 8 src) s.begin v u) ∧
    (∃ (s : State), MmxReady .mmx s) ∧
    (∃ (m : MemRef) (s u : State) (as : List Nat), MmxReady .mmx s ∧ Passes (resolveMem .write m 8) s.begin as u) ∧
    (∃ (src : Xm) (s u : State) (v : BitVec (8 * 8)), SseReady .sse2 s ∧ s.fpu.es = false ∧ Passes (readXm .free 8 src)
      s.begin v u) ∧
    (∃ (s : State), SseReady .sse2 s ∧ s.fpu.es = false) ∧
    (∃ (m : MemRef) (s u : State) (as : List Nat), SseReady .sse2 s ∧ s.fpu.es = false ∧ Passes (resolveVec .write .free
      m 8) s.begin as u) ∧
    (∃ (o : XMask) (s u : State) (ps : List (List Nat × Nat)), (SseReady .sse2) s ∧ Passes (maskedBytes (o.ovr.getD .ds)
      (o.a.trunc (s.gp rDI)) (List.zip ((lanes 8 (s.xmm o.mask)).map (·.msb)) (lanes 8 (s.xmm o.src))) 0) s.begin ps u) := by
  refine ⟨?_, ?_, ?_, ?_, ?_, ?_, ?_, ?_, ?_, ?_, ?_, ?_, ?_, ?_, ?_, ?_, ?_, ?_, ?_, ?_, ?_, ?_, ?_, ?_⟩
  · have h0 : (check (readXm .size 16 (.mem at2000 : Xm)) (prot 0).begin fun a1 t1 => true) = true := by decide +kernel
    obtain ⟨a1, t1, p5, h1⟩ := found h0
    exact ⟨(.mem at2000 : Xm), (prot 0), t1, a1, (by unfold SseReady; decide +kernel), p5⟩
  · exact ⟨(prot 0), (by unfold SseReady; decide +kernel)⟩
  · have h0 : (check (resolveVec .write .size (at2000 : MemRef) 16) (prot 0).begin fun a1 t1 => true) = true :=
      by decide +kernel
    obtain ⟨a1, t1, p5, h1⟩ := found h0
    exact ⟨(at2000 : MemRef), (prot 0), t1, a1, (by unfold SseReady; decide +kernel), p5⟩
  · have h0 : (check (readXm .free 8 (.mem (at2000 : MemRef))) (prot 0).begin fun a1 t1 => true) = true := by decide +kernel
    obtain ⟨a1, t1, p5, h1⟩ := found h0
    exact ⟨(at2000 : MemRef), (prot 0), t1, a1, (by unfold SseReady; decide +kernel), p5⟩
  · have h0 : (check (resolveVec .write .free (at2000 : MemRef) 8) (prot 0).begin fun a1 t1 => true) = true :=
      by decide +kernel
    obtain ⟨a1, t1, p5, h1⟩ := found h0
    exact ⟨(at2000 : MemRef), (prot 0), t1, a1, (by unfold SseReady; decide +kernel), p5⟩
  · have h0 : (check (readXm .free 8 (.mem (at2000 : MemRef))) (prot 0).begin fun a1 t1 => true) = true := by decide +kernel
    obtain ⟨a1, t1, p5, h1⟩ := found h0
    exact ⟨(at2000 : MemRef), (prot 0), t1, a1, (by unfold SseReady; decide +kernel), p5⟩
  · have h0 : (check (resolveVec .write .size (⟨at2000, 1⟩ : MemX).mem 16) (prot 0).begin fun a1 t1 => true) = true :=
      by decide +kernel
    obtain ⟨a1, t1, p5, h1⟩ := found h0
    exact ⟨(⟨at2000, 1⟩ : MemX), (prot 0), t1, a1, (by unfold SseReady; decide +kernel), p5⟩
  · have h0 : (check (readXm .loose 16 (.mem (⟨1, at2000⟩ : XMem).mem)) (prot 0).begin fun a1 t1 => true) = true :=
      by decide +kernel
    obtain ⟨a1, t1, p5, h1⟩ := found h0
    exact ⟨(⟨1, at2000⟩ : XMem), (prot 0), t1, a1, (by unfold SseReady; decide +kernel), p5⟩
  · exact ⟨(prot 0), (by unfold SseReady; decide +kernel)⟩
  · have h0 : (check (readInsert Width.w8 (⟨1, .mem at2000, 1⟩ : InsOps).src) (prot 0).begin fun a1 t1 => true) = true :=
      by decide +kernel
    obtain ⟨a1, t1, p5, h1⟩ := found h0
    exact ⟨(⟨1, .mem at2000, 1⟩ : InsOps), (prot 0), t1, a1, (by unfold SseReady; decide +kernel), p5⟩
  · have h0 : (check (insertPsSource (⟨1, .mem at2000, 1⟩ : XXI).imm (⟨1, .mem at2000, 1⟩ : XXI).src) (prot 0).begin fun a1
      t1 => true) = true := by decide +kernel
    obtain ⟨a1, t1, p5, h1⟩ := found h0
    exact ⟨(⟨1, .mem at2000, 1⟩ : XXI), (prot 0), t1, a1, (by unfold SseReady; decide +kernel), p5⟩
  · exact ⟨(prot 0), (by unfold SseReady; decide +kernel)⟩
  · have h0 : (check (place .write Width.w32 (.mem (at2000 : MemRef))) (prot 0).begin fun a1 t1 => true) = true :=
      by decide +kernel
    obtain ⟨a1, t1, p5, h1⟩ := found h0
    exact ⟨(at2000 : MemRef), (prot 0), t1, a1, (by unfold SseReady; decide +kernel), p5⟩
  · have h0 : (check (readRm Width.w32 (.mem at2000 : Rm)) (prot 0).begin fun a1 t1 => true) = true := by decide +kernel
    obtain ⟨a1, t1, p5, h1⟩ := found h0
    exact ⟨(.mem at2000 : Rm), (prot 0), t1, a1, (by unfold MmxReady; decide +kernel), p5⟩
  · have h0 : (check (place .write Width.w32 (.mem at2000 : Rm)) (prot 0).begin fun a1 t1 => true) = true :=
      by decide +kernel
    obtain ⟨a1, t1, p5, h1⟩ := found h0
    exact ⟨(.mem at2000 : Rm), (prot 0), t1, a1, (by unfold MmxReady; decide +kernel), p5⟩
  · have h0 : (check (readRm Width.w32 (.mem at2000 : Rm)) (prot 0).begin fun a1 t1 => true) = true := by decide +kernel
    obtain ⟨a1, t1, p5, h1⟩ := found h0
    exact ⟨(.mem at2000 : Rm), (prot 0), t1, a1, (by unfold SseReady; decide +kernel), p5⟩
  · have h0 : (check (place .write Width.w32 (.mem at2000 : Rm)) (prot 0).begin fun a1 t1 => true) = true :=
      by decide +kernel
    obtain ⟨a1, t1, p5, h1⟩ := found h0
    exact ⟨(.mem at2000 : Rm), (prot 0), t1, a1, (by unfold SseReady; decide +kernel), p5⟩
  · have h0 : (check (readMmM 8 (.mem at2000 : Mm)) (prot 0).begin fun a1 t1 => true) = true := by decide +kernel
    obtain ⟨a1, t1, p5, h1⟩ := found h0
    exact ⟨(.mem at2000 : Mm), (prot 0), t1, a1, (by unfold MmxReady; decide +kernel), p5⟩
  · exact ⟨(prot 0), (by unfold MmxReady; decide +kernel)⟩
  · have h0 : (check (resolveMem .write (at2000 : MemRef) 8) (prot 0).begin fun a1 t1 => true) = true := by decide +kernel
    obtain ⟨a1, t1, p5, h1⟩ := found h0
    exact ⟨(at2000 : MemRef), (prot 0), t1, a1, (by unfold MmxReady; decide +kernel), p5⟩
  · have h0 : (decide ((prot 0).fpu.es = false) && (check (readXm .free 8 (.mem at2000 : Xm)) (prot 0).begin fun a1 t1 =>
      true)) = true := by decide +kernel
    obtain ⟨p5, h1⟩ := both h0
    obtain ⟨a1, t1, p6, h2⟩ := found h1
    exact ⟨(.mem at2000 : Xm), (prot 0), t1, a1, (by unfold SseReady; decide +kernel), p5, p6⟩
  · have h0 : (decide ((prot 0).fpu.es = false) && true) = true := by decide +kernel
    obtain ⟨p2, h1⟩ := both h0
    exact ⟨(prot 0), (by unfold SseReady; decide +kernel), p2⟩
  · have h0 : (decide ((prot 0).fpu.es = false) && (check (resolveVec .write .free (at2000 : MemRef) 8) (prot 0).begin fun
      a1 t1 => true)) = true := by decide +kernel
    obtain ⟨p5, h1⟩ := both h0
    obtain ⟨a1, t1, p6, h2⟩ := found h1
    exact ⟨(at2000 : MemRef), (prot 0), t1, a1, (by unfold SseReady; decide +kernel), p5, p6⟩
  · have h0 : (check (maskedBytes ((⟨.a32, none, 1, 2⟩ : XMask).ovr.getD .ds) ((⟨.a32, none, 1, 2⟩ : XMask).a.trunc ((prot
      0).gp rDI)) (List.zip ((lanes 8 ((prot 0).xmm (⟨.a32, none, 1, 2⟩ : XMask).mask)).map (·.msb)) (lanes 8 ((prot 0).xmm
      (⟨.a32, none, 1, 2⟩ : XMask).src))) 0) (prot 0).begin fun a1 t1 => true) = true := by decide +kernel
    obtain ⟨a1, t1, p5, h1⟩ := found h0
    exact ⟨(⟨.a32, none, 1, 2⟩ : XMask), (prot 0), t1, a1, (by unfold SseReady; decide +kernel), p5⟩

/-- The hypotheses of `Obligations.MmxResults` can be met, clause by clause. -/
theorem witness_MmxResults :
    (∃ (src : Mm) (s u : State) (b : BitVec (8 * 8)), MmxReady .ssse3 s ∧ Passes (readMmM 8 src) s.begin b u) ∧
    (∃ (src : Xm) (s u : State) (b : BitVec (8 * 16)), SseReady .ssse3 s ∧ Passes (readXm .size 16 src) s.begin b u) ∧
    (∃ (src : Mm) (s u : State) (b : BitVec (8 * 4)), MmxReady .mmx s ∧ Passes (readMmM 4 src) s.begin b u) ∧
    (∃ (src : Xm) (s u : State) (b : BitVec (8 * 16)), SseReady .sse2 s ∧ Passes (readXm .size 16 src) s.begin b u) ∧
    (∃ (o : MMI) (s u : State) (b : BitVec (8 * 8)), MmxReady .sse s ∧ Passes (readMmM 8 o.src) s.begin b u) ∧
    (∃ (cnt : Mm) (s u : State) (c : BitVec (8 * 8)), MmxReady .mmx s ∧ Passes (readMmM 8 cnt) s.begin c u) ∧
    (∃ (s : State), MmxReady .mmx s) ∧
    (∃ (cnt : Xm) (s u : State) (c : BitVec (8 * 16)), SseReady .sse2 s ∧ Passes (readXm .size 16 cnt) s.begin c u) ∧
    (∃ (s : State), SseReady .sse2 s) ∧
    (∃ (s : State), MmxReady .sse s) ∧
    (∃ (s : State), SseReady .sse41 s) ∧
    (∃ (s : State) (m : MemRef) (u : State) (d : Place), SseReady .sse41 s ∧ Passes (place .write .w16 (.mem m)) s.begin
      d u) ∧
    (∃ (src : Rm) (s u : State) (v : BitVec 16), Passes (readInsert .w16 src) s.begin v u ∧ MmxReady .sse s) ∧
    (∃ (src : Rm) (s u : State) (v : BitVec 16), Passes (readInsert .w16 src) s.begin v u ∧ SseReady .sse2 s) ∧
    (∃ (o : MemM) (s u : State) (as : List Nat), MmxReady .sse s ∧ Passes (resolveMem .write o.mem 8) s.begin as u) ∧
    (∃ (o : MMask) (s u : State) (ps : List (List Nat × Nat)), MmxReady .sse s ∧ Passes (maskedBytes (o.ovr.getD .ds)
      (o.a.trunc (s.gp rDI)) (List.zip ((lanes 8 (s.mm o.mask)).map (·.msb)) (lanes 8 (s.mm o.src))) 0) s.begin ps u) := by
  refine ⟨?_, ?_, ?_, ?_, ?_, ?_, ?_, ?_, ?_, ?_, ?_, ?_, ?_, ?_, ?_, ?_⟩
  · have h0 : (check (readMmM 8 (.mem at2000 : Mm)) (prot 0).begin fun a1 t1 => true) = true := by decide +kernel
    obtain ⟨a1, t1, p5, h1⟩ := found h0
    exact ⟨(.mem at2000 : Mm), (prot 0), t1, a1, (by unfold MmxReady; decide +kernel), p5⟩
  · have h0 : (check (readXm .size 16 (.mem at2000 : Xm)) (prot 0).begin fun a1 t1 => true) = true := by decide +kernel
    obtain ⟨a1, t1, p5, h1⟩ := found h0
    exact ⟨(.mem at2000 : Xm), (prot 0), t1, a1, (by unfold SseReady; decide +kernel), p5⟩
  · have h0 : (check (readMmM 4 (.mem at2000 : Mm)) (prot 0).begin fun a1 t1 => true) = true := by decide +kernel
    obtain ⟨a1, t1, p5, h1⟩ := found h0
    exact ⟨(.mem at2000 : Mm), (prot 0), t1, a1, (by unfold MmxReady; decide +kernel), p5⟩
  · have h0 : (check (readXm .size 16 (.mem at2000 : Xm)) (prot 0).begin fun a1 t1 => true) = true := by decide +kernel
    obtain ⟨a1, t1, p5, h1⟩ := found h0
    exact ⟨(.mem at2000 : Xm), (prot 0), t1, a1, (by unfold SseReady; decide +kernel), p5⟩
  · have h0 : (check (readMmM 8 (⟨1, .mem at2000, 1⟩ : MMI).src) (prot 0).begin fun a1 t1 => true) = true :=
      by decide +kernel
    obtain ⟨a1, t1, p5, h1⟩ := found h0
    exact ⟨(⟨1, .mem at2000, 1⟩ : MMI), (prot 0), t1, a1, (by unfold MmxReady; decide +kernel), p5⟩
  · have h0 : (check (readMmM 8 (.mem at2000 : Mm)) (prot 0).begin fun a1 t1 => true) = true := by decide +kernel
    obtain ⟨a1, t1, p5, h1⟩ := found h0
    exact ⟨(.mem at2000 : Mm), (prot 0), t1, a1, (by unfold MmxReady; decide +kernel), p5⟩
  · exact ⟨(prot 0), (by unfold MmxReady; decide +kernel)⟩
  · have h0 : (check (readXm .size 16 (.mem at2000 : Xm)) (prot 0).begin fun a1 t1 => true) = true := by decide +kernel
    obtain ⟨a1, t1, p5, h1⟩ := found h0
    exact ⟨(.mem at2000 : Xm), (prot 0), t1, a1, (by unfold SseReady; decide +kernel), p5⟩
  · exact ⟨(prot 0), (by unfold SseReady; decide +kernel)⟩
  · exact ⟨(prot 0), (by unfold MmxReady; decide +kernel)⟩
  · exact ⟨(prot 0), (by unfold SseReady; decide +kernel)⟩
  · have h0 : (check (place .write .w16 (.mem (at2000 : MemRef))) (prot 0).begin fun a1 t1 => true) = true :=
      by decide +kernel
    obtain ⟨a1, t1, p5, h1⟩ := found h0
    exact ⟨(prot 0), (at2000 : MemRef), t1, a1, (by unfold SseReady; decide +kernel), p5⟩
  · have h0 : (check (readInsert .w16 (.mem at2000 : Rm)) (prot 0).begin fun a1 t1 => true) = true := by decide +kernel
    obtain ⟨a1, t1, p4, h1⟩ := found h0
    exact ⟨(.mem at2000 : Rm), (prot 0), t1, a1, p4, (by unfold MmxReady; decide +kernel)⟩
  · have h0 : (check (readInsert .w16 (.mem at2000 : Rm)) (prot 0).begin fun a1 t1 => true) = true := by decide +kernel
    obtain ⟨a1, t1, p4, h1⟩ := found h0
    exact ⟨(.mem at2000 : Rm), (prot 0), t1, a1, p4, (by unfold SseReady; decide +kernel)⟩
  · have h0 : (check (resolveMem .write (⟨at2000, 1⟩ : MemM).mem 8) (prot 0).begin fun a1 t1 => true) = true :=
      by decide +kernel
    obtain ⟨a1, t1, p5, h1⟩ := found h0
    exact ⟨(⟨at2000, 1⟩ : MemM), (prot 0), t1, a1, (by unfold MmxReady; decide +kernel), p5⟩
  · have h0 : (check (maskedBytes ((⟨.a32, none, 1, 2⟩ : MMask).ovr.getD .ds) ((⟨.a32, none, 1, 2⟩ : MMask).a.trunc ((prot
      0).gp rDI)) (List.zip ((lanes 8 ((prot 0).mm (⟨.a32, none, 1, 2⟩ : MMask).mask)).map (·.msb)) (lanes 8 ((prot 0).mm
      (⟨.a32, none, 1, 2⟩ : MMask).src))) 0) (prot 0).begin fun a1 t1 => true) = true := by decide +kernel
    obtain ⟨a1, t1, p5, h1⟩ := found h0
    exact ⟨(⟨.a32, none, 1, 2⟩ : MMask), (prot 0), t1, a1, (by unfold MmxReady; decide +kernel), p5⟩

/-- The hypotheses of `Obligations.AvxIntegerResults` can be met, clause by clause. -/
theorem witness_AvxIntegerResults :
    (∃ (o : VVX) (s u : State) (b : BitVec o.l.bits), VexReady (aesAvx o.l) s ∧ Passes (readVx o.l o.b) s.begin b u) ∧
    (∃ (o : VVXI) (s u : State) (b : BitVec o.l.bits), VexReady (avxInt o.l) s ∧ Passes (readVx o.l o.b) s.begin b u) ∧
    (∃ (o : VX) (s u : State) (b : BitVec o.l.bits), VexReady (aesAvx o.l) s ∧ Passes (readVx o.l o.src) s.begin b u) ∧
    (∃ (o : VXI) (s u : State) (b : BitVec o.l.bits), VexReady (aesAvx o.l) s ∧ Passes (readVx o.l o.src) s.begin b u) ∧
    (∃ (o : VX) (s u : State) (b : BitVec o.l.bits), VexReady [.avx] s ∧ Passes (readVx o.l o.src) s.begin b u) ∧
    (∃ (o : VVX) (s u : State) (b : BitVec (8 * 4)), VexReady [.avx] s ∧ Passes (readXm .free 4 o.b) s.begin b u) ∧
    (∃ (o : VX) (s u : State) (b : BitVec (8 * (vbytes o.l / 2))), VexReady (avxInt o.l) s ∧ Passes (readXm .free (vbytes
      o.l / 2) o.src) s.begin b u) ∧
    (∃ (l : VLen) (cnt : Xm) (s u : State) (c : BitVec (8 * 16)), VexReady (avxInt l) s ∧ Passes (readXm .free 16 cnt)
      s.begin c u) ∧
    (∃ (l : VLen) (s : State), VexReady (avxInt l) s) ∧
    (∃ (o : VVI) (s : State), VexReady (avxInt o.l) s) ∧
    (∃ (o : VVXI) (s u : State) (b : BitVec o.l.bits), VexReady (avx o.l) s ∧ Passes (readVx o.l o.b) s.begin b u) ∧
    (∃ (o : VVXR) (s u : State) (b : BitVec o.l.bits), VexReady (avx o.l) s ∧ Passes (readVx o.l o.b) s.begin b u) ∧
    (∃ (o : VVX) (s u : State) (b : BitVec o.l.bits), VexReady [.avx2] s ∧ Passes (readVx o.l o.b) s.begin b u) ∧
    (∃ (o : VVX) (s u : State) (b : BitVec (8 * 32)), VexReady [.avx2] s ∧ Passes (readXm .free 32 o.b) s.begin b u) ∧
    (∃ (o : VXI) (s u : State) (b : BitVec (8 * 32)), VexReady [.avx2] s ∧ Passes (readXm .free 32 o.src) s.begin b u) ∧
    (∃ (o : VVX) (s u : State) (b : BitVec o.l.bits), VexReady [.avx] s ∧ Passes (readVx o.l o.b) s.begin b u) ∧
    (∃ (o : VXI) (s u : State) (b : BitVec o.l.bits), VexReady [.avx] s ∧ Passes (readVx o.l o.src) s.begin b u) := by
  refine ⟨?_, ?_, ?_, ?_, ?_, ?_, ?_, ?_, ?_, ?_, ?_, ?_, ?_, ?_, ?_, ?_, ?_⟩
  · have h0 : (check (readVx (⟨.l256, 1, 2, .mem at2000⟩ : VVX).l (⟨.l256, 1, 2, .mem at2000⟩ : VVX).b) (prot 0).begin fun
      a1 t1 => true) = true := by decide +kernel
    obtain ⟨a1, t1, p5, h1⟩ := found h0
    exact ⟨(⟨.l256, 1, 2, .mem at2000⟩ : VVX), (prot 0), t1, a1, (by unfold VexReady; decide +kernel), p5⟩
  · have h0 : (check (readVx (⟨.l256, 1, 2, .mem at2000, 1⟩ : VVXI).l (⟨.l256, 1, 2, .mem at2000, 1⟩ : VVXI).b) (prot
      0).begin fun a1 t1 => true) = true := by decide +kernel
    obtain ⟨a1, t1, p5, h1⟩ := found h0
    exact ⟨(⟨.l256, 1, 2, .mem at2000, 1⟩ : VVXI), (prot 0), t1, a1, (by unfold VexReady; decide +kernel), p5⟩
  · have h0 : (check (readVx (⟨.l256, 1, .mem at2000⟩ : VX).l (⟨.l256, 1, .mem at2000⟩ : VX).src) (prot 0).begin fun a1 t1
      => true) = true := by decide +kernel
    obtain ⟨a1, t1, p5, h1⟩ := found h0
    exact ⟨(⟨.l256, 1, .mem at2000⟩ : VX), (prot 0), t1, a1, (by unfold VexReady; decide +kernel), p5⟩
  · have h0 : (check (readVx (⟨.l256, 1, .mem at2000, 1⟩ : VXI).l (⟨.l256, 1, .mem at2000, 1⟩ : VXI).src) (prot 0).begin fun
      a1 t1 => true) = true := by decide +kernel
    obtain ⟨a1, t1, p5, h1⟩ := found h0
    exact ⟨(⟨.l256, 1, .mem at2000, 1⟩ : VXI), (prot 0), t1, a1, (by unfold VexReady; decide +kernel), p5⟩
  · have h0 : (check (readVx (⟨.l256, 1, .mem at2000⟩ : VX).l (⟨.l256, 1, .mem at2000⟩ : VX).src) (prot 0).begin fun a1 t1
      => true) = true := by decide +kernel
    obtain ⟨a1, t1, p5, h1⟩ := found h0
    exact ⟨(⟨.l256, 1, .mem at2000⟩ : VX), (prot 0), t1, a1, (by unfold VexReady; decide +kernel), p5⟩
  · have h0 : (check (readXm .free 4 (⟨.l256, 1, 2, .mem at2000⟩ : VVX).b) (prot 0).begin fun a1 t1 => true) = true :=
      by decide +kernel
    obtain ⟨a1, t1, p5, h1⟩ := found h0
    exact ⟨(⟨.l256, 1, 2, .mem at2000⟩ : VVX), (prot 0), t1, a1, (by unfold VexReady; decide +kernel), p5⟩
  · have h0 : (check (readXm .free (vbytes (⟨.l256, 1, .mem at2000⟩ : VX).l / 2) (⟨.l256, 1, .mem at2000⟩ : VX).src) (prot
      0).begin fun a1 t1 => true) = true := by decide +kernel
    obtain ⟨a1, t1, p5, h1⟩ := found h0
    exact ⟨(⟨.l256, 1, .mem at2000⟩ : VX), (prot 0), t1, a1, (by unfold VexReady; decide +kernel), p5⟩
  · have h0 : (check (readXm .free 16 (.mem at2000 : Xm)) (prot 0).begin fun a1 t1 => true) = true := by decide +kernel
    obtain ⟨a1, t1, p6, h1⟩ := found h0
    exact ⟨(.l256 : VLen), (.mem at2000 : Xm), (prot 0), t1, a1, (by unfold VexReady; decide +kernel), p6⟩
  · exact ⟨(.l256 : VLen), (prot 0), (by unfold VexReady; decide +kernel)⟩
  · exact ⟨(⟨.l256, 1, 2, 1⟩ : VVI), (prot 0), (by unfold VexReady; decide +kernel)⟩
  · have h0 : (check (readVx (⟨.l256, 1, 2, .mem at2000, 1⟩ : VVXI).l (⟨.l256, 1, 2, .mem at2000, 1⟩ : VVXI).b) (prot
      0).begin fun a1 t1 => true) = true := by decide +kernel
    obtain ⟨a1, t1, p5, h1⟩ := found h0
    exact ⟨(⟨.l256, 1, 2, .mem at2000, 1⟩ : VVXI), (prot 0), t1, a1, (by unfold VexReady; decide +kernel), p5⟩
  · have h0 : (check (readVx (⟨.l256, 1, 2, .mem at2000, 3⟩ : VVXR).l (⟨.l256, 1, 2, .mem at2000, 3⟩ : VVXR).b) (prot
      0).begin fun a1 t1 => true) = true := by decide +kernel
    obtain ⟨a1, t1, p5, h1⟩ := found h0
    exact ⟨(⟨.l256, 1, 2, .mem at2000, 3⟩ : VVXR), (prot 0), t1, a1, (by unfold VexReady; decide +kernel), p5⟩
  · have h0 : (check (readVx (⟨.l256, 1, 2, .mem at2000⟩ : VVX).l (⟨.l256, 1, 2, .mem at2000⟩ : VVX).b) (prot 0).begin fun
      a1 t1 => true) = true := by decide +kernel
    obtain ⟨a1, t1, p5, h1⟩ := found h0
    exact ⟨(⟨.l256, 1, 2, .mem at2000⟩ : VVX), (prot 0), t1, a1, (by unfold VexReady; decide +kernel), p5⟩
  · have h0 : (check (readXm .free 32 (⟨.l256, 1, 2, .mem at2000⟩ : VVX).b) (prot 0).begin fun a1 t1 => true) = true :=
      by decide +kernel
    obtain ⟨a1, t1, p5, h1⟩ := found h0
    exact ⟨(⟨.l256, 1, 2, .mem at2000⟩ : VVX), (prot 0), t1, a1, (by unfold VexReady; decide +kernel), p5⟩
  · have h0 : (check (readXm .free 32 (⟨.l256, 1, .mem at2000, 1⟩ : VXI).src) (prot 0).begin fun a1 t1 => true) = true :=
      by decide +kernel
    obtain ⟨a1, t1, p5, h1⟩ := found h0
    exact ⟨(⟨.l256, 1, .mem at2000, 1⟩ : VXI), (prot 0), t1, a1, (by unfold VexReady; decide +kernel), p5⟩
  · have h0 : (check (readVx (⟨.l256, 1, 2, .mem at2000⟩ : VVX).l (⟨.l256, 1, 2, .mem at2000⟩ : VVX).b) (prot 0).begin fun
      a1 t1 => true) = true := by decide +kernel
    obtain ⟨a1, t1, p5, h1⟩ := found h0
    exact ⟨(⟨.l256, 1, 2, .mem at2000⟩ : VVX), (prot 0), t1, a1, (by unfold VexReady; decide +kernel), p5⟩
  · have h0 : (check (readVx (⟨.l256, 1, .mem at2000, 1⟩ : VXI).l (⟨.l256, 1, .mem at2000, 1⟩ : VXI).src) (prot 0).begin fun
      a1 t1 => true) = true := by decide +kernel
    obtain ⟨a1, t1, p5, h1⟩ := found h0
    exact ⟨(⟨.l256, 1, .mem at2000, 1⟩ : VXI), (prot 0), t1, a1, (by unfold VexReady; decide +kernel), p5⟩

/-- The hypotheses of `Obligations.AvxFloatResults` can be met, clause by clause. -/
theorem witness_AvxFloatResults :
    (∃ (o : VVX) (s u : State) (b : BitVec o.l.bits), VexReady [.avx] s ∧ SimdMasked s ∧ Passes (readVx o.l o.b) s.begin
      b u) ∧
    (∃ (o : VX) (s u : State) (b : BitVec o.l.bits), VexReady [.avx] s ∧ SimdMasked s ∧ Passes (readVx o.l o.src) s.begin
      b u) ∧
    (∃ (o : VVX) (s u : State) (b : BitVec (8 * 8)), VexReady [.avx] s ∧ SimdMasked s ∧ Passes (readXm .free 8 o.b)
      s.begin b u) ∧
    (∃ (o : VXI) (s u : State) (b : BitVec o.l.bits), VexReady [.avx] s ∧ SimdMasked s ∧ Passes (readVx o.l o.src)
      s.begin b u) ∧
    (∃ (o : VVXI) (s u : State) (b : BitVec (8 * (f64.width / 8))), VexReady [.avx] s ∧ SimdMasked s ∧ Passes (readXm
      .free (f64.width / 8) o.b) s.begin b u) ∧
    (∃ (o : VVXI) (s u : State) (b : BitVec o.l.bits), o.imm.toNat < 2 ^ 5 ∧ VexReady [.avx] s ∧ SimdMasked s ∧ Passes
      (readVx o.l o.b) s.begin b u) ∧
    (∃ (o : VVXI) (s u : State) (b : BitVec (8 * (f64.width / 8))), o.imm.toNat < 2 ^ 5 ∧ VexReady [.avx] s ∧ SimdMasked
      s ∧ Passes (readXm .free (f64.width / 8) o.b) s.begin b u) ∧
    (∃ (o : VVXI) (s u : State) (b : BitVec o.l.bits), VexReady [.avx] s ∧ SimdMasked s ∧ Passes (readVx o.l o.b) s.begin
      b u) ∧
    (∃ (o : VX) (s u : State) (b : BitVec (8 * halfBytes o.l)), VexReady [.avx] s ∧ SimdMasked s ∧ Passes (readXm .free
      (halfBytes o.l) o.src) s.begin b u) ∧
    (∃ (o : GX) (s u : State) (b : BitVec (8 * (f64.width / 8))), VexReady [.avx] s ∧ SimdMasked s ∧ Passes (readXm .free
      (f64.width / 8) o.src) s.begin b u) ∧
    (∃ (o : VXG) (s u : State) (b : BitVec o.w.bits), VexReady [.avx] s ∧ SimdMasked s ∧ Passes (readRm o.w o.src)
      s.begin b u) ∧
    (∃ (o : VX) (s u : State) (b : BitVec (8 * (f64.width / 8))), VexReady [.avx] s ∧ SimdMasked s ∧ Passes (readXm .free
      (f64.width / 8) o.src) s.begin b u) ∧
    (∃ (o : VX) (s u : State) (b : BitVec (8 * halfBytes o.l)), VexReady [.f16c] s ∧ SimdMasked s ∧ Passes (readXm
      .silent (halfBytes o.l) o.src) s.begin b u) ∧
    (∃ (s : State), VexReady [.f16c] s ∧ SimdMasked s) ∧
    (∃ (l : VLen) (s : State), VexReady [.f16c] s ∧ SimdMasked s ∧ ∃ (m : MemRef) (u : State) (as : List Nat), Passes
      (resolve m.seg .write 1 1 (s.begin.ea m) (halfBytes l)) s.begin as u) := by
  refine ⟨?_, ?_, ?_, ?_, ?_, ?_, ?_, ?_, ?_, ?_, ?_, ?_, ?_, ?_, ?_⟩
  · have h0 : (check (readVx (⟨.l256, 1, 2, .mem at2000⟩ : VVX).l (⟨.l256, 1, 2, .mem at2000⟩ : VVX).b) (prot 0).begin fun
      a1 t1 => true) = true := by decide +kernel
    obtain ⟨a1, t1, p6, h1⟩ := found h0
    exact ⟨(⟨.l256, 1, 2, .mem at2000⟩ : VVX), (prot 0), t1, a1, (by unfold VexReady; decide +kernel),
      (by unfold SimdMasked; decide +kernel), p6⟩
  · have h0 : (check (readVx (⟨.l256, 1, .mem at2000⟩ : VX).l (⟨.l256, 1, .mem at2000⟩ : VX).src) (prot 0).begin fun a1 t1
      => true) = true := by decide +kernel
    obtain ⟨a1, t1, p6, h1⟩ := found h0
    exact ⟨(⟨.l256, 1, .mem at2000⟩ : VX), (prot 0), t1, a1, (by unfold VexReady; decide +kernel),
      (by unfold SimdMasked; decide +kernel), p6⟩
  · have h0 : (check (readXm .free 8 (⟨.l256, 1, 2, .mem at2000⟩ : VVX).b) (prot 0).begin fun a1 t1 => true) = true :=
      by decide +kernel
    obtain ⟨a1, t1, p6, h1⟩ := found h0
    exact ⟨(⟨.l256, 1, 2, .mem at2000⟩ : VVX), (prot 0), t1, a1, (by unfold VexReady; decide +kernel),
      (by unfold SimdMasked; decide +kernel), p6⟩
  · have h0 : (check (readVx (⟨.l256, 1, .mem at2000, 1⟩ : VXI).l (⟨.l256, 1, .mem at2000, 1⟩ : VXI).src) (prot 0).begin fun
      a1 t1 => true) = true := by decide +kernel
    obtain ⟨a1, t1, p6, h1⟩ := found h0
    exact ⟨(⟨.l256, 1, .mem at2000, 1⟩ : VXI), (prot 0), t1, a1, (by unfold VexReady; decide +kernel),
      (by unfold SimdMasked; decide +kernel), p6⟩
  · have h0 : (check (readXm .free (f64.width / 8) (⟨.l256, 1, 2, .mem at2000, 1⟩ : VVXI).b) (prot 0).begin fun a1 t1 =>
      true) = true := by decide +kernel
    obtain ⟨a1, t1, p6, h1⟩ := found h0
    exact ⟨(⟨.l256, 1, 2, .mem at2000, 1⟩ : VVXI), (prot 0), t1, a1, (by unfold VexReady; decide +kernel),
      (by unfold SimdMasked; decide +kernel), p6⟩
  · have h0 : (decide ((⟨.l256, 1, 2, .mem at2000, 1⟩ : VVXI).imm.toNat < 2 ^ 5) && (check (readVx (⟨.l256, 1, 2, .mem
      at2000, 1⟩ : VVXI).l (⟨.l256, 1, 2, .mem at2000, 1⟩ : VVXI).b) (prot 0).begin fun a1 t1 => true)) = true :=
      by decide +kernel
    obtain ⟨p4, h1⟩ := both h0
    obtain ⟨a1, t1, p7, h2⟩ := found h1
    exact ⟨(⟨.l256, 1, 2, .mem at2000, 1⟩ : VVXI), (prot 0), t1, a1, p4, (by unfold VexReady; decide +kernel),
      (by unfold SimdMasked; decide +kernel), p7⟩
  · have h0 : (decide ((⟨.l256, 1, 2, .mem at2000, 1⟩ : VVXI).imm.toNat < 2 ^ 5) && (check (readXm .free (f64.width / 8)
      (⟨.l256, 1, 2, .mem at2000, 1⟩ : VVXI).b) (prot 0).begin fun a1 t1 => true)) = true := by decide +kernel
    obtain ⟨p4, h1⟩ := both h0
    obtain ⟨a1, t1, p7, h2⟩ := found h1
    exact ⟨(⟨.l256, 1, 2, .mem at2000, 1⟩ : VVXI), (prot 0), t1, a1, p4, (by unfold VexReady; decide +kernel),
      (by unfold SimdMasked; decide +kernel), p7⟩
  · have h0 : (check (readVx (⟨.l256, 1, 2, .mem at2000, 1⟩ : VVXI).l (⟨.l256, 1, 2, .mem at2000, 1⟩ : VVXI).b) (prot
      0).begin fun a1 t1 => true) = true := by decide +kernel
    obtain ⟨a1, t1, p6, h1⟩ := found h0
    exact ⟨(⟨.l256, 1, 2, .mem at2000, 1⟩ : VVXI), (prot 0), t1, a1, (by unfold VexReady; decide +kernel),
      (by unfold SimdMasked; decide +kernel), p6⟩
  · have h0 : (check (readXm .free (halfBytes (⟨.l256, 1, .mem at2000⟩ : VX).l) (⟨.l256, 1, .mem at2000⟩ : VX).src) (prot
      0).begin fun a1 t1 => true) = true := by decide +kernel
    obtain ⟨a1, t1, p6, h1⟩ := found h0
    exact ⟨(⟨.l256, 1, .mem at2000⟩ : VX), (prot 0), t1, a1, (by unfold VexReady; decide +kernel),
      (by unfold SimdMasked; decide +kernel), p6⟩
  · have h0 : (check (readXm .free (f64.width / 8) (⟨.w32, 1, .mem at2000⟩ : GX).src) (prot 0).begin fun a1 t1 => true) =
      true := by decide +kernel
    obtain ⟨a1, t1, p6, h1⟩ := found h0
    exact ⟨(⟨.w32, 1, .mem at2000⟩ : GX), (prot 0), t1, a1, (by unfold VexReady; decide +kernel),
      (by unfold SimdMasked; decide +kernel), p6⟩
  · have h0 : (check (readRm (⟨1, 2, .w32, .mem at2000⟩ : VXG).w (⟨1, 2, .w32, .mem at2000⟩ : VXG).src) (prot 0).begin fun
      a1 t1 => true) = true := by decide +kernel
    obtain ⟨a1, t1, p6, h1⟩ := found h0
    exact ⟨(⟨1, 2, .w32, .mem at2000⟩ : VXG), (prot 0), t1, a1, (by unfold VexReady; decide +kernel),
      (by unfold SimdMasked; decide +kernel), p6⟩
  · have h0 : (check (readXm .free (f64.width / 8) (⟨.l256, 1, .mem at2000⟩ : VX).src) (prot 0).begin fun a1 t1 => true) =
      true := by decide +kernel
    obtain ⟨a1, t1, p6, h1⟩ := found h0
    exact ⟨(⟨.l256, 1, .mem at2000⟩ : VX), (prot 0), t1, a1, (by unfold VexReady; decide +kernel),
      (by unfold SimdMasked; decide +kernel), p6⟩
  · have h0 : (check (readXm .silent (halfBytes (⟨.l256, 1, .mem at2000⟩ : VX).l) (⟨.l256, 1, .mem at2000⟩ : VX).src) (prot
      0).begin fun a1 t1 => true) = true := by decide +kernel
    obtain ⟨a1, t1, p6, h1⟩ := found h0
    exact ⟨(⟨.l256, 1, .mem at2000⟩ : VX), (prot 0), t1, a1, (by unfold VexReady; decide +kernel),
      (by unfold SimdMasked; decide +kernel), p6⟩
  · exact ⟨(prot 0), (by unfold VexReady; decide +kernel), (by unfold SimdMasked; decide +kernel)⟩
  · have h0 : (check (resolve (at2000 : MemRef).seg .write 1 1 ((prot 0).begin.ea (at2000 : MemRef)) (halfBytes (.l256 :
      VLen))) (prot 0).begin fun a1 t1 => true) = true := by decide +kernel
    obtain ⟨a1, t1, p7, h1⟩ := found h0
    exact ⟨(.l256 : VLen), (prot 0), (by unfold VexReady; decide +kernel), (by unfold SimdMasked; decide +kernel), (at2000 :
      MemRef), t1, a1, p7⟩

/-- The hypotheses of `Obligations.FmaResults` can be met, clause by clause. -/
theorem witness_FmaResults :
    (∃ (o : VVX) (s u : State) (c : BitVec o.l.bits), VexReady [.fma] s ∧ SimdMasked s ∧ Passes (readVx o.l o.b) s.begin
      c u) ∧
    (∃ (o : VVX) (s u : State) (c : BitVec (8 * (f64.width / 8))), VexReady [.fma] s ∧ SimdMasked s ∧ Passes (readXm
      .free (f64.width / 8) o.b) s.begin c u) := by
  refine ⟨?_, ?_⟩
  · have h0 : (check (readVx (⟨.l256, 1, 2, .mem at2000⟩ : VVX).l (⟨.l256, 1, 2, .mem at2000⟩ : VVX).b) (prot 0).begin fun
      a1 t1 => true) = true := by decide +kernel
    obtain ⟨a1, t1, p6, h1⟩ := found h0
    exact ⟨(⟨.l256, 1, 2, .mem at2000⟩ : VVX), (prot 0), t1, a1, (by unfold VexReady; decide +kernel),
      (by unfold SimdMasked; decide +kernel), p6⟩
  · have h0 : (check (readXm .free (f64.width / 8) (⟨.l256, 1, 2, .mem at2000⟩ : VVX).b) (prot 0).begin fun a1 t1 => true) =
      true := by decide +kernel
    obtain ⟨a1, t1, p6, h1⟩ := found h0
    exact ⟨(⟨.l256, 1, 2, .mem at2000⟩ : VVX), (prot 0), t1, a1, (by unfold VexReady; decide +kernel),
      (by unfold SimdMasked; decide +kernel), p6⟩

/-- The hypotheses of `Obligations.AvxMoveResults` can be met, clause by clause. -/
theorem witness_AvxMoveResults :
    (∃ (l : VLen) (s : State), VexReady [.avx] s ∧ ∃ (src : Xm) (u : State) (b : BitVec (8 * vbytes l)), Passes (readXm
      .size (vbytes l) src) s.begin b u) ∧
    (∃ (s : State), VexReady [.avx] s) ∧
    (∃ (l : VLen) (s : State), VexReady [.avx] s ∧ ∃ (m : MemRef) (u : State) (as : List Nat), Passes (resolveVec .write
      .size m (vbytes l)) s.begin as u) ∧
    (∃ (s : State), VexReady [.avx] s ∧ ∃ (src : Xm) (u : State) (b : BitVec (8 * 8)), Passes (readXm .free 8 src)
      s.begin b u) ∧
    (∃ (s : State), VexReady [.avx] s ∧ ∃ (m : MemRef) (u : State) (as : List Nat), Passes (resolveVec .write .free m 8)
      s.begin as u) ∧
    (∃ (s : State), VexReady [.avx] s ∧ ∃ (m : MemRef) (u : State) (b : BitVec (8 * 8)), Passes (readXm .free 8 (.mem m))
      s.begin b u) ∧
    (∃ (s : State), VexReady [.avx] s ∧ ∃ (m : MemRef) (u : State) (v : BitVec (8 * 8)), Passes (readXm .free 8 (.mem m))
      s.begin v u) ∧
    (∃ (o : VMemX) (s u : State) (as : List Nat), VexReady [.avx] s ∧ Passes (resolveVec .write .size o.mem (vbytes o.l))
      s.begin as u) ∧
    (∃ (s : State), VexReady [.avx] s ∧ ∃ (src : Rm) (u : State) (v : BitVec Width.w32.bits), Passes (readRm Width.w32
      src) s.begin v u) ∧
    (∃ (s : State), VexReady [.avx] s ∧ ∃ (dst : Rm) (u : State) (d : Place), Passes (place .write Width.w32 dst) s.begin
      d u) ∧
    (∃ (o : VX) (s u : State) (v : BitVec (8 * 4)), VexReady (avxOrAvx2
      (match o.src with | .reg _ => true | .mem _ => false)) s ∧ Passes (readXm (if 4 < 4 then .silent else .free) 4
      o.src) s.begin v u) ∧
    (∃ (o : VXMem) (s u : State) (v : BitVec (8 * 16)), VexReady [.avx] s ∧ Passes (readXm .free 16 (.mem o.mem)) s.begin
      v u) ∧
    (∃ (o : VXMem) (s u : State) (v : BitVec (8 * vbytes o.l)), VexReady [.avx] s ∧ Passes (readXm .loose (vbytes o.l)
      (.mem o.mem)) s.begin v u) ∧
    (∃ (o : VXMem) (s u : State) (v : BitVec (8 * vbytes o.l)), VexReady (avxInt o.l) s ∧ Passes (readXm .size (vbytes
      o.l) (.mem o.mem)) s.begin v u) ∧
    (∃ (s : State), VexReady [.avx] s ∧ ∃ (src : Xm) (u : State) (v : BitVec (8 * 8)), Passes (readXm .free 8 src)
      s.begin v u) ∧
    (∃ (s : State), VexReady [.avx] s ∧ ∃ (src : Xm) (u : State) (v : BitVec (8 * 32)), Passes (readXm .free 32 src)
      s.begin v u) ∧
    (∃ (s : State), VexReady [.avx] s ∧ ∃ (o : VVXI) (u : State) (x : BitVec 32), Passes (insertPsSource o.imm o.b)
      s.begin x u) ∧
    (∃ (s : State), VexReady [.avx] s ∧ ∃ (o : VInsOps) (u : State) (v : BitVec Width.w8.bits), Passes (readInsert
      Width.w8 o.src) s.begin v u) ∧
    (∃ (o : VGMask) (s : State), VexReady (avx o.l) s) ∧
    (∃ (s : State), VexReady [.avx] s ∧ ∃ (m : MemRef) (u : State) (as : List Nat), Passes (resolveVec .write .free m 16)
      s.begin as u) ∧
    (∃ (o : VVXI) (s u : State) (v : BitVec (8 * 16)), VexReady [.avx] s ∧ Passes (readXm .free 16 o.b) s.begin v u) ∧
    (∃ (o : VVXI) (s u : State) (b : BitVec (8 * 32)), VexReady [.avx2] s ∧ Passes (readXm .free 32 o.b) s.begin b u) ∧
    (∃ (s : State), VexReady [.avx] s ∧ ∃ (l : VLen) (mask : Reg) (m : MemRef) (u : State) (ps : List (Option (List
      Nat))), Passes (maskedParts .read m 4 ((lanes (8 * 4) (s.vec l mask)).map (·.msb)) 0) s.begin ps u) ∧
    (∃ (s : State), VexReady [.avx] s ∧ ∃ (l : VLen) (m : MemRef) (mask : Reg) (u : State) (ps : List (Option (List
      Nat))), Passes (maskedParts .write m 4 ((lanes (8 * 4) (s.vec l mask)).map (·.msb)) 0) s.begin ps u) ∧
    (∃ (o : VGather) (s u : State), (o.dst ≠ o.mask ∧ o.dst ≠ o.mem.index ∧ o.mask ≠ o.mem.index) ∧ VexReady [.avx2] s ∧
      Gathered (gatherShape 32 32 o.l) o s.begin (List.range (gatherShape 32 32 o.l).count) s.begin u) ∧
    (∃ (o : VGather) (s t y : State) (f : Nat) (e : Exc), (o.dst ≠ o.mask ∧ o.dst ≠ o.mem.index ∧ o.mask ≠ o.mem.index) ∧
      VexReady [.avx2] s ∧ Gathered (gatherShape 32 32 o.l) o s.begin (List.range f) s.begin t ∧ f < (gatherShape 32 32
      o.l).count ∧ (lane (gatherShape 32 32 o.l).dw (s.ymm.get o.mask) f).msb = true ∧ AccessOnly t y ∧ Raises (resolve
      o.mem.seg .read 1 1 (s.begin.gatherAddr (gatherShape 32 32 o.l) o f) ((gatherShape 32 32 o.l).dw / 8)) t e y) ∧
    (∃ (g : GatherShape) (j : Nat), j < g.count ∧ g.dw * g.count ≤ 256) ∧
    (∃ (g : GatherShape) (o : VGather) (s0 s t : State) (n i j : Nat), g.dw * n ≤ 256 ∧ Gathered g o s0 (List.range n) s
      t ∧ (g.dw * (i + 1) ≤ 256 ∧ (n ≤ i ∨ (lane g.dw (s0.ymm.get o.mask) i).msb = false)) ∧ (g.dw * (j + 1) ≤ 256 ∧ j <
      n ∧ (lane g.dw (s0.ymm.get o.mask) j).msb = true)) := by
  refine ⟨?_, ?_, ?_, ?_, ?_, ?_, ?_, ?_, ?_, ?_, ?_, ?_, ?_, ?_, ?_, ?_, ?_, ?_, ?_, ?_, ?_, ?_, ?_, ?_, ?_, ?_, ?_, ?_⟩
  · have h0 : (check (readXm .size (vbytes (.l256 : VLen)) (.mem at2000 : Xm)) (prot 0).begin fun a1 t1 => true) = true :=
      by decide +kernel
    obtain ⟨a1, t1, p6, h1⟩ := found h0
    exact ⟨(.l256 : VLen), (prot 0), (by unfold VexReady; decide +kernel), (.mem at2000 : Xm), t1, a1, p6⟩
  · exact ⟨(prot 0), (by unfold VexReady; decide +kernel)⟩
  · have h0 : (check (resolveVec .write .size (at2000 : MemRef) (vbytes (.l256 : VLen))) (prot 0).begin fun a1 t1 => true) =
      true := by decide +kernel
    obtain ⟨a1, t1, p6, h1⟩ := found h0
    exact ⟨(.l256 : VLen), (prot 0), (by unfold VexReady; decide +kernel), (at2000 : MemRef), t1, a1, p6⟩
  · have h0 : (check (readXm .free 8 (.mem at2000 : Xm)) (prot 0).begin fun a1 t1 => true) = true := by decide +kernel
    obtain ⟨a1, t1, p5, h1⟩ := found h0
    exact ⟨(prot 0), (by unfold VexReady; decide +kernel), (.mem at2000 : Xm), t1, a1, p5⟩
  · have h0 : (check (resolveVec .write .free (at2000 : MemRef) 8) (prot 0).begin fun a1 t1 => true) = true :=
      by decide +kernel
    obtain ⟨a1, t1, p5, h1⟩ := found h0
    exact ⟨(prot 0), (by unfold VexReady; decide +kernel), (at2000 : MemRef), t1, a1, p5⟩
  · have h0 : (check (readXm .free 8 (.mem (at2000 : MemRef))) (prot 0).begin fun a1 t1 => true) = true := by decide +kernel
    obtain ⟨a1, t1, p5, h1⟩ := found h0
    exact ⟨(prot 0), (by unfold VexReady; decide +kernel), (at2000 : MemRef), t1, a1, p5⟩
  · have h0 : (check (readXm .free 8 (.mem (at2000 : MemRef))) (prot 0).begin fun a1 t1 => true) = true := by decide +kernel
    obtain ⟨a1, t1, p5, h1⟩ := found h0
    exact ⟨(prot 0), (by unfold VexReady; decide +kernel), (at2000 : MemRef), t1, a1, p5⟩
  · have h0 : (check (resolveVec .write .size (⟨.l256, at2000, 1⟩ : VMemX).mem (vbytes (⟨.l256, at2000, 1⟩ : VMemX).l))
      (prot 0).begin fun a1 t1 => true) = true := by decide +kernel
    obtain ⟨a1, t1, p5, h1⟩ := found h0
    exact ⟨(⟨.l256, at2000, 1⟩ : VMemX), (prot 0), t1, a1, (by unfold VexReady; decide +kernel), p5⟩
  · have h0 : (check (readRm Width.w32 (.mem at2000 : Rm)) (prot 0).begin fun a1 t1 => true) = true := by decide +kernel
    obtain ⟨a1, t1, p5, h1⟩ := found h0
    exact ⟨(prot 0), (by unfold VexReady; decide +kernel), (.mem at2000 : Rm), t1, a1, p5⟩
  · have h0 : (check (place .write Width.w32 (.mem at2000 : Rm)) (prot 0).begin fun a1 t1 => true) = true :=
      by decide +kernel
    obtain ⟨a1, t1, p5, h1⟩ := found h0
    exact ⟨(prot 0), (by unfold VexReady; decide +kernel), (.mem at2000 : Rm), t1, a1, p5⟩
  · have h0 : (check (readXm (if 4 < 4 then .silent else .free) 4 (⟨.l256, 1, .mem at2000⟩ : VX).src) (prot 0).begin fun a1
      t1 => true) = true := by decide +kernel
    obtain ⟨a1, t1, p5, h1⟩ := found h0
    exact ⟨(⟨.l256, 1, .mem at2000⟩ : VX), (prot 0), t1, a1, (by unfold VexReady; decide +kernel), p5⟩
  · have h0 : (check (readXm .free 16 (.mem (⟨.l256, 1, at2000⟩ : VXMem).mem)) (prot 0).begin fun a1 t1 => true) = true :=
      by decide +kernel
    obtain ⟨a1, t1, p5, h1⟩ := found h0
    exact ⟨(⟨.l256, 1, at2000⟩ : VXMem), (prot 0), t1, a1, (by unfold VexReady; decide +kernel), p5⟩
  · have h0 : (check (readXm .loose (vbytes (⟨.l256, 1, at2000⟩ : VXMem).l) (.mem (⟨.l256, 1, at2000⟩ : VXMem).mem)) (prot
      0).begin fun a1 t1 => true) = true := by decide +kernel
    obtain ⟨a1, t1, p5, h1⟩ := found h0
    exact ⟨(⟨.l256, 1, at2000⟩ : VXMem), (prot 0), t1, a1, (by unfold VexReady; decide +kernel), p5⟩
  · have h0 : (check (readXm .size (vbytes (⟨.l256, 1, at2000⟩ : VXMem).l) (.mem (⟨.l256, 1, at2000⟩ : VXMem).mem)) (prot
      0).begin fun a1 t1 => true) = true := by decide +kernel
    obtain ⟨a1, t1, p5, h1⟩ := found h0
    exact ⟨(⟨.l256, 1, at2000⟩ : VXMem), (prot 0), t1, a1, (by unfold VexReady; decide +kernel), p5⟩
  · have h0 : (check (readXm .free 8 (.mem at2000 : Xm)) (prot 0).begin fun a1 t1 => true) = true := by decide +kernel
    obtain ⟨a1, t1, p5, h1⟩ := found h0
    exact ⟨(prot 0), (by unfold VexReady; decide +kernel), (.mem at2000 : Xm), t1, a1, p5⟩
  · have h0 : (check (readXm .free 32 (.mem at2000 : Xm)) (prot 0).begin fun a1 t1 => true) = true := by decide +kernel
    obtain ⟨a1, t1, p5, h1⟩ := found h0
    exact ⟨(prot 0), (by unfold VexReady; decide +kernel), (.mem at2000 : Xm), t1, a1, p5⟩
  · have h0 : (check (insertPsSource (⟨.l256, 1, 2, .mem at2000, 1⟩ : VVXI).imm (⟨.l256, 1, 2, .mem at2000, 1⟩ : VVXI).b)
      (prot 0).begin fun a1 t1 => true) = true := by decide +kernel
    obtain ⟨a1, t1, p5, h1⟩ := found h0
    exact ⟨(prot 0), (by unfold VexReady; decide +kernel), (⟨.l256, 1, 2, .mem at2000, 1⟩ : VVXI), t1, a1, p5⟩
  · have h0 : (check (readInsert Width.w8 (⟨1, 2, .mem at2000, 1⟩ : VInsOps).src) (prot 0).begin fun a1 t1 => true) = true
      := by decide +kernel
    obtain ⟨a1, t1, p5, h1⟩ := found h0
    exact ⟨(prot 0), (by unfold VexReady; decide +kernel), (⟨1, 2, .mem at2000, 1⟩ : VInsOps), t1, a1, p5⟩
  · exact ⟨(⟨.l256, 1, 2⟩ : VGMask), (prot 0), (by unfold VexReady; decide +kernel)⟩
  · have h0 : (check (resolveVec .write .free (at2000 : MemRef) 16) (prot 0).begin fun a1 t1 => true) = true :=
      by decide +kernel
    obtain ⟨a1, t1, p5, h1⟩ := found h0
    exact ⟨(prot 0), (by unfold VexReady; decide +kernel), (at2000 : MemRef), t1, a1, p5⟩
  · have h0 : (check (readXm .free 16 (⟨.l256, 1, 2, .mem at2000, 1⟩ : VVXI).b) (prot 0).begin fun a1 t1 => true) = true :=
      by decide +kernel
    obtain ⟨a1, t1, p5, h1⟩ := found h0
    exact ⟨(⟨.l256, 1, 2, .mem at2000, 1⟩ : VVXI), (prot 0), t1, a1, (by unfold VexReady; decide +kernel), p5⟩
  · have h0 : (check (readXm .free 32 (⟨.l256, 1, 2, .mem at2000, 1⟩ : VVXI).b) (prot 0).begin fun a1 t1 => true) = true :=
      by decide +kernel
    obtain ⟨a1, t1, p5, h1⟩ := found h0
    exact ⟨(⟨.l256, 1, 2, .mem at2000, 1⟩ : VVXI), (prot 0), t1, a1, (by unfold VexReady; decide +kernel), p5⟩
  · have h0 : (check (maskedParts .read (at2000 : MemRef) 4 ((lanes (8 * 4) ((prot 0).vec (.l256 : VLen) (1 : Reg))).map
      (·.msb)) 0) (prot 0).begin fun a1 t1 => true) = true := by decide +kernel
    obtain ⟨a1, t1, p7, h1⟩ := found h0
    exact ⟨(prot 0), (by unfold VexReady; decide +kernel), (.l256 : VLen), (1 : Reg), (at2000 : MemRef), t1, a1, p7⟩
  · have h0 : (check (maskedParts .write (at2000 : MemRef) 4 ((lanes (8 * 4) ((prot 0).vec (.l256 : VLen) (1 : Reg))).map
      (·.msb)) 0) (prot 0).begin fun a1 t1 => true) = true := by decide +kernel
    obtain ⟨a1, t1, p7, h1⟩ := found h0
    exact ⟨(prot 0), (by unfold VexReady; decide +kernel), (.l256 : VLen), (at2000 : MemRef), (1 : Reg), t1, a1, p7⟩
  · let s : State := masked (prot 0)
    obtain ⟨u, h⟩ := gathered (g := gatherShape 32 32 .l128) (o := gather4) (s0 := s.begin) (js := List.range 4) (s :=
      s.begin) (by decide +kernel)
    exact ⟨gather4, s, u, by decide +kernel, by unfold VexReady; decide +kernel, h⟩
  · let s : State := masked
      { prot 0 with seg := sixSegs (flatSeg true 0 8 false true) { flatSeg false 0 0x10 false true with limit := 0xFFF } }
    have h0 : checkRaise (resolve gather4.mem.seg .read 1 1 (s.begin.gatherAddr (gatherShape 32 32 .l128) gather4 0) 4)
      s.begin (fun _ u =>
      decide (u = s.begin) && true) = true := by decide +kernel
    obtain ⟨x, u, h, h1⟩ := raised h0
    obtain ⟨rfl, _⟩ := both h1
    exact ⟨gather4, s, _, _, 0, x, by decide +kernel, by unfold VexReady; decide +kernel, rfl, by decide +kernel,
      by decide +kernel, .refl _, h⟩
  · exact ⟨gatherShape 32 32 .l256, 7, by decide⟩
  · let s : State := masked (prot 0)
    obtain ⟨u, h⟩ := gathered (g := gatherShape 32 32 .l128) (o := gather4) (s0 := s) (js := List.range 4) (s := s)
      (by decide +kernel)
    exact ⟨_, gather4, s, s, u, 4, 1, 2, by decide +kernel, h, by decide +kernel, by decide +kernel⟩

/-- The hypotheses of `Obligations.StringCompareResults` can be met, clause by clause. -/
theorem witness_StringCompareResults :
    (∃ (o : StrCmp) (s u : State) (b : BitVec (8 * 16)) (e r : StrRun), SseReady .sse42 s ∧ Passes (readXm .free 16
      o.src) s.begin b u ∧ e = strExplicit o.imm (u.reg o.w rAX) (u.reg o.w rDX) (u.xmm o.dst) b ∧ r = strImplicit o.imm
      (u.xmm o.dst) b) ∧
    (∃ (o : XXI) (s u : State) (b : BitVec (8 * 16)) (r : StrRun), SseReady .sse42 s ∧ Passes (readXm .free 16 o.src)
      s.begin b u ∧ r = strImplicit o.imm (u.xmm o.dst) b) ∧
    (∃ (o : VXI) (s u : State) (b : BitVec (8 * 16)) (e r : StrRun), VexReady [.avx] s ∧ Passes (readXm .free 16 o.src)
      s.begin b u ∧ e = strExplicit o.imm (u.reg .w32 rAX) (u.reg .w32 rDX) (u.xmm o.dst) b ∧ r = strImplicit o.imm
      (u.xmm o.dst) b) := by
  refine ⟨?_, ?_, ?_⟩
  · have h0 : (check (readXm .free 16 (⟨.w32, 1, .mem at2000, 0⟩ : StrCmp).src) (prot 0).begin fun a1 t1 => true) = true :=
      by decide +kernel
    obtain ⟨a1, t1, p7, h1⟩ := found h0
    exact ⟨(⟨.w32, 1, .mem at2000, 0⟩ : StrCmp), (prot 0), t1, a1, (strExplicit (⟨.w32, 1, .mem at2000, 0⟩ : StrCmp).imm
      (t1.reg (⟨.w32, 1, .mem at2000, 0⟩ : StrCmp).w rAX) (t1.reg (⟨.w32, 1, .mem at2000, 0⟩ : StrCmp).w rDX) (t1.xmm
      (⟨.w32, 1, .mem at2000, 0⟩ : StrCmp).dst) a1 : StrRun), (strImplicit (⟨.w32, 1, .mem at2000, 0⟩ : StrCmp).imm (t1.xmm
      (⟨.w32, 1, .mem at2000, 0⟩ : StrCmp).dst) a1 : StrRun), (by unfold SseReady; decide +kernel), p7, rfl, rfl⟩
  · have h0 : (check (readXm .free 16 (⟨1, .mem at2000, 1⟩ : XXI).src) (prot 0).begin fun a1 t1 => true) = true :=
      by decide +kernel
    obtain ⟨a1, t1, p6, h1⟩ := found h0
    exact ⟨(⟨1, .mem at2000, 1⟩ : XXI), (prot 0), t1, a1, (strImplicit (⟨1, .mem at2000, 1⟩ : XXI).imm (t1.xmm (⟨1, .mem
      at2000, 1⟩ : XXI).dst) a1 : StrRun), (by unfold SseReady; decide +kernel), p6, rfl⟩
  · have h0 : (check (readXm .free 16 (⟨.l256, 1, .mem at2000, 1⟩ : VXI).src) (prot 0).begin fun a1 t1 => true) = true :=
      by decide +kernel
    obtain ⟨a1, t1, p7, h1⟩ := found h0
    exact ⟨(⟨.l256, 1, .mem at2000, 1⟩ : VXI), (prot 0), t1, a1, (strExplicit (⟨.l256, 1, .mem at2000, 1⟩ : VXI).imm (t1.reg
      .w32 rAX) (t1.reg .w32 rDX) (t1.xmm (⟨.l256, 1, .mem at2000, 1⟩ : VXI).dst) a1 : StrRun), (strImplicit (⟨.l256, 1,
      .mem at2000, 1⟩ : VXI).imm (t1.xmm (⟨.l256, 1, .mem at2000, 1⟩ : VXI).dst) a1 : StrRun),
      (by unfold VexReady; decide +kernel), p7, rfl, rfl⟩

/-- The hypotheses of `Obligations.X87Forms` can be met, clause by clause. -/
theorem witness_X87Forms :
    (∃ (s : State), FpuReady s) ∧
    (∃ (s : State), FpuReady s ∧ s.has .cmov = true) ∧
    (∃ (s : State), s.has .cmov = true ∧ FpuReady s) ∧
    (∃ (m : MemRef) (s : State), FpuReady s ∧ ∃ (u : State) (v : Nat), Passes (readFpu m 4 4) (s.begin.fpuEntered s.rip
      (some m)) v u) ∧
    (∃ (m : MemRef) (s : State), FpuReady s ∧ ∃ (u : State) (as : List Nat), Passes (placeFpu m 4 4) (s.begin.fpuEntered
      s.rip (some m)) as u) ∧
    (∃ (m : MemRef) (s : State), FpuReady s ∧ s.has .sse3 = true ∧ ∃ (u : State) (as : List Nat), Passes (placeFpu m 2 2)
      (s.begin.fpuEntered s.rip (some m)) as u) ∧
    (∃ (m : MemRef) (s : State), FpuReady s ∧ ∃ (u : State) (w : Nat), Passes (readFpu m 4 4) (s.begin.fpuEntered s.rip
      (some m)) w u) ∧
    (∃ (m : MemRef) (s u : State) (w : Nat), FpuReady s ∧ Passes (readFpu m 10 8) (s.begin.fpuEntered s.rip (some m)) w u) := by
  refine ⟨?_, ?_, ?_, ?_, ?_, ?_, ?_, ?_⟩
  · exact ⟨(prot 0), (by unfold FpuReady FpuThere; decide +kernel)⟩
  · have h0 : (decide ((prot 0).has .cmov = true) && true) = true := by decide +kernel
    obtain ⟨p2, h1⟩ := both h0
    exact ⟨(prot 0), (by unfold FpuReady FpuThere; decide +kernel), p2⟩
  · have h0 : (decide ((prot 0).has .cmov = true) && true) = true := by decide +kernel
    obtain ⟨p1, h1⟩ := both h0
    exact ⟨(prot 0), p1, (by unfold FpuReady FpuThere; decide +kernel)⟩
  · have h0 : (check (readFpu (at2000 : MemRef) 4 4) ((prot 0).begin.fpuEntered (prot 0).rip (some (at2000 : MemRef))) fun
      a1 t1 => true) = true := by decide +kernel
    obtain ⟨a1, t1, p5, h1⟩ := found h0
    exact ⟨(at2000 : MemRef), (prot 0), (by unfold FpuReady FpuThere; decide +kernel), t1, a1, p5⟩
  · have h0 : (check (placeFpu (at2000 : MemRef) 4 4) ((prot 0).begin.fpuEntered (prot 0).rip (some (at2000 : MemRef))) fun
      a1 t1 => true) = true := by decide +kernel
    obtain ⟨a1, t1, p5, h1⟩ := found h0
    exact ⟨(at2000 : MemRef), (prot 0), (by unfold FpuReady FpuThere; decide +kernel), t1, a1, p5⟩
  · have h0 : (decide ((prot 0).has .sse3 = true) && (check (placeFpu (at2000 : MemRef) 2 2) ((prot 0).begin.fpuEntered
      (prot 0).rip (some (at2000 : MemRef))) fun a1 t1 => true)) = true := by decide +kernel
    obtain ⟨p3, h1⟩ := both h0
    obtain ⟨a1, t1, p6, h2⟩ := found h1
    exact ⟨(at2000 : MemRef), (prot 0), (by unfold FpuReady FpuThere; decide +kernel), p3, t1, a1, p6⟩
  · have h0 : (check (readFpu (at2000 : MemRef) 4 4) ((prot 0).begin.fpuEntered (prot 0).rip (some (at2000 : MemRef))) fun
      a1 t1 => true) = true := by decide +kernel
    obtain ⟨a1, t1, p5, h1⟩ := found h0
    exact ⟨(at2000 : MemRef), (prot 0), (by unfold FpuReady FpuThere; decide +kernel), t1, a1, p5⟩
  · have h0 : (check (readFpu (at2000 : MemRef) 10 8) ((prot 0).begin.fpuEntered (prot 0).rip (some (at2000 : MemRef))) fun
      a1 t1 => true) = true := by decide +kernel
    obtain ⟨a1, t1, p5, h1⟩ := found h0
    exact ⟨(at2000 : MemRef), (prot 0), t1, a1, (by unfold FpuReady FpuThere; decide +kernel), p5⟩

/-- The hypotheses of `Obligations.X87Control` can be met, clause by clause. -/
theorem witness_X87Control :
    (∃ (s : State), FpuThere s) ∧
    (∃ (m : MemRef) (s u : State) (v : Nat), FpuReady s ∧ Passes (readFpu m 2 2) s.begin v u) ∧
    (∃ (m : MemRef) (s u : State) (as : List Nat), Passes (placeFpu m 2 2) s.begin as u ∧ FpuThere s) ∧
    (∃ (o : FpEnv) (s u : State) (as : List Nat), FpuThere s ∧ Passes (placeFpu o.mem (envSize o.w) (envAlign o.w))
      s.begin as u) ∧
    (∃ (o : FpEnv) (s u : State) (as : List Nat), FpuThere s ∧ Passes (placeFpu o.mem (envSize o.w + 80) (envAlign o.w))
      s.begin as u) ∧
    (∃ (o : FpEnv) (s u : State) (v : Nat), FpuReady s ∧ Passes (readFpu o.mem (envSize o.w) (envAlign o.w)) s.begin v u) ∧
    (∃ (o : FpEnv) (s u : State) (v : Nat), FpuReady s ∧ Passes (readFpu o.mem (envSize o.w + 80) (envAlign o.w)) s.begin
      v u) ∧
    (∃ (s : State), (s.cr0Bit 1 = false ∨ s.cr0Bit 3 = false) ∧ s.fpu.es = false) ∧
    (∃ (s : State), FpuReady s) ∧
    (∃ (s : State), FpuReady s ∧ ∃ (m : MemRef) (t u : State) (as : List Nat), Passes waitOnly s.begin () t ∧ Passes
      (placeFpu m 2 2) t as u) ∧
    (∃ (s : State), FpuReady s ∧ ∃ (o : FpEnv) (t u : State) (as : List Nat), Passes waitOnly s.begin () t ∧ Passes
      (placeFpu o.mem (envSize o.w) (envAlign o.w)) t as u) ∧
    (∃ (s : State), FpuReady s ∧ ∃ (o : FpEnv) (t u : State) (as : List Nat), Passes waitOnly s.begin () t ∧ Passes
      (placeFpu o.mem (envSize o.w + 80) (envAlign o.w)) t as u) := by
  refine ⟨?_, ?_, ?_, ?_, ?_, ?_, ?_, ?_, ?_, ?_, ?_, ?_⟩
  · exact ⟨(prot 0), (by unfold FpuThere; decide +kernel)⟩
  · have h0 : (check (readFpu (at2000 : MemRef) 2 2) (prot 0).begin fun a1 t1 => true) = true := by decide +kernel
    obtain ⟨a1, t1, p5, h1⟩ := found h0
    exact ⟨(at2000 : MemRef), (prot 0), t1, a1, (by unfold FpuReady FpuThere; decide +kernel), p5⟩
  · have h0 : (check (placeFpu (at2000 : MemRef) 2 2) (prot 0).begin fun a1 t1 => true) = true := by decide +kernel
    obtain ⟨a1, t1, p4, h1⟩ := found h0
    exact ⟨(at2000 : MemRef), (prot 0), t1, a1, p4, (by unfold FpuThere; decide +kernel)⟩
  · have h0 : (check (placeFpu (⟨.w32, at2000⟩ : FpEnv).mem (envSize (⟨.w32, at2000⟩ : FpEnv).w) (envAlign (⟨.w32, at2000⟩ :
      FpEnv).w)) (prot 0).begin fun a1 t1 => true) = true := by decide +kernel
    obtain ⟨a1, t1, p5, h1⟩ := found h0
    exact ⟨(⟨.w32, at2000⟩ : FpEnv), (prot 0), t1, a1, (by unfold FpuThere; decide +kernel), p5⟩
  · have h0 : (check (placeFpu (⟨.w32, at2000⟩ : FpEnv).mem (envSize (⟨.w32, at2000⟩ : FpEnv).w + 80) (envAlign (⟨.w32,
      at2000⟩ : FpEnv).w)) (prot 0).begin fun a1 t1 => true) = true := by decide +kernel
    obtain ⟨a1, t1, p5, h1⟩ := found h0
    exact ⟨(⟨.w32, at2000⟩ : FpEnv), (prot 0), t1, a1, (by unfold FpuThere; decide +kernel), p5⟩
  · have h0 : (check (readFpu (⟨.w32, at2000⟩ : FpEnv).mem (envSize (⟨.w32, at2000⟩ : FpEnv).w) (envAlign (⟨.w32, at2000⟩ :
      FpEnv).w)) (prot 0).begin fun a1 t1 => true) = true := by decide +kernel
    obtain ⟨a1, t1, p5, h1⟩ := found h0
    exact ⟨(⟨.w32, at2000⟩ : FpEnv), (prot 0), t1, a1, (by unfold FpuReady FpuThere; decide +kernel), p5⟩
  · have h0 : (check (readFpu (⟨.w32, at2000⟩ : FpEnv).mem (envSize (⟨.w32, at2000⟩ : FpEnv).w + 80) (envAlign (⟨.w32,
      at2000⟩ : FpEnv).w)) (prot 0).begin fun a1 t1 => true) = true := by decide +kernel
    obtain ⟨a1, t1, p5, h1⟩ := found h0
    exact ⟨(⟨.w32, at2000⟩ : FpEnv), (prot 0), t1, a1, (by unfold FpuReady FpuThere; decide +kernel), p5⟩
  · have h0 : (decide ((prot 0).cr0Bit 1 = false ∨ (prot 0).cr0Bit 3 = false) && (decide ((prot 0).fpu.es = false) && true))
      = true := by decide +kernel
    obtain ⟨p1, h1⟩ := both h0
    obtain ⟨p2, h2⟩ := both h1
    exact ⟨(prot 0), p1, p2⟩
  · exact ⟨(prot 0), (by unfold FpuReady FpuThere; decide +kernel)⟩
  · have h0 : (check waitOnly (prot 0).begin fun a1 t1 => check (placeFpu (at2000 : MemRef) 2 2) t1 fun a2 t2 => true) =
      true := by decide +kernel
    obtain ⟨a1, t1, p6, h1⟩ := found h0
    obtain ⟨a2, t2, p7, h2⟩ := found h1
    exact ⟨(prot 0), (by unfold FpuReady FpuThere; decide +kernel), (at2000 : MemRef), t1, t2, a2, p6, p7⟩
  · have h0 : (check waitOnly (prot 0).begin fun a1 t1 => check (placeFpu (⟨.w32, at2000⟩ : FpEnv).mem (envSize (⟨.w32,
      at2000⟩ : FpEnv).w) (envAlign (⟨.w32, at2000⟩ : FpEnv).w)) t1 fun a2 t2 => true) = true := by decide +kernel
    obtain ⟨a1, t1, p6, h1⟩ := found h0
    obtain ⟨a2, t2, p7, h2⟩ := found h1
    exact ⟨(prot 0), (by unfold FpuReady FpuThere; decide +kernel), (⟨.w32, at2000⟩ : FpEnv), t1, t2, a2, p6, p7⟩
  · have h0 : (check waitOnly (prot 0).begin fun a1 t1 => check (placeFpu (⟨.w32, at2000⟩ : FpEnv).mem (envSize (⟨.w32,
      at2000⟩ : FpEnv).w + 80) (envAlign (⟨.w32, at2000⟩ : FpEnv).w)) t1 fun a2 t2 => true) = true := by decide +kernel
    obtain ⟨a1, t1, p6, h1⟩ := found h0
    obtain ⟨a2, t2, p7, h2⟩ := found h1
    exact ⟨(prot 0), (by unfold FpuReady FpuThere; decide +kernel), (⟨.w32, at2000⟩ : FpEnv), t1, t2, a2, p6, p7⟩

/-- The hypotheses of `Obligations.AddSubtractResults` can be met, clause by clause. -/
theorem witness_AddSubtractResults :
    (∃ (w : Width) (dst : Rm) (s u : State) (q : Place), Passes (place .write w dst) s.begin q u) ∧
    (∃ (w : Width) (src : Rm) (s u : State) (b : BitVec w.bits), Passes (readRm w src) s.begin b u) ∧
    (∃ (w : Width) (a : Rm) (s u : State) (x : BitVec w.bits), Passes (readRm w a) s.begin x u) ∧
    (∃ (w : Width) (b : Rm) (s u : State) (y : BitVec w.bits), Passes (readRm w b) s.begin y u) := by
  refine ⟨?_, ?_, ?_, ?_⟩
  · have h0 : (check (place .write (Width.w32 : Width) (.mem at2000 : Rm)) (prot 0).begin fun a1 t1 => true) = true :=
      by decide +kernel
    obtain ⟨a1, t1, p5, h1⟩ := found h0
    exact ⟨(Width.w32 : Width), (.mem at2000 : Rm), (prot 0), t1, a1, p5⟩
  · have h0 : (check (readRm (Width.w32 : Width) (.mem at2000 : Rm)) (prot 0).begin fun a1 t1 => true) = true :=
      by decide +kernel
    obtain ⟨a1, t1, p5, h1⟩ := found h0
    exact ⟨(Width.w32 : Width), (.mem at2000 : Rm), (prot 0), t1, a1, p5⟩
  · have h0 : (check (readRm (Width.w32 : Width) (.mem at2000 : Rm)) (prot 0).begin fun a1 t1 => true) = true :=
      by decide +kernel
    obtain ⟨a1, t1, p5, h1⟩ := found h0
    exact ⟨(Width.w32 : Width), (.mem at2000 : Rm), (prot 0), t1, a1, p5⟩
  · have h0 : (check (readRm (Width.w32 : Width) (.mem at2000 : Rm)) (prot 0).begin fun a1 t1 => true) = true :=
      by decide +kernel
    obtain ⟨a1, t1, p5, h1⟩ := found h0
    exact ⟨(Width.w32 : Width), (.mem at2000 : Rm), (prot 0), t1, a1, p5⟩

/-- The hypotheses of `Obligations.LogicResults` can be met, clause by clause. -/
theorem witness_LogicResults :
    (∃ (w : Width) (dst : Rm) (s u : State) (q : Place), Passes (place .write w dst) s.begin q u) ∧
    (∃ (w : Width) (src : Rm) (s u : State) (b : BitVec w.bits), Passes (readRm w src) s.begin b u) ∧
    (∃ (w : Width) (a : Rm) (s u : State) (x : BitVec w.bits), Passes (readRm w a) s.begin x u) := by
  refine ⟨?_, ?_, ?_⟩
  · have h0 : (check (place .write (Width.w32 : Width) (.mem at2000 : Rm)) (prot 0).begin fun a1 t1 => true) = true :=
      by decide +kernel
    obtain ⟨a1, t1, p5, h1⟩ := found h0
    exact ⟨(Width.w32 : Width), (.mem at2000 : Rm), (prot 0), t1, a1, p5⟩
  · have h0 : (check (readRm (Width.w32 : Width) (.mem at2000 : Rm)) (prot 0).begin fun a1 t1 => true) = true :=
      by decide +kernel
    obtain ⟨a1, t1, p5, h1⟩ := found h0
    exact ⟨(Width.w32 : Width), (.mem at2000 : Rm), (prot 0), t1, a1, p5⟩
  · have h0 : (check (readRm (Width.w32 : Width) (.mem at2000 : Rm)) (prot 0).begin fun a1 t1 => true) = true :=
      by decide +kernel
    obtain ⟨a1, t1, p5, h1⟩ := found h0
    exact ⟨(Width.w32 : Width), (.mem at2000 : Rm), (prot 0), t1, a1, p5⟩

/-- The hypotheses of `Obligations.MultiplyDivideResults` can be met, clause by clause. -/
theorem witness_MultiplyDivideResults :
    (∃ (w : Width) (src : Rm) (s u : State) (b : BitVec w.bits), Passes (readRm w src) s.begin b u) ∧
    (∃ (w : Width) (src : Rm) (s u : State) (b : BitVec w.bits), Passes (readRm w src) s.begin b u ∧ VexGprReady .bmi2 s) ∧
    (∃ (w : Width) (src : Rm) (s u : State) (b : BitVec w.bits), Passes (readRm w src) s.begin b u ∧ s.has .adx = true) ∧
    (∃ (w : Width) (src : Rm) (s u : State) (b : BitVec w.bits), Passes (readRm w src) s.begin b u ∧ b ≠ 0 ∧ u.dividend w
      / b.toNat < 2 ^ w.bits) ∧
    (∃ (w : Width) (src : Rm) (s u : State) (b : BitVec w.bits), Passes (readRm w src) s.begin b u ∧ b ≠ 0 ∧ ∃ (n : Int),
      n = (BitVec.ofNat (2 * w.bits) (u.dividend w)).toInt ∧ (-(2 ^ (w.bits - 1) : Int) ≤ n.tdiv b.toInt ∧ n.tdiv
      b.toInt < 2 ^ (w.bits - 1))) := by
  refine ⟨?_, ?_, ?_, ?_, ?_⟩
  · have h0 : (check (readRm (Width.w32 : Width) (.mem at2000 : Rm)) (prot 0).begin fun a1 t1 => true) = true :=
      by decide +kernel
    obtain ⟨a1, t1, p5, h1⟩ := found h0
    exact ⟨(Width.w32 : Width), (.mem at2000 : Rm), (prot 0), t1, a1, p5⟩
  · have h0 : (check (readRm (Width.w32 : Width) (.mem at2000 : Rm)) (prot 0).begin fun a1 t1 => true) = true :=
      by decide +kernel
    obtain ⟨a1, t1, p5, h1⟩ := found h0
    exact ⟨(Width.w32 : Width), (.mem at2000 : Rm), (prot 0), t1, a1, p5, (by unfold VexGprReady; decide +kernel)⟩
  · have h0 : (check (readRm (Width.w32 : Width) (.mem at2000 : Rm)) (prot 0).begin fun a1 t1 => decide ((prot 0).has .adx =
      true) && true) = true := by decide +kernel
    obtain ⟨a1, t1, p5, h1⟩ := found h0
    obtain ⟨p6, h2⟩ := both h1
    exact ⟨(Width.w32 : Width), (.mem at2000 : Rm), (prot 0), t1, a1, p5, p6⟩
  · have h0 : (check (readRm (Width.w32 : Width) (.mem at2000 : Rm)) (withDwords (prot 0) 0x2000 [0x40000]).begin fun a1 t1
      => decide (a1 ≠ 0) && (decide (t1.dividend (Width.w32 : Width) / a1.toNat < 2 ^ (Width.w32 : Width).bits) && true)) =
      true := by decide +kernel
    obtain ⟨a1, t1, p5, h1⟩ := found h0
    obtain ⟨p6, h2⟩ := both h1
    obtain ⟨p7, h3⟩ := both h2
    exact ⟨(Width.w32 : Width), (.mem at2000 : Rm), (withDwords (prot 0) 0x2000 [0x40000]), t1, a1, p5, p6, p7⟩
  · have h0 : (check (readRm (Width.w32 : Width) (.mem at2000 : Rm)) (withDwords (prot 0) 0x2000 [0x40000]).begin fun a1 t1
      => decide (a1 ≠ 0) && (decide (-(2 ^ ((Width.w32 : Width).bits - 1) : Int) ≤ ((BitVec.ofNat (2 * (Width.w32 :
      Width).bits) (t1.dividend (Width.w32 : Width))).toInt : Int).tdiv a1.toInt ∧ ((BitVec.ofNat (2 * (Width.w32 :
      Width).bits) (t1.dividend (Width.w32 : Width))).toInt : Int).tdiv a1.toInt < 2 ^ ((Width.w32 : Width).bits - 1)) &&
      true)) = true := by decide +kernel
    obtain ⟨a1, t1, p5, h1⟩ := found h0
    obtain ⟨p6, h2⟩ := both h1
    obtain ⟨p9, h3⟩ := both h2
    exact ⟨(Width.w32 : Width), (.mem at2000 : Rm), (withDwords (prot 0) 0x2000 [0x40000]), t1, a1, p5, p6, ((BitVec.ofNat
      (2 * (Width.w32 : Width).bits) (t1.dividend (Width.w32 : Width))).toInt : Int), rfl, p9⟩

/-- The hypotheses of `Obligations.DecimalAndSignResults` can be met, clause by clause. -/
theorem witness_DecimalAndSignResults :
    (∃ (s : State), s.isLong = false) ∧
    (∃ (s : State), s.isLong = false ∧ ∃ (imm al ah r : BitVec 8), al = s.reg .w8 rAX ∧ ah = s.gpVal .w8 (.hi 0) ∧ r = al
      + ah * imm) ∧
    (∃ (s : State), s.isLong = false ∧ ∃ (imm r : BitVec 8), imm ≠ 0 ∧ r = BitVec.ofNat 8 ((s.reg .w8 rAX).toNat %
      imm.toNat)) ∧
    (∃ (s : State) (low high : Bool) (al r : BitVec 8), s.isLong = false ∧ al = s.reg .w8 rAX ∧ low = needsAdjust al
      s.flags.af ∧ high = (decide (0x99 < al.toNat) || s.flags.cf) ∧ r = al + (if low then 6 else 0) + (if high then
      0x60 else 0)) ∧
    (∃ (s : State) (low high : Bool) (al r : BitVec 8), s.isLong = false ∧ al = s.reg .w8 rAX ∧ low = needsAdjust al
      s.flags.af ∧ high = (decide (0x99 < al.toNat) || s.flags.cf) ∧ r = al - (if low then 6 else 0) - (if high then
      0x60 else 0)) := by
  refine ⟨?_, ?_, ?_, ?_, ?_⟩
  · have h0 : (decide ((prot 0).isLong = false) && true) = true := by decide +kernel
    obtain ⟨p1, h1⟩ := both h0
    exact ⟨(prot 0), p1⟩
  · have h0 : (decide ((prot 0).isLong = false) && true) = true := by decide +kernel
    obtain ⟨p1, h1⟩ := both h0
    exact ⟨(prot 0), p1, (1 : BitVec 8), (show BitVec 8 from (prot 0).reg .w8 rAX), (show BitVec 8 from (prot 0).gpVal .w8
      (.hi 0)), (show BitVec 8 from (show BitVec 8 from (prot 0).reg .w8 rAX) + (show BitVec 8 from (prot 0).gpVal .w8 (.hi
      0)) * (1 : BitVec 8)), rfl, rfl, rfl⟩
  · have h0 : (decide ((prot 0).isLong = false) && (decide ((1 : BitVec 8) ≠ 0) && true)) = true := by decide +kernel
    obtain ⟨p1, h1⟩ := both h0
    obtain ⟨p4, h2⟩ := both h1
    exact ⟨(prot 0), p1, (1 : BitVec 8), (show BitVec 8 from BitVec.ofNat 8 (((prot 0).reg .w8 rAX).toNat % (1 : BitVec
      8).toNat)), p4, rfl⟩
  · have h0 : (decide ((prot 0).isLong = false) && true) = true := by decide +kernel
    obtain ⟨p5, h1⟩ := both h0
    exact ⟨(prot 0), (needsAdjust (show BitVec 8 from (prot 0).reg .w8 rAX) (prot 0).flags.af : Bool), ((decide (0x99 <
      (show BitVec 8 from (prot 0).reg .w8 rAX).toNat) || (prot 0).flags.cf) : Bool), (show BitVec 8 from (prot 0).reg .w8
      rAX), (show BitVec 8 from (show BitVec 8 from (prot 0).reg .w8 rAX) + (if (needsAdjust (show BitVec 8 from (prot
      0).reg .w8 rAX) (prot 0).flags.af : Bool) then 6 else 0) + (if ((decide (0x99 < (show BitVec 8 from (prot 0).reg .w8
      rAX).toNat) || (prot 0).flags.cf) : Bool) then 0x60 else 0)), p5, rfl, rfl, rfl, rfl⟩
  · have h0 : (decide ((prot 0).isLong = false) && true) = true := by decide +kernel
    obtain ⟨p5, h1⟩ := both h0
    exact ⟨(prot 0), (needsAdjust (show BitVec 8 from (prot 0).reg .w8 rAX) (prot 0).flags.af : Bool), ((decide (0x99 <
      (show BitVec 8 from (prot 0).reg .w8 rAX).toNat) || (prot 0).flags.cf) : Bool), (show BitVec 8 from (prot 0).reg .w8
      rAX), (show BitVec 8 from (show BitVec 8 from (prot 0).reg .w8 rAX) - (if (needsAdjust (show BitVec 8 from (prot
      0).reg .w8 rAX) (prot 0).flags.af : Bool) then 6 else 0) - (if ((decide (0x99 < (show BitVec 8 from (prot 0).reg .w8
      rAX).toNat) || (prot 0).flags.cf) : Bool) then 0x60 else 0)), p5, rfl, rfl, rfl, rfl⟩

/-- The hypotheses of `Obligations.ExchangeResults` can be met, clause by clause. -/
theorem witness_ExchangeResults :
    (∃ (w : Width) (dst : Rm) (s u : State) (q : Place), Passes (place .write w dst) s.begin q u) ∧
    (∃ (w : Width) (dst : Rm) (s u : State) (q : Place), Passes (place .write w dst) s.begin q u ∧ u.reg w rAX =
      u.placeVal w q) ∧
    (∃ (w : Width) (dst : Rm) (s u : State) (q : Place), Passes (place .write w dst) s.begin q u ∧ u.reg w rAX ≠
      u.placeVal w q) ∧
    (∃ (m : MemRef) (s u : State) (as : List Nat) (a n : Nat), ((fun sq => sq.has .cx8 = true) : (State → Prop)) s ∧
      Passes (resolveAligned .write m (2 * Width.w32.bytes) 1) s.begin as u ∧ a = (u.reg Width.w32 rDX).toNat * 2 ^
      Width.w32.bits + (u.reg Width.w32 rAX).toNat ∧ n = (u.reg Width.w32 rCX).toNat * 2 ^ Width.w32.bits + (u.reg
      Width.w32 rBX).toNat ∧ a = u.mem.readList as) ∧
    (∃ (m : MemRef) (s u : State) (as : List Nat) (a n : Nat), ((fun sq => sq.has .cx8 = true) : (State → Prop)) s ∧
      Passes (resolveAligned .write m (2 * Width.w32.bytes) 1) s.begin as u ∧ a = (u.reg Width.w32 rDX).toNat * 2 ^
      Width.w32.bits + (u.reg Width.w32 rAX).toNat ∧ n = (u.reg Width.w32 rCX).toNat * 2 ^ Width.w32.bits + (u.reg
      Width.w32 rBX).toNat ∧ a ≠ u.mem.readList as) ∧
    (∃ (dst : Rm) (src : Gp) (s u : State) (q : Place), s.isLegacySeg = false ∧ s.isLong = false ∧ Passes (place .write
      .w16 dst) s.begin q u ∧ rpl (u.placeVal .w16 q) < rpl (u.gpVal .w16 src)) ∧
    (∃ (dst : Rm) (src : Gp) (s u : State) (q : Place), s.isLegacySeg = false ∧ s.isLong = false ∧ Passes (place .write
      .w16 dst) s.begin q u ∧ ¬ rpl (u.placeVal .w16 q) < rpl (u.gpVal .w16 src)) ∧
    (∃ (w : Width) (s : State), w ≠ .w16) := by
  refine ⟨?_, ?_, ?_, ?_, ?_, ?_, ?_, ?_⟩
  · have h0 : (check (place .write (Width.w32 : Width) (.mem at2000 : Rm)) (prot 0).begin fun a1 t1 => true) = true :=
      by decide +kernel
    obtain ⟨a1, t1, p5, h1⟩ := found h0
    exact ⟨(Width.w32 : Width), (.mem at2000 : Rm), (prot 0), t1, a1, p5⟩
  · have h0 : (check (place .write (Width.w32 : Width) (.mem at2000 : Rm)) (withDwords (prot 0) 0x2000 [0x8000]).begin fun
      a1 t1 => decide (t1.reg (Width.w32 : Width) rAX = t1.placeVal (Width.w32 : Width) a1) && true) = true :=
      by decide +kernel
    obtain ⟨a1, t1, p5, h1⟩ := found h0
    obtain ⟨p6, h2⟩ := both h1
    exact ⟨(Width.w32 : Width), (.mem at2000 : Rm), (withDwords (prot 0) 0x2000 [0x8000]), t1, a1, p5, p6⟩
  · have h0 : (check (place .write (Width.w32 : Width) (.mem at2000 : Rm)) (prot 0).begin fun a1 t1 => decide (t1.reg
      (Width.w32 : Width) rAX ≠ t1.placeVal (Width.w32 : Width) a1) && true) = true := by decide +kernel
    obtain ⟨a1, t1, p5, h1⟩ := found h0
    obtain ⟨p6, h2⟩ := both h1
    exact ⟨(Width.w32 : Width), (.mem at2000 : Rm), (prot 0), t1, a1, p5, p6⟩
  · have h0 : (decide (((fun sq => sq.has .cx8 = true) : (State → Prop)) (withDwords (prot 0) 0x2000 [0x8000, 0x8000])) &&
      (check (resolveAligned .write (at2000 : MemRef) (2 * Width.w32.bytes) 1) (withDwords (prot 0) 0x2000 [0x8000,
      0x8000]).begin fun a1 t1 => decide (((t1.reg Width.w32 rDX).toNat * 2 ^ Width.w32.bits + (t1.reg Width.w32 rAX).toNat
      : Nat) = t1.mem.readList a1) && true)) = true := by decide +kernel
    obtain ⟨p6, h1⟩ := both h0
    obtain ⟨a1, t1, p7, h2⟩ := found h1
    obtain ⟨p10, h3⟩ := both h2
    exact ⟨(at2000 : MemRef), (withDwords (prot 0) 0x2000 [0x8000, 0x8000]), t1, a1, ((t1.reg Width.w32 rDX).toNat * 2 ^
      Width.w32.bits + (t1.reg Width.w32 rAX).toNat : Nat), ((t1.reg Width.w32 rCX).toNat * 2 ^ Width.w32.bits + (t1.reg
      Width.w32 rBX).toNat : Nat), p6, p7, rfl, rfl, p10⟩
  · have h0 : (decide (((fun sq => sq.has .cx8 = true) : (State → Prop)) (prot 0)) && (check (resolveAligned .write (at2000
      : MemRef) (2 * Width.w32.bytes) 1) (prot 0).begin fun a1 t1 => decide (((t1.reg Width.w32 rDX).toNat * 2 ^
      Width.w32.bits + (t1.reg Width.w32 rAX).toNat : Nat) ≠ t1.mem.readList a1) && true)) = true := by decide +kernel
    obtain ⟨p6, h1⟩ := both h0
    obtain ⟨a1, t1, p7, h2⟩ := found h1
    obtain ⟨p10, h3⟩ := both h2
    exact ⟨(at2000 : MemRef), (prot 0), t1, a1, ((t1.reg Width.w32 rDX).toNat * 2 ^ Width.w32.bits + (t1.reg Width.w32
      rAX).toNat : Nat), ((t1.reg Width.w32 rCX).toNat * 2 ^ Width.w32.bits + (t1.reg Width.w32 rBX).toNat : Nat), p6, p7,
      rfl, rfl, p10⟩
  · have h0 : (decide ((withReg (prot 0) 1 3).isLegacySeg = false) && (decide ((withReg (prot 0) 1 3).isLong = false) &&
      (check (place .write .w16 (.mem at2000 : Rm)) (withReg (prot 0) 1 3).begin fun a1 t1 => decide (rpl (t1.placeVal .w16
      a1) < rpl (t1.gpVal .w16 (.lo 1 : Gp))) && true))) = true := by decide +kernel
    obtain ⟨p5, h1⟩ := both h0
    obtain ⟨p6, h2⟩ := both h1
    obtain ⟨a1, t1, p7, h3⟩ := found h2
    obtain ⟨p8, h4⟩ := both h3
    exact ⟨(.mem at2000 : Rm), (.lo 1 : Gp), (withReg (prot 0) 1 3), t1, a1, p5, p6, p7, p8⟩
  · have h0 : (decide ((prot 0).isLegacySeg = false) && (decide ((prot 0).isLong = false) && (check (place .write .w16 (.mem
      at2000 : Rm)) (prot 0).begin fun a1 t1 => decide (¬ rpl (t1.placeVal .w16 a1) < rpl (t1.gpVal .w16 (.lo 1 : Gp))) &&
      true))) = true := by decide +kernel
    obtain ⟨p5, h1⟩ := both h0
    obtain ⟨p6, h2⟩ := both h1
    obtain ⟨a1, t1, p7, h3⟩ := found h2
    obtain ⟨p8, h4⟩ := both h3
    exact ⟨(.mem at2000 : Rm), (.lo 1 : Gp), (prot 0), t1, a1, p5, p6, p7, p8⟩
  · have h0 : (decide ((Width.w32 : Width) ≠ .w16) && true) = true := by decide +kernel
    obtain ⟨p2, h1⟩ := both h0
    exact ⟨(Width.w32 : Width), (prot 0), p2⟩

/-- The hypotheses of `Obligations.ShiftResults` can be met, clause by clause. -/
theorem witness_ShiftResults :
    (∃ (w : Width) (dst : Rm) (c : Count) (s u : State) (q : Place), Passes (place .write w dst) s.begin q u ∧ maskCount
      w (u.count c) = 0) ∧
    (∃ (w : Width) (dst : Rm) (c : Count) (m : Nat) (s u : State) (q : Place), Passes (place .write w dst) s.begin q u ∧
      m = maskCount w (u.count c) ∧ m ≠ 0) ∧
    (∃ (w : Width) (dst : Rm) (c : Count) (m : Nat) (s u : State) (q : Place) (r : BitVec w.bits), Passes (place .write w
      dst) s.begin q u ∧ m = maskCount w (u.count c) ∧ m ≠ 0 ∧ r = (u.placeVal w q).sshiftRight m) ∧
    (∃ (w : Width) (dst : Rm) (c : Count) (m : Nat) (s u : State) (q : Place) (r : BitVec w.bits), Passes (place .write w
      dst) s.begin q u ∧ m = maskCount w (u.count c) ∧ m ≠ 0 ∧ r = (u.placeVal w q).rotateLeft m) ∧
    (∃ (w : Width) (dst : Rm) (c : Count) (m : Nat) (s u : State) (q : Place) (r : BitVec w.bits), Passes (place .write w
      dst) s.begin q u ∧ m = maskCount w (u.count c) ∧ m ≠ 0 ∧ r = (u.placeVal w q).rotateRight m) ∧
    (∃ (w : Width) (dst : Rm) (c : Count) (m : Nat) (s u : State) (q : Place) (x : BitVec (w.bits + 1)), Passes (place
      .write w dst) s.begin q u ∧ m = maskCount w (u.count c) ∧ m ≠ 0 ∧ x = (withCarry u.flags.cf (u.placeVal w
      q)).rotateLeft m) ∧
    (∃ (w : Width) (dst : Rm) (c : Count) (m : Nat) (s u : State) (q : Place) (x : BitVec (w.bits + 1)), Passes (place
      .write w dst) s.begin q u ∧ m = maskCount w (u.count c) ∧ m ≠ 0 ∧ x = (withCarry u.flags.cf (u.placeVal w
      q)).rotateRight m) ∧
    (∃ (w : Width) (dst : Rm) (c : Count) (m : Nat) (s u : State) (q : Place), Passes (place .write w dst) s.begin q u ∧
      m = maskCount w (u.count c) ∧ m = 0) ∧
    (∃ (w : Width) (dst : Rm) (src : Reg) (c : Count) (m : Nat) (s u : State) (q : Place), Passes (place .write w dst)
      s.begin q u ∧ m = maskCount w (u.count c) ∧ ∃ (r : BitVec w.bits) (cf : Bool), 0 < m ∧ m ≤ w.bits ∧ (r, cf) =
      ((fun nq mq aq bq => ((((aq ++ bq) <<< mq : BitVec (nq + nq))).extractLsb' nq nq, aq.getLsbD (nq - mq))) : ((n :
      Nat) → Nat → BitVec n → BitVec n → BitVec n × Bool)) w.bits m (u.placeVal w q) (u.reg w src)) ∧
    (∃ (w : Width) (dst : Rm) (c : Count) (m : Nat) (s u : State) (q : Place), Passes (place .write w dst) s.begin q u ∧
      m = maskCount w (u.count c) ∧ w.bits < m) ∧
    (∃ (w : Width) (src : Rm) (s u : State) (b : BitVec w.bits), VexGprReady .bmi2 s ∧ Passes (readRm w src) s.begin b u) := by
  refine ⟨?_, ?_, ?_, ?_, ?_, ?_, ?_, ?_, ?_, ?_, ?_⟩
  · have h0 : (check (place .write (Width.w32 : Width) (.mem at2000 : Rm)) (prot 0).begin fun a1 t1 => decide (maskCount
      (Width.w32 : Width) (t1.count (.imm 0 : Count)) = 0) && true) = true := by decide +kernel
    obtain ⟨a1, t1, p6, h1⟩ := found h0
    obtain ⟨p7, h2⟩ := both h1
    exact ⟨(Width.w32 : Width), (.mem at2000 : Rm), (.imm 0 : Count), (prot 0), t1, a1, p6, p7⟩
  · have h0 : (check (place .write (Width.w32 : Width) (.mem at2000 : Rm)) (prot 0).begin fun a1 t1 => decide ((maskCount
      (Width.w32 : Width) (t1.count (.imm 3 : Count)) : Nat) ≠ 0) && true) = true := by decide +kernel
    obtain ⟨a1, t1, p7, h1⟩ := found h0
    obtain ⟨p9, h2⟩ := both h1
    exact ⟨(Width.w32 : Width), (.mem at2000 : Rm), (.imm 3 : Count), (maskCount (Width.w32 : Width) (t1.count (.imm 3 :
      Count)) : Nat), (prot 0), t1, a1, p7, rfl, p9⟩
  · have h0 : (check (place .write (Width.w32 : Width) (.mem at2000 : Rm)) (prot 0).begin fun a1 t1 => decide ((maskCount
      (Width.w32 : Width) (t1.count (.imm 3 : Count)) : Nat) ≠ 0) && true) = true := by decide +kernel
    obtain ⟨a1, t1, p8, h1⟩ := found h0
    obtain ⟨p10, h2⟩ := both h1
    exact ⟨(Width.w32 : Width), (.mem at2000 : Rm), (.imm 3 : Count), (maskCount (Width.w32 : Width) (t1.count (.imm 3 :
      Count)) : Nat), (prot 0), t1, a1, (show BitVec Width.w32.bits from (t1.placeVal (Width.w32 : Width) a1).sshiftRight
      (maskCount (Width.w32 : Width) (t1.count (.imm 3 : Count)) : Nat)), p8, rfl, p10, rfl⟩
  · have h0 : (check (place .write (Width.w32 : Width) (.mem at2000 : Rm)) (prot 0).begin fun a1 t1 => decide ((maskCount
      (Width.w32 : Width) (t1.count (.imm 3 : Count)) : Nat) ≠ 0) && true) = true := by decide +kernel
    obtain ⟨a1, t1, p8, h1⟩ := found h0
    obtain ⟨p10, h2⟩ := both h1
    exact ⟨(Width.w32 : Width), (.mem at2000 : Rm), (.imm 3 : Count), (maskCount (Width.w32 : Width) (t1.count (.imm 3 :
      Count)) : Nat), (prot 0), t1, a1, (show BitVec Width.w32.bits from (t1.placeVal (Width.w32 : Width) a1).rotateLeft
      (maskCount (Width.w32 : Width) (t1.count (.imm 3 : Count)) : Nat)), p8, rfl, p10, rfl⟩
  · have h0 : (check (place .write (Width.w32 : Width) (.mem at2000 : Rm)) (prot 0).begin fun a1 t1 => decide ((maskCount
      (Width.w32 : Width) (t1.count (.imm 3 : Count)) : Nat) ≠ 0) && true) = true := by decide +kernel
    obtain ⟨a1, t1, p8, h1⟩ := found h0
    obtain ⟨p10, h2⟩ := both h1
    exact ⟨(Width.w32 : Width), (.mem at2000 : Rm), (.imm 3 : Count), (maskCount (Width.w32 : Width) (t1.count (.imm 3 :
      Count)) : Nat), (prot 0), t1, a1, (show BitVec Width.w32.bits from (t1.placeVal (Width.w32 : Width) a1).rotateRight
      (maskCount (Width.w32 : Width) (t1.count (.imm 3 : Count)) : Nat)), p8, rfl, p10, rfl⟩
  · have h0 : (check (place .write (Width.w32 : Width) (.mem at2000 : Rm)) (prot 0).begin fun a1 t1 => decide ((maskCount
      (Width.w32 : Width) (t1.count (.imm 3 : Count)) : Nat) ≠ 0) && true) = true := by decide +kernel
    obtain ⟨a1, t1, p8, h1⟩ := found h0
    obtain ⟨p10, h2⟩ := both h1
    exact ⟨(Width.w32 : Width), (.mem at2000 : Rm), (.imm 3 : Count), (maskCount (Width.w32 : Width) (t1.count (.imm 3 :
      Count)) : Nat), (prot 0), t1, a1, (show BitVec (Width.w32.bits + 1) from (withCarry t1.flags.cf (t1.placeVal
      (Width.w32 : Width) a1)).rotateLeft (maskCount (Width.w32 : Width) (t1.count (.imm 3 : Count)) : Nat)), p8, rfl, p10,
      rfl⟩
  · have h0 : (check (place .write (Width.w32 : Width) (.mem at2000 : Rm)) (prot 0).begin fun a1 t1 => decide ((maskCount
      (Width.w32 : Width) (t1.count (.imm 3 : Count)) : Nat) ≠ 0) && true) = true := by decide +kernel
    obtain ⟨a1, t1, p8, h1⟩ := found h0
    obtain ⟨p10, h2⟩ := both h1
    exact ⟨(Width.w32 : Width), (.mem at2000 : Rm), (.imm 3 : Count), (maskCount (Width.w32 : Width) (t1.count (.imm 3 :
      Count)) : Nat), (prot 0), t1, a1, (show BitVec (Width.w32.bits + 1) from (withCarry t1.flags.cf (t1.placeVal
      (Width.w32 : Width) a1)).rotateRight (maskCount (Width.w32 : Width) (t1.count (.imm 3 : Count)) : Nat)), p8, rfl, p10,
      rfl⟩
  · have h0 : (check (place .write (Width.w32 : Width) (.mem at2000 : Rm)) (prot 0).begin fun a1 t1 => decide ((maskCount
      (Width.w32 : Width) (t1.count (.imm 0 : Count)) : Nat) = 0) && true) = true := by decide +kernel
    obtain ⟨a1, t1, p7, h1⟩ := found h0
    obtain ⟨p9, h2⟩ := both h1
    exact ⟨(Width.w32 : Width), (.mem at2000 : Rm), (.imm 0 : Count), (maskCount (Width.w32 : Width) (t1.count (.imm 0 :
      Count)) : Nat), (prot 0), t1, a1, p7, rfl, p9⟩
  · have h0 : (check (place .write (Width.w16 : Width) (.mem at2000 : Rm)) (prot 0).begin fun a1 t1 => decide (0 <
      (maskCount (Width.w16 : Width) (t1.count (.imm 16 : Count)) : Nat)) && (decide ((maskCount (Width.w16 : Width)
      (t1.count (.imm 16 : Count)) : Nat) ≤ (Width.w16 : Width).bits) && true)) = true := by decide +kernel
    obtain ⟨a1, t1, p8, h1⟩ := found h0
    obtain ⟨p12, h2⟩ := both h1
    obtain ⟨p13, h3⟩ := both h2
    exact ⟨(Width.w16 : Width), (.mem at2000 : Rm), (1 : Reg), (.imm 16 : Count), (maskCount (Width.w16 : Width) (t1.count
      (.imm 16 : Count)) : Nat), (prot 0), t1, a1, p8, rfl, (((fun nq mq aq bq => ((((aq ++ bq) <<< mq : BitVec (nq +
      nq))).extractLsb' nq nq, aq.getLsbD (nq - mq))) : ((n : Nat) → Nat → BitVec n → BitVec n → BitVec n × Bool))
      (Width.w16 : Width).bits (maskCount (Width.w16 : Width) (t1.count (.imm 16 : Count)) : Nat) (t1.placeVal (Width.w16 :
      Width) a1) (t1.reg (Width.w16 : Width) (1 : Reg))).1, (((fun nq mq aq bq => ((((aq ++ bq) <<< mq : BitVec (nq +
      nq))).extractLsb' nq nq, aq.getLsbD (nq - mq))) : ((n : Nat) → Nat → BitVec n → BitVec n → BitVec n × Bool))
      (Width.w16 : Width).bits (maskCount (Width.w16 : Width) (t1.count (.imm 16 : Count)) : Nat) (t1.placeVal (Width.w16 :
      Width) a1) (t1.reg (Width.w16 : Width) (1 : Reg))).2, p12, p13, rfl⟩
  · have h0 : (check (place .write (Width.w16 : Width) (.mem at2000 : Rm)) (prot 0).begin fun a1 t1 => decide ((Width.w16 :
      Width).bits < (maskCount (Width.w16 : Width) (t1.count (.imm 17 : Count)) : Nat)) && true) = true := by decide +kernel
    obtain ⟨a1, t1, p7, h1⟩ := found h0
    obtain ⟨p9, h2⟩ := both h1
    exact ⟨(Width.w16 : Width), (.mem at2000 : Rm), (.imm 17 : Count), (maskCount (Width.w16 : Width) (t1.count (.imm 17 :
      Count)) : Nat), (prot 0), t1, a1, p7, rfl, p9⟩
  · have h0 : (check (readRm (Width.w32 : Width) (.mem at2000 : Rm)) (prot 0).begin fun a1 t1 => true) = true :=
      by decide +kernel
    obtain ⟨a1, t1, p6, h1⟩ := found h0
    exact ⟨(Width.w32 : Width), (.mem at2000 : Rm), (prot 0), t1, a1, (by unfold VexGprReady; decide +kernel), p6⟩

/-- The hypotheses of `Obligations.BitResults` can be met, clause by clause. -/
theorem witness_BitResults :
    (∃ (o : BitOps) (s u : State) (q : Place) (i : Nat), Passes (bitPlace .read o) s.begin (q, i) u) ∧
    (∃ (o : BitOps) (s u : State) (q : Place) (i : Nat) (b : Bool), Passes (bitPlace .write o) s.begin (q, i) u ∧ b =
      (u.placeVal o.w q).getLsbD i) ∧
    (∃ (w : Width) (src : Rm) (s u : State) (a : BitVec w.bits), ((fun _ => True) : (State → Prop)) s ∧ Passes (readRm w
      src) s.begin a u ∧ a ≠ 0) ∧
    (∃ (w : Width) (src : Rm) (s u : State) (a : BitVec w.bits), ((fun _ => True) : (State → Prop)) s ∧ Passes (readRm w
      src) s.begin a u ∧ a = 0) ∧
    (∃ (w : Width) (src : Rm) (s u : State) (a : BitVec w.bits), s.has .bmi1 = true ∧ Passes (readRm w src) s.begin a u) ∧
    (∃ (w : Width) (src : Rm) (s u : State) (a : BitVec w.bits), s.has .popcnt = true ∧ Passes (readRm w src) s.begin a u) ∧
    (∃ (w : Width) (a : Reg) (src : Rm) (s u : State) (b r : BitVec w.bits), Passes (readRm w src) s.begin b u ∧
      VexGprReady .bmi1 s ∧ r = ~~~(u.reg w a) &&& b) ∧
    (∃ (w : Width) (a : Reg) (src : Rm) (s u : State) (b r : BitVec w.bits), Passes (readRm w src) s.begin b u ∧
      VexGprReady .bmi1 s ∧ r = BitVec.ofNat w.bits (b.toNat / 2 ^ ((u.reg w a).toNat % 256) % 2 ^ ((u.reg w a).toNat /
      256 % 256))) ∧
    (∃ (w : Width) (a : Reg) (src : Rm) (s u : State) (b r : BitVec w.bits), Passes (readRm w src) s.begin b u ∧
      VexGprReady .bmi2 s ∧ r = BitVec.ofNat w.bits (b.toNat % 2 ^ ((u.reg w a).toNat % 256))) ∧
    (∃ (w : Width) (src : Rm) (s u : State) (b : BitVec w.bits), Passes (readRm w src) s.begin b u ∧ VexGprReady .bmi2 s) ∧
    (∃ (w : Width) (src : Rm) (s u : State) (a : BitVec w.bits), VexGprReady .bmi1 s ∧ Passes (readRm w src) s.begin a u) ∧
    (∃ (o : CrcOps) (s u : State) (v : BitVec o.sw.bits), s.has .sse42 = true ∧ Passes (readRm o.sw o.src) s.begin v u) := by
  refine ⟨?_, ?_, ?_, ?_, ?_, ?_, ?_, ?_, ?_, ?_, ?_, ?_⟩
  · have h0 : (check (bitPlace .read (⟨.w32, .mem at2000, .imm 3⟩ : BitOps)) (prot 0).begin fun a1 t1 => true) = true :=
      by decide +kernel
    obtain ⟨a1, t1, p5, h1⟩ := found h0
    exact ⟨(⟨.w32, .mem at2000, .imm 3⟩ : BitOps), (prot 0), t1, a1.1, a1.2, p5⟩
  · have h0 : (check (bitPlace .write (⟨.w32, .mem at2000, .imm 3⟩ : BitOps)) (prot 0).begin fun a1 t1 => true) = true :=
      by decide +kernel
    obtain ⟨a1, t1, p6, h1⟩ := found h0
    exact ⟨(⟨.w32, .mem at2000, .imm 3⟩ : BitOps), (prot 0), t1, a1.1, a1.2, ((t1.placeVal (⟨.w32, .mem at2000, .imm 3⟩ :
      BitOps).w a1.1).getLsbD a1.2 : Bool), p6, rfl⟩
  · have h0 : (decide (((fun _ => True) : (State → Prop)) (withDwords (prot 0) 0x2000 [0x40000])) && (check (readRm
      (Width.w32 : Width) (.mem at2000 : Rm)) (withDwords (prot 0) 0x2000 [0x40000]).begin fun a1 t1 => decide (a1 ≠ 0) &&
      true)) = true := by decide +kernel
    obtain ⟨p5, h1⟩ := both h0
    obtain ⟨a1, t1, p6, h2⟩ := found h1
    obtain ⟨p7, h3⟩ := both h2
    exact ⟨(Width.w32 : Width), (.mem at2000 : Rm), (withDwords (prot 0) 0x2000 [0x40000]), t1, a1, p5, p6, p7⟩
  · have h0 : (decide (((fun _ => True) : (State → Prop)) (prot 0)) && (check (readRm (Width.w32 : Width) (.mem at2000 :
      Rm)) (prot 0).begin fun a1 t1 => decide (a1 = 0) && true)) = true := by decide +kernel
    obtain ⟨p5, h1⟩ := both h0
    obtain ⟨a1, t1, p6, h2⟩ := found h1
    obtain ⟨p7, h3⟩ := both h2
    exact ⟨(Width.w32 : Width), (.mem at2000 : Rm), (prot 0), t1, a1, p5, p6, p7⟩
  · have h0 : (decide ((prot 0).has .bmi1 = true) && (check (readRm (Width.w32 : Width) (.mem at2000 : Rm)) (prot 0).begin
      fun a1 t1 => true)) = true := by decide +kernel
    obtain ⟨p5, h1⟩ := both h0
    obtain ⟨a1, t1, p6, h2⟩ := found h1
    exact ⟨(Width.w32 : Width), (.mem at2000 : Rm), (prot 0), t1, a1, p5, p6⟩
  · have h0 : (decide ((prot 0).has .popcnt = true) && (check (readRm (Width.w32 : Width) (.mem at2000 : Rm)) (prot 0).begin
      fun a1 t1 => true)) = true := by decide +kernel
    obtain ⟨p5, h1⟩ := both h0
    obtain ⟨a1, t1, p6, h2⟩ := found h1
    exact ⟨(Width.w32 : Width), (.mem at2000 : Rm), (prot 0), t1, a1, p5, p6⟩
  · have h0 : (check (readRm (Width.w32 : Width) (.mem at2000 : Rm)) (prot 0).begin fun a1 t1 => true) = true :=
      by decide +kernel
    obtain ⟨a1, t1, p7, h1⟩ := found h0
    exact ⟨(Width.w32 : Width), (1 : Reg), (.mem at2000 : Rm), (prot 0), t1, a1, (show BitVec Width.w32.bits from ~~~(t1.reg
      (Width.w32 : Width) (1 : Reg)) &&& a1), p7, (by unfold VexGprReady; decide +kernel), rfl⟩
  · have h0 : (check (readRm (Width.w32 : Width) (.mem at2000 : Rm)) (prot 0).begin fun a1 t1 => true) = true :=
      by decide +kernel
    obtain ⟨a1, t1, p7, h1⟩ := found h0
    exact ⟨(Width.w32 : Width), (1 : Reg), (.mem at2000 : Rm), (prot 0), t1, a1, (show BitVec Width.w32.bits from
      BitVec.ofNat (Width.w32 : Width).bits (a1.toNat / 2 ^ ((t1.reg (Width.w32 : Width) (1 : Reg)).toNat % 256) % 2 ^
      ((t1.reg (Width.w32 : Width) (1 : Reg)).toNat / 256 % 256))), p7, (by unfold VexGprReady; decide +kernel), rfl⟩
  · have h0 : (check (readRm (Width.w32 : Width) (.mem at2000 : Rm)) (prot 0).begin fun a1 t1 => true) = true :=
      by decide +kernel
    obtain ⟨a1, t1, p7, h1⟩ := found h0
    exact ⟨(Width.w32 : Width), (1 : Reg), (.mem at2000 : Rm), (prot 0), t1, a1, (show BitVec Width.w32.bits from
      BitVec.ofNat (Width.w32 : Width).bits (a1.toNat % 2 ^ ((t1.reg (Width.w32 : Width) (1 : Reg)).toNat % 256))), p7,
      (by unfold VexGprReady; decide +kernel), rfl⟩
  · have h0 : (check (readRm (Width.w32 : Width) (.mem at2000 : Rm)) (prot 0).begin fun a1 t1 => true) = true :=
      by decide +kernel
    obtain ⟨a1, t1, p5, h1⟩ := found h0
    exact ⟨(Width.w32 : Width), (.mem at2000 : Rm), (prot 0), t1, a1, p5, (by unfold VexGprReady; decide +kernel)⟩
  · have h0 : (check (readRm (Width.w32 : Width) (.mem at2000 : Rm)) (prot 0).begin fun a1 t1 => true) = true :=
      by decide +kernel
    obtain ⟨a1, t1, p6, h1⟩ := found h0
    exact ⟨(Width.w32 : Width), (.mem at2000 : Rm), (prot 0), t1, a1, (by unfold VexGprReady; decide +kernel), p6⟩
  · have h0 : (decide ((prot 0).has .sse42 = true) && (check (readRm (⟨.w32, 1, .w16, .mem at2000⟩ : CrcOps).sw (⟨.w32, 1,
      .w16, .mem at2000⟩ : CrcOps).src) (prot 0).begin fun a1 t1 => true)) = true := by decide +kernel
    obtain ⟨p4, h1⟩ := both h0
    obtain ⟨a1, t1, p5, h2⟩ := found h1
    exact ⟨(⟨.w32, 1, .w16, .mem at2000⟩ : CrcOps), (prot 0), t1, a1, p4, p5⟩

/-- The hypotheses of `Obligations.MoveResults` can be met, clause by clause. -/
theorem witness_MoveResults :
    (∃ (w : Width) (dst : Rm) (s u : State) (q : Place), Passes (place .write w dst) s.begin q u) ∧
    (∃ (w : Width) (src : Rm) (s u : State) (v : BitVec w.bits), Passes (readRm w src) s.begin v u) ∧
    (∃ (w : Width) (src : Moffs) (s u : State) (as : List Nat), Passes (resolveMoffs .read w src) s.begin as u) ∧
    (∃ (w : Width) (dst : Moffs) (s u : State) (as : List Nat), Passes (resolveMoffs .write w dst) s.begin as u) ∧
    (∃ (sw : Width) (src : Rm) (s u : State) (v : BitVec sw.bits), Passes (readRm sw src) s.begin v u) ∧
    (∃ (w : Width) (m : MemRef) (s u : State) (v : BitVec w.bits), s.has .movbe = true ∧ Passes (readRm w (.mem m))
      s.begin v u) ∧
    (∃ (w : Width) (m : MemRef) (s u : State) (q : Place), s.has .movbe = true ∧ Passes (place .write w (.mem m)) s.begin
      q u) ∧
    (∃ (w : Width) (m : MemRef) (s u : State) (q : Place), s.has .sse2 = true ∧ Passes (place .write w (.mem m)) s.begin
      q u) ∧
    (∃ (a : ASize) (s u : State) (v : Nat), Passes (memRead .ds (a.trunc (s.gp rBX + (s.reg .w8 rAX).setWidth 64)) 1 1)
      s.begin v u) ∧
    (∃ (a : ASize) (s u : State) (v : Nat) (r : SReg), Passes (memRead r (a.trunc (s.gp rBX + (s.reg .w8 rAX).setWidth
      64)) 1 1) s.begin v u) := by
  refine ⟨?_, ?_, ?_, ?_, ?_, ?_, ?_, ?_, ?_, ?_⟩
  · have h0 : (check (place .write (Width.w32 : Width) (.mem at2000 : Rm)) (prot 0).begin fun a1 t1 => true) = true :=
      by decide +kernel
    obtain ⟨a1, t1, p5, h1⟩ := found h0
    exact ⟨(Width.w32 : Width), (.mem at2000 : Rm), (prot 0), t1, a1, p5⟩
  · have h0 : (check (readRm (Width.w32 : Width) (.mem at2000 : Rm)) (prot 0).begin fun a1 t1 => true) = true :=
      by decide +kernel
    obtain ⟨a1, t1, p5, h1⟩ := found h0
    exact ⟨(Width.w32 : Width), (.mem at2000 : Rm), (prot 0), t1, a1, p5⟩
  · have h0 : (check (resolveMoffs .read (Width.w32 : Width) (⟨none, .a32, 0x2000⟩ : Moffs)) (prot 0).begin fun a1 t1 =>
      true) = true := by decide +kernel
    obtain ⟨a1, t1, p5, h1⟩ := found h0
    exact ⟨(Width.w32 : Width), (⟨none, .a32, 0x2000⟩ : Moffs), (prot 0), t1, a1, p5⟩
  · have h0 : (check (resolveMoffs .write (Width.w32 : Width) (⟨none, .a32, 0x2000⟩ : Moffs)) (prot 0).begin fun a1 t1 =>
      true) = true := by decide +kernel
    obtain ⟨a1, t1, p5, h1⟩ := found h0
    exact ⟨(Width.w32 : Width), (⟨none, .a32, 0x2000⟩ : Moffs), (prot 0), t1, a1, p5⟩
  · have h0 : (check (readRm (Width.w32 : Width) (.mem at2000 : Rm)) (prot 0).begin fun a1 t1 => true) = true :=
      by decide +kernel
    obtain ⟨a1, t1, p5, h1⟩ := found h0
    exact ⟨(Width.w32 : Width), (.mem at2000 : Rm), (prot 0), t1, a1, p5⟩
  · have h0 : (decide ((prot 0).has .movbe = true) && (check (readRm (Width.w32 : Width) (.mem (at2000 : MemRef))) (prot
      0).begin fun a1 t1 => true)) = true := by decide +kernel
    obtain ⟨p5, h1⟩ := both h0
    obtain ⟨a1, t1, p6, h2⟩ := found h1
    exact ⟨(Width.w32 : Width), (at2000 : MemRef), (prot 0), t1, a1, p5, p6⟩
  · have h0 : (decide ((prot 0).has .movbe = true) && (check (place .write (Width.w32 : Width) (.mem (at2000 : MemRef)))
      (prot 0).begin fun a1 t1 => true)) = true := by decide +kernel
    obtain ⟨p5, h1⟩ := both h0
    obtain ⟨a1, t1, p6, h2⟩ := found h1
    exact ⟨(Width.w32 : Width), (at2000 : MemRef), (prot 0), t1, a1, p5, p6⟩
  · have h0 : (decide ((prot 0).has .sse2 = true) && (check (place .write (Width.w32 : Width) (.mem (at2000 : MemRef)))
      (prot 0).begin fun a1 t1 => true)) = true := by decide +kernel
    obtain ⟨p5, h1⟩ := both h0
    obtain ⟨a1, t1, p6, h2⟩ := found h1
    exact ⟨(Width.w32 : Width), (at2000 : MemRef), (prot 0), t1, a1, p5, p6⟩
  · have h0 : (check (memRead .ds ((.a32 : ASize).trunc ((prot 0).gp rBX + ((prot 0).reg .w8 rAX).setWidth 64)) 1 1) (prot
      0).begin fun a1 t1 => true) = true := by decide +kernel
    obtain ⟨a1, t1, p4, h1⟩ := found h0
    exact ⟨(.a32 : ASize), (prot 0), t1, a1, p4⟩
  · have h0 : (check (memRead (.es : SReg) ((.a32 : ASize).trunc ((prot 0).gp rBX + ((prot 0).reg .w8 rAX).setWidth 64)) 1
      1) (prot 0).begin fun a1 t1 => true) = true := by decide +kernel
    obtain ⟨a1, t1, p5, h1⟩ := found h0
    exact ⟨(.a32 : ASize), (prot 0), t1, a1, (.es : SReg), p5⟩

/-- The hypotheses of `Obligations.ConditionalResults` can be met, clause by clause. -/
theorem witness_ConditionalResults :
    (∃ (w : Width) (src : Rm) (s u : State) (v : BitVec w.bits), s.has .cmov = true ∧ Passes (readRm w src) s.begin v u ∧
      u.flags.holds .no = true) ∧
    (∃ (w : Width) (src : Rm) (s u : State) (v : BitVec w.bits), s.has .cmov = true ∧ Passes (readRm w src) s.begin v u ∧
      u.flags.holds .o = false ∧ (w = .w32 ∧ u.lma = true)) ∧
    (∃ (w : Width) (src : Rm) (s u : State) (v : BitVec w.bits), s.has .cmov = true ∧ Passes (readRm w src) s.begin v u ∧
      u.flags.holds .o = false ∧ (¬ (w = .w32 ∧ u.lma = true))) ∧
    (∃ (dst : Rm) (s u : State) (q : Place), Passes (place .write .w8 dst) s.begin q u) := by
  refine ⟨?_, ?_, ?_, ?_⟩
  · have h0 : (decide ((prot 0).has .cmov = true) && (check (readRm (Width.w32 : Width) (.mem at2000 : Rm)) (prot 0).begin
      fun a1 t1 => decide (t1.flags.holds .no = true) && true)) = true := by decide +kernel
    obtain ⟨p5, h1⟩ := both h0
    obtain ⟨a1, t1, p6, h2⟩ := found h1
    obtain ⟨p7, h3⟩ := both h2
    exact ⟨(Width.w32 : Width), (.mem at2000 : Rm), (prot 0), t1, a1, p5, p6, p7⟩
  · have h0 : (decide ((long 0).has .cmov = true) && (check (readRm (Width.w32 : Width) (.mem at2000 : Rm)) (long 0).begin
      fun a1 t1 => decide (t1.flags.holds .o = false) && (decide ((Width.w32 : Width) = .w32 ∧ t1.lma = true) && true))) =
      true := by decide +kernel
    obtain ⟨p5, h1⟩ := both h0
    obtain ⟨a1, t1, p6, h2⟩ := found h1
    obtain ⟨p7, h3⟩ := both h2
    obtain ⟨p8, h4⟩ := both h3
    exact ⟨(Width.w32 : Width), (.mem at2000 : Rm), (long 0), t1, a1, p5, p6, p7, p8⟩
  · have h0 : (decide ((prot 0).has .cmov = true) && (check (readRm (Width.w32 : Width) (.mem at2000 : Rm)) (prot 0).begin
      fun a1 t1 => decide (t1.flags.holds .o = false) && (decide (¬ ((Width.w32 : Width) = .w32 ∧ t1.lma = true)) && true)))
      = true := by decide +kernel
    obtain ⟨p5, h1⟩ := both h0
    obtain ⟨a1, t1, p6, h2⟩ := found h1
    obtain ⟨p7, h3⟩ := both h2
    obtain ⟨p8, h4⟩ := both h3
    exact ⟨(Width.w32 : Width), (.mem at2000 : Rm), (prot 0), t1, a1, p5, p6, p7, p8⟩
  · have h0 : (check (place .write .w8 (.mem at2000 : Rm)) (prot 0).begin fun a1 t1 => true) = true := by decide +kernel
    obtain ⟨a1, t1, p4, h1⟩ := found h0
    exact ⟨(.mem at2000 : Rm), (prot 0), t1, a1, p4⟩

/-- The hypotheses of `Obligations.FlagInstructionResults` can be met, clause by clause. -/
theorem witness_FlagInstructionResults :
    (∃ (s : State), (s.isLong = true → s.has .lahf64 = true)) ∧
    (∃ (s : State), s.ifTarget = .real) ∧
    (∃ (s : State), s.ifTarget = .virtual) ∧
    (∃ (s : State), s.ifTarget = .virtual ∧ s.flags.vip = false) ∧
    (∃ (s : State), (s.pe = false ∨ s.flags.vm = false ∧ s.cpl = 0) ∧ s.has .smap = true) ∧
    (∃ (s : State), (s.cfg.signature.extractLsb' 8 4 = 6 ∨ s.cfg.signature.extractLsb' 8 4 = 15)) ∧
    (∃ (s : State), s.has .sse2 = true) ∧
    (∃ (s : State), s.has .sse = true) := by
  refine ⟨?_, ?_, ?_, ?_, ?_, ?_, ?_, ?_⟩
  · have h0 : (decide (((prot 0).isLong = true → (prot 0).has .lahf64 = true)) && true) = true := by decide +kernel
    obtain ⟨p1, h1⟩ := both h0
    exact ⟨(prot 0), p1⟩
  · have h0 : (decide ((prot 0).ifTarget = .real) && true) = true := by decide +kernel
    obtain ⟨p1, h1⟩ := both h0
    exact ⟨(prot 0), p1⟩
  · have h0 : (decide ((({ v86 with flags := { v86.flags with iopl := 0 }, sys := { v86.sys with cr4 := 0x50601 } } : State)
      : State).ifTarget = .virtual) && true) = true := by decide +kernel
    obtain ⟨p1, h1⟩ := both h0
    exact ⟨(({ v86 with flags := { v86.flags with iopl := 0 }, sys := { v86.sys with cr4 := 0x50601 } } : State) : State),
      p1⟩
  · have h0 : (decide ((({ v86 with flags := { v86.flags with iopl := 0 }, sys := { v86.sys with cr4 := 0x50601 } } : State)
      : State).ifTarget = .virtual) && (decide
      ((({ v86 with flags := { v86.flags with iopl := 0 }, sys := { v86.sys with cr4 := 0x50601 } } : State) :
      State).flags.vip = false) && true)) = true := by decide +kernel
    obtain ⟨p1, h1⟩ := both h0
    obtain ⟨p2, h2⟩ := both h1
    exact ⟨(({ v86 with flags := { v86.flags with iopl := 0 }, sys := { v86.sys with cr4 := 0x50601 } } : State) : State),
      p1, p2⟩
  · have h0 : (decide (((prot 0).pe = false ∨ (prot 0).flags.vm = false ∧ (prot 0).cpl = 0)) && (decide ((prot 0).has .smap
      = true) && true)) = true := by decide +kernel
    obtain ⟨p1, h1⟩ := both h0
    obtain ⟨p2, h2⟩ := both h1
    exact ⟨(prot 0), p1, p2⟩
  · have h0 : (decide (((prot 0).cfg.signature.extractLsb' 8 4 = 6 ∨ (prot 0).cfg.signature.extractLsb' 8 4 = 15)) && true)
      = true := by decide +kernel
    obtain ⟨p1, h1⟩ := both h0
    exact ⟨(prot 0), p1⟩
  · have h0 : (decide ((prot 0).has .sse2 = true) && true) = true := by decide +kernel
    obtain ⟨p1, h1⟩ := both h0
    exact ⟨(prot 0), p1⟩
  · have h0 : (decide ((prot 0).has .sse = true) && true) = true := by decide +kernel
    obtain ⟨p1, h1⟩ := both h0
    exact ⟨(prot 0), p1⟩

/-- The hypotheses of `Obligations.StackResults` can be met, clause by clause. -/
theorem witness_StackResults :
    (∃ (w : Width) (src : Rm) (s u v : State) (x : BitVec w.bits) (ass : List (List Nat)) (fin : Word), Passes (readRm w
      src) s.begin x u ∧ Passes (pushSlots [w.bytes]) u (ass, fin) v) ∧
    (∃ (w : Width) (s v : State) (ass : List (List Nat)) (fin : Word), Passes (pushSlots [w.bytes]) s.begin (ass, fin) v) ∧
    (∃ (w : Width) (r : SReg) (s v : State) (ass : List (List Nat)) (fin : Word), (s.isLong = true → r = .fs ∨ r = .gs) ∧
      (w = .w32 → s.cfg.pushSreg32Zext = true) ∧ Passes (pushSlots [w.bytes]) s.begin (ass, fin) v) ∧
    (∃ (r : SReg) (s v : State) (as : List Nat) (t : Word), (s.isLong = true → r = .fs ∨ r = .gs) ∧ s.cfg.pushSreg32Zext
      = false ∧ t = s.stackSize.trunc (s.sp - 4) ∧ Passes (resolve .ss .write 2 1 t 2) s.begin as v) ∧
    (∃ (w : Width) (s u : State) (v : Nat), Passes (stackPeek s.sp w.bytes) s.begin v u) ∧
    (∃ (w : Width) (m : MemRef) (s u t : State) (v : Nat) (q : Place), s.popWraps m w.bytes = false ∧ Passes (stackPeek
      s.sp w.bytes) s.begin v u ∧ Passes (place .write w (.mem m)) (u.popped w.bytes) q t) ∧
    (∃ (w : Width) (r : SReg) (s u v t : State) (x : Nat) (l : SegLoad) (as : List Nat), r ≠ .cs ∧ (s.isLong = true → r =
      .fs ∨ r = .gs) ∧ Passes (stackPeek s.sp w.bytes) s.begin x u ∧ Passes (checkSegLoad r (BitVec.ofNat 16 x)) u l v ∧
      Passes l.resolve v as t) ∧
    (∃ (s v : State) (ass : List (List Nat)) (fin : Word), s.isLong = false ∧ (s.isLegacySeg = true → s.sp ∉ [7, 9, 11,
      13, 15]) ∧ Passes (pushSlots (List.replicate 8 Width.w16.bytes)) s.begin (ass, fin) v) ∧
    (∃ (s v : State) (ass : List (List Nat)) (fin : Word), (s.pe = true → s.flags.vm = true → s.flags.iopl = 3) ∧ Passes
      (pushSlots [2]) s.begin (ass, fin) v) ∧
    (∃ (s u : State) (v : Nat) (m1 m2 m3 : Word), (s.pe = true → s.flags.vm = true → s.flags.iopl = 3) ∧ Passes
      (stackPeek s.sp 2) s.begin v u ∧ m1 = (if 2 = 2 then flagsW16 else flagsW32) ∧ m2 = (if s.pe && decide (s.cpl ≠ 0)
      then m1 &&& ~~~flagsIopl else m1) ∧ m3 = (if s.pe && decide (s.flags.iopl < s.cpl) then m2 &&& ~~~flagsIf else m2)) ∧
    (∃ (w : Width) (size : BitVec 16) (level : BitVec 8) (s u1 u2 u3 t : State) (n : Nat) (ass bss : List (List Nat))
      (copies : List (List Nat × List Nat)) (frame sp1 sp2 fin : Word), n = (if s.isLong then 8 else w.bytes) ∧ Passes
      (pushFrom s.sp [n]) s.begin (ass, frame) u1 ∧ Passes (enterCopies s.stackSize n (level.toNat % 32 - 1)
      (s.stackSize.trunc (s.gp rBP)) frame) u1 (copies, sp1) u2 ∧ Passes (pushFrom sp1 (if level.toNat % 32 = 0 then []
      else [n])) u2 (bss, sp2) u3 ∧ fin = s.stackSize.trunc (sp2 - size.setWidth 64) ∧ Passes (probeStack fin) u3 () t) ∧
    (∃ (c : SegCache) (a : ASize) (user ac : Bool) (sp fin : Word) (ns : List Nat) (ass : List (List Nat)) (s u : State),
      Passes (pushPlan c a user ac sp ns) s (ass, fin) u) ∧
    (∃ (w : Width) (s u : State) (v : Nat) (bp : Word), bp = s.stackSize.trunc (s.gp rBP) ∧ (s.isLegacySeg = true →
      s.segVerdict .ss (s.segOf .ss) .read bp w.bytes = .ok) ∧ Passes (stackPeek (s.begin.setSp s.stackSize bp).sp
      w.bytes) (s.begin.setSp s.stackSize bp) v u) ∧
    (∃ s t : State, s.isLong = false ∧ PopsRegs .w16 [rDI, rSI] s.begin t) ∧
    (∃ (c : SegCache) (a : ASize) (user ac : Bool) (sp fin : Word) (ns : List Nat) (ass : List (List Nat)) (s u : State)
      (p : Word × Nat × List Nat), Passes (pushPlan c a user ac sp ns) s (ass, fin) u ∧ p ∈ (pushOffsets a sp ns).zip
      (ns.zip ass)) := by
  refine ⟨?_, ?_, ?_, ?_, ?_, ?_, ?_, ?_, ?_, ?_, ?_, ?_, ?_, ?_, ?_⟩
  · have h0 : (check (readRm (Width.w32 : Width) (.mem at2000 : Rm)) (prot 0).begin fun a1 t1 => check (pushSlots
      [(Width.w32 : Width).bytes]) t1 fun a2 t2 => true) = true := by decide +kernel
    obtain ⟨a1, t1, p8, h1⟩ := found h0
    obtain ⟨a2, t2, p9, h2⟩ := found h1
    exact ⟨(Width.w32 : Width), (.mem at2000 : Rm), (prot 0), t1, t2, a1, a2.1, a2.2, p8, p9⟩
  · have h0 : (check (pushSlots [(Width.w32 : Width).bytes]) (prot 0).begin fun a1 t1 => true) = true := by decide +kernel
    obtain ⟨a1, t1, p5, h1⟩ := found h0
    exact ⟨(Width.w32 : Width), (prot 0), t1, a1.1, a1.2, p5⟩
  · have h0 : (decide (((prot 0).isLong = true → (.es : SReg) = .fs ∨ (.es : SReg) = .gs)) && (decide (((Width.w16 : Width)
      = .w32 → (prot 0).cfg.pushSreg32Zext = true)) && (check (pushSlots [(Width.w16 : Width).bytes]) (prot 0).begin fun a1
      t1 => true))) = true := by decide +kernel
    obtain ⟨p6, h1⟩ := both h0
    obtain ⟨p7, h2⟩ := both h1
    obtain ⟨a1, t1, p8, h3⟩ := found h2
    exact ⟨(Width.w16 : Width), (.es : SReg), (prot 0), t1, a1.1, a1.2, p6, p7, p8⟩
  · have h0 : (decide (((prot 0).isLong = true → (.es : SReg) = .fs ∨ (.es : SReg) = .gs)) && (decide ((prot
      0).cfg.pushSreg32Zext = false) && (check (resolve .ss .write 2 1 ((prot 0).stackSize.trunc ((prot 0).sp - 4) : Word)
      2) (prot 0).begin fun a1 t1 => true))) = true := by decide +kernel
    obtain ⟨p5, h1⟩ := both h0
    obtain ⟨p6, h2⟩ := both h1
    obtain ⟨a1, t1, p8, h3⟩ := found h2
    exact ⟨(.es : SReg), (prot 0), t1, a1, ((prot 0).stackSize.trunc ((prot 0).sp - 4) : Word), p5, p6, rfl, p8⟩
  · have h0 : (check (stackPeek (prot 0).sp (Width.w32 : Width).bytes) (prot 0).begin fun a1 t1 => true) = true :=
      by decide +kernel
    obtain ⟨a1, t1, p4, h1⟩ := found h0
    exact ⟨(Width.w32 : Width), (prot 0), t1, a1, p4⟩
  · have h0 : (decide ((prot 0).popWraps (at2000 : MemRef) (Width.w32 : Width).bytes = false) && (check (stackPeek (prot
      0).sp (Width.w32 : Width).bytes) (prot 0).begin fun a1 t1 => check (place .write (Width.w32 : Width) (.mem (at2000 :
      MemRef))) (t1.popped (Width.w32 : Width).bytes) fun a2 t2 => true)) = true := by decide +kernel
    obtain ⟨p7, h1⟩ := both h0
    obtain ⟨a1, t1, p8, h2⟩ := found h1
    obtain ⟨a2, t2, p9, h3⟩ := found h2
    exact ⟨(Width.w32 : Width), (at2000 : MemRef), (prot 0), t1, t2, a1, a2, p7, p8, p9⟩
  · have h0 : (decide ((.es : SReg) ≠ .cs) && (decide (((prot 0).isLong = true → (.es : SReg) = .fs ∨ (.es : SReg) = .gs))
      && (check (stackPeek (prot 0).sp (Width.w32 : Width).bytes) (prot 0).begin fun a1 t1 => check (checkSegLoad (.es :
      SReg) (BitVec.ofNat 16 a1)) t1 fun a2 t2 => check a2.resolve t2 fun a3 t3 => true))) = true := by decide +kernel
    obtain ⟨p9, h1⟩ := both h0
    obtain ⟨p10, h2⟩ := both h1
    obtain ⟨a1, t1, p11, h3⟩ := found h2
    obtain ⟨a2, t2, p12, h4⟩ := found h3
    obtain ⟨a3, t3, p13, h5⟩ := found h4
    exact ⟨(Width.w32 : Width), (.es : SReg), (prot 0), t1, t2, t3, a1, a2, a3, p9, p10, p11, p12, p13⟩
  · have h0 : (decide ((prot 0).isLong = false) && (decide (((prot 0).isLegacySeg = true → (prot 0).sp ∉ [7, 9, 11, 13,
      15])) && (check (pushSlots (List.replicate 8 Width.w16.bytes)) (prot 0).begin fun a1 t1 => true))) = true :=
      by decide +kernel
    obtain ⟨p4, h1⟩ := both h0
    obtain ⟨p5, h2⟩ := both h1
    obtain ⟨a1, t1, p6, h3⟩ := found h2
    exact ⟨(prot 0), t1, a1.1, a1.2, p4, p5, p6⟩
  · have h0 : (decide (((prot 0).pe = true → (prot 0).flags.vm = true → (prot 0).flags.iopl = 3)) && (check (pushSlots [2])
      (prot 0).begin fun a1 t1 => true)) = true := by decide +kernel
    obtain ⟨p4, h1⟩ := both h0
    obtain ⟨a1, t1, p5, h2⟩ := found h1
    exact ⟨(prot 0), t1, a1.1, a1.2, p4, p5⟩
  · have h0 : (decide (((prot 0).pe = true → (prot 0).flags.vm = true → (prot 0).flags.iopl = 3)) && (check (stackPeek (prot
      0).sp 2) (prot 0).begin fun a1 t1 => true)) = true := by decide +kernel
    obtain ⟨p6, h1⟩ := both h0
    obtain ⟨a1, t1, p7, h2⟩ := found h1
    exact ⟨(prot 0), t1, a1, ((if 2 = 2 then flagsW16 else flagsW32) : Word), ((if (prot 0).pe && decide ((prot 0).cpl ≠ 0)
      then ((if 2 = 2 then flagsW16 else flagsW32) : Word) &&& ~~~flagsIopl else ((if 2 = 2 then flagsW16 else flagsW32) :
      Word)) : Word), ((if (prot 0).pe && decide ((prot 0).flags.iopl < (prot 0).cpl) then ((if (prot 0).pe && decide ((prot
      0).cpl ≠ 0) then ((if 2 = 2 then flagsW16 else flagsW32) : Word) &&& ~~~flagsIopl else ((if 2 = 2 then flagsW16 else
      flagsW32) : Word)) : Word) &&& ~~~flagsIf else ((if (prot 0).pe && decide ((prot 0).cpl ≠ 0) then ((if 2 = 2 then
      flagsW16 else flagsW32) : Word) &&& ~~~flagsIopl else ((if 2 = 2 then flagsW16 else flagsW32) : Word)) : Word)) :
      Word), p6, p7, rfl, rfl, rfl⟩
  · have h0 : (check (pushFrom (prot 0).sp [((if (prot 0).isLong then 8 else (Width.w32 : Width).bytes) : Nat)]) (prot
      0).begin fun a1 t1 => check (enterCopies (prot 0).stackSize ((if (prot 0).isLong then 8 else (Width.w32 :
      Width).bytes) : Nat) ((3 : BitVec 8).toNat % 32 - 1) ((prot 0).stackSize.trunc ((prot 0).gp rBP)) a1.2) t1 fun a2 t2
      => check (pushFrom a2.2 (if (3 : BitVec 8).toNat % 32 = 0 then [] else [((if (prot 0).isLong then 8 else (Width.w32 :
      Width).bytes) : Nat)])) t2 fun a3 t3 => check (probeStack ((prot 0).stackSize.trunc (a3.2 - (16 : BitVec 16).setWidth
      64) : Word)) t3 fun a4 t4 => true) = true := by decide +kernel
    obtain ⟨a1, t1, p17, h1⟩ := found h0
    obtain ⟨a2, t2, p18, h2⟩ := found h1
    obtain ⟨a3, t3, p19, h3⟩ := found h2
    obtain ⟨a4, t4, p21, h4⟩ := found h3
    exact ⟨(Width.w32 : Width), (16 : BitVec 16), (3 : BitVec 8), (prot 0), t1, t2, t3, t4, ((if (prot 0).isLong then 8 else
      (Width.w32 : Width).bytes) : Nat), a1.1, a3.1, a2.1, a1.2, a2.2, a3.2, ((prot 0).stackSize.trunc (a3.2 - (16 : BitVec
      16).setWidth 64) : Word), rfl, p17, p18, p19, rfl, p21⟩
  · have h0 : (check (pushPlan ((flatSeg false 0 0x10 false true) : SegCache) (.a32 : ASize) (false : Bool) (false : Bool)
      (0x8000 : Word) ([4, 2] : List Nat)) (prot 0) fun a1 t1 => true) = true := by decide +kernel
    obtain ⟨a1, t1, p10, h1⟩ := found h0
    exact ⟨((flatSeg false 0 0x10 false true) : SegCache), (.a32 : ASize), (false : Bool), (false : Bool), (0x8000 : Word),
      a1.2, ([4, 2] : List Nat), a1.1, (prot 0), t1, p10⟩
  · have h0 : (decide (((prot 0).isLegacySeg = true → (prot 0).segVerdict .ss ((prot 0).segOf .ss) .read ((prot
      0).stackSize.trunc ((prot 0).gp rBP) : Word) (Width.w32 : Width).bytes = .ok)) && (check (stackPeek ((prot
      0).begin.setSp (prot 0).stackSize ((prot 0).stackSize.trunc ((prot 0).gp rBP) : Word)).sp (Width.w32 : Width).bytes)
      ((prot 0).begin.setSp (prot 0).stackSize ((prot 0).stackSize.trunc ((prot 0).gp rBP) : Word)) fun a1 t1 => true)) =
      true := by decide +kernel
    obtain ⟨p6, h1⟩ := both h0
    obtain ⟨a1, t1, p7, h2⟩ := found h1
    exact ⟨(Width.w32 : Width), (prot 0), t1, a1, ((prot 0).stackSize.trunc ((prot 0).gp rBP) : Word), rfl, p6, p7⟩
  · have h0 : check (stackPeek (prot 0).begin.sp 2) (prot 0).begin (fun v u =>
      check (stackPeek ((u.popped 2).setReg .w16 rDI (BitVec.ofNat 16 v)).sp 2) ((u.popped 2).setReg .w16 rDI (BitVec.ofNat
        16 v))
        fun _ _ => true) = true := by decide +kernel
    obtain ⟨v, u, p1, h1⟩ := found h0
    obtain ⟨y, x, p2, _⟩ := found h1
    exact ⟨prot 0, _, by decide +kernel, v, u, p1, y, x, p2, rfl⟩
  · let c := flatSeg false 0 0x10 false true
    have h0 : check (pushPlan c .a32 false false 0x8000 [4]) (prot 0) (fun r _ => decide (r.1.length = 1) && true) = true :=
      by decide +kernel
    obtain ⟨⟨ass, fin⟩, u, p1, h⟩ := found h0
    obtain ⟨hl, _⟩ := both h
    obtain ⟨x, rfl⟩ := List.length_eq_one_iff.1 hl
    exact ⟨c, .a32, false, false, 0x8000, fin, [4], [x], prot 0, u, _, p1, List.mem_singleton.2 rfl⟩

/-- The hypotheses of `Obligations.NearTransferResults` can be met, clause by clause. -/
theorem witness_NearTransferResults :
    (∃ (w : Width) (d : BitVec 32) (s : State) (t : Word), t = cutTarget w (s.ripNext + d.signExtend 64) ∧ s.flags.holds
      .o = false) ∧
    (∃ (w : Width) (d : BitVec 32) (s : State) (t : Word), t = cutTarget w (s.ripNext + d.signExtend 64) ∧ s.flags.holds
      .no = true ∧ s.targetIn t) ∧
    (∃ (w : Width) (d : BitVec 8) (s : State) (t : Word), t = cutTarget w (s.ripNext + d.signExtend 64) ∧ ASize.a16.trunc
      (s.gp rCX) ≠ 0) ∧
    (∃ (w : Width) (d : BitVec 8) (s : State) (t : Word), t = cutTarget w (s.ripNext + d.signExtend 64) ∧ ASize.a16.trunc
      (s.gp rCX) = 0 ∧ s.targetIn t) ∧
    (∃ (w : Width) (a : ASize) (d : BitVec 8) (s x : State) (n t : Word), n = a.trunc (a.trunc (s.gp rCX) - 1) ∧ x =
      s.begin.setReg a.width rCX (n.setWidth a.width.bits) ∧ t = cutTarget w (s.ripNext + d.signExtend 64) ∧ (n = 0 ∨
      ((fun _ => true) : (Flags → Bool)) s.begin.flags = false)) ∧
    (∃ (w : Width) (a : ASize) (d : BitVec 8) (s x : State) (n t : Word), n = a.trunc (a.trunc (s.gp rCX) - 1) ∧ x =
      s.begin.setReg a.width rCX (n.setWidth a.width.bits) ∧ t = cutTarget w (s.ripNext + d.signExtend 64) ∧ n ≠ 0 ∧
      ((fun _ => true) : (Flags → Bool)) s.begin.flags = true ∧ x.targetIn t) ∧
    (∃ (w : Width) (d : BitVec 32) (s : State) (t : Word), t = cutTarget w (s.ripNext + d.signExtend 64) ∧ s.targetIn t) ∧
    (∃ (w : Width) (m : Rm) (s u : State) (b : BitVec w.bits) (t : Word), Passes (readRm w m) s.begin b u ∧ t = cutTarget
      w (b.setWidth 64) ∧ u.targetIn t) ∧
    (∃ (w : Width) (d : BitVec 32) (s v : State) (t : Word) (ass : List (List Nat)) (fin : Word), t = cutTarget w
      (s.ripNext + d.signExtend 64) ∧ s.targetIn t ∧ Passes (pushSlots [w.bytes]) s.begin (ass, fin) v) ∧
    (∃ (w : Width) (m : Rm) (s u v : State) (b : BitVec w.bits) (t : Word) (ass : List (List Nat)) (fin : Word), Passes
      (readRm w m) s.begin b u ∧ t = cutTarget w (b.setWidth 64) ∧ u.targetIn t ∧ Passes (pushSlots [w.bytes]) u (ass,
      fin) v) ∧
    (∃ (w : Width) (s u : State) (x : Nat), Passes (stackPeek s.sp w.bytes) s.begin x u ∧ (u.popped w.bytes).targetIn
      (BitVec.ofNat 64 x)) := by
  refine ⟨?_, ?_, ?_, ?_, ?_, ?_, ?_, ?_, ?_, ?_, ?_⟩
  · have h0 : (decide ((prot 0).flags.holds .o = false) && true) = true := by decide +kernel
    obtain ⟨p5, h1⟩ := both h0
    exact ⟨(Width.w32 : Width), (1 : BitVec 32), (prot 0), (cutTarget (Width.w32 : Width) ((prot 0).ripNext + (1 : BitVec
      32).signExtend 64) : Word), rfl, p5⟩
  · have h0 : (decide ((prot 0).flags.holds .no = true) && (decide ((prot 0).segVerdict .cs ((prot 0).segOf .cs) .exec
      (cutTarget (Width.w32 : Width) ((prot 0).ripNext + (1 : BitVec 32).signExtend 64) : Word) 1 = .ok) && true)) = true :=
      by decide +kernel
    obtain ⟨p5, h1⟩ := both h0
    obtain ⟨p6, h2⟩ := both h1
    exact ⟨(Width.w32 : Width), (1 : BitVec 32), (prot 0), (cutTarget (Width.w32 : Width) ((prot 0).ripNext + (1 : BitVec
      32).signExtend 64) : Word), rfl, p5, p6⟩
  · have h0 : (decide (ASize.a16.trunc ((withReg (prot 0) 1 5).gp rCX) ≠ 0) && true) = true := by decide +kernel
    obtain ⟨p5, h1⟩ := both h0
    exact ⟨(Width.w32 : Width), (1 : BitVec 8), (withReg (prot 0) 1 5), (cutTarget (Width.w32 : Width) ((withReg (prot 0) 1
      5).ripNext + (1 : BitVec 8).signExtend 64) : Word), rfl, p5⟩
  · have h0 : (decide (ASize.a16.trunc ((prot 0).gp rCX) = 0) && (decide ((prot 0).segVerdict .cs ((prot 0).segOf .cs) .exec
      (cutTarget (Width.w32 : Width) ((prot 0).ripNext + (1 : BitVec 8).signExtend 64) : Word) 1 = .ok) && true)) = true :=
      by decide +kernel
    obtain ⟨p5, h1⟩ := both h0
    obtain ⟨p6, h2⟩ := both h1
    exact ⟨(Width.w32 : Width), (1 : BitVec 8), (prot 0), (cutTarget (Width.w32 : Width) ((prot 0).ripNext + (1 : BitVec
      8).signExtend 64) : Word), rfl, p5, p6⟩
  · have h0 : (decide ((((.a32 : ASize).trunc ((.a32 : ASize).trunc ((withReg (prot 0) 1 1).gp rCX) - 1) : Word) = 0 ∨ ((fun
      _ => true) : (Flags → Bool)) (withReg (prot 0) 1 1).begin.flags = false)) && true) = true := by decide +kernel
    obtain ⟨p10, h1⟩ := both h0
    exact ⟨(Width.w32 : Width), (.a32 : ASize), (1 : BitVec 8), (withReg (prot 0) 1 1), ((withReg (prot 0) 1 1).begin.setReg
      (.a32 : ASize).width rCX (((.a32 : ASize).trunc ((.a32 : ASize).trunc ((withReg (prot 0) 1 1).gp rCX) - 1) :
      Word).setWidth (.a32 : ASize).width.bits) : State), ((.a32 : ASize).trunc ((.a32 : ASize).trunc ((withReg (prot 0) 1
      1).gp rCX) - 1) : Word), (cutTarget (Width.w32 : Width) ((withReg (prot 0) 1 1).ripNext + (1 : BitVec 8).signExtend
      64) : Word), rfl, rfl, rfl, p10⟩
  · have h0 : (decide (((.a32 : ASize).trunc ((.a32 : ASize).trunc ((prot 0).gp rCX) - 1) : Word) ≠ 0) && (decide (((fun _
      => true) : (Flags → Bool)) (prot 0).begin.flags = true) && (decide (((prot 0).begin.setReg (.a32 : ASize).width rCX
      (((.a32 : ASize).trunc ((.a32 : ASize).trunc ((prot 0).gp rCX) - 1) : Word).setWidth (.a32 : ASize).width.bits) :
      State).segVerdict .cs (((prot 0).begin.setReg (.a32 : ASize).width rCX (((.a32 : ASize).trunc ((.a32 : ASize).trunc
      ((prot 0).gp rCX) - 1) : Word).setWidth (.a32 : ASize).width.bits) : State).segOf .cs) .exec (cutTarget (Width.w32 :
      Width) ((prot 0).ripNext + (1 : BitVec 8).signExtend 64) : Word) 1 = .ok) && true))) = true := by decide +kernel
    obtain ⟨p10, h1⟩ := both h0
    obtain ⟨p11, h2⟩ := both h1
    obtain ⟨p12, h3⟩ := both h2
    exact ⟨(Width.w32 : Width), (.a32 : ASize), (1 : BitVec 8), (prot 0), ((prot 0).begin.setReg (.a32 : ASize).width rCX
      (((.a32 : ASize).trunc ((.a32 : ASize).trunc ((prot 0).gp rCX) - 1) : Word).setWidth (.a32 : ASize).width.bits) :
      State), ((.a32 : ASize).trunc ((.a32 : ASize).trunc ((prot 0).gp rCX) - 1) : Word), (cutTarget (Width.w32 : Width)
      ((prot 0).ripNext + (1 : BitVec 8).signExtend 64) : Word), rfl, rfl, rfl, p10, p11, p12⟩
  · have h0 : (decide ((prot 0).segVerdict .cs ((prot 0).segOf .cs) .exec (cutTarget (Width.w32 : Width) ((prot 0).ripNext +
      (1 : BitVec 32).signExtend 64) : Word) 1 = .ok) && true) = true := by decide +kernel
    obtain ⟨p5, h1⟩ := both h0
    exact ⟨(Width.w32 : Width), (1 : BitVec 32), (prot 0), (cutTarget (Width.w32 : Width) ((prot 0).ripNext + (1 : BitVec
      32).signExtend 64) : Word), rfl, p5⟩
  · have h0 : (check (readRm (Width.w32 : Width) (.mem at2000 : Rm)) (prot 0).begin fun a1 t1 => decide (t1.segVerdict .cs
      (t1.segOf .cs) .exec (cutTarget (Width.w32 : Width) (a1.setWidth 64) : Word) 1 = .ok) && true) = true :=
      by decide +kernel
    obtain ⟨a1, t1, p6, h1⟩ := found h0
    obtain ⟨p8, h2⟩ := both h1
    exact ⟨(Width.w32 : Width), (.mem at2000 : Rm), (prot 0), t1, a1, (cutTarget (Width.w32 : Width) (a1.setWidth 64) :
      Word), p6, rfl, p8⟩
  · have h0 : (decide ((prot 0).segVerdict .cs ((prot 0).segOf .cs) .exec (cutTarget (Width.w32 : Width) ((prot 0).ripNext +
      (1 : BitVec 32).signExtend 64) : Word) 1 = .ok) && (check (pushSlots [(Width.w32 : Width).bytes]) (prot 0).begin fun
      a1 t1 => true)) = true := by decide +kernel
    obtain ⟨p8, h1⟩ := both h0
    obtain ⟨a1, t1, p9, h2⟩ := found h1
    exact ⟨(Width.w32 : Width), (1 : BitVec 32), (prot 0), t1, (cutTarget (Width.w32 : Width) ((prot 0).ripNext + (1 :
      BitVec 32).signExtend 64) : Word), a1.1, a1.2, rfl, p8, p9⟩
  · have h0 : (check (readRm (Width.w32 : Width) (.mem at2000 : Rm)) (prot 0).begin fun a1 t1 => decide (t1.segVerdict .cs
      (t1.segOf .cs) .exec (cutTarget (Width.w32 : Width) (a1.setWidth 64) : Word) 1 = .ok) && (check (pushSlots [(Width.w32
      : Width).bytes]) t1 fun a2 t2 => true)) = true := by decide +kernel
    obtain ⟨a1, t1, p9, h1⟩ := found h0
    obtain ⟨p11, h2⟩ := both h1
    obtain ⟨a2, t2, p12, h3⟩ := found h2
    exact ⟨(Width.w32 : Width), (.mem at2000 : Rm), (prot 0), t1, t2, a1, (cutTarget (Width.w32 : Width) (a1.setWidth 64) :
      Word), a2.1, a2.2, p9, rfl, p11, p12⟩
  · have h0 : (check (stackPeek (prot 0).sp (Width.w32 : Width).bytes) (prot 0).begin fun a1 t1 => decide ((t1.popped
      (Width.w32 : Width).bytes).segVerdict .cs ((t1.popped (Width.w32 : Width).bytes).segOf .cs) .exec (BitVec.ofNat 64 a1)
      1 = .ok) && true) = true := by decide +kernel
    obtain ⟨a1, t1, p4, h1⟩ := found h0
    obtain ⟨p5, h2⟩ := both h1
    exact ⟨(Width.w32 : Width), (prot 0), t1, a1, p4, p5⟩

/-- The hypotheses of `Obligations.SegmentLoadResults` can be met, clause by clause. -/
theorem witness_SegmentLoadResults :
    (∃ (r : SReg) (src : Rm) (s u v t : State) (sel : BitVec 16) (l : SegLoad) (as : List Nat), r ≠ .cs ∧ Passes (readRm
      .w16 src) s.begin sel u ∧ Passes (checkSegLoad r sel) u l v ∧ Passes l.resolve v as t) ∧
    (∃ (m : MemRef) (s u : State) (q : Place), Passes (place .write .w16 (.mem m)) s.begin q u) ∧
    (∃ (w : Width) (m : MemRef) (s u v t : State) (off : Word) (sel : BitVec 16) (l : SegLoad) (as : List Nat), ((fun sq
      => sq.isLong = false) : (State → Prop)) s ∧ Passes (readFarPtr w m) s.begin (off, sel) u ∧ Passes (checkSegLoad
      .ds sel) u l v ∧ Passes l.resolve v as t) ∧
    (∃ (s : State), s.mode = .real) ∧
    (∃ (s : State), s.mode = .v86) ∧
    (∃ (r : SReg) (sel : BitVec 16) (s : State), (s.mode = .prot ∨ s.mode = .compat ∨ s.mode = .long) ∧ r ≠ .ss ∧ isNull
      sel = true) ∧
    (∃ (sel : BitVec 16) (s u : State) (a : Word) (x : Nat) (c : SegCache), (s.mode = .prot ∨ s.mode = .compat ∨ s.mode =
      .long) ∧ isNull sel = false ∧ s.descAddr sel 8 = some a ∧ Passes (sysRead a 8) s x u ∧ c = descCache sel
      (BitVec.ofNat 128 x) ∧ c.p = true ∧ rpl sel = s.cpl ∧ c.writable = true ∧ c.dpl = s.cpl) ∧
    (∃ (sel : BitVec 16) (s u : State) (a : Word) (x : Nat) (c : SegCache), (s.mode = .prot ∨ s.mode = .compat ∨ s.mode =
      .long) ∧ isNull sel = false ∧ s.descAddr sel 8 = some a ∧ Passes (sysRead a 8) s x u ∧ c = descCache sel
      (BitVec.ofNat 128 x) ∧ c.p = true ∧ ∃ (r : SReg), r ≠ .ss ∧ c.readable = true ∧ ((c.isCode = true ∧ c.typ.getLsbD
      2 = true) ∨ (rpl sel ≤ c.dpl ∧ s.cpl ≤ c.dpl))) := by
  refine ⟨?_, ?_, ?_, ?_, ?_, ?_, ?_, ?_⟩
  · have h0 : (decide ((.es : SReg) ≠ .cs) && (check (readRm .w16 (.mem at2000 : Rm)) (prot 0).begin fun a1 t1 => check
      (checkSegLoad (.es : SReg) a1) t1 fun a2 t2 => check a2.resolve t2 fun a3 t3 => true)) = true := by decide +kernel
    obtain ⟨p9, h1⟩ := both h0
    obtain ⟨a1, t1, p10, h2⟩ := found h1
    obtain ⟨a2, t2, p11, h3⟩ := found h2
    obtain ⟨a3, t3, p12, h4⟩ := found h3
    exact ⟨(.es : SReg), (.mem at2000 : Rm), (prot 0), t1, t2, t3, a1, a2, a3, p9, p10, p11, p12⟩
  · have h0 : (check (place .write .w16 (.mem (at2000 : MemRef))) (prot 0).begin fun a1 t1 => true) = true :=
      by decide +kernel
    obtain ⟨a1, t1, p4, h1⟩ := found h0
    exact ⟨(at2000 : MemRef), (prot 0), t1, a1, p4⟩
  · have h0 : (decide (((fun sq => sq.isLong = false) : (State → Prop)) (prot 0)) && (check (readFarPtr (Width.w32 : Width)
      (at2000 : MemRef)) (prot 0).begin fun a1 t1 => check (checkSegLoad .ds a1.2) t1 fun a2 t2 => check a2.resolve t2 fun
      a3 t3 => true)) = true := by decide +kernel
    obtain ⟨p10, h1⟩ := both h0
    obtain ⟨a1, t1, p11, h2⟩ := found h1
    obtain ⟨a2, t2, p12, h3⟩ := found h2
    obtain ⟨a3, t3, p13, h4⟩ := found h3
    exact ⟨(Width.w32 : Width), (at2000 : MemRef), (prot 0), t1, t2, t3, a1.1, a1.2, a2, a3, p10, p11, p12, p13⟩
  · have h0 : (decide ((real : State).mode = .real) && true) = true := by decide +kernel
    obtain ⟨p1, h1⟩ := both h0
    exact ⟨(real : State), p1⟩
  · have h0 : (decide ((v86 : State).mode = .v86) && true) = true := by decide +kernel
    obtain ⟨p1, h1⟩ := both h0
    exact ⟨(v86 : State), p1⟩
  · have h0 : (decide ((prot 0).mode = .prot ∨ (prot 0).mode = .compat ∨ (prot 0).mode = .long) && (decide ((.es : SReg) ≠
      .ss) && (decide (isNull (0 : BitVec 16) = true) && true))) = true := by decide +kernel
    obtain ⟨p3, h1⟩ := both h0
    obtain ⟨p4, h2⟩ := both h1
    obtain ⟨p5, h3⟩ := both h2
    exact ⟨(.es : SReg), (0 : BitVec 16), (prot 0), p3, p4, p5⟩
  · have h0 : (decide ((tables (prot 0)).mode = .prot ∨ (tables (prot 0)).mode = .compat ∨ (tables (prot 0)).mode = .long)
      && (decide (isNull (0x10 : BitVec 16) = false) && (decide ((tables (prot 0)).descAddr (0x10 : BitVec 16) 8 = some
      (0x11010 : Word)) && (check (sysRead (0x11010 : Word) 8) (tables (prot 0)) fun a1 t1 => decide ((descCache (0x10 :
      BitVec 16) (BitVec.ofNat 128 a1) : SegCache).p = true) && (decide (rpl (0x10 : BitVec 16) = (tables (prot 0)).cpl) &&
      (decide ((descCache (0x10 : BitVec 16) (BitVec.ofNat 128 a1) : SegCache).writable = true) && (decide ((descCache (0x10
      : BitVec 16) (BitVec.ofNat 128 a1) : SegCache).dpl = (tables (prot 0)).cpl) && true))))))) = true := by decide +kernel
    obtain ⟨p6, h1⟩ := both h0
    obtain ⟨p7, h2⟩ := both h1
    obtain ⟨p8, h3⟩ := both h2
    obtain ⟨a1, t1, p9, h4⟩ := found h3
    obtain ⟨p11, h5⟩ := both h4
    obtain ⟨p12, h6⟩ := both h5
    obtain ⟨p13, h7⟩ := both h6
    obtain ⟨p14, h8⟩ := both h7
    exact ⟨(0x10 : BitVec 16), (tables (prot 0)), t1, (0x11010 : Word), a1, (descCache (0x10 : BitVec 16) (BitVec.ofNat 128
      a1) : SegCache), p6, p7, p8, p9, rfl, p11, p12, p13, p14⟩
  · have h0 : (decide ((tables (prot 0)).mode = .prot ∨ (tables (prot 0)).mode = .compat ∨ (tables (prot 0)).mode = .long)
      && (decide (isNull (0x10 : BitVec 16) = false) && (decide ((tables (prot 0)).descAddr (0x10 : BitVec 16) 8 = some
      (0x11010 : Word)) && (check (sysRead (0x11010 : Word) 8) (tables (prot 0)) fun a1 t1 => decide ((descCache (0x10 :
      BitVec 16) (BitVec.ofNat 128 a1) : SegCache).p = true) && (decide ((SReg.ds : SReg) ≠ .ss) && (decide ((descCache
      (0x10 : BitVec 16) (BitVec.ofNat 128 a1) : SegCache).readable = true) && (decide ((((descCache (0x10 : BitVec 16)
      (BitVec.ofNat 128 a1) : SegCache).isCode = true ∧ (descCache (0x10 : BitVec 16) (BitVec.ofNat 128 a1) :
      SegCache).typ.getLsbD 2 = true) ∨ (rpl (0x10 : BitVec 16) ≤ (descCache (0x10 : BitVec 16) (BitVec.ofNat 128 a1) :
      SegCache).dpl ∧ (tables (prot 0)).cpl ≤ (descCache (0x10 : BitVec 16) (BitVec.ofNat 128 a1) : SegCache).dpl))) &&
      true))))))) = true := by decide +kernel
    obtain ⟨p6, h1⟩ := both h0
    obtain ⟨p7, h2⟩ := both h1
    obtain ⟨p8, h3⟩ := both h2
    obtain ⟨a1, t1, p9, h4⟩ := found h3
    obtain ⟨p11, h5⟩ := both h4
    obtain ⟨p13, h6⟩ := both h5
    obtain ⟨p14, h7⟩ := both h6
    obtain ⟨p15, h8⟩ := both h7
    exact ⟨(0x10 : BitVec 16), (tables (prot 0)), t1, (0x11010 : Word), a1, (descCache (0x10 : BitVec 16) (BitVec.ofNat 128
      a1) : SegCache), p6, p7, p8, p9, rfl, p11, (SReg.ds : SReg), p13, p14, p15⟩

/-- The hypotheses of `Obligations.FarTransferResults` can be met, clause by clause. -/
theorem witness_FarTransferResults :
    (∃ (o : FarOps) (s u : State) (off0 off : Word) (sel : BitVec 16), FarOperand o s off0 sel u ∧ off = cutTarget
      (farWidth o) off0 ∧ u.isLegacySeg = true ∧ u.segVerdict .cs (u.legacyCs sel) .exec off 1 = .ok) ∧
    (∃ (o : FarOps) (s u : State) (off0 off : Word) (sel : BitVec 16), FarOperand o s off0 sel u ∧ off = cutTarget
      (farWidth o) off0 ∧ ∃ (d : SegLoad) (as : List Nat) (v x : State), u.isLegacySeg = false ∧ Passes (farTarget sel)
      u (.code d) v ∧ u.targetOk d.cache off = true ∧ Passes d.resolve v as x) ∧
    (∃ (o : FarOps) (s u : State) (off0 off : Word) (sel : BitVec 16), FarOperand o s off0 sel u ∧ off = cutTarget
      (farWidth o) off0 ∧ ∃ (g : CallGate) (d : SegLoad) (as : List Nat) (v x y : State), u.isLegacySeg = false ∧ Passes
      (farTarget sel) u (.gate g) v ∧ Passes (gateCode g fun c => if c.conforming then decide (c.dpl ≤ u.cpl) else
      decide (c.dpl = u.cpl)) v d x ∧ u.targetOk d.cache g.off = true ∧ Passes d.resolve x as y) ∧
    (∃ (o : FarOps) (s u : State) (off0 off : Word) (sel : BitVec 16), FarOperand o s off0 sel u ∧ off = cutTarget
      (farWidth o) off0 ∧ ∃ (ass : List (List Nat)) (fin : Word) (v : State), u.isLegacySeg = true ∧ u.pushRoom (u.segOf
      .ss) u.stackSize u.sp (legacyRoom (farWidth o)) = true ∧ off.toNat < 2 ^ 16 ∧ u.segVerdict .cs (u.legacyCs sel)
      .exec off 1 = .ok ∧ Passes (pushSlots [(farWidth o).bytes, (farWidth o).bytes]) u (ass, fin) v) ∧
    (∃ (o : FarOps) (s u : State) (off0 off : Word) (sel : BitVec 16), FarOperand o s off0 sel u ∧ off = cutTarget
      (farWidth o) off0 ∧ ∃ (d : SegLoad) (ass : List (List Nat)) (fin : Word) (as : List Nat) (v x y : State),
      u.isLegacySeg = false ∧ Passes (farTarget sel) u (.code d) v ∧ v.pushRoom (v.segOf .ss) v.stackSize v.sp
      [(farWidth o).bytes, (farWidth o).bytes] = true ∧ u.targetOk d.cache off = true ∧ Passes (pushSlots [(farWidth
      o).bytes, (farWidth o).bytes]) v (ass, fin) x ∧ Passes d.resolve x as y) ∧
    (∃ (w : Width) (i : Option (BitVec 16)) (s : State) (imm : Word), imm = (i.getD 0).setWidth 64 ∧ s.stackTop (2 *
      w.bytes) ∧ ∃ (a b : Nat) (u v : State), s.isLegacySeg = true ∧ Passes (stackPeek s.sp w.bytes) s.begin a u ∧
      Passes (stackPeek (u.popped w.bytes).sp w.bytes) (u.popped w.bytes) b v ∧ v.segVerdict .cs (v.segOf .cs) .exec
      (BitVec.ofNat 64 a) 1 = .ok ∧ v.segVerdict .cs (v.legacyCs (BitVec.ofNat 16 b)) .exec (BitVec.ofNat 64 a) 1 = .ok) ∧
    (∃ (w : Width) (i : Option (BitVec 16)) (s : State) (imm : Word), imm = (i.getD 0).setWidth 64 ∧ s.stackTop (2 *
      w.bytes) ∧ ∃ (a b : Nat) (u v x y : State) (d : SegLoad) (as : List Nat), s.isLegacySeg = false ∧ Passes
      (stackPeek (s.sp + BitVec.ofNat 64 w.bytes) w.bytes) s.begin b u ∧ Passes (stackPeek s.sp w.bytes) u a v ∧ Passes
      (returnCode (BitVec.ofNat 16 b)) v d x ∧ rpl (BitVec.ofNat 16 b) = s.cpl ∧ s.targetOk d.cache (BitVec.ofNat 64 a)
      = true ∧ Passes d.resolve x as y) ∧
    (∃ (w : Width) (i : Option (BitVec 16)) (s : State) (imm : Word), imm = (i.getD 0).setWidth 64 ∧ s.stackTop (2 *
      w.bytes) ∧ ∃ (a b c e : Nat) (u v x y z r q1 q : State) (d ss : SegLoad) (as sas : List Nat), s.isLegacySeg =
      false ∧ Passes (stackPeek (s.sp + BitVec.ofNat 64 w.bytes) w.bytes) s.begin b u ∧ Passes (stackPeek s.sp w.bytes)
      u a v ∧ Passes (returnCode (BitVec.ofNat 16 b)) v d x ∧ rpl (BitVec.ofNat 16 b) ≠ s.cpl ∧ x.stackTop (4 * w.bytes
      + imm.toNat) ∧ Passes (stackPeek (s.sp + BitVec.ofNat 64 (3 * w.bytes) + imm) w.bytes) x c y ∧ Passes (stackPeek
      (s.sp + BitVec.ofNat 64 (2 * w.bytes) + imm) w.bytes) y e z ∧ Passes (returnStack (fun k => raiseSS k) d
      (BitVec.ofNat 16 c)) z ss r ∧ s.targetOk d.cache (BitVec.ofNat 64 a) = true ∧ Passes d.resolve r as q1 ∧ Passes
      ss.resolve q1 sas q) ∧
    (∃ (o : FarOps) (s u v x : State) (off0 : Word) (sel : BitVec 16) (g : CallGate) (d : SegLoad), FarOperand o s off0
      sel u ∧ u.isLegacySeg = false ∧ Passes (farTarget sel) u (.gate g) v ∧ Passes (gateCode g fun c => decide (c.dpl ≤
      u.cpl)) v d x ∧ ∃ (n : Nat) (w y z : State) (as : List Nat) (ass : List (List Nat)) (fin : Word),
      (d.cache.conforming = true ∨ u.cpl ≤ d.cache.dpl) ∧ n = g.slot x.lma ∧ w = x.gateStack.withCode d x.cpl g.off ∧
      w.pushRoom (w.segOf .ss) w.stackSize w.sp [n, n] = true ∧ x.targetOk d.cache g.off = true ∧ Passes d.resolve w as
      y ∧ Passes (pushSlots [n, n]) y (ass, fin) z) ∧
    (∃ (o : FarOps) (s u v x : State) (off0 : Word) (sel : BitVec 16) (g : CallGate) (d : SegLoad), FarOperand o s off0
      sel u ∧ u.isLegacySeg = false ∧ Passes (farTarget sel) u (.gate g) v ∧ Passes (gateCode g fun c => decide (c.dpl ≤
      u.cpl)) v d x ∧ ∃ (cpl : BitVec 2) (rsp fin : Word) (as : List Nat) (ass : List (List Nat)) (w y z : State),
      d.cache.conforming = false ∧ d.cache.dpl < u.cpl ∧ cpl = d.cache.dpl ∧ x.lma = true ∧ TssWord (cpl.toNat * 8 + 4)
      x rsp w ∧ (canonical (rsp - 32) = true ∧ canonical (rsp - 1) = true) ∧ canonical g.off = true ∧ Passes d.resolve
      (w.withCode d cpl g.off) as y ∧ Passes (pushPlan (x.nullStack cpl) .a64 false false rsp [8, 8, 8, 8]) y (ass, fin)
      z) ∧
    (∃ (o : FarOps) (s u v x : State) (off0 : Word) (sel : BitVec 16) (g : CallGate) (d : SegLoad), FarOperand o s off0
      sel u ∧ u.isLegacySeg = false ∧ Passes (farTarget sel) u (.gate g) v ∧ Passes (gateCode g fun c => decide (c.dpl ≤
      u.cpl)) v d x ∧ ∃ (n : Nat) (cpl : BitVec 2) (ss : SegLoad) (size : ASize) (esp sp1 fin : Word) (sas as : List
      Nat) (as1 as2 : List (List Nat)) (params : List (Nat × Nat)) (u1 u2 u3 u4 u5 u6 : State), d.cache.conforming =
      false ∧ d.cache.dpl < u.cpl ∧ cpl = d.cache.dpl ∧ x.lma = false ∧ n = g.slot false ∧ InnerStack cpl x ss esp u1 ∧
      size = x.stackSizeOf ss.cache ∧ x.pushRoom ss.cache size (size.trunc esp) (List.replicate (4 + g.count) n) = true
      ∧ x.targetOk d.cache g.off = true ∧ Passes ss.resolve u1 sas u2 ∧ Passes d.resolve u2 as u3 ∧ Passes (pushPlan
      ss.cache size false false (size.trunc esp) [n, n]) u3 (as1, sp1) u4 ∧ Passes (gateParams n x.sp g.count) u4 params
      u5 ∧ Passes (pushPlan ss.cache size false false sp1 (List.replicate (g.count + 2) n)) u5 (as2, fin) u6) ∧
    (∃ (n k : Nat) (sp : Word) (ps : List (Nat × Nat)) (s t : State) (p : Nat × Nat × Nat), Passes (gateParams n sp k) s
      ps t ∧ p ∈ (List.range k).zip ps) := by
  refine ⟨?_, ?_, ?_, ?_, ?_, ?_, ?_, ?_, ?_, ?_, ?_, ?_⟩
  · have h0 : (check (readFarPtr .w16 at2000) (withDwords real 0x2000 [0x01000050]).begin fun a1 t1 => decide
      (t1.isLegacySeg = true) && (decide (t1.segVerdict .cs (t1.legacyCs a1.2) .exec (cutTarget (farWidth (.far ⟨.w16,
      at2000⟩ : FarOps)) a1.1 : Word) 1 = .ok) && true)) = true := by decide +kernel
    obtain ⟨a1, t1, p6, h1⟩ := found h0
    obtain ⟨p8, h2⟩ := both h1
    obtain ⟨p9, h3⟩ := both h2
    exact ⟨(.far ⟨.w16, at2000⟩ : FarOps), (withDwords real 0x2000 [0x01000050]), t1, a1.1, (cutTarget (farWidth (.far
      ⟨.w16, at2000⟩ : FarOps)) a1.1 : Word), a1.2, p6, rfl, p8, p9⟩
  · have h0 : (check (readFarPtr .w32 at2000) (withDwords (tables (prot 0)) 0x2000 [0x5000, 8]).begin fun a1 t1 => decide
      (t1.isLegacySeg = false) && (check (farTarget a1.2) t1 fun a2 t2 => decide (a2 = (.code (code8 : SegLoad))) && (decide
      (t1.targetOk (code8 : SegLoad).cache (cutTarget (farWidth (.far ⟨.w32, at2000⟩ : FarOps)) a1.1 : Word) = true) &&
      (check (code8 : SegLoad).resolve t2 fun a3 t3 => true)))) = true := by decide +kernel
    obtain ⟨a1, t1, p6, h1⟩ := found h0
    obtain ⟨p12, h2⟩ := both h1
    obtain ⟨a2, t2, p13, h3⟩ := found h2
    obtain ⟨e4, h4⟩ := both h3
    subst e4
    obtain ⟨p14, h5⟩ := both h4
    obtain ⟨a3, t3, p15, h6⟩ := found h5
    exact ⟨(.far ⟨.w32, at2000⟩ : FarOps), (withDwords (tables (prot 0)) 0x2000 [0x5000, 8]), t1, a1.1, (cutTarget (farWidth
      (.far ⟨.w32, at2000⟩ : FarOps)) a1.1 : Word), a1.2, p6, rfl, (code8 : SegLoad), a3, t2, t3, p12, p13, p14, p15⟩
  · have h0 : (check (readFarPtr .w32 at2000) (withDwords (tables (prot 0)) 0x2000 [0, 0x28]).begin fun a1 t1 => decide
      (t1.isLegacySeg = false) && (check (farTarget a1.2) t1 fun a2 t2 => decide (a2 = (.gate (⟨true, 8, 0x5000, 0⟩ :
      CallGate))) && (check (gateCode (⟨true, 8, 0x5000, 0⟩ : CallGate) fun c => if c.conforming then decide (c.dpl ≤
      t1.cpl) else decide (c.dpl = t1.cpl)) t2 fun a3 t3 => decide (t1.targetOk a3.cache (⟨true, 8, 0x5000, 0⟩ :
      CallGate).off = true) && (check a3.resolve t3 fun a4 t4 => true)))) = true := by decide +kernel
    obtain ⟨a1, t1, p6, h1⟩ := found h0
    obtain ⟨p14, h2⟩ := both h1
    obtain ⟨a2, t2, p15, h3⟩ := found h2
    obtain ⟨e4, h4⟩ := both h3
    subst e4
    obtain ⟨a3, t3, p16, h5⟩ := found h4
    obtain ⟨p17, h6⟩ := both h5
    obtain ⟨a4, t4, p18, h7⟩ := found h6
    exact ⟨(.far ⟨.w32, at2000⟩ : FarOps), (withDwords (tables (prot 0)) 0x2000 [0, 0x28]), t1, a1.1, (cutTarget (farWidth
      (.far ⟨.w32, at2000⟩ : FarOps)) a1.1 : Word), a1.2, p6, rfl, (⟨true, 8, 0x5000, 0⟩ : CallGate), a3, a4, t2, t3, t4,
      p14, p15, p16, p17, p18⟩
  · have h0 : (check (readFarPtr .w16 at2000) (withDwords real 0x2000 [0x01000050]).begin fun a1 t1 => decide
      (t1.isLegacySeg = true) && (decide (t1.pushRoom (t1.segOf .ss) t1.stackSize t1.sp (legacyRoom (farWidth (.far ⟨.w16,
      at2000⟩ : FarOps))) = true) && (decide ((cutTarget (farWidth (.far ⟨.w16, at2000⟩ : FarOps)) a1.1 : Word).toNat < 2 ^
      16) && (decide (t1.segVerdict .cs (t1.legacyCs a1.2) .exec (cutTarget (farWidth (.far ⟨.w16, at2000⟩ : FarOps)) a1.1 :
      Word) 1 = .ok) && (check (pushSlots [(farWidth (.far ⟨.w16, at2000⟩ : FarOps)).bytes, (farWidth (.far ⟨.w16, at2000⟩ :
      FarOps)).bytes]) t1 fun a2 t2 => true))))) = true := by decide +kernel
    obtain ⟨a1, t1, p6, h1⟩ := found h0
    obtain ⟨p11, h2⟩ := both h1
    obtain ⟨p12, h3⟩ := both h2
    obtain ⟨p13, h4⟩ := both h3
    obtain ⟨p14, h5⟩ := both h4
    obtain ⟨a2, t2, p15, h6⟩ := found h5
    exact ⟨(.far ⟨.w16, at2000⟩ : FarOps), (withDwords real 0x2000 [0x01000050]), t1, a1.1, (cutTarget (farWidth (.far
      ⟨.w16, at2000⟩ : FarOps)) a1.1 : Word), a1.2, p6, rfl, a2.1, a2.2, t2, p11, p12, p13, p14, p15⟩
  · have h0 : (check (readFarPtr .w32 at2000) (withDwords (tables (prot 0)) 0x2000 [0x5000, 8]).begin fun a1 t1 => decide
      (t1.isLegacySeg = false) && (check (farTarget a1.2) t1 fun a2 t2 => decide (a2 = (.code (code8 : SegLoad))) && (decide
      (t2.pushRoom (t2.segOf .ss) t2.stackSize t2.sp [(farWidth (.far ⟨.w32, at2000⟩ : FarOps)).bytes, (farWidth (.far
      ⟨.w32, at2000⟩ : FarOps)).bytes] = true) && (decide (t1.targetOk (code8 : SegLoad).cache (cutTarget (farWidth (.far
      ⟨.w32, at2000⟩ : FarOps)) a1.1 : Word) = true) && (check (pushSlots [(farWidth (.far ⟨.w32, at2000⟩ : FarOps)).bytes,
      (farWidth (.far ⟨.w32, at2000⟩ : FarOps)).bytes]) t2 fun a3 t3 => check (code8 : SegLoad).resolve t3 fun a4 t4 =>
      true))))) = true := by decide +kernel
    obtain ⟨a1, t1, p6, h1⟩ := found h0
    obtain ⟨p15, h2⟩ := both h1
    obtain ⟨a2, t2, p16, h3⟩ := found h2
    obtain ⟨e4, h4⟩ := both h3
    subst e4
    obtain ⟨p17, h5⟩ := both h4
    obtain ⟨p18, h6⟩ := both h5
    obtain ⟨a3, t3, p19, h7⟩ := found h6
    obtain ⟨a4, t4, p20, h8⟩ := found h7
    exact ⟨(.far ⟨.w32, at2000⟩ : FarOps), (withDwords (tables (prot 0)) 0x2000 [0x5000, 8]), t1, a1.1, (cutTarget (farWidth
      (.far ⟨.w32, at2000⟩ : FarOps)) a1.1 : Word), a1.2, p6, rfl, (code8 : SegLoad), a3.1, a3.2, a4, t2, t3, t4, p15, p16,
      p17, p18, p19, p20⟩
  · have h0 : (decide ((withDwords real 0x8000 [0x01000050]).segVerdict .ss ((withDwords real 0x8000 [0x01000050]).segOf
      .ss) .read (withDwords real 0x8000 [0x01000050]).sp (2 * (Width.w16 : Width).bytes) ≠ .limit) && (decide ((withDwords
      real 0x8000 [0x01000050]).isLegacySeg = true) && (check (stackPeek (withDwords real 0x8000 [0x01000050]).sp (Width.w16
      : Width).bytes) (withDwords real 0x8000 [0x01000050]).begin fun a1 t1 => check (stackPeek (t1.popped (Width.w16 :
      Width).bytes).sp (Width.w16 : Width).bytes) (t1.popped (Width.w16 : Width).bytes) fun a2 t2 => decide (t2.segVerdict
      .cs (t2.segOf .cs) .exec (BitVec.ofNat 64 a1) 1 = .ok) && (decide (t2.segVerdict .cs (t2.legacyCs (BitVec.ofNat 16
      a2)) .exec (BitVec.ofNat 64 a1) 1 = .ok) && true)))) = true := by decide +kernel
    obtain ⟨p5, h1⟩ := both h0
    obtain ⟨p10, h2⟩ := both h1
    obtain ⟨a1, t1, p11, h3⟩ := found h2
    obtain ⟨a2, t2, p12, h4⟩ := found h3
    obtain ⟨p13, h5⟩ := both h4
    obtain ⟨p14, h6⟩ := both h5
    exact ⟨(Width.w16 : Width), (none : Option (BitVec 16)), (withDwords real 0x8000 [0x01000050]), (((none : Option (BitVec
      16)).getD 0).setWidth 64 : Word), rfl, p5, a1, a2, t1, t2, p10, p11, p12, p13, p14⟩
  · have h0 : (decide ((withDwords (tables (prot 0)) 0x8000 [0x5000, 8]).segVerdict .ss ((withDwords (tables (prot 0))
      0x8000 [0x5000, 8]).segOf .ss) .read (withDwords (tables (prot 0)) 0x8000 [0x5000, 8]).sp (2 * (Width.w32 :
      Width).bytes) ≠ .limit) && (decide ((withDwords (tables (prot 0)) 0x8000 [0x5000, 8]).isLegacySeg = false) && (check
      (stackPeek ((withDwords (tables (prot 0)) 0x8000 [0x5000, 8]).sp + BitVec.ofNat 64 (Width.w32 : Width).bytes)
      (Width.w32 : Width).bytes) (withDwords (tables (prot 0)) 0x8000 [0x5000, 8]).begin fun a1 t1 => check (stackPeek
      (withDwords (tables (prot 0)) 0x8000 [0x5000, 8]).sp (Width.w32 : Width).bytes) t1 fun a2 t2 => check (returnCode
      (BitVec.ofNat 16 a1)) t2 fun a3 t3 => decide (rpl (BitVec.ofNat 16 a1) = (withDwords (tables (prot 0)) 0x8000 [0x5000,
      8]).cpl) && (decide ((withDwords (tables (prot 0)) 0x8000 [0x5000, 8]).targetOk a3.cache (BitVec.ofNat 64 a2) = true)
      && (check a3.resolve t3 fun a4 t4 => true))))) = true := by decide +kernel
    obtain ⟨p5, h1⟩ := both h0
    obtain ⟨p14, h2⟩ := both h1
    obtain ⟨a1, t1, p15, h3⟩ := found h2
    obtain ⟨a2, t2, p16, h4⟩ := found h3
    obtain ⟨a3, t3, p17, h5⟩ := found h4
    obtain ⟨p18, h6⟩ := both h5
    obtain ⟨p19, h7⟩ := both h6
    obtain ⟨a4, t4, p20, h8⟩ := found h7
    exact ⟨(Width.w32 : Width), (none : Option (BitVec 16)), (withDwords (tables (prot 0)) 0x8000 [0x5000, 8]), (((none :
      Option (BitVec 16)).getD 0).setWidth 64 : Word), rfl, p5, a2, a1, t1, t2, t3, t4, a3, a4, p14, p15, p16, p17, p18,
      p19, p20⟩
  · have h0 : (decide ((withDwords (tables (prot 0)) 0x8000 [0x5000, 0x1B, 0x9000, 0x23]).segVerdict .ss ((withDwords
      (tables (prot 0)) 0x8000 [0x5000, 0x1B, 0x9000, 0x23]).segOf .ss) .read (withDwords (tables (prot 0)) 0x8000 [0x5000,
      0x1B, 0x9000, 0x23]).sp (2 * (Width.w32 : Width).bytes) ≠ .limit) && (decide ((withDwords (tables (prot 0)) 0x8000
      [0x5000, 0x1B, 0x9000, 0x23]).isLegacySeg = false) && (check (stackPeek ((withDwords (tables (prot 0)) 0x8000 [0x5000,
      0x1B, 0x9000, 0x23]).sp + BitVec.ofNat 64 (Width.w32 : Width).bytes) (Width.w32 : Width).bytes) (withDwords (tables
      (prot 0)) 0x8000 [0x5000, 0x1B, 0x9000, 0x23]).begin fun a1 t1 => check (stackPeek (withDwords (tables (prot 0))
      0x8000 [0x5000, 0x1B, 0x9000, 0x23]).sp (Width.w32 : Width).bytes) t1 fun a2 t2 => check (returnCode (BitVec.ofNat 16
      a1)) t2 fun a3 t3 => decide (rpl (BitVec.ofNat 16 a1) ≠ (withDwords (tables (prot 0)) 0x8000 [0x5000, 0x1B, 0x9000,
      0x23]).cpl) && (decide (t3.segVerdict .ss (t3.segOf .ss) .read t3.sp (4 * (Width.w32 : Width).bytes + (((none : Option
      (BitVec 16)).getD 0).setWidth 64 : Word).toNat) ≠ .limit) && (check (stackPeek ((withDwords (tables (prot 0)) 0x8000
      [0x5000, 0x1B, 0x9000, 0x23]).sp + BitVec.ofNat 64 (3 * (Width.w32 : Width).bytes) + (((none : Option (BitVec
      16)).getD 0).setWidth 64 : Word)) (Width.w32 : Width).bytes) t3 fun a4 t4 => check (stackPeek ((withDwords (tables
      (prot 0)) 0x8000 [0x5000, 0x1B, 0x9000, 0x23]).sp + BitVec.ofNat 64 (2 * (Width.w32 : Width).bytes) + (((none : Option
      (BitVec 16)).getD 0).setWidth 64 : Word)) (Width.w32 : Width).bytes) t4 fun a5 t5 => check (returnStack (fun k =>
      raiseSS k) a3 (BitVec.ofNat 16 a4)) t5 fun a6 t6 => decide ((withDwords (tables (prot 0)) 0x8000 [0x5000, 0x1B,
      0x9000, 0x23]).targetOk a3.cache (BitVec.ofNat 64 a2) = true) && (check a3.resolve t6 fun a7 t7 => check a6.resolve t7
      fun a8 t8 => true)))))) = true := by decide +kernel
    obtain ⟨p5, h1⟩ := both h0
    obtain ⟨p22, h2⟩ := both h1
    obtain ⟨a1, t1, p23, h3⟩ := found h2
    obtain ⟨a2, t2, p24, h4⟩ := found h3
    obtain ⟨a3, t3, p25, h5⟩ := found h4
    obtain ⟨p26, h6⟩ := both h5
    obtain ⟨p27, h7⟩ := both h6
    obtain ⟨a4, t4, p28, h8⟩ := found h7
    obtain ⟨a5, t5, p29, h9⟩ := found h8
    obtain ⟨a6, t6, p30, h10⟩ := found h9
    obtain ⟨p31, h11⟩ := both h10
    obtain ⟨a7, t7, p32, h12⟩ := found h11
    obtain ⟨a8, t8, p33, h13⟩ := found h12
    exact ⟨(Width.w32 : Width), (none : Option (BitVec 16)), (withDwords (tables (prot 0)) 0x8000 [0x5000, 0x1B, 0x9000,
      0x23]), (((none : Option (BitVec 16)).getD 0).setWidth 64 : Word), rfl, p5, a2, a1, a4, a5, t1, t2, t3, t4, t5, t6,
      t7, t8, a3, a6, a7, a8, p22, p23, p24, p25, p26, p27, p28, p29, p30, p31, p32, p33⟩
  · let s : State := atGate (tables (prot 0))
    have h0 : (check (readFarPtr .w32 at2000) s.begin fun r u => decide (u.isLegacySeg = false) && check (farTarget r.2) u
      fun f v =>
        match f with
        | .gate g => check (gateCode g fun c => decide (c.dpl ≤ u.cpl)) v fun d x =>
          let n := g.slot x.lma
          let w := x.gateStack.withCode d x.cpl g.off
          decide ((d.cache.conforming = true ∨ u.cpl ≤ d.cache.dpl) ∧ w.pushRoom (w.segOf .ss) w.stackSize w.sp [n, n] =
            true ∧
            x.targetOk d.cache g.off = true) && check d.resolve w fun _ y => check (pushSlots [n, n]) y fun _ _ => true
        | _ => false) = true := by decide +kernel
    obtain ⟨⟨off0, sel⟩, u, p1, h⟩ := found h0
    obtain ⟨p2, h⟩ := both h
    obtain ⟨f, v, p3, h⟩ := found h
    split at h
    on_goal 2 => cases h
    rename_i g
    obtain ⟨d, x, p4, h⟩ := found h
    obtain ⟨⟨q1, q2, q3⟩, h⟩ := both h
    obtain ⟨as, y, q4, h⟩ := found h
    obtain ⟨⟨ass, fin⟩, z, q5, _⟩ := found h
    exact ⟨.far ⟨.w32, at2000⟩, s, u, v, x, off0, sel, g, d, p1, p2, p3, p4, _, _, y, z, as, ass, fin, q1, rfl, rfl, q2, q3,
      q4, q5⟩
  · let s : State := atGate (withGate64 (long 3))
    have h0 : (check (readFarPtr .w32 at2000) s.begin fun r u => decide (u.isLegacySeg = false) && check (farTarget r.2) u
      fun f v =>
        match f with
        | .gate g => check (gateCode g fun c => decide (c.dpl ≤ u.cpl)) v fun d x =>
          let cpl := d.cache.dpl
          decide (d.cache.conforming = false ∧ d.cache.dpl < u.cpl ∧ x.lma = true) && checkTss (cpl.toNat * 8 + 4) x fun rsp
            w =>
            decide ((canonical (rsp - 32) = true ∧ canonical (rsp - 1) = true) ∧ canonical g.off = true) &&
            check d.resolve (w.withCode d cpl g.off) fun _ y =>
              check (pushPlan (x.nullStack cpl) .a64 false false rsp [8, 8, 8, 8]) y fun _ _ => true
        | _ => false) = true := by decide +kernel
    obtain ⟨⟨off0, sel⟩, u, p1, h⟩ := found h0
    obtain ⟨p2, h⟩ := both h
    obtain ⟨f, v, p3, h⟩ := found h
    split at h
    on_goal 2 => cases h
    rename_i g
    obtain ⟨d, x, p4, h⟩ := found h
    obtain ⟨⟨q1, q2, q3⟩, h⟩ := both h
    obtain ⟨rsp, w, q4, h⟩ := tss h
    obtain ⟨⟨q5, q6⟩, h⟩ := both h
    obtain ⟨as, y, q7, h⟩ := found h
    obtain ⟨⟨ass, fin⟩, z, q8, _⟩ := found h
    exact ⟨.far ⟨.w32, at2000⟩, s, u, v, x, off0, sel, g, d, p1, p2, p3, p4, _, rsp, fin, as, ass, w, y, z, q1, q2, rfl, q3,
      q4, q5, q6,
      q7, q8⟩
  · let s : State := atGate (withParam (tables (withTss (prot 3))))
    have h0 : (check (readFarPtr .w32 at2000) s.begin fun r u => decide (u.isLegacySeg = false) && check (farTarget r.2) u
      fun f v =>
        match f with
        | .gate g => check (gateCode g fun c => decide (c.dpl ≤ u.cpl)) v fun d x =>
          let n := g.slot false
          let cpl := d.cache.dpl
          decide (d.cache.conforming = false ∧ d.cache.dpl < u.cpl ∧ x.lma = false) && checkInner cpl x fun ss esp u1 =>
            let size := x.stackSizeOf ss.cache
            decide (x.pushRoom ss.cache size (size.trunc esp) (List.replicate (4 + g.count) n) = true ∧ x.targetOk d.cache
              g.off = true) &&
            check ss.resolve u1 fun _ u2 => check d.resolve u2 fun _ u3 =>
              check (pushPlan ss.cache size false false (size.trunc esp) [n, n]) u3 fun r u4 => check (gateParams n x.sp
                g.count) u4 fun _ u5 =>
                check (pushPlan ss.cache size false false r.2 (List.replicate (g.count + 2) n)) u5 fun _ _ => true
        | _ => false) = true := by decide +kernel
    obtain ⟨⟨off0, sel⟩, u, p1, h⟩ := found h0
    obtain ⟨p2, h⟩ := both h
    obtain ⟨f, v, p3, h⟩ := found h
    split at h
    on_goal 2 => cases h
    rename_i g
    obtain ⟨d, x, p4, h⟩ := found h
    obtain ⟨⟨q1, q2, q3⟩, h⟩ := both h
    obtain ⟨ss, esp, u1, q4, h⟩ := inner h
    obtain ⟨⟨q5, q6⟩, h⟩ := both h
    obtain ⟨sas, u2, q7, h⟩ := found h
    obtain ⟨as, u3, q8, h⟩ := found h
    obtain ⟨⟨as1, sp1⟩, u4, q9, h⟩ := found h
    obtain ⟨ps, u5, q10, h⟩ := found h
    obtain ⟨⟨as2, fin⟩, u6, q11, _⟩ := found h
    exact ⟨.far ⟨.w32, at2000⟩, s, u, v, x, off0, sel, g, d, p1, p2, p3, p4, _, _, ss, _, esp, sp1, fin, sas, as, as1, as2,
      ps, u1, u2, u3, u4,
      u5, u6, q1, q2, rfl, q3, rfl, q4, rfl, q5, q6, q7, q8, q9, q10, q11⟩
  · have h0 : check (gateParams 4 0x8000 1) (prot 0) (fun ps _ => decide (ps.length = 1) && true) = true :=
      by decide +kernel
    obtain ⟨ps, t, p1, h⟩ := found h0
    obtain ⟨hl, _⟩ := both h
    obtain ⟨a, rfl⟩ := List.length_eq_one_iff.1 hl
    exact ⟨4, 1, 0x8000, [a], prot 0, t, (0, a), p1, List.mem_singleton.2 rfl⟩

/-- The hypotheses of `Obligations.InterruptReturnResults` can be met, clause by clause. -/
theorem witness_InterruptReturnResults :
    (∃ (a b f : Nat) (s u v x : State), s.stackTop (3 * Width.w16.bytes) ∧ Passes (stackPeek s.sp Width.w16.bytes)
      s.iretBegin a u ∧ Passes (stackPeek (u.popped Width.w16.bytes).sp Width.w16.bytes) (u.popped Width.w16.bytes) b v
      ∧ Passes (stackPeek (v.popped Width.w16.bytes).sp Width.w16.bytes) (v.popped Width.w16.bytes) f x ∧ x.segVerdict
      .cs (x.legacyCs (BitVec.ofNat 16 b)) .exec (BitVec.ofNat 64 a) 1 = .ok ∧ s.mode = .real) ∧
    (∃ (a b f : Nat) (s u v x : State), s.stackTop (3 * Width.w16.bytes) ∧ Passes (stackPeek s.sp Width.w16.bytes)
      s.iretBegin a u ∧ Passes (stackPeek (u.popped Width.w16.bytes).sp Width.w16.bytes) (u.popped Width.w16.bytes) b v
      ∧ Passes (stackPeek (v.popped Width.w16.bytes).sp Width.w16.bytes) (v.popped Width.w16.bytes) f x ∧ x.segVerdict
      .cs (x.legacyCs (BitVec.ofNat 16 b)) .exec (BitVec.ofNat 64 a) 1 = .ok ∧ s.mode = .v86 ∧ s.flags.iopl = 3) ∧
    (∃ (a b f : Nat) (s u v x y : State) (d : SegLoad) (as : List Nat), (s.mode = .prot ∨ s.mode = .compat ∨ s.mode =
      .long) ∧ s.flags.nt = false ∧ s.stackTop (3 * Width.w32.bytes) ∧ Passes (stackPeek s.sp Width.w32.bytes)
      s.iretBegin a u ∧ Passes (stackPeek (s.sp + BitVec.ofNat 64 Width.w32.bytes) Width.w32.bytes) u b v ∧ Passes
      (stackPeek (s.sp + BitVec.ofNat 64 (2 * Width.w32.bytes)) Width.w32.bytes) v f x ∧ (s.lma = true ∨ (BitVec.ofNat
      64 f).getLsbD 17 = false ∨ s.cpl ≠ 0) ∧ Passes (returnCode (BitVec.ofNat 16 b)) x d y ∧ s.targetOk d.cache
      (BitVec.ofNat 64 a) = true ∧ ∃ (z : State), rpl (BitVec.ofNat 16 b) = s.cpl ∧ s.isLong = false ∧ Passes d.resolve
      y as z) ∧
    (∃ (a b f : Nat) (s u v x y : State) (d : SegLoad) (as : List Nat), (s.mode = .prot ∨ s.mode = .compat ∨ s.mode =
      .long) ∧ s.flags.nt = false ∧ s.stackTop (3 * Width.w32.bytes) ∧ Passes (stackPeek s.sp Width.w32.bytes)
      s.iretBegin a u ∧ Passes (stackPeek (s.sp + BitVec.ofNat 64 Width.w32.bytes) Width.w32.bytes) u b v ∧ Passes
      (stackPeek (s.sp + BitVec.ofNat 64 (2 * Width.w32.bytes)) Width.w32.bytes) v f x ∧ (s.lma = true ∨ (BitVec.ofNat
      64 f).getLsbD 17 = false ∨ s.cpl ≠ 0) ∧ Passes (returnCode (BitVec.ofNat 16 b)) x d y ∧ s.targetOk d.cache
      (BitVec.ofNat 64 a) = true ∧ ∃ (c e : Nat) (y1 y2 y3 z1 z : State) (ss : SegLoad) (sas : List Nat), (rpl
      (BitVec.ofNat 16 b) ≠ s.cpl ∨ s.isLong = true) ∧ y.stackTop (5 * Width.w32.bytes) ∧ Passes (stackPeek (s.sp +
      BitVec.ofNat 64 (3 * Width.w32.bytes)) Width.w32.bytes) y e y1 ∧ Passes (stackPeek (s.sp + BitVec.ofNat 64 (4 *
      Width.w32.bytes)) Width.w32.bytes) y1 c y2 ∧ Passes (returnStack (fun k => raiseNP k) d (BitVec.ofNat 16 c)) y2 ss
      y3 ∧ Passes d.resolve y3 as z1 ∧ Passes ss.resolve z1 sas z) ∧
    (∃ (a b f esp ss es ds fs gs : Nat) (s u v x t1 t2 t3 t4 t5 t : State), s.mode = .prot ∧ s.flags.nt = false ∧ s.cpl =
      0 ∧ (BitVec.ofNat 64 f).getLsbD 17 = true ∧ s.stackTop (3 * Width.w32.bytes) ∧ Passes (stackPeek s.sp
      Width.w32.bytes) s.iretBegin a u ∧ Passes (stackPeek (s.sp + BitVec.ofNat 64 Width.w32.bytes) Width.w32.bytes) u b
      v ∧ Passes (stackPeek (s.sp + BitVec.ofNat 64 (2 * Width.w32.bytes)) Width.w32.bytes) v f x ∧ x.stackTop 36 ∧
      Passes (stackPeek (s.sp + 12) 4) x esp t1 ∧ Passes (stackPeek (s.sp + 16) 4) t1 ss t2 ∧ Passes (stackPeek (s.sp +
      20) 4) t2 es t3 ∧ Passes (stackPeek (s.sp + 24) 4) t3 ds t4 ∧ Passes (stackPeek (s.sp + 28) 4) t4 fs t5 ∧ Passes
      (stackPeek (s.sp + 32) 4) t5 gs t ∧ (BitVec.ofNat 64 a).toNat ≤ 0xFFFF) := by
  refine ⟨?_, ?_, ?_, ?_, ?_⟩
  · have h0 : (decide ((withDwords real 0x8000 [0x01000050, 2]).segVerdict .ss ((withDwords real 0x8000 [0x01000050,
      2]).segOf .ss) .read (withDwords real 0x8000 [0x01000050, 2]).sp (3 * Width.w16.bytes) ≠ .limit) && (check (stackPeek
      (withDwords real 0x8000 [0x01000050, 2]).sp Width.w16.bytes) (withDwords real 0x8000 [0x01000050, 2]).iretBegin fun a1
      t1 => check (stackPeek (t1.popped Width.w16.bytes).sp Width.w16.bytes) (t1.popped Width.w16.bytes) fun a2 t2 => check
      (stackPeek (t2.popped Width.w16.bytes).sp Width.w16.bytes) (t2.popped Width.w16.bytes) fun a3 t3 => decide
      (t3.segVerdict .cs (t3.legacyCs (BitVec.ofNat 16 a2)) .exec (BitVec.ofNat 64 a1) 1 = .ok) && (decide ((withDwords real
      0x8000 [0x01000050, 2]).mode = .real) && true))) = true := by decide +kernel
    obtain ⟨p7, h1⟩ := both h0
    obtain ⟨a1, t1, p8, h2⟩ := found h1
    obtain ⟨a2, t2, p9, h3⟩ := found h2
    obtain ⟨a3, t3, p10, h4⟩ := found h3
    obtain ⟨p11, h5⟩ := both h4
    obtain ⟨p12, h6⟩ := both h5
    exact ⟨a1, a2, a3, (withDwords real 0x8000 [0x01000050, 2]), t1, t2, t3, p7, p8, p9, p10, p11, p12⟩
  · have h0 : (decide ((withDwords v86 0x8000 [0x01000050, 2]).segVerdict .ss ((withDwords v86 0x8000 [0x01000050, 2]).segOf
      .ss) .read (withDwords v86 0x8000 [0x01000050, 2]).sp (3 * Width.w16.bytes) ≠ .limit) && (check (stackPeek (withDwords
      v86 0x8000 [0x01000050, 2]).sp Width.w16.bytes) (withDwords v86 0x8000 [0x01000050, 2]).iretBegin fun a1 t1 => check
      (stackPeek (t1.popped Width.w16.bytes).sp Width.w16.bytes) (t1.popped Width.w16.bytes) fun a2 t2 => check (stackPeek
      (t2.popped Width.w16.bytes).sp Width.w16.bytes) (t2.popped Width.w16.bytes) fun a3 t3 => decide (t3.segVerdict .cs
      (t3.legacyCs (BitVec.ofNat 16 a2)) .exec (BitVec.ofNat 64 a1) 1 = .ok) && (decide ((withDwords v86 0x8000 [0x01000050,
      2]).mode = .v86) && (decide ((withDwords v86 0x8000 [0x01000050, 2]).flags.iopl = 3) && true)))) = true :=
      by decide +kernel
    obtain ⟨p7, h1⟩ := both h0
    obtain ⟨a1, t1, p8, h2⟩ := found h1
    obtain ⟨a2, t2, p9, h3⟩ := found h2
    obtain ⟨a3, t3, p10, h4⟩ := found h3
    obtain ⟨p11, h5⟩ := both h4
    obtain ⟨p12, h6⟩ := both h5
    obtain ⟨p13, h7⟩ := both h6
    exact ⟨a1, a2, a3, (withDwords v86 0x8000 [0x01000050, 2]), t1, t2, t3, p7, p8, p9, p10, p11, p12, p13⟩
  · have h0 : (decide ((withDwords (tables (prot 0)) 0x8000 [0x5000, 8, 2]).mode = .prot ∨ (withDwords (tables (prot 0))
      0x8000 [0x5000, 8, 2]).mode = .compat ∨ (withDwords (tables (prot 0)) 0x8000 [0x5000, 8, 2]).mode = .long) && (decide
      ((withDwords (tables (prot 0)) 0x8000 [0x5000, 8, 2]).flags.nt = false) && (decide ((withDwords (tables (prot 0))
      0x8000 [0x5000, 8, 2]).segVerdict .ss ((withDwords (tables (prot 0)) 0x8000 [0x5000, 8, 2]).segOf .ss) .read
      (withDwords (tables (prot 0)) 0x8000 [0x5000, 8, 2]).sp (3 * Width.w32.bytes) ≠ .limit) && (check (stackPeek
      (withDwords (tables (prot 0)) 0x8000 [0x5000, 8, 2]).sp Width.w32.bytes) (withDwords (tables (prot 0)) 0x8000 [0x5000,
      8, 2]).iretBegin fun a1 t1 => check (stackPeek ((withDwords (tables (prot 0)) 0x8000 [0x5000, 8, 2]).sp + BitVec.ofNat
      64 Width.w32.bytes) Width.w32.bytes) t1 fun a2 t2 => check (stackPeek ((withDwords (tables (prot 0)) 0x8000 [0x5000,
      8, 2]).sp + BitVec.ofNat 64 (2 * Width.w32.bytes)) Width.w32.bytes) t2 fun a3 t3 => decide (((withDwords (tables (prot
      0)) 0x8000 [0x5000, 8, 2]).lma = true ∨ (BitVec.ofNat 64 a3).getLsbD 17 = false ∨ (withDwords (tables (prot 0)) 0x8000
      [0x5000, 8, 2]).cpl ≠ 0)) && (check (returnCode (BitVec.ofNat 16 a2)) t3 fun a4 t4 => decide ((withDwords (tables
      (prot 0)) 0x8000 [0x5000, 8, 2]).targetOk a4.cache (BitVec.ofNat 64 a1) = true) && (decide (rpl (BitVec.ofNat 16 a2) =
      (withDwords (tables (prot 0)) 0x8000 [0x5000, 8, 2]).cpl) && (decide ((withDwords (tables (prot 0)) 0x8000 [0x5000, 8,
      2]).isLong = false) && (check a4.resolve t4 fun a5 t5 => true)))))))) = true := by decide +kernel
    obtain ⟨p10, h1⟩ := both h0
    obtain ⟨p11, h2⟩ := both h1
    obtain ⟨p12, h3⟩ := both h2
    obtain ⟨a1, t1, p13, h4⟩ := found h3
    obtain ⟨a2, t2, p14, h5⟩ := found h4
    obtain ⟨a3, t3, p15, h6⟩ := found h5
    obtain ⟨p16, h7⟩ := both h6
    obtain ⟨a4, t4, p17, h8⟩ := found h7
    obtain ⟨p18, h9⟩ := both h8
    obtain ⟨p20, h10⟩ := both h9
    obtain ⟨p21, h11⟩ := both h10
    obtain ⟨a5, t5, p22, h12⟩ := found h11
    exact ⟨a1, a2, a3, (withDwords (tables (prot 0)) 0x8000 [0x5000, 8, 2]), t1, t2, t3, t4, a4, a5, p10, p11, p12, p13,
      p14, p15, p16, p17, p18, t5, p20, p21, p22⟩
  · have h0 : (decide ((withDwords (tables (prot 0)) 0x8000 [0x5000, 0x1B, 2, 0x9000, 0x23]).mode = .prot ∨ (withDwords
      (tables (prot 0)) 0x8000 [0x5000, 0x1B, 2, 0x9000, 0x23]).mode = .compat ∨ (withDwords (tables (prot 0)) 0x8000
      [0x5000, 0x1B, 2, 0x9000, 0x23]).mode = .long) && (decide ((withDwords (tables (prot 0)) 0x8000 [0x5000, 0x1B, 2,
      0x9000, 0x23]).flags.nt = false) && (decide ((withDwords (tables (prot 0)) 0x8000 [0x5000, 0x1B, 2, 0x9000,
      0x23]).segVerdict .ss ((withDwords (tables (prot 0)) 0x8000 [0x5000, 0x1B, 2, 0x9000, 0x23]).segOf .ss) .read
      (withDwords (tables (prot 0)) 0x8000 [0x5000, 0x1B, 2, 0x9000, 0x23]).sp (3 * Width.w32.bytes) ≠ .limit) && (check
      (stackPeek (withDwords (tables (prot 0)) 0x8000 [0x5000, 0x1B, 2, 0x9000, 0x23]).sp Width.w32.bytes) (withDwords
      (tables (prot 0)) 0x8000 [0x5000, 0x1B, 2, 0x9000, 0x23]).iretBegin fun a1 t1 => check (stackPeek ((withDwords (tables
      (prot 0)) 0x8000 [0x5000, 0x1B, 2, 0x9000, 0x23]).sp + BitVec.ofNat 64 Width.w32.bytes) Width.w32.bytes) t1 fun a2 t2
      => check (stackPeek ((withDwords (tables (prot 0)) 0x8000 [0x5000, 0x1B, 2, 0x9000, 0x23]).sp + BitVec.ofNat 64 (2 *
      Width.w32.bytes)) Width.w32.bytes) t2 fun a3 t3 => decide (((withDwords (tables (prot 0)) 0x8000 [0x5000, 0x1B, 2,
      0x9000, 0x23]).lma = true ∨ (BitVec.ofNat 64 a3).getLsbD 17 = false ∨ (withDwords (tables (prot 0)) 0x8000 [0x5000,
      0x1B, 2, 0x9000, 0x23]).cpl ≠ 0)) && (check (returnCode (BitVec.ofNat 16 a2)) t3 fun a4 t4 => decide ((withDwords
      (tables (prot 0)) 0x8000 [0x5000, 0x1B, 2, 0x9000, 0x23]).targetOk a4.cache (BitVec.ofNat 64 a1) = true) && (decide
      (rpl (BitVec.ofNat 16 a2) ≠ (withDwords (tables (prot 0)) 0x8000 [0x5000, 0x1B, 2, 0x9000, 0x23]).cpl ∨ (withDwords
      (tables (prot 0)) 0x8000 [0x5000, 0x1B, 2, 0x9000, 0x23]).isLong = true) && (decide (t4.segVerdict .ss (t4.segOf .ss)
      .read t4.sp (5 * Width.w32.bytes) ≠ .limit) && (check (stackPeek ((withDwords (tables (prot 0)) 0x8000 [0x5000, 0x1B,
      2, 0x9000, 0x23]).sp + BitVec.ofNat 64 (3 * Width.w32.bytes)) Width.w32.bytes) t4 fun a5 t5 => check (stackPeek
      ((withDwords (tables (prot 0)) 0x8000 [0x5000, 0x1B, 2, 0x9000, 0x23]).sp + BitVec.ofNat 64 (4 * Width.w32.bytes))
      Width.w32.bytes) t5 fun a6 t6 => check (returnStack (fun k => raiseNP k) a4 (BitVec.ofNat 16 a6)) t6 fun a7 t7 =>
      check a4.resolve t7 fun a8 t8 => check a7.resolve t8 fun a9 t9 => true)))))))) = true := by decide +kernel
    obtain ⟨p10, h1⟩ := both h0
    obtain ⟨p11, h2⟩ := both h1
    obtain ⟨p12, h3⟩ := both h2
    obtain ⟨a1, t1, p13, h4⟩ := found h3
    obtain ⟨a2, t2, p14, h5⟩ := found h4
    obtain ⟨a3, t3, p15, h6⟩ := found h5
    obtain ⟨p16, h7⟩ := both h6
    obtain ⟨a4, t4, p17, h8⟩ := found h7
    obtain ⟨p18, h9⟩ := both h8
    obtain ⟨p28, h10⟩ := both h9
    obtain ⟨p29, h11⟩ := both h10
    obtain ⟨a5, t5, p30, h12⟩ := found h11
    obtain ⟨a6, t6, p31, h13⟩ := found h12
    obtain ⟨a7, t7, p32, h14⟩ := found h13
    obtain ⟨a8, t8, p33, h15⟩ := found h14
    obtain ⟨a9, t9, p34, h16⟩ := found h15
    exact ⟨a1, a2, a3, (withDwords (tables (prot 0)) 0x8000 [0x5000, 0x1B, 2, 0x9000, 0x23]), t1, t2, t3, t4, a4, a8, p10,
      p11, p12, p13, p14, p15, p16, p17, p18, a6, a5, t5, t6, t7, t8, t9, a7, a9, p28, p29, p30, p31, p32, p33, p34⟩
  · have h0 : (decide ((withDwords (prot 0) 0x8000 [0x50, 0x100, 0x20002, 0x9000, 0, 0, 0, 0, 0]).mode = .prot) && (decide
      ((withDwords (prot 0) 0x8000 [0x50, 0x100, 0x20002, 0x9000, 0, 0, 0, 0, 0]).flags.nt = false) && (decide ((withDwords
      (prot 0) 0x8000 [0x50, 0x100, 0x20002, 0x9000, 0, 0, 0, 0, 0]).cpl = 0) && (decide ((withDwords (prot 0) 0x8000 [0x50,
      0x100, 0x20002, 0x9000, 0, 0, 0, 0, 0]).segVerdict .ss ((withDwords (prot 0) 0x8000 [0x50, 0x100, 0x20002, 0x9000, 0,
      0, 0, 0, 0]).segOf .ss) .read (withDwords (prot 0) 0x8000 [0x50, 0x100, 0x20002, 0x9000, 0, 0, 0, 0, 0]).sp (3 *
      Width.w32.bytes) ≠ .limit) && (check (stackPeek (withDwords (prot 0) 0x8000 [0x50, 0x100, 0x20002, 0x9000, 0, 0, 0, 0,
      0]).sp Width.w32.bytes) (withDwords (prot 0) 0x8000 [0x50, 0x100, 0x20002, 0x9000, 0, 0, 0, 0, 0]).iretBegin fun a1 t1
      => check (stackPeek ((withDwords (prot 0) 0x8000 [0x50, 0x100, 0x20002, 0x9000, 0, 0, 0, 0, 0]).sp + BitVec.ofNat 64
      Width.w32.bytes) Width.w32.bytes) t1 fun a2 t2 => check (stackPeek ((withDwords (prot 0) 0x8000 [0x50, 0x100, 0x20002,
      0x9000, 0, 0, 0, 0, 0]).sp + BitVec.ofNat 64 (2 * Width.w32.bytes)) Width.w32.bytes) t2 fun a3 t3 => decide
      ((BitVec.ofNat 64 a3).getLsbD 17 = true) && (decide (t3.segVerdict .ss (t3.segOf .ss) .read t3.sp 36 ≠ .limit) &&
      (check (stackPeek ((withDwords (prot 0) 0x8000 [0x50, 0x100, 0x20002, 0x9000, 0, 0, 0, 0, 0]).sp + 12) 4) t3 fun a4 t4
      => check (stackPeek ((withDwords (prot 0) 0x8000 [0x50, 0x100, 0x20002, 0x9000, 0, 0, 0, 0, 0]).sp + 16) 4) t4 fun a5
      t5 => check (stackPeek ((withDwords (prot 0) 0x8000 [0x50, 0x100, 0x20002, 0x9000, 0, 0, 0, 0, 0]).sp + 20) 4) t5 fun
      a6 t6 => check (stackPeek ((withDwords (prot 0) 0x8000 [0x50, 0x100, 0x20002, 0x9000, 0, 0, 0, 0, 0]).sp + 24) 4) t6
      fun a7 t7 => check (stackPeek ((withDwords (prot 0) 0x8000 [0x50, 0x100, 0x20002, 0x9000, 0, 0, 0, 0, 0]).sp + 28) 4)
      t7 fun a8 t8 => check (stackPeek ((withDwords (prot 0) 0x8000 [0x50, 0x100, 0x20002, 0x9000, 0, 0, 0, 0, 0]).sp + 32)
      4) t8 fun a9 t9 => decide ((BitVec.ofNat 64 a1).toNat ≤ 0xFFFF) && true))))))) = true := by decide +kernel
    obtain ⟨p19, h1⟩ := both h0
    obtain ⟨p20, h2⟩ := both h1
    obtain ⟨p21, h3⟩ := both h2
    obtain ⟨p23, h4⟩ := both h3
    obtain ⟨a1, t1, p24, h5⟩ := found h4
    obtain ⟨a2, t2, p25, h6⟩ := found h5
    obtain ⟨a3, t3, p26, h7⟩ := found h6
    obtain ⟨p22, h8⟩ := both h7
    obtain ⟨p27, h9⟩ := both h8
    obtain ⟨a4, t4, p28, h10⟩ := found h9
    obtain ⟨a5, t5, p29, h11⟩ := found h10
    obtain ⟨a6, t6, p30, h12⟩ := found h11
    obtain ⟨a7, t7, p31, h13⟩ := found h12
    obtain ⟨a8, t8, p32, h14⟩ := found h13
    obtain ⟨a9, t9, p33, h15⟩ := found h14
    obtain ⟨p34, h16⟩ := both h15
    exact ⟨a1, a2, a3, a4, a5, a6, a7, a8, a9, (withDwords (prot 0) 0x8000 [0x50, 0x100, 0x20002, 0x9000, 0, 0, 0, 0, 0]),
      t1, t2, t3, t4, t5, t6, t7, t8, t9, p19, p20, p21, p22, p23, p24, p25, p26, p27, p28, p29, p30, p31, p32, p33, p34⟩

/-- The hypotheses of `Obligations.SoftwareInterruptResults` can be met, clause by clause. -/
theorem witness_SoftwareInterruptResults :
    (∃ (s : State), s.isLong = false ∧ s.flags.of = false) ∧
    (∃ (w : Width) (r : Reg) (m : MemRef) (s u v : State) (lo hi : Nat), s.isLong = false ∧ Passes (memRead m.seg (s.ea
      m) w.bytes w.bytes) s.begin lo u ∧ Passes (memRead m.seg (s.ea m + BitVec.ofNat 64 w.bytes) w.bytes w.bytes) u hi
      v ∧ (BitVec.ofNat w.bits lo).toInt ≤ (v.reg w r).toInt ∧ (v.reg w r).toInt ≤ (BitVec.ofNat w.bits hi).toInt) ∧
    (∃ (n : BitVec 8) (s t : State), s.rtm.snapshot = none ∧ Delivered { kind := .softInt, vec := n, ret := s.ripNext }
      s.softBegin t) ∧
    (∃ s t : State, s.rtm.snapshot = none ∧ Delivered { kind := .int3, vec := 3, ret := s.ripNext } s.softBegin t) ∧
    (∃ s t : State, s.rtm.snapshot = none ∧ s.isLong = false ∧ s.flags.of = true ∧ Delivered
      { kind := .into, vec := 4, ret := s.ripNext } s.softBegin t) ∧
    (∃ s t : State, s.rtm.snapshot = none ∧ Delivered { kind := .exception, vec := 6, ret := s.rip, rf := true } s t) ∧
    (∃ (e : Event) (s t : State), Delivered e s t) ∧
    (∃ (x : Exc) (s y t : State), s.rtm.snapshot = none ∧ y =
      (match x.cr2 with | some a => { s with sys := { s.sys with cr2 := a } } | none => s) ∧ Delivered (x.event y) y t) ∧
    (∃ (e : Event) (s u : State) (x : Exc), GateOpen e s ∧ Raises (deliverTable e s.lma) s x u) ∧
    (∃ (e : Event) (s : State), s.pe = true ∧ s.flags.vm = true ∧ e.kind = .softInt ∧ s.flags.iopl ≠ 3) ∧
    (∃ (e : Event) (s : State) (n : Nat), (s.lma = true → e.kind = .into → s.isLong = false) ∧ n = (if s.lma then 16 else
      8) ∧ ¬ e.vec.toNat * n + (n - 1) ≤ s.sys.idtr.limit.toNat) ∧
    (∃ (e : Event) (s u : State) (g : Gate), IdtEntry e s g u ∧ g.isTransfer s.lma = false ∧ ¬ (s.lma = false ∧ g.s =
      false ∧ g.typ = 5)) ∧
    (∃ (e : Event) (s u : State) (g : Gate), IdtEntry e s g u ∧ g.isTransfer s.lma = true ∧ e.isSoft = true ∧ g.dpl <
      s.cpl) ∧
    (∃ (e : Event) (s u : State) (g : Gate), IdtEntry e s g u ∧ g.isTransfer s.lma = true ∧ (e.isSoft = true → s.cpl ≤
      g.dpl) ∧ g.p = false) ∧
    (∃ (e : Event) (s u v : State) (g : Gate) (x : Exc), IdtEntry e s g u ∧ GateServes e s g ∧ Raises (deliverGate e
      s.lma g) u x v) ∧
    (∃ g : Gate, isNull g.sel = true) ∧
    (∃ (g : Gate) (s : State), isNull g.sel = false ∧ s.descAddr g.sel 8 = none) ∧
    (∃ (g : Gate) (cs : SegLoad) (s u : State), GateSegment s g cs u ∧ ¬ SegmentServes s cs.cache) ∧
    (∃ (g : Gate) (cs : SegLoad) (s u : State), GateSegment s g cs u ∧ SegmentServes s cs.cache ∧ cs.cache.p = false) ∧
    (∃ (g : Gate) (cs : SegLoad) (s u : State), GateSegment s g cs u ∧ SegmentServes s cs.cache ∧ cs.cache.p = true ∧ ¬
      FromV86Ok s cs.cache) ∧
    (∃ (n : BitVec 8) (s u : State) (x : Exc), s.rtm.snapshot = none ∧ (x.vec = 11 ∨ x.vec = 13) ∧ x.cr2 = none ∧
      AccessOnly s.softBegin u ∧ Raises (deliverOnce { kind := .softInt, vec := n, ret := s.ripNext }) s.softBegin x u) := by
  refine ⟨?_, ?_, ?_, ?_, ?_, ?_, ?_, ?_, ?_, ?_, ?_, ?_, ?_, ?_, ?_, ?_, ?_, ?_, ?_, ?_, ?_⟩
  · have h0 : (decide ((prot 0).isLong = false) && (decide ((prot 0).flags.of = false) && true)) = true := by decide +kernel
    obtain ⟨p1, h1⟩ := both h0
    obtain ⟨p2, h2⟩ := both h1
    exact ⟨(prot 0), p1, p2⟩
  · have h0 : (decide ((withDwords (prot 0) 0x2000 [0, 0xFFFF]).isLong = false) && (check (memRead (at2000 : MemRef).seg
      ((withDwords (prot 0) 0x2000 [0, 0xFFFF]).ea (at2000 : MemRef)) (Width.w32 : Width).bytes (Width.w32 : Width).bytes)
      (withDwords (prot 0) 0x2000 [0, 0xFFFF]).begin fun a1 t1 => check (memRead (at2000 : MemRef).seg ((withDwords (prot 0)
      0x2000 [0, 0xFFFF]).ea (at2000 : MemRef) + BitVec.ofNat 64 (Width.w32 : Width).bytes) (Width.w32 : Width).bytes
      (Width.w32 : Width).bytes) t1 fun a2 t2 => decide ((BitVec.ofNat (Width.w32 : Width).bits a1).toInt ≤ (t2.reg
      (Width.w32 : Width) (2 : Reg)).toInt ∧ (t2.reg (Width.w32 : Width) (2 : Reg)).toInt ≤ (BitVec.ofNat (Width.w32 :
      Width).bits a2).toInt) && true)) = true := by decide +kernel
    obtain ⟨p8, h1⟩ := both h0
    obtain ⟨a1, t1, p9, h2⟩ := found h1
    obtain ⟨a2, t2, p10, h3⟩ := found h2
    obtain ⟨p11, h4⟩ := both h3
    exact ⟨(Width.w32 : Width), (2 : Reg), (at2000 : MemRef), (withDwords (prot 0) 0x2000 [0, 0xFFFF]), t1, t2, a1, a2, p8,
      p9, p10, p11⟩
  · obtain ⟨t, ht⟩ := delivered_inner (e := ⟨.softInt, 5, none, 0x1003, none, false, 0⟩) (s := (gates (withTss
      v86)).softBegin) (by decide +kernel) (by decide +kernel)
    exact ⟨5, _, t, by decide +kernel, ht⟩
  · obtain ⟨t, ht⟩ := delivered_same (e := ⟨.int3, 3, none, 0x1003, none, false, 0⟩) (s := (gates (prot 0)).softBegin)
      (by decide +kernel) (by decide +kernel)
    exact ⟨gates (prot 0), t, by decide +kernel, ht⟩
  · let s : State := { real with flags := { State.reset.flags with of := true } }
    obtain ⟨t, ht⟩ := delivered_real (e := ⟨.into, 4, none, 0x1003, none, false, 0⟩) (s := s.softBegin) (by decide +kernel)
    exact ⟨s, t, by decide +kernel, by decide +kernel, by decide +kernel, ht⟩
  · obtain ⟨t, ht⟩ := delivered_long (e := ⟨.exception, 6, none, 0x1000, none, true, 0⟩) (s := gates64 (long 3))
      (by decide +kernel) (by decide +kernel)
    exact ⟨gates64 (long 3), t, by decide +kernel, ht⟩
  · obtain ⟨t, ht⟩ := delivered_inner (e := ⟨.external, 7, none, 0x1003, none, false, 0⟩) (s := gates (withTss (prot 3)))
      (by decide +kernel) (by decide +kernel)
    exact ⟨_, _, t, ht⟩
  · obtain ⟨t, ht⟩ := delivered_inner (e := ({ vec := 13, code := some 0 } : Exc).event (gates (withTss (prot 3))))
      (s := gates (withTss (prot 3))) (by decide +kernel) (by decide +kernel)
    exact ⟨{ vec := 13, code := some 0 }, gates (withTss (prot 3)), _, t, by decide +kernel, rfl, ht⟩
  · have h0 : checkRaise (deliverTable int20 false) (gates (prot 0)) (fun _ _ => true) = true := by decide +kernel
    obtain ⟨x, u, h, _⟩ := raised h0
    exact ⟨int20, gates (prot 0), u, x, by unfold GateOpen; decide +kernel, h⟩
  · exact ⟨int20, { v86 with flags := { v86.flags with iopl := 0 } }, by decide +kernel⟩
  · exact ⟨int20, { prot 0 with sys := { (prot 0).sys with idtr := ⟨0x10000, 0x106⟩ } }, 8, by decide +kernel⟩
  · have h0 : checkEntry int20 (gates (prot 0)) (fun g _ => decide (g.isTransfer false = false ∧ ¬ (false = false ∧ g.s =
      false ∧ g.typ = 5)) && true) = true := by decide +kernel
    obtain ⟨g, u, h, h1⟩ := entry h0
    obtain ⟨p, _⟩ := both h1
    exact ⟨int20, (gates (prot 0)), u, g, h, p⟩
  · have h0 : checkEntry int20 (gateAt20 (prot 3) [0, 0x60, 8, 0, 0, 0x8E, 0, 0]) (fun g _ => decide (g.isTransfer false =
      true ∧ int20.isSoft = true ∧ g.dpl < 3) && true) = true := by decide +kernel
    obtain ⟨g, u, h, h1⟩ := entry h0
    obtain ⟨p, _⟩ := both h1
    exact ⟨int20, (gateAt20 (prot 3) [0, 0x60, 8, 0, 0, 0x8E, 0, 0]), u, g, h, p⟩
  · have h0 : checkEntry int20 (gateAt20 (prot 3) [0, 0x60, 8, 0, 0, 0x6E, 0, 0]) (fun g _ => decide (g.isTransfer false =
      true ∧ (int20.isSoft = true → 3 ≤ g.dpl) ∧ g.p = false) && true) = true := by decide +kernel
    obtain ⟨g, u, h, h1⟩ := entry h0
    obtain ⟨p, _⟩ := both h1
    exact ⟨int20, (gateAt20 (prot 3) [0, 0x60, 8, 0, 0, 0x6E, 0, 0]), u, g, h, p⟩
  · let s : State := gateAt20 (prot 0) [0, 0x60, 0, 0, 0, 0xEE, 0, 0]
    have h0 : checkEntry int20 s (fun g u => decide (g.isTransfer s.lma = true ∧ (int20.isSoft = true → s.cpl ≤ g.dpl) ∧ g.p
      = true) &&
      checkRaise (deliverGate int20 s.lma g) u fun _ _ => true) = true := by decide +kernel
    obtain ⟨g, u, h, h1⟩ := entry h0
    obtain ⟨p, h1⟩ := both h1
    obtain ⟨x, v, q, _⟩ := raised h1
    exact ⟨int20, s, u, v, g, x, h, p, q⟩
  · exact ⟨⟨14, false, 0, true, 3, 0, 0⟩, by decide +kernel⟩
  · exact ⟨⟨14, false, 0, true, 0x80, 0, 0⟩, prot 0, by decide +kernel⟩
  · let s : State := tables (prot 0)
    let g : Gate := ⟨14, false, 3, true, 0x10, 0x6000, 0⟩
    have h0 : checkCode s g (fun cs _ => decide (¬ (cs.cache.isCode = true ∧ cs.cache.dpl ≤ s.cpl ∧ (s.lma = true →
      cs.cache.l = true ∧ cs.cache.db = false))) && true) = true := by decide +kernel
    obtain ⟨cs, u, h, h1⟩ := code h0
    obtain ⟨p, _⟩ := both h1
    exact ⟨g, cs, s, u, h, p⟩
  · let s : State := withBytes (prot 0) 0x11008 [0xFF, 0xFF, 0, 0, 0, 0x1A, 0xCF, 0]
    let g : Gate := ⟨14, false, 3, true, 8, 0x6000, 0⟩
    have h0 : checkCode s g (fun cs _ => decide ((cs.cache.isCode = true ∧ cs.cache.dpl ≤ s.cpl ∧ (s.lma = true → cs.cache.l
      = true ∧ cs.cache.db = false)) ∧ cs.cache.p = false) && true) = true := by decide +kernel
    obtain ⟨cs, u, h, h1⟩ := code h0
    obtain ⟨p, _⟩ := both h1
    exact ⟨g, cs, s, u, h, p⟩
  · let s : State := tables v86
    let g : Gate := ⟨14, false, 3, true, 0x18, 0x6000, 0⟩
    have h0 : checkCode s g (fun cs _ => decide ((cs.cache.isCode = true ∧ cs.cache.dpl ≤ s.cpl ∧ (s.lma = true → cs.cache.l
      = true ∧ cs.cache.db = false)) ∧ cs.cache.p = true ∧ ¬ (s.flags.vm = true → s.goesInner cs.cache = true ∧ cs.cache.dpl
      = 0)) && true) = true := by decide +kernel
    obtain ⟨cs, u, h, h1⟩ := code h0
    obtain ⟨p, _⟩ := both h1
    exact ⟨g, cs, s, u, h, p⟩
  · let s : State := { prot 0 with sys := { (prot 0).sys with idtr := ⟨0x10000, 0x106⟩ } }
    have h0 : checkRaise (deliverOnce { kind := .softInt, vec := 0x20, ret := s.ripNext }) s.softBegin (fun x u =>
      decide (u = s.softBegin) && (decide ((x.vec = 11 ∨ x.vec = 13) ∧ x.cr2 = none) && true)) = true := by decide +kernel
    obtain ⟨x, u, h, h1⟩ := raised h0
    obtain ⟨e, h1⟩ := both h1
    obtain ⟨⟨p, q⟩, _⟩ := both h1
    subst e
    exact ⟨0x20, s, _, x, by decide +kernel, p, q, .refl _, h⟩

/-- The hypotheses of `Obligations.StringResults` can be met, clause by clause. -/
theorem witness_StringResults :
    (∃ (o : RepOp) (s : State) (n : Word), n = (repSize o).trunc (s.gp rCX) ∧ n = 0) ∧
    (∃ (o : RepCmpOp) (s : State) (n : Word), n = (cmpSize o).trunc (s.gp rCX) ∧ n = 0) ∧
    (∃ t, MovsDone .w8 .a32 .ds (prot 0).begin t) ∧
    (∃ t, CmpsDone .w8 .a32 .fs (prot 0).begin t) ∧
    (∃ t, LodsDone .w8 .a32 .ds (prot 0).begin t) ∧
    (∃ t, StosDone .w8 .a32 (prot 0).begin t) ∧
    (∃ t, ScasDone .w8 .a32 (prot 0).begin t) ∧
    (∃ t, InsDone .w8 .a32 (prot 0).begin t) ∧
    (∃ t, OutsDone .w8 .a32 .ds (prot 0).begin t) ∧
    (∃ (o : RepOp) (s u : State) (n : Word), n = (repSize o).trunc (s.gp rCX) ∧ n ≠ 0 ∧ RepDone o s.repBegin.begin u) ∧
    (∃ (o : RepCmpOp) (s u : State) (n : Word), n = (cmpSize o).trunc (s.gp rCX) ∧ n ≠ 0 ∧ RepCmpDone o s.repBegin.begin
      u) := by
  refine ⟨?_, ?_, ?_, ?_, ?_, ?_, ?_, ?_, ?_, ?_, ?_⟩
  · have h0 : (decide (((repSize (.movs ⟨.w32, .a32, none⟩ : RepOp)).trunc ((prot 0).gp rCX) : Word) = 0) && true) = true :=
      by decide +kernel
    obtain ⟨p4, h1⟩ := both h0
    exact ⟨(.movs ⟨.w32, .a32, none⟩ : RepOp), (prot 0), ((repSize (.movs ⟨.w32, .a32, none⟩ : RepOp)).trunc ((prot 0).gp
      rCX) : Word), rfl, p4⟩
  · have h0 : (decide (((cmpSize (.cmps ⟨.w32, .a32, none⟩ : RepCmpOp)).trunc ((prot 0).gp rCX) : Word) = 0) && true) = true
      := by decide +kernel
    obtain ⟨p4, h1⟩ := both h0
    exact ⟨(.cmps ⟨.w32, .a32, none⟩ : RepCmpOp), (prot 0), ((cmpSize (.cmps ⟨.w32, .a32, none⟩ : RepCmpOp)).trunc ((prot
      0).gp rCX) : Word), rfl, p4⟩
  · have h0 : check (memRead .ds (ASize.a32.trunc ((prot 0).begin.gp rSI)) 1 1) (prot 0).begin (fun _ u =>
      check (resolve .es .write 1 1 (ASize.a32.trunc (u.gp rDI)) 1) u fun _ _ => true) = true := by decide +kernel
    obtain ⟨v, u, p1, h1⟩ := found h0
    obtain ⟨as, x, p2, _⟩ := found h1
    exact ⟨_, v, u, as, x, p1, p2, rfl⟩
  · have h0 : check (memRead .fs (ASize.a32.trunc ((prot 0).begin.gp rSI)) 1 1) (prot 0).begin (fun _ u =>
      check (memRead .es (ASize.a32.trunc (u.gp rDI)) 1 1) u fun _ _ => true) = true := by decide +kernel
    obtain ⟨v, u, p1, h1⟩ := found h0
    obtain ⟨y, x, p2, _⟩ := found h1
    exact ⟨_, v, u, y, x, p1, p2, rfl⟩
  · have h0 : check (memRead .ds (ASize.a32.trunc ((prot 0).begin.gp rSI)) 1 1) (prot 0).begin (fun _ _ => true) = true :=
      by decide +kernel
    obtain ⟨v, u, p1, _⟩ := found h0
    exact ⟨_, v, u, p1, rfl⟩
  · have h0 : check (resolve .es .write 1 1 (ASize.a32.trunc ((prot 0).begin.gp rDI)) 1) (prot 0).begin (fun _ _ => true) =
      true := by
      decide +kernel
    obtain ⟨as, x, p1, _⟩ := found h0
    exact ⟨_, as, x, p1, rfl⟩
  · have h0 : check (memRead .es (ASize.a32.trunc ((prot 0).begin.gp rDI)) 1 1) (prot 0).begin (fun _ _ => true) = true :=
      by decide +kernel
    obtain ⟨y, x, p1, _⟩ := found h0
    exact ⟨_, y, x, p1, rfl⟩
  · have h0 : check (ioCheck ((prot 0).begin.portNum .dx) 1) (prot 0).begin (fun _ u =>
      check (resolve .es .write 1 1 (ASize.a32.trunc (u.gp rDI)) 1) u fun _ _ => true) = true := by decide +kernel
    obtain ⟨_, u, p1, h1⟩ := found h0
    obtain ⟨as, x, p2, _⟩ := found h1
    exact ⟨_, u, as, x, p1, p2, rfl⟩
  · have h0 : check (ioCheck ((prot 0).begin.portNum .dx) 1) (prot 0).begin (fun _ u =>
      check (memRead .ds (ASize.a32.trunc (u.gp rSI)) 1 1) u fun _ _ => true) = true := by decide +kernel
    obtain ⟨_, u, p1, h1⟩ := found h0
    obtain ⟨v, x, p2, _⟩ := found h1
    exact ⟨_, u, v, x, p1, p2, rfl⟩
  · let s : State := withReg (prot 0) 1 5
    have h0 : check (resolve .es .write 1 1 (ASize.a32.trunc (s.repBegin.begin.gp rDI)) 1) s.repBegin.begin (fun _ _ =>
      true) = true := by
      decide +kernel
    obtain ⟨as, x, p1, _⟩ := found h0
    exact ⟨.stos ⟨.w8, .a32, none⟩, s, _, 5, by decide +kernel, by decide, as, x, p1, rfl⟩
  · let s : State := withReg (prot 0) 1 5
    have h0 : check (memRead .es (ASize.a32.trunc (s.repBegin.begin.gp rDI)) 1 1) s.repBegin.begin (fun _ _ => true) = true
      := by
      decide +kernel
    obtain ⟨y, x, p1, _⟩ := found h0
    exact ⟨.scas ⟨.w8, .a32, none⟩, s, _, 5, by decide +kernel, by decide, y, x, p1, rfl⟩

/-- The hypotheses of `Obligations.PortResults` can be met, clause by clause. -/
theorem witness_PortResults :
    (∃ (w : Width) (p : Port) (s u : State), Passes (ioCheck (s.portNum p) w.bytes) s.begin () u) ∧
    (∃ (s : State), s.pe = false ∨ s.flags.vm = false ∧ s.cpl ≤ s.flags.iopl) := by
  refine ⟨?_, ?_⟩
  · have h0 : (check (ioCheck ((prot 0).portNum (.imm 0x20 : Port)) (Width.w32 : Width).bytes) (prot 0).begin fun a1 t1 =>
      true) = true := by decide +kernel
    obtain ⟨a1, t1, p4, h1⟩ := found h0
    exact ⟨(Width.w32 : Width), (.imm 0x20 : Port), (prot 0), t1, p4⟩
  · have h0 : (decide ((prot 0).pe = false ∨ (prot 0).flags.vm = false ∧ (prot 0).cpl ≤ (prot 0).flags.iopl) && true) = true
      := by decide +kernel
    obtain ⟨p1, h1⟩ := both h0
    exact ⟨(prot 0), p1⟩

/-- The hypotheses of `Obligations.HaltAndCacheResults` can be met, clause by clause. -/
theorem witness_HaltAndCacheResults :
    (∃ (s : State), s.privileged = true) ∧
    (∃ (s : State), s.privileged = true ∧ ∃ (w : Width) (r : Reg) (m : MemRef) (u : State) (d : Nat), s.has .invpcid =
      true ∧ Passes (readMem m 16) s.begin d u ∧ invpcidOk (u.isLong && u.cr4Bit 17) (u.reg w r).toNat (BitVec.ofNat 128
      d) = true) ∧
    (∃ (m : MemRef) (s u : State) (a : Nat), s.has .clfsh = true ∧ s.segVerdict m.seg (s.segOf m.seg) .exec (s.ea m) 1 =
      .ok ∧ Passes (translate .read (decide (s.cpl = 3)) false (s.linear m.seg (s.segOf m.seg) (s.ea m))) s.begin a u) ∧
    (∃ (s : State), s.has .monitor = true ∧ s.cpl = 0 ∧ s.mode ≠ .v86 ∧ ∃ (o : MonOps) (u : State) (as : List Nat), (if
      s.isLong then s.gp rCX else (s.gp rCX).setWidth 32 |>.setWidth 64) = 0 ∧ Passes (resolve (segFor o.ovr none) .read
      1 1 (o.a.trunc (s.gp rAX)) 1) s.begin as u) ∧
    (∃ (s : State), s.has .monitor = true ∧ s.cpl = 0 ∧ s.mode ≠ .v86 ∧ ∃ (e : Word), (e = (if s.isLong then s.gp rCX
      else (s.gp rCX).setWidth 32 |>.setWidth 64)) ∧ e >>> 1 = 0 ∧ (e.getLsbD 0 = true → s.mwaitBreak = true)) ∧
    (∃ (s : State) (r : Config.CpuidRow), r = s.begin.cpuidRow ((s.gp rAX).setWidth 32) ((s.gp rCX).setWidth 32)) := by
  refine ⟨?_, ?_, ?_, ?_, ?_, ?_⟩
  · have h0 : (decide ((prot 0).privileged = true) && true) = true := by decide +kernel
    obtain ⟨p1, h1⟩ := both h0
    exact ⟨(prot 0), p1⟩
  · have h0 : (decide ((prot 0).privileged = true) && (decide ((prot 0).has .invpcid = true) && (check (readMem (at2000 :
      MemRef) 16) (prot 0).begin fun a1 t1 => decide (invpcidOk (t1.isLong && t1.cr4Bit 17) (t1.reg (Width.w32 : Width) (1 :
      Reg)).toNat (BitVec.ofNat 128 a1) = true) && true))) = true := by decide +kernel
    obtain ⟨p1, h1⟩ := both h0
    obtain ⟨p7, h2⟩ := both h1
    obtain ⟨a1, t1, p8, h3⟩ := found h2
    obtain ⟨p9, h4⟩ := both h3
    exact ⟨(prot 0), p1, (Width.w32 : Width), (1 : Reg), (at2000 : MemRef), t1, a1, p7, p8, p9⟩
  · have h0 : (decide ((prot 0).has .clfsh = true) && (decide ((prot 0).segVerdict (at2000 : MemRef).seg ((prot 0).segOf
      (at2000 : MemRef).seg) .exec ((prot 0).ea (at2000 : MemRef)) 1 = .ok) && (check (translate .read (decide ((prot 0).cpl
      = 3)) false ((prot 0).linear (at2000 : MemRef).seg ((prot 0).segOf (at2000 : MemRef).seg) ((prot 0).ea (at2000 :
      MemRef)))) (prot 0).begin fun a1 t1 => true))) = true := by decide +kernel
    obtain ⟨p4, h1⟩ := both h0
    obtain ⟨p5, h2⟩ := both h1
    obtain ⟨a1, t1, p6, h3⟩ := found h2
    exact ⟨(at2000 : MemRef), (prot 0), t1, a1, p4, p5, p6⟩
  · have h0 : (decide ((prot 0).has .monitor = true) && (decide ((prot 0).cpl = 0) && (decide ((prot 0).mode ≠ .v86) &&
      (decide ((if (prot 0).isLong then (prot 0).gp rCX else ((prot 0).gp rCX).setWidth 32 |>.setWidth 64) = 0) && (check
      (resolve (segFor (⟨.a32, none⟩ : MonOps).ovr none) .read 1 1 ((⟨.a32, none⟩ : MonOps).a.trunc ((prot 0).gp rAX)) 1)
      (prot 0).begin fun a1 t1 => true))))) = true := by decide +kernel
    obtain ⟨p1, h1⟩ := both h0
    obtain ⟨p2, h2⟩ := both h1
    obtain ⟨p3, h3⟩ := both h2
    obtain ⟨p7, h4⟩ := both h3
    obtain ⟨a1, t1, p8, h5⟩ := found h4
    exact ⟨(prot 0), p1, p2, p3, (⟨.a32, none⟩ : MonOps), t1, a1, p7, p8⟩
  · have h0 : (decide ((prot 0).has .monitor = true) && (decide ((prot 0).cpl = 0) && (decide ((prot 0).mode ≠ .v86) &&
      (decide (((if (prot 0).isLong then (prot 0).gp rCX else ((prot 0).gp rCX).setWidth 32 |>.setWidth 64) : Word) >>> 1 =
      0) && (decide ((((if (prot 0).isLong then (prot 0).gp rCX else ((prot 0).gp rCX).setWidth 32 |>.setWidth 64) :
      Word).getLsbD 0 = true → (prot 0).mwaitBreak = true)) && true))))) = true := by decide +kernel
    obtain ⟨p1, h1⟩ := both h0
    obtain ⟨p2, h2⟩ := both h1
    obtain ⟨p3, h3⟩ := both h2
    obtain ⟨p6, h4⟩ := both h3
    obtain ⟨p7, h5⟩ := both h4
    exact ⟨(prot 0), p1, p2, p3, ((if (prot 0).isLong then (prot 0).gp rCX else ((prot 0).gp rCX).setWidth 32 |>.setWidth
      64) : Word), rfl, p6, p7⟩
  · exact ⟨(prot 0), ((prot 0).begin.cpuidRow (((prot 0).gp rAX).setWidth 32) (((prot 0).gp rCX).setWidth 32) :
      Config.CpuidRow), rfl⟩

/-- The hypotheses of `Obligations.ControlRegisterResults` can be met, clause by clause. -/
theorem witness_ControlRegisterResults :
    (∃ (s : State) (cr : Fin 16), s.privileged = true ∧ (cr = 0 ∨ cr = 2 ∨ cr = 3 ∨ cr = 4 ∨ cr = 8 ∧ s.isLong = true)) ∧
    (∃ (s : State), s.privileged = true) ∧
    (∃ (r : Reg) (s : State), s.privileged = true ∧ ∃ (v : Word), v = (s.reg s.crWidth r).setWidth 64 ∧ s.isLong = true ∧
      v >>> 4 = 0) ∧
    (∃ (dr : Fin 8) (s : State) (n : Nat), s.privileged = true ∧ s.sys.dr7.getLsbD 13 = false ∧ (dr = 4 ∨ dr = 5 →
      s.cr4Bit 3 = false ∧ n = dr.val + 2) ∧ (¬ (dr = 4 ∨ dr = 5) → n = dr.val)) ∧
    (∃ (r : Reg) (dr : Fin 8) (s : State) (n : Nat), s.privileged = true ∧ s.sys.dr7.getLsbD 13 = false ∧ (dr = 4 ∨ dr =
      5 → s.cr4Bit 3 = false ∧ n = dr.val + 2) ∧ (¬ (dr = 4 ∨ dr = 5) → n = dr.val) ∧ ∃ (v : Word), v = (s.reg s.crWidth
      r).setWidth 64 ∧ (n < 6 ∨ v >>> 32 = 0)) ∧
    (∃ (s : State), s.privileged = true ∧ ∃ (o : Rm) (u : State) (v : BitVec 16), Passes (readRm .w16 o) s.begin v u) ∧
    (∃ (s : State), s.isLong = false) ∧
    (∃ (s : State) (w : Width), s.isLong = true ∨ w ≠ .w32) ∧
    (∃ (s : State) (m : MemRef) (u : State) (q : Place), Passes (place .write .w16 (.mem m)) s.begin q u) ∧
    (∃ (r : Reg) (s u : State), s.privileged = true ∧ s.cr0Ok ((s.reg s.crWidth r).setWidth 64) = true ∧ PagingInstalled
      false s.begin
      { s.begin with sys := { s.sys with cr0 := ((s.reg s.crWidth r).setWidth 64 &&& cr0Writable) ||| 0x10 } } u) ∧
    (∃ (r : Reg) (s u : State), s.privileged = true ∧ (s.lma = true → (s.reg s.crWidth r).setWidth 64 &&& s.cr3Reserved =
      0) ∧ PagingInstalled true s.begin
      { s.begin with sys := { s.sys with cr3 := (s.reg s.crWidth r).setWidth 64 &&& ~~~(bitsMask 63 s.cfg.maxPhyAddr) } }
      u) ∧
    (∃ (r : Reg) (s u : State), s.privileged = true ∧ s.cr4Ok ((s.reg s.crWidth r).setWidth 64) = true ∧ PagingInstalled
      false s.begin { s.begin with sys := { s.sys with cr4 := (s.reg s.crWidth r).setWidth 64 } } u) := by
  refine ⟨?_, ?_, ?_, ?_, ?_, ?_, ?_, ?_, ?_, ?_, ?_, ?_⟩
  · have h0 : (decide ((prot 0).privileged = true) && (decide ((3 : Fin 16) = 0 ∨ (3 : Fin 16) = 2 ∨ (3 : Fin 16) = 3 ∨ (3 :
      Fin 16) = 4 ∨ (3 : Fin 16) = 8 ∧ (prot 0).isLong = true) && true)) = true := by decide +kernel
    obtain ⟨p2, h1⟩ := both h0
    obtain ⟨p3, h2⟩ := both h1
    exact ⟨(prot 0), (3 : Fin 16), p2, p3⟩
  · have h0 : (decide ((prot 0).privileged = true) && true) = true := by decide +kernel
    obtain ⟨p1, h1⟩ := both h0
    exact ⟨(prot 0), p1⟩
  · have h0 : (decide ((long 0).privileged = true) && (decide ((long 0).isLong = true) && (decide ((((long 0).reg (long
      0).crWidth (1 : Reg)).setWidth 64 : Word) >>> 4 = 0) && true))) = true := by decide +kernel
    obtain ⟨p2, h1⟩ := both h0
    obtain ⟨p5, h2⟩ := both h1
    obtain ⟨p6, h3⟩ := both h2
    exact ⟨(1 : Reg), (long 0), p2, (((long 0).reg (long 0).crWidth (1 : Reg)).setWidth 64 : Word), rfl, p5, p6⟩
  · have h0 : (decide ((prot 0).privileged = true) && (decide ((prot 0).sys.dr7.getLsbD 13 = false) && (decide (((1 : Fin 8)
      = 4 ∨ (1 : Fin 8) = 5 → (prot 0).cr4Bit 3 = false ∧ (1 : Nat) = (1 : Fin 8).val + 2)) && (decide ((¬ ((1 : Fin 8) = 4
      ∨ (1 : Fin 8) = 5) → (1 : Nat) = (1 : Fin 8).val)) && true)))) = true := by decide +kernel
    obtain ⟨p3, h1⟩ := both h0
    obtain ⟨p4, h2⟩ := both h1
    obtain ⟨p5, h3⟩ := both h2
    obtain ⟨p6, h4⟩ := both h3
    exact ⟨(1 : Fin 8), (prot 0), (1 : Nat), p3, p4, p5, p6⟩
  · have h0 : (decide ((prot 0).privileged = true) && (decide ((prot 0).sys.dr7.getLsbD 13 = false) && (decide (((1 : Fin 8)
      = 4 ∨ (1 : Fin 8) = 5 → (prot 0).cr4Bit 3 = false ∧ (1 : Nat) = (1 : Fin 8).val + 2)) && (decide ((¬ ((1 : Fin 8) = 4
      ∨ (1 : Fin 8) = 5) → (1 : Nat) = (1 : Fin 8).val)) && (decide (((1 : Nat) < 6 ∨ (((prot 0).reg (prot 0).crWidth (1 :
      Reg)).setWidth 64 : Word) >>> 32 = 0)) && true))))) = true := by decide +kernel
    obtain ⟨p4, h1⟩ := both h0
    obtain ⟨p5, h2⟩ := both h1
    obtain ⟨p6, h3⟩ := both h2
    obtain ⟨p7, h4⟩ := both h3
    obtain ⟨p10, h5⟩ := both h4
    exact ⟨(1 : Reg), (1 : Fin 8), (prot 0), (1 : Nat), p4, p5, p6, p7, (((prot 0).reg (prot 0).crWidth (1 : Reg)).setWidth
      64 : Word), rfl, p10⟩
  · have h0 : (decide ((prot 0).privileged = true) && (check (readRm .w16 (.mem at2000 : Rm)) (prot 0).begin fun a1 t1 =>
      true)) = true := by decide +kernel
    obtain ⟨p1, h1⟩ := both h0
    obtain ⟨a1, t1, p5, h2⟩ := found h1
    exact ⟨(prot 0), p1, (.mem at2000 : Rm), t1, a1, p5⟩
  · have h0 : (decide ((prot 0).isLong = false) && true) = true := by decide +kernel
    obtain ⟨p1, h1⟩ := both h0
    exact ⟨(prot 0), p1⟩
  · have h0 : (decide ((prot 0).isLong = true ∨ (Width.w16 : Width) ≠ .w32) && true) = true := by decide +kernel
    obtain ⟨p2, h1⟩ := both h0
    exact ⟨(prot 0), (Width.w16 : Width), p2⟩
  · have h0 : (check (place .write .w16 (.mem (at2000 : MemRef))) (prot 0).begin fun a1 t1 => true) = true :=
      by decide +kernel
    obtain ⟨a1, t1, p4, h1⟩ := found h0
    exact ⟨(prot 0), (at2000 : MemRef), t1, a1, p4⟩
  · exact ⟨1, prot 0, _, by decide +kernel, by decide +kernel, (by unfold PagingInstalled; rw [if_neg (by decide +kernel)])⟩
  · exact ⟨2, prot 0, _, by decide +kernel, by decide +kernel, (by unfold PagingInstalled; rw [if_neg (by decide +kernel)])⟩
  · exact ⟨1, prot 0, _, by decide +kernel, by decide +kernel, (by unfold PagingInstalled; rw [if_neg (by decide +kernel)])⟩

/-- The hypotheses of `Obligations.DescriptorTableResults` can be met, clause by clause. -/
theorem witness_DescriptorTableResults :
    (∃ (o : FarMem) (s u : State) (t : TableReg), s.privileged = true ∧ Passes (readTable o) s.begin t u) ∧
    (∃ (o : FarMem) (s : State) (n : Nat) (u v : State) (a b : List Nat), n = (if o.w = .w64 then 8 else 4) ∧ Passes
      (resolve o.mem.seg .write 2 1 (s.ea o.mem) 2) s.begin a u ∧ Passes (resolve o.mem.seg .write 4 1 (s.ea o.mem + 2)
      n) u b v) ∧
    (∃ (s u : State) (o : Rm) (sel : BitVec 16), s.isLegacySeg = false ∧ s.privileged = true ∧ Passes (readRm .w16 o)
      s.begin sel u ∧ isNull sel = true) ∧
    (∃ (s u : State) (o : Rm) (sel : BitVec 16), s.isLegacySeg = false ∧ s.privileged = true ∧ Passes (readRm .w16 o)
      s.begin sel u ∧ ∃ (v : State) (a : Word) (d : BitVec 128) (c : SegCache), isNull sel = false ∧ Passes (gdtSystem
      sel) u (a, d) v ∧ c = descCache sel d ∧ c.s = false ∧ c.p = true ∧ c.typ = 2) ∧
    (∃ (s u : State) (o : Rm) (sel : BitVec 16), s.isLegacySeg = false ∧ s.privileged = true ∧ Passes (readRm .w16 o)
      s.begin sel u ∧ ∃ (v : State) (a : Word) (d : BitVec 128) (c : SegCache), isNull sel = false ∧ Passes (gdtSystem
      sel) u (a, d) v ∧ c = descCache sel d ∧ c.s = false ∧ c.p = true ∧ ∃ (x : State) (as : List Nat), (c.typ = 9 ∨
      v.lma = false ∧ c.typ = 1) ∧ (v.lma = true → d.extractLsb' 104 5 = 0) ∧ Passes (sysResolve .write (a + 5) 1) v as
      x) ∧
    (∃ (s : State), s.isLegacySeg = false) ∧
    (∃ (s : State), s.isLegacySeg = false ∧ ∃ (m : MemRef) (u : State) (q : Place), Passes (place .write .w16 (.mem m))
      s.begin q u) ∧
    (∃ (s u v : State) (src : Rm) (sel : BitVec 16) (r : Option (SegCache × BitVec 128)), s.isLegacySeg = false ∧ Passes
      (readRm .w16 src) s.begin sel u ∧ Passes (inspect sel) u r v ∧ (r = none ∨ (∃ c d, r = some (c, d) ∧ (u.mayInspect
      c sel && (c.s || larType u.lma c.typ)) = false))) ∧
    (∃ (s u v : State) (src : Rm) (sel : BitVec 16) (r : Option (SegCache × BitVec 128)), s.isLegacySeg = false ∧ Passes
      (readRm .w16 src) s.begin sel u ∧ Passes (inspect sel) u r v ∧ ∃ (c : _) (d : _), r = some (c, d) ∧ (u.mayInspect
      c sel && (c.s || larType u.lma c.typ)) = true) ∧
    (∃ (s u v : State) (src : Rm) (sel : BitVec 16) (r : Option (SegCache × BitVec 128)), s.isLegacySeg = false ∧ Passes
      (readRm .w16 src) s.begin sel u ∧ Passes (inspect sel) u r v ∧ (r = none ∨ (∃ c d, r = some (c, d) ∧ (u.mayInspect
      c sel && (c.s || lslType u.lma c.typ)) = false))) ∧
    (∃ (s u v : State) (src : Rm) (sel : BitVec 16) (r : Option (SegCache × BitVec 128)), s.isLegacySeg = false ∧ Passes
      (readRm .w16 src) s.begin sel u ∧ Passes (inspect sel) u r v ∧ ∃ (c : _) (d : _), r = some (c, d) ∧ (u.mayInspect
      c sel && (c.s || lslType u.lma c.typ)) = true) ∧
    (∃ (s u v : State) (src : Rm) (sel : BitVec 16) (r : Option (SegCache × BitVec 128)), s.isLegacySeg = false ∧ Passes
      (readRm .w16 src) s.begin sel u ∧ Passes (inspect sel) u r v ∧ r = none) ∧
    (∃ (s u v : State) (src : Rm) (sel : BitVec 16) (r : Option (SegCache × BitVec 128)), s.isLegacySeg = false ∧ Passes
      (readRm .w16 src) s.begin sel u ∧ Passes (inspect sel) u r v ∧ ∃ (c : _) (d : _), r = some (c, d)) := by
  refine ⟨?_, ?_, ?_, ?_, ?_, ?_, ?_, ?_, ?_, ?_, ?_, ?_, ?_⟩
  · have h0 : (decide ((prot 0).privileged = true) && (check (readTable (⟨.w32, at2000⟩ : FarMem)) (prot 0).begin fun a1 t1
      => true)) = true := by decide +kernel
    obtain ⟨p4, h1⟩ := both h0
    obtain ⟨a1, t1, p5, h2⟩ := found h1
    exact ⟨(⟨.w32, at2000⟩ : FarMem), (prot 0), t1, a1, p4, p5⟩
  · have h0 : (check (resolve (⟨.w32, at2000⟩ : FarMem).mem.seg .write 2 1 ((prot 0).ea (⟨.w32, at2000⟩ : FarMem).mem) 2)
      (prot 0).begin fun a1 t1 => check (resolve (⟨.w32, at2000⟩ : FarMem).mem.seg .write 4 1 ((prot 0).ea (⟨.w32, at2000⟩ :
      FarMem).mem + 2) ((if (⟨.w32, at2000⟩ : FarMem).w = .w64 then 8 else 4) : Nat)) t1 fun a2 t2 => true) = true :=
      by decide +kernel
    obtain ⟨a1, t1, p8, h1⟩ := found h0
    obtain ⟨a2, t2, p9, h2⟩ := found h1
    exact ⟨(⟨.w32, at2000⟩ : FarMem), (prot 0), ((if (⟨.w32, at2000⟩ : FarMem).w = .w64 then 8 else 4) : Nat), t1, t2, a1,
      a2, rfl, p8, p9⟩
  · have h0 : (decide ((prot 0).isLegacySeg = false) && (decide ((prot 0).privileged = true) && (check (readRm .w16 (.mem
      at2000 : Rm)) (prot 0).begin fun a1 t1 => decide (isNull a1 = true) && true))) = true := by decide +kernel
    obtain ⟨p4, h1⟩ := both h0
    obtain ⟨p5, h2⟩ := both h1
    obtain ⟨a1, t1, p6, h3⟩ := found h2
    obtain ⟨p7, h4⟩ := both h3
    exact ⟨(prot 0), t1, (.mem at2000 : Rm), a1, p4, p5, p6, p7⟩
  · have h0 : (decide ((withReg (tables (prot 0)) 2 0x38).isLegacySeg = false) && (decide ((withReg (tables (prot 0)) 2
      0x38).privileged = true) && (check (readRm .w16 (.reg (.lo 2) : Rm)) (withReg (tables (prot 0)) 2 0x38).begin fun a1
      t1 => decide (isNull a1 = false) && (check (gdtSystem a1) t1 fun a2 t2 => decide ((descCache a1 a2.2 : SegCache).s =
      false) && (decide ((descCache a1 a2.2 : SegCache).p = true) && (decide ((descCache a1 a2.2 : SegCache).typ = 2) &&
      true)))))) = true := by decide +kernel
    obtain ⟨p4, h1⟩ := both h0
    obtain ⟨p5, h2⟩ := both h1
    obtain ⟨a1, t1, p6, h3⟩ := found h2
    obtain ⟨p11, h4⟩ := both h3
    obtain ⟨a2, t2, p12, h5⟩ := found h4
    obtain ⟨p14, h6⟩ := both h5
    obtain ⟨p15, h7⟩ := both h6
    obtain ⟨p16, h8⟩ := both h7
    exact ⟨(withReg (tables (prot 0)) 2 0x38), t1, (.reg (.lo 2) : Rm), a1, p4, p5, p6, t2, a2.1, a2.2, (descCache a1 a2.2 :
      SegCache), p11, p12, rfl, p14, p15, p16⟩
  · have h0 : (decide ((withReg (tables (prot 0)) 2 0x30).isLegacySeg = false) && (decide ((withReg (tables (prot 0)) 2
      0x30).privileged = true) && (check (readRm .w16 (.reg (.lo 2) : Rm)) (withReg (tables (prot 0)) 2 0x30).begin fun a1
      t1 => decide (isNull a1 = false) && (check (gdtSystem a1) t1 fun a2 t2 => decide ((descCache a1 a2.2 : SegCache).s =
      false) && (decide ((descCache a1 a2.2 : SegCache).p = true) && (decide (((descCache a1 a2.2 : SegCache).typ = 9 ∨
      t2.lma = false ∧ (descCache a1 a2.2 : SegCache).typ = 1)) && (decide ((t2.lma = true → a2.2.extractLsb' 104 5 = 0)) &&
      (check (sysResolve .write (a2.1 + 5) 1) t2 fun a3 t3 => true)))))))) = true := by decide +kernel
    obtain ⟨p4, h1⟩ := both h0
    obtain ⟨p5, h2⟩ := both h1
    obtain ⟨a1, t1, p6, h3⟩ := found h2
    obtain ⟨p11, h4⟩ := both h3
    obtain ⟨a2, t2, p12, h5⟩ := found h4
    obtain ⟨p14, h6⟩ := both h5
    obtain ⟨p15, h7⟩ := both h6
    obtain ⟨p18, h8⟩ := both h7
    obtain ⟨p19, h9⟩ := both h8
    obtain ⟨a3, t3, p20, h10⟩ := found h9
    exact ⟨(withReg (tables (prot 0)) 2 0x30), t1, (.reg (.lo 2) : Rm), a1, p4, p5, p6, t2, a2.1, a2.2, (descCache a1 a2.2 :
      SegCache), p11, p12, rfl, p14, p15, t3, a3, p18, p19, p20⟩
  · have h0 : (decide ((prot 0).isLegacySeg = false) && true) = true := by decide +kernel
    obtain ⟨p1, h1⟩ := both h0
    exact ⟨(prot 0), p1⟩
  · have h0 : (decide ((prot 0).isLegacySeg = false) && (check (place .write .w16 (.mem (at2000 : MemRef))) (prot 0).begin
      fun a1 t1 => true)) = true := by decide +kernel
    obtain ⟨p1, h1⟩ := both h0
    obtain ⟨a1, t1, p5, h2⟩ := found h1
    exact ⟨(prot 0), p1, (at2000 : MemRef), t1, a1, p5⟩
  · have h0 : (decide ((prot 0).isLegacySeg = false) && (check (readRm .w16 (.mem at2000 : Rm)) (prot 0).begin fun a1 t1 =>
      check (inspect a1) t1 fun a2 t2 => decide (a2 = (none : Option (SegCache × BitVec 128))) && true)) = true :=
      by decide +kernel
    obtain ⟨p6, h1⟩ := both h0
    obtain ⟨a1, t1, p7, h2⟩ := found h1
    obtain ⟨a2, t2, p8, h3⟩ := found h2
    obtain ⟨e4, h4⟩ := both h3
    subst e4
    exact ⟨(prot 0), t1, t2, (.mem at2000 : Rm), a1, (none : Option (SegCache × BitVec 128)), p6, p7, p8, (Or.inl rfl)⟩
  · have h0 : (decide ((withReg (tables (prot 0)) 2 8).isLegacySeg = false) && (check (readRm .w16 (.reg (.lo 2) : Rm))
      (withReg (tables (prot 0)) 2 8).begin fun a1 t1 => check (inspect a1) t1 fun a2 t2 => decide (a2 = (some (descCache 8
      0x00CF9A000000FFFF, 0x00CF9A000000FFFF) : Option (SegCache × BitVec 128))) && (decide ((some (descCache 8
      0x00CF9A000000FFFF, 0x00CF9A000000FFFF) : Option (SegCache × BitVec 128)) = some ((descCache 8 0x00CF9A000000FFFF),
      (0x00CF9A000000FFFF : BitVec 128))) && (decide ((t1.mayInspect (descCache 8 0x00CF9A000000FFFF) a1 && ((descCache 8
      0x00CF9A000000FFFF).s || larType t1.lma (descCache 8 0x00CF9A000000FFFF).typ)) = true) && true)))) = true :=
      by decide +kernel
    obtain ⟨p6, h1⟩ := both h0
    obtain ⟨a1, t1, p7, h2⟩ := found h1
    obtain ⟨a2, t2, p8, h3⟩ := found h2
    obtain ⟨e4, h4⟩ := both h3
    subst e4
    obtain ⟨p11, h5⟩ := both h4
    obtain ⟨p12, h6⟩ := both h5
    exact ⟨(withReg (tables (prot 0)) 2 8), t1, t2, (.reg (.lo 2) : Rm), a1, (some (descCache 8 0x00CF9A000000FFFF,
      0x00CF9A000000FFFF) : Option (SegCache × BitVec 128)), p6, p7, p8, (descCache 8 0x00CF9A000000FFFF),
      (0x00CF9A000000FFFF : BitVec 128), p11, p12⟩
  · have h0 : (decide ((prot 0).isLegacySeg = false) && (check (readRm .w16 (.mem at2000 : Rm)) (prot 0).begin fun a1 t1 =>
      check (inspect a1) t1 fun a2 t2 => decide (a2 = (none : Option (SegCache × BitVec 128))) && true)) = true :=
      by decide +kernel
    obtain ⟨p6, h1⟩ := both h0
    obtain ⟨a1, t1, p7, h2⟩ := found h1
    obtain ⟨a2, t2, p8, h3⟩ := found h2
    obtain ⟨e4, h4⟩ := both h3
    subst e4
    exact ⟨(prot 0), t1, t2, (.mem at2000 : Rm), a1, (none : Option (SegCache × BitVec 128)), p6, p7, p8, (Or.inl rfl)⟩
  · have h0 : (decide ((withReg (tables (prot 0)) 2 8).isLegacySeg = false) && (check (readRm .w16 (.reg (.lo 2) : Rm))
      (withReg (tables (prot 0)) 2 8).begin fun a1 t1 => check (inspect a1) t1 fun a2 t2 => decide (a2 = (some (descCache 8
      0x00CF9A000000FFFF, 0x00CF9A000000FFFF) : Option (SegCache × BitVec 128))) && (decide ((some (descCache 8
      0x00CF9A000000FFFF, 0x00CF9A000000FFFF) : Option (SegCache × BitVec 128)) = some ((descCache 8 0x00CF9A000000FFFF),
      (0x00CF9A000000FFFF : BitVec 128))) && (decide ((t1.mayInspect (descCache 8 0x00CF9A000000FFFF) a1 && ((descCache 8
      0x00CF9A000000FFFF).s || lslType t1.lma (descCache 8 0x00CF9A000000FFFF).typ)) = true) && true)))) = true :=
      by decide +kernel
    obtain ⟨p6, h1⟩ := both h0
    obtain ⟨a1, t1, p7, h2⟩ := found h1
    obtain ⟨a2, t2, p8, h3⟩ := found h2
    obtain ⟨e4, h4⟩ := both h3
    subst e4
    obtain ⟨p11, h5⟩ := both h4
    obtain ⟨p12, h6⟩ := both h5
    exact ⟨(withReg (tables (prot 0)) 2 8), t1, t2, (.reg (.lo 2) : Rm), a1, (some (descCache 8 0x00CF9A000000FFFF,
      0x00CF9A000000FFFF) : Option (SegCache × BitVec 128)), p6, p7, p8, (descCache 8 0x00CF9A000000FFFF),
      (0x00CF9A000000FFFF : BitVec 128), p11, p12⟩
  · have h0 : (decide ((prot 0).isLegacySeg = false) && (check (readRm .w16 (.mem at2000 : Rm)) (prot 0).begin fun a1 t1 =>
      check (inspect a1) t1 fun a2 t2 => decide (a2 = none) && true)) = true := by decide +kernel
    obtain ⟨p6, h1⟩ := both h0
    obtain ⟨a1, t1, p7, h2⟩ := found h1
    obtain ⟨a2, t2, p8, h3⟩ := found h2
    obtain ⟨p9, h4⟩ := both h3
    exact ⟨(prot 0), t1, t2, (.mem at2000 : Rm), a1, a2, p6, p7, p8, p9⟩
  · have h0 : (decide ((withReg (tables (prot 0)) 2 8).isLegacySeg = false) && (check (readRm .w16 (.reg (.lo 2) : Rm))
      (withReg (tables (prot 0)) 2 8).begin fun a1 t1 => check (inspect a1) t1 fun a2 t2 => decide (a2 = (some (descCache 8
      0x00CF9A000000FFFF, 0x00CF9A000000FFFF) : Option (SegCache × BitVec 128))) && (decide ((some (descCache 8
      0x00CF9A000000FFFF, 0x00CF9A000000FFFF) : Option (SegCache × BitVec 128)) = some ((descCache 8 0x00CF9A000000FFFF),
      (0x00CF9A000000FFFF : BitVec 128))) && true))) = true := by decide +kernel
    obtain ⟨p6, h1⟩ := both h0
    obtain ⟨a1, t1, p7, h2⟩ := found h1
    obtain ⟨a2, t2, p8, h3⟩ := found h2
    obtain ⟨e4, h4⟩ := both h3
    subst e4
    obtain ⟨p11, h5⟩ := both h4
    exact ⟨(withReg (tables (prot 0)) 2 8), t1, t2, (.reg (.lo 2) : Rm), a1, (some (descCache 8 0x00CF9A000000FFFF,
      0x00CF9A000000FFFF) : Option (SegCache × BitVec 128)), p6, p7, p8, (descCache 8 0x00CF9A000000FFFF),
      (0x00CF9A000000FFFF : BitVec 128), p11⟩

/-- The hypotheses of `Obligations.SpecialRegisterResults` can be met, clause by clause. -/
theorem witness_SpecialRegisterResults :
    (∃ (s : State) (a : BitVec 32), s.privileged = true ∧ a = s.reg .w32 rCX ∧ a = 0x10) ∧
    (∃ (s : State) (a : BitVec 32), s.privileged = true ∧ a = s.reg .w32 rCX ∧ ∃ v, a ≠ 0x10 ∧ s.msrValue a = some v) ∧
    (∃ (s : State) (a : BitVec 32), s.privileged = true ∧ a = s.reg .w32 rCX ∧ s.msrWritable a = true ∧ s.edxEax &&&
      s.msrReserved a = 0 ∧ (msrCanonical a = true → canonical s.edxEax = true) ∧ (a = 0xC0000080 → s.eferOk s.edxEax =
      true)) ∧
    (∃ (s : State), TscReady s ∧ s.has .tsc = true) ∧
    (∃ (s : State), TscReady s ∧ s.has .rdtscp = true) ∧
    (∃ (s : State), (s.cr4Bit 8 = true ∨ s.cpl = 0 ∨ s.pe = false) ∧ s.cfg.pmcValid.contains (s.reg .w32 rCX) = true) ∧
    (∃ (s : State), s.has .rdrand = true) ∧
    (∃ (s : State), s.cr4Bit 22 = true ∧ s.reg .w32 rCX = 0) ∧
    (∃ (s : State), s.cr4Bit 22 = true ∧ s.reg .w32 rCX = 0 ∧ s.reg .w32 rDX = 0) ∧
    (∃ (s : State), XsaveReady s ∧ s.reg .w32 rCX = 0) ∧
    (∃ (s : State), XsaveReady s ∧ s.reg .w32 rCX = 1 ∧ s.has .xg1 = true) ∧
    (∃ (s : State), XsaveReady s ∧ s.privileged = true ∧ s.reg .w32 rCX = 0 ∧ s.edxEax &&& ~~~xcr0Supported = 0 ∧
      s.edxEax.getLsbD 0 = true ∧ (s.edxEax.getLsbD 2 = true → s.edxEax.getLsbD 1 = true)) ∧
    (∃ (s : State), s.isLong = true ∧ s.cr4Bit 16 = true ∧ s.has .fsgsbase = true) ∧
    (∃ (s : State), s.isLong = true ∧ ∃ (w : Width) (r : Reg), s.cr4Bit 16 = true ∧ s.has .fsgsbase = true ∧ canonical
      ((s.reg w r).setWidth 64) = true) ∧
    (∃ (s : State), s.isLong = true ∧ s.cpl = 0) := by
  refine ⟨?_, ?_, ?_, ?_, ?_, ?_, ?_, ?_, ?_, ?_, ?_, ?_, ?_, ?_, ?_⟩
  · have h0 : (decide ((withReg (prot 0) 1 0x10).privileged = true) && (decide ((show BitVec 32 from (withReg (prot 0) 1
      0x10).reg .w32 rCX) = 0x10) && true)) = true := by decide +kernel
    obtain ⟨p2, h1⟩ := both h0
    obtain ⟨p4, h2⟩ := both h1
    exact ⟨(withReg (prot 0) 1 0x10), (show BitVec 32 from (withReg (prot 0) 1 0x10).reg .w32 rCX), p2, rfl, p4⟩
  · have h0 : (decide ((withReg (prot 0) 1 0x174).privileged = true) && (decide ((show BitVec 32 from (withReg (prot 0) 1
      0x174).reg .w32 rCX) ≠ 0x10) && (decide ((withReg (prot 0) 1 0x174).msrValue (show BitVec 32 from (withReg (prot 0) 1
      0x174).reg .w32 rCX) = some (0 : Word)) && true))) = true := by decide +kernel
    obtain ⟨p2, h1⟩ := both h0
    obtain ⟨p5, h2⟩ := both h1
    obtain ⟨p6, h3⟩ := both h2
    exact ⟨(withReg (prot 0) 1 0x174), (show BitVec 32 from (withReg (prot 0) 1 0x174).reg .w32 rCX), p2, rfl, (0 : Word),
      p5, p6⟩
  · have h0 : (decide ((withReg (withReg (prot 0) 1 0x174) 2 0).privileged = true) && (decide ((withReg (withReg (prot 0) 1
      0x174) 2 0).msrWritable (show BitVec 32 from (withReg (withReg (prot 0) 1 0x174) 2 0).reg .w32 rCX) = true) && (decide
      ((withReg (withReg (prot 0) 1 0x174) 2 0).edxEax &&& (withReg (withReg (prot 0) 1 0x174) 2 0).msrReserved (show BitVec
      32 from (withReg (withReg (prot 0) 1 0x174) 2 0).reg .w32 rCX) = 0) && (decide ((msrCanonical (show BitVec 32 from
      (withReg (withReg (prot 0) 1 0x174) 2 0).reg .w32 rCX) = true → canonical (withReg (withReg (prot 0) 1 0x174) 2
      0).edxEax = true)) && (decide (((show BitVec 32 from (withReg (withReg (prot 0) 1 0x174) 2 0).reg .w32 rCX) =
      0xC0000080 → (withReg (withReg (prot 0) 1 0x174) 2 0).eferOk (withReg (withReg (prot 0) 1 0x174) 2 0).edxEax = true))
      && true))))) = true := by decide +kernel
    obtain ⟨p2, h1⟩ := both h0
    obtain ⟨p4, h2⟩ := both h1
    obtain ⟨p5, h3⟩ := both h2
    obtain ⟨p6, h4⟩ := both h3
    obtain ⟨p7, h5⟩ := both h4
    exact ⟨(withReg (withReg (prot 0) 1 0x174) 2 0), (show BitVec 32 from (withReg (withReg (prot 0) 1 0x174) 2 0).reg .w32
      rCX), p2, rfl, p4, p5, p6, p7⟩
  · have h0 : (decide ((prot 0).has .tsc = true) && true) = true := by decide +kernel
    obtain ⟨p2, h1⟩ := both h0
    exact ⟨(prot 0), (by unfold TscReady; decide +kernel), p2⟩
  · have h0 : (decide ((prot 0).has .rdtscp = true) && true) = true := by decide +kernel
    obtain ⟨p2, h1⟩ := both h0
    exact ⟨(prot 0), (by unfold TscReady; decide +kernel), p2⟩
  · have h0 : (decide ((prot 0).cr4Bit 8 = true ∨ (prot 0).cpl = 0 ∨ (prot 0).pe = false) && (decide ((prot
      0).cfg.pmcValid.contains ((prot 0).reg .w32 rCX) = true) && true)) = true := by decide +kernel
    obtain ⟨p1, h1⟩ := both h0
    obtain ⟨p2, h2⟩ := both h1
    exact ⟨(prot 0), p1, p2⟩
  · have h0 : (decide ((prot 0).has .rdrand = true) && true) = true := by decide +kernel
    obtain ⟨p1, h1⟩ := both h0
    exact ⟨(prot 0), p1⟩
  · have h0 : (decide ((({ prot 0 with sys := { (prot 0).sys with cr4 := 0x450600 } } : State) : State).cr4Bit 22 = true) &&
      (decide ((({ prot 0 with sys := { (prot 0).sys with cr4 := 0x450600 } } : State) : State).reg .w32 rCX = 0) && true))
      = true := by decide +kernel
    obtain ⟨p1, h1⟩ := both h0
    obtain ⟨p2, h2⟩ := both h1
    exact ⟨(({ prot 0 with sys := { (prot 0).sys with cr4 := 0x450600 } } : State) : State), p1, p2⟩
  · have h0 : (decide ((withReg ({ prot 0 with sys := { (prot 0).sys with cr4 := 0x450600 } }) 2 0).cr4Bit 22 = true) &&
      (decide ((withReg ({ prot 0 with sys := { (prot 0).sys with cr4 := 0x450600 } }) 2 0).reg .w32 rCX = 0) && (decide
      ((withReg ({ prot 0 with sys := { (prot 0).sys with cr4 := 0x450600 } }) 2 0).reg .w32 rDX = 0) && true))) = true :=
      by decide +kernel
    obtain ⟨p1, h1⟩ := both h0
    obtain ⟨p2, h2⟩ := both h1
    obtain ⟨p3, h3⟩ := both h2
    exact ⟨(withReg ({ prot 0 with sys := { (prot 0).sys with cr4 := 0x450600 } }) 2 0), p1, p2, p3⟩
  · have h0 : (decide ((prot 0).reg .w32 rCX = 0) && true) = true := by decide +kernel
    obtain ⟨p2, h1⟩ := both h0
    exact ⟨(prot 0), (by unfold XsaveReady; decide +kernel), p2⟩
  · have h0 : (decide ((withReg (prot 0) 1 1).reg .w32 rCX = 1) && (decide ((withReg (prot 0) 1 1).has .xg1 = true) &&
      true)) = true := by decide +kernel
    obtain ⟨p2, h1⟩ := both h0
    obtain ⟨p3, h2⟩ := both h1
    exact ⟨(withReg (prot 0) 1 1), (by unfold XsaveReady; decide +kernel), p2, p3⟩
  · have h0 : (decide ((withReg (withReg (prot 0) 2 0) 0 7).privileged = true) && (decide ((withReg (withReg (prot 0) 2 0) 0
      7).reg .w32 rCX = 0) && (decide ((withReg (withReg (prot 0) 2 0) 0 7).edxEax &&& ~~~xcr0Supported = 0) && (decide
      ((withReg (withReg (prot 0) 2 0) 0 7).edxEax.getLsbD 0 = true) && (decide (((withReg (withReg (prot 0) 2 0) 0
      7).edxEax.getLsbD 2 = true → (withReg (withReg (prot 0) 2 0) 0 7).edxEax.getLsbD 1 = true)) && true))))) = true :=
      by decide +kernel
    obtain ⟨p2, h1⟩ := both h0
    obtain ⟨p3, h2⟩ := both h1
    obtain ⟨p4, h3⟩ := both h2
    obtain ⟨p5, h4⟩ := both h3
    obtain ⟨p6, h5⟩ := both h4
    exact ⟨(withReg (withReg (prot 0) 2 0) 0 7), (by unfold XsaveReady; decide +kernel), p2, p3, p4, p5, p6⟩
  · have h0 : (decide ((long 0).isLong = true) && (decide ((long 0).cr4Bit 16 = true) && (decide ((long 0).has .fsgsbase =
      true) && true))) = true := by decide +kernel
    obtain ⟨p1, h1⟩ := both h0
    obtain ⟨p2, h2⟩ := both h1
    obtain ⟨p3, h3⟩ := both h2
    exact ⟨(long 0), p1, p2, p3⟩
  · have h0 : (decide ((long 0).isLong = true) && (decide ((long 0).cr4Bit 16 = true) && (decide ((long 0).has .fsgsbase =
      true) && (decide (canonical (((long 0).reg (Width.w32 : Width) (1 : Reg)).setWidth 64) = true) && true)))) = true :=
      by decide +kernel
    obtain ⟨p1, h1⟩ := both h0
    obtain ⟨p4, h2⟩ := both h1
    obtain ⟨p5, h3⟩ := both h2
    obtain ⟨p6, h4⟩ := both h3
    exact ⟨(long 0), p1, (Width.w32 : Width), (1 : Reg), p4, p5, p6⟩
  · have h0 : (decide ((long 0).isLong = true) && (decide ((long 0).cpl = 0) && true)) = true := by decide +kernel
    obtain ⟨p1, h1⟩ := both h0
    obtain ⟨p2, h2⟩ := both h1
    exact ⟨(long 0), p1, p2⟩

/-- The hypotheses of `Obligations.FastSystemCallResults` can be met, clause by clause. -/
theorem witness_FastSystemCallResults :
    (∃ (s : State), s.has .syscall = true ∧ s.isLong = true ∧ s.msr.efer.getLsbD 0 = true) ∧
    (∃ (s : State), s.has .syscall = true ∧ s.isLong = true ∧ s.msr.efer.getLsbD 0 = true ∧ ∃ (w : Width) (cs : BitVec
      16), s.cpl = 0 ∧ canonical (s.gp rCX) = true ∧ cs = (if decide (w = .w64) then s.msr.star.extractLsb' 48 16 + 16
      else s.msr.star.extractLsb' 48 16) ||| 3) ∧
    (∃ (s : State), s.has .sep = true ∧ s.pe = true ∧ isNull (s.msr.sysenterCs.setWidth 16) = false) ∧
    (∃ (s : State), s.has .sep = true ∧ s.pe = true ∧ isNull (s.msr.sysenterCs.setWidth 16) = false ∧ ∃ (w : Width) (cs :
      BitVec 16), s.privileged = true ∧ (w = .w64 → canonical (s.gp rCX) = true ∧ canonical (s.gp rDX) = true) ∧ cs =
      (s.msr.sysenterCs.setWidth 16 + (if decide (w = .w64) then 32 else 16)) ||| 3) := by
  refine ⟨?_, ?_, ?_, ?_⟩
  · have h0 : (decide ((long 0).has .syscall = true) && (decide ((long 0).isLong = true) && (decide ((long
      0).msr.efer.getLsbD 0 = true) && true))) = true := by decide +kernel
    obtain ⟨p1, h1⟩ := both h0
    obtain ⟨p2, h2⟩ := both h1
    obtain ⟨p3, h3⟩ := both h2
    exact ⟨(long 0), p1, p2, p3⟩
  · have h0 : (decide ((long 0).has .syscall = true) && (decide ((long 0).isLong = true) && (decide ((long
      0).msr.efer.getLsbD 0 = true) && (decide ((long 0).cpl = 0) && (decide (canonical ((long 0).gp rCX) = true) &&
      true))))) = true := by decide +kernel
    obtain ⟨p1, h1⟩ := both h0
    obtain ⟨p2, h2⟩ := both h1
    obtain ⟨p3, h3⟩ := both h2
    obtain ⟨p6, h4⟩ := both h3
    obtain ⟨p7, h5⟩ := both h4
    exact ⟨(long 0), p1, p2, p3, (Width.w32 : Width), (show BitVec 16 from (if decide ((Width.w32 : Width) = .w64) then
      (long 0).msr.star.extractLsb' 48 16 + 16 else (long 0).msr.star.extractLsb' 48 16) ||| 3), p6, p7, rfl⟩
  · have h0 : (decide ((({ prot 0 with msr := { State.reset.msr with sysenterCs := 8 } } : State) : State).has .sep = true)
      && (decide ((({ prot 0 with msr := { State.reset.msr with sysenterCs := 8 } } : State) : State).pe = true) && (decide
      (isNull ((({ prot 0 with msr := { State.reset.msr with sysenterCs := 8 } } : State) : State).msr.sysenterCs.setWidth
      16) = false) && true))) = true := by decide +kernel
    obtain ⟨p1, h1⟩ := both h0
    obtain ⟨p2, h2⟩ := both h1
    obtain ⟨p3, h3⟩ := both h2
    exact ⟨(({ prot 0 with msr := { State.reset.msr with sysenterCs := 8 } } : State) : State), p1, p2, p3⟩
  · have h0 : (decide ((({ prot 0 with msr := { State.reset.msr with sysenterCs := 8 } } : State) : State).has .sep = true)
      && (decide ((({ prot 0 with msr := { State.reset.msr with sysenterCs := 8 } } : State) : State).pe = true) && (decide
      (isNull ((({ prot 0 with msr := { State.reset.msr with sysenterCs := 8 } } : State) : State).msr.sysenterCs.setWidth
      16) = false) && (decide ((({ prot 0 with msr := { State.reset.msr with sysenterCs := 8 } } : State) :
      State).privileged = true) && (decide (((Width.w32 : Width) = .w64 → canonical
      ((({ prot 0 with msr := { State.reset.msr with sysenterCs := 8 } } : State) : State).gp rCX) = true ∧ canonical
      ((({ prot 0 with msr := { State.reset.msr with sysenterCs := 8 } } : State) : State).gp rDX) = true)) && true))))) =
      true := by decide +kernel
    obtain ⟨p1, h1⟩ := both h0
    obtain ⟨p2, h2⟩ := both h1
    obtain ⟨p3, h3⟩ := both h2
    obtain ⟨p6, h4⟩ := both h3
    obtain ⟨p7, h5⟩ := both h4
    exact ⟨(({ prot 0 with msr := { State.reset.msr with sysenterCs := 8 } } : State) : State), p1, p2, p3, (Width.w32 :
      Width), (show BitVec 16 from ((({ prot 0 with msr := { State.reset.msr with sysenterCs := 8 } } : State) :
      State).msr.sysenterCs.setWidth 16 + (if decide ((Width.w32 : Width) = .w64) then 32 else 16)) ||| 3), p6, p7, rfl⟩

/-- The hypotheses of `Obligations.TransactionResults` can be met, clause by clause. -/
theorem witness_TransactionResults :
    (∃ (w : Width) (m : MemRef) (s u : State) (q : Place), Passes (place .write w (.mem m)) s.begin q u) ∧
    (∃ (s : State), s.has .rtm = true ∧ s.rtm.nest < s.cfg.maxRtmNest ∧ s.rtm.nest ≠ 0) ∧
    (∃ (o : XbeginOps) (s : State), s.has .rtm = true ∧ s.rtm.nest < s.cfg.maxRtmNest ∧ s.rtm.nest = 0 ∧ ∃ fb, fb = (if
      s.isLong then s.ripNext + o.rel.signExtend 64 else cutTarget (if o.w = .w16 then .w16 else .w32) (s.ripNext +
      o.rel.signExtend 64)) ∧ s.targetIn fb) ∧
    (∃ (s : State), s.has .rtm = true ∧ s.rtm.snapshot.isSome = true ∧ s.rtm.nest ≤ 1 ∧ s.pins.rtmCommitFail = none) ∧
    (∃ (s : State), s.has .rtm = true ∧ s.rtm.snapshot.isSome = true ∧ ∃ st, s.rtm.nest ≤ 1 ∧ s.pins.rtmCommitFail = some
      st) ∧
    (∃ (s : State), s.has .rtm = true ∧ s.rtm.snapshot.isSome = true ∧ 1 < s.rtm.nest) ∧
    (∃ (s : State), s.has .rtm = true) ∧
    (∃ (s : State), s.has .rtm = true ∧ s.rtm.snapshot = none) ∧
    (∃ (s : State), (s.has .hle || s.has .rtm) = true) ∧
    (∃ (l : Lockable) (s : State), LockReady l s) ∧
    (∃ (w : Width) (m : MemRef) (r : Gp) (s u t : State) (q : Place), Passes (place .write w (.mem m)) s.begin q u ∧
      Completes (.xchg ⟨w, .mem m, r⟩) s t) := by
  refine ⟨?_, ?_, ?_, ?_, ?_, ?_, ?_, ?_, ?_, ?_, ?_⟩
  · have h0 : (check (place .write (Width.w32 : Width) (.mem (at2000 : MemRef))) (prot 0).begin fun a1 t1 => true) = true :=
      by decide +kernel
    obtain ⟨a1, t1, p5, h1⟩ := found h0
    exact ⟨(Width.w32 : Width), (at2000 : MemRef), (prot 0), t1, a1, p5⟩
  · have h0 : (decide ((({ prot 0 with rtm := { nest := 1, fallback := 0x5000, snapshot := some (prot 0).snapshot } } :
      State) : State).has .rtm = true) && (decide
      ((({ prot 0 with rtm := { nest := 1, fallback := 0x5000, snapshot := some (prot 0).snapshot } } : State) :
      State).rtm.nest < (({ prot 0 with rtm := { nest := 1, fallback := 0x5000, snapshot := some (prot 0).snapshot } } :
      State) : State).cfg.maxRtmNest) && (decide
      ((({ prot 0 with rtm := { nest := 1, fallback := 0x5000, snapshot := some (prot 0).snapshot } } : State) :
      State).rtm.nest ≠ 0) && true))) = true := by decide +kernel
    obtain ⟨p1, h1⟩ := both h0
    obtain ⟨p2, h2⟩ := both h1
    obtain ⟨p3, h3⟩ := both h2
    exact ⟨(({ prot 0 with rtm := { nest := 1, fallback := 0x5000, snapshot := some (prot 0).snapshot } } : State) : State),
      p1, p2, p3⟩
  · have h0 : (decide ((prot 0).has .rtm = true) && (decide ((prot 0).rtm.nest < (prot 0).cfg.maxRtmNest) && (decide ((prot
      0).rtm.nest = 0) && (decide ((prot 0).segVerdict .cs ((prot 0).segOf .cs) .exec ((if (prot 0).isLong then (prot
      0).ripNext + (⟨.w32, 0x10⟩ : XbeginOps).rel.signExtend 64 else cutTarget (if (⟨.w32, 0x10⟩ : XbeginOps).w = .w16 then
      .w16 else .w32) ((prot 0).ripNext + (⟨.w32, 0x10⟩ : XbeginOps).rel.signExtend 64))) 1 = .ok) && true)))) = true :=
      by decide +kernel
    obtain ⟨p2, h1⟩ := both h0
    obtain ⟨p3, h2⟩ := both h1
    obtain ⟨p4, h3⟩ := both h2
    obtain ⟨p7, h4⟩ := both h3
    exact ⟨(⟨.w32, 0x10⟩ : XbeginOps), (prot 0), p2, p3, p4, ((if (prot 0).isLong then (prot 0).ripNext + (⟨.w32, 0x10⟩ :
      XbeginOps).rel.signExtend 64 else cutTarget (if (⟨.w32, 0x10⟩ : XbeginOps).w = .w16 then .w16 else .w32) ((prot
      0).ripNext + (⟨.w32, 0x10⟩ : XbeginOps).rel.signExtend 64))), rfl, p7⟩
  · have h0 : (decide ((({ prot 0 with rtm := { nest := 1, fallback := 0x5000, snapshot := some (prot 0).snapshot } } :
      State) : State).has .rtm = true) && (decide
      ((({ prot 0 with rtm := { nest := 1, fallback := 0x5000, snapshot := some (prot 0).snapshot } } : State) :
      State).rtm.snapshot.isSome = true) && (decide
      ((({ prot 0 with rtm := { nest := 1, fallback := 0x5000, snapshot := some (prot 0).snapshot } } : State) :
      State).rtm.nest ≤ 1) && (decide
      ((({ prot 0 with rtm := { nest := 1, fallback := 0x5000, snapshot := some (prot 0).snapshot } } : State) :
      State).pins.rtmCommitFail = none) && true)))) = true := by decide +kernel
    obtain ⟨p1, h1⟩ := both h0
    obtain ⟨p2, h2⟩ := both h1
    obtain ⟨p3, h3⟩ := both h2
    obtain ⟨p4, h4⟩ := both h3
    exact ⟨(({ prot 0 with rtm := { nest := 1, fallback := 0x5000, snapshot := some (prot 0).snapshot } } : State) : State),
      p1, p2, p3, p4⟩
  · have h0 : (decide
      ((({ prot 0 with rtm := { nest := 1, fallback := 0x5000, snapshot := some (prot 0).snapshot }, pins := { rtmCommitFail := some 0 } }
      : State) : State).has .rtm = true) && (decide
      ((({ prot 0 with rtm := { nest := 1, fallback := 0x5000, snapshot := some (prot 0).snapshot }, pins := { rtmCommitFail := some 0 } }
      : State) : State).rtm.snapshot.isSome = true) && (decide
      ((({ prot 0 with rtm := { nest := 1, fallback := 0x5000, snapshot := some (prot 0).snapshot }, pins := { rtmCommitFail := some 0 } }
      : State) : State).rtm.nest ≤ 1) && (decide
      ((({ prot 0 with rtm := { nest := 1, fallback := 0x5000, snapshot := some (prot 0).snapshot }, pins := { rtmCommitFail := some 0 } }
      : State) : State).pins.rtmCommitFail = some 0) && true)))) = true := by decide +kernel
    obtain ⟨p1, h1⟩ := both h0
    obtain ⟨p2, h2⟩ := both h1
    obtain ⟨p4, h3⟩ := both h2
    obtain ⟨p5, h4⟩ := both h3
    exact
      ⟨(({ prot 0 with rtm := { nest := 1, fallback := 0x5000, snapshot := some (prot 0).snapshot }, pins := { rtmCommitFail := some 0 } }
      : State) : State), p1, p2, 0, p4, p5⟩
  · have h0 : (decide ((({ prot 0 with rtm := { nest := 2, fallback := 0x5000, snapshot := some (prot 0).snapshot } } :
      State) : State).has .rtm = true) && (decide
      ((({ prot 0 with rtm := { nest := 2, fallback := 0x5000, snapshot := some (prot 0).snapshot } } : State) :
      State).rtm.snapshot.isSome = true) && (decide (1 <
      (({ prot 0 with rtm := { nest := 2, fallback := 0x5000, snapshot := some (prot 0).snapshot } } : State) :
      State).rtm.nest) && true))) = true := by decide +kernel
    obtain ⟨p1, h1⟩ := both h0
    obtain ⟨p2, h2⟩ := both h1
    obtain ⟨p3, h3⟩ := both h2
    exact ⟨(({ prot 0 with rtm := { nest := 2, fallback := 0x5000, snapshot := some (prot 0).snapshot } } : State) : State),
      p1, p2, p3⟩
  · have h0 : (decide ((prot 0).has .rtm = true) && true) = true := by decide +kernel
    obtain ⟨p1, h1⟩ := both h0
    exact ⟨(prot 0), p1⟩
  · have h0 : (decide ((prot 0).has .rtm = true) && (decide ((prot 0).rtm.snapshot = none) && true)) = true :=
      by decide +kernel
    obtain ⟨p1, h1⟩ := both h0
    obtain ⟨p2, h2⟩ := both h1
    exact ⟨(prot 0), p1, p2⟩
  · have h0 : (decide (((prot 0).has .hle || (prot 0).has .rtm) = true) && true) = true := by decide +kernel
    obtain ⟨p1, h1⟩ := both h0
    exact ⟨(prot 0), p1⟩
  · have h0 : check (place .write .w32 (.mem at2000)) (prot 0).begin (fun _ _ => true) = true := by decide +kernel
    obtain ⟨q, u, p1, _⟩ := found h0
    exact ⟨.un .inc .w32 at2000, prot 0, q, u, p1⟩
  · have h0 : check (place .write .w32 (.mem at2000)) (prot 0).begin (fun _ _ => true) = true := by decide +kernel
    obtain ⟨q, u, p1, _⟩ := found h0
    exact ⟨.w32, at2000, .lo 1, prot 0, u, _, q, p1, xchg_completes p1⟩

/-- The hypotheses of `Obligations.SaveAreaResults` can be met, clause by clause. -/
theorem witness_SaveAreaResults :
    (∃ (m : MemRef) (s u1 u2 u3 : State) (low head high : List (List Nat × Nat)) (bv : Word), XsaveImage (some .xsavec)
      false m s ∧ bv = (s.xinuse ||| if s.mxcsr = 0x1F80 then 0 else 2) &&& s.rfbm false ∧ Passes (placeParts m
      (s.legacyParts false (bv.getLsbD 0) (bv.getLsbD 1) (bv.getLsbD 1))) s.begin low u1 ∧ Passes (placeParts m [⟨512,
      8, bv.toNat⟩, ⟨520, 8, (s.rfbm false ||| 0x8000000000000000).toNat⟩]) u1 head u2 ∧ Passes (placeParts m (if
      bv.getLsbD 2 then s.avxParts else [])) u2 high u3) ∧
    (∃ (m : MemRef) (s u : State) (as : List Nat), s.has .fxsr = true ∧ s.cr0Bit 2 = false ∧ s.cr0Bit 3 = false ∧ Passes
      (resolve m.seg .write 1 16 (s.ea m) 512) s.begin as u) ∧
    (∃ (m : MemRef) (s u : State) (as : List Nat), s.has .fxsr = true ∧ s.cr0Bit 2 = false ∧ s.cr0Bit 3 = false ∧ Passes
      (resolve m.seg .read 1 16 (s.ea m) 512) s.begin as u ∧ badMxcsr (u.mem.readList as / 2 ^ 192) = false) ∧
    (∃ (m : MemRef) (s u1 u2 u3 : State) (low high : List (List Nat × Nat)) (head : List Nat), XsaveImage none false m s
      ∧ Passes (placeParts m (s.legacyParts false ((s.rfbm false).getLsbD 0) ((s.rfbm false).getLsbD 1 || (s.rfbm
      false).getLsbD 2) ((s.rfbm false).getLsbD 1))) s.begin low u1 ∧ Passes (resolvePart .write m 512 8) u1 head u2 ∧
      Passes (placeParts m (if (s.rfbm false).getLsbD 2 then s.avxParts else [])) u2 high u3) := by
  refine ⟨?_, ?_, ?_, ?_⟩
  · have h0 : (check (placeParts (at2000 : MemRef) ((prot 0).legacyParts false ((((prot 0).xinuse ||| if (prot 0).mxcsr =
      0x1F80 then 0 else 2) &&& (prot 0).rfbm false : Word).getLsbD 0) ((((prot 0).xinuse ||| if (prot 0).mxcsr = 0x1F80
      then 0 else 2) &&& (prot 0).rfbm false : Word).getLsbD 1) ((((prot 0).xinuse ||| if (prot 0).mxcsr = 0x1F80 then 0
      else 2) &&& (prot 0).rfbm false : Word).getLsbD 1))) (prot 0).begin fun a1 t1 => check (placeParts (at2000 : MemRef)
      [⟨512, 8, (((prot 0).xinuse ||| if (prot 0).mxcsr = 0x1F80 then 0 else 2) &&& (prot 0).rfbm false : Word).toNat⟩,
      ⟨520, 8, ((prot 0).rfbm false ||| 0x8000000000000000).toNat⟩]) t1 fun a2 t2 => check (placeParts (at2000 : MemRef) (if
      (((prot 0).xinuse ||| if (prot 0).mxcsr = 0x1F80 then 0 else 2) &&& (prot 0).rfbm false : Word).getLsbD 2 then (prot
      0).avxParts else [])) t2 fun a3 t3 => true) = true := by decide +kernel
    obtain ⟨a1, t1, p11, h1⟩ := found h0
    obtain ⟨a2, t2, p12, h2⟩ := found h1
    obtain ⟨a3, t3, p13, h3⟩ := found h2
    exact ⟨(at2000 : MemRef), (prot 0), t1, t2, t3, a1, a2, a3, (((prot 0).xinuse ||| if (prot 0).mxcsr = 0x1F80 then 0 else
      2) &&& (prot 0).rfbm false : Word),
      (by refine ⟨by unfold XsaveReady; decide +kernel, fun f h => ?_, by decide +kernel, by decide +kernel, by decide +kernel⟩; cases h <;> decide +kernel),
      rfl, p11, p12, p13⟩
  · have h0 : check (resolve at2000.seg .write 1 16 ((prot 0).ea at2000) 512) (prot 0).begin (fun _ _ => true) = true :=
      by decide +kernel
    obtain ⟨as, u, p1, _⟩ := found h0
    exact ⟨at2000, prot 0, u, as, by decide +kernel, by decide +kernel, by decide +kernel, p1⟩
  · have h0 : check (resolve at2000.seg .read 1 16 ((prot 0).ea at2000) 512) (prot 0).begin (fun as u =>
      decide (badMxcsr (u.mem.readList as / 2 ^ 192) = false) && true) = true := by decide +kernel
    obtain ⟨as, u, p1, h1⟩ := found h0
    obtain ⟨p2, _⟩ := both h1
    exact ⟨at2000, prot 0, u, as, by decide +kernel, by decide +kernel, by decide +kernel, p1, p2⟩
  · let s : State := withReg (withReg (prot 0) 0 7) 2 0
    have h0 : check (placeParts at2000 (s.legacyParts false ((s.rfbm false).getLsbD 0)
      ((s.rfbm false).getLsbD 1 || (s.rfbm false).getLsbD 2) ((s.rfbm false).getLsbD 1))) s.begin (fun _ u1 =>
      check (resolvePart .write at2000 512 8) u1 fun _ u2 =>
      check (placeParts at2000 (if (s.rfbm false).getLsbD 2 then s.avxParts else [])) u2 fun _ _ => true) = true :=
        by decide +kernel
    obtain ⟨low, u1, p1, h1⟩ := found h0
    obtain ⟨head, u2, p2, h2⟩ := found h1
    obtain ⟨high, u3, p3, _⟩ := found h2
    have hr : XsaveReady s := by
      unfold XsaveReady
      decide +kernel
    have hx : XsaveImage none false at2000 s :=
      ⟨hr, (fun f h => by cases h), by decide +kernel, by decide +kernel, by decide +kernel⟩
    exact ⟨at2000, s, u1, u2, u3, low, high, head, hx, p1, p2, p3⟩

/-- The hypotheses of `Obligations.XrstorResults` can be met, clause by clause. -/
theorem witness_XrstorResults :
    ∃ (m : MemRef) (s u1 u2 u3 u4 u5 u6 u7 : State) (hd rs a0 a1 a2 a3 a4 : List Nat) (rfbm bv comp : Word) (mx : Bool),
      XsaveImage none false m s ∧ rfbm = s.rfbm false ∧ Passes (resolvePart .read m 512 16) s.begin hd u1 ∧ bv =
      BitVec.ofNat 64 (u1.mem.readList hd) ∧ comp = BitVec.ofNat 64 (u1.mem.readList hd / 2 ^ 64) ∧ Passes (resolvePart
      .read m 528 (if comp.getLsbD 63 then 48 else 8)) u1 rs u2 ∧ mx = (if comp.getLsbD 63 then rfbm.getLsbD 1 && bv.getLsbD
      1 else rfbm.getLsbD 1 || rfbm.getLsbD 2) ∧ Passes (readIf (rfbm.getLsbD 0 && bv.getLsbD 0) m 0 24) u2 a0 u3 ∧ Passes
      (readIf mx m 24 4) u3 a1 u4 ∧ Passes (readIf (rfbm.getLsbD 0 && bv.getLsbD 0) m 32 128) u4 a2 u5 ∧ Passes (readIf
      (rfbm.getLsbD 1 && bv.getLsbD 1) m 160 (16 * u2.imageRegs.length)) u5 a3 u6 ∧ Passes (readIf (rfbm.getLsbD 2 &&
      bv.getLsbD 2) m 576 (16 * u2.imageRegs.length)) u6 a4 u7 ∧ headerOk false (u2.has .xsavec) (if false then u2.sys.xcr0
      ||| u2.msr.xss else u2.sys.xcr0) bv comp (u2.mem.readList rs) = true ∧ badMxcsr (u7.mem.readList a1) = false := by
  have h0 : (check (resolvePart .read (at2000 : MemRef) 512 16) (withDwords (withReg (withReg (prot 0) 2 0) 0 7) 0x2200
    [7]).begin fun a1 t1 => check (resolvePart .read (at2000 : MemRef) 528 (if (BitVec.ofNat 64 (t1.mem.readList a1 / 2 ^
    64) : Word).getLsbD 63 then 48 else 8)) t1 fun a2 t2 => check (readIf (((withDwords (withReg (withReg (prot 0) 2 0) 0 7)
    0x2200 [7]).rfbm false : Word).getLsbD 0 && (BitVec.ofNat 64 (t1.mem.readList a1) : Word).getLsbD 0) (at2000 : MemRef) 0
    24) t2 fun a3 t3 => check (readIf ((if (BitVec.ofNat 64 (t1.mem.readList a1 / 2 ^ 64) : Word).getLsbD 63 then
    ((withDwords (withReg (withReg (prot 0) 2 0) 0 7) 0x2200 [7]).rfbm false : Word).getLsbD 1 && (BitVec.ofNat 64
    (t1.mem.readList a1) : Word).getLsbD 1 else ((withDwords (withReg (withReg (prot 0) 2 0) 0 7) 0x2200 [7]).rfbm false :
    Word).getLsbD 1 || ((withDwords (withReg (withReg (prot 0) 2 0) 0 7) 0x2200 [7]).rfbm false : Word).getLsbD 2) : Bool)
    (at2000 : MemRef) 24 4) t3 fun a4 t4 => check (readIf (((withDwords (withReg (withReg (prot 0) 2 0) 0 7) 0x2200
    [7]).rfbm false : Word).getLsbD 0 && (BitVec.ofNat 64 (t1.mem.readList a1) : Word).getLsbD 0) (at2000 : MemRef) 32 128)
    t4 fun a5 t5 => check (readIf (((withDwords (withReg (withReg (prot 0) 2 0) 0 7) 0x2200 [7]).rfbm false : Word).getLsbD
    1 && (BitVec.ofNat 64 (t1.mem.readList a1) : Word).getLsbD 1) (at2000 : MemRef) 160 (16 * t2.imageRegs.length)) t5 fun
    a6 t6 => check (readIf (((withDwords (withReg (withReg (prot 0) 2 0) 0 7) 0x2200 [7]).rfbm false : Word).getLsbD 2 &&
    (BitVec.ofNat 64 (t1.mem.readList a1) : Word).getLsbD 2) (at2000 : MemRef) 576 (16 * t2.imageRegs.length)) t6 fun a7 t7
    => decide (headerOk false (t2.has .xsavec) (if false then t2.sys.xcr0 ||| t2.msr.xss else t2.sys.xcr0) (BitVec.ofNat 64
    (t1.mem.readList a1) : Word) (BitVec.ofNat 64 (t1.mem.readList a1 / 2 ^ 64) : Word) (t2.mem.readList a2) = true) &&
    (decide (badMxcsr (t7.mem.readList a4) = false) && true)) = true := by decide +kernel
  obtain ⟨a1, t1, p22, h1⟩ := found h0
  obtain ⟨a2, t2, p25, h2⟩ := found h1
  obtain ⟨a3, t3, p27, h3⟩ := found h2
  obtain ⟨a4, t4, p28, h4⟩ := found h3
  obtain ⟨a5, t5, p29, h5⟩ := found h4
  obtain ⟨a6, t6, p30, h6⟩ := found h5
  obtain ⟨a7, t7, p31, h7⟩ := found h6
  obtain ⟨p32, h8⟩ := both h7
  obtain ⟨p33, h9⟩ := both h8
  exact ⟨(at2000 : MemRef), (withDwords (withReg (withReg (prot 0) 2 0) 0 7) 0x2200 [7]), t1, t2, t3, t4, t5, t6, t7, a1,
    a2, a3, a4, a5, a6, a7, ((withDwords (withReg (withReg (prot 0) 2 0) 0 7) 0x2200 [7]).rfbm false : Word), (BitVec.ofNat
    64 (t1.mem.readList a1) : Word), (BitVec.ofNat 64 (t1.mem.readList a1 / 2 ^ 64) : Word), ((if (BitVec.ofNat 64
    (t1.mem.readList a1 / 2 ^ 64) : Word).getLsbD 63 then ((withDwords (withReg (withReg (prot 0) 2 0) 0 7) 0x2200 [7]).rfbm
    false : Word).getLsbD 1 && (BitVec.ofNat 64 (t1.mem.readList a1) : Word).getLsbD 1 else ((withDwords (withReg (withReg
    (prot 0) 2 0) 0 7) 0x2200 [7]).rfbm false : Word).getLsbD 1 || ((withDwords (withReg (withReg (prot 0) 2 0) 0 7) 0x2200
    [7]).rfbm false : Word).getLsbD 2) : Bool),
    (by refine ⟨by unfold XsaveReady; decide +kernel, fun f h => ?_, by decide +kernel, by decide +kernel, by decide +kernel⟩; cases h <;> decide +kernel),
    rfl, p22, rfl, rfl, p25, rfl, p27, p28, p29, p30, p31, p32, p33⟩

/-- The hypotheses of `Obligations.StepRunsInstruction` can be met, clause by clause. -/
theorem witness_StepRunsInstruction :
    (∃ (s t : State) (d : Decoded), Undisturbed s ∧ decode s.cmode (s.codeBytes 15 0) = .ok d ∧ Passes (fetchBytes d.len)
      s () t) ∧
    (∃ s t : State, Undisturbed s ∧ decode s.cmode (s.codeBytes 15 0) = .error .undefined ∧ Passes (fetchBytes 1) s () t) := by
  refine ⟨?_, ?_⟩
  · let s : State := withBytes (prot 0) 0x1000 [0x01, 0xC8]
    have h0 : check (fetchBytes 2) s (fun _ _ => true) = true := by decide +kernel
    obtain ⟨_, t, p1, _⟩ := found h0
    obtain ⟨d, hd, hl⟩ := decoded (by decide +kernel : lengthIs 2 (decode s.cmode (s.codeBytes 15 0)) = true)
    exact ⟨s, t, d, ⟨by decide +kernel, by decide +kernel, by decide +kernel, by decide +kernel, by decide +kernel,
      by decide +kernel⟩, hd, hl ▸ p1⟩
  · let s : State := withBytes (prot 0) 0x1000 [0x0F, 0xFF]
    have h0 : check (fetchBytes 1) s (fun _ _ => true) = true := by decide +kernel
    obtain ⟨_, t, p1, _⟩ := found h0
    exact ⟨s, t, ⟨by decide +kernel, by decide +kernel, by decide +kernel, by decide +kernel, by decide +kernel,
      by decide +kernel⟩, decode_undefined (by decide +kernel), p1⟩

/-- The hypotheses of `Obligations.EncodeDecodeNearTransfers` can be met, clause by clause. -/
theorem witness_EncodeDecodeNearTransfers :
    (∃ (m : CMode) (o : JccOps), ((.jo : JccOps → Instr) o).wf m = true) ∧
    (∃ (m : CMode) (w : Width) (d : BitVec 32), (.jmpNear (.rel w d) : Instr).wf m = true) ∧
    (∃ (m : CMode) (o : LoopOps), (.loop o : Instr).wf m = true) ∧
    (∃ (m : CMode) (o : JcxzOps), (.jecxz o : Instr).wf m = true) := by
  refine ⟨?_, ?_, ?_, ?_⟩
  · have h0 : (decide (((.jo : JccOps → Instr) (⟨.w64, 0x7FFFFFFF⟩ : JccOps)).wf (⟨true, true, true⟩ : CMode) = true) &&
      true) = true := by decide +kernel
    obtain ⟨p2, h1⟩ := both h0
    exact ⟨(⟨true, true, true⟩ : CMode), (⟨.w64, 0x7FFFFFFF⟩ : JccOps), p2⟩
  · have h0 : (decide ((.jmpNear (.rel (Width.w64 : Width) (1 : BitVec 32)) : Instr).wf (⟨true, true, true⟩ : CMode) = true)
      && true) = true := by decide +kernel
    obtain ⟨p3, h1⟩ := both h0
    exact ⟨(⟨true, true, true⟩ : CMode), (Width.w64 : Width), (1 : BitVec 32), p3⟩
  · have h0 : (decide ((.loop (⟨.w64, .a64, 0xFF⟩ : LoopOps) : Instr).wf (⟨true, true, true⟩ : CMode) = true) && true) =
      true := by decide +kernel
    obtain ⟨p2, h1⟩ := both h0
    exact ⟨(⟨true, true, true⟩ : CMode), (⟨.w64, .a64, 0xFF⟩ : LoopOps), p2⟩
  · have h0 : (decide ((.jecxz (⟨.w64, 0xFF⟩ : JcxzOps) : Instr).wf (⟨true, true, true⟩ : CMode) = true) && true) = true :=
      by decide +kernel
    obtain ⟨p2, h1⟩ := both h0
    exact ⟨(⟨true, true, true⟩ : CMode), (⟨.w64, 0xFF⟩ : JcxzOps), p2⟩

/-- The hypotheses of `Obligations.EncodeDecodeArithmetic` can be met, clause by clause. -/
theorem witness_EncodeDecodeArithmetic :
    ∃ (m : CMode) (o : AluOps), ((.add : AluOps → Instr) o).wf m = true := by
  have h0 : (decide (((.add : AluOps → Instr) (.mr .w32 (.mem at2000) (.lo 1) : AluOps)).wf (⟨true, true, true⟩ : CMode) =
    true) && true) = true := by decide +kernel
  obtain ⟨p2, h1⟩ := both h0
  exact ⟨(⟨true, true, true⟩ : CMode), (.mr .w32 (.mem at2000) (.lo 1) : AluOps), p2⟩

/-- The hypotheses of `Obligations.MemoryCanonicalKept` can be met, clause by clause. -/
theorem witness_MemoryCanonicalKept :
    ∃ s t : State, s.Canonical ∧ step s = .next t := by
  have h0 : isNext (step (withBytes (prot 0) 0x1000 [0x01, 0x0D, 0, 0x20, 0, 0])) = true := by
    decide +kernel
  obtain ⟨t, ht⟩ := stepped h0
  exact ⟨_, t, ⟨by decide +kernel, fun n h => by cases h⟩, ht⟩

/-- The hypotheses of `Obligations.ResetValues` can be met, clause by clause. -/
theorem witness_ResetValues :
    (∃ (s t : State), t = s.doReset) ∧
    (∃ (s t : State), t = s.doReset ∧ ∃ (r : SReg), r ≠ .cs) ∧
    (∃ (s t : State), t = s.doReset ∧ s.rtm.snapshot = none) := by
  refine ⟨?_, ?_, ?_⟩
  · exact ⟨(prot 0), ((prot 0).doReset : State), rfl⟩
  · have h0 : (decide ((.es : SReg) ≠ .cs) && true) = true := by decide +kernel
    obtain ⟨p4, h1⟩ := both h0
    exact ⟨(prot 0), ((prot 0).doReset : State), rfl, (.es : SReg), p4⟩
  · have h0 : (decide ((prot 0).rtm.snapshot = none) && true) = true := by decide +kernel
    obtain ⟨p3, h1⟩ := both h0
    exact ⟨(prot 0), ((prot 0).doReset : State), rfl, p3⟩

/-- The hypotheses of `Obligations.StoredValueReadBack` can be met, clause by clause. -/
theorem witness_StoredValueReadBack :
    (∃ (s : State) (as : List Nat), s.mem.wf = true ∧ as.Nodup) ∧
    (∃ (s : State) (as : List Nat), s.mem.wf = true ∧ as.Nodup ∧ ∃ x, x ∉ as) ∧
    (∃ (s : State) (as : List Nat), s.mem.wf = true ∧ as.Nodup ∧ s.act.monitorArmed = false) := by
  refine ⟨?_, ?_, ?_⟩
  · have h0 : (decide ((prot 0).mem.wf = true) && (decide (([3, 4] : List Nat).Nodup) && true)) = true := by decide +kernel
    obtain ⟨p2, h1⟩ := both h0
    obtain ⟨p3, h2⟩ := both h1
    exact ⟨(prot 0), ([3, 4] : List Nat), p2, p3⟩
  · have h0 : (decide ((prot 0).mem.wf = true) && (decide (([3, 4] : List Nat).Nodup) && (decide ((5 : Nat) ∉ ([3, 4] : List
      Nat)) && true))) = true := by decide +kernel
    obtain ⟨p2, h1⟩ := both h0
    obtain ⟨p3, h2⟩ := both h1
    obtain ⟨p5, h3⟩ := both h2
    exact ⟨(prot 0), ([3, 4] : List Nat), p2, p3, (5 : Nat), p5⟩
  · have h0 : (decide ((prot 0).mem.wf = true) && (decide (([3, 4] : List Nat).Nodup) && (decide ((prot 0).act.monitorArmed
      = false) && true))) = true := by decide +kernel
    obtain ⟨p2, h1⟩ := both h0
    obtain ⟨p3, h2⟩ := both h1
    obtain ⟨p4, h3⟩ := both h2
    exact ⟨(prot 0), ([3, 4] : List Nat), p2, p3, p4⟩

/-- The hypotheses of `Obligations.AccessFrame` can be met, clause by clause. -/
theorem witness_AccessFrame :
    (∃ (s u : State) (r : SReg) (k : _) (nat : _) (must : _) (off : _) (n : _) (as : _), Passes (resolve r k nat must off
      n) s as u) ∧
    (∃ (s u : State) (k : _) (w : Width) (o : _) (q : _), Passes (place k w o) s q u) ∧
    (∃ (s u : State) (w : Width) (o : _) (b : BitVec w.bits), Passes (readRm w o) s b u) ∧
    (∃ (s u : State) (al : _) (n : _) (o : _) (b : BitVec (8 * n)), Passes (readXm al n o) s b u) ∧
    (∃ (s u : State) (n : _) (o : _) (b : BitVec (8 * n)), Passes (readMmM n o) s b u) ∧
    (∃ (s u : State) (k : _) (m : _) (n : _) (must : _) (as : _), Passes (resolveAligned k m n must) s as u) ∧
    (∃ (s u : State) (m : _) (n : _) (v : _), Passes (readMem m n) s v u) := by
  refine ⟨?_, ?_, ?_, ?_, ?_, ?_, ?_⟩
  · have h0 : (check (resolve (SReg.ds : SReg) Kind.write (1 : Nat) (1 : Nat) (0x2000 : Word) (4 : Nat)) (prot 0) fun a1 t1
      => true) = true := by decide +kernel
    obtain ⟨a1, t1, p9, h1⟩ := found h0
    exact ⟨(prot 0), t1, (SReg.ds : SReg), Kind.write, (1 : Nat), (1 : Nat), (0x2000 : Word), (4 : Nat), a1, p9⟩
  · have h0 : (check (place Kind.write (Width.w32 : Width) (Rm.mem at2000)) (prot 0) fun a1 t1 => true) = true :=
      by decide +kernel
    obtain ⟨a1, t1, p6, h1⟩ := found h0
    exact ⟨(prot 0), t1, Kind.write, (Width.w32 : Width), (Rm.mem at2000), a1, p6⟩
  · have h0 : (check (readRm (Width.w32 : Width) (Rm.mem at2000)) (prot 0) fun a1 t1 => true) = true := by decide +kernel
    obtain ⟨a1, t1, p5, h1⟩ := found h0
    exact ⟨(prot 0), t1, (Width.w32 : Width), (Rm.mem at2000), a1, p5⟩
  · have h0 : (check (readXm Align.free (4 : Nat) (Xm.mem at2000)) (prot 0) fun a1 t1 => true) = true := by decide +kernel
    obtain ⟨a1, t1, p6, h1⟩ := found h0
    exact ⟨(prot 0), t1, Align.free, (4 : Nat), (Xm.mem at2000), a1, p6⟩
  · have h0 : (check (readMmM (4 : Nat) (Mm.mem at2000)) (prot 0) fun a1 t1 => true) = true := by decide +kernel
    obtain ⟨a1, t1, p5, h1⟩ := found h0
    exact ⟨(prot 0), t1, (4 : Nat), (Mm.mem at2000), a1, p5⟩
  · have h0 : (check (resolveAligned Kind.write at2000 (4 : Nat) (1 : Nat)) (prot 0) fun a1 t1 => true) = true :=
      by decide +kernel
    obtain ⟨a1, t1, p7, h1⟩ := found h0
    exact ⟨(prot 0), t1, Kind.write, at2000, (4 : Nat), (1 : Nat), a1, p7⟩
  · have h0 : (check (readMem at2000 (4 : Nat)) (prot 0) fun a1 t1 => true) = true := by decide +kernel
    obtain ⟨a1, t1, p5, h1⟩ := found h0
    exact ⟨(prot 0), t1, at2000, (4 : Nat), a1, p5⟩

/-- The hypotheses of `Obligations.FinishFrame` can be met, clause by clause. -/
theorem witness_FinishFrame :
    (∃ (s t : State), t.rtm.snapshot = none) ∧
    (∃ (s t : State), t.rtm.snapshot.isSome = true ∧ t.act.pendingDb ≠ 0) ∧
    (∃ (s t : State), t.act.pendingDb = 0 ∧ s.flags.tf = false ∧ s.act.inhibit = .none) := by
  refine ⟨?_, ?_, ?_⟩
  · have h0 : (decide (((prot 0) : State).rtm.snapshot = none) && true) = true := by decide +kernel
    obtain ⟨p2, h1⟩ := both h0
    exact ⟨(prot 0), ((prot 0) : State), p2⟩
  · have h0 : (decide ((({ prot 0 with rtm := { nest := 1, snapshot := some (prot 0).snapshot }, act := { pendingDb := 1 } }
      : State) : State).rtm.snapshot.isSome = true) && (decide
      ((({ prot 0 with rtm := { nest := 1, snapshot := some (prot 0).snapshot }, act := { pendingDb := 1 } } : State) :
      State).act.pendingDb ≠ 0) && true)) = true := by decide +kernel
    obtain ⟨p2, h1⟩ := both h0
    obtain ⟨p3, h2⟩ := both h1
    exact ⟨(prot 0), (({ prot 0 with rtm := { nest := 1, snapshot := some (prot 0).snapshot }, act := { pendingDb := 1 } } :
      State) : State), p2, p3⟩
  · have h0 : (decide (((prot 0) : State).act.pendingDb = 0) && (decide ((prot 0).flags.tf = false) && (decide ((prot
      0).act.inhibit = .none) && true))) = true := by decide +kernel
    obtain ⟨p2, h1⟩ := both h0
    obtain ⟨p3, h2⟩ := both h1
    obtain ⟨p4, h3⟩ := both h2
    exact ⟨(prot 0), ((prot 0) : State), p2, p3, p4⟩

/-- The hypotheses of `Obligations.RealModeDelivery` can be met, clause by clause. -/
theorem witness_RealModeDelivery :
    ∃ (e : Event) (s u v : State) (entry : Nat) (ass : List (List Nat)) (fin : Word) (p t : State), s.pe = false ∧
      e.vec.toNat * 4 + 3 ≤ s.sys.idtr.limit.toNat ∧ s.pushRoom (s.segOf .ss) s.stackSize s.sp [2, 2, 2] = true ∧ Passes
      (pushSlots [2, 2, 2]) s (ass, fin) v ∧ p = (v.stored ass [(e.flagsImage s).toNat % 2 ^ 16, (e.cs s).toNat, e.ret.toNat
      % 2 ^ 16]).setSp s.stackSize fin ∧ Passes (sysRead (s.sys.idtr.base + BitVec.ofNat 64 (e.vec.toNat * 4)) 4) p entry u
      ∧ t =
      { u.setSeg .cs ((s.segOf .cs).realLoad (BitVec.ofNat 16 (entry / 2 ^ 16))) with flags := { s.flags with ifl := false, tf := false, ac := false }, rip := BitVec.ofNat 64 (entry % 2 ^ 16) } := by
  have h0 : (decide ((withDwords real 0x20 [0x01000050]).pe = false) && (decide ((⟨.external, 8, none, 0x50, none, false, 0⟩
    : Event).vec.toNat * 4 + 3 ≤ (withDwords real 0x20 [0x01000050]).sys.idtr.limit.toNat) && (decide ((withDwords real 0x20
    [0x01000050]).pushRoom ((withDwords real 0x20 [0x01000050]).segOf .ss) (withDwords real 0x20 [0x01000050]).stackSize
    (withDwords real 0x20 [0x01000050]).sp [2, 2, 2] = true) && (check (pushSlots [2, 2, 2]) (withDwords real 0x20
    [0x01000050]) fun a1 t1 => check (sysRead ((withDwords real 0x20 [0x01000050]).sys.idtr.base + BitVec.ofNat 64
    ((⟨.external, 8, none, 0x50, none, false, 0⟩ : Event).vec.toNat * 4)) 4) ((t1.stored a1.1 [((⟨.external, 8, none, 0x50,
    none, false, 0⟩ : Event).flagsImage (withDwords real 0x20 [0x01000050])).toNat % 2 ^ 16, ((⟨.external, 8, none, 0x50,
    none, false, 0⟩ : Event).cs (withDwords real 0x20 [0x01000050])).toNat, (⟨.external, 8, none, 0x50, none, false, 0⟩ :
    Event).ret.toNat % 2 ^ 16]).setSp (withDwords real 0x20 [0x01000050]).stackSize a1.2 : State) fun a2 t2 => true)))) =
    true := by decide +kernel
  obtain ⟨p9, h1⟩ := both h0
  obtain ⟨p10, h2⟩ := both h1
  obtain ⟨p11, h3⟩ := both h2
  obtain ⟨a1, t1, p12, h4⟩ := found h3
  obtain ⟨a2, t2, p14, h5⟩ := found h4
  exact ⟨(⟨.external, 8, none, 0x50, none, false, 0⟩ : Event), (withDwords real 0x20 [0x01000050]), t2, t1, a2, a1.1, a1.2,
    ((t1.stored a1.1 [((⟨.external, 8, none, 0x50, none, false, 0⟩ : Event).flagsImage (withDwords real 0x20
    [0x01000050])).toNat % 2 ^ 16, ((⟨.external, 8, none, 0x50, none, false, 0⟩ : Event).cs (withDwords real 0x20
    [0x01000050])).toNat, (⟨.external, 8, none, 0x50, none, false, 0⟩ : Event).ret.toNat % 2 ^ 16]).setSp (withDwords real
    0x20 [0x01000050]).stackSize a1.2 : State),
    ({ t2.setSeg .cs (((withDwords real 0x20 [0x01000050]).segOf .cs).realLoad (BitVec.ofNat 16 (a2 / 2 ^ 16))) with flags := { (withDwords real 0x20 [0x01000050]).flags with ifl := false, tf := false, ac := false }, rip := BitVec.ofNat 64 (a2 % 2 ^ 16) }
    : State), p9, p10, p11, p12, rfl, p14, rfl⟩

/-- The hypotheses of `Obligations.SamePrivilegeDelivery` can be met, clause by clause. -/
theorem witness_SamePrivilegeDelivery :
    ∃ (e : Event) (g : Gate) (cs : SegLoad) (s u v w : State) (n : Nat) (as1 as2 : List (List Nat)) (cas : List Nat) (sp fin
      : Word), s.flags.vm = false ∧ (cs.cache.typ.getLsbD 2 = true ∨ s.cpl ≤ cs.cache.dpl) ∧ n = (if g.is32 then 4 else 2) ∧
      s.pushRoom (s.segOf .ss) s.stackSize s.sp ([n, n, n] ++ (e.codeItem n).map (·.1)) = true ∧ g.off.toNat ≤
      cs.cache.limit.toNat ∧ Passes (pushPlan (s.segOf .ss) s.stackSize (decide (s.cpl = 3)) (decide (g.dpl = 3)) s.sp [n,
      n, n]) s (as1, sp) u ∧ Passes cs.resolve u cas v ∧ Passes (pushPlan (s.segOf .ss) s.stackSize (decide (s.cpl = 3))
      (decide (g.dpl = 3)) sp ((e.codeItem n).map (·.1))) v (as2, fin) w := by
  have h0 : (decide ((tables (prot 0)).flags.vm = false) && (decide (((code8 : SegLoad).cache.typ.getLsbD 2 = true ∨ (tables
    (prot 0)).cpl ≤ (code8 : SegLoad).cache.dpl)) && (decide ((tables (prot 0)).pushRoom ((tables (prot 0)).segOf .ss)
    (tables (prot 0)).stackSize (tables (prot 0)).sp ([((if (⟨14, false, 0, true, 8, 0x6000, 0⟩ : Gate).is32 then 4 else 2)
    : Nat), ((if (⟨14, false, 0, true, 8, 0x6000, 0⟩ : Gate).is32 then 4 else 2) : Nat), ((if (⟨14, false, 0, true, 8,
    0x6000, 0⟩ : Gate).is32 then 4 else 2) : Nat)] ++ ((⟨.external, 0x20, none, 0x1003, none, false, 0⟩ : Event).codeItem
    ((if (⟨14, false, 0, true, 8, 0x6000, 0⟩ : Gate).is32 then 4 else 2) : Nat)).map (·.1)) = true) && (decide ((⟨14, false,
    0, true, 8, 0x6000, 0⟩ : Gate).off.toNat ≤ (code8 : SegLoad).cache.limit.toNat) && (check (pushPlan ((tables (prot
    0)).segOf .ss) (tables (prot 0)).stackSize (decide ((tables (prot 0)).cpl = 3)) (decide ((⟨14, false, 0, true, 8,
    0x6000, 0⟩ : Gate).dpl = 3)) (tables (prot 0)).sp [((if (⟨14, false, 0, true, 8, 0x6000, 0⟩ : Gate).is32 then 4 else 2)
    : Nat), ((if (⟨14, false, 0, true, 8, 0x6000, 0⟩ : Gate).is32 then 4 else 2) : Nat), ((if (⟨14, false, 0, true, 8,
    0x6000, 0⟩ : Gate).is32 then 4 else 2) : Nat)]) (tables (prot 0)) fun a1 t1 => check (code8 : SegLoad).resolve t1 fun a2
    t2 => check (pushPlan ((tables (prot 0)).segOf .ss) (tables (prot 0)).stackSize (decide ((tables (prot 0)).cpl = 3))
    (decide ((⟨14, false, 0, true, 8, 0x6000, 0⟩ : Gate).dpl = 3)) a1.2 (((⟨.external, 0x20, none, 0x1003, none, false, 0⟩ :
    Event).codeItem ((if (⟨14, false, 0, true, 8, 0x6000, 0⟩ : Gate).is32 then 4 else 2) : Nat)).map (·.1))) t2 fun a3 t3 =>
    true))))) = true := by decide +kernel
  obtain ⟨p13, h1⟩ := both h0
  obtain ⟨p14, h2⟩ := both h1
  obtain ⟨p16, h3⟩ := both h2
  obtain ⟨p17, h4⟩ := both h3
  obtain ⟨a1, t1, p18, h5⟩ := found h4
  obtain ⟨a2, t2, p19, h6⟩ := found h5
  obtain ⟨a3, t3, p20, h7⟩ := found h6
  exact ⟨(⟨.external, 0x20, none, 0x1003, none, false, 0⟩ : Event), (⟨14, false, 0, true, 8, 0x6000, 0⟩ : Gate), (code8 :
    SegLoad), (tables (prot 0)), t1, t2, t3, ((if (⟨14, false, 0, true, 8, 0x6000, 0⟩ : Gate).is32 then 4 else 2) : Nat),
    a1.1, a3.1, a2, a1.2, a3.2, p13, p14, rfl, p16, p17, p18, p19, p20⟩

/-- The hypotheses of `Obligations.PrivilegedInstructionFaults` can be met, clause by clause. -/
theorem witness_PrivilegedInstructionFaults :
    (∃ (s : State), s.privileged = false) ∧
    (∃ (s : State), s.privileged = false ∧ s.isLegacySeg = false) := by
  refine ⟨?_, ?_⟩
  · have h0 : (decide ((prot 3).privileged = false) && true) = true := by decide +kernel
    obtain ⟨p1, h1⟩ := both h0
    exact ⟨(prot 3), p1⟩
  · have h0 : (decide ((prot 3).privileged = false) && (decide ((prot 3).isLegacySeg = false) && true)) = true :=
      by decide +kernel
    obtain ⟨p1, h1⟩ := both h0
    obtain ⟨p2, h2⟩ := both h1
    exact ⟨(prot 3), p1, p2⟩

/-- The hypotheses of `Obligations.MisalignedVectorFaults` can be met, clause by clause. -/
theorem witness_MisalignedVectorFaults :
    (∃ (m : MemRef) (s : State), s.cr0Bit 2 = false ∧ s.cr4Bit 9 = true ∧ s.has .sse = true ∧ s.has .sse2 = true ∧
      s.cr0Bit 3 = false ∧ (s.linear m.seg (s.segOf m.seg) (s.ea m)).toNat % 16 ≠ 0 ∧ s.segVerdict m.seg (s.segOf m.seg)
      .read (s.ea m) 16 = .ok) ∧
    (∃ (m : MemRef) (s : State), s.cr0Bit 2 = false ∧ s.cr4Bit 9 = true ∧ s.has .sse = true ∧ s.has .sse2 = true ∧
      s.cr0Bit 3 = false ∧ (s.linear m.seg (s.segOf m.seg) (s.ea m)).toNat % 16 ≠ 0 ∧ s.segVerdict m.seg (s.segOf m.seg)
      .write (s.ea m) 16 = .ok) := by
  refine ⟨?_, ?_⟩
  · have h0 : (decide ((prot 0).cr0Bit 2 = false) && (decide ((prot 0).cr4Bit 9 = true) && (decide ((prot 0).has .sse =
      true) && (decide ((prot 0).has .sse2 = true) && (decide ((prot 0).cr0Bit 3 = false) && (decide (((prot 0).linear
      (at2001 : MemRef).seg ((prot 0).segOf (at2001 : MemRef).seg) ((prot 0).ea (at2001 : MemRef))).toNat % 16 ≠ 0) &&
      (decide ((prot 0).segVerdict (at2001 : MemRef).seg ((prot 0).segOf (at2001 : MemRef).seg) .read ((prot 0).ea (at2001 :
      MemRef)) 16 = .ok) && true))))))) = true := by decide +kernel
    obtain ⟨p2, h1⟩ := both h0
    obtain ⟨p3, h2⟩ := both h1
    obtain ⟨p4, h3⟩ := both h2
    obtain ⟨p5, h4⟩ := both h3
    obtain ⟨p6, h5⟩ := both h4
    obtain ⟨p7, h6⟩ := both h5
    obtain ⟨p8, h7⟩ := both h6
    exact ⟨(at2001 : MemRef), (prot 0), p2, p3, p4, p5, p6, p7, p8⟩
  · have h0 : (decide ((prot 0).cr0Bit 2 = false) && (decide ((prot 0).cr4Bit 9 = true) && (decide ((prot 0).has .sse =
      true) && (decide ((prot 0).has .sse2 = true) && (decide ((prot 0).cr0Bit 3 = false) && (decide (((prot 0).linear
      (at2001 : MemRef).seg ((prot 0).segOf (at2001 : MemRef).seg) ((prot 0).ea (at2001 : MemRef))).toNat % 16 ≠ 0) &&
      (decide ((prot 0).segVerdict (at2001 : MemRef).seg ((prot 0).segOf (at2001 : MemRef).seg) .write ((prot 0).ea (at2001
      : MemRef)) 16 = .ok) && true))))))) = true := by decide +kernel
    obtain ⟨p2, h1⟩ := both h0
    obtain ⟨p3, h2⟩ := both h1
    obtain ⟨p4, h3⟩ := both h2
    obtain ⟨p5, h4⟩ := both h3
    obtain ⟨p6, h5⟩ := both h4
    obtain ⟨p7, h6⟩ := both h5
    obtain ⟨p8, h7⟩ := both h6
    exact ⟨(at2001 : MemRef), (prot 0), p2, p3, p4, p5, p6, p7, p8⟩

/-- The hypotheses of `Obligations.DivideErrors` can be met, clause by clause. -/
theorem witness_DivideErrors :
    (∃ (w : Width) (x : Rm) (s u : State) (b : BitVec w.bits), Passes (readRm w x) s.begin b u ∧ (b = 0 ∨ 2 ^ w.bits ≤
      s.dividend w / b.toNat)) ∧
    (∃ (w : Width) (x : Rm) (s u : State) (b : BitVec w.bits), Passes (readRm w x) s.begin b u ∧ (b = 0 ∨ (b.toInt ≠ 0 ∧
      ¬ (-(2 ^ (w.bits - 1) : Int) ≤ (BitVec.ofNat (2 * w.bits) (s.dividend w)).toInt.tdiv b.toInt ∧ (BitVec.ofNat (2 *
      w.bits) (s.dividend w)).toInt.tdiv b.toInt < 2 ^ (w.bits - 1))))) ∧
    (∃ (s : State), s.isLong = false) := by
  refine ⟨?_, ?_, ?_⟩
  · have h0 : (check (readRm (Width.w32 : Width) (.mem at2000 : Rm)) (prot 0).begin fun a1 t1 => decide (a1 = 0 ∨ 2 ^
      (Width.w32 : Width).bits ≤ (prot 0).dividend (Width.w32 : Width) / a1.toNat) && true) = true := by decide +kernel
    obtain ⟨a1, t1, p5, h1⟩ := found h0
    obtain ⟨p6, h2⟩ := both h1
    exact ⟨(Width.w32 : Width), (.mem at2000 : Rm), (prot 0), t1, a1, p5, p6⟩
  · have h0 : (check (readRm (Width.w32 : Width) (.mem at2000 : Rm)) (prot 0).begin fun a1 t1 => decide (a1 = 0 ∨ (a1.toInt
      ≠ 0 ∧ ¬ (-(2 ^ ((Width.w32 : Width).bits - 1) : Int) ≤ (BitVec.ofNat (2 * (Width.w32 : Width).bits) ((prot 0).dividend
      (Width.w32 : Width))).toInt.tdiv a1.toInt ∧ (BitVec.ofNat (2 * (Width.w32 : Width).bits) ((prot 0).dividend (Width.w32
      : Width))).toInt.tdiv a1.toInt < 2 ^ ((Width.w32 : Width).bits - 1)))) && true) = true := by decide +kernel
    obtain ⟨a1, t1, p5, h1⟩ := found h0
    obtain ⟨p6, h2⟩ := both h1
    exact ⟨(Width.w32 : Width), (.mem at2000 : Rm), (prot 0), t1, a1, p5, p6⟩
  · have h0 : (decide ((prot 0).isLong = false) && true) = true := by decide +kernel
    obtain ⟨p1, h1⟩ := both h0
    exact ⟨(prot 0), p1⟩

/-- The hypotheses of `Obligations.UnprivilegedStepKeepsSystemState` can be met, clause by clause. -/
theorem witness_UnprivilegedStepKeepsSystemState :
    ∃ s t : State, Undisturbed s ∧ s.privileged = false ∧ s.rtm.snapshot = none ∧ step s = .next t := by
  have h0 : isNext (step (withBytes (prot 3) 0x1000 [0x01, 0x0D, 0, 0x20, 0, 0])) = true := by
    decide +kernel
  obtain ⟨t, ht⟩ := stepped h0
  exact ⟨_, t, ⟨by decide +kernel, by decide +kernel, by decide +kernel, by decide +kernel, by decide +kernel,
    by decide +kernel⟩, by decide +kernel, rfl, ht⟩

/-- The hypotheses of `Obligations.NamedStops` can be met, clause by clause. -/
theorem witness_NamedStops :
    (∃ (o : XXI) (s : State), 8 ≤ o.imm.toNat ∧ SseReady .sse s) ∧
    (∃ (o : XXI) (s : State), 8 ≤ o.imm.toNat ∧ SseReady .sse2 s) ∧
    (∃ (o : VVXI) (s : State), 32 ≤ o.imm.toNat ∧ VexReady [.avx] s) ∧
    (∃ (s : State), s.mode = .prot ∧ s.flags.nt = true) ∧
    (∃ (w : Width) (m : MemRef) (s u : State) (v : Nat), s.popWraps m w.bytes = true ∧ Passes (pop w.bytes) s.begin v u) := by
  refine ⟨?_, ?_, ?_, ?_, ?_⟩
  · have h0 : (decide (8 ≤ (⟨1, .reg 2, 8⟩ : XXI).imm.toNat) && true) = true := by decide +kernel
    obtain ⟨p2, h1⟩ := both h0
    exact ⟨(⟨1, .reg 2, 8⟩ : XXI), (prot 0), p2, (by unfold SseReady; decide +kernel)⟩
  · have h0 : (decide (8 ≤ (⟨1, .reg 2, 0xFF⟩ : XXI).imm.toNat) && true) = true := by decide +kernel
    obtain ⟨p2, h1⟩ := both h0
    exact ⟨(⟨1, .reg 2, 0xFF⟩ : XXI), (prot 0), p2, (by unfold SseReady; decide +kernel)⟩
  · have h0 : (decide (32 ≤ (⟨.l128, 1, 2, .reg 3, 32⟩ : VVXI).imm.toNat) && true) = true := by decide +kernel
    obtain ⟨p2, h1⟩ := both h0
    exact ⟨(⟨.l128, 1, 2, .reg 3, 32⟩ : VVXI), (prot 0), p2, (by unfold VexReady; decide +kernel)⟩
  · have h0 : (decide ((({ prot 0 with flags := { State.reset.flags with nt := true } } : State) : State).mode = .prot) &&
      (decide ((({ prot 0 with flags := { State.reset.flags with nt := true } } : State) : State).flags.nt = true) && true))
      = true := by decide +kernel
    obtain ⟨p1, h1⟩ := both h0
    obtain ⟨p2, h2⟩ := both h1
    exact ⟨(({ prot 0 with flags := { State.reset.flags with nt := true } } : State) : State), p1, p2⟩
  · have h0 : (decide ((withReg
      { prot 0 with seg := sixSegs (flatSeg true 0 8 false true) (flatSeg false 0 0x10 false false) } 4 0xFFFC).popWraps
      ({ at2000 with base := some 4 } : MemRef) (Width.w32 : Width).bytes = true) && (check (pop (Width.w32 : Width).bytes)
      (withReg { prot 0 with seg := sixSegs (flatSeg true 0 8 false true) (flatSeg false 0 0x10 false false) } 4
      0xFFFC).begin fun a1 t1 => true)) = true := by decide +kernel
    obtain ⟨p5, h1⟩ := both h0
    obtain ⟨a1, t1, p6, h2⟩ := found h1
    exact ⟨(Width.w32 : Width), ({ at2000 with base := some 4 } : MemRef), (withReg
      { prot 0 with seg := sixSegs (flatSeg true 0 8 false true) (flatSeg false 0 0x10 false false) } 4 0xFFFC), t1, a1, p5,
      p6⟩

/-- The hypotheses of `Obligations.EventPriority` can be met, clause by clause. -/
theorem witness_EventPriority :
    (∃ (s : State), s.pins.reset = true) ∧
    (∃ (s : State), s.pins.reset = false ∧ s.pins.init = true ∧ s.rtm.snapshot = none) ∧
    (∃ (s : State), s.pins.reset = false ∧ s.pins.init = false ∧ s.pins.wake = true) ∧
    (∃ (s : State), s.pins.reset = false ∧ s.pins.init = false ∧ s.pins.wake = false ∧ s.act.shutdown = true) ∧
    (∃ (s : State) (v : BitVec 8), s.pins = { intr := some v } ∧ s.act.shutdown = false ∧ s.act.pendingDb = 0 ∧
      s.rtm.snapshot = none ∧ s.flags.ifl = true ∧ s.act.inhibit = .none) ∧
    (∃ (s : State) (v : BitVec 8), s.pins = { intr := some v } ∧ s.act.shutdown = false ∧ s.act.pendingDb = 0 ∧
      s.rtm.snapshot = none ∧ (s.flags.ifl = false ∨ s.act.inhibit ≠ .none) ∧ s.act.halted = false ∧ s.act.mwaitWaiting
      = false ∧ s.instrBreaks = 0) ∧
    (∃ (s : State), s.pins = { nmi := true } ∧ s.act.shutdown = false ∧ s.act.pendingDb = 0 ∧ s.rtm.snapshot = none ∧
      s.act.nmiBlocked = false ∧ s.act.inhibit ≠ .movSs) := by
  refine ⟨?_, ?_, ?_, ?_, ?_, ?_, ?_⟩
  · have h0 : (decide ((({ prot 0 with pins := { reset := true } } : State) : State).pins.reset = true) && true) = true :=
      by decide +kernel
    obtain ⟨p1, h1⟩ := both h0
    exact ⟨(({ prot 0 with pins := { reset := true } } : State) : State), p1⟩
  · have h0 : (decide ((({ prot 0 with pins := { init := true } } : State) : State).pins.reset = false) && (decide
      ((({ prot 0 with pins := { init := true } } : State) : State).pins.init = true) && (decide
      ((({ prot 0 with pins := { init := true } } : State) : State).rtm.snapshot = none) && true))) = true :=
      by decide +kernel
    obtain ⟨p1, h1⟩ := both h0
    obtain ⟨p2, h2⟩ := both h1
    obtain ⟨p3, h3⟩ := both h2
    exact ⟨(({ prot 0 with pins := { init := true } } : State) : State), p1, p2, p3⟩
  · have h0 : (decide ((({ prot 0 with pins := { wake := true } } : State) : State).pins.reset = false) && (decide
      ((({ prot 0 with pins := { wake := true } } : State) : State).pins.init = false) && (decide
      ((({ prot 0 with pins := { wake := true } } : State) : State).pins.wake = true) && true))) = true := by decide +kernel
    obtain ⟨p1, h1⟩ := both h0
    obtain ⟨p2, h2⟩ := both h1
    obtain ⟨p3, h3⟩ := both h2
    exact ⟨(({ prot 0 with pins := { wake := true } } : State) : State), p1, p2, p3⟩
  · have h0 : (decide ((({ prot 0 with act := { shutdown := true } } : State) : State).pins.reset = false) && (decide
      ((({ prot 0 with act := { shutdown := true } } : State) : State).pins.init = false) && (decide
      ((({ prot 0 with act := { shutdown := true } } : State) : State).pins.wake = false) && (decide
      ((({ prot 0 with act := { shutdown := true } } : State) : State).act.shutdown = true) && true)))) = true :=
      by decide +kernel
    obtain ⟨p1, h1⟩ := both h0
    obtain ⟨p2, h2⟩ := both h1
    obtain ⟨p3, h3⟩ := both h2
    obtain ⟨p4, h4⟩ := both h3
    exact ⟨(({ prot 0 with act := { shutdown := true } } : State) : State), p1, p2, p3, p4⟩
  · have h0 : (decide ((({ prot 0 with pins := { intr := some 0x20 }, flags := { State.reset.flags with ifl := true } } :
      State) : State).pins = { intr := some (0x20 : BitVec 8) }) && (decide
      ((({ prot 0 with pins := { intr := some 0x20 }, flags := { State.reset.flags with ifl := true } } : State) :
      State).act.shutdown = false) && (decide
      ((({ prot 0 with pins := { intr := some 0x20 }, flags := { State.reset.flags with ifl := true } } : State) :
      State).act.pendingDb = 0) && (decide
      ((({ prot 0 with pins := { intr := some 0x20 }, flags := { State.reset.flags with ifl := true } } : State) :
      State).rtm.snapshot = none) && (decide
      ((({ prot 0 with pins := { intr := some 0x20 }, flags := { State.reset.flags with ifl := true } } : State) :
      State).flags.ifl = true) && (decide
      ((({ prot 0 with pins := { intr := some 0x20 }, flags := { State.reset.flags with ifl := true } } : State) :
      State).act.inhibit = .none) && true)))))) = true := by decide +kernel
    obtain ⟨p2, h1⟩ := both h0
    obtain ⟨p3, h2⟩ := both h1
    obtain ⟨p4, h3⟩ := both h2
    obtain ⟨p5, h4⟩ := both h3
    obtain ⟨p6, h5⟩ := both h4
    obtain ⟨p7, h6⟩ := both h5
    exact ⟨(({ prot 0 with pins := { intr := some 0x20 }, flags := { State.reset.flags with ifl := true } } : State) :
      State), (0x20 : BitVec 8), p2, p3, p4, p5, p6, p7⟩
  · have h0 : (decide ((({ prot 0 with pins := { intr := some 0x20 } } : State) : State).pins =
      { intr := some (0x20 : BitVec 8) }) && (decide ((({ prot 0 with pins := { intr := some 0x20 } } : State) :
      State).act.shutdown = false) && (decide ((({ prot 0 with pins := { intr := some 0x20 } } : State) :
      State).act.pendingDb = 0) && (decide ((({ prot 0 with pins := { intr := some 0x20 } } : State) : State).rtm.snapshot =
      none) && (decide (((({ prot 0 with pins := { intr := some 0x20 } } : State) : State).flags.ifl = false ∨
      (({ prot 0 with pins := { intr := some 0x20 } } : State) : State).act.inhibit ≠ .none)) && (decide
      ((({ prot 0 with pins := { intr := some 0x20 } } : State) : State).act.halted = false) && (decide
      ((({ prot 0 with pins := { intr := some 0x20 } } : State) : State).act.mwaitWaiting = false) && (decide
      ((({ prot 0 with pins := { intr := some 0x20 } } : State) : State).instrBreaks = 0) && true)))))))) = true :=
      by decide +kernel
    obtain ⟨p2, h1⟩ := both h0
    obtain ⟨p3, h2⟩ := both h1
    obtain ⟨p4, h3⟩ := both h2
    obtain ⟨p5, h4⟩ := both h3
    obtain ⟨p6, h5⟩ := both h4
    obtain ⟨p7, h6⟩ := both h5
    obtain ⟨p8, h7⟩ := both h6
    obtain ⟨p9, h8⟩ := both h7
    exact ⟨(({ prot 0 with pins := { intr := some 0x20 } } : State) : State), (0x20 : BitVec 8), p2, p3, p4, p5, p6, p7, p8,
      p9⟩
  · have h0 : (decide ((({ prot 0 with pins := { nmi := true } } : State) : State).pins = { nmi := true }) && (decide
      ((({ prot 0 with pins := { nmi := true } } : State) : State).act.shutdown = false) && (decide
      ((({ prot 0 with pins := { nmi := true } } : State) : State).act.pendingDb = 0) && (decide
      ((({ prot 0 with pins := { nmi := true } } : State) : State).rtm.snapshot = none) && (decide
      ((({ prot 0 with pins := { nmi := true } } : State) : State).act.nmiBlocked = false) && (decide
      ((({ prot 0 with pins := { nmi := true } } : State) : State).act.inhibit ≠ .movSs) && true)))))) = true :=
      by decide +kernel
    obtain ⟨p1, h1⟩ := both h0
    obtain ⟨p2, h2⟩ := both h1
    obtain ⟨p3, h3⟩ := both h2
    obtain ⟨p4, h4⟩ := both h3
    obtain ⟨p5, h5⟩ := both h4
    obtain ⟨p6, h6⟩ := both h5
    exact ⟨(({ prot 0 with pins := { nmi := true } } : State) : State), p1, p2, p3, p4, p5, p6⟩

/-- The hypotheses of `Obligations.PackedElements` can be met, clause by clause. -/
theorem witness_PackedElements :
    (∃ (n w k : Nat), 0 < w ∧ n = w * k ∧ ∃ (i : Nat), i < k) ∧
    (∃ (n w k : Nat), 0 < w ∧ n = w * k) := by
  refine ⟨?_, ?_⟩
  · have h0 : (decide (0 < (8 : Nat)) && (decide ((32 : Nat) = (8 : Nat) * (4 : Nat)) && (decide ((3 : Nat) < (4 : Nat)) &&
      true))) = true := by decide +kernel
    obtain ⟨p3, h1⟩ := both h0
    obtain ⟨p4, h2⟩ := both h1
    obtain ⟨p6, h3⟩ := both h2
    exact ⟨(32 : Nat), (8 : Nat), (4 : Nat), p3, p4, (3 : Nat), p6⟩
  · have h0 : (decide (0 < (8 : Nat)) && (decide ((32 : Nat) = (8 : Nat) * (4 : Nat)) && true)) = true := by decide +kernel
    obtain ⟨p3, h1⟩ := both h0
    obtain ⟨p4, h2⟩ := both h1
    exact ⟨(32 : Nat), (8 : Nat), (4 : Nat), p3, p4⟩

/-- The hypotheses of `Obligations.LahfRule` can be met, clause by clause. -/
theorem witness_LahfRule :
    (∃ (s : State), (s.isLong = true → s.has .lahf64 = true)) ∧
    (∃ (s : State), s.isLong = true ∧ s.has .lahf64 = false) := by
  refine ⟨?_, ?_⟩
  · have h0 : (decide (((prot 0).isLong = true → (prot 0).has .lahf64 = true)) && true) = true := by decide +kernel
    obtain ⟨p1, h1⟩ := both h0
    exact ⟨(prot 0), p1⟩
  · have h0 : (decide ((({ long 0 with cfg := { cpuid := [] } } : State) : State).isLong = true) && (decide
      ((({ long 0 with cfg := { cpuid := [] } } : State) : State).has .lahf64 = false) && true)) = true := by decide +kernel
    obtain ⟨p1, h1⟩ := both h0
    obtain ⟨p2, h2⟩ := both h1
    exact ⟨(({ long 0 with cfg := { cpuid := [] } } : State) : State), p1, p2⟩

/-- The hypotheses of `Obligations.VzeroallRule` can be met, clause by clause. -/
theorem witness_VzeroallRule :
    (∃ (s : State), VexReady [.avx] s) ∧
    (∃ (s : State), s.isLegacySeg = true ∨ s.cr4Bit 18 = false ∨ s.sys.xcr0.getLsbD 1 = false ∨ s.sys.xcr0.getLsbD 2 =
      false ∨ s.has .avx = false) ∧
    (∃ (s : State), s.isLegacySeg = false ∧ s.cr4Bit 18 = true ∧ s.sys.xcr0.getLsbD 1 = true ∧ s.sys.xcr0.getLsbD 2 =
      true ∧ s.has .avx = true ∧ s.cr0Bit 3 = true) ∧
    (∃ v : BitVec 4, v.getLsbD 3 = true ∧ v ≠ 15) := by
  refine ⟨?_, ?_, ?_, ?_⟩
  · exact ⟨(prot 0), (by unfold VexReady; decide +kernel)⟩
  · have h0 : (decide ((real : State).isLegacySeg = true ∨ (real : State).cr4Bit 18 = false ∨ (real :
      State).sys.xcr0.getLsbD 1 = false ∨ (real : State).sys.xcr0.getLsbD 2 = false ∨ (real : State).has .avx = false) &&
      true) = true := by decide +kernel
    obtain ⟨p1, h1⟩ := both h0
    exact ⟨(real : State), p1⟩
  · have h0 : (decide ((({ prot 0 with sys := { (prot 0).sys with cr0 := 0x39 } } : State) : State).isLegacySeg = false) &&
      (decide ((({ prot 0 with sys := { (prot 0).sys with cr0 := 0x39 } } : State) : State).cr4Bit 18 = true) && (decide
      ((({ prot 0 with sys := { (prot 0).sys with cr0 := 0x39 } } : State) : State).sys.xcr0.getLsbD 1 = true) && (decide
      ((({ prot 0 with sys := { (prot 0).sys with cr0 := 0x39 } } : State) : State).sys.xcr0.getLsbD 2 = true) && (decide
      ((({ prot 0 with sys := { (prot 0).sys with cr0 := 0x39 } } : State) : State).has .avx = true) && (decide
      ((({ prot 0 with sys := { (prot 0).sys with cr0 := 0x39 } } : State) : State).cr0Bit 3 = true) && true)))))) = true :=
      by decide +kernel
    obtain ⟨p1, h1⟩ := both h0
    obtain ⟨p2, h2⟩ := both h1
    obtain ⟨p3, h3⟩ := both h2
    obtain ⟨p4, h4⟩ := both h3
    obtain ⟨p5, h5⟩ := both h4
    obtain ⟨p6, h6⟩ := both h5
    exact ⟨(({ prot 0 with sys := { (prot 0).sys with cr0 := 0x39 } } : State) : State), p1, p2, p3, p4, p5, p6⟩
  · exact ⟨8, by decide⟩

end Sys2Proof.Tests
end

section
/-! LAHF (spec/49_j_jcc-lzcnt.md rule R742). Its byte is cut from the image of RFLAGS, so the bits of that image are said
first; its one check is the feature it needs in 64-bit mode. -/

namespace Sys2Proof.Machine

variable {s : State}

/-- A flag placed at bit i of a word is seen at bit i alone. -/
theorem getLsbD_flagAt (v : Bool) {i : Nat} (hi : i < 64) (j : Nat) :
    (if v then (1 : Word) <<< i else 0).getLsbD j = (v && decide (j = i)) := by
  cases v
  · simp
  · by_cases h : j = i
    · simp [h, hi]
    · simp [h]; omega

/-- Bits 7:0 of the image of RFLAGS (rule R60): the status flags, and the fixed bit 1. -/
theorem image_getLsbD_low (f : Flags) {i : Nat} (hi : i < 8) :
    f.image.getLsbD i = (f.cf && decide (i = 0) || decide (i = 1) || f.pf && decide (i = 2) || f.af && decide (i = 4) ||
      f.zf && decide (i = 6) || f.sf && decide (i = 7)) := by
  have above (k : Nat) (hk : 8 ≤ k) : decide (i = k) = false := decide_eq_false (by omega)
  have fixed : ((2 : Nat) : Word).getLsbD i = decide (i = 1) := getLsbD_flagAt true (i := 1) (by omega) i
  have iopl : (f.iopl.setWidth 64 <<< 12 : Word).getLsbD i = false := by simp; omega
  simp (disch := omega) only [Flags.image, BitVec.getLsbD_or, fixed, iopl, getLsbD_flagAt, above, Bool.and_false,
    Bool.or_false]

/-- What LAHF writes to AH: SF, ZF, 0, AF, 0, PF, 1 and CF in bits 7 to 0. -/
theorem lahfByte_bits (f : Flags) {v : BitVec 8} (hv : v = (f.image &&& 0xD7).setWidth 8) :
    v.getLsbD 7 = f.sf ∧ v.getLsbD 6 = f.zf ∧ v.getLsbD 5 = false ∧ v.getLsbD 4 = f.af ∧
      v.getLsbD 3 = false ∧ v.getLsbD 2 = f.pf ∧ v.getLsbD 1 = true ∧ v.getLsbD 0 = f.cf := by
  subst hv
  simp [-BitVec.getLsbD_eq_getElem, image_getLsbD_low]

theorem lahf_completes (h : s.isLong = true → s.has .lahf64 = true) :
    Completes .lahf s (s.begin.setGpVal .w8 (.hi 0) ((s.begin.flags.image &&& 0xD7).setWidth 8)) :=
  run_of_passes (passes_bind (passes_needLahf h) (passes_bind (passes_get _) (passes_modify _ _)))

theorem raises_needLahf (hl : s.isLong = true) (hf : s.has .lahf64 = false) :
    Raises needLahf s.begin { vec := 6 } s.begin := by
  have hc : (!s.begin.isLong || s.begin.has .lahf64) = false := by
    rw [show s.begin.isLong = true from hl, show s.begin.has .lahf64 = false from hf]; rfl
  exact raises_after (passes_get _) (raises_ensure hc (raises_raise _ _))

theorem lahf_undefined (hl : s.isLong = true) (hf : s.has .lahf64 = false) :
    exec .lahf s = takeException { vec := 6 } s := by
  calc exec .lahf s
      _ = takeException { vec := 6 } (s.faulted s.begin) :=
        run_of_raise_access (raises_bind (raises_needLahf hl hf)) rfl (.refl _)
      _ = takeException { vec := 6 } s := by rw [s.faulted_begin]

/-- The mode matters only as the reader of prefixes asks, in 64-bit mode, whether 9FH is a REX byte. -/
theorem decode_lahf (m : CMode) :
    decode m [0x9F] = .ok ⟨.lahf, 1, 0⟩ ∧ decode m [0xF0, 0x9F] = .error .undefined := by
  obtain ⟨long, _, _⟩ := m
  cases long with
  | false => exact ⟨rfl, rfl⟩
  | true => exact ⟨rfl, rfl⟩

/-- Settles O59: the byte for AH is the image of RFLAGS at the start, where only RF was cleared, less its bits 5 and 3. -/
theorem lahfRule : Obligations.LahfRule := by
  refine ⟨fun s => ⟨fun h => ?_, lahf_undefined⟩, decode_lahf⟩
  exact ⟨_, lahf_completes h, lahfByte_bits s.begin.flags rfl⟩

end Sys2Proof.Machine
end

section
/-! STC and STD (spec/56_s_sahf-sysret.md rules R1054 and R1055). Their meaning is a change of the flags alone; each is one
opcode byte of Table A-2 that stands for one instruction, which is said once for every such byte. -/

namespace Sys2Proof

/-- A form without ModRM that stands for one instruction reads nothing more, and is refused under LOCK (rule R312). -/
theorem entry_op (c : Dec) (i : Instr) (bs : List Byte) :
    c.entry (.op i) bs = if c.lock then .error .undefined else .ok (i, bs) := by
  have built : c.entry (.op i) bs = (if c.lock && !false then throw .undefined else return i : P Instr) bs := rfl
  rw [built]
  cases c.lock with
  | false => rfl
  | true => rfl

/-- The byte is a one-byte opcode: none of rule R310, not REX (rule R350), VEX (rule R360) or the escape byte 0FH. -/
structure OpcodeByte (b : Byte) : Prop where
  note (c : Dec) : c.note b = none
  notRex : b.toNat / 16 ≠ 4
  notVex : ¬(b = 0xC4#8 ∨ b = 0xC5#8)
  notEscape : b ≠ 0x0F#8

variable {b : Byte} {i : Instr}

theorem OpcodeByte.readPfx (h : OpcodeByte b) (c : Dec) (bs : List Byte) : readPfx c (b :: bs) = (c, b :: bs) := by
  simp [Sys2Proof.readPfx, h.note, h.notRex]

theorem OpcodeByte.opcode (h : OpcodeByte b) (c : Dec) (bs : List Byte) :
    c.opcode (b :: bs) = c.entry (oneByte b.toNat) bs := by
  simp [Dec.opcode, Dec.isVex, P.byte, h.notVex, h.notEscape, bind, StateT.bind, Except.bind, get, getThe,
    MonadStateOf.get, StateT.get, pure, Except.pure]

/-- Neither the sizes nor the VEX rule of a mode are asked: the mode is free (rule R401). -/
theorem decode_opByte (h : OpcodeByte b) (hi : oneByte b.toNat = .op i) (m : CMode) : decode m [b] = .ok ⟨i, 1, 0⟩ := by
  simp [decode, h.readPfx, h.opcode, hi, entry_op, fopOf]

/-- Such an instruction has no memory destination for LOCK to stand before (rule R312). -/
theorem decode_lock_opByte (h : OpcodeByte b) (hi : oneByte b.toNat = .op i) (m : CMode) :
    decode m [0xF0, b] = .error .undefined := by
  have hp : readPfx { m := m } [0xF0#8, b] = ({ m := m, lock := true }, [b]) := h.readPfx { m := m, lock := true } []
  simp [decode, hp, h.opcode, hi, entry_op]

theorem opcodeByte_F9 : OpcodeByte 0xF9 := ⟨fun _ => rfl, by decide, by decide, by decide⟩
theorem opcodeByte_FD : OpcodeByte 0xFD := ⟨fun _ => rfl, by decide, by decide, by decide⟩

theorem oneByte_F9 : oneByte 0xF9 = .op .stc := rfl
theorem oneByte_FD : oneByte 0xFD = .op .std := rfl

namespace Machine

/-- An instruction whose meaning is a change of the flags completes with that change alone. -/
theorem completes_of_modifyFlags {i : Instr} {g : Flags → Flags} {s : State} (h : exec i s = run (modifyFlags g) s) :
    Completes i s { s.begin with flags := g s.begin.flags } :=
  h.trans (run_of_passes (passes_modify _ _))

/-- Settles O58: each instruction only changes the flags, and F9H and FDH are opcode bytes that stand for one instruction. -/
theorem setFlagRules : Obligations.SetFlagRules := by
  refine ⟨fun s => ⟨?stc, ?std⟩, fun m => ⟨?F9, ?FD, ?lockF9, ?lockFD⟩⟩
  case stc => exact completes_of_modifyFlags (g := fun f => { f with cf := true }) rfl
  case std => exact completes_of_modifyFlags (g := fun f => { f with df := true }) rfl
  case F9 => exact decode_opByte opcodeByte_F9 oneByte_F9 m
  case FD => exact decode_opByte opcodeByte_FD oneByte_FD m
  case lockF9 => exact decode_lock_opByte opcodeByte_F9 oneByte_F9 m
  case lockFD => exact decode_lock_opByte opcodeByte_FD oneByte_FD m

end Machine
end Sys2Proof
end

section
/-! Memory in canonical form at reset, and encodings written out. -/

namespace Sys2Proof.Machine

/-- Settles O44: nothing is listed in memory, and no transaction is running. -/
theorem resetCanonical : Obligations.ResetCanonical := ⟨rfl, fun _ h => nomatch h⟩

/-- Settles O40: the decoder evaluates on each of the seven. -/
theorem decodeWords : Obligations.DecodeWords := by
  unfold Obligations.DecodeWords
  decide +kernel

end Sys2Proof.Machine
end

section
/-! The legacy SSE instructions. Each clause of a statement lists constructors that share one operation of the model; an entry
is the law of that operation at the constructor's own arguments. -/

namespace Sys2Proof.Machine

variable {s u : State}

/-- DPPD and DPPS; in the steps of a dot product MXCSR and the count of free values drawn are not fixed beforehand. -/
theorem xDot_completes {i : Instr} {f : FpFmt} {o : XXI} {b : BitVec (8 * 16)} (hi : exec i s = run (xDot f o) s)
    (h : SseReady .sse41 s) (hm : SimdMasked s) (hb : Passes (readXm .size 16 o.src) s.begin b u) :
    ∃ v x n, Passes (dotProduct f o.imm (u.xmm o.dst) b) u v { u with mxcsr := x, free := n } ∧
      Completes i s ({ u with mxcsr := x, free := n }.setXmm o.dst v) := by
  obtain ⟨v, x, n, hd, hp⟩ := xDot_passes (s := s.begin) h hm hb
  exact ⟨v, x, n, hd, hi.trans (run_of_passes hp)⟩

/-- Settles O1. -/
theorem sseLegacyResults : Obligations.SseLegacyResults := by
  refine ⟨?_, ?_, ?_, ?_, ?_, ?_, ?_, ?_⟩
  · repeat refine List.forall_mem_cons.2 ⟨fun _ _ _ _ h hb => run_of_passes (xxRun_passes h hb), ?_⟩
    exact List.forall_mem_nil _
  · repeat refine List.forall_mem_cons.2 ⟨fun _ _ _ _ h hb => run_of_passes (xxiRun_passes h hb), ?_⟩
    exact List.forall_mem_nil _
  · repeat refine List.forall_mem_cons.2 ⟨fun _ _ _ _ h hb => run_of_passes (xxRun_passes h hb), ?_⟩
    exact List.forall_mem_nil _
  · repeat refine List.forall_mem_cons.2 ⟨fun _ _ _ _ h hb => run_of_passes (xApproxScalar_passes h hb), ?_⟩
    exact List.forall_mem_nil _
  · repeat refine List.forall_mem_cons.2 ⟨fun _ _ _ _ h hb => run_of_passes (xnRun_passes h hb), ?_⟩
    exact List.forall_mem_nil _
  · repeat refine List.forall_mem_cons.2 ⟨fun _ _ _ _ h hb =>
      run_of_passes (passes_bind (passes_needSse h) (passes_bind hb rfl)), ?_⟩
    exact List.forall_mem_nil _
  · exact fun _ _ _ _ h hb => run_of_passes (passes_bind (passes_needSse h) (passes_bind hb rfl))
  · repeat refine List.forall_mem_cons.2 ⟨fun _ _ h =>
      run_of_passes (passes_bind (passes_needSse h) (passes_bind rfl rfl)), ?_⟩
    exact List.forall_mem_nil _

/-- Settles O2. -/
theorem sseFloatResults : Obligations.SseFloatResults := by
  refine ⟨?_, ?_, ?_, ?_, ?_, ?_, ?_, ?_⟩
  · repeat refine List.forall_mem_cons.2 ⟨fun _ _ _ _ h hm hb => run_of_passes (xxFp_passes h hm hb), ?_⟩
    exact List.forall_mem_nil _
  · repeat refine List.forall_mem_cons.2 ⟨fun _ _ _ _ h hm hb => run_of_passes (xFp1_passes h hm hb), ?_⟩
    exact List.forall_mem_nil _
  · repeat refine List.forall_mem_cons.2 ⟨fun _ _ _ _ h hm hb => run_of_passes (xxScalar_passes h hm hb), ?_⟩
    exact List.forall_mem_nil _
  · repeat refine List.forall_mem_cons.2 ⟨fun _ _ _ _ h hm hb => run_of_passes (xFp1_passes h hm hb), ?_⟩
    exact List.forall_mem_nil _
  · repeat refine List.forall_mem_cons.2 ⟨fun _ _ _ _ h hm hb => run_of_passes (xxScalar_passes h hm hb), ?_⟩
    exact List.forall_mem_nil _
  · repeat refine List.forall_mem_cons.2 ⟨fun _ _ _ _ hi h hm hb => run_of_passes (cmpPacked_passes hi h hm hb), ?_⟩
    exact List.forall_mem_nil _
  · repeat refine List.forall_mem_cons.2 ⟨fun _ _ _ _ hi h hm hb => run_of_passes (cmpScalar_passes hi h hm hb), ?_⟩
    exact List.forall_mem_nil _
  · repeat refine List.forall_mem_cons.2 ⟨fun _ _ _ _ h hm hb => xDot_completes rfl h hm hb, ?_⟩
    exact List.forall_mem_nil _

/-- Settles O3. -/
theorem sseConversionResults : Obligations.SseConversionResults := by
  refine ⟨?_, ?_, ?_, ?_, ?_, ?_, ?_, ?_, ?_, ?_⟩
  · repeat refine List.forall_mem_cons.2 ⟨fun _ _ _ _ h hm hb => run_of_passes (xCvt_passes h hm hb), ?_⟩
    exact List.forall_mem_nil _
  · repeat refine List.forall_mem_cons.2 ⟨fun _ _ _ _ h he hm hb => run_of_passes (mxCvt_passes h he hm hb), ?_⟩
    exact List.forall_mem_nil _
  · repeat refine List.forall_mem_cons.2 ⟨fun _ _ _ _ h hm hb => run_of_passes (gxCvt_passes (passes_needSse h) hm hb), ?_⟩
    exact List.forall_mem_nil _
  · repeat refine List.forall_mem_cons.2 ⟨fun _ _ _ _ h hm hb => run_of_passes (xgCvt_passes h hm hb), ?_⟩
    exact List.forall_mem_nil _
  · repeat refine List.forall_mem_cons.2 ⟨fun _ _ _ _ h hm hb => run_of_passes (comi_passes h hm hb), ?_⟩
    exact List.forall_mem_nil _
  · exact fun _ _ s _ _ h he hm hb => run_of_passes (passes_bind (passes_needSse h) (passes_bind (passes_needNoPending he)
      (passes_bind rfl (passes_bind hb (passes_bind rfl
        (passes_bind (passes_commit (SimdMasked.access (s := s.begin.mmxUsed) hm (readMmM_accessOnly hb)) _) rfl))))))
  · exact fun _ _ s _ _ h hm hb => run_of_passes (passes_bind (passes_needSse h) (passes_bind hb (passes_bind rfl
      (passes_bind (passes_commit (SimdMasked.access (s := s.begin) hm (readMmM_accessOnly hb)) _) rfl))))
  · exact fun _ s _ _ h he hm hb => run_of_passes (passes_bind (passes_needSse h) (passes_bind (passes_needNoPending he)
      (passes_bind hb (passes_bind rfl
        (passes_bind (passes_commit (SimdMasked.access (s := s.begin) hm (readMmM_accessOnly hb)) _)
          (passes_bind rfl (passes_bind rfl rfl)))))))
  · exact fun _ _ _ _ hb hv => ⟨fun h => run_of_passes (passes_bind (passes_needSse h) (loadMxcsr_passes hb hv)),
      fun h => run_of_passes (passes_bind (passes_needVex h) (loadMxcsr_passes hb hv))⟩
  · exact fun _ _ _ _ hb => ⟨fun h => run_of_passes (passes_bind (passes_needSse h) (storeMxcsr_passes hb)),
      fun h => run_of_passes (passes_bind (passes_needVex h) (storeMxcsr_passes hb))⟩

end Sys2Proof.Machine
end

section
/-! The moves of the legacy SSE instructions, and the instructions with an MMX and an XMM form. -/

namespace Sys2Proof.Machine

variable {s u : State}

/-- A full-register move completes as a load, as a copy and as a store. -/
theorem xmov_completes {k : XMov → Instr} {fx : Config.Feature} {al : Align}
    (hk : ∀ o s, exec (k o) s = run (xmovRun fx al o) s) :
    (∀ (dst : Reg) (src : Xm) (s u : State) (b : BitVec (8 * 16)), SseReady fx s →
        Passes (readXm al 16 src) s.begin b u → Completes (k (.load dst src)) s (u.setXmm dst b)) ∧
      (∀ (dst src : Reg) (s : State), SseReady fx s →
        Completes (k (.store (.reg dst) src)) s (s.begin.setXmm dst (s.xmm src))) ∧
      (∀ (m : MemRef) (src : Reg) (s u : State) (as : List Nat), SseReady fx s →
        Passes (resolveVec .write al m 16) s.begin as u →
        Completes (k (.store (.mem m) src)) s (u.physWrite as ((s.xmm src).toNat % 2 ^ (8 * 16)))) := by
  refine ⟨fun dst src s u b h hb => ?load, fun dst src s h => ?copy, fun m src s u as h hr => ?store⟩
  case load => exact (hk _ s).trans (run_of_passes (passes_bind (passes_needSse h) (passes_bind hb rfl)))
  case copy => exact (hk _ s).trans (run_of_passes (passes_bind (passes_needSse h) rfl))
  case store => exact (hk _ s).trans (run_of_passes (passes_bind (passes_needSse h) (passes_bind rfl (storeVec_passes hr))))

/-- An extraction completes into a register and into memory, whatever lets it run. -/
theorem extract_completes {k : ExtrOps → Instr} {w : Width} {ready : State → Prop} {enter : M Unit}
    (hk : ∀ o s, exec (k o) s = run (extractRun enter w o) s) (he : ∀ s : State, ready s → Passes enter s.begin () s.begin) :
    (∀ (r src : Reg) (imm : BitVec 8) (s : State), ready s →
        Completes (k ⟨.reg (.lo r), src, imm⟩) s
          (s.begin.setGp r (regWrite s.isLong s.wide (s.gp r)
            ((lane w.bits (s.xmm src) (imm.toNat % (128 / w.bits))).setWidth s.wide.bits)))) ∧
      (∀ (m : MemRef) (src : Reg) (imm : BitVec 8) (s u : State) (d : Place), ready s →
        Passes (place .write w (.mem m)) s.begin d u →
        Completes (k ⟨.mem m, src, imm⟩) s
          (u.setPlace w d (lane w.bits (s.xmm src) (imm.toNat % (128 / w.bits))))) :=
  ⟨fun _ _ _ s h => (hk _ s).trans (run_of_passes (extractRun_reg_passes (he s h))),
    fun _ _ _ s _ _ h hp => (hk _ s).trans (run_of_passes (extractRun_mem_passes (he s h) hp))⟩

/-- Settles O4. -/
theorem sseMoveResults : Obligations.SseMoveResults := by
  refine ⟨?full, ?scalar, ?half, ?nontemporal, ?load, ?reg, ?insert, ?insertps, ?extract, ?movd, ?movq, ?mmx, ?masked⟩
  case full =>
    repeat refine List.forall_mem_cons.2 ⟨xmov_completes fun _ _ => rfl, ?_⟩
    exact List.forall_mem_nil _
  case scalar =>
    repeat refine List.forall_mem_cons.2 ⟨⟨fun _ _ _ h => ⟨run_of_passes (passes_bind (passes_needSse h) rfl),
        run_of_passes (passes_bind (passes_needSse h) rfl)⟩,
      fun _ _ _ _ _ h hb => run_of_passes (passes_bind (passes_needSse h) (passes_bind hb rfl)),
      fun _ _ _ _ _ h hr => run_of_passes (passes_bind (passes_needSse h) (passes_bind rfl (storeVec_passes hr)))⟩, ?_⟩
    exact List.forall_mem_nil _
  case half =>
    repeat refine List.forall_mem_cons.2 ⟨⟨fun _ _ _ _ _ h hb => run_of_passes (passes_bind (passes_needSse h)
        (passes_bind hb rfl)),
      fun _ _ _ _ _ h hr => run_of_passes (passes_bind (passes_needSse h) (passes_bind rfl (storeVec_passes hr)))⟩, ?_⟩
    exact List.forall_mem_nil _
  case nontemporal =>
    repeat refine List.forall_mem_cons.2 ⟨fun _ _ _ _ h hr => run_of_passes (ntStore_passes h hr), ?_⟩
    exact List.forall_mem_nil _
  case load =>
    repeat refine List.forall_mem_cons.2 ⟨fun _ _ _ _ h hb =>
      run_of_passes (passes_bind (passes_needSse h) (passes_bind hb rfl)), ?_⟩
    exact List.forall_mem_nil _
  case reg =>
    exact fun o s => ⟨fun h => run_of_passes (passes_bind (passes_needSse h) rfl),
      fun h => run_of_passes (passes_bind (passes_needSse h) rfl),
      fun h => run_of_passes (passes_bind (passes_needSse h) rfl), fun h => run_of_passes (passes_bind (passes_needSse h) rfl)⟩
  case insert =>
    repeat refine List.forall_mem_cons.2 ⟨fun _ _ _ _ h hv => run_of_passes (insertRun_passes h hv), ?_⟩
    exact List.forall_mem_nil _
  case insertps => exact fun _ _ _ _ h hx => run_of_passes (passes_bind (passes_needSse h) (passes_bind hx rfl))
  case extract =>
    have sse {k : ExtrOps → Instr} {w : Width} (hk : ∀ o s, exec (k o) s = run (extractRun (needSse .sse41) w o) s) :=
      extract_completes hk fun _ h => passes_needSse h
    have vex {k : ExtrOps → Instr} {w : Width} (hk : ∀ o s, exec (k o) s = run (extractRun (needVex [.avx]) w o) s) :=
      extract_completes hk fun _ h => passes_needVex h
    exact List.forall_iff_forall_mem.1 ⟨sse fun _ _ => rfl, vex fun _ _ => rfl, sse fun _ _ => rfl, vex fun _ _ => rfl,
      sse fun _ _ => rfl, vex fun _ _ => rfl, sse fun _ _ => rfl, vex fun _ _ => rfl, vex fun _ _ => rfl⟩
  case movd =>
    repeat refine List.forall_mem_cons.2 ⟨⟨
      fun _ _ _ _ _ h hv => run_of_passes (passes_bind (passes_needMmx h) (passes_bind hv rfl)),
      fun _ _ _ _ _ h hp => run_of_passes (passes_bind (passes_needMmx h) (passes_bind rfl
        (passes_bind (writeRm_passes hp) rfl))),
      fun _ _ _ _ _ h hv => run_of_passes (passes_bind (passes_needSse h) (passes_bind hv rfl)),
      fun _ _ _ _ _ h hp => run_of_passes (passes_bind (passes_needSse h) (passes_bind rfl (writeRm_passes hp)))⟩, ?_⟩
    exact List.forall_mem_nil _
  case movq =>
    exact ⟨fun _ _ _ _ _ h hv => run_of_passes (passes_bind (passes_needMmx h) (passes_bind hv rfl)),
      fun _ _ _ h => run_of_passes (passes_bind (passes_needMmx h) rfl),
      fun _ _ _ _ _ h hr => run_of_passes (passes_bind (passes_needMmx h) (passes_bind hr rfl)),
      fun _ _ _ _ _ h he hv => run_of_passes (passes_bind (passes_needSse h) (passes_bind (passes_needNoPending he)
        (passes_bind hv rfl))),
      fun _ _ _ h he => run_of_passes (passes_bind (passes_needSse h) (passes_bind (passes_needNoPending he) rfl)),
      fun _ _ _ _ _ h he hr => run_of_passes (passes_bind (passes_needSse h) (passes_bind (passes_needNoPending he)
        (passes_bind rfl (storeVec_passes hr))))⟩
  case mmx =>
    exact fun _ h he => ⟨fun _ _ => run_of_passes (passes_bind (passes_needSse h) (passes_bind (passes_needNoPending he) rfl)),
      fun _ _ => run_of_passes (passes_bind (passes_needSse h) (passes_bind (passes_needNoPending he) rfl))⟩
  case masked =>
    refine List.forall_mem_cons.2 ⟨fun o s u ps h hp => ?_, List.forall_mem_cons.2 ⟨fun o s u ps h hp => ?_,
      List.forall_mem_nil _⟩⟩
    · exact run_of_passes (passes_bind (passes_needSse h) (passes_bind rfl (passes_bind rfl (maskStore_passes hp))))
    · exact run_of_passes (passes_bind (passes_needVex h) (passes_bind rfl (passes_bind rfl (maskStore_passes hp))))

/-- Settles O5. -/
theorem mmxResults : Obligations.MmxResults := by
  refine ⟨?full, ?low, ⟨?alignMm, ?alignX⟩, ?shufw, ?shift, ?toGp, ?extract, ?insert, ?emms, ?movntq, ?masked⟩
  case full =>
    repeat refine List.forall_mem_cons.2 ⟨⟨fun _ _ _ _ _ h hb => run_of_passes (mxnRun_mm_passes h hb),
      fun _ _ _ _ _ h hb => run_of_passes (mxnRun_xx_passes h hb)⟩, ?_⟩
    exact List.forall_mem_nil _
  case low =>
    repeat refine List.forall_mem_cons.2 ⟨⟨fun _ _ _ _ _ h hb => run_of_passes (mxnRun_mm_passes h hb),
      fun _ _ _ _ _ h hb => run_of_passes (mxnRun_xx_passes h hb)⟩, ?_⟩
    exact List.forall_mem_nil _
  case alignMm => exact fun _ _ _ _ _ _ h hb => run_of_passes (mxnRun_mm_passes h hb)
  case alignX => exact fun _ _ _ _ _ _ h hb => run_of_passes (mxnRun_xx_passes h hb)
  case shufw => exact fun _ _ _ _ h hb => run_of_passes (passes_bind (passes_needMmx h) (passes_bind hb rfl))
  case shift =>
    repeat refine List.forall_mem_cons.2 ⟨⟨fun _ _ _ _ _ h hc => run_of_passes (packedShift_mm_passes h hc),
      fun _ _ _ h => run_of_passes (passes_bind (passes_needMmx h) rfl),
      fun _ _ _ _ _ h hc => run_of_passes (packedShift_xx_passes h hc),
      fun _ _ _ h => run_of_passes (passes_bind (passes_needSse h) rfl)⟩, ?_⟩
    exact List.forall_mem_nil _
  case toGp =>
    exact fun _ _ => ⟨fun _ h => run_of_passes (passes_bind (passes_needMmx h) rfl),
      fun _ h => run_of_passes (passes_bind (passes_needSse h) rfl),
      fun _ _ h => run_of_passes (passes_bind (passes_needMmx h) rfl)⟩
  case extract =>
    exact fun _ _ _ => ⟨fun _ h => run_of_passes (extractRun_reg_passes (passes_needSse h)),
      fun _ h => run_of_passes (extractRun_reg_passes (passes_needSse h)),
      fun _ _ _ h hp => run_of_passes (extractRun_mem_passes (passes_needSse h) hp)⟩
  case insert =>
    exact fun _ _ _ _ _ hv => ⟨fun _ h => run_of_passes (passes_bind (passes_needMmx h) (passes_bind hv rfl)),
      fun _ h => run_of_passes (insertRun_passes h hv)⟩
  case emms => exact fun _ h => run_of_passes (passes_bind (passes_needMmx h) rfl)
  case movntq => exact fun _ _ _ _ h hr => run_of_passes (passes_bind (passes_needMmx h) (passes_bind hr rfl))
  case masked =>
    exact fun _ _ _ _ h hp => run_of_passes (passes_bind (passes_needMmx h) (passes_bind rfl (passes_bind rfl
      (passes_bind (maskStore_passes hp) rfl))))

end Sys2Proof.Machine
end

section
/-! The VEX-encoded instructions without numeric exceptions. -/

namespace Sys2Proof.Machine

variable {s u : State}

/-- Settles O6. -/
theorem avxIntegerResults : Obligations.AvxIntegerResults := by
  refine ⟨?two, ?twoImm, ?one, ?oneImm, ?approx, ?approxScalar, ?extend, ?shift, ?byteShift, ?whole, ?byMask, ?perElement,
    ?permD, ?permQ, ⟨?permilMask, ?permilImm⟩, ?test⟩
  case two =>
    repeat refine List.forall_mem_cons.2 ⟨fun _ _ _ _ h hb => run_of_passes (vvxRun_passes h hb), ?_⟩
    exact List.forall_mem_nil _
  case twoImm =>
    repeat refine List.forall_mem_cons.2 ⟨fun _ _ _ _ h hb => run_of_passes (vvxiRun_passes h hb), ?_⟩
    exact List.forall_mem_nil _
  case one =>
    repeat refine List.forall_mem_cons.2 ⟨fun _ _ _ _ h hb => run_of_passes (vxRun_passes h hb), ?_⟩
    exact List.forall_mem_nil _
  case oneImm =>
    repeat refine List.forall_mem_cons.2 ⟨fun _ _ _ _ h hb => run_of_passes (vxiRun_passes h hb), ?_⟩
    exact List.forall_mem_nil _
  case approx =>
    repeat refine List.forall_mem_cons.2 ⟨fun _ _ _ _ h hb => run_of_passes (vxRun_passes h hb), ?_⟩
    exact List.forall_mem_nil _
  case approxScalar =>
    repeat refine List.forall_mem_cons.2 ⟨fun _ _ _ _ h hb => run_of_passes (vApproxScalar_passes h hb), ?_⟩
    exact List.forall_mem_nil _
  case extend =>
    repeat refine List.forall_mem_cons.2 ⟨fun _ _ _ _ h hb => run_of_passes (vnRun_passes h hb), ?_⟩
    exact List.forall_mem_nil _
  case shift =>
    repeat refine List.forall_mem_cons.2 ⟨⟨fun _ _ _ _ _ _ _ h hc => run_of_passes (vpackedShift_vec_passes h hc),
      fun _ _ _ _ _ h => run_of_passes (passes_bind (passes_needVex h) rfl)⟩, ?_⟩
    exact List.forall_mem_nil _
  case byteShift =>
    repeat refine List.forall_mem_cons.2 ⟨fun _ _ h => run_of_passes (passes_bind (passes_needVex h) rfl), ?_⟩
    exact List.forall_mem_nil _
  case whole =>
    repeat refine List.forall_mem_cons.2 ⟨fun _ _ _ _ h hb =>
      run_of_passes (passes_bind (passes_needVex h) (passes_bind hb rfl)), ?_⟩
    exact List.forall_mem_nil _
  case byMask =>
    repeat refine List.forall_mem_cons.2 ⟨fun _ _ _ _ h hb =>
      run_of_passes (passes_bind (passes_needVex h) (passes_bind hb rfl)), ?_⟩
    exact List.forall_mem_nil _
  case perElement =>
    repeat refine List.forall_mem_cons.2 ⟨fun _ _ _ _ h hb =>
      run_of_passes (passes_bind (passes_needVex h) (passes_bind hb rfl)), ?_⟩
    exact List.forall_mem_nil _
  case permD =>
    repeat refine List.forall_mem_cons.2 ⟨fun _ _ _ _ h hb =>
      run_of_passes (passes_bind (passes_needVex h) (passes_bind hb rfl)), ?_⟩
    exact List.forall_mem_nil _
  case permQ =>
    repeat refine List.forall_mem_cons.2 ⟨fun _ _ _ _ h hb =>
      run_of_passes (passes_bind (passes_needVex h) (passes_bind hb rfl)), ?_⟩
    exact List.forall_mem_nil _
  case permilMask =>
    exact fun _ _ _ _ h hb => ⟨run_of_passes (passes_bind (passes_needVex h) (passes_bind hb rfl)),
      run_of_passes (passes_bind (passes_needVex h) (passes_bind hb rfl))⟩
  case permilImm =>
    exact fun _ _ _ _ h hb => ⟨run_of_passes (passes_bind (passes_needVex h) (passes_bind hb rfl)),
      run_of_passes (passes_bind (passes_needVex h) (passes_bind hb rfl))⟩
  case test =>
    intro _ _ _ _ h hb
    refine ⟨run_of_passes (passes_bind (passes_needVex h) (passes_bind hb rfl)), ?_⟩
    repeat refine List.forall_mem_cons.2 ⟨run_of_passes (passes_bind (passes_needVex h) (passes_bind hb rfl)), ?_⟩
    exact List.forall_mem_nil _

end Sys2Proof.Machine
end

section
/-! The VEX-encoded floating-point instructions with every exception masked, and the string comparisons. -/

namespace Sys2Proof.Machine

variable {s u : State}

/-- VDPPD and VDPPS; in the steps of a dot product MXCSR and the count of free values drawn are not fixed beforehand. -/
theorem vDot_completes {i : Instr} {f : FpFmt} {o : VVXI} {b : BitVec o.l.bits} (hi : exec i s = run (vDot f o) s)
    (h : VexReady [.avx] s) (hm : SimdMasked s) (hb : Passes (readVx o.l o.b) s.begin b u) :
    ∃ (v : BitVec o.l.bits) (x : BitVec 32) (n : Nat),
      Passes (dotProduct f o.imm (u.vec o.l o.a) b) u v { u with mxcsr := x, free := n } ∧
      Completes i s ({ u with mxcsr := x, free := n }.setVec o.dst v) := by
  obtain ⟨v, x, n, hd, hp⟩ := vDot_passes (s := s.begin) h hm hb
  exact ⟨v, x, n, hd, hi.trans (run_of_passes hp)⟩

/-- Settles O7. -/
theorem avxFloatResults : Obligations.AvxFloatResults := by
  refine ⟨?two, ?sqrt, ?scalar, ?round, ?roundScalar, ?cmp, ?cmpScalar, ?dot, ?convert, ?toGp, ?ofGp, ?flags, ?ofHalf, ?toHalf⟩
  case two =>
    repeat refine List.forall_mem_cons.2 ⟨fun _ _ _ _ h hm hb => run_of_passes (vvxFp_passes h hm hb), ?_⟩
    exact List.forall_mem_nil _
  case sqrt =>
    repeat refine List.forall_mem_cons.2 ⟨fun _ _ _ _ h hm hb => run_of_passes (vFp1_passes h hm hb), ?_⟩
    exact List.forall_mem_nil _
  case scalar =>
    repeat refine List.forall_mem_cons.2 ⟨fun _ _ _ _ h hm hb => run_of_passes (vvxScalar_passes h hm hb), ?_⟩
    exact List.forall_mem_nil _
  case round =>
    repeat refine List.forall_mem_cons.2 ⟨fun o _ _ _ h hm hb =>
      run_of_passes (vFp1_passes (o := { l := o.l, dst := o.dst, src := o.src }) h hm hb), ?_⟩
    exact List.forall_mem_nil _
  case roundScalar =>
    repeat refine List.forall_mem_cons.2 ⟨fun o _ _ _ h hm hb =>
      run_of_passes (vvxScalar_passes (o := { l := o.l, dst := o.dst, a := o.a, b := o.b }) h hm hb), ?_⟩
    exact List.forall_mem_nil _
  case cmp =>
    repeat refine List.forall_mem_cons.2 ⟨fun _ _ _ _ hi h hm hb => run_of_passes (vcmpPacked_passes hi h hm hb), ?_⟩
    exact List.forall_mem_nil _
  case cmpScalar =>
    repeat refine List.forall_mem_cons.2 ⟨fun _ _ _ _ hi h hm hb => run_of_passes (vcmpScalar_passes hi h hm hb), ?_⟩
    exact List.forall_mem_nil _
  case dot =>
    repeat refine List.forall_mem_cons.2 ⟨fun _ _ _ _ h hm hb => vDot_completes rfl h hm hb, ?_⟩
    exact List.forall_mem_nil _
  case convert =>
    repeat refine List.forall_mem_cons.2 ⟨fun _ _ _ _ h hm hb => run_of_passes (vCvt_passes h hm hb), ?_⟩
    exact List.forall_mem_nil _
  case toGp =>
    repeat refine List.forall_mem_cons.2 ⟨fun _ _ _ _ h hm hb => run_of_passes (gxCvt_passes (passes_needVex h) hm hb), ?_⟩
    exact List.forall_mem_nil _
  case ofGp =>
    repeat refine List.forall_mem_cons.2 ⟨fun _ _ _ _ h hm hb => run_of_passes (vxgCvt_passes h hm hb), ?_⟩
    exact List.forall_mem_nil _
  case flags =>
    repeat refine List.forall_mem_cons.2 ⟨fun _ _ _ _ h hm hb => run_of_passes (vcomi_passes h hm hb), ?_⟩
    exact List.forall_mem_nil _
  case ofHalf =>
    exact fun _ s _ _ h hm hb => run_of_passes (passes_bind (passes_needVex h) (passes_bind hb (passes_bind rfl
      (passes_bind (passes_commit (SimdMasked.access (s := s.begin) hm (readXm_accessOnly hb)) _) rfl))))
  case toHalf =>
    intro l src imm s h hm
    refine ⟨fun dst => ?_, fun m u as hr => ?_⟩
    · exact run_of_passes (passes_bind (passes_needVex h) (passes_bind rfl (passes_bind rfl
        (passes_bind (passes_commit (s := s.begin) hm _) rfl))))
    · exact run_of_passes (passes_bind (passes_needVex h) (passes_bind rfl (passes_bind rfl (passes_bind hr (passes_bind rfl
        (passes_bind (passes_commit (SimdMasked.access (s := s.begin) hm (resolve_accessOnly hr)) _) rfl))))))

/-- Settles O8. -/
theorem fmaResults : Obligations.FmaResults := by
  refine ⟨?packed, ?scalar⟩
  case packed =>
    repeat refine List.forall_mem_cons.2 ⟨fun _ _ _ _ h hm hc => run_of_passes (fmaPacked_passes h hm hc), ?_⟩
    exact List.forall_mem_nil _
  case scalar =>
    repeat refine List.forall_mem_cons.2 ⟨fun _ _ _ _ h hm hc => run_of_passes (fmaScalar_passes h hm hc), ?_⟩
    exact List.forall_mem_nil _

/-- Settles O10. -/
theorem stringCompareResults : Obligations.StringCompareResults := by
  refine ⟨?legacy, ?legacyMask, ?vex, fun _ _ _ => rfl⟩
  case legacy =>
    rintro o s u b e r h hb rfl rfl
    have hops := strOperands_passes (dst := o.dst) hb
    exact ⟨run_of_passes (passes_bind (passes_needSse h) (passes_bind hops (passes_bind rfl (passes_bind rfl
        (strToIndex_passes _ _ _ _))))),
      run_of_passes (passes_bind (passes_needSse h) (passes_bind hops (passes_bind rfl (passes_bind rfl
        (strToMask_passes _ _ _))))),
      run_of_passes (passes_bind (passes_needSse h) (passes_bind hops (strToIndex_passes _ _ _ _)))⟩
  case legacyMask =>
    rintro o s u b r h hb rfl
    exact run_of_passes (passes_bind (passes_needSse h) (passes_bind (strOperands_passes hb) (strToMask_passes _ _ _)))
  case vex =>
    rintro o s u b e r h hb rfl rfl
    have hops := strOperands_passes (dst := o.dst) hb
    exact ⟨run_of_passes (passes_bind (passes_needVex h) (passes_bind hops (passes_bind rfl (passes_bind rfl
        (strToIndex_passes _ _ _ _))))),
      run_of_passes (passes_bind (passes_needVex h) (passes_bind hops (passes_bind rfl (passes_bind rfl
        (strToMask_vex_passes _ _ _))))),
      run_of_passes (passes_bind (passes_needVex h) (passes_bind hops (strToIndex_passes _ _ _ _))),
      run_of_passes (passes_bind (passes_needVex h) (passes_bind hops (strToMask_vex_passes _ _ _)))⟩

end Sys2Proof.Machine
end

section
/-! The VEX-encoded moves: once AVX is found enabled, each is its body. -/

namespace Sys2Proof.Machine

variable {s u : State}

/-- An instruction that only needs AVX to be enabled and then changes the state. -/
theorem vex_completes {i : Instr} {fs : List Config.Feature} {body : M Unit} {t : State} (hi : exec i s = run (do needVex fs; body) s)
    (h : VexReady fs s) (hb : Passes body s.begin () t) : Completes i s t :=
  hi.trans (run_of_passes (passes_bind (passes_needVex h) hb))

/-- Settles O9. -/
theorem avxMoveResults : Obligations.AvxMoveResults := by
  refine ⟨?full, ?quad, ?scalar, ?half, ?nontemporal, ?gp, ?broadcast, ?broadcast128, ?load, ?plain, ?signs, ?extract128,
    ?insert128, ?perm128, ?masked, ?gather, ?gatherFault, ⟨?gatherMask, ?gathered⟩, ?zero⟩
  case full =>
    repeat refine List.forall_mem_cons.2 ⟨fun _ _ h => ⟨fun _ _ _ _ hb => vex_completes rfl h (passes_bind hb rfl),
      fun _ _ => vex_completes rfl h rfl,
      fun _ _ _ _ hr => vex_completes rfl h (passes_bind rfl (storeVec_passes hr))⟩, ?_⟩
    exact List.forall_mem_nil _
  case quad =>
    exact fun _ _ h => ⟨fun _ _ _ _ hb => vex_completes rfl h (passes_bind hb rfl), fun _ _ => vex_completes rfl h rfl,
      fun _ _ _ _ hr => vex_completes rfl h (passes_bind rfl (storeVec_passes hr))⟩
  case scalar =>
    repeat refine List.forall_mem_cons.2 ⟨fun _ h => ⟨fun _ _ _ => vex_completes rfl h rfl,
      fun _ _ _ _ hb => vex_completes rfl h (passes_bind hb rfl),
      fun _ _ _ _ hr => vex_completes rfl h (passes_bind rfl (storeVec_passes hr))⟩, ?_⟩
    exact List.forall_mem_nil _
  case half =>
    repeat refine List.forall_mem_cons.2 ⟨fun _ h => ⟨fun _ _ _ _ _ hb => vex_completes rfl h (passes_bind hb rfl),
      fun _ _ _ _ hr => vex_completes rfl h (passes_bind rfl (storeVec_passes hr))⟩, ?_⟩
    exact List.forall_mem_nil _
  case nontemporal =>
    repeat refine List.forall_mem_cons.2 ⟨fun _ _ _ _ h hr => run_of_passes (vntStore_passes h hr), ?_⟩
    exact List.forall_mem_nil _
  case gp =>
    repeat refine List.forall_mem_cons.2 ⟨fun _ h => ⟨fun _ _ _ _ hv => vex_completes rfl h (passes_bind hv rfl),
      fun _ _ _ _ hp => vex_completes rfl h (passes_bind rfl (writeRm_passes hp))⟩, ?_⟩
    exact List.forall_mem_nil _
  case broadcast =>
    repeat refine List.forall_mem_cons.2 ⟨fun _ _ _ _ h hv => vex_completes rfl h (passes_bind hv rfl), ?_⟩
    exact List.forall_mem_nil _
  case broadcast128 =>
    repeat refine List.forall_mem_cons.2 ⟨fun _ _ _ _ h hv => vex_completes rfl h (passes_bind hv rfl), ?_⟩
    exact List.forall_mem_nil _
  case load =>
    exact fun _ _ _ _ => ⟨fun h hv => vex_completes rfl h (passes_bind hv rfl),
      fun h hv => vex_completes rfl h (passes_bind hv rfl)⟩
  case plain =>
    refine fun _ h => ⟨fun _ _ _ _ hv => vex_completes rfl h (passes_bind hv rfl),
      fun _ _ _ _ hv => vex_completes rfl h (passes_bind hv rfl),
      fun _ => ⟨vex_completes rfl h rfl, vex_completes rfl h rfl⟩,
      fun _ _ _ hx => vex_completes rfl h (passes_bind hx rfl), ?_⟩
    repeat refine List.forall_mem_cons.2 ⟨fun _ _ _ hv => run_of_passes (vinsertRun_passes h hv), ?_⟩
    exact List.forall_mem_nil _
  case signs =>
    repeat refine List.forall_mem_cons.2 ⟨fun _ _ h => vex_completes rfl h rfl, ?_⟩
    exact List.forall_mem_nil _
  case extract128 =>
    repeat refine List.forall_mem_cons.2 ⟨fun _ _ _ _ h => ⟨fun _ => vex_completes rfl h rfl,
      fun _ _ _ hr => vex_completes rfl h (passes_bind rfl (storeVec_passes hr))⟩, ?_⟩
    exact List.forall_mem_nil _
  case insert128 =>
    repeat refine List.forall_mem_cons.2 ⟨fun _ _ _ _ h hv => vex_completes rfl h (passes_bind hv rfl), ?_⟩
    exact List.forall_mem_nil _
  case perm128 =>
    repeat refine List.forall_mem_cons.2 ⟨fun _ _ _ _ h hb => vex_completes rfl h (passes_bind hb rfl), ?_⟩
    exact List.forall_mem_nil _
  case masked =>
    repeat refine List.forall_mem_cons.2 ⟨fun _ h => ⟨
      fun _ _ _ _ _ _ hp => vex_completes rfl h (passes_bind rfl (passes_bind hp rfl)),
      fun _ _ _ _ _ _ hp => vex_completes rfl h (passes_bind rfl (passes_bind hp (passes_bind rfl
        (storeParts_passes _ _))))⟩, ?_⟩
    exact List.forall_mem_nil _
  case gather =>
    repeat refine List.forall_mem_cons.2 ⟨fun _ _ _ hd h hl => run_of_passes (gatherRun_passes hd h hl), ?_⟩
    exact List.forall_mem_nil _
  case gatherFault =>
    repeat refine List.forall_mem_cons.2 ⟨fun o _ _ _ _ _ hd h hl hf hm ha he =>
      gatherRun_raises hd h hl hf (gather_fits o.l) hm he ha, ?_⟩
    exact List.forall_mem_nil _
  case gatherMask => exact gatherMask_lane
  case gathered => exact fun _ _ _ _ _ _ hn hg => gathered_range hn hg
  case zero => exact fun _ h => ⟨vex_completes rfl h rfl, vex_completes rfl h rfl⟩

end Sys2Proof.Machine
end

section
/-! The x87 instructions. After its entry an instruction without a memory operand is a body that always passes, because a
numeric exception is only recorded; what is said of the body is said of the instruction. -/

namespace Sys2Proof.Machine

variable {i : Instr} {body : M Unit} {s u : State}

/-- What a meaning that passes leaves, the instruction leaves. -/
theorem completes_of_passes {P : State → Prop} (hi : exec i s = run body s) (h : ∃ t, Passes body s.begin () t ∧ P t) :
    ∃ t, Completes i s t ∧ P t := by
  obtain ⟨t, hp, ht⟩ := h
  exact ⟨t, hi.trans (run_of_passes hp), ht⟩

/-- An instruction that enters and then changes the x87 unit only. -/
theorem entered_completes (h : FpuReady s) (hb : FpuStep body)
    (hi : exec i s = run (do enterFpu s.rip none; body) s) : ∃ t, Completes i s t ∧ FpuOnly s.begin t :=
  completes_of_passes hi (entered_passes (s := s.begin) h hb)

/-- An instruction that enters, reads its operand, and then changes the x87 unit only. -/
theorem readEntered_completes {β : Type} {m : MemRef} {rd : M β} {f : β → M Unit} {v : β} (h : FpuReady s)
    (hb : ∀ v, FpuStep (f v)) (hi : exec i s = run (do enterFpu s.rip (some m); f (← rd)) s)
    (hv : Passes rd (s.begin.fpuEntered s.rip (some m)) v u) : ∃ t, Completes i s t ∧ FpuOnly u t := by
  obtain ⟨_, t, hp, ho⟩ := hb v u
  exact ⟨t, hi.trans (run_of_passes (passes_bind (passes_enterFpu (s := s.begin) h) (passes_bind hv hp))), ho⟩

theorem readInt_passes {m : MemRef} {n v : Nat} (hv : Passes (readFpu m n n) s v u) :
    Passes (readInt m n) s { v := ofInt80 (BitVec.ofNat (8 * n) v).toInt, den := false } u := passes_bind hv rfl

/-- What the body makes of the unit, the instruction makes of it. -/
theorem makesFpu_of_passes {k : Fpu → Fpu} {n : Nat} (h : FpuReady s)
    (hi : exec i s = run (do enterFpu s.rip none; body) s)
    (hb : Passes body (s.begin.fpuEntered s.rip none) ()
      ((s.begin.fpuEntered s.rip none).withFpu (k (s.begin.fpuEntered s.rip none).fpu) n)) : MakesFpu i s k :=
  ⟨n, hi.trans (run_of_passes (passes_bind (passes_enterFpu (s := s.begin) h) hb))⟩

/-- The same for an instruction that reads an operand first. -/
theorem leavesFpu_of_passes {β : Type} {m : MemRef} {rd : M β} {f : β → M Unit} {v : β} {c : Nat} {g : Fpu → Fpu}
    (h : FpuReady s) (hi : exec i s = run (do enterFpu s.rip (some m); f (← rd)) s)
    (hv : Passes rd (s.begin.fpuEntered s.rip (some m)) v u)
    (hb : Passes (f v) u () (u.withFpu (g u.fpu) c)) : LeavesFpu i s u g :=
  ⟨c, hi.trans (run_of_passes (passes_bind (passes_enterFpu (s := s.begin) h) (passes_bind hv hb)))⟩

/-! The bodies that the laws do not name. -/

theorem needTwo_step {b : M Unit} (h : FpuStep b) : FpuStep (needTwo b) :=
  needSt_step (modifyFpu_step _) (needFree_step (modifyFpu_step _) h)

theorem fxtract_step : FpuStep (do
    freeCodes
    needTwo do
      let (x, y, fl) := xExtract (← xEnv) (← freeValue 80) (← argSt 0)
      deliverTwo x y fl false) :=
  .bind freeCodes_step fun _ => needTwo_step (.bind xEnv_step fun _ => .bind (freeValue_step _) fun _ =>
    .bind (argSt_step _) fun _ => deliverTwo_step _ _ _ _)

theorem fscale_step : FpuStep (needStFree [0, 1] (underflowSt 0 0) do
    let e ← xEnv
    deliverSt (xScale e (← argSt 0) (← argSt 1)) 0 0) :=
  needStFree_step (underflowSt_step _ _) (.bind xEnv_step fun _ => .bind (argSt_step _) fun _ => .bind (argSt_step _)
    fun _ => deliverSt_step _ _ _)

theorem fbld_step (v : Nat) : FpuStep (do
    let x ← match bcdValue 9 v with
      | some k => pure (ofInt80 k ||| (if v / 2 ^ 79 % 2 = 1 then (1 : BitVec 80) <<< 79 else 0))
      | none => freeValue 80
    pushValue x 0) := by
  dsimp only
  split
  · exact .bind (.pure _) fun _ => pushValue_step _ _
  · exact .bind (freeValue_step _) fun _ => pushValue_step _ _

/-- Each form without a memory operand completes and changes the x87 unit only. -/
theorem x87_register_completes (j : Fin 8) (s : State) (h : FpuReady s) : ∀ i ∈ ([
        .fadd (.st0 j), .fadd (.sti j), .fsub (.st0 j), .fsub (.sti j), .fsubr (.st0 j), .fsubr (.sti j), .fmul (.st0 j),
        .fmul (.sti j), .fdiv (.st0 j), .fdiv (.sti j), .fdivr (.st0 j), .fdivr (.sti j), .faddp j, .fsubp j, .fsubrp j,
        .fmulp j, .fdivp j, .fdivrp j, .f2xm1, .frndint, .fsqrt, .fpatan, .fyl2x, .fyl2xp1, .fabs, .fchs, .fscale, .fprem,
        .fprem1, .fsin, .fcos, .fsincos, .fptan, .fxtract, .ftst, .fxam, .fxch j, .ffree j, .fincstp, .fdecstp, .fnop,
        .fldl2t, .fldl2e, .fldpi, .fldlg2, .fldln2, .fld1, .fldz, .fld (.st j), .fst (.st j), .fstp (.st j), .fcom (.st j),
        .fcomp (.st j), .fucom j, .fucomp j, .fcompp, .fucompp] : List Instr),
      ∃ t, Completes i s t ∧ FpuOnly s.begin t := by
  have regs {i} {op : XOp2} {a b : Fin 8} {n : Nat} (hi : exec i s = run (do enterFpu s.rip none; arithRegs op a b n) s) :=
    entered_completes h (arithRegs_step op a b n) hi
  have two (x y : XEnv → XArg → BitVec 80) (fl : XEnv → XArg → FpFlags) (up : XEnv → XArg → Bool) :
      ∃ t, Passes (trig s.rip (pure false) faultTwo fun a => needFree faultTwo do
        let e ← xEnv
        deliverTwo (x e a) (y e a) (fl e a) (up e a)) s.begin () t ∧ FpuOnly s.begin t :=
    trig_passes h (.pure _) (modifyFpu_step _) fun _ => needFree_step (modifyFpu_step _)
      (.bind xEnv_step fun _ => deliverTwo_step _ _ _ _)
  have unary {i} {env : M XEnv} {f : XEnv → XArg → XOut} (hi : exec i s = run (fpUnary env f s.rip) s) (he : FpuStep env) :=
    completes_of_passes hi (fpUnary_passes (s := s.begin) h he)
  have pops {i} {f : XOp2} (hi : exec i s = run (fpBinaryPop f s.rip) s) :=
    completes_of_passes hi (fpBinaryPop_passes (s := s.begin) h)
  have signs {i} {g : BitVec 80 → BitVec 80} (hi : exec i s = run (fpSign g s.rip) s) :=
    completes_of_passes hi (fpSign_passes (s := s.begin) h)
  have rems {i} {near : Bool} (hi : exec i s = run (partialRem near s.rip) s) :=
    completes_of_passes hi (partialRem_passes (s := s.begin) h)
  have trigs {i} {out : M Bool} {f : XEnv → XArg → XOut} (hi : exec i s = run (trigOne s.rip out f) s) (ho : FpuStep out) :=
    completes_of_passes hi (trigOne_passes (s := s.begin) h ho)
  have exchange : FpuStep _ := fun t =>
    have ⟨v, n, p⟩ := passes_exchange j t
    ⟨(), _, p, _, n, rfl⟩
  have setTop {g : Fpu → Fpu} : FpuStep (do freeCodes; modifyFpu g) := .bind freeCodes_step fun _ => modifyFpu_step _
  have consts {i} {e c n : Nat} (hi : exec i s = run (pushConst s.rip e c n) s) :=
    completes_of_passes hi (pushConst_passes (s := s.begin) h)
  have copies {i} {n : Nat} (hi : exec i s = run (copySt s.rip j n) s) :=
    completes_of_passes hi (copySt_passes (s := s.begin) h)
  have compares {i} {q : Bool} {k : Fin 8} {n : Nat} (hi : exec i s = run (compareSt q s.rip k n) s) :=
    completes_of_passes hi (compareSt_passes (s := s.begin) h)
  exact List.forall_iff_forall_mem.1 ⟨regs rfl, regs rfl, regs rfl, regs rfl, regs rfl, regs rfl, regs rfl, regs rfl,
    regs rfl, regs rfl, regs rfl, regs rfl, regs rfl, regs rfl, regs rfl, regs rfl, regs rfl, regs rfl,
    unary rfl xEnv_step, unary rfl xEnv_step, unary rfl xEnvPc_step, pops rfl, pops rfl, pops rfl, signs rfl, signs rfl,
    entered_completes h fscale_step rfl, rems rfl, rems rfl, trigs rfl (.pure _), trigs rfl freeBit_step,
    completes_of_passes rfl (two (fun e a => (xSin .fsincosSin 48 e a).val) (fun e a => (xCos .fsincosCos 48 e a).val)
      (fun e a => (xSin .fsincosSin 48 e a).flags ||| (xCos .fsincosCos 48 e a).flags)
      (fun e a => (xCos .fsincosCos 48 e a).up)),
    completes_of_passes rfl (two (fun e a => (xTan e a).val) (fun _ _ => one80) (fun e a => (xTan e a).flags)
      (fun e a => (xTan e a).up)),
    entered_completes h fxtract_step rfl, entered_completes h (compareMem_step _ _) rfl,
    entered_completes h (modifyFpu_step _) rfl, entered_completes h exchange rfl,
    entered_completes h (.bind freeAllCodes_step fun _ => modifyFpu_step _) rfl,
    entered_completes h setTop rfl, entered_completes h setTop rfl, entered_completes h freeAllCodes_step rfl,
    consts rfl, consts rfl, consts rfl, consts rfl, consts rfl, entered_completes h (pushValue_step _ _) rfl,
    entered_completes h (pushValue_step _ _) rfl, entered_completes h (loadSt_step j) rfl, copies rfl, copies rfl,
    compares rfl, compares rfl, compares rfl, compares rfl, compares rfl, compares rfl⟩

/-- Each form with an operand read from memory completes and changes the x87 unit only. -/
theorem x87_memory_completes (m : MemRef) (s : State) (h : FpuReady s) : ∀ i ∈ ([
        (.fadd (.m32 m), 4, 4), (.fadd (.m64 m), 8, 8), (.fsub (.m32 m), 4, 4), (.fsub (.m64 m), 8, 8),
        (.fsubr (.m32 m), 4, 4), (.fsubr (.m64 m), 8, 8), (.fmul (.m32 m), 4, 4), (.fmul (.m64 m), 8, 8),
        (.fdiv (.m32 m), 4, 4), (.fdiv (.m64 m), 8, 8), (.fdivr (.m32 m), 4, 4), (.fdivr (.m64 m), 8, 8),
        (.fiadd (.m16 m), 2, 2), (.fiadd (.m32 m), 4, 4), (.fisub (.m16 m), 2, 2), (.fisub (.m32 m), 4, 4),
        (.fisubr (.m16 m), 2, 2), (.fisubr (.m32 m), 4, 4), (.fimul (.m16 m), 2, 2), (.fimul (.m32 m), 4, 4),
        (.fidiv (.m16 m), 2, 2), (.fidiv (.m32 m), 4, 4), (.fidivr (.m16 m), 2, 2), (.fidivr (.m32 m), 4, 4),
        (.fcom (.m32 m), 4, 4), (.fcom (.m64 m), 8, 8), (.fcomp (.m32 m), 4, 4), (.fcomp (.m64 m), 8, 8),
        (.ficom (.m16 m), 2, 2), (.ficom (.m32 m), 4, 4), (.ficomp (.m16 m), 2, 2), (.ficomp (.m32 m), 4, 4),
        (.fld (.m32 m), 4, 4), (.fld (.m64 m), 8, 8), (.fld (.m80 m), 10, 8), (.fild (.m16 m), 2, 2), (.fild (.m32 m), 4, 4),
        (.fild (.m64 m), 8, 8), (.fbld m, 10, 8)] :
        List (Instr × Nat × Nat)),
      ∀ (u : State) (v : Nat), Passes (readFpu m i.2.1 i.2.2) (s.begin.fpuEntered s.rip (some m)) v u →
        ∃ t, Completes i.1 s t ∧ FpuOnly u t := by
  have arith {i} {n : Nat} {op : XOp2} {x : Nat → XArg} (hi : exec i s = run (do
        enterFpu s.rip (some m)
        let v ← readFpu m n n
        needStFree [0] (underflowSt 0 0) (arithSt op 0 (x v) 0)) s) (u v) (hv : Passes (readFpu m n n) _ v u) :=
    readEntered_completes h (fun _ => arithMem_step op _) hi hv
  have arithInt {i} {n : Nat} {op : XOp2} (hi : exec i s = run (do
        enterFpu s.rip (some m)
        let v ← readInt m n
        needStFree [0] (underflowSt 0 0) (arithSt op 0 v 0)) s) (u v) (hv : Passes (readFpu m n n) _ v u) :=
    readEntered_completes h (fun _ => arithMem_step op _) hi (readInt_passes hv)
  have comp {i} {n p : Nat} {x : Nat → XArg} (hi : exec i s = run (do
        enterFpu s.rip (some m)
        let v ← readFpu m n n
        needSt [0] (underflowCompare p) (compareWith false (x v) p)) s) (u v) (hv : Passes (readFpu m n n) _ v u) :=
    readEntered_completes h (fun _ => compareMem_step _ _) hi hv
  have compInt {i} {n p : Nat} (hi : exec i s = run (do
        enterFpu s.rip (some m)
        let v ← readInt m n
        needSt [0] (underflowCompare p) (compareWith false v p)) s) (u v) (hv : Passes (readFpu m n n) _ v u) :=
    readEntered_completes h (fun _ => compareMem_step _ _) hi (readInt_passes hv)
  have load {i} {n : Nat} {x : Nat → XArg} (hi : exec i s = run (do
        enterFpu s.rip (some m)
        pushConverted (x (← readFpu m n n))) s) (u v) (hv : Passes (readFpu m n n) _ v u) :=
    readEntered_completes h (fun _ => pushConverted_step _) hi hv
  have loadInt {i} {n : Nat} (hi : exec i s = run (do
        enterFpu s.rip (some m)
        pushValue (← readInt m n).v 0) s) (u v) (hv : Passes (readFpu m n n) _ v u) :=
    readEntered_completes h (fun _ => pushValue_step _ _) hi (readInt_passes hv)
  exact List.forall_iff_forall_mem.1 ⟨arith rfl, arith rfl, arith rfl, arith rfl, arith rfl, arith rfl, arith rfl, arith rfl,
    arith rfl, arith rfl, arith rfl, arith rfl, arithInt rfl, arithInt rfl, arithInt rfl, arithInt rfl, arithInt rfl,
    arithInt rfl, arithInt rfl, arithInt rfl, arithInt rfl, arithInt rfl, arithInt rfl, arithInt rfl, comp rfl, comp rfl,
    comp rfl, comp rfl, compInt rfl, compInt rfl, compInt rfl, compInt rfl, load rfl, load rfl,
    fun _ _ hv => readEntered_completes h (fun _ => pushValue_step _ _) rfl hv, loadInt rfl, loadInt rfl, loadInt rfl,
    fun _ _ hv => readEntered_completes h fbld_step rfl hv⟩

/-- Each form that stores completes and changes the x87 unit and the bytes stored only. -/
theorem x87_store_completes (m : MemRef) (s : State) (h : FpuReady s) : ∀ i ∈ ([
        (.fst (.m32 m), 4, 4), (.fst (.m64 m), 8, 8), (.fstp (.m32 m), 4, 4), (.fstp (.m64 m), 8, 8), (.fstp (.m80 m), 10, 8),
        (.fist (.m16 m), 2, 2), (.fist (.m32 m), 4, 4), (.fistp (.m16 m), 2, 2), (.fistp (.m32 m), 4, 4),
        (.fistp (.m64 m), 8, 8), (.fbstp m, 10, 8)] :
        List (Instr × Nat × Nat)),
      ∀ (u : State) (as : List Nat), Passes (placeFpu m i.2.1 i.2.2) (s.begin.fpuEntered s.rip (some m)) as u →
        ∃ t, Completes i.1 s t ∧ StoredOnly u as t := by
  have store {i} {n nat indef pops : Nat} {f : XEnv → BitVec 80 → XStore}
      (hi : exec i s = run (storeSt s.rip m n nat indef pops f) s) (u : State) (as : List Nat)
      (hp : Passes (placeFpu m n nat) (s.begin.fpuEntered s.rip (some m)) as u) : ∃ t, Completes i s t ∧ StoredOnly u as t :=
    completes_of_passes hi (storeSt_passes (s := s.begin) h hp)
  exact List.forall_iff_forall_mem.1 ⟨store rfl, store rfl, store rfl, store rfl, store rfl, store rfl, store rfl, store rfl,
    store rfl, store rfl, store rfl⟩

theorem fisttp_completes (m : MemRef) (s : State) (h : FpuReady s) (h3 : s.has .sse3 = true) :
    ∀ i ∈ ([(.fisttp (.m16 m), 2), (.fisttp (.m32 m), 4), (.fisttp (.m64 m), 8)] : List (Instr × Nat)),
      ∀ (u : State) (as : List Nat), Passes (placeFpu m i.2 i.2) (s.begin.fpuEntered s.rip (some m)) as u →
        ∃ t, Completes i.1 s t ∧ StoredOnly u as t := by
  have store {i} {n : Nat} (hi : exec i s = run (do needFeature .sse3; storeChop s.rip m n) s) (u : State) (as : List Nat)
      (hp : Passes (placeFpu m n n) (s.begin.fpuEntered s.rip (some m)) as u) : ∃ t, Completes i s t ∧ StoredOnly u as t := by
    obtain ⟨t, p, o⟩ := storeSt_passes (s := s.begin) h hp
    exact ⟨t, hi.trans (run_of_passes (passes_bind (passes_needFeature h3) p)), o⟩
  exact List.forall_iff_forall_mem.1 ⟨store rfl, store rfl, store rfl⟩

/-! What each form makes of the unit. -/

theorem arithRegs_makes {op : XOp2} {a b : Fin 8} {n : Nat} (h : FpuReady s)
    (hi : exec i s = run (do enterFpu s.rip none; arithRegs op a b n) s) :
    ∃ v e, s.fpu.HasEnv true e ∧ MakesFpu i s fun f => (f.withCodes v).binary op e a b n := by
  obtain ⟨v, e, k, he, p⟩ := passes_arithRegs op a b n (s.begin.fpuEntered s.rip none)
  exact ⟨v, e, he, makesFpu_of_passes h hi p⟩

theorem binary_makes {f : XOp2} {a b : Fin 8} {n : Nat} (h : FpuReady s) (hi : exec i s = run (do
      enterFpu s.rip none
      needStFree [a, b] (underflowSt a n) do
        let e ← xEnv
        deliverSt (f e (← argSt a) (← argSt b)) a n) s) :
    ∃ v e, s.fpu.HasEnv false e ∧ MakesFpu i s fun g => (g.withCodes v).binary f e a b n := by
  obtain ⟨v, e, k, he, p⟩ := passes_binary f a b n (s.begin.fpuEntered s.rip none)
  exact ⟨v, e, he, makesFpu_of_passes h hi p⟩

theorem unary_makes {env : M XEnv} {pc : Bool} {f : XEnv → XArg → XOut} (h : FpuReady s)
    (hi : exec i s = run (fpUnary env f s.rip) s)
    (he : ∀ u : State, ∃ e, u.fpu.HasEnv pc e ∧ Passes env u e (u.withFpu u.fpu (u.free + 1))) :
    ∃ v e, s.fpu.HasEnv pc e ∧ MakesFpu i s fun g => (g.withCodes v).unary (f e) := by
  obtain ⟨v, e, k, he, p⟩ := passes_unary f he (s.begin.fpuEntered s.rip none)
  exact ⟨v, e, he, makesFpu_of_passes h hi p⟩

theorem held_makes {is : List (Fin 8)} {masked body : M Unit} {mk bd : Fpu → Fpu} (h : FpuReady s)
    (hi : exec i s = run (do enterFpu s.rip none; needStFree is masked body) s)
    (hm : ∀ u, Passes masked u () (u.withFpu (mk u.fpu) u.free)) (hb : ∀ u, Passes body u () (u.withFpu (bd u.fpu) u.free)) :
    ∃ v, MakesFpu i s fun f => (f.withCodes v).whenHeld is mk bd := by
  obtain ⟨v, n, p⟩ := passes_needStPlain is hm hb (s.begin.fpuEntered s.rip none)
  exact ⟨v, makesFpu_of_passes h hi p⟩

theorem push_makes {x : BitVec 80} (h : FpuReady s) (hi : exec i s = run (do enterFpu s.rip none; pushValue x 0) s) :
    ∃ v, MakesFpu i s fun f => (f.withCodes v).pushed x 0 := by
  obtain ⟨v, n, p⟩ := passes_pushValue x 0 (s.begin.fpuEntered s.rip none)
  exact ⟨v, makesFpu_of_passes h hi p⟩

theorem pushConst_makes {e c n : Nat} (h : FpuReady s) (hi : exec i s = run (pushConst s.rip e c n) s) :
    ∃ v, MakesFpu i s fun f => (f.withCodes v).pushed (make80 false e
      (if s.fpu.fcw.extractLsb' 10 2 = 0 then n else if s.fpu.fcw.extractLsb' 10 2 = 2 then c + 1 else c)) 0 := by
  obtain ⟨v, k, p⟩ := passes_pushValue (make80 false e
    (if s.fpu.fcw.extractLsb' 10 2 = 0 then n else if s.fpu.fcw.extractLsb' 10 2 = 2 then c + 1 else c)) 0
    (s.begin.fpuEntered s.rip none)
  exact ⟨v, makesFpu_of_passes h hi (passes_bind rfl p)⟩

theorem compareSt_makes {q : Bool} {a : Fin 8} {n : Nat} (h : FpuReady s)
    (hi : exec i s = run (compareSt q s.rip a n) s) :
    MakesFpu i s fun f => f.whenHeld [0, a] (·.unordered n) fun g => g.compared q (xreg (g.st a)) n := by
  obtain ⟨k, p⟩ := passes_compareNeed [0, a] q (fun f => xreg (f.st a)) (fun u => passes_argSt a u) n
    (s.begin.fpuEntered s.rip none)
  exact makesFpu_of_passes h hi p

theorem condMove_makes {c : Cond} {j : Fin 8} (h : FpuReady s) (hc : s.has .cmov = true)
    (hi : exec i s = run (condMove c s.rip j) s) :
    ∃ v, MakesFpu i s fun f => (f.withCodes v).whenHeld [j] (·.setSt 0 indefinite80)
      fun g => if s.flags.holds c then g.setStTag 0 (g.st j) (g.tagAt (g.phys j)) else g := by
  have same : s.begin.flags.holds c = s.flags.holds c := by cases c <;> rfl
  let t := (s.begin.fpuEntered s.rip none).withFpu ((s.begin.fpuEntered s.rip none).fpu.withCodes (Config.freeBits 3 s.free))
    (s.free + 1)
  have move : Passes (do if (← get).flags.holds c then modifyFpu fun f => f.setStTag 0 (f.st j) (f.tagAt (f.phys j))) t ()
      (t.withFpu (if s.flags.holds c then t.fpu.setStTag 0 (t.fpu.st j) (t.fpu.tagAt (t.fpu.phys j)) else t.fpu) t.free) := by
    refine passes_bind (passes_get t) ?_
    rw [show t.flags.holds c = _ from same]
    cases s.flags.holds c <;> rfl
  obtain ⟨n, p⟩ := passes_needSt (is := [j]) (masked := underflowSt 0 0) (mk := (·.setSt 0 indefinite80))
    (bd := fun g => if s.flags.holds c then g.setStTag 0 (g.st j) (g.tagAt (g.phys j)) else g) (fun _ => rfl) move
  exact ⟨_, n, hi.trans (run_of_passes (passes_bind (passes_needFeature hc) (passes_bind (passes_enterFpu (s := s.begin) h)
    (passes_bind (passes_freeCodes _) p))))⟩

theorem trigOne_makes {out : M Bool} {C : Bool → Prop} {f : XEnv → XArg → XOut} (h : FpuReady s)
    (hi : exec i s = run (trigOne s.rip out f) s) (ho : ∀ u : State, ∃ c n, C c ∧ Passes out u c (u.withFpu u.fpu n)) :
    ∃ v c e, C c ∧ s.fpu.HasEnv false e ∧ MakesFpu i s fun g => (g.withCodes v).trig c (·.setSt 0 indefinite80)
      fun g => g.deliverTo (f e (xreg (g.st 0))) 0 0 := by
  obtain ⟨v, c, e, n, hc, he, p⟩ := passes_trigOne f ho s.begin s.rip h
  exact ⟨v, c, e, hc, he, n, hi.trans (run_of_passes p)⟩

/-- FPTAN and FSINCOS. -/
theorem trigTwo_makes (x y : XEnv → XArg → BitVec 80) (fl : XEnv → XArg → FpFlags) (up : XEnv → XArg → Bool) (h : FpuReady s)
    (hi : exec i s = run (trig s.rip (pure false) faultTwo fun a => needFree faultTwo do
        let e ← xEnv
        deliverTwo (x e a) (y e a) (fl e a) (up e a)) s) :
    ∃ v e, s.fpu.HasEnv false e ∧ MakesFpu i s fun g => (g.withCodes v).trig false (·.twoIndefinite)
      fun g => g.deliverTwo (x e (xreg (g.st 0))) (y e (xreg (g.st 0))) (fl e (xreg (g.st 0))) (up e (xreg (g.st 0))) := by
  obtain ⟨v, c, e, n, hc, he, p⟩ := passes_trig (C := (· = false)) passes_faultTwo (fun u => ⟨false, _, rfl, passes_pure false u⟩)
    (bd := fun e a g => g.deliverTwo (x e a) (y e a) (fl e a) (up e a))
    (fun u a => passes_two (x · a) (y · a) (fl · a) (up · a) u) s.begin s.rip h
  subst hc
  exact ⟨v, e, he, n, hi.trans (run_of_passes p)⟩

theorem fxtract_makes (h : FpuReady s) : ∃ v y e, s.fpu.HasEnv false e ∧ MakesFpu .fxtract s fun f =>
    (f.withCodes v).whenHeld [0] (·.twoIndefinite) fun g => g.deliverTwo (xExtract e y (xreg (g.st 0))).1
      (xExtract e y (xreg (g.st 0))).2.1 (xExtract e y (xreg (g.st 0))).2.2 false := by
  let t := (s.begin.fpuEntered s.rip none).withFpu ((s.begin.fpuEntered s.rip none).fpu.withCodes (Config.freeBits 3 s.free))
    (s.free + 1)
  obtain ⟨e, he, pe⟩ := passes_xEnv t
  let y : BitVec 80 := Config.freeBits 80 (t.free + 1)
  obtain ⟨n, p⟩ := passes_needFree (s := t) (masked := faultTwo) (body := do
      let (x, y, fl) := xExtract (← xEnv) (← freeValue 80) (← argSt 0)
      deliverTwo x y fl false)
    (bd := fun g => g.deliver (xExtract e y (xreg (t.fpu.st 0))).2.2 false
      fun f => (f.setSt 0 (xExtract e y (xreg (t.fpu.st 0))).1).push (xExtract e y (xreg (t.fpu.st 0))).2.1) passes_faultTwo
    (passes_bind pe (passes_bind (passes_freeValue 80 _) (passes_bind (passes_argSt 0 _) (passes_deliver _ _ _ _))))
  obtain ⟨k, q⟩ := passes_needSt (is := [0]) (bd := fun g => g.deliverTwo (xExtract e y (xreg (g.st 0))).1
    (xExtract e y (xreg (g.st 0))).2.1 (xExtract e y (xreg (g.st 0))).2.2 false) passes_faultTwo p
  exact ⟨_, y, e, he, makesFpu_of_passes h rfl (passes_bind (passes_freeCodes _) q)⟩

theorem partialRem_makes {near : Bool} (h : FpuReady s) (hi : exec i s = run (partialRem near s.rip) s) :
    ∃ v c o e, s.fpu.HasEnv false e ∧ MakesFpu i s fun f => (f.withCodes v).whenHeld [0, 1] (·.setSt 0 indefinite80)
      fun g => g.remainder c o (xRem near e (xreg (g.st 0)) (xreg (g.st 1))) := by
  obtain ⟨v, c, o, e, n, he, p⟩ := passes_partialRem near s.begin s.rip h
  exact ⟨v, c, o, e, he, n, hi.trans (run_of_passes p)⟩

theorem arithMem_leaves {β : Type} {m : MemRef} {rd : M β} {x : β → XArg} {b : β} {op : XOp2} (h : FpuReady s)
    (hi : exec i s = run (do
      enterFpu s.rip (some m)
      let v ← rd
      needStFree [0] (underflowSt 0 0) (arithSt op 0 (x v) 0)) s)
    (hv : Passes rd (s.begin.fpuEntered s.rip (some m)) b u) :
    ∃ v e, u.fpu.HasEnv true e ∧ LeavesFpu i s u fun f => (f.withCodes v).unary (op e · (x b)) := by
  obtain ⟨v, e, k, he, p⟩ := passes_arithMem op (x b) u
  exact ⟨v, e, he, leavesFpu_of_passes h hi hv p⟩

theorem compareMem_leaves {β : Type} {m : MemRef} {rd : M β} {x : β → XArg} {b : β} {n : Nat} (h : FpuReady s)
    (hi : exec i s = run (do
      enterFpu s.rip (some m)
      let v ← rd
      needSt [0] (underflowCompare n) (compareWith false (x v) n)) s)
    (hv : Passes rd (s.begin.fpuEntered s.rip (some m)) b u) :
    LeavesFpu i s u fun f => f.whenHeld [0] (·.unordered n) fun g => g.compared false (x b) n := by
  obtain ⟨k, p⟩ := passes_needSt (is := [0]) (masked := underflowCompare n) (mk := (·.unordered n))
    (bd := fun g => g.compared false (x b) n) (fun _ => rfl) (passes_compareWith false (x b) n u)
  exact leavesFpu_of_passes h hi hv p

theorem push_leaves {β : Type} {m : MemRef} {rd : M β} {c : β → BitVec 80 × FpFlags} {b : β} (h : FpuReady s)
    (hi : exec i s = run (do
      enterFpu s.rip (some m)
      let v ← rd
      pushValue (c v).1 (c v).2) s)
    (hv : Passes rd (s.begin.fpuEntered s.rip (some m)) b u) :
    ∃ v, LeavesFpu i s u fun f => (f.withCodes v).pushed (c b).1 (c b).2 := by
  obtain ⟨v, n, p⟩ := passes_pushValue (c b).1 (c b).2 u
  exact ⟨v, leavesFpu_of_passes h hi hv p⟩

theorem fbld_leaves {m : MemRef} {w : Nat} (h : FpuReady s)
    (hv : Passes (readFpu m 10 8) (s.begin.fpuEntered s.rip (some m)) w u) :
    ∃ v y, (∀ k, bcdValue 9 w = some k → y = ofInt80 k ||| (if w / 2 ^ 79 % 2 = 1 then (1 : BitVec 80) <<< 79 else 0)) ∧
      LeavesFpu (.fbld m) s u fun f => (f.withCodes v).pushed y 0 := by
  have done {y : BitVec 80} {v : BitVec 3} {n : Nat} (hp : Passes (do
        let x ← match bcdValue 9 w with
          | some k => pure (ofInt80 k ||| (if w / 2 ^ 79 % 2 = 1 then (1 : BitVec 80) <<< 79 else 0))
          | none => freeValue 80
        pushValue x 0) u () (u.withFpu ((u.fpu.withCodes v).pushed y 0) n)) :
      LeavesFpu (.fbld m) s u fun f => (f.withCodes v).pushed y 0 :=
    leavesFpu_of_passes h rfl hv hp
  cases hb : bcdValue 9 w with
  | some k =>
    obtain ⟨v, n, p⟩ := passes_pushValue (ofInt80 k ||| (if w / 2 ^ 79 % 2 = 1 then (1 : BitVec 80) <<< 79 else 0)) 0 u
    exact ⟨v, _, fun _ hk => by cases hk; rfl, done (n := n) (by rw [hb]; exact passes_bind (passes_pure _ u) p)⟩
  | none =>
    obtain ⟨v, n, p⟩ := passes_pushValue (Config.freeBits 80 u.free) 0 (u.withFpu u.fpu (u.free + 1))
    exact ⟨v, _, fun _ hk => (nomatch hk), done (n := n) (by rw [hb]; exact passes_bind (passes_freeValue 80 u) p)⟩

theorem store_leaves {m : MemRef} {n nat indef pops : Nat} {f : XEnv → BitVec 80 → XStore} {as : List Nat} (h : FpuReady s)
    (hi : exec i s = run (storeSt s.rip m n nat indef pops f) s)
    (hp : Passes (placeFpu m n nat) (s.begin.fpuEntered s.rip (some m)) as u) :
    ∃ v e k, u.fpu.HasEnv false e ∧
      Completes i s (u.storedSt as indef pops (u.fpu.withCodes v) (f e (u.fpu.st 0)) k) := by
  obtain ⟨v, e, k, he, p⟩ := passes_storeSt (s := s.begin) h hp
  exact ⟨v, e, k, he, hi.trans (run_of_passes p)⟩

/-- Where an instruction changes the unit by a body that always passes and is given in full. -/
theorem modify_makes {g : Fpu → Fpu} (h : FpuReady s) (hi : exec i s = run (do enterFpu s.rip none; modifyFpu g) s) :
    MakesFpu i s g := makesFpu_of_passes h hi (passes_modifyFpu g _)

theorem codes_makes {g : Fpu → Fpu} (h : FpuReady s)
    (hi : exec i s = run (do enterFpu s.rip none; freeCodes; modifyFpu g) s) :
    ∃ v, MakesFpu i s fun f => g (f.withCodes v) :=
  ⟨_, makesFpu_of_passes h hi (passes_bind (passes_freeCodes _) (passes_modifyFpu g _))⟩

theorem allCodes_makes {g : Fpu → Fpu} (h : FpuReady s)
    (hi : exec i s = run (do enterFpu s.rip none; freeAllCodes; modifyFpu g) s) :
    ∃ v, MakesFpu i s fun f => g (f.withAllCodes v) :=
  ⟨_, makesFpu_of_passes h hi (passes_bind (passes_freeAllCodes _) (passes_modifyFpu g _))⟩

/-- What each form that stores leaves. -/
theorem x87_stores (m : MemRef) (s : State) (h : FpuReady s) : ∀ x ∈ ([
        (.fst (.m32 m), 4, 4, f32.indefinite, 0, toFmt80 f32), (.fst (.m64 m), 8, 8, f64.indefinite, 0, toFmt80 f64),
        (.fstp (.m32 m), 4, 4, f32.indefinite, 1, toFmt80 f32), (.fstp (.m64 m), 8, 8, f64.indefinite, 1, toFmt80 f64),
        (.fstp (.m80 m), 10, 8, indefinite80.toNat, 1, fun _ v => ⟨v.toNat, 0, false⟩),
        (.fist (.m16 m), 2, 2, 0x8000, 0, fun e => toInt80 16 e.rc),
        (.fist (.m32 m), 4, 4, 0x80000000, 0, fun e => toInt80 32 e.rc),
        (.fistp (.m16 m), 2, 2, 0x8000, 1, fun e => toInt80 16 e.rc),
        (.fistp (.m32 m), 4, 4, 0x80000000, 1, fun e => toInt80 32 e.rc),
        (.fistp (.m64 m), 8, 8, 0x8000000000000000, 1, fun e => toInt80 64 e.rc), (.fbstp m, 10, 8, bcdIndefinite, 1, toBcd80)] :
        List (Instr × Nat × Nat × Nat × Nat × (XEnv → BitVec 80 → XStore))),
      ∀ (u : State) (as : List Nat), Passes (placeFpu m x.2.1 x.2.2.1) (s.begin.fpuEntered s.rip (some m)) as u →
        ∃ v e n, u.fpu.HasEnv false e ∧
          Completes x.1 s (u.storedSt as x.2.2.2.1 x.2.2.2.2.1 (u.fpu.withCodes v) (x.2.2.2.2.2 e (u.fpu.st 0)) n) := by
  have store {i} {n nat indef pops : Nat} {f : XEnv → BitVec 80 → XStore}
      (hi : exec i s = run (storeSt s.rip m n nat indef pops f) s) (u : State) (as : List Nat)
      (hp : Passes (placeFpu m n nat) (s.begin.fpuEntered s.rip (some m)) as u) := store_leaves h hi hp
  exact List.forall_iff_forall_mem.1 ⟨store rfl, store rfl, store rfl, store rfl, store rfl, store rfl, store rfl, store rfl,
    store rfl, store rfl, store rfl⟩

theorem fisttp_stores (m : MemRef) (s : State) (h : FpuReady s) (h3 : s.has .sse3 = true) : ∀ x ∈ ([
        (.fisttp (.m16 m), 2, 2, 2 ^ 15, 1, fun _ v => { toInt80 16 3 v with up := false }),
        (.fisttp (.m32 m), 4, 4, 2 ^ 31, 1, fun _ v => { toInt80 32 3 v with up := false }),
        (.fisttp (.m64 m), 8, 8, 2 ^ 63, 1, fun _ v => { toInt80 64 3 v with up := false })] :
        List (Instr × Nat × Nat × Nat × Nat × (XEnv → BitVec 80 → XStore))),
      ∀ (u : State) (as : List Nat), Passes (placeFpu m x.2.1 x.2.2.1) (s.begin.fpuEntered s.rip (some m)) as u →
        ∃ v e n, u.fpu.HasEnv false e ∧
          Completes x.1 s (u.storedSt as x.2.2.2.1 x.2.2.2.2.1 (u.fpu.withCodes v) (x.2.2.2.2.2 e (u.fpu.st 0)) n) := by
  have chop {i} {n : Nat} (hi : exec i s = run (do needFeature .sse3; storeChop s.rip m n) s) (u : State) (as : List Nat)
      (hp : Passes (placeFpu m n n) (s.begin.fpuEntered s.rip (some m)) as u) : ∃ v e k, u.fpu.HasEnv false e ∧
        Completes i s (u.storedSt as (2 ^ (8 * n - 1)) 1 (u.fpu.withCodes v)
          { toInt80 (8 * n) 3 (u.fpu.st 0) with up := false } k) := by
    obtain ⟨v, e, k, he, p⟩ := passes_storeSt (s := s.begin) (f := fun _ v => { toInt80 (8 * n) 3 v with up := false })
      (indef := 2 ^ (8 * n - 1)) (pops := 1) h hp
    exact ⟨v, e, k, he, hi.trans (run_of_passes (passes_bind (passes_needFeature h3) p))⟩
  exact List.forall_iff_forall_mem.1 ⟨chop rfl, chop rfl, chop rfl⟩

/-- Settles O11. -/
theorem x87Forms : Obligations.X87Forms := by
  unfold Obligations.X87Forms
  refine ⟨x87_register_completes, ?moves, ?eflags, x87_memory_completes, x87_store_completes, fisttp_completes, ?arith,
    ?binary, ?unary, ?signs, ?consts, ?loadSt, ?copySt, ?compare, ?others, ?condMoves, ?compareFlags, ?trigs, ?rems,
    ?arithMem, ?compareMem, ?loads, fun _ _ _ _ h hv => fbld_leaves h hv, x87_stores, fisttp_stores⟩
  case moves =>
    intro j s h hc
    have move {i} {c : Cond} (hi : exec i s = run (condMove c s.rip j) s) :=
      completes_of_passes hi (condMove_passes (s := s.begin) h hc)
    exact List.forall_iff_forall_mem.1 ⟨move rfl, move rfl, move rfl, move rfl, move rfl, move rfl, move rfl, move rfl⟩
  case eflags =>
    intro j s hc h
    have compare {i} {q : Bool} {n : Nat} (hi : exec i s = run (compareEflags q s.rip j n) s) :=
      completes_of_passes hi (compareEflags_passes (s := s.begin) hc h)
    exact List.forall_iff_forall_mem.1 ⟨compare rfl, compare rfl, compare rfl, compare rfl⟩
  case arith =>
    intro j s h
    repeat refine List.forall_mem_cons.2 ⟨arithRegs_makes h rfl, ?_⟩
    exact List.forall_mem_nil _
  case binary =>
    intro s h
    repeat refine List.forall_mem_cons.2 ⟨binary_makes h rfl, ?_⟩
    exact List.forall_mem_nil _
  case unary =>
    exact fun s h => List.forall_iff_forall_mem.1
      ⟨unary_makes h rfl passes_xEnv, unary_makes h rfl passes_xEnv, unary_makes h rfl passes_xEnvPc⟩
  case signs => exact fun s h => ⟨held_makes h rfl (fun _ => rfl) fun _ => rfl, held_makes h rfl (fun _ => rfl) fun _ => rfl⟩
  case consts =>
    have exact1 {i} {e c : Nat} {s : State} (h : FpuReady s)
        (hi : exec i s = run (do enterFpu s.rip none; pushValue (make80 false e c) 0) s) : ∃ v, MakesFpu i s fun f =>
          (f.withCodes v).pushed (make80 false e
            (if s.fpu.fcw.extractLsb' 10 2 = 0 then c else if s.fpu.fcw.extractLsb' 10 2 = 2 then c else c)) 0 := by
      rw [ite_self, ite_self]
      exact push_makes h hi
    exact fun s h => List.forall_iff_forall_mem.1 ⟨exact1 h rfl, exact1 h rfl, pushConst_makes h rfl, pushConst_makes h rfl,
      pushConst_makes h rfl, pushConst_makes h rfl, pushConst_makes h rfl⟩
  case loadSt =>
    intro j s h
    obtain ⟨v, c, n, hc, p⟩ := passes_loadSt j (s.begin.fpuEntered s.rip none)
    exact ⟨v, c, hc, makesFpu_of_passes (k := fun f => if f.isEmpty j then (f.withCodes v).stackFault c (·.push indefinite80)
      else (f.withCodes v).pushed (f.st j) 0) h rfl p⟩
  case copySt =>
    exact fun j s h => List.forall_iff_forall_mem.1
      ⟨held_makes h rfl (fun _ => rfl) fun _ => rfl, held_makes h rfl (fun _ => rfl) fun _ => rfl⟩
  case compare =>
    intro j s h
    repeat refine List.forall_mem_cons.2 ⟨compareSt_makes h rfl, ?_⟩
    exact List.forall_mem_nil _
  case others =>
    intro j s h
    refine ⟨?ftst, modify_makes h rfl, ?fxch,
      allCodes_makes (g := fun f => { f with ftw := setTagAt f.ftw (f.phys j) 3 }) h rfl, ?fnop, 
      codes_makes (g := fun f => { f with fsw := { f.fsw with top := f.fsw.top + 1, c1 := false } }) h rfl,
      codes_makes (g := fun f => { f with fsw := { f.fsw with top := f.fsw.top - 1, c1 := false } }) h rfl⟩
    case ftst =>
      obtain ⟨n, p⟩ := passes_needSt (is := [0]) (masked := underflowCompare 0) (mk := (·.unordered 0))
        (bd := fun g => g.compared false (xreg 0) 0) (fun _ => rfl)
        (passes_compareWith false (xreg 0) 0 (s.begin.fpuEntered s.rip none))
      exact makesFpu_of_passes (k := fun f => f.whenHeld [0] (·.unordered 0) fun g => g.compared false (xreg 0) 0) h rfl p
    case fxch =>
      obtain ⟨v, n, p⟩ := passes_exchange j (s.begin.fpuEntered s.rip none)
      exact ⟨v, makesFpu_of_passes (k := fun f => (f.withCodes v).whenHeld [0, j] (·.exchange j)
        fun g => (g.withC1 false).exchange j) h rfl p⟩
    case fnop => exact ⟨_, makesFpu_of_passes (k := fun f => f.withAllCodes _) h rfl (passes_freeAllCodes _)⟩
  case condMoves =>
    intro j s h hc
    repeat refine List.forall_mem_cons.2 ⟨condMove_makes h hc rfl, ?_⟩
    exact List.forall_mem_nil _
  case compareFlags =>
    intro j s h hc
    repeat refine List.forall_mem_cons.2 ⟨run_of_passes (passes_compareEflags (s := s.begin) _ _ _ _ hc h), ?_⟩
    exact List.forall_mem_nil _
  case trigs =>
    intro s h
    refine ⟨?sin, ?cos, trigTwo_makes (fun e a => (xTan e a).val) (fun _ _ => one80) (fun e a => (xTan e a).flags)
      (fun e a => (xTan e a).up) h rfl, trigTwo_makes (fun e a => (xSin .fsincosSin 48 e a).val)
      (fun e a => (xCos .fsincosCos 48 e a).val)
      (fun e a => (xSin .fsincosSin 48 e a).flags ||| (xCos .fsincosCos 48 e a).flags)
      (fun e a => (xCos .fsincosCos 48 e a).up) h rfl, fxtract_makes h⟩
    case sin =>
      obtain ⟨v, c, e, hc, he, hm⟩ := trigOne_makes (i := .fsin) (C := (· = false)) h rfl
        fun u => ⟨false, _, rfl, passes_pure false u⟩
      subst hc
      exact ⟨v, e, he, hm⟩
    case cos =>
      obtain ⟨v, c, e, -, he, hm⟩ := trigOne_makes (i := .fcos) (C := fun _ => True) h rfl
        fun u => ⟨_, _, trivial, passes_freeBit u⟩
      exact ⟨v, c, e, he, hm⟩
  case rems =>
    exact fun s h => List.forall_iff_forall_mem.1 ⟨partialRem_makes h rfl, partialRem_makes h rfl⟩
  case arithMem =>
    intro m s h
    iterate 12 refine List.forall_mem_cons.2 ⟨fun u w hv => arithMem_leaves h rfl hv, ?_⟩
    repeat refine List.forall_mem_cons.2 ⟨fun u w hv => arithMem_leaves (x := fun a => a) h rfl (readInt_passes hv), ?_⟩
    exact List.forall_mem_nil _
  case compareMem =>
    intro m s h
    iterate 4 refine List.forall_mem_cons.2 ⟨fun u w hv => compareMem_leaves h rfl hv, ?_⟩
    repeat refine List.forall_mem_cons.2 ⟨fun u w hv => compareMem_leaves (x := fun a => a) h rfl (readInt_passes hv), ?_⟩
    exact List.forall_mem_nil _
  case loads =>
    intro m s h
    have int {i} {n : Nat} (hi : exec i s = run (do
        enterFpu s.rip (some m)
        let a ← readInt m n
        pushValue a.v 0) s) (u : State) (w : Nat)
        (hv : Passes (readFpu m n n) (s.begin.fpuEntered s.rip (some m)) w u) :
        ∃ v, LeavesFpu i s u fun f => (f.withCodes v).pushed (int80 (8 * n) w).v 0 :=
      push_leaves (c := fun a : XArg => (a.v, 0)) (b := int80 (8 * n) w) h hi (readInt_passes hv)
    exact List.forall_iff_forall_mem.1 ⟨
      fun _ _ hv => push_leaves (c := fun w => converted80 (ofFmt80 f32 w)) h rfl hv,
      fun _ _ hv => push_leaves (c := fun w => converted80 (ofFmt80 f64 w)) h rfl hv,
      fun _ _ hv => push_leaves (c := fun w => (BitVec.ofNat 80 w, 0)) h rfl hv, int rfl, int rfl, int rfl⟩

end Sys2Proof.Machine
end

section
/-! The x87 control instructions: one law per shared body; a form with a wait is the body after WAIT, which changes the
condition codes only. -/

namespace Sys2Proof.Machine

variable {s t u : State} {as : List Nat} {v : Nat}

theorem passes_initFpu (h : FpuThere s) : Passes initFpu s () { s with fpu := s.fpu.init } :=
  passes_bind (passes_needFpu h) (passes_modifyFpu _ _)

theorem passes_clearExceptions (h : FpuThere s) :
    ∃ v n, Passes clearExceptions s () (s.withFpu (s.fpu.cleared.withAllCodes v) n) :=
  ⟨_, _, passes_bind (passes_needFpu h) (passes_bind (passes_modifyFpu Fpu.cleared _) (passes_freeAllCodes _))⟩

theorem passes_loadCw {m : MemRef} (h : FpuReady s) (hv : Passes (readFpu m 2 2) s v u) :
    ∃ c n, Passes (loadCw m) s () (u.withFpu ({ u.fpu with fcw := BitVec.ofNat 16 v }.withAllCodes c) n) :=
  ⟨_, _, passes_bind (passes_waitFpu h) (passes_bind hv (passes_bind (passes_modifyFpu _ _) (passes_freeAllCodes _)))⟩

theorem passes_storeCw {m : MemRef} (h : FpuThere s) (hp : Passes (placeFpu m 2 2) s as u) :
    ∃ v n, Passes (storeCw m) s () ((u.physWrite as u.fpu.fcw.toNat).withFpu (u.fpu.withAllCodes v) n) :=
  ⟨_, _, passes_bind (passes_needFpu h) (passes_bind hp (passes_bind (passes_getFpu _) (passes_bind rfl
    (passes_freeAllCodes _))))⟩

theorem passes_storeSw {m : MemRef} (h : FpuThere s) (hp : Passes (placeFpu m 2 2) s as u) :
    ∃ v n, Passes (storeSw (.mem m)) s () ((u.physWrite as u.fpu.statusWord.toNat).withFpu (u.fpu.withAllCodes v) n) :=
  ⟨_, _, passes_bind (passes_needFpu h) (passes_bind hp (passes_bind (passes_getFpu _) (passes_bind rfl
    (passes_freeAllCodes _))))⟩

theorem passes_storeSwAx (h : FpuThere s) : ∃ v n, Passes (storeSw .ax) s ()
    ((s.setGp rAX (mergeLow (s.gp rAX) s.fpu.statusWord)).withFpu (s.fpu.withAllCodes v) n) :=
  ⟨_, _, passes_bind (passes_needFpu h) (passes_bind (passes_getFpu _) (passes_bind rfl (passes_freeAllCodes _)))⟩

theorem passes_storeEnv {o : FpEnv} (h : FpuThere s) (hp : Passes (placeFpu o.mem (envSize o.w) (envAlign o.w)) s as u) :
    ∃ v n, Passes (storeEnv o) s () ((u.physWrite as (u.envImage o.w)).withFpu
      ({ u.fpu with fcw := u.fpu.fcw ||| 0x3F }.withAllCodes v) n) :=
  ⟨_, _, passes_bind (passes_needFpu h) (passes_bind hp (passes_bind (passes_get _) (passes_bind rfl
    (passes_bind (passes_modifyFpu _ _) (passes_freeAllCodes _)))))⟩

theorem passes_saveState {o : FpEnv} (h : FpuThere s)
    (hp : Passes (placeFpu o.mem (envSize o.w + 80) (envAlign o.w)) s as u) :
    Passes (saveState o) s ()
      { u.physWrite as (u.envImage o.w + 256 ^ envSize o.w * u.fpu.stackImage) with fpu := u.fpu.init } :=
  passes_bind (passes_needFpu h) (passes_bind hp (passes_bind (passes_get _) (passes_bind rfl (passes_modifyFpu _ _))))

theorem passes_waitOnly_of_ready (h : FpuReady s) : ∃ v n, Passes waitOnly s () (s.withFpu (s.fpu.withAllCodes v) n) :=
  passes_waitOnly (.inr h.1.2.2) h.2

/-- After the wait the unit is still there. -/
theorem fpuThere_of_waitOnly (h : FpuReady s) (hw : Passes waitOnly s () t) : FpuThere t := by
  obtain ⟨v, n, p⟩ := passes_waitOnly_of_ready h
  obtain ⟨-, rfl⟩ := hw.unique p
  exact h.1

/-- Settles O12. -/
theorem x87Control : Obligations.X87Control := by
  unfold Obligations.X87Control
  refine ⟨fun s h => run_of_passes (passes_initFpu (s := s.begin) h), ?clear, ?loadCw, ?stores, ?storeAx, ?images, ?loads,
    ?wait, ?inits, ?waitStores⟩
  case clear =>
    intro s h
    obtain ⟨v, n, p⟩ := passes_clearExceptions (s := s.begin) h
    exact ⟨v, n, run_of_passes p⟩
  case loadCw =>
    intro m s u v h hv
    obtain ⟨c, n, p⟩ := passes_loadCw (s := s.begin) h hv
    exact ⟨c, n, run_of_passes p⟩
  case stores =>
    refine fun m s u as hp => ⟨fun h => ?_, fun h => ?_⟩
    · obtain ⟨v, n, p⟩ := passes_storeCw (s := s.begin) h hp
      exact ⟨v, n, run_of_passes p⟩
    · obtain ⟨v, n, p⟩ := passes_storeSw (s := s.begin) h hp
      exact ⟨v, n, run_of_passes p⟩
  case storeAx =>
    intro s h
    obtain ⟨v, n, p⟩ := passes_storeSwAx (s := s.begin) h
    exact ⟨v, n, run_of_passes p⟩
  case images =>
    refine fun o s u as h => ⟨fun hp => ?_, fun hp => run_of_passes (passes_saveState (s := s.begin) h hp)⟩
    obtain ⟨v, n, p⟩ := passes_storeEnv (s := s.begin) h hp
    exact ⟨v, n, run_of_passes p⟩
  case loads =>
    exact fun o s u v h =>
      ⟨fun hv => run_of_passes (passes_bind (passes_waitFpu (s := s.begin) h) (passes_bind hv rfl)),
        fun hv => run_of_passes (passes_bind (passes_waitFpu (s := s.begin) h) (passes_bind hv rfl))⟩
  case wait =>
    intro s h he
    obtain ⟨v, n, p⟩ := passes_waitOnly (s := s.begin) h he
    exact List.forall_iff_forall_mem.1 ⟨⟨v, n, run_of_passes p⟩, ⟨v, n, run_of_passes p⟩⟩
  case inits =>
    intro s h
    obtain ⟨v, n, pw⟩ := passes_waitOnly_of_ready (s := s.begin) h
    have there := fpuThere_of_waitOnly (s := s.begin) h pw
    obtain ⟨c, k, p⟩ := passes_clearExceptions there
    exact ⟨⟨n, run_of_passes (passes_bind pw (passes_initFpu there))⟩, c, k, run_of_passes (passes_bind pw p)⟩
  case waitStores =>
    refine fun s h => ⟨fun m t u as hw hp => ⟨?_, ?_⟩, ?_, fun o t u as hw => ⟨fun hp => ?_, fun hp => ?_⟩⟩
    · obtain ⟨v, n, p⟩ := passes_storeCw (fpuThere_of_waitOnly (s := s.begin) h hw) hp
      exact ⟨v, n, run_of_passes (passes_bind hw p)⟩
    · obtain ⟨v, n, p⟩ := passes_storeSw (fpuThere_of_waitOnly (s := s.begin) h hw) hp
      exact ⟨v, n, run_of_passes (passes_bind hw p)⟩
    · obtain ⟨v, n, pw⟩ := passes_waitOnly_of_ready (s := s.begin) h
      obtain ⟨c, k, p⟩ := passes_storeSwAx (fpuThere_of_waitOnly (s := s.begin) h pw)
      exact ⟨v, n, pw, c, k, run_of_passes (passes_bind pw p)⟩
    · obtain ⟨v, n, p⟩ := passes_storeEnv (fpuThere_of_waitOnly (s := s.begin) h hw) hp
      exact ⟨v, n, run_of_passes (passes_bind hw p)⟩
    · exact run_of_passes (passes_bind hw (passes_saveState (fpuThere_of_waitOnly (s := s.begin) h hw) hp))

end Sys2Proof.Machine
end

section
/-! The two-operand arithmetic and logic instructions: one law per operand form, over an operation that passes.
What ADD to XOR give is read off their definitions. -/

namespace Sys2Proof.Machine

variable {s u : State} {w : Width}

section Forms
variable {op : BinOp} {dst src : Rm} {g : Gp} {imm : BitVec 32} {q : Place} {a b r : BitVec w.bits} {t : State}

/-! Each operand form passes where its operation does. -/

theorem aluRun_mr (hq : Passes (place .write w dst) s q u)
    (hop : Passes (op w.bits (u.placeVal w q) (u.gpVal w g)) u r t) :
    Passes (aluRun op (.mr w dst g)) s () (t.setPlace w q r) :=
  passes_bind hq (passes_bind rfl (passes_bind rfl (passes_bind hop rfl)))

theorem aluRun_mi (hq : Passes (place .write w dst) s q u)
    (hop : Passes (op w.bits (u.placeVal w q) (immOf w imm)) u r t) :
    Passes (aluRun op (.mi w dst imm)) s () (t.setPlace w q r) :=
  passes_bind hq (passes_bind rfl (passes_bind hop rfl))

theorem aluRun_rm (hb : Passes (readRm w src) s b u) (hop : Passes (op w.bits (u.gpVal w g) b) u r t) :
    Passes (aluRun op (.rm w g src)) s () (t.setGpVal w g r) :=
  passes_bind hb (passes_bind rfl (passes_bind hop rfl))

theorem aluTest_mr (ha : Passes (readRm w src) s a u) (hop : Passes (op w.bits a (u.gpVal w g)) u r t) :
    Passes (aluTest op (.mr w src g)) s () t := passes_bind ha (passes_bind rfl (passes_bind hop rfl))

theorem aluTest_rm (hb : Passes (readRm w src) s b u) (hop : Passes (op w.bits (u.gpVal w g) b) u r t) :
    Passes (aluTest op (.rm w g src)) s () t := passes_bind hb (passes_bind rfl (passes_bind hop rfl))

theorem aluTest_mi (ha : Passes (readRm w src) s a u) (hop : Passes (op w.bits a (immOf w imm)) u r t) :
    Passes (aluTest op (.mi w src imm)) s () t := passes_bind ha (passes_bind hop rfl)

theorem unRun_passes {op : UnOp} (hq : Passes (place .write w dst) s q u) (hop : Passes (op w.bits (u.placeVal w q)) u r t) :
    Passes (unRun op w dst) s () (t.setPlace w q r) := passes_bind hq (passes_bind rfl (passes_bind hop rfl))

end Forms

/-- Settles O13. -/
theorem addSubtractResults : Obligations.AddSubtractResults := by
  unfold Obligations.AddSubtractResults
  refine ⟨?binary, ⟨?mr, ?rm, ?mi⟩, ?unary⟩
  case binary =>
    repeat refine List.forall_mem_cons.2 ⟨⟨fun _ _ _ _ _ _ hq => run_of_passes (aluRun_mr hq rfl),
      fun _ _ _ _ _ _ hq => run_of_passes (aluRun_mi hq rfl),
      fun _ _ _ _ _ _ hb => run_of_passes (aluRun_rm hb rfl)⟩, ?_⟩
    exact List.forall_mem_nil _
  case mr => exact fun w a b s u x hx => run_of_passes (aluTest_mr hx rfl)
  case rm => exact fun w a b s u y hy => run_of_passes (aluTest_rm hy rfl)
  case mi => exact fun w a imm s u x hx => run_of_passes (aluTest_mi hx rfl)
  case unary =>
    repeat refine List.forall_mem_cons.2 ⟨fun _ _ _ _ _ hq => run_of_passes (unRun_passes hq rfl), ?_⟩
    exact List.forall_mem_nil _

/-- Settles O14. -/
theorem logicResults : Obligations.LogicResults := by
  unfold Obligations.LogicResults
  refine ⟨?binary, ?mr, ?mi⟩
  case binary =>
    repeat refine List.forall_mem_cons.2 ⟨⟨fun _ _ _ _ _ _ hq => ⟨_, run_of_passes (aluRun_mr hq rfl)⟩,
      fun _ _ _ _ _ _ hq => ⟨_, run_of_passes (aluRun_mi hq rfl)⟩,
      fun _ _ _ _ _ _ hb => ⟨_, run_of_passes (aluRun_rm hb rfl)⟩⟩, ?_⟩
    exact List.forall_mem_nil _
  case mr => exact fun w a b s u x hx => ⟨_, run_of_passes (aluTest_mr hx rfl)⟩
  case mi => exact fun w a imm s u x hx => ⟨_, run_of_passes (aluTest_mi hx rfl)⟩

end Sys2Proof.Machine
end

section
/-! Multiplication and division, the decimal adjustments and the exchanges. -/

namespace Sys2Proof.Machine

variable {s u : State} {w : Width}

@[simp] theorem State.setDouble_flags (v : Nat) : (s.setDouble w v).flags = s.flags := by cases w <;> rfl
@[simp] theorem State.setQuotRem_flags (q r : Nat) : (s.setQuotRem w q r).flags = s.flags := by cases w <;> rfl

theorem passes_setProductFlags (cut sf : Bool) (s : State) : Passes (setProductFlags cut sf) s ()
    (s.flagsDrawn { s.flags.withStatus (drawnStatus s.flags s.free) with cf := cut, of := cut, sf := sf } 6) := rfl

theorem passes_clobberStatus (s : State) :
    Passes clobberStatus s () (s.flagsDrawn (s.flags.withStatus (drawnStatus s.flags s.free)) 6) := rfl

theorem passes_quotRem (w : Width) (q r : Nat) (s : State) : ∃ g, Passes (do writeQuotRem w q r; clobberStatus) s ()
    ((s.setQuotRem w q r).flagsDrawn (s.flags.withStatus g) 6) :=
  ⟨drawnStatus s.flags (s.setQuotRem w q r).free, passes_bind (writeQuotRem_passes w s q r)
    ((passes_clobberStatus _).of_eq (by rw [State.setQuotRem_flags]))⟩

theorem passes_doubleProduct (w : Width) (v : Nat) (cut sf : Bool) (s : State) :
    ∃ g, Passes (do writeDouble w v; setProductFlags cut sf) s ()
      ((s.setDouble w v).flagsDrawn { s.flags.withStatus g with cf := cut, of := cut, sf := sf } 6) :=
  ⟨drawnStatus s.flags (s.setDouble w v).free, passes_bind (writeDouble_passes w s v)
    ((passes_setProductFlags cut sf _).of_eq (by rw [State.setDouble_flags]))⟩

theorem passes_freeProduct (w : Width) (v : Nat) (cut : Bool) (s : State) :
    ∃ g sf, Passes (do writeDouble w v; let sf ← freeBit; setProductFlags cut sf) s ()
      ((s.setDouble w v).flagsDrawn { s.flags.withStatus g with cf := cut, of := cut, sf := sf } 7) := by
  let t := s.setDouble w v
  refine ⟨drawnStatus s.flags (t.free + 1), (Config.freeBits 1 t.free).getLsbD 0, passes_bind (writeDouble_passes w s v)
    (passes_bind (passes_freeBit t) ((passes_setProductFlags cut _ _).of_eq ?_))⟩
  rw [show ({ t with free := t.free + 1 } : State).flags = s.flags from State.setDouble_flags (w := w) v]
  rfl

/-- Settles O15. -/
theorem multiplyDivideResults : Obligations.MultiplyDivideResults := by
  unfold Obligations.MultiplyDivideResults
  refine ⟨fun w src s u b hb => ⟨?mul, ?one, ?two, ?three⟩,
    fun w src s u b hb => ⟨?mulx, ?adcx, ?adox⟩, fun w src s u b hb h0 => ⟨fun hq => ?div, fun n hn hq => ?idiv⟩⟩
  case mul =>
    obtain ⟨g, sf, p⟩ := passes_freeProduct w ((u.reg w rAX).toNat * b.toNat)
      (decide (2 ^ w.bits ≤ (u.reg w rAX).toNat * b.toNat)) u
    exact ⟨g, sf, run_of_passes (passes_bind hb (passes_bind rfl p))⟩
  case one =>
    obtain ⟨g, p⟩ := passes_doubleProduct w (BitVec.ofInt (2 * w.bits) ((u.reg w rAX).toInt * b.toInt)).toNat
      (signedProduct (u.reg w rAX) b).2 (signedProduct (u.reg w rAX) b).1.msb u
    exact ⟨g, run_of_passes (passes_bind hb (passes_bind rfl p))⟩
  case two => exact fun dst => ⟨_, run_of_passes (passes_bind hb (passes_bind rfl (passes_bind rfl rfl)))⟩
  case three => exact fun dst imm => ⟨_, run_of_passes (passes_bind hb (passes_bind rfl rfl))⟩
  case mulx =>
    exact fun dst a h => run_of_passes (passes_bind (passes_needVexGpr (s := s.begin) h) (passes_bind hb (passes_bind rfl
      (passes_bind rfl rfl))))
  case adcx =>
    exact fun dst h => run_of_passes (passes_bind (passes_needFeature (s := s.begin) h) (passes_bind hb (passes_bind rfl
      (passes_bind rfl rfl))))
  case adox =>
    exact fun dst h => run_of_passes (passes_bind (passes_needFeature (s := s.begin) h) (passes_bind hb (passes_bind rfl
      (passes_bind rfl rfl))))
  case div =>
    have hn : b.toNat ≠ 0 := fun h => h0 (BitVec.eq_of_toNat_eq h)
    obtain ⟨g, p⟩ := passes_quotRem w (u.dividend w / b.toNat) (u.dividend w % b.toNat) u
    exact ⟨g, run_of_passes (passes_bind hb (passes_bind (passes_ensure (decide_eq_true hn) u)
      (passes_bind (readDouble_passes w u) (passes_bind (passes_ensure (decide_eq_true hq) u) p))))⟩
  case idiv =>
    subst hn
    have hz : b.toInt ≠ 0 := fun h => h0 (BitVec.toInt_inj.1 (h.trans BitVec.toInt_zero.symm))
    obtain ⟨g, p⟩ := passes_quotRem w
      (BitVec.ofInt w.bits ((BitVec.ofNat (2 * w.bits) (u.dividend w)).toInt.tdiv b.toInt)).toNat
      (BitVec.ofInt w.bits ((BitVec.ofNat (2 * w.bits) (u.dividend w)).toInt.tmod b.toInt)).toNat u
    exact ⟨g, run_of_passes (passes_bind hb (passes_bind (passes_ensure (decide_eq_true hz) u)
      (passes_bind (readDouble_passes w u) (passes_bind (passes_ensure (decide_eq_true hq) u) p))))⟩

/-- Settles O16. -/
theorem decimalAndSignResults : Obligations.DecimalAndSignResults := by
  unfold Obligations.DecimalAndSignResults
  refine ⟨fun s hl => ⟨?aaa, ?aas, ?aad, ?aam⟩, fun s low high al r hl ha hlow hhigh => ⟨?daa, ?das⟩, fun s => ⟨?cbw, ?cwde, ?cdqe, ?spread⟩⟩
  case aaa => exact ⟨_, run_of_passes (passes_bind (passes_notInLong (s := s.begin) hl) rfl)⟩
  case aas => exact ⟨_, run_of_passes (passes_bind (passes_notInLong (s := s.begin) hl) rfl)⟩
  case aad =>
    rintro imm al ah r rfl rfl rfl
    exact ⟨_, run_of_passes (passes_bind (passes_notInLong (s := s.begin) hl) rfl)⟩
  case aam =>
    rintro imm r h0 rfl
    exact ⟨_, run_of_passes (passes_bind (passes_notInLong (s := s.begin) hl)
      (passes_bind (passes_ensure (decide_eq_true h0) _) rfl))⟩
  case daa =>
    rintro rfl
    subst ha hlow hhigh
    exact ⟨_, run_of_passes (passes_bind (passes_notInLong (s := s.begin) hl) rfl)⟩
  case das =>
    rintro rfl
    subst ha hlow hhigh
    exact ⟨_, run_of_passes (passes_bind (passes_notInLong (s := s.begin) hl) rfl)⟩
  case cbw => rfl
  case cwde => rfl
  case cdqe => rfl
  case spread => exact List.forall_iff_forall_mem.1 ⟨rfl, rfl, rfl⟩

/-- Settles O17. -/
theorem exchangeResults : Obligations.ExchangeResults := by
  unfold Obligations.ExchangeResults
  refine ⟨fun w dst src s u q hq => ⟨?xchg, ?xadd, fun he => run_of_passes (cmpxchgBody_eq hq he),
    fun he => run_of_passes (cmpxchgBody_ne hq he)⟩, ?pairs, fun dst src s u q hl hg hq => ⟨fun hr => ?up, fun hr => ?down⟩, ?bswap,
    fun r s => ⟨_, bswap16_completes r s⟩⟩
  case xchg => exact run_of_passes (passes_bind hq (passes_bind rfl (passes_bind rfl (passes_bind rfl rfl))))
  case xadd => exact run_of_passes (passes_bind hq (passes_bind rfl (passes_bind rfl (passes_bind rfl (passes_bind rfl rfl)))))
  case pairs =>
    refine List.forall_iff_forall_mem.1 ⟨fun m s u as a n h hp ha hn => ⟨fun he => ?_, fun he => ?_⟩,
      fun m s u as a n h hp ha hn => ⟨fun he => ?_, fun he => ?_⟩⟩ <;> subst ha hn
    · exact run_of_passes (passes_bind (passes_needFeature (s := s.begin) h) (cmpxchgPair_eq hp he))
    · exact run_of_passes (passes_bind (passes_needFeature (s := s.begin) h) (cmpxchgPair_ne hp he))
    · exact run_of_passes (passes_bind (passes_get _) (passes_bind (passes_ensure h _) (cmpxchgPair_eq hp he)))
    · exact run_of_passes (passes_bind (passes_get _) (passes_bind (passes_ensure h _) (cmpxchgPair_ne hp he)))
  case up =>
    have hm : (!s.begin.isLegacySeg && !s.begin.isLong) = true := by
      rw [show s.begin.isLegacySeg = false from hl, show s.begin.isLong = false from hg]; rfl
    refine run_of_passes (passes_bind (passes_get _) (passes_bind (passes_ensure hm _) (passes_bind hq (passes_bind rfl
      (passes_bind rfl (passes_bind rfl (passes_if_pos (decide_eq_true hr) ?_)))))))
    rw [decide_eq_true hr]; rfl
  case down =>
    have hm : (!s.begin.isLegacySeg && !s.begin.isLong) = true := by
      rw [show s.begin.isLegacySeg = false from hl, show s.begin.isLong = false from hg]; rfl
    refine run_of_passes (passes_bind (passes_get _) (passes_bind (passes_ensure hm _) (passes_bind hq (passes_bind rfl
      (passes_bind rfl (passes_bind rfl (passes_if_neg (by simpa using hr) ?_)))))))
    rw [decide_eq_false hr]; rfl
  case bswap => exact fun w r s hw => run_of_passes (passes_if_neg hw rfl)

end Sys2Proof.Machine
end

section
/-! Shifts and rotates: what each operation makes of its operand, then the instructions. An undefined flag is the value drawn
for it. -/

namespace Sys2Proof.Machine

variable {s u : State}

/-- A logical shift with result `r`, carry `c` where the count is below the size, and OF for a count of one. -/
def ShiftOp.Shifts (op : ShiftOp) (g : (n : Nat) → Nat → BitVec n → BitVec n × Bool)
    (ov : {n : Nat} → BitVec n → BitVec n → Bool → Bool) : Prop :=
  ∀ (n raw m : Nat) (a : BitVec n) (s : State), ∃ cf of af, (m < n → cf = (g n m a).2) ∧ (m = 1 → of = ov a (g n m a).1 cf) ∧
    Passes (op n raw m a) s (g n m a).1 (s.flagsDrawn { s.flags.szp (g n m a).1 with cf := cf, of := of, af := af } 3)

theorem opShl_shifts : ShiftOp.Shifts opShl (fun n m a => (a <<< m, a.getLsbD (n - m))) fun _ r cf => r.msb ^^ cf :=
  fun _ _ _ _ _ => ⟨_, _, _, fun h => if_neg (Nat.not_le.2 h), fun h => if_pos (decide_eq_true h), rfl⟩

theorem opShr_shifts : ShiftOp.Shifts opShr (fun _ m a => (a >>> m, a.getLsbD (m - 1))) fun a _ _ => a.msb :=
  fun _ _ _ _ _ => ⟨_, _, _, fun h => if_neg (Nat.not_le.2 h), fun h => if_pos (decide_eq_true h), rfl⟩

theorem opSar_passes (n raw m : Nat) (a : BitVec n) (s : State) : ∃ of af, (m = 1 → of = false) ∧
    Passes (opSar n raw m a) s (a.sshiftRight m) (s.flagsDrawn { s.flags.szp (a.sshiftRight m) with
      cf := (a.sshiftRight (m - 1)).getLsbD 0, of := of, af := af } 2) :=
  ⟨_, _, fun h => if_pos (decide_eq_true h), rfl⟩

theorem opRol_passes (n raw m : Nat) (a : BitVec n) (s : State) : ∃ of,
    (m = 1 → of = ((a.rotateLeft m).msb ^^ (a.rotateLeft m).getLsbD 0)) ∧ Passes (opRol n raw m a) s (a.rotateLeft m)
      (s.flagsDrawn { s.flags with cf := (a.rotateLeft m).getLsbD 0, of := of } 1) :=
  ⟨_, fun h => if_pos (decide_eq_true h), rfl⟩

theorem opRor_passes (n raw m : Nat) (a : BitVec n) (s : State) : ∃ of,
    (m = 1 → of = ((a.rotateRight m).msb ^^ (a.rotateRight m).getLsbD (n - 2))) ∧ Passes (opRor n raw m a) s (a.rotateRight m)
      (s.flagsDrawn { s.flags with cf := (a.rotateRight m).msb, of := of } 1) :=
  ⟨_, fun h => if_pos (decide_eq_true h), rfl⟩

theorem opRcl_passes (n raw m : Nat) (a : BitVec n) (s : State) : let x := (withCarry s.flags.cf a).rotateLeft m
    ∃ of, (raw = 1 → of = ((x.setWidth n).msb ^^ x.msb)) ∧ Passes (opRcl n raw m a) s (x.setWidth n)
      (s.flagsDrawn { s.flags with cf := x.msb, of := of } 1) :=
  ⟨_, fun h => if_pos (decide_eq_true h), rfl⟩

theorem opRcr_passes (n raw m : Nat) (a : BitVec n) (s : State) : let x := (withCarry s.flags.cf a).rotateRight m
    ∃ of, (raw = 1 → of = (a.msb ^^ s.flags.cf)) ∧ Passes (opRcr n raw m a) s (x.setWidth n)
      (s.flagsDrawn { s.flags with cf := x.msb, of := of } 1) :=
  ⟨_, fun h => if_pos (decide_eq_true h), rfl⟩

/-- Settles O18. -/
theorem shiftResults : Obligations.ShiftResults := by
  unfold Obligations.ShiftResults
  refine ⟨?zero, ?logical, fun w dst c m s u q r hq hm h0 => ⟨?sar, ?rol, ?ror⟩, fun w dst c m s u q x hq hm h0 => ⟨?rcl, ?rcr⟩,
    ?double, ?flagless, ?rorx⟩
  case zero =>
    repeat refine List.forall_mem_cons.2 ⟨fun _ _ _ _ _ _ hq h0 => run_of_passes (shiftRun_zero hq h0), ?_⟩
    exact List.forall_mem_nil _
  case logical =>
    have shift {i : ShiftOps → Instr} {op : ShiftOp} {g} {ov : {n : Nat} → BitVec n → BitVec n → Bool → Bool}
        (hi : ∀ o s, exec (i o) s = run (shiftRun op o) s)
        (h : ShiftOp.Shifts op g ov) (w : Width) (dst : Rm) (c : Count) (m : Nat) (s u : State) (q : Place)
        (hq : Passes (place .write w dst) s.begin q u) (hm : m = maskCount w (u.count c)) (h0 : m ≠ 0) :
        ∃ cf of af, (m < w.bits → cf = (g w.bits m (u.placeVal w q)).2) ∧
          (m = 1 → of = ov (u.placeVal w q) (g w.bits m (u.placeVal w q)).1 cf) ∧
          Completes (i ⟨w, dst, c⟩) s ((u.flagsDrawn
            { u.flags.szp (g w.bits m (u.placeVal w q)).1 with cf := cf, of := of, af := af } 3).setPlace w q
            (g w.bits m (u.placeVal w q)).1) := by
      subst hm
      obtain ⟨cf, of, af, h1, h2, hp⟩ := h w.bits (u.count c).toNat (maskCount w (u.count c)) (u.placeVal w q) u
      exact ⟨cf, of, af, h1, h2, (hi _ s).trans (run_of_passes (shiftRun_passes hq h0 hp))⟩
    exact List.forall_iff_forall_mem.1 ⟨shift (i := .sal) (fun _ _ => rfl) opShl_shifts,
      shift (i := .shl) (fun _ _ => rfl) opShl_shifts, shift (i := .shr) (fun _ _ => rfl) opShr_shifts⟩
  case sar =>
    rintro rfl
    subst hm
    obtain ⟨of, af, h1, hp⟩ := opSar_passes w.bits (u.count c).toNat (maskCount w (u.count c)) (u.placeVal w q) u
    exact ⟨of, af, h1, run_of_passes (shiftRun_passes hq h0 hp)⟩
  case rol =>
    rintro rfl
    subst hm
    obtain ⟨of, h1, hp⟩ := opRol_passes w.bits (u.count c).toNat (maskCount w (u.count c)) (u.placeVal w q) u
    exact ⟨of, h1, run_of_passes (shiftRun_passes hq h0 hp)⟩
  case ror =>
    rintro rfl
    subst hm
    obtain ⟨of, h1, hp⟩ := opRor_passes w.bits (u.count c).toNat (maskCount w (u.count c)) (u.placeVal w q) u
    exact ⟨of, h1, run_of_passes (shiftRun_passes hq h0 hp)⟩
  case rcl =>
    rintro rfl
    subst hm
    obtain ⟨of, h1, hp⟩ := opRcl_passes w.bits (u.count c).toNat (maskCount w (u.count c)) (u.placeVal w q) u
    exact ⟨of, h1, run_of_passes (shiftRun_passes hq h0 hp)⟩
  case rcr =>
    rintro rfl
    subst hm
    obtain ⟨of, h1, hp⟩ := opRcr_passes w.bits (u.count c).toNat (maskCount w (u.count c)) (u.placeVal w q) u
    exact ⟨of, h1, run_of_passes (shiftRun_passes hq h0 hp)⟩
  case double =>
    have double {i : DShiftOps → Instr} {f : (n : Nat) → Nat → BitVec n → BitVec n → BitVec n × Bool}
        (hi : ∀ o s, exec (i o) s = run (doubleShift o fun a b m => f o.w.bits m a b) s) (w : Width) (dst : Rm) (src : Reg)
        (c : Count) (m : Nat) (s u : State) (q : Place) (hq : Passes (place .write w dst) s.begin q u)
        (hm : m = maskCount w (u.count c)) :
        (m = 0 → Completes (i ⟨w, dst, src, c⟩) s u) ∧
        (∀ (r : BitVec w.bits) (cf : Bool), 0 < m → m ≤ w.bits → (r, cf) = f w.bits m (u.placeVal w q) (u.reg w src) →
          ∃ of af, (m = 1 → of = ((u.placeVal w q).msb ^^ r.msb)) ∧ Completes (i ⟨w, dst, src, c⟩) s
            ((u.flagsDrawn { u.flags.szp r with cf := cf, of := of, af := af } 2).setPlace w q r)) ∧
        (w.bits < m → ∃ (r : BitVec w.bits) (g : Flags), Completes (i ⟨w, dst, src, c⟩) s
            ((u.flagsDrawn (u.flags.withStatus g) 7).setPlace w q r)) := by
      subst hm
      refine ⟨fun h0 => (hi _ s).trans (run_of_passes (doubleShift_zero hq h0)), fun r cf h0 hl hr => ?_,
        fun hl => ⟨_, _, (hi _ s).trans (run_of_passes (doubleShift_far hq hl))⟩⟩
      have p := doubleShift_passes (src := src) (f := fun a b m => f w.bits m a b) hq h0 hl
      simp only [← hr] at p
      exact ⟨_, _, fun h => if_pos (decide_eq_true h), (hi _ s).trans (run_of_passes p)⟩
    exact List.forall_iff_forall_mem.1 ⟨double fun _ _ => rfl, double fun _ _ => rfl⟩
  case flagless =>
    have shift {o : Vg3} {s u : State} {f : BitVec o.w.bits → Nat → BitVec o.w.bits} {b : BitVec o.w.bits} (h : VexGprReady .bmi2 s)
        (hb : Passes (readRm o.w o.b) s.begin b u) :
        Passes (shiftX o f) s.begin () (u.setReg o.w o.dst (f b (maskCount o.w ((u.reg o.w o.a).setWidth 8)))) :=
      passes_bind (passes_needVexGpr (s := s.begin) h) (passes_bind hb (passes_bind rfl rfl))
    repeat refine List.forall_mem_cons.2 ⟨fun _ _ _ _ _ _ _ h hb => run_of_passes (shift h hb), ?_⟩
    exact List.forall_mem_nil _
  case rorx =>
    exact fun w dst src imm s u b h hb =>
      run_of_passes (passes_bind (passes_needVexGpr (s := s.begin) h) (passes_bind hb rfl))

end Sys2Proof.Machine
end

section
/-! Bit tests, scans and counts, the bit-field instructions, CRC32. -/

namespace Sys2Proof.Machine

variable {s u : State} {w : Width}

theorem bitTest_passes {o : BitOps} {q : Place} {i : Nat} (h : Passes (bitPlace .read o) s (q, i) u) :
    ∃ g, Passes (bitTest o) s () (u.flagsDrawn
      { u.flags.withStatus g with cf := (u.placeVal o.w q).getLsbD i, zf := u.flags.zf } 6) :=
  ⟨_, passes_bind h (passes_bind rfl rfl)⟩

theorem bitChange_passes {f : Bool → Bool} {o : BitOps} {q : Place} {i : Nat} {b : Bool}
    (h : Passes (bitPlace .write o) s (q, i) u) (hb : b = (u.placeVal o.w q).getLsbD i) :
    ∃ g, Passes (bitChange f o) s () ((u.flagsDrawn { u.flags.withStatus g with cf := b, zf := u.flags.zf } 6).setPlace o.w q
      (if f b then u.placeVal o.w q ||| BitVec.ofNat o.w.bits (2 ^ i)
        else u.placeVal o.w q &&& ~~~BitVec.ofNat o.w.bits (2 ^ i))) := by
  subst hb
  exact ⟨_, passes_bind h (passes_bind rfl (passes_bind rfl rfl))⟩

theorem bitCount_passes {dst : Reg} {src : Rm} {f : BitVec w.bits → Nat} {a : BitVec w.bits} (h : Passes (readRm w src) s a u) :
    ∃ g, Passes (bitCount ⟨w, dst, src⟩ f) s () ((u.flagsDrawn
      { u.flags.withStatus g with cf := decide (a = 0), zf := decide (f a = 0) } 6).setReg w dst (BitVec.ofNat w.bits (f a))) :=
  ⟨_, passes_bind h (passes_bind rfl rfl)⟩

/-- BSF and BSR in both cases of the source. -/
theorem bitScan_both {dst : Reg} {src : Rm} {f : BitVec w.bits → Nat} {a : BitVec w.bits} (h : Passes (readRm w src) s a u) :
    (a ≠ 0 → ∃ g, Passes (bitScan ⟨w, dst, src⟩ f) s ()
      ((u.flagsDrawn { u.flags.withStatus g with zf := false } 6).setReg w dst (BitVec.ofNat w.bits (f a)))) ∧
    (a = 0 → ∃ g v, Passes (bitScan ⟨w, dst, src⟩ f) s ()
      ((u.flagsDrawn { u.flags.withStatus g with zf := true } 7).setGp dst v)) :=
  ⟨fun h0 => ⟨_, bitScan_passes h h0⟩, fun h0 => ⟨_, _, bitScan_zero h h0⟩⟩

/-- Settles O19. -/
theorem bitResults : Obligations.BitResults := by
  unfold Obligations.BitResults
  refine ⟨⟨fun o s u q i h => ?bt, ?change⟩, ?scans, ⟨?counts, ?popcnt⟩,
    fun w dst a src s u b r hb => ⟨?andn, ?bextr, ?bzhi, ?pdep, ?pext⟩, ?lowest, ?crc⟩
  case bt =>
    obtain ⟨g, p⟩ := bitTest_passes h
    exact ⟨g, run_of_passes p⟩
  case change =>
    have change {i : BitOps → Instr} {f : Bool → Bool} (hi : ∀ o s, exec (i o) s = run (bitChange f o) s) (o : BitOps)
        (s u : State) (q : Place) (k : Nat) (b : Bool) (h : Passes (bitPlace .write o) s.begin (q, k) u)
        (hb : b = (u.placeVal o.w q).getLsbD k) :
        ∃ g, Completes (i o) s ((u.flagsDrawn { u.flags.withStatus g with cf := b, zf := u.flags.zf } 6).setPlace o.w q
          (if f b then u.placeVal o.w q ||| BitVec.ofNat o.w.bits (2 ^ k)
            else u.placeVal o.w q &&& ~~~BitVec.ofNat o.w.bits (2 ^ k))) := by
      obtain ⟨g, p⟩ := bitChange_passes h hb
      exact ⟨g, (hi o s).trans (run_of_passes p)⟩
    exact List.forall_iff_forall_mem.1 ⟨change fun _ _ => rfl, change fun _ _ => rfl, change fun _ _ => rfl⟩
  case scans =>
    have scan {i : RegRm → Instr} {f : (n : Nat) → BitVec n → Nat} {c : State → Prop}
        (hi : ∀ o s, c s → exec (i o) s = run (bitScan o (f o.w.bits)) s) (w : Width) (dst : Reg) (src : Rm) (s u : State)
        (a : BitVec w.bits) (hc : c s) (h : Passes (readRm w src) s.begin a u) :
        (a ≠ 0 → ∃ g, Completes (i ⟨w, dst, src⟩) s
          ((u.flagsDrawn { u.flags.withStatus g with zf := false } 6).setReg w dst (BitVec.ofNat w.bits (f w.bits a)))) ∧
        (a = 0 → ∃ g v, Completes (i ⟨w, dst, src⟩) s
          ((u.flagsDrawn { u.flags.withStatus g with zf := true } 7).setGp dst v)) := by
      obtain ⟨h1, h2⟩ := bitScan_both (dst := dst) (f := f w.bits) h
      refine ⟨fun h0 => ?_, fun h0 => ?_⟩
      · obtain ⟨g, p⟩ := h1 h0
        exact ⟨g, (hi _ s hc).trans (run_of_passes p)⟩
      · obtain ⟨g, v, p⟩ := h2 h0
        exact ⟨g, v, (hi _ s hc).trans (run_of_passes p)⟩
    have old {f : Config.Feature} {m n : M Unit} {s : State} (h : s.has f = false) :
        run (do if (← get).has f then m else n) s = run n s := by
      unfold run
      rw [show (do if (← get).has f then m else n : M Unit).run s.begin = (if s.has f then m else n).run s.begin from rfl, h]
      rfl
    exact List.forall_iff_forall_mem.1 ⟨scan fun _ _ _ => rfl, scan fun _ _ _ => rfl, scan fun _ _ h => old h,
      scan fun _ _ h => old h⟩
  case counts =>
    have count {i : RegRm → Instr} {x : Config.Feature} {f : (n : Nat) → BitVec n → Nat} {m : RegRm → M Unit}
        (hi : ∀ o s, exec (i o) s = run (do if (← get).has x then bitCount o (f o.w.bits) else m o) s) (w : Width) (dst : Reg)
        (src : Rm) (s u : State) (a : BitVec w.bits) (hx : s.has x = true) (h : Passes (readRm w src) s.begin a u) :
        ∃ g, Completes (i ⟨w, dst, src⟩) s ((u.flagsDrawn
          { u.flags.withStatus g with cf := decide (a = 0), zf := decide (f w.bits a = 0) } 6).setReg w dst
            (BitVec.ofNat w.bits (f w.bits a))) := by
      obtain ⟨g, p⟩ := bitCount_passes (dst := dst) (f := f w.bits) h
      exact ⟨g, (hi _ s).trans (run_of_passes (passes_bind (passes_get _) (passes_if_pos hx p)))⟩
    exact List.forall_iff_forall_mem.1 ⟨count fun _ _ => rfl, count fun _ _ => rfl⟩
  case popcnt =>
    exact fun w dst src s u a hx h => run_of_passes (passes_bind (passes_needFeature (s := s.begin) hx) (passes_bind h rfl))
  case andn =>
    rintro hx rfl
    exact ⟨_, run_of_passes (passes_bind (passes_needVexGpr (s := s.begin) hx) (passes_bind hb rfl))⟩
  case bextr =>
    rintro hx rfl
    exact ⟨_, run_of_passes (passes_bind (passes_needVexGpr (s := s.begin) hx) (passes_bind hb rfl))⟩
  case bzhi =>
    rintro hx rfl
    exact ⟨_, run_of_passes (passes_bind (passes_needVexGpr (s := s.begin) hx) (passes_bind hb rfl))⟩
  case pdep => exact fun hx => run_of_passes (passes_bind (passes_needVexGpr (s := s.begin) hx) (passes_bind hb rfl))
  case pext => exact fun hx => run_of_passes (passes_bind (passes_needVexGpr (s := s.begin) hx) (passes_bind hb rfl))
  case lowest =>
    repeat refine List.forall_mem_cons.2 ⟨fun w dst src s u a hx h => ⟨_, run_of_passes
      (passes_bind (passes_needVexGpr (s := s.begin) hx) (passes_bind h rfl))⟩, ?_⟩
    exact List.forall_mem_nil _
  case crc =>
    exact fun o s u v hx h => run_of_passes (passes_bind (passes_needFeature (s := s.begin) hx) (passes_bind h rfl))

end Sys2Proof.Machine
end

section
/-! Moves, conditional moves and sets, the flag instructions, hints and fences. -/

namespace Sys2Proof.Machine

variable {s u : State}

/-- Settles O20. -/
theorem moveResults : Obligations.MoveResults := by
  unfold Obligations.MoveResults
  refine ⟨⟨?store, ?load, ?imm, ?fromMoffs, ?toMoffs⟩, fun w dst sw src s u v hv => ⟨?movsx, ?movsxd, ?movzx⟩,
    fun w r m s => ⟨?beLoad, ?beStore, ?nti, rfl⟩, fun a s u v => ⟨?xlatb, ?xlat⟩⟩
  case store => exact fun w dst src s u q hq => run_of_passes (passes_bind rfl (writeRm_passes hq))
  case load => exact fun w dst src s u v hv => run_of_passes (passes_bind hv rfl)
  case imm => exact fun w dst imm s u q hq => run_of_passes (writeRm_passes hq)
  case fromMoffs => exact fun w src s u as h => run_of_passes (passes_bind h (passes_bind rfl rfl))
  case toMoffs => exact fun w dst s u as h => run_of_passes (passes_bind rfl (passes_bind h rfl))
  case movsx => exact run_of_passes (passes_bind hv rfl)
  case movsxd => exact run_of_passes (passes_bind hv rfl)
  case movzx => exact run_of_passes (passes_bind hv rfl)
  case beLoad =>
    exact fun u v h hv => run_of_passes (passes_bind (passes_needFeature (s := s.begin) h) (passes_bind hv rfl))
  case beStore =>
    exact fun u q h hq => run_of_passes (passes_bind (passes_needFeature (s := s.begin) h)
      (passes_bind rfl (writeRm_passes hq)))
  case nti =>
    exact fun u q h hq => run_of_passes (passes_bind (passes_needFeature (s := s.begin) h)
      (passes_bind rfl (writeRm_passes hq)))
  case xlatb => exact fun h => run_of_passes (passes_bind (passes_get _) (passes_bind rfl (passes_bind h rfl)))
  case xlat => exact fun r h => run_of_passes (passes_bind (passes_get _) (passes_bind rfl (passes_bind h rfl)))

/-- Settles O21. -/
theorem conditionalResults : Obligations.ConditionalResults := by
  unfold Obligations.ConditionalResults
  refine ⟨?moves, ?sets⟩
  case moves =>
    repeat refine List.forall_mem_cons.2 ⟨fun _ _ _ s _ _ hf hv =>
      ⟨fun hc => run_of_passes (cmov_true (s := s.begin) hf hv hc),
        fun hc hw => run_of_passes (cmov_upper (s := s.begin) hf hv hc hw),
        fun hc hw => run_of_passes (cmov_false (s := s.begin) hf hv hc hw)⟩, ?_⟩
    exact List.forall_mem_nil _
  case sets =>
    repeat refine List.forall_mem_cons.2 ⟨fun _ _ _ _ hq => run_of_passes (passes_bind rfl (writeRm_passes hq)), ?_⟩
    exact List.forall_mem_nil _

/-- Settles O22. -/
theorem flagInstructionResults : Obligations.FlagInstructionResults := by
  unfold Obligations.FlagInstructionResults
  refine ⟨?flags, fun s h => ⟨?lahf, ?sahf⟩, fun s => ⟨fun h => ⟨cli_real h, sti_real h⟩,
    fun h => ⟨cli_virtual h, sti_virtual h⟩⟩, fun s h hf => ⟨?clac, ?stac⟩,
    fun s => ⟨rfl, rfl, ?nop, fun h => ⟨?lfence, ?mfence⟩, fun h => ?sfence⟩, ?prefetch⟩
  case flags => exact List.forall_iff_forall_mem.1 ⟨fun _ => rfl, fun _ => rfl, fun _ => rfl, fun _ => rfl, fun _ => rfl⟩
  case lahf => exact run_of_passes (passes_bind (passes_needLahf h) rfl)
  case sahf => exact run_of_passes (passes_bind (passes_needLahf h) rfl)
  case clac => exact run_of_passes (passes_bind (passes_needSmap h hf) rfl)
  case stac => exact run_of_passes (passes_bind (passes_needSmap h hf) rfl)
  case nop =>
    exact fun o h => run_of_passes (passes_bind (passes_get _) (passes_ensure (decide_eq_true h) _))
  case lfence => exact run_of_passes (passes_needFeature (s := s.begin) h)
  case mfence => exact run_of_passes (passes_needFeature (s := s.begin) h)
  case sfence => exact run_of_passes (passes_needFeature (s := s.begin) h)
  case prefetch =>
    exact List.forall_iff_forall_mem.1 ⟨fun _ _ => rfl, fun _ _ => rfl, fun _ _ => rfl, fun _ _ => rfl, fun _ _ => rfl,
      fun _ _ => rfl⟩

end Sys2Proof.Machine
end

section
/-! The stack instructions, near transfers, segment loads, far transfers and IRET: the laws of the shared bodies, instruction by
instruction. -/

namespace Sys2Proof.Machine

variable {s u : State}

/-- Settles O23. -/
theorem stackResults : Obligations.StackResults := by
  unfold Obligations.StackResults
  refine ⟨⟨fun _ _ _ _ _ _ _ _ => push_rm, ?pushImm, fun _ _ _ _ _ _ => pushSeg_passes, fun _ _ _ _ _ => pushSeg32_passes⟩,
    ⟨?popReg, fun _ _ _ _ _ _ _ => popMem_passes, fun _ _ _ _ _ _ _ _ _ => popSeg_passes⟩, ?all, ?flags, ?enter,
    ⟨fun _ _ _ _ _ _ _ _ _ _ => pushPlan_slots, fun _ _ _ _ => pushSlots_iff⟩, fun _ _ _ _ _ => leave_passes⟩
  case pushImm => exact fun w imm s v ass fin h => run_of_passes (push_passes h)
  case popReg =>
    exact fun w g s u v h => run_of_passes (passes_bind (pop_passes (s := s.begin) h) rfl)
  case all =>
    repeat refine List.forall_mem_cons.2 ⟨⟨fun s v ass fin hl ho h => run_of_passes (pushAll_passes hl ho h),
      fun s t hl h => run_of_passes (passes_bind (passes_notInLong (s := s.begin) hl) (popRegs_passes h))⟩, ?_⟩
    exact List.forall_mem_nil _
  case flags =>
    repeat refine List.forall_mem_cons.2 ⟨⟨fun s v ass fin hv h => run_of_passes (pushFlags_passes hv h),
      fun s u v m1 m2 m3 hv h h1 h2 h3 => run_of_passes (popFlags_passes hv h h1 h2 h3)⟩, ?_⟩
    exact List.forall_mem_nil _
  case enter =>
    exact fun w size level s u1 u2 u3 t n ass bss copies frame sp1 sp2 fin hn h1 h2 h3 hf h4 =>
      enter_passes hn h1 h2 h3 hf h4

/-- Settles O24. -/
theorem nearTransferResults : Obligations.NearTransferResults := by
  unfold Obligations.NearTransferResults
  refine ⟨?jcc, ?jcxz, ?loop, ⟨?jmpRel, ?jmpInd⟩, ?callRel, ?callInd, ?ret⟩
  case jcc =>
    repeat refine List.forall_mem_cons.2 ⟨fun w d s t ht => ⟨fun hc => run_of_passes (jcc_not hc),
      fun hc hi => run_of_passes (jcc_taken ht hc hi)⟩, ?_⟩
    exact List.forall_mem_nil _
  case jcxz =>
    have stay {a : ASize} {w : Width} {d : BitVec 8} {s : State} (h : a.trunc (s.gp rCX) ≠ 0) :
        Passes (jcxzBody a ⟨w, d⟩) s.begin () s.begin := passes_bind rfl (passes_if_neg h rfl)
    have go {a : ASize} {w : Width} {d : BitVec 8} {s : State} {t : Word} (ht : t = cutTarget w (s.ripNext + d.signExtend 64))
        (h : a.trunc (s.gp rCX) = 0) (hi : s.targetIn t) : Passes (jcxzBody a ⟨w, d⟩) s.begin () { s.begin with rip := t } :=
      passes_bind rfl (passes_if_pos h (passes_bind rfl (jumpNear_passes (s := s.begin) ht hi)))
    repeat refine List.forall_mem_cons.2 ⟨fun w d s t ht => ⟨fun h => run_of_passes (stay h),
      fun h hi => run_of_passes (go ht h hi)⟩, ?_⟩
    exact List.forall_mem_nil _
  case loop =>
    repeat refine List.forall_mem_cons.2 ⟨fun w a d s x n t hn hx ht => ⟨fun h => run_of_passes (loop_not hn hx h),
      fun h0 hc hi => run_of_passes (loop_taken hn hx ht h0 hc hi)⟩, ?_⟩
    exact List.forall_mem_nil _
  case jmpRel => exact fun w d s t ht hi => run_of_passes (passes_bind rfl (jumpNear_passes (s := s.begin) ht hi))
  case jmpInd => exact fun w m s u b t hb ht hi => run_of_passes (passes_bind hb (jumpNear_passes ht hi))
  case callRel =>
    exact fun w d s v t ass fin ht hi h => run_of_passes (passes_bind rfl (callNear_passes (s := s.begin) ht hi h))
  case callInd => exact fun w m s u v b t ass fin hb ht hi h => run_of_passes (passes_bind hb (callNear_passes ht hi h))
  case ret =>
    exact fun w imm s u x h hi => run_of_passes (passes_bind (pop_passes (s := s.begin) h) (passes_bind (checkTarget_passes hi)
      (passes_bind (passes_get _) (passes_bind rfl rfl))))

/-- Settles O25. -/
theorem segmentLoadResults : Obligations.SegmentLoadResults := by
  unfold Obligations.SegmentLoadResults
  refine ⟨⟨?load, fun _ _ _ _ => rfl, ?storeMem⟩, ?far, fun r sel s => ⟨fun c => plain_resolve c s, checkSegLoad_real,
    checkSegLoad_v86, checkSegLoad_null⟩, fun sel s u a x c hm hn ha hx hc hp => ⟨fun h1 h2 h3 => ?stack, fun r hr h1 h2 => ?data⟩⟩
  case load =>
    exact fun r src s u v t sel l as hr hs hc hm => run_of_passes (passes_bind (passes_ensure (decide_eq_true hr) _)
      (passes_bind hs (passes_bind (loadSeg_passes hc hm) rfl)))
  case storeMem => exact fun w m r s u q hq => run_of_passes (passes_bind rfl (writeRm_passes hq))
  case far =>
    refine List.forall_iff_forall_mem.1 ⟨?_, ?_, ?_, ?_, ?_⟩
    · exact fun w dst m s u v t off sel l as hl h hc hm => run_of_passes (passes_bind (passes_notInLong (s := s.begin) hl)
        (loadFarPtr_passes h hc hm))
    · exact fun w dst m s u v t off sel l as hl h hc hm => run_of_passes (passes_bind (passes_notInLong (s := s.begin) hl)
        (loadFarPtr_passes h hc hm))
    · exact fun w dst m s u v t off sel l as _ h hc hm => run_of_passes (loadFarPtr_passes h hc hm)
    · exact fun w dst m s u v t off sel l as _ h hc hm => run_of_passes (loadFarPtr_passes h hc hm)
    · exact fun w dst m s u v t off sel l as _ h hc hm => run_of_passes (loadFarPtr_passes h hc hm)
  case stack => exact checkSegLoad_stack hm hn ha hx hc h1 h2 h3 hp
  case data => exact checkSegLoad_data hm hr hn ha hx hc h1 h2 hp

/-- Settles O26. -/
theorem farTransferResults : Obligations.FarTransferResults := by
  unfold Obligations.FarTransferResults
  refine ⟨fun o s u off0 off sel ho hf => ⟨?jmpLegacy, ?jmpCode, ?jmpGate⟩, fun o s u off0 off sel ho hf => ⟨?callLegacy, ?callCode⟩,
    fun o s u v x off0 sel g d ho hl h1 h2 => ⟨?same, ?innerLong, ?innerLegacy⟩, fun _ _ _ _ _ _ => gateParams_reads,
    fun w i s imm hi h0 => ⟨?retLegacy, ?retSame, ?retOuter⟩⟩
  case jmpLegacy => exact fun hl h => jmpFar_completes ho (jmpFar_legacy hf hl h)
  case jmpCode => exact fun d as v x hl h1 h2 h3 => jmpFar_completes ho (jmpFar_code hf hl h1 h2 h3)
  case jmpGate => exact fun g d as v x y hl h1 h2 h3 h4 => jmpFar_completes ho (jmpFar_gate hl h1 h2 h3 h4)
  case callLegacy => exact fun ass fin v hl h1 h2 h3 h4 => callFar_completes ho (callFar_legacy hf hl h1 h2 h3 h4)
  case callCode => exact fun d ass fin as v x y hl h1 h2 h3 h4 h5 => callFar_completes ho (callFar_code hf hl h1 h2 h3 h4 h5)
  case same =>
    exact fun n w y z as ass fin hc hn hw h3 h4 h5 h6 =>
      callFar_completes ho (callFar_gateSame hl h1 h2 hc (callSame_passes hn hw h3 h4 h5 h6))
  case innerLong =>
    exact fun cpl rsp fin as ass w y z hc hd hp hm ht h3 h4 h5 h6 =>
      callFar_completes ho (callFar_gateInner hl h1 h2 hc hd (callInner_long hm hp (tssWord_passes ht) h3 h4 h5 h6))
  case innerLegacy =>
    exact fun n cpl ss size esp sp1 fin sas as as1 as2 params u1 u2 u3 u4 u5 u6 hc hd hp hm hn hs hz h3 h4 h5 h6 h7 h8 h9 =>
      callFar_completes ho (callFar_gateInner hl h1 h2 hc hd
        (callInner_legacy hm hn hp (innerStack_passes hs) hz h3 h4 h5 h6 h7 h8 h9))
  case retLegacy => exact fun a b u v hl h1 h2 h3 h4 => ⟨_, rfl, retFar_legacy hi hl h0 h1 h2 h3 h4⟩
  case retSame => exact fun a b u v x y d as hl h1 h2 h3 h4 h5 h6 => retFar_same hi hl h0 h1 h2 h3 h4 h5 h6
  case retOuter =>
    exact fun a b c e u v x y z r q1 q d ss as sas hl h1 h2 h3 h4 h00 h5 h6 h7 h8 h9 h10 =>
      ⟨_, rfl, retFar_outer hi hl h0 h1 h2 h3 h4 h00 h5 h6 h7 h8 h9 h10⟩

/-- Settles O27. -/
theorem interruptReturnResults : Obligations.InterruptReturnResults := by
  unfold Obligations.InterruptReturnResults
  refine ⟨?legacy, ?table, ?v86⟩
  case legacy =>
    repeat refine List.forall_mem_cons.2 ⟨fun a b f s u v x h0 h1 h2 h3 h4 =>
      ⟨fun hm => run_of_passes (iret_real hm h0 h1 h2 h3 h4), fun hm hi => run_of_passes (iret_v86 hm hi h0 h1 h2 h3 h4)⟩, ?_⟩
    exact List.forall_mem_nil _
  case table =>
    repeat refine List.forall_mem_cons.2 ⟨fun a b f s u v x y d as hm hn h0 h1 h2 h3 hv h4 h5 =>
      ⟨fun z hr hl h6 => run_of_passes (iret_same hm hn h0 h1 h2 h3 hv h4 h5 hr hl h6),
        fun c e y1 y2 y3 z1 z ss sas hr h00 h6 h7 h8 h9 h10 =>
          ⟨_, rfl, run_of_passes (iret_outer hm hn h0 h1 h2 h3 hv h4 h5 hr h00 h6 h7 h8 h9 h10)⟩⟩, ?_⟩
    exact List.forall_mem_nil _
  case v86 =>
    repeat refine List.forall_mem_cons.2 ⟨fun a b f esp ss es ds fs gs s u v x t1 t2 t3 t4 t5 t hm hn hc hv h0 h1 h2 h3 h00 h4 h5 h6
      h7 h8 h9 h10 => run_of_passes (iret_toV86 hm hn hc hv h0 h1 h2 h3 (iretToV86_at h1 h2 h3 h00 h4 h5 h6 h7 h8 h9 h10)), ?_⟩
    exact List.forall_mem_nil _

end Sys2Proof.Machine
end

section
/-! Interrupts and their delivery, strings, ports, waiting and caches. -/

namespace Sys2Proof.Machine

variable {s u : State}

/-- Settles O28. -/
theorem softwareInterruptResults : Obligations.SoftwareInterruptResults := by
  unfold Obligations.SoftwareInterruptResults
  refine ⟨⟨?intN, ?int3, ?into⟩, ⟨fun _ => into_not, ?bound⟩, ?undefined, ⟨fun _ _ _ => deliverOnce_passes, ?exceptions⟩,
    ⟨fun _ _ _ _ => deliverOnce_raises, fun _ _ => deliverOnce_iopl, fun _ _ _ hi hn => deliverTable_limit hi hn⟩,
    fun e s u g h => ⟨deliverTable_type h, deliverTable_dpl h, deliverTable_absent h, fun _ _ => deliverTable_gate h⟩,
    ⟨fun e g s hn => deliverGate_null hn _, fun e g s hn ha => deliverGate_noDesc hn ha _, fun e g cs s u hd =>
      ⟨fun h => deliverGate_serves h hd, fun h hp => deliverGate_absent h hp hd, fun h hp hv => deliverGate_v86 h hp hv hd⟩⟩,
    ?nested⟩
  case intN => exact fun n s t hr h => takeSoftware_passes hr (deliverOnce_passes h)
  case int3 => exact fun s t hr h => takeSoftware_passes hr (deliverOnce_passes h)
  case into => exact fun s t hr hl ho h => into_passes hr hl ho (deliverOnce_passes h)
  case bound =>
    exact fun w r m s u v lo hi hl h1 h2 h3 => run_of_passes (passes_bind (passes_notInLong (s := s.begin) hl)
      (passes_bind (passes_get _) (passes_bind h1 (passes_bind h2 (passes_bind rfl (passes_ensure (decide_eq_true h3) _))))))
  case undefined =>
    exact List.forall_iff_forall_mem.1 ⟨fun s t hr h => takeUD_passes hr (deliverOnce_passes h),
      fun s t hr h => takeUD_passes hr (deliverOnce_passes h)⟩
  case exceptions => exact fun x s y t hr hy h => takeException_delivers hr hy h
  case nested =>
    exact fun n s u x hr hx hc ha h => takeSoftware_raises hr (by decide)
      (by rcases hx with hx | hx <;> rw [hx] <;> decide) hc ha h

/-- Settles O29. -/
theorem stringResults : Obligations.StringResults := by
  unfold Obligations.StringResults
  refine ⟨?movs, ?cmps, ?lods, ?stos, ?scas, ?ports, fun o s u n hn => ⟨rep_zero hn, rep_step hn⟩, ?compare⟩
  case movs =>
    repeat refine List.forall_mem_cons.2 ⟨fun a s t => ⟨fun h => run_of_passes (movs_passes h),
      fun r h => run_of_passes (movs_passes h)⟩, ?_⟩
    exact List.forall_mem_nil _
  case cmps =>
    repeat refine List.forall_mem_cons.2 ⟨fun a s t => ⟨fun h => run_of_passes (cmps_passes h),
      fun r h => run_of_passes (cmps_passes h)⟩, ?_⟩
    exact List.forall_mem_nil _
  case lods =>
    repeat refine List.forall_mem_cons.2 ⟨fun a s t => ⟨fun h => run_of_passes (lods_passes h),
      fun r h => run_of_passes (lods_passes h)⟩, ?_⟩
    exact List.forall_mem_nil _
  case stos =>
    repeat refine List.forall_mem_cons.2 ⟨fun a s t h => ⟨run_of_passes (stos_passes h),
      fun _ => run_of_passes (stos_passes h)⟩, ?_⟩
    exact List.forall_mem_nil _
  case scas =>
    repeat refine List.forall_mem_cons.2 ⟨fun a s t h => ⟨run_of_passes (scas_passes h),
      fun _ => run_of_passes (scas_passes h)⟩, ?_⟩
    exact List.forall_mem_nil _
  case ports =>
    repeat refine List.forall_mem_cons.2 ⟨fun a s t => ⟨fun h => ⟨run_of_passes (ins_passes h),
      fun _ => run_of_passes (ins_passes h)⟩, fun h => run_of_passes (outs_passes h), fun r h => run_of_passes (outs_passes h)⟩, ?_⟩
    exact List.forall_mem_nil _
  case compare =>
    exact List.forall_iff_forall_mem.1 ⟨fun o s u n hn => ⟨repe_zero hn, repe_step hn⟩,
      fun o s u n hn => ⟨repne_zero hn, repne_step hn⟩⟩

/-- Settles O30. -/
theorem portResults : Obligations.PortResults := by
  unfold Obligations.PortResults
  exact ⟨fun w p s u h => ⟨run_of_passes (passes_bind (passes_get _) (passes_bind h (passes_bind rfl rfl))),
    run_of_passes (passes_bind (passes_get _) (passes_bind h (passes_bind rfl rfl)))⟩, fun port n s => ioCheck_free⟩

/-- Settles O31. -/
theorem haltAndCacheResults : Obligations.HaltAndCacheResults := by
  unfold Obligations.HaltAndCacheResults
  refine ⟨fun s h => ⟨?hlt, ?invd, ?wbinvd, fun _ => ?invlpg, ?invpcid⟩, ?clflush, fun s hf hc hm => ⟨?monitor, ?mwait⟩,
    fun s r hr => hr ▸ cpuid_completes s⟩
  case hlt => exact run_of_passes (passes_bind (passes_needCpl0 (s := s.begin) h) rfl)
  case invd => exact run_of_passes (passes_needCpl0 (s := s.begin) h)
  case wbinvd => exact run_of_passes (passes_needCpl0 (s := s.begin) h)
  case invlpg => exact run_of_passes (passes_needCpl0 (s := s.begin) h)
  case invpcid =>
    exact fun w r m u d hf hd hk => run_of_passes (passes_bind (passes_needFeature (s := s.begin) hf)
      (passes_bind (passes_needCpl0 (s := s.begin) h) (passes_bind hd (passes_bind rfl (passes_bind (passes_get _)
        (passes_ensure hk _))))))
  case clflush =>
    exact fun m s u a hf hv ha => run_of_passes (passes_bind (passes_needFeature (s := s.begin) hf)
      (passes_bind (passes_get _) (clflush_passes hv ha)))
  case monitor =>
    exact fun o u as he h => run_of_passes (passes_bind (passes_needMonitor (s := s.begin) hf hc hm) (passes_bind rfl
      (passes_bind (passes_ensure (decide_eq_true he) _) (passes_bind rfl (passes_bind h rfl)))))
  case mwait => exact fun e he h1 h2 => mwait_completes hf hc hm he h1 h2

end Sys2Proof.Machine
end

section
/-! Control and debug registers, descriptor tables, model-specific registers, counters and bases, fast system calls. -/

namespace Sys2Proof.Machine

variable {s u : State}

/-- Settles O32. -/
theorem controlRegisterResults : Obligations.ControlRegisterResults := by
  unfold Obligations.ControlRegisterResults
  refine ⟨fun r s cr h => ⟨fun hc => ⟨_, movCr_store h hc⟩, ⟨_, movCr_cr2 h⟩, fun v hv => ⟨fun u ho hp => ⟨_, movCr_cr0 h hv ho hp⟩,
    fun u ho hp => ⟨_, movCr_cr3 h hv ho hp⟩, fun u ho hp => ⟨_, movCr_cr4 h hv ho hp⟩, fun hl h8 => ⟨_, movCr_cr8 h hv hl h8⟩⟩⟩,
    fun r dr s n h hg h1 h2 => ⟨⟨_, movDr_store h hg h1 h2⟩, fun v hv hn => ⟨_, movDr_load h hg h1 h2 hv hn⟩⟩,
    fun s h => ⟨?clts, ?lmsw⟩, fun s => ⟨fun g hl => ⟨_, smsw_free hl⟩, fun w g => smsw_reg, fun w m u q => smsw_mem⟩⟩
  case clts => exact run_of_passes (passes_bind (passes_needCpl0 (s := s.begin) h) rfl)
  case lmsw => exact fun o u v hv => run_of_passes (passes_bind (passes_needCpl0 (s := s.begin) h) (passes_bind hv rfl))

/-- Settles O33. -/
theorem descriptorTableResults : Obligations.DescriptorTableResults := by
  unfold Obligations.DescriptorTableResults
  refine ⟨fun o s => ⟨fun u t hp ht => ⟨?lgdt, ?lidt⟩, ?store⟩, fun s u o sel hl hp h => ⟨lldt_null hl hp h,
    fun v a d c hn hd hc hs hpr => ⟨lldt_desc hl hp h hn hd hc hs hpr, fun x as => ltr_desc hl hp h hn hd hc hs hpr⟩⟩,
    fun s hl => ⟨fun w g => ⟨?sldtReg, ?strReg⟩, fun w m u q hq => ⟨?sldtMem, ?strMem⟩⟩,
    fun s u v src sel r hl h hi => ⟨fun w dst => lar_not hl h hi, ?lar, fun w dst => lsl_not hl h hi, ?lsl, ?verify⟩⟩
  case lgdt => exact run_of_passes (passes_bind (passes_needCpl0 (s := s.begin) hp) (passes_bind ht rfl))
  case lidt => exact run_of_passes (passes_bind (passes_needCpl0 (s := s.begin) hp) (passes_bind ht rfl))
  case store =>
    have store {t : TableReg} {n : Nat} {u v : State} {a b : List Nat} (hn : n = (if o.w = .w64 then 8 else 4))
        (ha : Passes (resolve o.mem.seg .write 2 1 (s.ea o.mem) 2) s.begin a u)
        (hb : Passes (resolve o.mem.seg .write 4 1 (s.ea o.mem + 2) n) u b v) : Passes (storeTable o t) s.begin ()
          ((v.physWrite a t.limit.toNat).physWrite b
            (if o.w = .w16 then t.base.toNat % 2 ^ 24 else t.base.toNat % 2 ^ (8 * n))) := by
      subst hn
      exact passes_bind (passes_get _) (passes_bind ha (passes_bind hb (passes_bind rfl rfl)))
    exact List.forall_iff_forall_mem.1 ⟨fun n u v a b hn ha hb => run_of_passes (passes_bind (passes_get _) (store hn ha hb)),
      fun n u v a b hn ha hb => run_of_passes (passes_bind (passes_get _) (store hn ha hb))⟩
  case sldtReg => exact run_of_passes (passes_bind (passes_needProtected (s := s.begin) hl) rfl)
  case strReg => exact run_of_passes (passes_bind (passes_needProtected (s := s.begin) hl) rfl)
  case sldtMem =>
    exact run_of_passes (passes_bind (passes_needProtected (s := s.begin) hl) (passes_bind (passes_get _) (writeRm_passes hq)))
  case strMem =>
    exact run_of_passes (passes_bind (passes_needProtected (s := s.begin) hl) (passes_bind (passes_get _) (writeRm_passes hq)))
  case lar =>
    rintro w dst c d rfl hm
    exact ⟨_, lar_yes hl h hi hm⟩
  case lsl =>
    rintro w dst c d rfl hm
    exact lsl_yes hl h hi hm
  case verify =>
    refine List.forall_iff_forall_mem.1 ⟨⟨?_, ?_⟩, ?_, ?_⟩
    · rintro rfl
      exact run_of_passes (verify_none hl h hi)
    · rintro c d rfl
      exact run_of_passes (verify_some hl h hi)
    · rintro rfl
      exact run_of_passes (verify_none hl h hi)
    · rintro c d rfl
      exact run_of_passes (verify_some hl h hi)

/-- Settles O34. -/
theorem specialRegisterResults : Obligations.SpecialRegisterResults := by
  unfold Obligations.SpecialRegisterResults
  refine ⟨fun s a h ha => ⟨rdmsr_tsc h ha, fun v => rdmsr_value h ha, wrmsr_passes h ha⟩,
    fun s => ⟨fun h hf => ?rdtsc, fun h hf => ?rdtscp, rdpmc_passes, ?random⟩,
    fun s => ⟨fun h hc => ⟨?rdpkru, fun hd => wrpkru_passes h hc hd⟩, fun hx => ⟨fun hc => ?xcr0, xgetbv_one hx⟩, xsetbv_passes⟩,
    fun s hl => ⟨?bases, fun hc => ?swapgs⟩⟩
  case rdtsc =>
    exact run_of_passes (passes_bind (passes_needFeature (s := s.begin) hf) (passes_bind (passes_needTsc (s := s.begin) h) rfl))
  case rdtscp =>
    exact run_of_passes (passes_bind (passes_needFeature (s := s.begin) hf) (passes_bind (passes_needTsc (s := s.begin) h) rfl))
  case random =>
    exact List.forall_iff_forall_mem.1 ⟨
      fun hf w r => ⟨_, _, run_of_passes (passes_bind (passes_needFeature (s := s.begin) hf) rfl)⟩,
      fun hf w r => ⟨_, _, run_of_passes (passes_bind (passes_needFeature (s := s.begin) hf) rfl)⟩⟩
  case rdpkru =>
    exact run_of_passes (passes_bind (passes_bind (passes_get _) (passes_ensure h _)) (passes_bind rfl
      (passes_bind (passes_ensure (decide_eq_true hc) _) rfl)))
  case xcr0 =>
    exact run_of_passes (passes_bind (passes_needOsXsave (s := s.begin) hx) (passes_bind (passes_get _) (passes_bind rfl
      (passes_if_pos hc rfl))))
  case bases =>
    refine List.forall_iff_forall_mem.1 ⟨fun w r hc hf => ⟨?_, fun hn => ?_⟩, fun w r hc hf => ⟨?_, fun hn => ?_⟩⟩
    · exact run_of_passes (passes_bind (passes_needFsGsBase (s := s.begin) hl hc hf) rfl)
    · exact run_of_passes (passes_bind (passes_needFsGsBase (s := s.begin) hl hc hf) (passes_bind rfl
        (passes_bind (passes_ensure hn _) rfl)))
    · exact run_of_passes (passes_bind (passes_needFsGsBase (s := s.begin) hl hc hf) rfl)
    · exact run_of_passes (passes_bind (passes_needFsGsBase (s := s.begin) hl hc hf) (passes_bind rfl
        (passes_bind (passes_ensure hn _) rfl)))
  case swapgs =>
    exact run_of_passes (passes_bind (passes_get _) (passes_bind (passes_ensure hl _)
      (passes_bind (passes_ensure (decide_eq_true hc) _) rfl)))

/-- Settles O35. -/
theorem fastSystemCallResults : Obligations.FastSystemCallResults := by
  unfold Obligations.FastSystemCallResults
  refine ⟨fun s hf hl he => ⟨?syscall, ?sysret⟩, fun s hf hp hn => ⟨?sysenter, ?sysexit⟩⟩
  case syscall =>
    exact run_of_passes (passes_bind (passes_needFeature (s := s.begin) hf) (passes_bind (passes_get _)
      (passes_bind (passes_ensure (Bool.and_eq_true_iff.2 ⟨hl, he⟩) _) rfl)))
  case sysret =>
    rintro w cs hc hx rfl
    exact run_of_passes (passes_bind (passes_needFeature (s := s.begin) hf) (passes_bind (passes_get _)
      (passes_bind (passes_ensure (Bool.and_eq_true_iff.2 ⟨hl, he⟩) _)
        (passes_bind (passes_ensure (Bool.and_eq_true_iff.2 ⟨decide_eq_true hc, hx⟩) _) rfl))))
  case sysenter =>
    exact run_of_passes (passes_bind (passes_needFeature (s := s.begin) hf) (passes_bind (passes_get _)
      (passes_bind (passes_ensure (Bool.and_eq_true_iff.2 ⟨hp, congrArg (!·) hn⟩) _) rfl)))
  case sysexit =>
    rintro w cs hc hw rfl
    exact run_of_passes (passes_bind (passes_needFeature (s := s.begin) hf) (passes_bind (passes_get _)
      (passes_bind (passes_ensure (Bool.and_eq_true_iff.2 ⟨Bool.and_eq_true_iff.2 ⟨hp, congrArg (!·) hn⟩, hc⟩) _)
        (passes_bind (passes_ensure (sysexit_canonical hw) _) rfl))))

end Sys2Proof.Machine
end

section
namespace Sys2Proof.Machine
open Obligations

variable {s t u : State}

/-- What `XBEGIN` does below the nesting limit: a deeper level, or the start of a transaction. -/
theorem xbegin_deepens {o : XbeginOps} (hf : s.has .rtm = true) (hn : s.rtm.nest < s.cfg.maxRtmNest) (h0 : s.rtm.nest ≠ 0) :
    Completes (.xbegin o) s { s.begin with rtm := { s.rtm with nest := s.rtm.nest + 1 } } :=
  run_of_passes (passes_bind (passes_needFeature hf) (passes_bind (passes_get _)
    (passes_if_pos hn (passes_if_neg h0 rfl))))

theorem xbegin_starts {o : XbeginOps} {fb : Word} (hf : s.has .rtm = true) (hn : s.rtm.nest < s.cfg.maxRtmNest)
    (h0 : s.rtm.nest = 0)
    (hfb : fb = (if s.isLong then s.ripNext + o.rel.signExtend 64
      else cutTarget (if o.w = .w16 then .w16 else .w32) (s.ripNext + o.rel.signExtend 64))) (ht : s.targetIn fb) :
    Completes (.xbegin o) s { s.begin with rtm := { nest := 1, fallback := fb, snapshot := some s.begin.snapshot } } := by
  subst hfb
  exact run_of_passes (passes_bind (passes_needFeature hf) (passes_bind (passes_get _)
    (passes_if_pos hn (passes_if_pos h0 (passes_bind (checkTarget_passes (s := s.begin) ht) rfl)))))

theorem xend_inner (hf : s.has .rtm = true) (hs : s.rtm.snapshot.isSome = true) (hn : 1 < s.rtm.nest) :
    Completes .xend s { s.begin with rtm := { s.rtm with nest := s.rtm.nest - 1 } } :=
  run_of_passes (passes_bind (passes_needFeature hf) (passes_bind (passes_get _) (passes_bind (passes_ensure hs _)
    (passes_if_neg (Nat.not_le.2 hn) rfl))))

theorem rtmAbort_of_no_snapshot {st : BitVec 32} (h : s.rtm.snapshot = none) : s.rtmAbort st = s := by
  unfold State.rtmAbort
  rw [h]

theorem xabort_completes (imm : BitVec 8) (hf : s.has .rtm = true) :
    Completes (.xabort imm) s (s.begin.rtmAbort ((imm.setWidth 32 <<< 24) ||| 1)) :=
  run_of_passes (passes_bind (passes_needFeature hf) rfl)

/-- `XCHG` with memory, whose two values are those of the state in which the place is fixed. -/
theorem xchg_mem_completes {w : Width} {m : MemRef} {r : Gp} {q : Place}
    (hq : Passes (place .write w (.mem m)) s.begin q u) :
    Completes (.xchg ⟨w, .mem m, r⟩) s ((u.setPlace w q (u.gpVal w r)).setGpVal w r (u.placeVal w q)) :=
  run_of_passes (passes_bind hq rfl)

/-- The hinted form of a move to memory stores the register of the state before the access. -/
theorem xrelease_movReg_completes {w : Width} {m : MemRef} {r : Gp} {q : Place}
    (hq : Passes (place .write w (.mem m)) s.begin q u) :
    Completes (.xrelease (.movReg w m r)) s (u.setPlace w q (s.gpVal w r)) :=
  run_of_passes (passes_bind rfl (passes_bind hq rfl))

theorem xrelease_movImm_completes {w : Width} {m : MemRef} {q : Place} (imm : BitVec 32)
    (hq : Passes (place .write w (.mem m)) s.begin q u) :
    Completes (.xrelease (.movImm w m imm)) s (u.setPlace w q ((imm.signExtend 64).setWidth w.bits)) :=
  run_of_passes (passes_bind hq rfl)

/-- Settles O36: the plain and the prefixed form run the same body, and each transaction instruction is taken by its branches. -/
theorem transactionResults : Obligations.TransactionResults := by
  unfold Obligations.TransactionResults
  refine ⟨?lock, ?hints, ?xbegin, ?xend, ?xabort, ?xtest⟩
  case lock =>
    intro f hf l s h
    simp only [List.mem_cons, List.not_mem_nil, or_false] at hf
    obtain rfl | rfl | rfl := hf
    · exact lock_completes rfl h
    · exact lock_completes rfl h
    · exact lock_completes rfl h
  case hints =>
    intro w m r s u q hq
    exact ⟨fun t ht => ⟨ht, ht⟩, xchg_mem_completes hq, xrelease_movReg_completes hq,
      fun imm => xrelease_movImm_completes imm hq⟩
  case xbegin =>
    intro o s hf hn
    exact ⟨xbegin_deepens hf hn, fun h0 fb hfb ht => xbegin_starts hf hn h0 hfb ht⟩
  case xend =>
    intro s hf hs
    exact ⟨xend_commits hf hs, fun st => xend_fails hf hs, xend_inner hf hs⟩
  case xabort =>
    intro imm s hf
    refine ⟨xabort_completes imm hf, fun hs => ?_⟩
    have h := xabort_completes imm hf
    rwa [rtmAbort_of_no_snapshot (s := s.begin) hs] at h
  case xtest =>
    intro s hf
    exact run_of_passes (passes_bind (passes_get _) (passes_bind (passes_ensure hf _) rfl))

/-- Settles O37: the check of each field, in the order the listing makes them, then the stores. -/
theorem saveAreaResults : Obligations.SaveAreaResults := by
  unfold Obligations.SaveAreaResults
  refine ⟨?fxsave, ?fxrstor, ?xsave, ?xsavec⟩
  case fxsave =>
    have key : ∀ {wide : Bool} {i : Instr} {m : MemRef} {s u : State} {as : List Nat}, exec i s = run (fxsave wide m) s →
        s.has .fxsr = true → s.cr0Bit 2 = false → s.cr0Bit 3 = false → (s.mode = .real → (s.ea m).toNat + 511 ≤ 0xFFFF) →
        Passes (resolve m.seg .write 1 16 (s.ea m) 512) s.begin as u →
        ∃ v, Completes i s ({ u with free := u.free + 1 }.withFields as (s.x87Head wide ++ s.x87Regs ++ s.sseImage v)) :=
      fun hi hf hm ht hs ha => ⟨_, hi.trans (run_of_passes (fxsave_passes (s := State.begin _) hf hm ht hs ha))⟩
    repeat refine List.forall_mem_cons.2 ⟨fun m s u as => key rfl, ?_⟩
    exact List.forall_mem_nil _
  case fxrstor =>
    have key : ∀ {wide : Bool} {i : Instr} {m : MemRef} {s u : State} {as : List Nat} {n : Nat},
        exec i s = run (fxrstor wide m) s → s.has .fxsr = true → s.cr0Bit 2 = false → s.cr0Bit 3 = false →
        (s.mode = .real → (s.ea m).toNat + 511 ≤ 0xFFFF) → Passes (resolve m.seg .read 1 16 (s.ea m) 512) s.begin as u →
        n = u.mem.readList as → badMxcsr (n / 2 ^ 192) = false →
        ∃ (sel : BitVec 32) (x : BitVec 2064), ∀ mx xs, (mx, xs) = (if s.cr4Bit 9 then (n / 2 ^ 192 % 2 ^ 32, n / 2 ^ 1280)
            else (x.toNat % 2 ^ 16, x.toNat / 2 ^ 16)) →
          Completes i s { State.loadXmms { u with fpu := fpuOfImage wide sel n (n / 2 ^ 256), free := u.free + 2 } xs with
            mxcsr := BitVec.ofNat 32 mx } :=
      fun hi hf hm ht hs ha hn hx => ⟨_, _, fun mx xs h9 =>
        hi.trans (run_of_passes (fxrstor_passes (s := State.begin _) hf hm ht hs ha hn hx h9))⟩
    repeat refine List.forall_mem_cons.2 ⟨fun m s u as n => key rfl, ?_⟩
    exact List.forall_mem_nil _
  case xsave =>
    have key : ∀ {own : Option Config.Feature} {opt wide : Bool} {i : Instr} {m : MemRef} {s u1 u2 u3 : State}
        {low high : List (List Nat × Nat)} {head : List Nat} {r : Word} {saved : Nat → Bool},
        exec i s = run (xsaveStd own opt wide m) s → XsaveImage own false m s → r = s.rfbm false →
        (∀ i, saved i = (r.getLsbD i && (!opt || s.xinuse.getLsbD i))) →
        Passes (placeParts m (s.legacyParts wide (saved 0) (r.getLsbD 1 || r.getLsbD 2) (saved 1))) s.begin low u1 →
        Passes (resolvePart .write m 512 8) u1 head u2 →
        Passes (placeParts m (if saved 2 then s.avxParts else [])) u2 high u3 →
        Completes i s (((u3.withParts low).withParts high).physWrite head
          ((BitVec.ofNat 64 (u3.mem.readList head) &&& ~~~r) ||| (s.xinuse &&& r)).toNat) := by
      rintro own opt wide i m s u1 u2 u3 low high head r saved hi h rfl hsv hl hh hhi
      exact hi.trans (run_of_passes (xsaveStd_passes (s := s.begin) h (hsv 0) (hsv 1) (hsv 2) rfl hl hh hhi))
    repeat refine List.forall_mem_cons.2 ⟨fun m s u1 u2 u3 low high head r saved => key rfl, ?_⟩
    exact List.forall_mem_nil _
  case xsavec =>
    have key : ∀ {own : Config.Feature} {sup wide : Bool} {i : Instr} {m : MemRef} {s u1 u2 u3 : State}
        {low head high : List (List Nat × Nat)} {bv : Word}, exec i s = run (xsaveCompact own sup wide m) s →
        XsaveImage (some own) sup m s → bv = (s.xinuse ||| if s.mxcsr = 0x1F80 then 0 else 2) &&& s.rfbm sup →
        Passes (placeParts m (s.legacyParts wide (bv.getLsbD 0) (bv.getLsbD 1) (bv.getLsbD 1))) s.begin low u1 →
        Passes (placeParts m [⟨512, 8, bv.toNat⟩, ⟨520, 8, (s.rfbm sup ||| 0x8000000000000000).toNat⟩]) u1 head u2 →
        Passes (placeParts m (if bv.getLsbD 2 then s.avxParts else [])) u2 high u3 →
        Completes i s (((u3.withParts low).withParts high).withParts head) :=
      fun hi h hb hl hh hhi => hi.trans (run_of_passes (xsaveCompact_passes (s := State.begin _) h hb hl hh hhi))
    repeat refine List.forall_mem_cons.2 ⟨fun m s u1 u2 u3 low head high bv => key rfl, ?_⟩
    exact List.forall_mem_nil _

/-- Settles O38: one restore serves the four forms. -/
theorem xrstorResults : Obligations.XrstorResults := by
  unfold Obligations.XrstorResults
  have key : ∀ {own : Option Config.Feature} {sup wide : Bool} {i : Instr} (m : MemRef) (s u1 u2 u3 u4 u5 u6 u7 : State)
      (hd rs a0 a1 a2 a3 a4 : List Nat) (rfbm bv comp : Word) (mx : Bool), exec i s = run (xrestore own sup wide m) s →
      XsaveImage own sup m s → rfbm = s.rfbm sup →
      Passes (resolvePart .read m 512 16) s.begin hd u1 → bv = BitVec.ofNat 64 (u1.mem.readList hd) →
      comp = BitVec.ofNat 64 (u1.mem.readList hd / 2 ^ 64) →
      Passes (resolvePart .read m 528 (if comp.getLsbD 63 then 48 else 8)) u1 rs u2 →
      mx = (if comp.getLsbD 63 then rfbm.getLsbD 1 && bv.getLsbD 1 else rfbm.getLsbD 1 || rfbm.getLsbD 2) →
      Passes (readIf (rfbm.getLsbD 0 && bv.getLsbD 0) m 0 24) u2 a0 u3 → Passes (readIf mx m 24 4) u3 a1 u4 →
      Passes (readIf (rfbm.getLsbD 0 && bv.getLsbD 0) m 32 128) u4 a2 u5 →
      Passes (readIf (rfbm.getLsbD 1 && bv.getLsbD 1) m 160 (16 * u2.imageRegs.length)) u5 a3 u6 →
      Passes (readIf (rfbm.getLsbD 2 && bv.getLsbD 2) m 576 (16 * u2.imageRegs.length)) u6 a4 u7 →
      headerOk sup (u2.has .xsavec) (if sup then u2.sys.xcr0 ||| u2.msr.xss else u2.sys.xcr0) bv comp
        (u2.mem.readList rs) = true → badMxcsr (u7.mem.readList a1) = false →
      ∃ sel, Completes i s (u7.restored wide (comp.getLsbD 63) mx rfbm bv (u7.xrstorInfo m comp) sel (u7.mem.readList a0)
        (u7.mem.readList a2) (u7.mem.readList a3) (u7.mem.readList a4) (u7.mem.readList a1)) := by
    intro own sup wide i m s u1 u2 u3 u4 u5 u6 u7 hd rs a0 a1 a2 a3 a4 rfbm bv comp mx hi h hr hh hb hc hs hm p0 p1 p2 p3 p4 ho hx
    exact ⟨_, hi.trans (run_of_passes (xrestore_passes (s := s.begin) h hr hh hb hc hs hm p0 p1 p2 p3 p4 ho hx))⟩
  refine List.forall_mem_cons.2 ⟨?_, List.forall_mem_cons.2 ⟨?_, List.forall_mem_cons.2 ⟨?_, List.forall_mem_cons.2
    ⟨?_, List.forall_mem_nil _⟩⟩⟩⟩
  · intro m s u1 u2 u3 u4 u5 u6 u7 hd rs a0 a1 a2 a3 a4 rfbm bv comp mx
    exact key m s u1 u2 u3 u4 u5 u6 u7 hd rs a0 a1 a2 a3 a4 rfbm bv comp mx rfl
  · intro m s u1 u2 u3 u4 u5 u6 u7 hd rs a0 a1 a2 a3 a4 rfbm bv comp mx
    exact key m s u1 u2 u3 u4 u5 u6 u7 hd rs a0 a1 a2 a3 a4 rfbm bv comp mx rfl
  · intro m s u1 u2 u3 u4 u5 u6 u7 hd rs a0 a1 a2 a3 a4 rfbm bv comp mx
    exact key m s u1 u2 u3 u4 u5 u6 u7 hd rs a0 a1 a2 a3 a4 rfbm bv comp mx rfl
  · intro m s u1 u2 u3 u4 u5 u6 u7 hd rs a0 a1 a2 a3 a4 rfbm bv comp mx
    exact key m s u1 u2 u3 u4 u5 u6 u7 hd rs a0 a1 a2 a3 a4 rfbm bv comp mx rfl

end Sys2Proof.Machine
end

section
namespace Sys2Proof.Machine
open Obligations

variable {s t u v : State}

/-! Rules about a step in an undisturbed state. -/

theorem Undisturbed.step_eq (h : Undisturbed s) : step s = runInstr s := by
  obtain ⟨hp, hs, hh, hw, hd, hb⟩ := h
  simp [step, hp, hs, hh, hw, hd, hb, State.acceptedIntr, State.hostAbort]

theorem fetchBytes_accessOnly {n : Nat} (h : Passes (fetchBytes n) s () t) : AccessOnly s t := by
  unfold fetchBytes at h
  rw [passes_get_bind] at h
  split at h
  · obtain ⟨as, u, h, h2⟩ := passes_bind_iff.1 h
    obtain ⟨-, rfl⟩ := passes_pure_iff.1 h2
    exact translateRange_accessOnly h
  · exact absurd h (by simp [raiseGP, passes_raise_iff])

theorem runInstr_decoded {d : Decoded} (hd : decode s.cmode (s.codeBytes 15 0) = .ok d) (hf : Passes (fetchBytes d.len) s () t) :
    runInstr s = exec d.instr (t.atInstr d.len d.fop) := by
  have h : Passes fetch s d t := by
    refine passes_bind (passes_get s) ?_
    dsimp only
    rw [hd]
    exact passes_bind hf rfl
  unfold runInstr
  rw [show fetch.run s = .ok d t from h]

theorem runInstr_undefined (hd : decode s.cmode (s.codeBytes 15 0) = .error .undefined) (hf : Passes (fetchBytes 1) s () t) :
    runInstr s = takeException { vec := 6 } t := by
  have h : Raises fetch s { vec := 6 } t := by
    refine raises_after (passes_get s) ?_
    dsimp only
    rw [hd]
    exact raises_after hf rfl
  unfold runInstr
  rw [show fetch.run s = _ from h]

/-- Settles O39. -/
theorem stepRunsInstruction : Obligations.StepRunsInstruction := by
  unfold Obligations.StepRunsInstruction
  refine ⟨fun s t d hs hd hf => ⟨fetchBytes_accessOnly hf, ?_⟩, fun s t hs hd hf => ?_⟩
  · rw [hs.step_eq, runInstr_decoded hd hf]
  · rw [hs.step_eq, runInstr_undefined hd hf]

/-! The state after reset. -/

theorem resetWith_segOf (cfg : Config.Params) (m : Memory) (io : List IoEvent) (n : Nat) (r : SReg) :
    (State.resetWith cfg m io n).segOf r = if r = .cs then SegCache.resetCode else SegCache.resetData := by
  cases r <;> rfl

theorem resetWith_gp (cfg : Config.Params) (m : Memory) (io : List IoEvent) (n : Nat) (r : Reg) :
    (State.resetWith cfg m io n).gp r = if r = rDX then cfg.signature.setWidth 64 else 0 := by
  fin_cases r <;> rfl

theorem resetWith_mode (cfg : Config.Params) (m : Memory) (io : List IoEvent) (n : Nat) :
    (State.resetWith cfg m io n).mode = .real := by
  have h : (State.resetWith cfg m io n).pe = false := show BitVec.getLsbD (0x60000010 : Word) 0 = false by decide
  simp [State.mode, h]

/-- Settles O45: every value is read off the table of `State.resetWith`. -/
theorem resetValues : Obligations.ResetValues := by
  unfold Obligations.ResetValues
  refine ⟨?_, rfl, rfl, rfl⟩
  rintro s t rfl
  refine ⟨rfl, rfl, resetWith_mode _ _ _ _, rfl, rfl, rfl, fun r => ?limits, fun r hr => ?others, fun r => resetWith_gp _ _ _ _ r, rfl, rfl, rfl, rfl,
    rfl, rfl, rfl, rfl, rfl, rfl, rfl, rfl, rfl, rfl, rfl, rfl, show Fpu.reset.statusWord = 0 by decide, rfl, fun h => ?memory⟩
  case limits => cases r <;> exact ⟨rfl, rfl⟩
  case others =>
    rw [show s.doReset.segOf r = SegCache.resetData from (resetWith_segOf _ _ _ _ r).trans (if_neg hr)]
    exact ⟨rfl, rfl⟩
  case memory => simp [State.doReset, h, State.resetWith]

/-! A store is read back. -/

theorem Memory.readList_writeList (as : List Nat) (m : Memory) (v : Nat) (hm : m.wf = true) (hn : as.Nodup) :
    (m.writeList as v).readList as = v % 2 ^ (8 * as.length) := by
  induction as generalizing m v with
  | nil => simp [Memory.readList, Nat.mod_one]
  | cons a as ih =>
    obtain ⟨ha, hn⟩ := List.nodup_cons.1 hn
    have hw := Memory.write_wf m a (BitVec.ofNat 8 v) hm
    have hlow : ((m.write a (BitVec.ofNat 8 v)).writeList as (v / 256)).read a = BitVec.ofNat 8 v :=
      (Memory.read_writeList_other _ as _ hw ha).trans (Memory.read_write_same m a _ hm)
    have hsplit : v % 2 ^ (8 * (as.length + 1)) = v % 256 + 256 * (v / 256 % 2 ^ (8 * as.length)) := by
      rw [show 2 ^ (8 * (as.length + 1)) = 256 * 2 ^ (8 * as.length) by rw [Nat.mul_add, Nat.pow_add]; omega, Nat.mod_mul]
    show (((m.write a _).writeList as (v / 256)).read a).toNat + 256 * ((m.write a _).writeList as (v / 256)).readList as = _
    rw [hlow, ih _ _ hw hn, List.length_cons, hsplit, BitVec.toNat_ofNat]

theorem Memory.length_write (m : Memory) (a : Nat) (b : Byte) : (m.write a b).length ≤ m.length + 1 := by
  induction m with
  | nil => unfold Memory.write; split <;> simp
  | cons c m ih =>
    unfold Memory.write
    split
    · split <;> simp
    · split
      · split
        · simp only [List.length_cons]; omega
        · simp
      · simpa using ih

theorem Memory.length_writeList (as : List Nat) (m : Memory) (v : Nat) : (m.writeList as v).length ≤ m.length + as.length := by
  induction as generalizing m v with
  | nil => simp [Memory.writeList]
  | cons a as ih =>
    have h := ih (m.write a (BitVec.ofNat 8 v)) (v / 256)
    have h1 := Memory.length_write m a (BitVec.ofNat 8 v)
    rw [List.length_cons]
    show ((m.write a _).writeList as _).length ≤ _
    omega

/-- Without a monitor armed a store changes memory only. -/
theorem State.physWrite_unarmed (as : List Nat) (v : Nat) (h : s.act.monitorArmed = false) :
    s.physWrite as v = { s with mem := s.mem.writeList as v } := by
  have hact : s.act.stored as = s.act := by
    unfold Activity.stored
    rw [h, Bool.false_and, ← h]
  unfold State.physWrite
  rw [hact]

/-- Settles O46. -/
theorem storedValueReadBack : Obligations.StoredValueReadBack := by
  unfold Obligations.StoredValueReadBack
  intro s as v hm hn
  exact ⟨Memory.readList_writeList as s.mem v hm hn, fun x hx => Memory.read_writeList_other s.mem as v hm hx,
    State.physWrite_wf s as v hm, Memory.length_writeList as s.mem v, State.physWrite_unarmed as v⟩

/-! The end of an instruction. -/

theorem finish_outside (h : t.rtm.snapshot = none) :
    s.finish t = { t with act := { t.act with
      pendingDb := t.act.pendingDb ||| (if s.flags.tf && decide (t.act.inhibit ≠ .movSs) then 0x4000 else 0),
      inhibit := if s.act.inhibit = .none then t.act.inhibit else .none, afterMovSs := decide (t.act.inhibit = .movSs) } } := by
  unfold State.finish
  dsimp only
  rw [h]
  rfl

theorem finish_inside (h : t.rtm.snapshot.isSome = true)
    (hd : t.act.pendingDb ||| (if s.flags.tf && decide (t.act.inhibit ≠ .movSs) then 0x4000 else 0) ≠ 0) :
    s.finish t = State.rtmAbort { t with act := { t.act with
      pendingDb := t.act.pendingDb ||| (if s.flags.tf && decide (t.act.inhibit ≠ .movSs) then 0x4000 else 0),
      inhibit := if s.act.inhibit = .none then t.act.inhibit else .none, afterMovSs := decide (t.act.inhibit = .movSs) } }
      (t.cfg.rtmDebugStatus ||| 16) := by
  unfold State.finish
  dsimp only
  rw [if_pos (by rw [h, decide_eq_true hd]; rfl)]

/-- Settles O48. -/
theorem finishFrame : Obligations.FinishFrame := by
  unfold Obligations.FinishFrame
  intro s t
  refine ⟨fun h => ⟨_, _, _, finish_outside h, rfl, rfl, rfl⟩, fun h hp => ⟨_, _, _, finish_inside h ?_⟩, fun hp ht hi => ?_⟩
  · intro h0
    exact hp (BitVec.or_eq_zero_iff.1 h0).1
  · unfold State.finish
    simp [hp, ht, hi]

/-! Delivery. -/

/-- Settles O49, by the law of a delivery that no check stops. -/
theorem realModeDelivery : Obligations.RealModeDelivery := by
  unfold Obligations.RealModeDelivery
  intro e s u v entry ass fin p t hpe hlim hroom hpush hp hread ht
  exact deliverOnce_passes ⟨t, rfl, .inl ⟨hpe, hlim, hroom, ass, fin, v, p, u, entry, hpush, hp, hread, ht⟩⟩

/-- Settles O50, by the law of a delivery at the same level. -/
theorem samePrivilegeDelivery : Obligations.SamePrivilegeDelivery := by
  unfold Obligations.SamePrivilegeDelivery
  intro e g cs s u v w n as1 as2 cas sp fin hv hi hn hr ho h1 h2 h3
  exact deliverSame_passes hv hi hn hr ho h1 h2 h3

end Sys2Proof.Machine
end

section
namespace Sys2Proof.Machine
open Obligations

variable {α β : Type} {s t u v : State}

/-! Exceptions raised in the very state the instruction started in. -/

/-- An exception raised before any effect is taken in the state before the instruction. -/
theorem run_of_raise_begin {body : M Unit} {e : Exc} (h : Raises body s.begin e s.begin) (hk : e.keep = false) :
    run body s = takeException e s := by
  rw [run_of_raise_access h hk (.refl _), State.faulted_begin]

theorem raises_needCpl0 (h : s.privileged = false) : Raises needCpl0 s { vec := 13, code := some 0 } s :=
  raises_after (passes_get s) (raises_ensure h rfl)

/-- A move to or from CR0, CR2, CR3 or CR4 finds the register before it looks at CPL. -/
theorem movCr_unprivileged {o : MovCrOps} (h : s.privileged = false)
    (ho : ∃ cr r, (cr = 0 ∨ cr = 2 ∨ cr = 3 ∨ cr = 4) ∧ (o = .load cr r ∨ o = .store r cr)) :
    exec (.movCr o) s = takeException { vec := 13, code := some 0 } s := by
  have hb : s.begin.privileged = false := h
  obtain ⟨cr, r, hcr, rfl | rfl⟩ := ho
  · exact run_of_raise_begin (raises_after (passes_needCr (hcr.imp_right (·.imp_right (·.imp_right .inl)))) (raises_bind (raises_needCpl0 hb))) rfl
  · exact run_of_raise_begin (raises_after (passes_needCr (hcr.imp_right (·.imp_right (·.imp_right .inl)))) (raises_bind (raises_needCpl0 hb))) rfl

theorem movDr_unprivileged {o : MovDrOps} (h : s.privileged = false) :
    exec (.movDr o) s = takeException { vec := 13, code := some 0 } s := by
  have hb : s.begin.privileged = false := h
  cases o with
  | load dr r => exact run_of_raise_begin (raises_bind (raises_bind (raises_needCpl0 hb))) rfl
  | store r dr => exact run_of_raise_begin (raises_bind (raises_bind (raises_needCpl0 hb))) rfl

/-- Settles O51: CPL is looked at before anything else, but for the number of a control register and the mode. -/
theorem privilegedInstructionFaults : Obligations.PrivilegedInstructionFaults := by
  unfold Obligations.PrivilegedInstructionFaults
  intro s h
  have hb : Raises needCpl0 s.begin { vec := 13, code := some 0 } s.begin := raises_needCpl0 (show s.begin.privileged = false from h)
  have first : ∀ {i : Instr} {f : Unit → M Unit}, exec i s = run (needCpl0 >>= f) s →
      exec i s = takeException { vec := 13, code := some 0 } s :=
    fun hi => hi.trans (run_of_raise_begin (raises_bind hb) rfl)
  have only : ∀ {i : Instr}, exec i s = run needCpl0 s → exec i s = takeException { vec := 13, code := some 0 } s :=
    fun hi => hi.trans (run_of_raise_begin hb rfl)
  have cr : ∀ {o : MovCrOps} (n : Fin 16) (r : Reg), n = 0 ∨ n = 2 ∨ n = 3 ∨ n = 4 → o = .load n r ∨ o = .store r n →
      exec (.movCr o) s = takeException { vec := 13, code := some 0 } s :=
    fun n r hn ho => movCr_unprivileged h ⟨n, r, hn, ho⟩
  refine ⟨fun m x p d r => List.forall_iff_forall_mem.1 ⟨first rfl, only rfl, only rfl, only rfl, first rfl, first rfl, first rfl,
    first rfl, first rfl, first rfl, movDr_unprivileged h, cr 0 r ?_ ?_, cr 2 r ?_ ?_, cr 3 r ?_ ?_, cr 4 r ?_ ?_, cr 0 r ?_ ?_,
    cr 2 r ?_ ?_, cr 3 r ?_ ?_, cr 4 r ?_ ?_⟩, fun hl x => ?tables⟩
  case tables =>
    have hp : Passes needProtected s.begin () s.begin := passes_needProtected (s := s.begin) hl
    exact ⟨run_of_raise_begin (raises_after hp (raises_bind hb)) rfl, run_of_raise_begin (raises_after hp (raises_bind hb)) rfl⟩
  all_goals simp

/-! Alignment of vector operands. -/

theorem raises_resolveAligned {k : Kind} {m : MemRef} {n must : Nat}
    (hv : s.segVerdict m.seg (s.segOf m.seg) k (s.ea m) n = .ok)
    (hm : (s.linear m.seg (s.segOf m.seg) (s.ea m)).toNat % must ≠ 0) :
    Raises (resolveAligned k m n must) s { vec := 13, code := some 0 } s := by
  refine raises_after (passes_get s) (raises_after (passes_get s) (raises_after (passes_get s) ?_))
  dsimp only
  rw [hv]
  exact raises_if_pos hm rfl

/-- Settles O52: the operand is resolved before anything is written, and its alignment is checked after its segment. -/
theorem misalignedVectorFaults : Obligations.MisalignedVectorFaults := by
  unfold Obligations.MisalignedVectorFaults
  intro r m s hem hfx hsse hsse2 hts hm
  have h1 : Passes (needSse .sse) s.begin () s.begin := passes_needSse (s := s.begin) ⟨hem, hfx, hsse, hts⟩
  have h2 : Passes (needSse .sse2) s.begin () s.begin := passes_needSse (s := s.begin) ⟨hem, hfx, hsse2, hts⟩
  refine ⟨fun hv => ?_, fun hv => ?_⟩
  · have ha : Raises (resolveVec .read .size m 16) s.begin { vec := 13, code := some 0 } s.begin :=
      raises_resolveAligned (s := s.begin) hv hm
    have hx : Raises (readXm .size 16 (.mem m)) s.begin { vec := 13, code := some 0 } s.begin := raises_bind ha
    refine List.forall_iff_forall_mem.1 ⟨?_, ?_, ?_, ?_, ?_, ?_⟩
    · exact run_of_raise_begin (raises_after h1 (raises_bind hx)) rfl
    · exact run_of_raise_begin (raises_after h2 (raises_bind hx)) rfl
    · exact run_of_raise_begin (raises_after h1 (raises_bind hx)) rfl
    · exact run_of_raise_begin (raises_after h1 (raises_bind hx)) rfl
    · exact run_of_raise_begin (raises_after h2 (raises_bind hx)) rfl
    · exact run_of_raise_begin (raises_after h2 (raises_bind hx)) rfl
  · have ha : Raises (resolveVec .write .size m 16) s.begin { vec := 13, code := some 0 } s.begin :=
      raises_resolveAligned (s := s.begin) hv hm
    have hr : Passes (readXmm r) s.begin (s.begin.xmm r) s.begin := rfl
    refine List.forall_iff_forall_mem.1 ⟨?_, ?_⟩
    · exact run_of_raise_begin (raises_after h1 (raises_after hr (raises_bind ha))) rfl
    · exact run_of_raise_begin (raises_after h2 (raises_after hr (raises_bind ha))) rfl

/-! Divide errors. -/

/-- Settles O53: the divisor is read first, then it is checked, then the quotient. -/
theorem divideErrors : Obligations.DivideErrors := by
  unfold Obligations.DivideErrors
  refine ⟨fun w x s u b hb => ⟨fun h => ?div, fun h => ?idiv⟩, fun s hl => ?aam⟩
  case div =>
    have ha := readRm_accessOnly hb
    refine run_of_raise_access (raises_after hb ?_) rfl ha
    by_cases h0 : b = 0
    · exact raises_bind (raises_ensure (by subst h0; simp) rfl)
    · have hd : s.dividend w = u.dividend w := by obtain ⟨m, p, q, rfl⟩ := ha; rfl
      refine raises_after (passes_ensure ?_ _) (raises_after (readDouble_passes _ _) (raises_bind (raises_ensure ?_ rfl)))
      · exact decide_eq_true (fun hz => h0 (BitVec.eq_of_toNat_eq (by simpa using hz)))
      · exact decide_eq_false (by rw [← hd]; exact Nat.not_lt.2 (h.resolve_left h0))
  case idiv =>
    have ha := readRm_accessOnly hb
    refine run_of_raise_access (raises_after hb ?_) rfl ha
    by_cases h0 : b = 0
    · exact raises_bind (raises_ensure (by subst h0; simp) rfl)
    · have hd : s.dividend w = u.dividend w := by obtain ⟨m, p, q, rfl⟩ := ha; rfl
      obtain ⟨hi, hq⟩ := h.resolve_left h0
      refine raises_after (passes_ensure (decide_eq_true hi) _) (raises_after (readDouble_passes _ _)
        (raises_bind (raises_ensure ?_ rfl)))
      exact decide_eq_false (by rw [← hd]; exact hq)
  case aam =>
    exact run_of_raise_begin (raises_after (passes_notInLong (s := s.begin) hl) (raises_bind (raises_ensure rfl rfl))) rfl

end Sys2Proof.Machine
end

section
namespace Sys2Proof.Machine
open Obligations

variable {α β : Type} {s t u v : State}

/-! Stops by name. -/

/-- A meaning refuses to go on, for the reason `r`. -/
def Refuses {α : Type} (m : M α) (s : State) (r : Refusal) : Prop := ∃ t, m.run s = .error (.refuse r) t

theorem refuses_bind {m : M α} {f : α → M β} {r : Refusal} (h : Refuses m s r) : Refuses (m >>= f) s r := by
  obtain ⟨t, h⟩ := h
  refine ⟨t, ?_⟩
  show EStateM.bind m f s = _
  unfold EStateM.bind
  rw [show m s = _ from h]

theorem refuses_after {m : M α} {f : α → M β} {a : α} {r : Refusal} (h : Passes m s a t) (h2 : Refuses (f a) t r) :
    Refuses (m >>= f) s r := by
  obtain ⟨u, h2⟩ := h2
  refine ⟨u, ?_⟩
  show EStateM.bind m f s = _
  unfold EStateM.bind
  rw [show m s = _ from h]
  exact h2

theorem refuses_throw (r : Refusal) (s : State) : Refuses (throw (.refuse r) : M α) s r := ⟨s, rfl⟩

theorem run_of_refuse {body : M Unit} {r : Refusal} (h : Refuses body s.begin r) : run body s = .refused r := by
  obtain ⟨t, h⟩ := h
  unfold run
  rw [h]

/-- A predicate with a reserved bit set is refused. -/
theorem refuses_predicate {n : Nat} {imm : BitVec 8} (h : 2 ^ n ≤ imm.toNat) : Refuses (predicate n imm) s .reservedPredicate := by
  unfold predicate
  rw [if_neg (Nat.not_lt.2 h)]
  exact refuses_throw _ s

/-- IRET outside IA-32e mode with NT set asks for a task switch. -/
theorem refuses_iretTable {w : Width} (hn : s.flags.nt = true) (hl : s.lma = false) :
    Refuses (iretTable w) s .taskSwitchRequested := by
  refine refuses_after (passes_get s) ?_
  dsimp only
  rw [if_pos hn, if_neg (by rw [hl]; decide)]
  exact refuses_throw _ s

theorem lma_of_prot (h : s.mode = .prot) : s.lma = false := by
  revert h
  unfold State.mode
  cases s.pe <;> cases s.lma <;> cases (s.segOf .cs).l <;> simp

theorem refuses_iretBody {w : Width} (hm : s.mode = .prot) (hn : s.flags.nt = true) :
    Refuses (iretBody w) s.begin .taskSwitchRequested := by
  refine refuses_after (t := s.iretBegin) rfl (refuses_after (passes_get _) ?_)
  rw [show s.iretBegin.mode = .prot from hm]
  exact refuses_iretTable (s := s.iretBegin) hn (lma_of_prot hm)

theorem refuses_popWrap {w : Width} {m : MemRef} {x : Nat} (hw : s.popWraps m w.bytes = true)
    (hp : Passes (pop w.bytes) s.begin x u) : exec (.pop ⟨w, .mem m⟩) s = .refused .popEspWrap := by
  refine run_of_refuse (refuses_after (passes_get _) (refuses_after hp ?_))
  rw [if_pos (show s.begin.popWraps m w.bytes = true from hw)]
  exact refuses_throw _ u

/-- Settles O55. -/
theorem namedStops : Obligations.NamedStops := by
  unfold Obligations.NamedStops
  refine ⟨⟨fun o s h => ⟨fun hr => ?_, fun hr => ?_⟩, fun o s h hr => List.forall_iff_forall_mem.1 ?_⟩,
    fun s hm hn => List.forall_iff_forall_mem.1 ?_, fun w m s u v hw hp => refuses_popWrap hw hp⟩
  · have hp : Passes (needSse .sse) s.begin () s.begin := passes_needSse (s := s.begin) hr
    exact ⟨run_of_refuse (refuses_after hp (refuses_bind (refuses_predicate h))),
      run_of_refuse (refuses_after hp (refuses_bind (refuses_predicate h)))⟩
  · have hp : Passes (needSse .sse2) s.begin () s.begin := passes_needSse (s := s.begin) hr
    exact ⟨run_of_refuse (refuses_after hp (refuses_bind (refuses_predicate h))),
      run_of_refuse (refuses_after hp (refuses_bind (refuses_predicate h)))⟩
  · have hp : Passes (needVex [.avx]) s.begin () s.begin := passes_needVex (s := s.begin) hr
    exact ⟨run_of_refuse (refuses_after hp (refuses_bind (refuses_predicate h))),
      run_of_refuse (refuses_after hp (refuses_bind (refuses_predicate h))),
      run_of_refuse (refuses_after hp (refuses_bind (refuses_predicate h))),
      run_of_refuse (refuses_after hp (refuses_bind (refuses_predicate h)))⟩
  · exact ⟨run_of_refuse (refuses_iretBody hm hn), run_of_refuse (refuses_iretBody hm hn), run_of_refuse (refuses_iretBody hm hn)⟩

/-! The order of events. -/

/-- Outside a transaction an external event is delivered with the next instruction as return address. -/
theorem takeExternal_outside {k : EventKind} {x : BitVec 8} (h : s.rtm.snapshot = none) :
    takeExternal k x s = deliver nestBound { kind := k, vec := x, ret := s.rip, rf := s.flags.rf } s := by
  unfold takeExternal
  dsimp only
  rw [rtmAbort_of_no_snapshot h]

theorem step_init (hr : s.pins.reset = false) (hi : s.pins.init = true) : step s = .next s.doInit := by
  simp [step, hr, hi]

theorem step_intr {x : BitVec 8} (hp : s.pins = { intr := some x }) (hs : s.act.shutdown = false) (hd : s.act.pendingDb = 0)
    (hr : s.rtm.snapshot = none) (hf : s.flags.ifl = true) (hi : s.act.inhibit = .none) :
    step s = deliver nestBound { kind := .external, vec := x, ret := s.rip, rf := s.flags.rf } { s with pins := {} } := by
  have ha : s.acceptedIntr = some x := by simp [State.acceptedIntr, hf, hi, hp]
  have h : step s = takeExternal .external x { s with pins := {} } := by simp [step, hp, hs, hd, ha]
  rw [h, takeExternal_outside (s := { s with pins := {} }) hr]

theorem step_intr_held {x : BitVec 8} (hp : s.pins = { intr := some x }) (hs : s.act.shutdown = false) (hd : s.act.pendingDb = 0)
    (hr : s.rtm.snapshot = none) (hf : s.flags.ifl = false ∨ s.act.inhibit ≠ .none) (hh : s.act.halted = false)
    (hw : s.act.mwaitWaiting = false) (hb : s.instrBreaks = 0) : step s = runInstr s := by
  have ha : s.acceptedIntr = none := by
    rcases hf with hf | hf
    · simp [State.acceptedIntr, hf]
    · simp [State.acceptedIntr, hf]
  simp [step, hp, hs, hd, ha, State.hostAbort, hr, hh, hw, hb]

theorem step_nmi (hp : s.pins = { nmi := true }) (hs : s.act.shutdown = false) (hd : s.act.pendingDb = 0)
    (hr : s.rtm.snapshot = none) (hn : s.act.nmiBlocked = false) (hi : s.act.inhibit ≠ .movSs) :
    step s = deliver nestBound { kind := .nmi, vec := 2, ret := s.rip, rf := s.flags.rf } { s with pins := {} } := by
  have h : step s = takeExternal .nmi 2 { s with pins := {} } := by simp [step, hp, hs, hd, hn, hi]
  rw [h, takeExternal_outside (s := { s with pins := {} }) hr]

/-- Settles O56: the branches of `step`, from the first on. -/
theorem eventPriority : Obligations.EventPriority := by
  unfold Obligations.EventPriority
  refine ⟨fun s => ⟨fun h => ?reset, fun hr hi hs => ⟨s.doInit, step_init hr hi, ?init⟩, fun hr hi hw => ?wake,
    fun hr hi hw hs => ?shutdown⟩, fun s x hp hs hd hr => ⟨step_intr hp hs hd hr, step_intr_held hp hs hd hr⟩,
    fun s hp hs hd hr => step_nmi hp hs hd hr⟩
  case reset => simp [step, h]
  case init =>
    unfold State.doInit
    rw [rtmAbort_of_no_snapshot hs]
    exact ⟨rfl, rfl, rfl, rfl, rfl, rfl, rfl, rfl, rfl, rfl, rfl, rfl, rfl, rfl, rfl, rfl, rfl⟩
  case wake =>
    have h : step s = .next s.woken := by simp [step, hr, hi, hw]
    exact h
  case shutdown => simp [step, hr, hi, hw, hs]

/-! Elements of a vector. -/

theorem packNat_testBit {w : Nat} (hw : 0 < w) (l : List (BitVec w)) (j : Nat) :
    (packNat l).testBit j = (l[j / w]?.getD 0).getLsbD (j % w) := by
  induction l generalizing j with
  | nil => simp [packNat]
  | cons x l ih =>
    have hx : (packNat (x :: l)).testBit j = if j < w then x.toNat.testBit j else (packNat l).testBit (j - w) := by
      rw [packNat, Nat.add_comm, Nat.testBit_two_pow_mul_add _ x.isLt]
    rw [hx]
    split
    · rename_i hj
      rw [Nat.div_eq_of_lt hj, Nat.mod_eq_of_lt hj]
      rfl
    · rename_i hj
      obtain ⟨k, rfl⟩ := Nat.exists_eq_add_of_le (Nat.not_lt.1 hj)
      rw [ih, Nat.add_sub_cancel_left, Nat.add_div_left _ hw, Nat.add_mod_left, List.getElem?_cons_succ]

theorem ofLanes_bit {n w : Nat} (hw : 0 < w) (l : List (BitVec w)) (j : Nat) (hj : j < n) :
    (ofLanes n l).getLsbD j = (l[j / w]?.getD 0).getLsbD (j % w) := by
  rw [ofLanes, BitVec.getLsbD_ofNat, packNat_testBit hw, decide_eq_true hj, Bool.true_and]

/-- Element i of a vector put together is element i of the list. -/
theorem lane_ofLanes {w k : Nat} (hw : 0 < w) (l : List (BitVec w)) (i : Nat) (hi : i < k) :
    lane w (ofLanes (w * k) l) i = l[i]?.getD 0 := by
  refine BitVec.eq_of_getLsbD_eq fun b hb => ?_
  have hlt : w * i + b < w * k := by
    have := Nat.mul_le_mul_left w (Nat.succ_le_of_lt hi)
    rw [Nat.mul_succ] at this
    omega
  rw [lane_bit, decide_eq_true hb, Bool.true_and, ofLanes_bit hw l _ hlt, Nat.mul_add_div hw, Nat.mul_add_mod,
    Nat.div_eq_of_lt hb, Nat.mod_eq_of_lt hb, Nat.add_zero]

theorem lanes_getElem? {n w i : Nat} (a : BitVec n) (hi : i < n / w) : (lanes w a)[i]? = some (lane w a i) := by
  simp [lanes, hi]

/-- Settles O57. -/
theorem packedElements : Obligations.PackedElements := by
  unfold Obligations.PackedElements
  rintro n w k hw rfl
  have hk : w * k / w = k := Nat.mul_div_cancel_left k hw
  refine ⟨fun f a i hi => ?each, fun f a b i hi => ?zip, fun a => ?whole⟩
  case each =>
    rw [each, lane_ofLanes hw _ i hi, List.getElem?_map, lanes_getElem? a (by rwa [hk])]
    rfl
  case zip =>
    rw [zip, lane_ofLanes hw _ i hi, List.getElem?_zipWith, lanes_getElem? a (by rwa [hk]), lanes_getElem? b (by rwa [hk])]
    rfl
  case whole =>
    refine BitVec.eq_of_getLsbD_eq fun j hj => ?_
    have hd : j / w < w * k / w := by rw [hk]; exact Nat.div_lt_of_lt_mul hj
    rw [ofLanes_bit hw _ j hj, lanes_getElem? a hd, Option.getD_some, lane_bit, decide_eq_true (Nat.mod_lt j hw), Bool.true_and,
      Nat.div_add_mod]

end Sys2Proof.Machine
end

section
/-! What every step of every meaning keeps: the canonical form of memory, the running transaction, and, for a property `p` of
the state `s₀` it all started from, the system registers. A meaning under way keeps such a condition if it holds again wherever
the meaning ends, with a value or early. -/

namespace Sys2Proof.Machine

variable {α β : Type} {P : State → Prop} {p : Prop} {s₀ s t : State}

/-- Wherever the meaning ends, with a value or early, the condition holds again. -/
def Maintains (P : State → Prop) (m : M α) : Prop :=
  ∀ s, P s → (∀ a t, m.run s = .ok a t → P t) ∧ (∀ e t, m.run s = .error e t → P t)

namespace Maintains

theorem pure {a : α} : Maintains P (Pure.pure a : M α) := by
  intro s hs
  exact ⟨fun b t h => by cases h; exact hs, fun e t h => by cases h⟩

theorem throw {e : Stop} : Maintains P (MonadExcept.throw e : M α) := by
  intro s hs
  exact ⟨fun b t h => (by cases h), fun e t h => by cases h; exact hs⟩

theorem get : Maintains P (MonadState.get : M State) := by
  intro s hs
  exact ⟨fun b t h => by cases h; exact hs, fun e t h => by cases h⟩

theorem set (h : P t) : Maintains P (MonadStateOf.set t : M PUnit) := by
  intro s hs
  exact ⟨fun b u hu => by cases hu; exact h, fun e u hu => by cases hu⟩

theorem modify {f : State → State} (h : ∀ s, P s → P (f s)) : Maintains P (modify f : M PUnit) := by
  intro s hs
  exact ⟨fun b u hu => by cases hu; exact h s hs, fun e u hu => by cases hu⟩

theorem bind {m : M α} {f : α → M β} (hm : Maintains P m) (hf : ∀ a, Maintains P (f a)) : Maintains P (m >>= f) := by
  intro s hs
  have hrun : (m >>= f).run s = EStateM.bind m f s := rfl
  rw [hrun]
  unfold EStateM.bind
  cases h : m s with
  | ok a t => exact hf a t ((hm s hs).1 a t h)
  | error e t => exact ⟨fun b u hu => (by cases hu), fun e' u hu => by cases hu; exact (hm s hs).2 e t h⟩

/-- What follows a read of the state may use what holds of it. -/
theorem getBind {f : State → M β} (hf : ∀ s, P s → Maintains P (f s)) : Maintains P (MonadState.get >>= f) := by
  intro s hs
  exact hf s hs s hs

theorem map {m : M α} {f : α → β} (hm : Maintains P m) : Maintains P (f <$> m) := by
  have h : f <$> m = m >>= fun a => Pure.pure (f a) := (bind_pure_comp f m).symm
  rw [h]
  exact bind hm fun _ => pure

theorem ite {c : Prop} [Decidable c] {m n : M α} (hm : Maintains P m) (hn : Maintains P n) : Maintains P (if c then m else n) := by
  split
  · exact hm
  · exact hn

theorem forM {l : List β} {f : β → M PUnit} (hf : ∀ a, Maintains P (f a)) : Maintains P (l.forM f) := by
  induction l with
  | nil => exact pure
  | cons a l ih => exact bind (hf a) fun _ => ih

theorem mapM {γ : Type} {l : List β} {f : β → M γ} (hf : ∀ a, Maintains P (f a)) : Maintains P (l.mapM f) := by
  induction l with
  | nil => exact pure
  | cons a l ih =>
    rw [List.mapM_cons]
    exact bind (hf a) fun _ => bind ih fun _ => pure

end Maintains

/-- The registers of the system that stay: all but CR2, DR6, DR7 and PKRU; and IA32_EFER. -/
def SysKept (s t : State) : Prop :=
  t.sys = { s.sys with cr2 := t.sys.cr2, dr6 := t.sys.dr6, dr7 := t.sys.dr7, pkru := t.sys.pkru } ∧ t.msr.efer = s.msr.efer

/-- Memory is canonical if it was in `s₀`, the transaction is that of `s₀`, and under `p` the system registers are. -/
def Frame (p : Prop) (s₀ s : State) : Prop :=
  (s₀.mem.wf = true → s.mem.wf = true) ∧ s.rtm = s₀.rtm ∧ (p → SysKept s₀ s)

theorem SysKept.refl (s : State) : SysKept s s := ⟨rfl, rfl⟩

theorem Frame.refl (p : Prop) (s : State) : Frame p s s := ⟨id, rfl, fun _ => .refl s⟩

/-- The condition looks at memory, the transaction, the system registers and IA32_EFER only. -/
theorem Frame.of_eq (h : Frame p s₀ s) (hm : t.mem = s.mem) (hr : t.rtm = s.rtm) (hs : t.sys = s.sys) (he : t.msr.efer = s.msr.efer) :
    Frame p s₀ t := by
  obtain ⟨h1, h2, h3⟩ := h
  unfold Frame SysKept
  rw [hm, hr, hs, he]
  exact ⟨h1, h2, h3⟩

/-- Another memory keeps the condition if it is canonical where the old one was. -/
theorem Frame.withMem (h : Frame p s₀ s) {m : Memory} {a : Activity} (hm : s.mem.wf = true → m.wf = true) :
    Frame p s₀ { s with mem := m, act := a } :=
  ⟨fun h0 => hm (h.1 h0), h.2.1, h.2.2⟩

theorem Frame.physWrite (h : Frame p s₀ s) (as : List Nat) (v : Nat) : Frame p s₀ (s.physWrite as v) :=
  h.withMem fun hw => Memory.writeList_wf s.mem as v hw

theorem Frame.marked (h : Frame p s₀ s) (as : List Nat) : Frame p s₀ (s.marked as) := h.physWrite as _

/-- A meaning maintains the frame. -/
abbrev Framed (p : Prop) (s₀ : State) (m : M α) : Prop := Maintains (Frame p s₀) m

/-- Setting accessed and dirty bits keeps the canonical form. -/
theorem Frame.walked (h : Frame p s₀ s) (w : Bool) (es : List Nat) : Frame p s₀ (s.walked w es) :=
  h.withMem fun hw => Memory.markUsed_wf s.mem w es hw

/-! The state operations that are more than one field written. -/

theorem Frame.choose {c : Prop} [Decidable c] (hs : Frame p s₀ s) (ht : Frame p s₀ t) : Frame p s₀ (if c then s else t) := by
  split
  · exact hs
  · exact ht

theorem Frame.setGp (h : Frame p s₀ s) (r : Reg) (v : Word) : Frame p s₀ (s.setGp r v) := h

theorem Frame.setSeg (h : Frame p s₀ s) (r : SReg) (c : SegCache) : Frame p s₀ (s.setSeg r c) := h

theorem Frame.withTarget (h : Frame p s₀ s) (f : Flags) (cpl : BitVec 2) (v : Word) :
    Frame p s₀ { s with flags := f, cpl := cpl, rip := v } := h

theorem Frame.setGpVal (h : Frame p s₀ s) (w : Width) (g : Gp) (v : BitVec w.bits) : Frame p s₀ (s.setGpVal w g v) := by
  cases g with
  | lo _ => exact h
  | hi _ => exact h

theorem Frame.setPlace (h : Frame p s₀ s) (w : Width) (q : Place) (v : BitVec w.bits) : Frame p s₀ (s.setPlace w q v) := by
  cases q with
  | reg g => exact h.setGpVal w g v
  | mem as => exact h.physWrite as v.toNat

theorem Frame.loadXmms (h : Frame p s₀ s) (v : Nat) : Frame p s₀ (s.loadXmms v) := by
  rw [loadXmms_eq]
  exact h

theorem Frame.loadHighs (h : Frame p s₀ s) (v : Nat) : Frame p s₀ (s.loadHighs v) := by
  rw [loadHighs_eq]
  exact h

/-- PKRU is not among the system registers that stay. -/
theorem Frame.withPkru (h : Frame p s₀ s) (v : BitVec 32) : Frame p s₀ { s with sys := { s.sys with pkru := v } } := by
  obtain ⟨hm, hr, hs⟩ := h
  refine ⟨hm, hr, fun hp => ?_⟩
  obtain ⟨hsys, hefer⟩ := hs hp
  refine ⟨?_, hefer⟩
  dsimp only
  rw [hsys]

theorem Frame.copied (h : Frame p s₀ s) (l : List (List Nat × List Nat)) : Frame p s₀ (s.copied l) := by
  unfold State.copied
  induction l generalizing s with
  | nil => exact h
  | cons a l ih => exact ih (h.physWrite _ _)

/-- Delivery reports in DR6 and DR7. -/
theorem Frame.afterDelivery (h : Frame p s₀ s) (e : Event) : Frame p s₀ (s.afterDelivery e) := by
  obtain ⟨hm, hr, hs⟩ := h
  refine ⟨hm, hr, fun hp => ?_⟩
  obtain ⟨hsys, hefer⟩ := hs hp
  refine ⟨?_, hefer⟩
  unfold State.afterDelivery
  dsimp only
  rw [hsys]

/-- A page fault reports in CR2. -/
theorem Frame.noteCr2 (h : Frame p s₀ s) (e : Exc) : Frame p s₀ (s.noteCr2 e) := by
  obtain ⟨hm, hr, hs⟩ := h
  unfold State.noteCr2
  split
  · refine ⟨hm, hr, fun hp => ?_⟩
    obtain ⟨hsys, hefer⟩ := hs hp
    refine ⟨?_, hefer⟩
    dsimp only
    rw [hsys]
  · exact ⟨hm, hr, hs⟩

theorem Frame.enterGate (h : Frame p s₀ s) (v86 : Bool) (g : Gate) (cs : SegLoad) (cpl : BitVec 2)
    (ns : Option (SegLoad × Word)) (size : ASize) (sp : Word) : Frame p s₀ (s.enterGate v86 g cs cpl ns size sp) := by
  cases v86 <;> cases ns <;> exact h.of_eq rfl rfl rfl rfl

theorem Frame.enterLongGate (h : Frame p s₀ s) (g : Gate) (inner : Bool) (cpl : BitVec 2) (sp : Word) :
    Frame p s₀ (s.enterLongGate g inner cpl sp) := by
  unfold State.enterLongGate
  dsimp only
  split
  · exact h
  · exact h

end Sys2Proof.Machine
end

section
/-! Every operation of the model but the writes of control registers maintains the frame: one lemma for each, in the order of
the model, by the steps of its definition. -/

namespace Sys2Proof.Machine

variable {p : Prop} {s₀ : State}

theorem raise_framed {α : Type} {e : Exc} : Framed p s₀ (raise e : M α) := .throw

theorem raiseUD_framed {α : Type} : Framed p s₀ (raiseUD : M α) := raise_framed

theorem raiseNM_framed {α : Type} : Framed p s₀ (raiseNM : M α) := raise_framed

theorem raiseDE_framed {α : Type} : Framed p s₀ (raiseDE : M α) := raise_framed

theorem raiseGP_framed {α : Type} {code : BitVec 32} : Framed p s₀ (raiseGP code : M α) := raise_framed

theorem raiseSS_framed {α : Type} {code : BitVec 32} : Framed p s₀ (raiseSS code : M α) := raise_framed

theorem raiseNP_framed {α : Type} {code : BitVec 32} : Framed p s₀ (raiseNP code : M α) := raise_framed

theorem raiseTS_framed {α : Type} {code : BitVec 32} : Framed p s₀ (raiseTS code : M α) := raise_framed

theorem raiseAC_framed {α : Type} {code : BitVec 32} : Framed p s₀ (raiseAC code : M α) := raise_framed

theorem raiseMF_framed {α : Type} : Framed p s₀ (raiseMF : M α) := raise_framed

theorem raiseXM_framed {α : Type} : Framed p s₀ (raiseXM : M α) := raise_framed

theorem ensure_framed {c : Bool} {otherwise : M Unit} (hotherwise : Framed p s₀ otherwise) : Framed p s₀ (ensure c otherwise) :=
  .ite .pure hotherwise

theorem readReg_framed {w : Width} {r : Reg} : Framed p s₀ (readReg w r) := .getBind fun _ _ => .pure

theorem writeReg_framed {w : Width} {r : Reg} {v : BitVec w.bits} : Framed p s₀ (writeReg w r v) := .modify fun _ h => h

theorem freeValue_framed {w : Nat} : Framed p s₀ (freeValue w) := .getBind fun _ h => .bind (.set h) fun _ => .pure

theorem freeBit_framed : Framed p s₀ freeBit := .bind freeValue_framed fun _ => .pure

theorem readAddr_framed {a : ASize} {r : Reg} : Framed p s₀ (readAddr a r) := .getBind fun _ _ => .pure

theorem writeAddr_framed {a : ASize} {r : Reg} {v : Word} : Framed p s₀ (writeAddr a r v) := writeReg_framed

theorem modifyFlags_framed {g : Flags → Flags} : Framed p s₀ (modifyFlags g) := .modify fun _ h => h

theorem setLogic_framed {n : Nat} {r : BitVec n} : Framed p s₀ (setLogic r) :=
  .bind freeBit_framed fun _ => modifyFlags_framed

theorem undefStatus_framed {f : Flags} : Framed p s₀ (undefStatus f) :=
  .bind freeBit_framed fun _ => .bind freeBit_framed fun _ => .bind freeBit_framed fun _ => .bind freeBit_framed fun _ =>
    .bind freeBit_framed fun _ => .bind freeBit_framed fun _ => .pure

theorem physRead_framed {as : List Nat} : Framed p s₀ (physRead as) := .getBind fun _ _ => .pure

theorem physWrite_framed {as : List Nat} {v : Nat} : Framed p s₀ (physWrite as v) := .modify fun _ h => h.physWrite _ _

theorem raisePF_framed {α : Type} {lin : Word} {code : BitVec 32} : Framed p s₀ (raisePF lin code : M α) := raise_framed

theorem translate_framed {k : Kind} {user implicitSup : Bool} {lin : Word} :
    Framed p s₀ (translate k user implicitSup lin) := by
  refine .getBind fun _ h => ?_
  split
  · exact raisePF_framed
  · exact raisePF_framed
  · refine .ite .pure ?_
    split
    · exact raisePF_framed
    · exact raisePF_framed
    · exact .bind (.set (h.walked _ _)) fun _ => .pure

theorem translateRange_framed {trunc : Word → Word} {k : Kind} {user implicitSup : Bool} {lin : Word} {n : Nat} :
    Framed p s₀ (translateRange trunc k user implicitSup lin n) :=
  .ite (.bind translate_framed fun _ => .pure) (.bind translate_framed fun _ => .bind translate_framed fun _ => .pure)

theorem sysResolve_framed {k : Kind} {lin : Word} {n : Nat} : Framed p s₀ (sysResolve k lin n) :=
  .getBind fun _ _ => translateRange_framed

theorem sysRead_framed {lin : Word} {n : Nat} : Framed p s₀ (sysRead lin n) :=
  .bind sysResolve_framed fun _ => physRead_framed

theorem raiseLimit_framed {α : Type} {r : SReg} : Framed p s₀ (raiseLimit r : M α) := .ite raiseSS_framed raiseGP_framed

theorem notePending_framed {b : BitVec 16} : Framed p s₀ (notePending b) := .modify fun _ h => h

theorem resolveIn_framed {r : SReg} {c : SegCache} {user : Bool} {k : Kind} {nat must : Nat} {off : Word} {n : Nat} :
    Framed p s₀ (resolveIn r c user k nat must off n) := by
  refine .getBind fun _ _ => ?_
  split
  · exact raiseGP_framed
  · exact raiseLimit_framed
  · exact .ite raiseGP_framed (.ite raiseAC_framed (.bind translateRange_framed fun _ => .bind notePending_framed fun _ =>
      .pure))

theorem resolve_framed {r : SReg} {k : Kind} {nat must : Nat} {off : Word} {n : Nat} :
    Framed p s₀ (resolve r k nat must off n) :=
  .getBind fun _ _ => resolveIn_framed

theorem memRead_framed {r : SReg} {off : Word} {n nat : Nat} : Framed p s₀ (memRead r off n nat) :=
  .bind resolve_framed fun _ => physRead_framed

theorem memWrite_framed {r : SReg} {off : Word} {n nat v : Nat} : Framed p s₀ (memWrite r off n nat v) :=
  .bind resolve_framed fun _ => physWrite_framed

theorem writeSp_framed {v : Word} : Framed p s₀ (writeSp v) := .modify fun _ h => h

theorem pushPlan_framed {c : SegCache} {a : ASize} {user ac : Bool} {sp : Word} {ns : List Nat} :
    Framed p s₀ (pushPlan c a user ac sp ns) := by
  induction ns generalizing sp with
  | nil => exact .pure
  | cons _ _ ih => exact .bind resolveIn_framed fun _ => .bind ih fun _ => .pure

theorem pushStore_framed {ass : List (List Nat)} {vs : List Nat} : Framed p s₀ (pushStore ass vs) := by
  induction ass generalizing vs with
  | nil => exact .pure
  | cons _ _ ih =>
    cases vs with
    | nil => exact .pure
    | cons _ _ => exact .bind physWrite_framed fun _ => ih

theorem pushFrom_framed {sp : Word} {ns : List Nat} : Framed p s₀ (pushFrom sp ns) := .getBind fun _ _ => pushPlan_framed

theorem pushSlots_framed {ns : List Nat} : Framed p s₀ (pushSlots ns) := .getBind fun _ _ => pushFrom_framed

theorem pushCommit_framed {x0 : List (List Nat) × Word} {vs : List Nat} : Framed p s₀ (pushCommit x0 vs) :=
  .bind pushStore_framed fun _ => writeSp_framed

theorem pushList_framed {items : List (Nat × Nat)} : Framed p s₀ (pushList items) :=
  .bind pushSlots_framed fun _ => pushCommit_framed

theorem push_framed {n v : Nat} : Framed p s₀ (push n v) := pushList_framed

theorem stackPeek_framed {sp : Word} {n : Nat} : Framed p s₀ (stackPeek sp n) := .getBind fun _ _ => memRead_framed

theorem pop_framed {n : Nat} : Framed p s₀ (pop n) :=
  .getBind fun _ _ => .bind stackPeek_framed fun _ => .bind writeSp_framed fun _ => .pure

theorem fetchDesc_framed {sel : BitVec 16} {size : Nat} : Framed p s₀ (fetchDesc sel size) := by
  refine .getBind fun _ _ => ?_
  split
  · exact .pure
  · exact .bind sysRead_framed fun _ => .pure

theorem SegLoad.resolve_framed {l : SegLoad} : Framed p s₀ (SegLoad.resolve l) := by
  unfold SegLoad.resolve
  split
  · exact .pure
  · exact sysResolve_framed

theorem markAccessed_framed {as : List Nat} : Framed p s₀ (markAccessed as) := .modify fun _ h => h.marked _

theorem writeSeg_framed {r : SReg} {c : SegCache} : Framed p s₀ (writeSeg r c) := .modify fun _ h => h

theorem checkStackSeg_framed {sel : BitVec 16} : Framed p s₀ (checkStackSeg sel) := by
  refine .getBind fun _ _ => .ite (.ite .pure raiseGP_framed) (.bind fetchDesc_framed fun _ => ?_)
  split
  · exact raiseGP_framed
  · exact .ite raiseGP_framed (.ite raiseSS_framed .pure)

theorem checkDataSeg_framed {r : SReg} {sel : BitVec 16} : Framed p s₀ (checkDataSeg r sel) := by
  refine .getBind fun _ _ => .ite .pure (.bind fetchDesc_framed fun _ => ?_)
  split
  · exact raiseGP_framed
  · exact .ite raiseGP_framed (.ite raiseGP_framed (.ite raiseNP_framed .pure))

theorem checkSegLoad_framed {r : SReg} {sel : BitVec 16} : Framed p s₀ (checkSegLoad r sel) := by
  refine .getBind fun _ _ => ?_
  split
  · exact .pure
  · exact .pure
  · exact .ite checkStackSeg_framed checkDataSeg_framed

theorem loadSeg_framed {r : SReg} {sel : BitVec 16} : Framed p s₀ (loadSeg r sel) :=
  .bind checkSegLoad_framed fun _ => .bind SegLoad.resolve_framed fun _ => .bind markAccessed_framed fun _ => writeSeg_framed

theorem loadCode_framed {d : SegLoad} {cpl : BitVec 2} {off : Word} : Framed p s₀ (loadCode d cpl off) := .modify fun _ h => h

theorem deliverReal_framed {e : Event} : Framed p s₀ (deliverReal e) :=
  .getBind fun _ _ => .bind (ensure_framed raiseGP_framed) fun _ => .bind (ensure_framed raiseSS_framed) fun _ =>
    .bind pushList_framed fun _ => .bind sysRead_framed fun _ => .bind (.modify fun _ h => h) fun _ => .bind writeSeg_framed fun _ =>
    .modify fun _ h => h

theorem taskGate_framed {sel : BitVec 16} {ext : Bool} : Framed p s₀ (taskGate sel ext) := by
  refine .bind (ensure_framed raiseGP_framed) fun _ => .bind fetchDesc_framed fun _ => ?_
  split
  · exact raiseGP_framed
  · exact .bind (ensure_framed raiseGP_framed) fun _ => .bind (ensure_framed raiseNP_framed) fun _ => .throw

theorem innerStack_framed {dpl : BitVec 2} {ext : Bool} : Framed p s₀ (innerStack dpl ext) := by
  refine .getBind fun _ _ => .bind (ensure_framed raiseTS_framed) fun _ => .bind sysRead_framed fun _ => .bind sysRead_framed
    fun _ => .bind (ensure_framed raiseTS_framed) fun _ => .bind (ensure_framed raiseTS_framed) fun _ => .bind fetchDesc_framed
    fun _ => ?_
  split
  · exact raiseTS_framed
  · exact .bind (ensure_framed raiseTS_framed) fun _ => .bind (ensure_framed raiseSS_framed) fun _ => .pure

theorem tssWord_framed {off : Nat} {ext : Bool} : Framed p s₀ (tssWord off ext) :=
  .getBind fun _ _ => .bind (ensure_framed raiseTS_framed) fun _ => .bind (ensure_framed raiseTS_framed) fun _ =>
    .bind sysRead_framed fun _ => .pure

theorem deliverLegacyGate_framed {e : Event} {g : Gate} {cs : SegLoad} : Framed p s₀ (deliverLegacyGate e g cs) :=
  .getBind fun _ _ => .bind (.ite (.map innerStack_framed) .pure) fun _ => .bind (.modify fun _ h => h) fun _ =>
    .getBind fun _ _ => .bind (ensure_framed raiseSS_framed) fun _ => .bind (ensure_framed raiseGP_framed) fun _ =>
    .bind SegLoad.resolve_framed fun _ => .bind pushPlan_framed fun ⟨_, _⟩ => .bind SegLoad.resolve_framed fun _ =>
    .bind pushPlan_framed fun ⟨_, _⟩ => .bind markAccessed_framed fun _ => .bind pushStore_framed fun _ => .bind markAccessed_framed
    fun _ => .bind pushStore_framed fun _ => .modify fun _ h => h.enterGate _ _ _ _ _ _ _

theorem deliverLongGate_framed {e : Event} {g : Gate} {cs : SegLoad} : Framed p s₀ (deliverLongGate e g cs) :=
  .getBind fun _ _ => .bind (.ite tssWord_framed (.ite tssWord_framed .pure)) fun _ => .bind (ensure_framed raiseSS_framed)
    fun _ => .bind (ensure_framed raiseGP_framed) fun _ => .bind loadCode_framed fun _ => .bind pushPlan_framed fun _ =>
    .bind SegLoad.resolve_framed fun _ => .bind pushPlan_framed fun _ => .bind pushStore_framed fun _ =>
    .bind markAccessed_framed fun _ => .bind pushStore_framed fun _ => .modify fun _ h => h.enterLongGate _ _ _ _

theorem deliverGate_framed {e : Event} {ia32e : Bool} {g : Gate} : Framed p s₀ (deliverGate e ia32e g) := by
  refine .getBind fun _ _ => .bind (ensure_framed raiseGP_framed) fun _ => .bind fetchDesc_framed fun _ => ?_
  split
  · exact raiseGP_framed
  · exact .bind (ensure_framed raiseGP_framed) fun _ => .bind (ensure_framed raiseGP_framed) fun _ => .bind (ensure_framed
      raiseNP_framed) fun _ => .bind (ensure_framed raiseGP_framed) fun _ => .ite deliverLongGate_framed
      deliverLegacyGate_framed

theorem deliverTable_framed {e : Event} {ia32e : Bool} : Framed p s₀ (deliverTable e ia32e) :=
  .getBind fun _ _ => .bind (ensure_framed raiseUD_framed) fun _ => .bind (ensure_framed raiseGP_framed) fun _ =>
    .bind sysRead_framed fun _ => .bind (ensure_framed raiseGP_framed) fun _ => .bind (ensure_framed raiseGP_framed) fun _ =>
    .bind (ensure_framed raiseNP_framed) fun _ => .ite taskGate_framed deliverGate_framed

theorem deliverOnce_framed {e : Event} : Framed p s₀ (deliverOnce e) :=
  .getBind fun _ _ => .ite (.bind deliverReal_framed fun _ => .modify fun _ h => h.afterDelivery _) (.ite (.bind raiseGP_framed
    fun _ => .modify fun _ h => h.afterDelivery _) (.ite (.bind deliverTable_framed fun _ => .modify fun _ h => h.afterDelivery
    _) (.bind deliverTable_framed fun _ => .modify fun _ h => h.afterDelivery _)))

theorem resolveMem_framed {k : Kind} {m : MemRef} {n : Nat} : Framed p s₀ (resolveMem k m n) :=
  .getBind fun _ _ => resolve_framed

theorem resolveAligned_framed {k : Kind} {m : MemRef} {n must : Nat} : Framed p s₀ (resolveAligned k m n must) :=
  .getBind fun _ _ => resolve_framed

theorem resolveLoose_framed {k : Kind} {m : MemRef} {n nat : Nat} : Framed p s₀ (resolveLoose k m n nat) :=
  .getBind fun _ _ => resolve_framed

theorem readMem_framed {m : MemRef} {n : Nat} : Framed p s₀ (readMem m n) := .bind resolveMem_framed fun _ => physRead_framed

theorem readGp_framed {w : Width} {g : Gp} : Framed p s₀ (readGp w g) := .getBind fun _ _ => .pure

theorem writeGp_framed {w : Width} {g : Gp} {v : BitVec w.bits} : Framed p s₀ (writeGp w g v) :=
  .modify fun _ h => h.setGpVal _ _ _

theorem place_framed {k : Kind} {w : Width} {a : Rm} : Framed p s₀ (place k w a) := by
  cases a with
  | reg _ => exact .pure
  | mem _ => exact .bind resolveMem_framed fun _ => .pure

theorem readPlace_framed {w : Width} {x1 : Place} : Framed p s₀ (readPlace w x1) := .getBind fun _ _ => .pure

theorem writePlace_framed {w : Width} {x1 : Place} {v : BitVec w.bits} : Framed p s₀ (writePlace w x1 v) :=
  .modify fun _ h => h.setPlace _ _ _

theorem readRm_framed {w : Width} {o : Rm} : Framed p s₀ (readRm w o) := .bind place_framed fun _ => readPlace_framed

theorem writeRm_framed {w : Width} {o : Rm} {v : BitVec w.bits} : Framed p s₀ (writeRm w o v) :=
  .bind place_framed fun _ => writePlace_framed

theorem readXmm_framed {r : Reg} : Framed p s₀ (readXmm r) := .getBind fun _ _ => .pure

theorem writeXmm_framed {r : Reg} {v : BitVec 128} : Framed p s₀ (writeXmm r v) := .modify fun _ h => h

theorem readVec_framed {l : VLen} {r : Reg} : Framed p s₀ (readVec l r) := .getBind fun _ _ => .pure

theorem writeVec_framed {n : Nat} {r : Reg} {v : BitVec n} : Framed p s₀ (writeVec r v) := .modify fun _ h => h

theorem resolveVec_framed {k : Kind} {al : Align} {m : MemRef} {n : Nat} : Framed p s₀ (resolveVec k al m n) := by
  cases al with
  | free => exact resolveMem_framed
  | size => exact resolveAligned_framed
  | loose => exact .getBind fun _ _ => resolveLoose_framed
  | silent => exact resolveLoose_framed

theorem readXm_framed {al : Align} {n : Nat} {a : Xm} : Framed p s₀ (readXm al n a) := by
  cases a with
  | reg _ => exact .getBind fun _ _ => .pure
  | mem _ => exact .bind resolveVec_framed fun _ => .bind physRead_framed fun _ => .pure

theorem readMm_framed {r : Fin 8} : Framed p s₀ (readMm r) := .getBind fun _ _ => .pure

theorem writeMm_framed {r : Fin 8} {v : BitVec 64} : Framed p s₀ (writeMm r v) := .modify fun _ h => h

theorem readMmM_framed {n : Nat} {a : Mm} : Framed p s₀ (readMmM n a) := by
  cases a with
  | reg _ => exact .getBind fun _ _ => .pure
  | mem _ => exact .bind readMem_framed fun _ => .pure

theorem aluRun_framed {op : BinOp} {a : AluOps} (hop : ∀ x0 x1 x2, Framed p s₀ (op x0 x1 x2)) : Framed p s₀ (aluRun op a) := by
  cases a with
  | mr _ _ _ =>
    exact .bind place_framed fun _ => .bind readPlace_framed fun _ => .bind readGp_framed fun _ => .bind (hop _ _ _) fun _ =>
      writePlace_framed
  | rm _ _ _ => exact .bind readRm_framed fun _ => .bind readGp_framed fun _ => .bind (hop _ _ _) fun _ => writeGp_framed
  | mi _ _ _ => exact .bind place_framed fun _ => .bind readPlace_framed fun _ => .bind (hop _ _ _) fun _ => writePlace_framed

theorem aluTest_framed {op : BinOp} {a : AluOps} (hop : ∀ x0 x1 x2, Framed p s₀ (op x0 x1 x2)) :
    Framed p s₀ (aluTest op a) := by
  cases a with
  | mr _ _ _ => exact .bind readRm_framed fun _ => .bind readGp_framed fun _ => .bind (hop _ _ _) fun _ => .pure
  | rm _ _ _ => exact .bind readRm_framed fun _ => .bind readGp_framed fun _ => .bind (hop _ _ _) fun _ => .pure
  | mi _ _ _ => exact .bind readRm_framed fun _ => .bind (hop _ _ _) fun _ => .pure

theorem unRun_framed {op : UnOp} {w : Width} {dst : Rm} (hop : ∀ x0 x1, Framed p s₀ (op x0 x1)) :
    Framed p s₀ (unRun op w dst) :=
  .bind place_framed fun _ => .bind readPlace_framed fun _ => .bind (hop _ _) fun _ => writePlace_framed

theorem opAdd_framed {n : Nat} {a x2 : BitVec n} : Framed p s₀ (opAdd n a x2) := .bind modifyFlags_framed fun _ => .pure

theorem opAdc_framed {n : Nat} {a x2 : BitVec n} : Framed p s₀ (opAdc n a x2) :=
  .getBind fun _ _ => .bind modifyFlags_framed fun _ => .pure

theorem opSub_framed {n : Nat} {a x2 : BitVec n} : Framed p s₀ (opSub n a x2) := .bind modifyFlags_framed fun _ => .pure

theorem opSbb_framed {n : Nat} {a x2 : BitVec n} : Framed p s₀ (opSbb n a x2) :=
  .getBind fun _ _ => .bind modifyFlags_framed fun _ => .pure

theorem opAnd_framed {n : Nat} {a x2 : BitVec n} : Framed p s₀ (opAnd n a x2) := .bind setLogic_framed fun _ => .pure

theorem opOr_framed {n : Nat} {a x2 : BitVec n} : Framed p s₀ (opOr n a x2) := .bind setLogic_framed fun _ => .pure

theorem opXor_framed {n : Nat} {a x2 : BitVec n} : Framed p s₀ (opXor n a x2) := .bind setLogic_framed fun _ => .pure

theorem opInc_framed {n : Nat} {a : BitVec n} : Framed p s₀ (opInc n a) := .bind modifyFlags_framed fun _ => .pure

theorem opDec_framed {n : Nat} {a : BitVec n} : Framed p s₀ (opDec n a) := .bind modifyFlags_framed fun _ => .pure

theorem opNeg_framed {n : Nat} {a : BitVec n} : Framed p s₀ (opNeg n a) := .bind modifyFlags_framed fun _ => .pure

theorem opNot_framed {n : Nat} {a : BitVec n} : Framed p s₀ (opNot n a) := .pure

theorem needFeature_framed {f : Config.Feature} : Framed p s₀ (needFeature f) :=
  .getBind fun _ _ => ensure_framed raiseUD_framed

theorem notInLong_framed : Framed p s₀ notInLong := .getBind fun _ _ => ensure_framed raiseUD_framed

theorem needVexGpr_framed {f : Config.Feature} : Framed p s₀ (needVexGpr f) :=
  .getBind fun _ _ => .bind (ensure_framed raiseUD_framed) fun _ => needFeature_framed

theorem writeDouble_framed {w : Width} {v : Nat} : Framed p s₀ (writeDouble w v) := by
  unfold writeDouble
  split
  · exact writeReg_framed
  · exact .bind writeReg_framed fun _ => writeReg_framed

theorem readDouble_framed {w : Width} : Framed p s₀ (readDouble w) := by
  unfold readDouble
  split
  · exact .bind readReg_framed fun _ => .pure
  · exact .bind readReg_framed fun _ => .bind readReg_framed fun _ => .pure

theorem writeQuotRem_framed {w : Width} {q r : Nat} : Framed p s₀ (writeQuotRem w q r) := by
  unfold writeQuotRem
  split
  · exact writeReg_framed
  · exact .bind writeReg_framed fun _ => writeReg_framed

theorem setProductFlags_framed {cut sf : Bool} : Framed p s₀ (setProductFlags cut sf) :=
  .getBind fun _ _ => .bind undefStatus_framed fun _ => modifyFlags_framed

theorem clobberStatus_framed : Framed p s₀ clobberStatus :=
  .getBind fun _ _ => .bind undefStatus_framed fun _ => modifyFlags_framed

theorem readAl_framed : Framed p s₀ readAl := readReg_framed

theorem writeAl_framed {v : BitVec 8} : Framed p s₀ (writeAl v) := writeReg_framed

theorem setByteResult_framed {r : BitVec 8} : Framed p s₀ (setByteResult r) :=
  .getBind fun _ _ => .bind undefStatus_framed fun _ => modifyFlags_framed

theorem spreadSign_framed {w : Width} : Framed p s₀ (spreadSign w) := .bind readReg_framed fun _ => writeReg_framed

theorem xaddBody_framed {w : Width} {dst : Rm} {src : Gp} : Framed p s₀ (xaddBody w dst src) :=
  .bind place_framed fun _ => .bind readPlace_framed fun _ => .bind readGp_framed fun _ => .bind opAdd_framed fun _ =>
    .bind writeGp_framed fun _ => writePlace_framed

theorem xchgBody_framed {w : Width} {dst : Rm} {src : Gp} : Framed p s₀ (xchgBody w dst src) :=
  .bind place_framed fun _ => .bind readPlace_framed fun _ => .bind readGp_framed fun _ => .bind writePlace_framed fun _ =>
    writeGp_framed

theorem cmpxchgBody_framed {w : Width} {dst : Rm} {src : Gp} : Framed p s₀ (cmpxchgBody w dst src) :=
  .bind place_framed fun _ => .bind readPlace_framed fun _ => .bind readReg_framed fun _ => .bind readGp_framed fun _ =>
    .bind opSub_framed fun _ => .ite writePlace_framed (.bind writePlace_framed fun _ => writeReg_framed)

theorem cmpxchgPair_framed {w : Width} {must : Nat} {m : MemRef} : Framed p s₀ (cmpxchgPair w must m) :=
  .bind resolveAligned_framed fun _ => .bind physRead_framed fun _ => .bind (.bind readReg_framed fun _ => .bind readReg_framed
    fun _ => .pure) fun _ => .bind (.bind readReg_framed fun _ => .bind readReg_framed fun _ => .pure) fun _ =>
    .bind modifyFlags_framed fun _ => .ite physWrite_framed (.bind physWrite_framed fun _ => .bind writeReg_framed fun _ =>
    writeReg_framed)

theorem cmpxchg8bBody_framed {m : MemRef} : Framed p s₀ (cmpxchg8bBody m) :=
  .bind needFeature_framed fun _ => cmpxchgPair_framed

theorem cmpxchg16bBody_framed {m : MemRef} : Framed p s₀ (cmpxchg16bBody m) :=
  .getBind fun _ _ => .bind (ensure_framed raiseGP_framed) fun _ => cmpxchgPair_framed

theorem undefReg_framed {w : Width} {r : Reg} : Framed p s₀ (undefReg w r) :=
  .bind freeValue_framed fun _ => .modify fun _ h => h

theorem countOf_framed {a : Count} : Framed p s₀ (countOf a) := by
  cases a with
  | one => exact .pure
  | cl => exact readReg_framed
  | imm _ => exact .pure

theorem shiftRun_framed {op : ShiftOp} {o : ShiftOps} (hop : ∀ x0 x1 x2 x3, Framed p s₀ (op x0 x1 x2 x3)) :
    Framed p s₀ (shiftRun op o) :=
  .bind place_framed fun _ => .bind readPlace_framed fun _ => .bind countOf_framed fun _ => .ite (.bind (hop _ _ _ _) fun _ =>
    writePlace_framed) .pure

theorem shiftOf_framed {one v : Bool} : Framed p s₀ (shiftOf one v) := .bind freeBit_framed fun _ => .pure

theorem setShiftFlags_framed {n : Nat} {r : BitVec n} {cf of : Bool} : Framed p s₀ (setShiftFlags r cf of) :=
  .bind freeBit_framed fun _ => modifyFlags_framed

theorem shiftCf_framed {n m : Nat} {v : Bool} : Framed p s₀ (shiftCf n m v) := .bind freeBit_framed fun _ => .pure

theorem opShl_framed {n raw m : Nat} {a : BitVec n} : Framed p s₀ (opShl n raw m a) :=
  .bind shiftCf_framed fun _ => .bind shiftOf_framed fun _ => .bind setShiftFlags_framed fun _ => .pure

theorem opShr_framed {n raw m : Nat} {a : BitVec n} : Framed p s₀ (opShr n raw m a) :=
  .bind shiftCf_framed fun _ => .bind shiftOf_framed fun _ => .bind setShiftFlags_framed fun _ => .pure

theorem opSar_framed {n raw m : Nat} {a : BitVec n} : Framed p s₀ (opSar n raw m a) :=
  .bind shiftOf_framed fun _ => .bind setShiftFlags_framed fun _ => .pure

theorem setRotateFlags_framed {cf of : Bool} : Framed p s₀ (setRotateFlags cf of) := modifyFlags_framed

theorem opRol_framed {n raw m : Nat} {a : BitVec n} : Framed p s₀ (opRol n raw m a) :=
  .bind shiftOf_framed fun _ => .bind setRotateFlags_framed fun _ => .pure

theorem opRor_framed {n raw m : Nat} {a : BitVec n} : Framed p s₀ (opRor n raw m a) :=
  .bind shiftOf_framed fun _ => .bind setRotateFlags_framed fun _ => .pure

theorem opRcl_framed {n raw m : Nat} {a : BitVec n} : Framed p s₀ (opRcl n raw m a) :=
  .getBind fun _ _ => .bind shiftOf_framed fun _ => .bind setRotateFlags_framed fun _ => .pure

theorem opRcr_framed {n raw m : Nat} {a : BitVec n} : Framed p s₀ (opRcr n raw m a) :=
  .getBind fun _ _ => .bind shiftOf_framed fun _ => .bind setRotateFlags_framed fun _ => .pure

theorem doubleShift_framed {o : DShiftOps} {f : BitVec o.w.bits → BitVec o.w.bits → Nat → BitVec o.w.bits × Bool} :
    Framed p s₀ (doubleShift o f) :=
  .bind place_framed fun _ => .bind readPlace_framed fun _ => .bind readReg_framed fun _ => .bind countOf_framed fun _ =>
    .ite .pure (.ite (.bind freeValue_framed fun _ => .bind writePlace_framed fun _ => clobberStatus_framed) (.bind shiftOf_framed
    fun _ => .bind setShiftFlags_framed fun _ => writePlace_framed))

theorem shiftX_framed {o : Vg3} {f : BitVec o.w.bits → Nat → BitVec o.w.bits} : Framed p s₀ (shiftX o f) :=
  .bind needVexGpr_framed fun _ => .bind readRm_framed fun _ => .bind readReg_framed fun _ => writeReg_framed

theorem bitOffset_framed {w : Width} {a : BitSrc} : Framed p s₀ (bitOffset w a) := by
  cases a with
  | reg _ => exact .bind readReg_framed fun _ => .pure
  | imm _ => exact .pure

theorem bitPlace_framed {k : Kind} {o : BitOps} : Framed p s₀ (bitPlace k o) := by
  refine .bind bitOffset_framed fun _ => ?_
  dsimp only
  split
  · exact .pure
  · exact .getBind fun _ _ => .bind resolve_framed fun _ => .pure

theorem setBitFlags_framed {b : Bool} : Framed p s₀ (setBitFlags b) :=
  .getBind fun _ _ => .bind undefStatus_framed fun _ => modifyFlags_framed

theorem bitTest_framed {o : BitOps} : Framed p s₀ (bitTest o) :=
  .bind bitPlace_framed fun ⟨_, _⟩ => .bind readPlace_framed fun _ => setBitFlags_framed

theorem bitChange_framed {f : Bool → Bool} {o : BitOps} : Framed p s₀ (bitChange f o) :=
  .bind bitPlace_framed fun ⟨_, _⟩ => .bind readPlace_framed fun _ => .bind setBitFlags_framed fun _ => writePlace_framed

theorem bitScan_framed {o : RegRm} {f : BitVec o.w.bits → Nat} : Framed p s₀ (bitScan o f) :=
  .bind readRm_framed fun _ => .getBind fun _ _ => .bind undefStatus_framed fun _ => .bind modifyFlags_framed fun _ =>
    .ite undefReg_framed writeReg_framed

theorem bitCount_framed {o : RegRm} {f : BitVec o.w.bits → Nat} : Framed p s₀ (bitCount o f) :=
  .bind readRm_framed fun _ => .getBind fun _ _ => .bind undefStatus_framed fun _ => .bind modifyFlags_framed fun _ =>
    writeReg_framed

theorem lowestBit_framed {o : RegRm} {f : BitVec o.w.bits → BitVec o.w.bits} {zf : BitVec o.w.bits → Bool} {cf : Bool → Bool} :
    Framed p s₀ (lowestBit o f zf cf) :=
  .bind needVexGpr_framed fun _ => .bind readRm_framed fun _ => .getBind fun _ _ => .bind undefStatus_framed fun _ =>
    .bind modifyFlags_framed fun _ => writeReg_framed

theorem resolveMoffs_framed {k : Kind} {w : Width} {m : Moffs} : Framed p s₀ (resolveMoffs k w m) := resolve_framed

theorem movBody_framed {a : MovOps} : Framed p s₀ (movBody a) := by
  cases a with
  | mr _ _ _ => exact .bind readGp_framed fun _ => writeRm_framed
  | rm _ _ _ => exact .bind readRm_framed fun _ => writeGp_framed
  | mi _ _ _ => exact writeRm_framed
  | fromMoffs _ _ => exact .bind resolveMoffs_framed fun _ => .bind physRead_framed fun _ => writeReg_framed
  | toMoffs _ _ => exact .bind readReg_framed fun _ => .bind resolveMoffs_framed fun _ => physWrite_framed

theorem inhibitAfterSs_framed {r : SReg} : Framed p s₀ (inhibitAfterSs r) := .modify fun _ h => .choose h h

theorem xlatBody_framed {a : ASize} {r : SReg} : Framed p s₀ (xlatBody a r) :=
  .getBind fun _ _ => .bind readAl_framed fun _ => .bind memRead_framed fun _ => writeAl_framed

theorem readFarPtr_framed {w : Width} {m : MemRef} : Framed p s₀ (readFarPtr w m) :=
  .getBind fun _ _ => .bind memRead_framed fun _ => .bind memRead_framed fun _ => .pure

theorem checkLss_framed {r : SReg} {sel : BitVec 16} : Framed p s₀ (checkLss r sel) :=
  .getBind fun _ _ => ensure_framed raiseGP_framed

theorem loadFarPtr_framed {r : SReg} {o : RegMem} : Framed p s₀ (loadFarPtr r o) :=
  .bind readFarPtr_framed fun ⟨_, _⟩ => .bind checkLss_framed fun _ => .bind loadSeg_framed fun _ => writeReg_framed

theorem pushSel32_framed {sel : BitVec 16} : Framed p s₀ (pushSel32 sel) :=
  .getBind fun _ _ => .ite push_framed (.bind memWrite_framed fun _ => writeSp_framed)

theorem pushAll_framed {w : Width} : Framed p s₀ (pushAll w) :=
  .bind notInLong_framed fun _ => .getBind fun _ _ => .bind (ensure_framed raiseGP_framed) fun _ => pushList_framed

theorem popRegs_framed {w : Width} {rs : List Reg} : Framed p s₀ (popRegs w rs) := by
  induction rs with
  | nil => exact .pure
  | cons _ _ ih => exact .bind pop_framed fun _ => .ite (.bind writeReg_framed fun _ => ih) ih

theorem popAll_framed {w : Width} : Framed p s₀ (popAll w) := .bind notInLong_framed fun _ => popRegs_framed

theorem pushFlags_framed {n : Nat} : Framed p s₀ (pushFlags n) :=
  .getBind fun _ _ => .bind (ensure_framed raiseGP_framed) fun _ => push_framed

theorem popFlags_framed {n : Nat} : Framed p s₀ (popFlags n) :=
  .getBind fun _ _ => .ite (.bind (ensure_framed raiseGP_framed) fun _ => .bind pop_framed fun _ => .bind (ensure_framed
    raiseGP_framed) fun _ => modifyFlags_framed) (.bind pop_framed fun _ => modifyFlags_framed)

theorem enterCopies_framed {a : ASize} {n k : Nat} {bp sp : Word} : Framed p s₀ (enterCopies a n k bp sp) := by
  induction k generalizing bp sp with
  | zero => exact .pure
  | succ _ ih => exact .bind resolve_framed fun _ => .bind pushFrom_framed fun _ => .bind ih fun _ => .pure

theorem probeStack_framed {sp : Word} : Framed p s₀ (probeStack sp) :=
  .getBind fun _ _ => .bind resolve_framed fun _ => .modify fun _ h => h

theorem needLahf_framed : Framed p s₀ needLahf := .getBind fun _ _ => ensure_framed raiseUD_framed

theorem needSmapRing0_framed : Framed p s₀ needSmapRing0 :=
  .getBind fun _ _ => .bind (ensure_framed raiseUD_framed) fun _ => needFeature_framed

theorem cmovBody_framed {c : Cond} {o : RegRm} : Framed p s₀ (cmovBody c o) :=
  .bind needFeature_framed fun _ => .bind readRm_framed fun _ => .getBind fun _ h => .ite writeReg_framed (.ite (.set h) .pure)

theorem setBody_framed {c : Cond} {dst : Rm} : Framed p s₀ (setBody c dst) := .getBind fun _ _ => writeRm_framed

theorem checkTarget_framed {t : Word} : Framed p s₀ (checkTarget t) := .getBind fun _ _ => ensure_framed raiseGP_framed

theorem setRip_framed {t : Word} : Framed p s₀ (setRip t) := .modify fun _ h => h

theorem jumpNear_framed {w : Width} {t : Word} : Framed p s₀ (jumpNear w t) := .bind checkTarget_framed fun _ => setRip_framed

theorem relTarget_framed {n : Nat} {d : BitVec n} : Framed p s₀ (relTarget d) := .getBind fun _ _ => .pure

theorem jccBody_framed {c : Cond} {o : JccOps} : Framed p s₀ (jccBody c o) :=
  .getBind fun _ _ => .ite (.bind relTarget_framed fun _ => jumpNear_framed) .pure

theorem jcxzBody_framed {a : ASize} {o : JcxzOps} : Framed p s₀ (jcxzBody a o) :=
  .bind readAddr_framed fun _ => .ite (.bind relTarget_framed fun _ => jumpNear_framed) .pure

theorem loopBody_framed {cond : Flags → Bool} {o : LoopOps} : Framed p s₀ (loopBody cond o) :=
  .bind readAddr_framed fun _ => .bind writeAddr_framed fun _ => .getBind fun _ _ => .ite (.bind relTarget_framed fun _ =>
    jumpNear_framed) .pure

theorem callNear_framed {w : Width} {t : Word} : Framed p s₀ (callNear w t) :=
  .bind checkTarget_framed fun _ => .getBind fun _ _ => .bind push_framed fun _ => setRip_framed

theorem farDesc_framed {sel : BitVec 16} : Framed p s₀ (farDesc sel) := by
  refine .bind (ensure_framed raiseGP_framed) fun _ => .bind fetchDesc_framed fun _ => ?_
  split
  · exact raiseGP_framed
  · exact .pure

theorem directCode_framed {d : SegLoad} : Framed p s₀ (directCode d) :=
  .getBind fun _ _ => .bind (ensure_framed raiseGP_framed) fun _ => .ite (.bind (ensure_framed raiseGP_framed) fun _ =>
    .bind (ensure_framed raiseNP_framed) fun _ => .pure) (.bind (ensure_framed raiseGP_framed) fun _ => .bind (ensure_framed
    raiseNP_framed) fun _ => .pure)

theorem openGate_framed {sel : BitVec 16} : Framed p s₀ (openGate sel) := by
  refine .getBind fun _ _ => .bind fetchDesc_framed fun _ => ?_
  split
  · exact raiseGP_framed
  · exact .bind (ensure_framed raiseGP_framed) fun _ => .bind (ensure_framed raiseGP_framed) fun _ => .bind (ensure_framed
      raiseNP_framed) fun _ => .pure

theorem farTask_framed {sel : BitVec 16} {d : BitVec 128} : Framed p s₀ (farTask sel d) :=
  .getBind fun _ _ => .bind (ensure_framed raiseGP_framed) fun _ => .ite (.bind (ensure_framed raiseNP_framed) fun _ =>
    taskGate_framed) (.bind (ensure_framed raiseGP_framed) fun _ => .bind (ensure_framed raiseNP_framed) fun _ => .throw)

theorem farTarget_framed {sel : BitVec 16} : Framed p s₀ (farTarget sel) :=
  .getBind fun _ _ => .bind farDesc_framed fun ⟨_, _⟩ => .ite (.bind directCode_framed fun _ => .pure) (.bind (ensure_framed
    raiseGP_framed) fun _ => .ite (.bind openGate_framed fun _ => .pure) (.bind (ensure_framed raiseGP_framed) fun _ =>
    .bind farTask_framed fun _ => raiseGP_framed))

theorem gateCode_framed {g : CallGate} {fits : SegCache → Bool} : Framed p s₀ (gateCode g fits) :=
  .getBind fun _ _ => .bind farDesc_framed fun ⟨_, _⟩ => .bind (ensure_framed raiseGP_framed) fun _ => .bind (ensure_framed
    raiseGP_framed) fun _ => .bind (ensure_framed raiseNP_framed) fun _ => .pure

theorem legacyCode_framed {sel : BitVec 16} {off : Word} : Framed p s₀ (legacyCode sel off) :=
  .getBind fun _ _ => .bind (ensure_framed raiseGP_framed) fun _ => .pure

theorem enterCode_framed {d : SegLoad} {cpl : BitVec 2} {off : Word} : Framed p s₀ (enterCode d cpl off) :=
  .bind SegLoad.resolve_framed fun _ => .bind markAccessed_framed fun _ => loadCode_framed

theorem jmpFar_framed {w : Width} {sel : BitVec 16} {off0 : Word} : Framed p s₀ (jmpFar w sel off0) := by
  refine .getBind fun _ _ => .ite (.bind legacyCode_framed fun _ => .bind writeSeg_framed fun _ => setRip_framed) (.bind
    farTarget_framed fun _ => ?_)
  split
  · exact .bind (ensure_framed raiseGP_framed) fun _ => enterCode_framed
  · exact .bind gateCode_framed fun _ => .bind (ensure_framed raiseGP_framed) fun _ => enterCode_framed

theorem farPtr_framed {x0 : FarPtr} : Framed p s₀ (farPtr x0) := .bind notInLong_framed fun _ => .pure

theorem needRoom_framed {ns : List Nat} : Framed p s₀ (needRoom ns) := .getBind fun _ _ => ensure_framed raiseSS_framed

theorem callSame_framed {g : CallGate} {d : SegLoad} : Framed p s₀ (callSame g d) :=
  .getBind fun _ _ => .ite (.bind freeValue_framed fun _ => .bind (.modify fun _ h => h) fun _ => .bind loadCode_framed fun _ =>
    .bind needRoom_framed fun _ => .bind (ensure_framed raiseGP_framed) fun _ => .bind SegLoad.resolve_framed fun _ =>
    .bind pushSlots_framed fun _ => .bind markAccessed_framed fun _ => pushCommit_framed) (.bind loadCode_framed fun _ =>
    .bind needRoom_framed fun _ => .bind (ensure_framed raiseGP_framed) fun _ => .bind SegLoad.resolve_framed fun _ =>
    .bind pushSlots_framed fun _ => .bind markAccessed_framed fun _ => pushCommit_framed)

theorem gateParams_framed {n k : Nat} {sp : Word} : Framed p s₀ (gateParams n sp k) := by
  induction k generalizing sp with
  | zero => exact .pure
  | succ _ ih => exact .bind stackPeek_framed fun _ => .bind ih fun _ => .pure

theorem callInnerLong_framed {g : CallGate} {d : SegLoad} : Framed p s₀ (callInnerLong g d) :=
  .getBind fun _ _ => .bind tssWord_framed fun _ => .bind (ensure_framed raiseSS_framed) fun _ => .bind (ensure_framed
    raiseGP_framed) fun _ => .bind loadCode_framed fun _ => .bind SegLoad.resolve_framed fun _ => .bind pushPlan_framed
    fun ⟨_, _⟩ => .bind markAccessed_framed fun _ => .bind pushStore_framed fun _ => .modify fun _ h => h

theorem callInnerLegacy_framed {g : CallGate} {d : SegLoad} : Framed p s₀ (callInnerLegacy g d) :=
  .getBind fun _ _ => .bind innerStack_framed fun ⟨_, _⟩ => .bind (ensure_framed raiseSS_framed) fun _ => .bind (ensure_framed
    raiseGP_framed) fun _ => .bind SegLoad.resolve_framed fun _ => .bind SegLoad.resolve_framed fun _ => .bind pushPlan_framed
    fun ⟨_, _⟩ => .bind gateParams_framed fun _ => .bind pushPlan_framed fun ⟨_, _⟩ => .bind markAccessed_framed fun _ =>
    .bind markAccessed_framed fun _ => .bind pushStore_framed fun _ => .modify fun _ h => h

theorem callInner_framed {g : CallGate} {d : SegLoad} : Framed p s₀ (callInner g d) :=
  .getBind fun _ _ => .ite callInnerLong_framed callInnerLegacy_framed

theorem callFar_framed {w : Width} {sel : BitVec 16} {off0 : Word} : Framed p s₀ (callFar w sel off0) := by
  refine .getBind fun _ _ => .ite (.bind needRoom_framed fun _ => .bind (ensure_framed raiseGP_framed) fun _ =>
    .bind legacyCode_framed fun _ => .bind pushList_framed fun _ => .bind writeSeg_framed fun _ => setRip_framed) (.bind
    farTarget_framed fun _ => ?_)
  split
  · exact .bind needRoom_framed fun _ => .bind (ensure_framed raiseGP_framed) fun _ => .bind pushSlots_framed fun _ =>
      .bind SegLoad.resolve_framed fun _ => .bind pushCommit_framed fun _ => .bind markAccessed_framed fun _ => loadCode_framed
  · exact .bind gateCode_framed fun _ => .ite callInner_framed callSame_framed

theorem returnCode_framed {sel : BitVec 16} : Framed p s₀ (returnCode sel) :=
  .getBind fun _ _ => .bind farDesc_framed fun ⟨_, _⟩ => .bind (ensure_framed raiseGP_framed) fun _ => .bind (ensure_framed
    raiseGP_framed) fun _ => .bind (ensure_framed raiseGP_framed) fun _ => .bind (ensure_framed raiseGP_framed) fun _ =>
    .bind (ensure_framed raiseNP_framed) fun _ => .pure

theorem returnStack_framed {absent : BitVec 32 → M Unit} {code : SegLoad} {ssel : BitVec 16} (habsent : ∀ x0, Framed p s₀
    (absent x0)) :
    Framed p s₀ (returnStack absent code ssel) := by
  refine .getBind fun _ _ => .ite (.bind (ensure_framed raiseGP_framed) fun _ => .pure) (.bind fetchDesc_framed fun _ => ?_)
  split
  · exact raiseGP_framed
  · exact .bind (ensure_framed raiseGP_framed) fun _ => .bind (ensure_framed (habsent _)) fun _ => .pure

theorem needTop_framed {n : Nat} : Framed p s₀ (needTop n) := .getBind fun _ _ => ensure_framed raiseSS_framed

theorem loadSpPopped_framed {w : Width} {long : Bool} {v : Nat} : Framed p s₀ (loadSpPopped w long v) := .modify fun _ h => h

theorem retFarTable_framed {w : Width} {imm : Word} : Framed p s₀ (retFarTable w imm) :=
  .getBind fun _ _ => .bind needTop_framed fun _ => .bind stackPeek_framed fun _ => .bind stackPeek_framed fun _ =>
    .bind returnCode_framed fun _ => .ite (.bind (ensure_framed raiseGP_framed) fun _ => .bind enterCode_framed fun _ =>
    .modify fun _ h => h) (.bind needTop_framed fun _ => .bind stackPeek_framed fun _ => .bind stackPeek_framed fun _ =>
    .bind (returnStack_framed (fun _ => raiseSS_framed)) fun _ => .bind (ensure_framed raiseGP_framed) fun _ =>
    .bind SegLoad.resolve_framed fun _ => .bind SegLoad.resolve_framed fun _ => .bind markAccessed_framed fun _ =>
    .bind loadCode_framed fun _ => .bind loadSpPopped_framed fun _ => .bind markAccessed_framed fun _ => .bind writeSeg_framed
    fun _ => .bind (.modify fun _ h => h) fun _ => .getBind fun _ _ => writeSp_framed)

theorem retFarLegacy_framed {w : Width} {imm : Word} : Framed p s₀ (retFarLegacy w imm) :=
  .bind needTop_framed fun _ => .bind pop_framed fun _ => .bind pop_framed fun _ => .getBind fun _ _ => .getBind fun _ _ =>
    .bind (ensure_framed raiseGP_framed) fun _ => .bind legacyCode_framed fun _ => .bind writeSeg_framed fun _ =>
    .bind setRip_framed fun _ => .getBind fun _ _ => writeSp_framed

theorem loadFlags_framed {mask image : Word} : Framed p s₀ (loadFlags mask image) := modifyFlags_framed

theorem iretRealMode_framed {w : Width} : Framed p s₀ (iretRealMode w) :=
  .bind needTop_framed fun _ => .bind pop_framed fun _ => .bind pop_framed fun _ => .bind pop_framed fun _ =>
    .bind legacyCode_framed fun _ => .bind writeSeg_framed fun _ => .bind setRip_framed fun _ => loadFlags_framed

theorem iretV86_framed {w : Width} : Framed p s₀ (iretV86 w) :=
  .getBind fun _ _ => .bind (ensure_framed raiseGP_framed) fun _ => .bind needTop_framed fun _ => .bind pop_framed fun _ =>
    .bind pop_framed fun _ => .bind pop_framed fun _ => .bind legacyCode_framed fun _ => .bind writeSeg_framed fun _ =>
    .bind setRip_framed fun _ => loadFlags_framed

theorem iretToV86_framed {sel : BitVec 16} {off image : Word} : Framed p s₀ (iretToV86 sel off image) := by
  have hsel : ∀ sp, Framed p s₀ (do return BitVec.ofNat 16 (← stackPeek sp 4) : M (BitVec 16)) := fun _ =>
    .bind stackPeek_framed fun _ => .pure
  refine .getBind fun _ _ => .bind needTop_framed fun _ => .bind stackPeek_framed fun _ => .bind (hsel _) fun _ =>
    .bind (hsel _) fun _ => .bind (hsel _) fun _ => .bind (hsel _) fun _ => .bind (hsel _) fun _ =>
    .bind (ensure_framed raiseGP_framed) fun _ => .modify fun _ h => ?_
  exact (((((((h.setSeg _ _).setSeg _ _).setSeg _ _).setSeg _ _).setSeg _ _).setSeg _ _).setGp _ _).withTarget _ _ _

theorem iretTable_framed {w : Width} : Framed p s₀ (iretTable w) := by
  refine .getBind fun _ _ => .ite (.ite (.bind raiseGP_framed fun _ => .bind needTop_framed fun _ => .bind stackPeek_framed
    fun _ => .bind stackPeek_framed fun _ => .bind stackPeek_framed fun _ => .ite iretToV86_framed (.bind returnCode_framed fun _ =>
    .bind (.ite (.bind needTop_framed fun _ => .bind stackPeek_framed fun _ => .bind stackPeek_framed fun _ =>
    .bind (returnStack_framed (fun _ => raiseNP_framed)) fun _ => .pure) .pure) fun _ => .bind (ensure_framed raiseGP_framed) fun _ =>
    .bind SegLoad.resolve_framed fun _ => .bind ?_ fun _ => .bind markAccessed_framed fun _ => .bind loadCode_framed fun _ =>
    .bind loadFlags_framed fun _ => ?_)) (.bind .throw fun _ => .bind needTop_framed fun _ => .bind stackPeek_framed fun _ =>
    .bind stackPeek_framed fun _ => .bind stackPeek_framed fun _ => .ite iretToV86_framed (.bind returnCode_framed fun _ =>
    .bind (.ite (.bind needTop_framed fun _ => .bind stackPeek_framed fun _ => .bind stackPeek_framed fun _ =>
    .bind (returnStack_framed (fun _ => raiseNP_framed)) fun _ => .pure) .pure) fun _ => .bind (ensure_framed raiseGP_framed) fun _ =>
    .bind SegLoad.resolve_framed fun _ => .bind ?_ fun _ => .bind markAccessed_framed fun _ => .bind loadCode_framed fun _ =>
    .bind loadFlags_framed fun _ => ?_))) (.bind needTop_framed fun _ => .bind stackPeek_framed fun _ => .bind stackPeek_framed
    fun _ => .bind stackPeek_framed fun _ => .ite iretToV86_framed (.bind returnCode_framed fun _ => .bind (.ite (.bind
    needTop_framed fun _ => .bind stackPeek_framed fun _ => .bind stackPeek_framed fun _ => .bind (returnStack_framed (fun _ =>
    raiseNP_framed)) fun _ => .pure) .pure) fun _ => .bind (ensure_framed raiseGP_framed) fun _ => .bind SegLoad.resolve_framed
    fun _ => .bind ?_ fun _ => .bind markAccessed_framed fun _ => .bind loadCode_framed fun _ => .bind loadFlags_framed fun _ =>
    ?_))
  · split
    · exact SegLoad.resolve_framed
    · exact .pure
  · dsimp only
    split
    · exact .bind loadSpPopped_framed fun _ => .bind markAccessed_framed fun _ => .bind writeSeg_framed fun _ => .ite (.modify
        fun _ h => h) .pure
    · exact .bind (.modify fun _ h => h) fun _ => .ite (.modify fun _ h => h) .pure
  · split
    · exact SegLoad.resolve_framed
    · exact .pure
  · dsimp only
    split
    · exact .bind loadSpPopped_framed fun _ => .bind markAccessed_framed fun _ => .bind writeSeg_framed fun _ => .ite (.modify
        fun _ h => h) .pure
    · exact .bind (.modify fun _ h => h) fun _ => .ite (.modify fun _ h => h) .pure
  · split
    · exact SegLoad.resolve_framed
    · exact .pure
  · dsimp only
    split
    · exact .bind loadSpPopped_framed fun _ => .bind markAccessed_framed fun _ => .bind writeSeg_framed fun _ => .ite (.modify
        fun _ h => h) .pure
    · exact .bind (.modify fun _ h => h) fun _ => .ite (.modify fun _ h => h) .pure

theorem iretBody_framed {w : Width} : Framed p s₀ (iretBody w) := by
  refine .bind (.modify fun _ h => h) fun _ => .getBind fun _ _ => ?_
  split
  · exact iretRealMode_framed
  · exact iretV86_framed
  · exact iretTable_framed

theorem needSse_framed {f : Config.Feature} : Framed p s₀ (needSse f) :=
  .getBind fun _ _ => .bind (ensure_framed raiseUD_framed) fun _ => ensure_framed raiseNM_framed

theorem needVex_framed {fs : List Config.Feature} : Framed p s₀ (needVex fs) :=
  .getBind fun _ _ => .bind (ensure_framed raiseUD_framed) fun _ => ensure_framed raiseNM_framed

theorem needNoPending_framed : Framed p s₀ needNoPending := .getBind fun _ _ => ensure_framed raiseMF_framed

theorem needMmx_framed {f : Config.Feature} : Framed p s₀ (needMmx f) :=
  .getBind fun _ _ => .bind (ensure_framed raiseUD_framed) fun _ => .bind (ensure_framed raiseNM_framed) fun _ =>
    needNoPending_framed

theorem enterMmx_framed : Framed p s₀ enterMmx := .modify fun _ h => h

theorem readVx_framed {l : VLen} {o : Xm} : Framed p s₀ (readVx l o) := .bind readXm_framed fun _ => .pure

theorem xxRun_framed {fx : Config.Feature} {f : BitVec 128 → BitVec 128 → BitVec 128} {o : XX} : Framed p s₀ (xxRun fx f o) :=
  .bind needSse_framed fun _ => .bind readXm_framed fun _ => .bind readXmm_framed fun _ => writeXmm_framed

theorem xxiRun_framed {fx : Config.Feature} {f : BitVec 8 → BitVec 128 → BitVec 128 → BitVec 128} {o : XXI} :
    Framed p s₀ (xxiRun fx f o) :=
  xxRun_framed

theorem xnRun_framed {fx : Config.Feature} {n : Nat} {f : BitVec (8 * n) → BitVec 128} {o : XX} :
    Framed p s₀ (xnRun fx n f o) :=
  .bind needSse_framed fun _ => .bind readXm_framed fun _ => writeXmm_framed

theorem mxnRun_framed {n : Nat} {fm fx : Config.Feature} {f : Op2} {a : MX} : Framed p s₀ (mxnRun n fm fx f a) := by
  cases a with
  | mm _ _ =>
    exact .bind needMmx_framed fun _ => .bind readMmM_framed fun _ => .bind readMm_framed fun _ => .bind writeMm_framed fun _ =>
      enterMmx_framed
  | xx _ _ => exact xxRun_framed

theorem mxRun_framed {fm fx : Config.Feature} {f : Op2} {a : MX} : Framed p s₀ (mxRun fm fx f a) := mxnRun_framed

theorem vvxRun_framed {fs : VLen → List Config.Feature} {f : BitVec 128 → BitVec 128 → BitVec 128} {o : VVX} :
    Framed p s₀ (vvxRun fs f o) :=
  .bind needVex_framed fun _ => .bind readVx_framed fun _ => .bind readVec_framed fun _ => writeVec_framed

theorem vvxiRun_framed {fs : VLen → List Config.Feature} {f : BitVec 8 → BitVec 128 → BitVec 128 → BitVec 128} {o : VVXI} :
    Framed p s₀ (vvxiRun fs f o) :=
  vvxRun_framed

theorem vxRun_framed {fs : VLen → List Config.Feature} {f : BitVec 128 → BitVec 128} {o : VX} : Framed p s₀ (vxRun fs f o) :=
  .bind needVex_framed fun _ => .bind readVx_framed fun _ => writeVec_framed

theorem vxiRun_framed {fs : VLen → List Config.Feature} {f : BitVec 8 → BitVec 128 → BitVec 128} {o : VXI} :
    Framed p s₀ (vxiRun fs f o) :=
  vxRun_framed

theorem commitFlags_framed {fl0 : FpFlags} : Framed p s₀ (commitFlags fl0) :=
  .getBind fun _ h => .bind (.set h) fun _ => .ite (.ite raiseXM_framed raiseUD_framed) .pure

theorem commit_framed {n : Nat} {r : FpVec n} : Framed p s₀ (commit r) := .bind commitFlags_framed fun _ => .pure

theorem fpEnv_framed : Framed p s₀ fpEnv := .getBind fun _ _ => .pure

theorem xxFp_framed {fx : Config.Feature} {f : FpOp2} {o : XX} : Framed p s₀ (xxFp fx f o) :=
  .bind needSse_framed fun _ => .bind readXm_framed fun _ => .bind fpEnv_framed fun _ => .bind readXmm_framed fun _ =>
    .bind commit_framed fun _ => writeXmm_framed

theorem vvxFp_framed {f : FpOp2} {o : VVX} : Framed p s₀ (vvxFp f o) :=
  .bind needVex_framed fun _ => .bind readVx_framed fun _ => .bind fpEnv_framed fun _ => .bind readVec_framed fun _ =>
    .bind commit_framed fun _ => writeVec_framed

theorem xFp1_framed {fx : Config.Feature} {w : Nat} {op : Fp1} {o : XX} : Framed p s₀ (xFp1 fx w op o) :=
  .bind needSse_framed fun _ => .bind readXm_framed fun _ => .bind fpEnv_framed fun _ => .bind commit_framed fun _ =>
    writeXmm_framed

theorem vFp1_framed {w : Nat} {op : Fp1} {o : VX} : Framed p s₀ (vFp1 w op o) :=
  .bind needVex_framed fun _ => .bind readVx_framed fun _ => .bind fpEnv_framed fun _ => .bind commit_framed fun _ =>
    writeVec_framed

theorem xxScalar_framed {fx : Config.Feature} {n w : Nat} {op : Fp2} {o : XX} : Framed p s₀ (xxScalar fx n w op o) :=
  .bind needSse_framed fun _ => .bind readXm_framed fun _ => .bind readXmm_framed fun _ => .bind fpEnv_framed fun _ =>
    .bind commit_framed fun _ => writeXmm_framed

theorem vvxScalar_framed {fs : List Config.Feature} {n w : Nat} {op : Fp2} {o : VVX} : Framed p s₀ (vvxScalar fs n w op o) :=
  .bind needVex_framed fun _ => .bind readXm_framed fun _ => .bind readXmm_framed fun _ => .bind fpEnv_framed fun _ =>
    .bind commit_framed fun _ => writeVec_framed

theorem packedShift_framed {w : Nat} {f : Nat → BitVec w → BitVec w} {o : MShift} : Framed p s₀ (packedShift w f o) := by
  cases o with
  | mm _ _ =>
    exact .bind needMmx_framed fun _ => .bind readMmM_framed fun _ => .bind readMm_framed fun _ => .bind writeMm_framed fun _ =>
      enterMmx_framed
  | mmI _ _ => exact .bind needMmx_framed fun _ => .bind readMm_framed fun _ => .bind writeMm_framed fun _ => enterMmx_framed
  | xx _ _ => exact .bind needSse_framed fun _ => .bind readXm_framed fun _ => .bind readXmm_framed fun _ => writeXmm_framed
  | xxI _ _ => exact .bind needSse_framed fun _ => .bind readXmm_framed fun _ => writeXmm_framed

theorem vpackedShift_framed {w : Nat} {f : Nat → BitVec w → BitVec w} {a : VShift} : Framed p s₀ (vpackedShift w f a) := by
  cases a with
  | vec _ _ _ _ =>
    exact .bind needVex_framed fun _ => .bind readXm_framed fun _ => .bind readVec_framed fun _ => writeVec_framed
  | imm _ _ _ _ => exact .bind needVex_framed fun _ => .bind readVec_framed fun _ => writeVec_framed

theorem byteShiftRun_framed {left : Bool} {o : XI} : Framed p s₀ (byteShiftRun left o) :=
  .bind needSse_framed fun _ => .bind readXmm_framed fun _ => writeXmm_framed

theorem vbyteShiftRun_framed {left : Bool} {o : VVI} : Framed p s₀ (vbyteShiftRun left o) :=
  .bind needVex_framed fun _ => .bind readVec_framed fun _ => writeVec_framed

theorem vnRun_framed {fs : VLen → List Config.Feature} {n : VLen → Nat} {f : {m : Nat} → BitVec m → BitVec 256} {o : VX} :
    Framed p s₀ (vnRun fs n f o) :=
  .bind needVex_framed fun _ => .bind readXm_framed fun _ => writeVec_framed

theorem setTest_framed {n : Nat} {dst src : BitVec n} : Framed p s₀ (setTest dst src) := modifyFlags_framed

theorem writeWide_framed {n : Nat} {r : Reg} {v : BitVec n} : Framed p s₀ (writeWide r v) :=
  .getBind fun _ _ => writeReg_framed

theorem writeExtract_framed {w : Width} {o : Rm} {v : BitVec w.bits} : Framed p s₀ (writeExtract w o v) := by
  unfold writeExtract
  split
  · exact writeWide_framed
  · exact writeRm_framed

theorem extractRun_framed {enter : M Unit} {w : Width} {o : ExtrOps} (henter : Framed p s₀ enter) :
    Framed p s₀ (extractRun enter w o) :=
  .bind henter fun _ => .bind readXmm_framed fun _ => writeExtract_framed

theorem readInsert_framed {w : Width} {o : Rm} : Framed p s₀ (readInsert w o) := by
  unfold readInsert
  split
  · exact readReg_framed
  · exact readRm_framed

theorem insertRun_framed {fx : Config.Feature} {w : Width} {o : InsOps} : Framed p s₀ (insertRun fx w o) :=
  .bind needSse_framed fun _ => .bind readInsert_framed fun _ => .bind readXmm_framed fun _ => writeXmm_framed

theorem vinsertRun_framed {w : Width} {o : VInsOps} : Framed p s₀ (vinsertRun w o) :=
  .bind needVex_framed fun _ => .bind readInsert_framed fun _ => .bind readXmm_framed fun _ => writeVec_framed

theorem strToIndex_framed {w : Width} {imm : BitVec 8} {r : StrRun} : Framed p s₀ (strToIndex w imm r) :=
  .bind writeReg_framed fun _ => modifyFlags_framed

theorem strToMask_framed {vex : Bool} {imm : BitVec 8} {r : StrRun} : Framed p s₀ (strToMask vex imm r) :=
  .ite (.bind writeVec_framed fun _ => modifyFlags_framed) (.bind writeXmm_framed fun _ => modifyFlags_framed)

theorem strOperands_framed {dst : Reg} {src : Xm} : Framed p s₀ (strOperands dst src) :=
  .bind readXm_framed fun _ => .bind readXmm_framed fun _ => .pure

theorem predicate_framed {n : Nat} {imm : BitVec 8} : Framed p s₀ (predicate n imm) := .ite .pure .throw

theorem cmpPacked_framed {fx : Config.Feature} {f : FpFmt} {o : XXI} : Framed p s₀ (cmpPacked fx f o) :=
  .bind needSse_framed fun _ => .bind predicate_framed fun _ => xxFp_framed

theorem cmpScalar_framed {fx : Config.Feature} {f : FpFmt} {o : XXI} : Framed p s₀ (cmpScalar fx f o) :=
  .bind needSse_framed fun _ => .bind predicate_framed fun _ => xxScalar_framed

theorem vcmpPacked_framed {f : FpFmt} {o : VVXI} : Framed p s₀ (vcmpPacked f o) :=
  .bind needVex_framed fun _ => .bind predicate_framed fun _ => vvxFp_framed

theorem vcmpScalar_framed {f : FpFmt} {o : VVXI} : Framed p s₀ (vcmpScalar f o) :=
  .bind needVex_framed fun _ => .bind predicate_framed fun _ => vvxScalar_framed

theorem orderFlags_framed {f : FpFmt} {signalQ : Bool} {a : BitVec 128} {b : Nat} : Framed p s₀ (orderFlags f signalQ a b) :=
  .bind fpEnv_framed fun _ => .bind commitFlags_framed fun _ => modifyFlags_framed

theorem comi_framed {fx : Config.Feature} {f : FpFmt} {signalQ : Bool} {o : XX} : Framed p s₀ (comi fx f signalQ o) :=
  .bind needSse_framed fun _ => .bind readXm_framed fun _ => .bind readXmm_framed fun _ => orderFlags_framed

theorem vcomi_framed {f : FpFmt} {signalQ : Bool} {o : VX} : Framed p s₀ (vcomi f signalQ o) :=
  .bind needVex_framed fun _ => .bind readXm_framed fun _ => .bind readXmm_framed fun _ => orderFlags_framed

theorem xCvt_framed {al : Align} {n w1 w2 : Nat} {op : Fp1} {o : XX} : Framed p s₀ (xCvt al n w1 w2 op o) :=
  .bind needSse_framed fun _ => .bind readXm_framed fun _ => .bind fpEnv_framed fun _ => .bind commit_framed fun _ =>
    writeXmm_framed

theorem vCvt_framed {n : VLen → Nat} {w1 w2 : Nat} {op : Fp1} {o : VX} : Framed p s₀ (vCvt n w1 w2 op o) :=
  .bind needVex_framed fun _ => .bind readXm_framed fun _ => .bind fpEnv_framed fun _ => .bind commit_framed fun _ =>
    writeVec_framed

theorem mxCvt_framed {fx : Config.Feature} {al : Align} {n w1 : Nat} {op : Fp1} {o : MXm} :
    Framed p s₀ (mxCvt fx al n w1 op o) :=
  .bind needSse_framed fun _ => .bind needNoPending_framed fun _ => .bind readXm_framed fun _ => .bind fpEnv_framed fun _ =>
    .bind commit_framed fun _ => .bind writeMm_framed fun _ => enterMmx_framed

theorem gxCvt_framed {enter : M Unit} {f : FpFmt} {trunc : Bool} {o : GX} (henter : Framed p s₀ enter) :
    Framed p s₀ (gxCvt enter f trunc o) :=
  .bind henter fun _ => .bind readXm_framed fun _ => .bind fpEnv_framed fun _ => .bind commit_framed fun _ => writeReg_framed

theorem xgCvt_framed {fx : Config.Feature} {f : FpFmt} {o : XG} : Framed p s₀ (xgCvt fx f o) :=
  .bind needSse_framed fun _ => .bind readRm_framed fun _ => .bind fpEnv_framed fun _ => .bind commit_framed fun _ =>
    .bind readXmm_framed fun _ => writeXmm_framed

theorem vxgCvt_framed {f : FpFmt} {o : VXG} : Framed p s₀ (vxgCvt f o) :=
  .bind needVex_framed fun _ => .bind readRm_framed fun _ => .bind fpEnv_framed fun _ => .bind commit_framed fun _ =>
    .bind readXmm_framed fun _ => writeVec_framed

theorem xApprox_framed {f : BitVec 32 → BitVec 32} {o : XX} : Framed p s₀ (xApprox f o) := xxRun_framed

theorem vApprox_framed {f : BitVec 32 → BitVec 32} {o : VX} : Framed p s₀ (vApprox f o) := vxRun_framed

theorem xApproxScalar_framed {f : BitVec 32 → BitVec 32} {o : XX} : Framed p s₀ (xApproxScalar f o) :=
  .bind needSse_framed fun _ => .bind readXm_framed fun _ => .bind readXmm_framed fun _ => writeXmm_framed

theorem vApproxScalar_framed {f : BitVec 32 → BitVec 32} {o : VVX} : Framed p s₀ (vApproxScalar f o) :=
  .bind needVex_framed fun _ => .bind readXm_framed fun _ => .bind readXmm_framed fun _ => writeVec_framed

theorem inTurn_framed {l : List FpOut} : Framed p s₀ (inTurn l) := by
  induction l with
  | nil => exact .pure
  | cons _ _ ih => exact .bind commitFlags_framed fun _ => .bind ih fun _ => .pure

theorem atOnce_framed {rs : List FpOut} : Framed p s₀ (atOnce rs) := .bind commitFlags_framed fun _ => .pure

theorem dotSums_framed {f : FpFmt} {l : List Nat} : Framed p s₀ (dotSums f l) := .bind fpEnv_framed fun _ => inTurn_framed

theorem dotElement_framed {f : FpFmt} {sel : Bool} {sum : Nat} : Framed p s₀ (dotElement f sel sum) :=
  .ite (.ite (.bind freeValue_framed fun _ => .pure) .pure) .pure

theorem dotPrimitive_framed {f : FpFmt} {imm : BitVec 8} {a b : BitVec 128} : Framed p s₀ (dotPrimitive f imm a b) :=
  .bind fpEnv_framed fun _ => .ite (.bind atOnce_framed fun _ => dotSums_framed) (.bind inTurn_framed fun _ =>
    .bind dotSums_framed fun _ => dotSums_framed)

theorem dotSpread_framed {f : FpFmt} {imm : BitVec 8} {sums : List Nat} : Framed p s₀ (dotSpread f imm sums) :=
  .mapM fun _ => dotElement_framed

theorem dotHalves_framed {f : FpFmt} {imm : BitVec 8} {l : List (BitVec 128 × BitVec 128)} :
    Framed p s₀ (dotHalves f imm l) := by
  induction l with
  | nil => exact .pure
  | cons _ _ ih => exact .bind dotPrimitive_framed fun _ => .bind ih fun _ => .pure

theorem dotProduct_framed {f : FpFmt} {imm : BitVec 8} {n : Nat} {a b : BitVec n} : Framed p s₀ (dotProduct f imm a b) :=
  .bind dotHalves_framed fun _ => .bind dotSpread_framed fun _ => .pure

theorem xDot_framed {f : FpFmt} {o : XXI} : Framed p s₀ (xDot f o) :=
  .bind needSse_framed fun _ => .bind readXm_framed fun _ => .bind readXmm_framed fun _ => .bind dotProduct_framed fun _ =>
    writeXmm_framed

theorem vDot_framed {f : FpFmt} {o : VVXI} : Framed p s₀ (vDot f o) :=
  .bind needVex_framed fun _ => .bind readVx_framed fun _ => .bind readVec_framed fun _ => .bind dotProduct_framed fun _ =>
    writeVec_framed

theorem loadMxcsr_framed {m : MemRef} : Framed p s₀ (loadMxcsr m) :=
  .bind readMem_framed fun _ => .bind (ensure_framed raiseGP_framed) fun _ => .modify fun _ h => h

theorem storeMxcsr_framed {m : MemRef} : Framed p s₀ (storeMxcsr m) :=
  .bind resolveMem_framed fun _ => .modify fun _ h => h.physWrite _ _

theorem fmaPacked_framed {f : FpFmt} {o : FmaOrder} {np even odd : Bool} {x : VVX} :
    Framed p s₀ (fmaPacked f o np even odd x) :=
  .bind needVex_framed fun _ => .bind readVx_framed fun _ => .bind readVec_framed fun _ => .bind readVec_framed fun _ =>
    .bind fpEnv_framed fun _ => .bind commit_framed fun _ => writeVec_framed

theorem fmaScalar_framed {f : FpFmt} {o : FmaOrder} {np nc : Bool} {x : VVX} : Framed p s₀ (fmaScalar f o np nc x) :=
  .bind needVex_framed fun _ => .bind readXm_framed fun _ => .bind readXmm_framed fun _ => .bind readXmm_framed fun _ =>
    .bind fpEnv_framed fun _ => .bind commit_framed fun _ => writeVec_framed

theorem storeVec_framed {al : Align} {m : MemRef} {n k : Nat} {v : BitVec k} : Framed p s₀ (storeVec al m n v) :=
  .bind resolveVec_framed fun _ => physWrite_framed

theorem xmovRun_framed {fx : Config.Feature} {al : Align} {a : XMov} : Framed p s₀ (xmovRun fx al a) := by
  unfold xmovRun
  split
  · exact .bind needSse_framed fun _ => .bind readXm_framed fun _ => writeXmm_framed
  · exact .bind needSse_framed fun _ => .bind readXmm_framed fun _ => writeXmm_framed
  · exact .bind needSse_framed fun _ => .bind readXmm_framed fun _ => storeVec_framed

theorem vmovRun_framed {al : Align} {a : VMov} : Framed p s₀ (vmovRun al a) := by
  unfold vmovRun
  split
  · exact .bind needVex_framed fun _ => .bind readXm_framed fun _ => writeVec_framed
  · exact .bind needVex_framed fun _ => .bind readVec_framed fun _ => writeVec_framed
  · exact .bind needVex_framed fun _ => .bind readVec_framed fun _ => storeVec_framed

theorem scalarMov_framed {fx : Config.Feature} {n : Nat} {a : XMov} : Framed p s₀ (scalarMov fx n a) := by
  unfold scalarMov
  split
  · exact .bind needSse_framed fun _ => .bind readXmm_framed fun _ => .bind readXmm_framed fun _ => writeXmm_framed
  · exact .bind needSse_framed fun _ => .bind readXm_framed fun _ => writeXmm_framed
  · exact .bind needSse_framed fun _ => .bind readXmm_framed fun _ => .bind readXmm_framed fun _ => writeXmm_framed
  · exact .bind needSse_framed fun _ => .bind readXmm_framed fun _ => storeVec_framed

theorem vscalarMov_framed {n : Nat} {a : VScalarMov} : Framed p s₀ (vscalarMov n a) := by
  cases a with
  | reg _ _ _ => exact .bind needVex_framed fun _ => .bind readXmm_framed fun _ => .bind readXmm_framed fun _ => writeVec_framed
  | load _ _ => exact .bind needVex_framed fun _ => .bind readXm_framed fun _ => writeVec_framed
  | store _ _ => exact .bind needVex_framed fun _ => .bind readXmm_framed fun _ => storeVec_framed

theorem halfMov_framed {fx : Config.Feature} {high : Bool} {a : XMemMov} : Framed p s₀ (halfMov fx high a) := by
  cases a with
  | load _ _ => exact .bind needSse_framed fun _ => .bind readXm_framed fun _ => .bind readXmm_framed fun _ => writeXmm_framed
  | store _ _ => exact .bind needSse_framed fun _ => .bind readXmm_framed fun _ => storeVec_framed

theorem vhalfMov_framed {high : Bool} {a : VHalfMov} : Framed p s₀ (vhalfMov high a) := by
  cases a with
  | load _ _ _ => exact .bind needVex_framed fun _ => .bind readXm_framed fun _ => .bind readXmm_framed fun _ => writeVec_framed
  | store _ _ => exact .bind needVex_framed fun _ => .bind readXmm_framed fun _ => storeVec_framed

theorem ntStore_framed {fx : Config.Feature} {o : MemX} : Framed p s₀ (ntStore fx o) :=
  .bind needSse_framed fun _ => .bind readXmm_framed fun _ => storeVec_framed

theorem vntStore_framed {o : VMemX} : Framed p s₀ (vntStore o) :=
  .bind needVex_framed fun _ => .bind readVec_framed fun _ => storeVec_framed

theorem movdRun_framed {w : Width} {a : MovdOps} : Framed p s₀ (movdRun w a) := by
  cases a with
  | toMm _ _ => exact .bind needMmx_framed fun _ => .bind readRm_framed fun _ => .bind writeMm_framed fun _ => enterMmx_framed
  | fromMm _ _ => exact .bind needMmx_framed fun _ => .bind readMm_framed fun _ => .bind writeRm_framed fun _ => enterMmx_framed
  | toX _ _ => exact .bind needSse_framed fun _ => .bind readRm_framed fun _ => writeXmm_framed
  | fromX _ _ => exact .bind needSse_framed fun _ => .bind readXmm_framed fun _ => writeRm_framed

theorem vmovdRun_framed {w : Width} {a : VMovd} : Framed p s₀ (vmovdRun w a) := by
  cases a with
  | load _ _ => exact .bind needVex_framed fun _ => .bind readRm_framed fun _ => writeVec_framed
  | store _ _ => exact .bind needVex_framed fun _ => .bind readXmm_framed fun _ => writeRm_framed

theorem movqRun_framed {a : MovqOps} : Framed p s₀ (movqRun a) := by
  unfold movqRun
  split
  · exact .bind needMmx_framed fun _ => .bind readMmM_framed fun _ => .bind writeMm_framed fun _ => enterMmx_framed
  · exact .bind needMmx_framed fun _ => .bind readMm_framed fun _ => .bind writeMm_framed fun _ => enterMmx_framed
  · exact .bind needMmx_framed fun _ => .bind resolveMem_framed fun _ => .bind readMm_framed fun _ => .bind physWrite_framed
      fun _ => enterMmx_framed
  · exact .bind needSse_framed fun _ => .bind needNoPending_framed fun _ => .bind readXm_framed fun _ => writeXmm_framed
  · exact .bind needSse_framed fun _ => .bind needNoPending_framed fun _ => .bind readXmm_framed fun _ => writeXmm_framed
  · exact .bind needSse_framed fun _ => .bind needNoPending_framed fun _ => .bind readXmm_framed fun _ => storeVec_framed

theorem vmovqRun_framed {a : VMov} : Framed p s₀ (vmovqRun a) := by
  unfold vmovqRun
  split
  · exact .bind needVex_framed fun _ => .bind readXm_framed fun _ => writeVec_framed
  · exact .bind needVex_framed fun _ => .bind readXmm_framed fun _ => writeVec_framed
  · exact .bind needVex_framed fun _ => .bind readXmm_framed fun _ => storeVec_framed

theorem maskedBytes_framed {seg : SReg} {at0 : Word} {l : List (Bool × BitVec 8)} {i : Nat} :
    Framed p s₀ (maskedBytes seg at0 l i) := by
  induction l generalizing i with
  | nil => exact .pure
  | cons _ _ ih => exact .ite (.bind resolve_framed fun _ => .bind ih fun _ => .pure) ih

theorem storeParts_framed {l : List (List Nat × Nat)} : Framed p s₀ (storeParts l) := .forM fun _ => physWrite_framed

theorem maskStore_framed {n : Nat} {a : ASize} {ovr : Option SReg} {src mask : BitVec n} :
    Framed p s₀ (maskStore a ovr src mask) :=
  .bind readAddr_framed fun _ => .bind maskedBytes_framed fun _ => storeParts_framed

theorem signMask_framed {w : Nat} {dst : Reg} {n : Nat} {v : BitVec n} : Framed p s₀ (signMask w dst v) := writeWide_framed

theorem insertPsSource_framed {imm : BitVec 8} {o : Xm} : Framed p s₀ (insertPsSource imm o) := by
  unfold insertPsSource
  split
  · exact .bind readXmm_framed fun _ => .pure
  · exact readXm_framed

theorem broadcastRun_framed {fs : Bool → List Config.Feature} {n : Nat} {o : VX} : Framed p s₀ (broadcastRun fs n o) :=
  .bind needVex_framed fun _ => .bind readXm_framed fun _ => writeVec_framed

theorem broadcast128_framed {f : Config.Feature} {o : VXMem} : Framed p s₀ (broadcast128 f o) :=
  .bind needVex_framed fun _ => .bind readXm_framed fun _ => writeVec_framed

theorem extract128_framed {f : Config.Feature} {o : VExtOps} : Framed p s₀ (extract128 f o) := by
  refine .bind needVex_framed fun _ => .bind readVec_framed fun _ => ?_
  dsimp only
  split
  · exact writeVec_framed
  · exact storeVec_framed

theorem insert128_framed {f : Config.Feature} {o : VVXI} : Framed p s₀ (insert128 f o) :=
  .bind needVex_framed fun _ => .bind readXm_framed fun _ => .bind readVec_framed fun _ => writeVec_framed

theorem perm128_framed {f : Config.Feature} {o : VVXI} : Framed p s₀ (perm128 f o) :=
  .bind needVex_framed fun _ => .bind readXm_framed fun _ => .bind readVec_framed fun _ => writeVec_framed

theorem permDwords_framed {o : VVX} : Framed p s₀ (permDwords o) :=
  .bind needVex_framed fun _ => .bind readXm_framed fun _ => .bind readVec_framed fun _ => writeVec_framed

theorem permQwords_framed {o : VXI} : Framed p s₀ (permQwords o) :=
  .bind needVex_framed fun _ => .bind readXm_framed fun _ => writeVec_framed

theorem varShift_framed {w : Nat} {f : Nat → BitVec w → BitVec w} {o : VVX} : Framed p s₀ (varShift w f o) :=
  .bind needVex_framed fun _ => .bind readVx_framed fun _ => .bind readVec_framed fun _ => writeVec_framed

theorem signTest_framed {w : Nat} {o : VX} : Framed p s₀ (signTest w o) :=
  .bind needVex_framed fun _ => .bind readVx_framed fun _ => .bind readVec_framed fun _ => setTest_framed

theorem maskedParts_framed {k : Kind} {m : MemRef} {n : Nat} {es : List Bool} {j : Nat} :
    Framed p s₀ (maskedParts k m n es j) := by
  induction es generalizing j with
  | nil => exact .pure
  | cons _ _ ih =>
    exact .ite (.getBind fun _ _ => .bind resolve_framed fun _ => .bind ih fun _ => .pure) (.bind ih fun _ => .pure)

theorem maskMov_framed {f : Config.Feature} {n : Nat} {a : VMaskMov} : Framed p s₀ (maskMov f n a) := by
  cases a with
  | load _ _ _ _ =>
    exact .bind needVex_framed fun _ => .bind readVec_framed fun _ => .bind maskedParts_framed fun _ => .getBind fun _ _ =>
      writeVec_framed
  | store _ _ _ _ =>
    exact .bind needVex_framed fun _ => .bind readVec_framed fun _ => .bind maskedParts_framed fun _ => .bind readVec_framed
      fun _ => storeParts_framed

theorem gatherLoop_framed {g : GatherShape} {o : VGather} {s0 : State} {k j : Nat} : Framed p s₀ (gatherLoop g o s0 k j) := by
  induction k generalizing j with
  | zero => exact .pure
  | succ _ ih =>
    refine .getBind fun s h => .ite ?_ ih
    have hr := resolve_framed (r := o.mem.seg) (k := .read) (nat := 1) (must := 1) (off := s0.gatherAddr g o j) (n := g.dw / 8) s h
    split
    · rename_i t ht
      have hx : Frame p s₀ t := hr.1 _ _ ht
      exact .bind (.set hx) fun _ => ih
    · rename_i t ht
      have hx : Frame p s₀ t := hr.2 _ _ ht
      exact .bind (.set hx) fun _ => .bind raise_framed fun _ => ih
    · rename_i t _ ht
      have hx : Frame p s₀ t := hr.2 _ _ ht
      exact .bind (.set hx) fun _ => .bind .throw fun _ => ih

theorem gatherRun_framed {g : VLen → GatherShape} {o : VGather} : Framed p s₀ (gatherRun g o) :=
  .bind (ensure_framed raiseUD_framed) fun _ => .bind needVex_framed fun _ => .getBind fun _ _ => .bind gatherLoop_framed
    fun _ => .modify fun _ h => h

theorem ioPermitted_framed {port : BitVec 16} {n : Nat} : Framed p s₀ (ioPermitted port n) :=
  .getBind fun _ _ => .ite .pure (.bind sysRead_framed fun _ => .ite .pure (.bind sysRead_framed fun _ => .pure))

theorem ioCheck_framed {port : BitVec 16} {n : Nat} : Framed p s₀ (ioCheck port n) :=
  .getBind fun _ _ => .ite (.bind ioPermitted_framed fun _ => .bind (ensure_framed raiseGP_framed) fun _ => notePending_framed)
    notePending_framed

theorem portRead_framed {port : BitVec 16} {n : Nat} : Framed p s₀ (portRead port n) :=
  .bind freeValue_framed fun _ => .bind (.modify fun _ h => h) fun _ => .pure

theorem portWrite_framed {port : BitVec 16} {n : Nat} {v : BitVec 32} : Framed p s₀ (portWrite port n v) :=
  .modify fun _ h => h

theorem stepIndex_framed {a : ASize} {r : Reg} {n : Nat} : Framed p s₀ (stepIndex a r n) :=
  .getBind fun _ _ => writeAddr_framed

theorem movsItem_framed {w : Width} {a : ASize} {r : SReg} : Framed p s₀ (movsItem w a r) :=
  .bind readAddr_framed fun _ => .bind memRead_framed fun _ => .bind readAddr_framed fun _ => .bind memWrite_framed fun _ =>
    .bind stepIndex_framed fun _ => stepIndex_framed

theorem cmpsItem_framed {w : Width} {a : ASize} {r : SReg} : Framed p s₀ (cmpsItem w a r) :=
  .bind readAddr_framed fun _ => .bind memRead_framed fun _ => .bind readAddr_framed fun _ => .bind memRead_framed fun _ =>
    .bind opSub_framed fun _ => .bind stepIndex_framed fun _ => stepIndex_framed

theorem lodsItem_framed {w : Width} {a : ASize} {r : SReg} : Framed p s₀ (lodsItem w a r) :=
  .bind readAddr_framed fun _ => .bind memRead_framed fun _ => .bind writeReg_framed fun _ => stepIndex_framed

theorem stosItem_framed {w : Width} {a : ASize} : Framed p s₀ (stosItem w a) :=
  .bind readReg_framed fun _ => .bind readAddr_framed fun _ => .bind memWrite_framed fun _ => stepIndex_framed

theorem scasItem_framed {w : Width} {a : ASize} : Framed p s₀ (scasItem w a) :=
  .bind readAddr_framed fun _ => .bind memRead_framed fun _ => .bind readReg_framed fun _ => .bind opSub_framed fun _ =>
    stepIndex_framed

theorem insItem_framed {w : Width} {a : ASize} : Framed p s₀ (insItem w a) :=
  .getBind fun _ _ => .bind ioCheck_framed fun _ => .bind readAddr_framed fun _ => .bind resolve_framed fun _ =>
    .bind portRead_framed fun _ => .bind physWrite_framed fun _ => stepIndex_framed

theorem outsItem_framed {w : Width} {a : ASize} {r : SReg} : Framed p s₀ (outsItem w a r) :=
  .getBind fun _ _ => .bind ioCheck_framed fun _ => .bind readAddr_framed fun _ => .bind memRead_framed fun _ =>
    .bind portWrite_framed fun _ => stepIndex_framed

theorem cmpItem_framed {a : RepCmpOp} : Framed p s₀ (cmpItem a) := by
  cases a with
  | cmps _ => exact cmpsItem_framed
  | scas _ => exact scasItem_framed

theorem needCpl0_framed : Framed p s₀ needCpl0 := .getBind fun _ _ => ensure_framed raiseGP_framed

theorem needProtected_framed : Framed p s₀ needProtected := .getBind fun _ _ => ensure_framed raiseUD_framed

theorem writeEdxEax_framed {v : Word} : Framed p s₀ (writeEdxEax v) := .bind writeReg_framed fun _ => writeReg_framed

theorem readEdxEax_framed : Framed p s₀ readEdxEax := .bind readReg_framed fun _ => .bind readReg_framed fun _ => .pure

theorem needMonitor_framed : Framed p s₀ needMonitor :=
  .bind needFeature_framed fun _ => .getBind fun _ _ => ensure_framed raiseUD_framed

theorem monitorExt_framed : Framed p s₀ monitorExt := .getBind fun _ _ => .pure

theorem loadPdptes_framed {x0 : State} : Framed p s₀ (loadPdptes x0) := .bind (ensure_framed raiseGP_framed) fun _ => .pure

theorem needCr_framed {cr : Fin 16} : Framed p s₀ (needCr cr) := .getBind fun _ _ => ensure_framed raiseUD_framed

theorem openDr_framed {dr : Fin 8} : Framed p s₀ (openDr dr) :=
  .bind needCpl0_framed fun _ => .getBind fun _ _ => .bind (ensure_framed raiseUD_framed) fun _ => .bind (ensure_framed
    raise_framed) fun _ => .pure

theorem readTable_framed {o : FarMem} : Framed p s₀ (readTable o) :=
  have hread : ∀ d n, Framed p s₀ (readTable.readMem2 o.mem d n) := fun _ _ =>
    .getBind fun _ _ => .bind resolve_framed fun _ => physRead_framed
  .bind (hread _ _) fun _ => .bind (hread _ _) fun _ => .pure

theorem readTable.readMem2_framed {m : MemRef} {d n : Nat} : Framed p s₀ (readTable.readMem2 m d n) :=
  .getBind fun _ _ => memRead_framed

theorem storeTable_framed {o : FarMem} {t : TableReg} : Framed p s₀ (storeTable o t) :=
  .getBind fun _ _ => .bind resolve_framed fun _ => .bind resolve_framed fun _ => .bind physWrite_framed fun _ =>
    physWrite_framed

theorem storeWord_framed {o : RmOp} {v : Word} : Framed p s₀ (storeWord o v) := by
  unfold storeWord
  split
  · exact writeGp_framed
  · exact writeRm_framed

theorem gdtSystem_framed {sel : BitVec 16} : Framed p s₀ (gdtSystem sel) := by
  refine .ite raiseGP_framed (.getBind fun _ _ => .bind fetchDesc_framed fun _ => ?_)
  split
  · exact raiseGP_framed
  · exact .pure

theorem inspect_framed {sel : BitVec 16} : Framed p s₀ (inspect sel) := by
  refine .ite .pure (.bind fetchDesc_framed fun _ => ?_)
  split
  · exact .pure
  · exact .getBind fun _ _ => .ite (.bind fetchDesc_framed fun _ => .pure) .pure

theorem setZf_framed {z : Bool} : Framed p s₀ (setZf z) := modifyFlags_framed

theorem verify_framed {fits : SegCache → Bool} {o : Rm} : Framed p s₀ (verify fits o) := by
  refine .bind needProtected_framed fun _ => .bind readRm_framed fun _ => .getBind fun _ _ => .bind inspect_framed fun _ => ?_
  split
  · exact setZf_framed
  · exact setZf_framed

theorem readTsc_framed : Framed p s₀ readTsc := .getBind fun _ h => .bind (.set h) fun _ => .pure

theorem needTsc_framed : Framed p s₀ needTsc := .getBind fun _ _ => ensure_framed raiseGP_framed

theorem readRandom_framed {o : RegOp} : Framed p s₀ (readRandom o) :=
  .bind freeBit_framed fun _ => .bind freeValue_framed fun _ => .bind writeReg_framed fun _ => modifyFlags_framed

theorem needPke_framed : Framed p s₀ needPke := .getBind fun _ _ => ensure_framed raiseUD_framed

theorem needFsGsBase_framed : Framed p s₀ needFsGsBase := .getBind fun _ _ => ensure_framed raiseUD_framed

theorem readSegBase_framed {r : SReg} {o : RegOp} : Framed p s₀ (readSegBase r o) :=
  .bind needFsGsBase_framed fun _ => .getBind fun _ _ => writeReg_framed

theorem writeSegBase_framed {r : SReg} {o : RegOp} : Framed p s₀ (writeSegBase r o) :=
  .bind needFsGsBase_framed fun _ => .bind readReg_framed fun _ => .bind (ensure_framed raiseGP_framed) fun _ =>
    .modify fun _ h => h

theorem needOsXsave_framed : Framed p s₀ needOsXsave :=
  .bind needFeature_framed fun _ => .getBind fun _ _ => ensure_framed raiseUD_framed

theorem lockAlu_framed {a : LockAlu} {n : Nat} {x2 x3 : BitVec n} : Framed p s₀ (lockAlu a n x2 x3) := by
  cases a with
  | add => exact opAdd_framed
  | or => exact opOr_framed
  | adc => exact opAdc_framed
  | sbb => exact opSbb_framed
  | and => exact opAnd_framed
  | sub => exact opSub_framed
  | xor => exact opXor_framed

theorem lockUn_framed {a : LockUn} {n : Nat} {x2 : BitVec n} : Framed p s₀ (lockUn a n x2) := by
  cases a with
  | inc => exact opInc_framed
  | dec => exact opDec_framed
  | neg => exact opNeg_framed
  | not => exact opNot_framed

theorem lockBody_framed {a : Lockable} : Framed p s₀ (lockBody a) := by
  cases a with
  | aluReg _ _ _ _ => unfold lockBody; exact aluRun_framed (fun _ _ _ => lockAlu_framed)
  | aluImm _ _ _ _ => unfold lockBody; exact aluRun_framed (fun _ _ _ => lockAlu_framed)
  | bit _ _ _ _ => exact bitChange_framed
  | un _ _ _ => exact unRun_framed (fun _ _ => lockUn_framed)
  | cmpxchg _ _ _ => exact cmpxchgBody_framed
  | xadd _ _ _ => exact xaddBody_framed
  | xchg _ _ _ => exact xchgBody_framed
  | cmpxchg8b _ => exact cmpxchg8bBody_framed
  | cmpxchg16b _ => exact cmpxchg16bBody_framed

theorem modifyFpu_framed {g : Fpu → Fpu} : Framed p s₀ (modifyFpu g) := .modify fun _ h => h

theorem getFpu_framed : Framed p s₀ getFpu := .getBind fun _ _ => .pure

theorem needFpu_framed : Framed p s₀ needFpu :=
  .getBind fun _ _ => .bind (ensure_framed raiseUD_framed) fun _ => ensure_framed raiseNM_framed

theorem waitFpu_framed : Framed p s₀ waitFpu := .bind needFpu_framed fun _ => needNoPending_framed

theorem enterFpu_framed {ip : Word} {mem : Option MemRef} : Framed p s₀ (enterFpu ip mem) :=
  .bind waitFpu_framed fun _ => .modify fun _ h => h

theorem readFpu_framed {m : MemRef} {n nat : Nat} : Framed p s₀ (readFpu m n nat) :=
  .getBind fun _ _ => .bind resolve_framed fun _ => physRead_framed

theorem placeFpu_framed {m : MemRef} {n nat : Nat} : Framed p s₀ (placeFpu m n nat) := .getBind fun _ _ => resolve_framed

theorem freeCodes_framed : Framed p s₀ freeCodes := .bind freeValue_framed fun _ => modifyFpu_framed

theorem freeAllCodes_framed : Framed p s₀ freeAllCodes := .bind freeValue_framed fun _ => modifyFpu_framed

theorem report_framed {stop fl : FpFlags} {up : Bool} : Framed p s₀ (report stop fl up) :=
  .bind getFpu_framed fun _ => .bind modifyFpu_framed fun _ => .pure

theorem stackFault_framed {overflow : Bool} : Framed p s₀ (stackFault overflow) :=
  .bind modifyFpu_framed fun _ => .bind getFpu_framed fun _ => .pure

theorem needSt_framed {is : List (Fin 8)} {masked body : M Unit} (hmasked : Framed p s₀ masked) (hbody : Framed p s₀ body) :
    Framed p s₀ (needSt is masked body) :=
  .bind getFpu_framed fun _ => .ite (.bind stackFault_framed fun _ => .ite hmasked .pure) hbody

theorem needStFree_framed {is : List (Fin 8)} {masked body : M Unit} (hmasked : Framed p s₀ masked) (hbody : Framed p s₀ body) :
    Framed p s₀ (needStFree is masked body) :=
  .bind freeCodes_framed fun _ => needSt_framed hmasked hbody

theorem needFree_framed {masked body : M Unit} (hmasked : Framed p s₀ masked) (hbody : Framed p s₀ body) :
    Framed p s₀ (needFree masked body) :=
  .bind getFpu_framed fun _ => .ite (.bind stackFault_framed fun _ => .ite hmasked .pure) hbody

theorem xEnvPc_framed : Framed p s₀ xEnvPc := .bind getFpu_framed fun _ => .bind freeValue_framed fun _ => .pure

theorem xEnv_framed : Framed p s₀ xEnv := .bind xEnvPc_framed fun _ => .pure

theorem argSt_framed {i : Fin 8} : Framed p s₀ (argSt i) := .bind getFpu_framed fun _ => .pure

theorem deliverSt_framed {r : XOut} {i : Fin 8} {pops : Nat} : Framed p s₀ (deliverSt r i pops) :=
  .bind report_framed fun _ => .ite modifyFpu_framed .pure

theorem underflowSt_framed {i : Fin 8} {pops : Nat} : Framed p s₀ (underflowSt i pops) := modifyFpu_framed

theorem arithSt_framed {op : XOp2} {i : Fin 8} {src : XArg} {pops : Nat} : Framed p s₀ (arithSt op i src pops) :=
  .bind xEnvPc_framed fun _ => .bind argSt_framed fun _ => deliverSt_framed

theorem arithRegs_framed {op : XOp2} {i j : Fin 8} {pops : Nat} : Framed p s₀ (arithRegs op i j pops) :=
  needStFree_framed underflowSt_framed (.bind argSt_framed fun _ => arithSt_framed)

theorem fpArith_framed {op : XOp2} {ip : Word} {a : FpArith} : Framed p s₀ (fpArith op ip a) := by
  cases a with
  | m32 _ =>
    exact .bind enterFpu_framed fun _ => .bind readFpu_framed fun _ => needStFree_framed underflowSt_framed arithSt_framed
  | m64 _ =>
    exact .bind enterFpu_framed fun _ => .bind readFpu_framed fun _ => needStFree_framed underflowSt_framed arithSt_framed
  | st0 _ => exact .bind enterFpu_framed fun _ => arithRegs_framed
  | sti _ => exact .bind enterFpu_framed fun _ => arithRegs_framed

theorem fpArithPop_framed {op : XOp2} {ip : Word} {i : Fin 8} : Framed p s₀ (fpArithPop op ip i) :=
  .bind enterFpu_framed fun _ => arithRegs_framed

theorem readInt_framed {m : MemRef} {n : Nat} : Framed p s₀ (readInt m n) := .bind readFpu_framed fun _ => .pure

theorem fpArithInt_framed {op : XOp2} {ip : Word} {o : FpInt} : Framed p s₀ (fpArithInt op ip o) :=
  .bind enterFpu_framed fun _ => .bind readInt_framed fun _ => needStFree_framed underflowSt_framed arithSt_framed

theorem fpUnary_framed {env : M XEnv} {f : XEnv → XArg → XOut} {ip : Word} (henv : Framed p s₀ env) :
    Framed p s₀ (fpUnary env f ip) :=
  .bind enterFpu_framed fun _ => needStFree_framed underflowSt_framed (.bind henv fun _ => .bind argSt_framed fun _ =>
    deliverSt_framed)

theorem fpBinaryPop_framed {f : XOp2} {ip : Word} : Framed p s₀ (fpBinaryPop f ip) :=
  .bind enterFpu_framed fun _ => needStFree_framed underflowSt_framed (.bind xEnv_framed fun _ => .bind argSt_framed fun _ =>
    .bind argSt_framed fun _ => deliverSt_framed)

theorem fpSign_framed {g : BitVec 80 → BitVec 80} {ip : Word} : Framed p s₀ (fpSign g ip) :=
  .bind enterFpu_framed fun _ => needStFree_framed underflowSt_framed modifyFpu_framed

theorem pushValue_framed {v : BitVec 80} {fl : FpFlags} : Framed p s₀ (pushValue v fl) :=
  .bind freeCodes_framed fun _ => needFree_framed modifyFpu_framed (.bind report_framed fun _ => .ite modifyFpu_framed .pure)

theorem pushConverted_framed {a : XArg} : Framed p s₀ (pushConverted a) := pushValue_framed

theorem loadSt_framed {i : Fin 8} : Framed p s₀ (loadSt i) :=
  .bind getFpu_framed fun _ => .ite (.bind freeCodes_framed fun _ => .ite (.bind freeBit_framed fun _ => .bind stackFault_framed
    fun _ => .ite modifyFpu_framed .pure) (.bind .pure fun _ => .bind stackFault_framed fun _ => .ite modifyFpu_framed .pure))
    pushValue_framed

theorem pushConst_framed {ip : Word} {e chop near : Nat} : Framed p s₀ (pushConst ip e chop near) :=
  .bind enterFpu_framed fun _ => .bind getFpu_framed fun _ => pushValue_framed

theorem pushExact_framed {ip : Word} {v : BitVec 80} : Framed p s₀ (pushExact ip v) :=
  .bind enterFpu_framed fun _ => pushValue_framed

theorem storeSt_framed {ip : Word} {m : MemRef} {n nat indef pops : Nat} {f : XEnv → BitVec 80 → XStore} :
    Framed p s₀ (storeSt ip m n nat indef pops f) :=
  .bind enterFpu_framed fun _ => .bind placeFpu_framed fun _ => needStFree_framed (.bind physWrite_framed fun _ =>
    modifyFpu_framed) (.bind xEnv_framed fun _ => .bind getFpu_framed fun _ => .bind report_framed fun _ => .ite (.bind
    physWrite_framed fun _ => modifyFpu_framed) .pure)

theorem storeF32_framed {ip : Word} {m : MemRef} {pops : Nat} : Framed p s₀ (storeF32 ip m pops) := storeSt_framed

theorem storeF64_framed {ip : Word} {m : MemRef} {pops : Nat} : Framed p s₀ (storeF64 ip m pops) := storeSt_framed

theorem storeInt_framed {ip : Word} {m : MemRef} {n pops : Nat} : Framed p s₀ (storeInt ip m n pops) := storeSt_framed

theorem storeChop_framed {ip : Word} {m : MemRef} {n : Nat} : Framed p s₀ (storeChop ip m n) := storeSt_framed

theorem copySt_framed {ip : Word} {i : Fin 8} {pops : Nat} : Framed p s₀ (copySt ip i pops) :=
  .bind enterFpu_framed fun _ => needStFree_framed underflowSt_framed modifyFpu_framed

theorem compareWith_framed {quiet : Bool} {b : XArg} {pops : Nat} : Framed p s₀ (compareWith quiet b pops) :=
  .bind argSt_framed fun _ => .bind report_framed fun _ => modifyFpu_framed

theorem underflowCompare_framed {pops : Nat} : Framed p s₀ (underflowCompare pops) := modifyFpu_framed

theorem compareSt_framed {quiet : Bool} {ip : Word} {i : Fin 8} {pops : Nat} : Framed p s₀ (compareSt quiet ip i pops) :=
  .bind enterFpu_framed fun _ => needSt_framed underflowCompare_framed (.bind argSt_framed fun _ => compareWith_framed)

theorem compareFp_framed {ip : Word} {pops : Nat} {a : FpCom} : Framed p s₀ (compareFp ip pops a) := by
  cases a with
  | m32 _ =>
    exact .bind enterFpu_framed fun _ => .bind readFpu_framed fun _ => needSt_framed underflowCompare_framed compareWith_framed
  | m64 _ =>
    exact .bind enterFpu_framed fun _ => .bind readFpu_framed fun _ => needSt_framed underflowCompare_framed compareWith_framed
  | st _ => exact compareSt_framed

theorem compareInt_framed {ip : Word} {pops : Nat} {o : FpInt} : Framed p s₀ (compareInt ip pops o) :=
  .bind enterFpu_framed fun _ => .bind readInt_framed fun _ => needSt_framed underflowCompare_framed compareWith_framed

theorem setOrderFlags_framed {o : Order} : Framed p s₀ (setOrderFlags o) := modifyFlags_framed

theorem compareEflags_framed {quiet : Bool} {ip : Word} {i : Fin 8} {pops : Nat} :
    Framed p s₀ (compareEflags quiet ip i pops) :=
  .bind needFeature_framed fun _ => .bind enterFpu_framed fun _ => .bind modifyFlags_framed fun _ => needSt_framed (.bind
    setOrderFlags_framed fun _ => modifyFpu_framed) (.bind argSt_framed fun _ => .bind argSt_framed fun _ => .bind report_framed
    fun _ => .ite (.bind setOrderFlags_framed fun _ => modifyFpu_framed) modifyFpu_framed)

theorem faultTwo_framed : Framed p s₀ faultTwo := modifyFpu_framed

theorem needTwo_framed {body : M Unit} (hbody : Framed p s₀ body) : Framed p s₀ (needTwo body) :=
  needSt_framed faultTwo_framed (needFree_framed faultTwo_framed hbody)

theorem deliverTwo_framed {a b : BitVec 80} {fl : FpFlags} {up : Bool} : Framed p s₀ (deliverTwo a b fl up) :=
  .bind report_framed fun _ => .ite modifyFpu_framed .pure

theorem setC2_framed {b : Bool} : Framed p s₀ (setC2 b) := modifyFpu_framed

theorem trig_framed {ip : Word} {out : M Bool} {empty : M Unit} {body : XArg → M Unit} (hout : Framed p s₀ out) (hempty : Framed
    p s₀ empty) (hbody : ∀ x0, Framed p s₀ (body x0)) :
    Framed p s₀ (trig ip out empty body) :=
  .bind enterFpu_framed fun _ => needStFree_framed hempty (.bind argSt_framed fun _ => .ite (.bind hout fun _ =>
    modifyFpu_framed) (.bind setC2_framed fun _ => hbody _))

theorem trigOne_framed {ip : Word} {out : M Bool} {f : XEnv → XArg → XOut} (hout : Framed p s₀ out) :
    Framed p s₀ (trigOne ip out f) :=
  trig_framed hout modifyFpu_framed (fun _ => .bind xEnv_framed fun _ => .bind report_framed fun _ => .ite modifyFpu_framed
    .pure)

theorem partialRem_framed {nearest : Bool} {ip : Word} : Framed p s₀ (partialRem nearest ip) := by
  refine .bind enterFpu_framed fun _ => needStFree_framed underflowSt_framed (.bind xEnv_framed fun _ => .bind argSt_framed
    fun _ => .bind argSt_framed fun _ => .bind report_framed fun _ => .ite (.bind modifyFpu_framed fun _ => ?_) .pure)
  split
  · exact modifyFpu_framed
  · exact .bind freeBit_framed fun _ => modifyFpu_framed
  · exact freeAllCodes_framed

theorem condMove_framed {c : Cond} {ip : Word} {i : Fin 8} : Framed p s₀ (condMove c ip i) :=
  .bind needFeature_framed fun _ => .bind enterFpu_framed fun _ => needStFree_framed underflowSt_framed (.getBind fun _ _ =>
    .ite modifyFpu_framed .pure)

theorem loadCw_framed {m : MemRef} : Framed p s₀ (loadCw m) :=
  .bind waitFpu_framed fun _ => .bind readFpu_framed fun _ => .bind modifyFpu_framed fun _ => freeAllCodes_framed

theorem storeCw_framed {m : MemRef} : Framed p s₀ (storeCw m) :=
  .bind needFpu_framed fun _ => .bind placeFpu_framed fun _ => .bind getFpu_framed fun _ => .bind physWrite_framed fun _ =>
    freeAllCodes_framed

theorem storeEnv_framed {o : FpEnv} : Framed p s₀ (storeEnv o) :=
  .bind needFpu_framed fun _ => .bind placeFpu_framed fun _ => .getBind fun _ _ => .bind physWrite_framed fun _ =>
    .bind modifyFpu_framed fun _ => freeAllCodes_framed

theorem saveState_framed {o : FpEnv} : Framed p s₀ (saveState o) :=
  .bind needFpu_framed fun _ => .bind placeFpu_framed fun _ => .getBind fun _ _ => .bind physWrite_framed fun _ =>
    modifyFpu_framed

theorem storeSw_framed {o : FpSw} : Framed p s₀ (storeSw o) := by
  refine .bind needFpu_framed fun _ => ?_
  dsimp only
  split
  · exact .bind placeFpu_framed fun _ => .bind getFpu_framed fun _ => .bind physWrite_framed fun _ => freeAllCodes_framed
  · exact .bind getFpu_framed fun _ => .bind writeReg_framed fun _ => freeAllCodes_framed

theorem clearExceptions_framed : Framed p s₀ clearExceptions :=
  .bind needFpu_framed fun _ => .bind modifyFpu_framed fun _ => freeAllCodes_framed

theorem initFpu_framed : Framed p s₀ initFpu := .bind needFpu_framed fun _ => modifyFpu_framed

theorem waitOnly_framed : Framed p s₀ waitOnly :=
  .getBind fun _ _ => .bind (ensure_framed raiseNM_framed) fun _ => .bind needNoPending_framed fun _ => freeAllCodes_framed

theorem afterWait_framed {body : M Unit} (hbody : Framed p s₀ body) : Framed p s₀ (afterWait body) :=
  .bind waitOnly_framed fun _ => hbody

theorem needSpan_framed {off : Word} {n : Nat} : Framed p s₀ (needSpan off n) :=
  .getBind fun _ _ => ensure_framed raiseGP_framed

theorem resolvePart_framed {k : Kind} {m : MemRef} {off n : Nat} : Framed p s₀ (resolvePart k m off n) :=
  .getBind fun _ _ => .bind needSpan_framed fun _ => resolve_framed

theorem placeParts_framed {m : MemRef} {ps : List Part} : Framed p s₀ (placeParts m ps) := by
  induction ps with
  | nil => exact .pure
  | cons _ _ ih => exact .bind resolvePart_framed fun _ => .bind ih fun _ => .pure

theorem writeParts_framed {ps : List (List Nat × Nat)} : Framed p s₀ (writeParts ps) := by
  induction ps with
  | nil => exact .pure
  | cons _ _ ih => exact .bind physWrite_framed fun _ => ih

theorem readIf_framed {c : Bool} {m : MemRef} {off n : Nat} : Framed p s₀ (readIf c m off n) := .ite resolvePart_framed .pure

theorem loadX87_framed {wide : Bool} {head regs : Nat} : Framed p s₀ (loadX87 wide head regs) :=
  .bind freeValue_framed fun _ => .modify fun _ h => h

theorem needFxsr_framed : Framed p s₀ needFxsr :=
  .bind needFeature_framed fun _ => .getBind fun _ _ => ensure_framed raiseNM_framed

theorem writeInto_framed {as : List Nat} {ps : List Part} : Framed p s₀ (writeInto as ps) := by
  induction ps with
  | nil => exact .pure
  | cons _ _ ih => exact .bind physWrite_framed fun _ => ih

theorem fxsave_framed {wide : Bool} {m : MemRef} : Framed p s₀ (fxsave wide m) :=
  .bind needFxsr_framed fun _ => .getBind fun _ _ => .bind needSpan_framed fun _ => .bind resolve_framed fun _ =>
    .bind freeValue_framed fun _ => writeInto_framed

theorem fxrstor_framed {wide : Bool} {m : MemRef} : Framed p s₀ (fxrstor wide m) :=
  .bind needFxsr_framed fun _ => .getBind fun _ _ => .bind needSpan_framed fun _ => .bind resolve_framed fun _ =>
    .bind physRead_framed fun _ => .bind (ensure_framed raiseGP_framed) fun _ => .bind freeValue_framed fun _ => .bind loadX87_framed
    fun _ => .modify fun _ h => h.loadXmms _

theorem needXsave_framed {own : Option Config.Feature} {sup : Bool} {m : MemRef} : Framed p s₀ (needXsave own sup m) := by
  refine .bind needOsXsave_framed fun _ => ?_
  dsimp only
  split
  · exact .bind needFeature_framed fun _ => .getBind fun _ _ => .bind (ensure_framed raiseNM_framed) fun _ => .ite (.bind
      needCpl0_framed fun _ => .getBind fun _ _ => ensure_framed raiseGP_framed) (.getBind fun _ _ => ensure_framed
      raiseGP_framed)
  · exact .getBind fun _ _ => .bind (ensure_framed raiseNM_framed) fun _ => .ite (.bind needCpl0_framed fun _ =>
      .getBind fun _ _ => ensure_framed raiseGP_framed) (.getBind fun _ _ => ensure_framed raiseGP_framed)

theorem requested_framed {sup : Bool} : Framed p s₀ (requested sup) :=
  .bind readEdxEax_framed fun _ => .getBind fun _ _ => .pure

theorem xsaveStd_framed {own : Option Config.Feature} {opt wide : Bool} {m : MemRef} : Framed p s₀ (xsaveStd own opt wide m) :=
  .bind needXsave_framed fun _ => .bind requested_framed fun _ => .getBind fun _ _ => .bind placeParts_framed fun _ =>
    .bind resolvePart_framed fun _ => .bind placeParts_framed fun _ => .bind physRead_framed fun _ => .bind writeParts_framed fun _ =>
    .bind writeParts_framed fun _ => physWrite_framed

theorem xsaveCompact_framed {own : Config.Feature} {sup wide : Bool} {m : MemRef} : Framed p s₀ (xsaveCompact own sup wide m) :=
  .bind needXsave_framed fun _ => .bind requested_framed fun _ => .getBind fun _ _ => .bind placeParts_framed fun _ =>
    .bind placeParts_framed fun _ => .bind placeParts_framed fun _ => .bind writeParts_framed fun _ => .bind writeParts_framed
    fun _ => writeParts_framed

theorem component_framed {asked present : Bool} {load init : M Unit} (hload : Framed p s₀ load) (hinit : Framed p s₀ init) :
    Framed p s₀ (component asked present load init) :=
  .ite (.ite hload hinit) .pure

theorem xrestore_framed {own : Option Config.Feature} {sup wide : Bool} {m : MemRef} : Framed p s₀ (xrestore own sup wide m) :=
  .bind needXsave_framed fun _ => .bind requested_framed fun _ => .bind resolvePart_framed fun _ => .bind physRead_framed
    fun _ => .bind resolvePart_framed fun _ => .bind physRead_framed fun _ => .getBind fun _ _ => .bind readIf_framed fun _ =>
    .bind readIf_framed fun _ => .bind readIf_framed fun _ => .bind readIf_framed fun _ => .bind readIf_framed fun _ =>
    .bind (ensure_framed raiseGP_framed) fun _ => .bind physRead_framed fun _ => .bind (ensure_framed raiseGP_framed) fun _ =>
    .bind (component_framed (.bind physRead_framed fun _ => .bind physRead_framed fun _ => loadX87_framed) modifyFpu_framed) fun _ =>
    .bind physRead_framed fun _ => .bind (component_framed (.modify fun _ h => h.loadXmms _) (.modify fun _ h => h.loadXmms _))
    fun _ => .bind physRead_framed fun _ => .bind (component_framed (.modify fun _ h => h.loadHighs _) (.modify fun _ h =>
    h.loadHighs _)) fun _ => .ite (.bind (.modify fun _ h => h) fun _ => .modify fun _ h => h) (.modify fun _ h => h)

end Sys2Proof.Machine
end

section
/-! From a meaning that maintains the frame to a step that does: the end of an instruction, delivery, an aborted transaction. -/

namespace Sys2Proof.Machine

variable {s₀ s t u : State} {body : M Unit}

/-- The states compared are those before and after a whole step: the invariant of memory carries over, and from outside CPL 0 and
outside a transaction the system registers stay. -/
def Steady (s₀ : State) (o : Host.Outcome State Fault Refusal) : Prop :=
  ∀ t, o = .next t → (s₀.Canonical → t.Canonical) ∧ (s₀.privileged = false → s₀.rtm.snapshot = none → SysKept s₀ t)

theorem Frame.canonical {p : Prop} (h : Frame p s₀ s) (hc : s₀.Canonical) : s.Canonical := by
  obtain ⟨hm, hr, -⟩ := h
  refine ⟨hm hc.1, fun n hn => hc.2 n ?_⟩
  rw [← hr]
  exact hn

theorem Frame.steady (h : Frame (s₀.privileged = false) s₀ t) : Steady s₀ (.next t) := by
  intro u hu
  cases hu
  exact ⟨h.canonical, fun hp _ => h.2.2 hp⟩

theorem steady_fault (f : Fault) : Steady s₀ (.fault f) := fun _ h => by cases h
theorem steady_refused (r : Refusal) : Steady s₀ (.refused r) := fun _ h => by cases h

/-- An abort restores the memory of the snapshot. -/
theorem rtmAbort_canonical {st : BitVec 32} (hc : s.Canonical) : (s.rtmAbort st).Canonical := by
  unfold State.rtmAbort
  split
  · exact hc
  · rename_i n hn
    exact ⟨hc.2 n hn, fun m hm => by cases hm⟩

theorem rtmAbort_steady {st : BitVec 32} (h : Frame (s₀.privileged = false) s₀ t) : Steady s₀ (.next (t.rtmAbort st)) := by
  intro u hu
  cases hu
  refine ⟨fun hc => rtmAbort_canonical (h.canonical hc), fun hp hs => ?_⟩
  have ht : t.rtm.snapshot = none := by rw [h.2.1]; exact hs
  have hu : t.rtmAbort st = t := by unfold State.rtmAbort; rw [ht]
  rw [hu]
  exact h.2.2 hp

theorem finish_steady (h : Frame (s₀.privileged = false) s₀ t) : Steady s₀ (.next (s.finish t)) := by
  have habort : ∀ (c : Bool) (st : BitVec 32) {u : State}, Frame (s₀.privileged = false) s₀ u →
      Steady s₀ (.next (if c then u.rtmAbort st else u)) := by
    intro c st u hu
    cases c with
    | true => exact rtmAbort_steady hu
    | false => exact hu.steady
  exact habort _ _ (h.of_eq rfl rfl rfl rfl)

/-- However often delivery is taken up again, it keeps the frame. -/
theorem deliver_steady {k : Nat} {e : Event} (h : Frame (s₀.privileged = false) s₀ s) : Steady s₀ (deliver k e s) := by
  induction k generalizing e s with
  | zero => exact steady_fault _
  | succ k ih =>
    have hd := deliverOnce_framed (e := e) s h
    unfold deliver
    split
    · rename_i t ht
      exact Frame.steady (hd.1 _ _ ht)
    · rename_i x t ht
      have hs : Frame (s₀.privileged = false) s₀ { s with mem := t.mem, free := t.free } := ⟨(hd.2 _ _ ht).1, h.2.1, h.2.2⟩
      dsimp only
      split
      · exact ih (hs.noteCr2 _)
      · exact ih ((hs.noteCr2 _).of_eq rfl rfl rfl rfl)
      · exact Frame.steady ((hs.noteCr2 _).of_eq rfl rfl rfl rfl)
    · exact steady_fault _
    · exact steady_refused _

theorem takeException_steady {e : Exc} (h : Frame (s₀.privileged = false) s₀ s) : Steady s₀ (takeException e s) := by
  unfold takeException
  split
  · exact rtmAbort_steady h
  · exact deliver_steady (h.noteCr2 e)

theorem takeSoftware_steady {k : EventKind} {v : BitVec 8} : Steady s (takeSoftware k v s) := by
  unfold takeSoftware
  split
  · exact rtmAbort_steady (.refl _ s)
  · exact deliver_steady (Frame.of_eq (.refl _ s) rfl rfl rfl rfl)

theorem Frame.rollback {p : Prop} (h : Frame p s₀ s) (ht : Frame p s₀ t) (keep : Bool) : Frame p s₀ (s.rollback t keep) := by
  cases keep with
  | true => exact ht.of_eq rfl rfl rfl rfl
  | false => exact ⟨ht.1, h.2.1, h.2.2⟩

/-- A body that maintains the frame makes a step that does. -/
theorem run_steady_from (h : Frame (s₀.privileged = false) s₀ s) (hb : Framed (s₀.privileged = false) s₀ body) :
    Steady s₀ (run body s) := by
  have hd := hb s.begin (h.of_eq rfl rfl rfl rfl)
  unfold run
  split
  · rename_i ht
    exact finish_steady (hd.1 _ _ ht)
  · rename_i ht
    exact takeException_steady (h.rollback (hd.2 _ _ ht) _)
  · exact steady_fault _
  · exact steady_refused _

theorem run_steady (hb : Framed (s.privileged = false) s body) : Steady s (run body s) := run_steady_from (.refl _ s) hb

/-- A repeated instruction runs its body from the flags at its first entry. -/
theorem repRun_steady {a : ASize} {stops : Flags → Bool} {item : M Unit} (hi : Framed (s.privileged = false) s item) :
    Steady s (repRun a stops item s) := by
  refine run_steady_from (Frame.of_eq (.refl _ s) rfl rfl rfl rfl) ?_
  exact .bind readAddr_framed fun _ => .ite (.bind hi fun _ => .bind writeAddr_framed fun _ => .getBind fun _ h =>
    .ite (.set (h.of_eq rfl rfl rfl rfl)) .pure) .pure

/-! The instructions that write the system registers look at CPL first. -/

/-- Outside CPL 0 the meaning raises an exception before it has done anything. -/
def Blocked {α : Type} (s : State) (m : M α) : Prop := s.privileged = false → ∃ x, Raises m s.begin x s.begin

/-- A check: it passes or raises an exception, and changes nothing. -/
def Checks (m : M Unit) : Prop := ∀ s, Passes m s () s ∨ ∃ x, Raises m s x s

theorem checks_ensure {c : Bool} {x : Exc} : Checks (ensure c (raise x)) := by
  intro s
  cases h : c with
  | true => exact .inl (passes_ensure rfl s)
  | false => exact .inr ⟨x, raises_ensure rfl rfl⟩

theorem checks_getBind {f : State → M Unit} (h : ∀ s, Checks (f s)) : Checks (MonadState.get >>= f) := fun s => h s s

theorem checks_bind {m : M Unit} {f : Unit → M Unit} (hm : Checks m) (hf : Checks (f ())) : Checks (m >>= f) := by
  intro s
  rcases hm s with h | ⟨x, h⟩
  · rcases hf s with h2 | ⟨x, h2⟩
    · exact .inl (passes_bind h h2)
    · exact .inr ⟨x, raises_after h h2⟩
  · exact .inr ⟨x, raises_bind h⟩

theorem checks_needFeature {f : Config.Feature} : Checks (needFeature f) := checks_getBind fun _ => checks_ensure
theorem checks_needProtected : Checks needProtected := checks_getBind fun _ => checks_ensure
theorem checks_needCr {cr : Fin 16} : Checks (needCr cr) := checks_getBind fun _ => checks_ensure
theorem checks_checkTarget {v : Word} : Checks (checkTarget v) := checks_getBind fun _ => checks_ensure
theorem checks_needOsXsave : Checks needOsXsave := checks_bind checks_needFeature (checks_getBind fun _ => checks_ensure)

theorem blocked_needCpl0 : Blocked s needCpl0 :=
  fun h => ⟨_, raises_after (passes_get _) (raises_ensure (show s.begin.privileged = false from h) rfl)⟩

theorem Blocked.bind {α β : Type} {m : M α} {f : α → M β} (h : Blocked s m) : Blocked s (m >>= f) := by
  intro hp
  obtain ⟨x, hx⟩ := h hp
  exact ⟨x, raises_bind hx⟩

/-- Another check may come first. -/
theorem Blocked.after {α : Type} {m : M Unit} {f : Unit → M α} (h : Blocked s (f ())) (hm : Checks m) : Blocked s (m >>= f) := by
  intro hp
  obtain ⟨x, hx⟩ := h hp
  rcases hm s.begin with h1 | ⟨y, h1⟩
  · exact ⟨x, raises_after h1 hx⟩
  · exact ⟨y, raises_bind h1⟩

theorem Frame.weaken {p : Prop} (h : Frame False s₀ s) (hp : ¬p) : Frame p s₀ s := ⟨h.1, h.2.1, fun hq => (hp hq).elim⟩
theorem Frame.strip {p : Prop} (h : Frame p s₀ s) : Frame False s₀ s := ⟨h.1, h.2.1, False.elim⟩

/-- The frame without the system registers. -/
theorem framed_of_not {p : Prop} {α : Type} {m : M α} (h : Framed False s₀ m) (hp : ¬p) : Framed p s₀ m := by
  intro s hs
  obtain ⟨hok, herr⟩ := h s hs.strip
  exact ⟨fun a t ht => (hok a t ht).weaken hp, fun e t ht => (herr e t ht).weaken hp⟩

/-- A privileged instruction keeps the canonical form of memory, and does nothing outside CPL 0. -/
theorem run_steady_privileged (hb : Framed False s body) (hc : Blocked s body) : Steady s (run body s) := by
  by_cases hp : s.privileged = false
  · obtain ⟨x, hx⟩ := hc hp
    rw [run_of_raise hx]
    exact takeException_steady (Frame.rollback (.refl _ s) (Frame.of_eq (.refl _ s) rfl rfl rfl rfl) _)
  · exact run_steady (framed_of_not hb hp)

/-- Writing system registers keeps what is left of the frame at CPL 0. -/
theorem Frame.withSys (h : Frame False s₀ s) (y : Sys) : Frame False s₀ { s with sys := y } := ⟨h.1, h.2.1, False.elim⟩
theorem Frame.withLma (h : Frame False s₀ s) : Frame False s₀ s.withLma := ⟨h.1, h.2.1, False.elim⟩

theorem loadPdptes_returns {t t' u u' : State} (h : (loadPdptes t).run u = .ok t' u') : ∃ v, t' = { t with sys := { t.sys with pdpte := v } } := by
  obtain ⟨a, x, h1, h2⟩ := passes_bind_iff.1 (show Passes (loadPdptes t) u t' u' from h)
  obtain ⟨rfl, -⟩ := passes_pure_iff.1 h2
  exact ⟨_, rfl⟩

theorem installPaging_framed {c : Bool} (ht : Frame False s₀ t) : Framed False s₀ (installPaging c t) := by
  refine .getBind fun _ _ => .ite ?_ (.set ht.withLma)
  intro s hs
  cases hl : (loadPdptes t.withLma).run s with
  | ok t' u =>
    obtain ⟨v, rfl⟩ := loadPdptes_returns hl
    have hset : (loadPdptes t.withLma >>= MonadStateOf.set : M PUnit).run s =
        .ok ⟨⟩ { t.withLma with sys := { t.withLma.sys with pdpte := v } } :=
      passes_bind (show Passes (loadPdptes t.withLma) s _ u from hl) rfl
    rw [hset]
    exact ⟨fun a x hx => by cases hx; exact ht.withLma.withSys _, fun e x hx => by cases hx⟩
  | error e u =>
    have hset : (loadPdptes t.withLma >>= MonadStateOf.set : M PUnit).run s = .error e u := by
      show EStateM.bind _ _ s = _
      unfold EStateM.bind
      rw [show loadPdptes t.withLma s = _ from hl]
    rw [hset]
    exact ⟨fun a x hx => (by cases hx), fun e x hx => by cases hx; exact (loadPdptes_framed s hs).2 _ _ hl⟩

theorem writeCr_framed {cr : Fin 16} {v : Word} : Framed False s₀ (writeCr cr v) :=
  .ite (.getBind fun _ h => .bind (ensure_framed raiseGP_framed) fun _ => installPaging_framed (h.withSys _))
    (.ite (.modify fun _ h => h.withSys _)
      (.ite (.getBind fun _ h => .bind (ensure_framed raiseGP_framed) fun _ => installPaging_framed (h.withSys _))
        (.ite (.getBind fun _ h => .bind (ensure_framed raiseGP_framed) fun _ => installPaging_framed (h.withSys _))
          (.bind (ensure_framed raiseGP_framed) fun _ => .modify fun _ h => h.withSys _))))

theorem Frame.setMsr (h : Frame False s₀ s) (a : BitVec 32) (v : Word) : Frame False s₀ (s.setMsr a v) := by
  have hf : ∀ {t : State}, t.mem = s.mem → t.rtm = s.rtm → Frame False s₀ t := by
    intro t hm hr
    refine ⟨?_, hr.trans h.2.1, False.elim⟩
    rw [hm]
    exact h.1
  unfold State.setMsr
  dsimp only
  split
  all_goals first | exact hf rfl rfl | skip
  split
  · exact hf rfl rfl
  · exact hf rfl rfl

/-! The instructions that begin and end a transaction. -/

/-- What a body that looks before it writes leaves: one condition where it ends with a value, another where it stops. -/
def Ends {α : Type} (m : M α) (s : State) (Q E : State → Prop) : Prop :=
  (∀ a t, m.run s = .ok a t → Q t) ∧ (∀ e t, m.run s = .error e t → E t)

theorem Ends.set {Q E : State → Prop} (h : Q t) : Ends (MonadStateOf.set t : M PUnit) s Q E :=
  ⟨fun _ _ ht => (by cases ht; exact h), fun _ _ ht => by cases ht⟩

theorem Ends.getBind {α : Type} {f : State → M α} {Q E : State → Prop} (h : Ends (f s) s Q E) : Ends (MonadState.get >>= f) s Q E := h

theorem Ends.check {α : Type} {m : M Unit} {f : Unit → M α} {Q E : State → Prop} (hm : Checks m) (hE : E s)
    (h : Ends (f ()) s Q E) : Ends (m >>= f) s Q E := by
  rcases hm s with h1 | ⟨x, h1⟩
  · have hrun : (m >>= f).run s = (f ()).run s := by
      show EStateM.bind m f s = _
      unfold EStateM.bind
      rw [show m s = _ from h1]
      rfl
    unfold Ends
    rw [hrun]
    exact h
  · unfold Ends
    rw [show (m >>= f).run s = _ from raises_bind h1]
    exact ⟨fun _ _ ht => (by cases ht), fun _ _ ht => by cases ht; exact hE⟩

theorem Ends.ite {α : Type} {c : Prop} [Decidable c] {m n : M α} {Q E : State → Prop} (hm : Ends m s Q E) (hn : Ends n s Q E) :
    Ends (if c then m else n) s Q E := by
  split
  · exact hm
  · exact hn

/-- A state in which a transaction may have begun or ended: memory is canonical, its snapshot too, and outside a transaction before
the snapshot has the system registers of the start. -/
def Transacting (s₀ t : State) : Prop :=
  (s₀.Canonical → t.Canonical) ∧ (s₀.rtm.snapshot = none →
    (t.sys = s₀.sys ∧ t.msr.efer = s₀.msr.efer) ∧ ∀ n, t.rtm.snapshot = some n → n.sys = s₀.sys ∧ n.msr.efer = s₀.msr.efer)

theorem sysKept_of_eq (hs : t.sys = s.sys) (he : t.msr.efer = s.msr.efer) : SysKept s t := by
  unfold SysKept
  rw [hs, he]
  exact ⟨rfl, rfl⟩

theorem Transacting.abort {st : BitVec 32} (h : Transacting s₀ t) : Transacting s₀ (t.rtmAbort st) := by
  obtain ⟨hc, hs⟩ := h
  refine ⟨fun h0 => rtmAbort_canonical (hc h0), fun h0 => ?_⟩
  obtain ⟨ht, hn⟩ := hs h0
  unfold State.rtmAbort
  split
  · exact ⟨ht, hn⟩
  · rename_i n hsn
    exact ⟨hn n hsn, fun m hm => by cases hm⟩

theorem Transacting.steady (h : Transacting s₀ t) : Steady s₀ (.next t) := by
  intro u hu
  cases hu
  refine ⟨h.1, fun _ h0 => ?_⟩
  obtain ⟨⟨hs, he⟩, -⟩ := h.2 h0
  exact sysKept_of_eq hs he

theorem Transacting.finish (h : Transacting s₀ t) : Transacting s₀ (s.finish t) := by
  have habort : ∀ (c : Bool) (st : BitVec 32) {u : State}, Transacting s₀ u → Transacting s₀ (if c then u.rtmAbort st else u) := by
    intro c st u hu
    cases c with
    | true => exact hu.abort
    | false => exact hu
  exact habort _ _ h

/-- The state before, with another transaction whose snapshot, if any, is the old one or that of the state. -/
theorem transacting_rtm {r : Rtm} {q : Pins} (h : r.snapshot = none ∨ r.snapshot = s.rtm.snapshot ∨ r.snapshot = some s.begin.snapshot) :
    Transacting s { s.begin with rtm := r, pins := q } := by
  refine ⟨fun h0 => ⟨h0.1, fun n hn => ?_⟩, fun h0 => ⟨⟨rfl, rfl⟩, fun n hn => ?_⟩⟩
  · rcases h with h | h | h
    · rw [show r.snapshot = _ from hn] at h; cases h
    · exact h0.2 n (h ▸ hn)
    · rw [show r.snapshot = _ from hn] at h; cases h; exact h0.1
  · rcases h with h | h | h
    · rw [show r.snapshot = _ from hn] at h; cases h
    · rw [show r.snapshot = _ from hn, h0] at h; cases h
    · rw [show r.snapshot = _ from hn] at h; cases h; exact ⟨rfl, rfl⟩

theorem run_steady_transacting (hb : Ends body s.begin (Transacting s) (· = s.begin)) : Steady s (run body s) := by
  unfold run
  split
  · rename_i ht
    exact (hb.1 _ _ ht).finish.steady
  · rename_i ht
    rw [hb.2 _ _ ht]
    exact takeException_steady (Frame.rollback (.refl _ s) (Frame.of_eq (.refl _ s) rfl rfl rfl rfl) _)
  · exact steady_fault _
  · exact steady_refused _

theorem execXbegin_steady {o : XbeginOps} : Steady s (execXbegin o s) := by
  have hsame : Transacting s s.begin := transacting_rtm (r := s.rtm) (q := s.pins) (.inr (.inl rfl))
  refine run_steady_transacting (.check checks_needFeature rfl (.getBind (.ite (.ite ?_ ?_) ?_)))
  · exact .check checks_checkTarget rfl (.set (transacting_rtm (q := s.pins) (.inr (.inr rfl))))
  · exact .set (transacting_rtm (q := s.pins) (.inr (.inl rfl)))
  · exact .set hsame.abort

theorem execXend_steady : Steady s (execXend s) := by
  refine run_steady_transacting (.check checks_needFeature rfl (.getBind (.check checks_ensure rfl (.ite ?_ ?_))))
  · dsimp only
    split
    · exact .set (Transacting.abort (transacting_rtm (r := s.rtm) (.inr (.inl rfl))))
    · exact .set (transacting_rtm (q := s.pins) (.inl rfl))
  · exact .set (transacting_rtm (q := s.pins) (.inr (.inl rfl)))

theorem execXabort_steady {imm : BitVec 8} : Steady s (execXabort imm s) := by
  have hsame : Transacting s s.begin := transacting_rtm (r := s.rtm) (q := s.pins) (.inr (.inl rfl))
  refine run_steady_transacting (.check checks_needFeature rfl ⟨fun _ _ ht => ?_, fun _ _ ht => by cases ht⟩)
  cases ht
  exact hsame.abort

end Sys2Proof.Machine
end

section
/-! Every instruction makes a steady step: those with more than one shared operation first, then the table. -/

namespace Sys2Proof.Machine

variable {s : State}

theorem execAaa_steady : Steady s (execAaa s) :=
  run_steady (.bind notInLong_framed fun _ => .bind readAl_framed fun _ => .getBind fun _ _ => .bind readReg_framed fun _ =>
    .bind writeReg_framed fun _ => .getBind fun _ _ => .bind undefStatus_framed fun _ => modifyFlags_framed)

theorem execAad_steady {imm : BitVec 8} : Steady s (execAad imm s) :=
  run_steady (.bind notInLong_framed fun _ => .bind readAl_framed fun _ => .bind readGp_framed fun _ => .bind writeReg_framed
    fun _ => setByteResult_framed)

theorem execAam_steady {imm : BitVec 8} : Steady s (execAam imm s) :=
  run_steady (.bind notInLong_framed fun _ => .bind (ensure_framed raiseDE_framed) fun _ => .bind readAl_framed fun _ =>
    .bind writeReg_framed fun _ => setByteResult_framed)

theorem execAas_steady : Steady s (execAas s) :=
  run_steady (.bind notInLong_framed fun _ => .bind readAl_framed fun _ => .getBind fun _ _ => .bind readReg_framed fun _ =>
    .bind writeReg_framed fun _ => .getBind fun _ _ => .bind undefStatus_framed fun _ => modifyFlags_framed)

theorem execAdcx_steady {o : RegRm} : Steady s (execAdcx o s) :=
  run_steady (.bind needFeature_framed fun _ => .bind readRm_framed fun _ => .bind readReg_framed fun _ => .getBind fun _ _ =>
    .bind modifyFlags_framed fun _ => writeReg_framed)

theorem execAdox_steady {o : RegRm} : Steady s (execAdox o s) :=
  run_steady (.bind needFeature_framed fun _ => .bind readRm_framed fun _ => .bind readReg_framed fun _ => .getBind fun _ _ =>
    .bind modifyFlags_framed fun _ => writeReg_framed)

theorem execAndn_steady {o : Vg3} : Steady s (execAndn o s) :=
  run_steady (.bind needVexGpr_framed fun _ => .bind readRm_framed fun _ => .bind readReg_framed fun _ => .getBind fun _ _ =>
    .bind undefStatus_framed fun _ => .bind modifyFlags_framed fun _ => writeReg_framed)

theorem execArpl_steady {o : MrOps} : Steady s (execArpl o s) :=
  run_steady (.getBind fun _ _ => .bind (ensure_framed raiseUD_framed) fun _ => .bind place_framed fun _ =>
    .bind readPlace_framed fun _ => .bind readGp_framed fun _ => .bind modifyFlags_framed fun _ => .ite writePlace_framed .pure)

theorem execVblendpd_steady {o : VVXI} : Steady s (execVblendpd o s) :=
  run_steady (.bind needVex_framed fun _ => .bind readVx_framed fun _ => .bind readVec_framed fun _ => writeVec_framed)

theorem execBextr_steady {o : Vg3} : Steady s (execBextr o s) :=
  run_steady (.bind needVexGpr_framed fun _ => .bind readRm_framed fun _ => .bind readReg_framed fun _ => .getBind fun _ _ =>
    .bind undefStatus_framed fun _ => .bind modifyFlags_framed fun _ => writeReg_framed)

theorem execVblendps_steady {o : VVXI} : Steady s (execVblendps o s) :=
  run_steady (.bind needVex_framed fun _ => .bind readVx_framed fun _ => .bind readVec_framed fun _ => writeVec_framed)

theorem execBlendvpd_steady {o : XX} : Steady s (execBlendvpd o s) :=
  run_steady (.bind needSse_framed fun _ => .bind readXm_framed fun _ => .bind readXmm_framed fun _ => .bind readXmm_framed
    fun _ => writeXmm_framed)

theorem execVblendvpd_steady {o : VVXR} : Steady s (execVblendvpd o s) :=
  run_steady (.bind needVex_framed fun _ => .bind readVx_framed fun _ => .bind readVec_framed fun _ => .bind readVec_framed
    fun _ => writeVec_framed)

theorem execBlendvps_steady {o : XX} : Steady s (execBlendvps o s) :=
  run_steady (.bind needSse_framed fun _ => .bind readXm_framed fun _ => .bind readXmm_framed fun _ => .bind readXmm_framed
    fun _ => writeXmm_framed)

theorem execVblendvps_steady {o : VVXR} : Steady s (execVblendvps o s) :=
  run_steady (.bind needVex_framed fun _ => .bind readVx_framed fun _ => .bind readVec_framed fun _ => .bind readVec_framed
    fun _ => writeVec_framed)

theorem execBound_steady {o : RegMem} : Steady s (execBound o s) :=
  run_steady (.bind notInLong_framed fun _ => .getBind fun _ _ => .bind memRead_framed fun _ => .bind memRead_framed fun _ =>
    .bind readReg_framed fun _ => ensure_framed raise_framed)

theorem execBswap_steady {o : RegOp} : Steady s (execBswap o s) :=
  run_steady (.ite undefReg_framed (.bind readReg_framed fun _ => writeReg_framed))

theorem execBzhi_steady {o : Vg3} : Steady s (execBzhi o s) :=
  run_steady (.bind needVexGpr_framed fun _ => .bind readRm_framed fun _ => .bind readReg_framed fun _ => .getBind fun _ _ =>
    .bind undefStatus_framed fun _ => .bind modifyFlags_framed fun _ => writeReg_framed)

theorem execCall_steady {o : CallOps} : Steady s (execCall o s) := by
  refine run_steady ?_
  split
  · exact .bind relTarget_framed fun _ => callNear_framed
  · exact .bind readRm_framed fun _ => callNear_framed
  · exact .bind farPtr_framed fun ⟨_, _⟩ => callFar_framed
  · exact .bind readFarPtr_framed fun ⟨_, _⟩ => callFar_framed

theorem execClc_steady : Steady s (execClc s) := run_steady modifyFlags_framed

theorem execCld_steady : Steady s (execCld s) := run_steady modifyFlags_framed

theorem execClflush_steady {o : MemRef} : Steady s (execClflush o s) := by
  refine run_steady (.bind needFeature_framed fun _ => .getBind fun _ _ => ?_)
  dsimp only
  split
  · exact raiseGP_framed
  · exact raiseLimit_framed
  · exact .bind translate_framed fun _ => .pure

theorem execCli_steady : Steady s (execCli s) := by
  refine run_steady (.getBind fun _ _ => ?_)
  split
  · exact modifyFlags_framed
  · exact modifyFlags_framed
  · exact raiseGP_framed

theorem execClts_steady : Steady s (execClts s) :=
  run_steady_privileged (.bind needCpl0_framed fun _ => .modify fun _ h => h.withSys _) blocked_needCpl0.bind

theorem execCmc_steady : Steady s (execCmc s) := run_steady modifyFlags_framed

theorem execCpuid_steady : Steady s (execCpuid s) := run_steady (.modify fun _ h => h.of_eq rfl rfl rfl rfl)

theorem execCrc32_steady {o : CrcOps} : Steady s (execCrc32 o s) :=
  run_steady (.bind needFeature_framed fun _ => .bind readRm_framed fun _ => .bind readReg_framed fun _ => writeReg_framed)

theorem execCvtpi2pd_steady {o : XMm} : Steady s (execCvtpi2pd o s) := by
  refine run_steady (.bind needSse_framed fun _ => ?_)
  dsimp only
  split
  · exact .bind needNoPending_framed fun _ => .bind enterMmx_framed fun _ => .bind readMmM_framed fun _ => .bind fpEnv_framed
      fun _ => .bind commit_framed fun _ => writeXmm_framed
  · exact .bind readMmM_framed fun _ => .bind fpEnv_framed fun _ => .bind commit_framed fun _ => writeXmm_framed

theorem execCvtpi2ps_steady {o : XMm} : Steady s (execCvtpi2ps o s) :=
  run_steady (.bind needSse_framed fun _ => .bind needNoPending_framed fun _ => .bind readMmM_framed fun _ => .bind fpEnv_framed
    fun _ => .bind commit_framed fun _ => .bind readXmm_framed fun _ => .bind writeXmm_framed fun _ => enterMmx_framed)

theorem execDaa_steady : Steady s (execDaa s) :=
  run_steady (.bind notInLong_framed fun _ => .bind readAl_framed fun _ => .getBind fun _ _ => .bind writeAl_framed fun _ =>
    .bind freeBit_framed fun _ => modifyFlags_framed)

theorem execDas_steady : Steady s (execDas s) :=
  run_steady (.bind notInLong_framed fun _ => .bind readAl_framed fun _ => .getBind fun _ _ => .bind writeAl_framed fun _ =>
    .bind freeBit_framed fun _ => modifyFlags_framed)

theorem execDiv_steady {o : RmOp} : Steady s (execDiv o s) :=
  run_steady (.bind readRm_framed fun _ => .bind (ensure_framed raiseDE_framed) fun _ => .bind readDouble_framed fun _ =>
    .bind (ensure_framed raiseDE_framed) fun _ => .bind writeQuotRem_framed fun _ => clobberStatus_framed)

theorem execEnter_steady {o : EnterOps} : Steady s (execEnter o s) :=
  run_steady (.getBind fun _ _ => .bind pushFrom_framed fun ⟨_, _⟩ => .bind enterCopies_framed fun ⟨_, _⟩ =>
    .bind pushFrom_framed fun ⟨_, _⟩ => .bind probeStack_framed fun _ => .bind pushStore_framed fun _ => .bind (.modify fun _ h =>
    h.copied _) fun _ => .bind pushStore_framed fun _ => .modify fun _ h => h)

theorem execFbld_steady {o : MemRef} : Steady s (execFbld o s) := by
  refine run_steady (.bind enterFpu_framed fun _ => .bind readFpu_framed fun _ => ?_)
  dsimp only
  split
  · exact .bind .pure fun _ => pushValue_framed
  · exact .bind freeValue_framed fun _ => pushValue_framed

theorem execFdecstp_steady : Steady s (execFdecstp s) :=
  run_steady (.bind enterFpu_framed fun _ => .bind freeCodes_framed fun _ => modifyFpu_framed)

theorem execFfree_steady {o : Fin 8} : Steady s (execFfree o s) :=
  run_steady (.bind enterFpu_framed fun _ => .bind freeAllCodes_framed fun _ => modifyFpu_framed)

theorem execFild_steady {o : FpInt64} : Steady s (execFild o s) :=
  run_steady (.bind enterFpu_framed fun _ => .bind readInt_framed fun _ => pushValue_framed)

theorem execFincstp_steady : Steady s (execFincstp s) :=
  run_steady (.bind enterFpu_framed fun _ => .bind freeCodes_framed fun _ => modifyFpu_framed)

theorem execFistp_steady {o : FpInt64} : Steady s (execFistp o s) := by
  refine run_steady ?_
  split
  · exact storeInt_framed
  · exact storeInt_framed
  · exact storeInt_framed

theorem execFisttp_steady {o : FpInt64} : Steady s (execFisttp o s) := by
  refine run_steady (.bind needFeature_framed fun _ => ?_)
  split
  · exact storeChop_framed
  · exact storeChop_framed
  · exact storeChop_framed

theorem execFld_steady {o : FpLd} : Steady s (execFld o s) := by
  refine run_steady ?_
  split
  · exact .bind enterFpu_framed fun _ => .bind readFpu_framed fun _ => pushConverted_framed
  · exact .bind enterFpu_framed fun _ => .bind readFpu_framed fun _ => pushConverted_framed
  · exact .bind enterFpu_framed fun _ => .bind readFpu_framed fun _ => pushValue_framed
  · exact .bind enterFpu_framed fun _ => loadSt_framed

theorem execFldenv_steady {o : FpEnv} : Steady s (execFldenv o s) :=
  run_steady (.bind waitFpu_framed fun _ => .bind readFpu_framed fun _ => .modify fun _ h => h)

theorem execFptan_steady : Steady s (execFptan s) :=
  run_steady (trig_framed .pure faultTwo_framed (fun _ => needFree_framed faultTwo_framed (.bind xEnv_framed fun _ =>
    deliverTwo_framed)))

theorem execFrstor_steady {o : FpEnv} : Steady s (execFrstor o s) :=
  run_steady (.bind waitFpu_framed fun _ => .bind readFpu_framed fun _ => .modify fun _ h => h)

theorem execFscale_steady : Steady s (execFscale s) :=
  run_steady (.bind enterFpu_framed fun _ => needStFree_framed underflowSt_framed (.bind xEnv_framed fun _ => .bind argSt_framed
    fun _ => .bind argSt_framed fun _ => deliverSt_framed))

theorem execFsincos_steady : Steady s (execFsincos s) :=
  run_steady (trig_framed .pure faultTwo_framed (fun _ => needFree_framed faultTwo_framed (.bind xEnv_framed fun _ =>
    deliverTwo_framed)))

theorem execFst_steady {o : FpCom} : Steady s (execFst o s) := by
  refine run_steady ?_
  split
  · exact storeF32_framed
  · exact storeF64_framed
  · exact copySt_framed

theorem execFstp_steady {o : FpLd} : Steady s (execFstp o s) := by
  refine run_steady ?_
  split
  · exact storeF32_framed
  · exact storeF64_framed
  · exact storeSt_framed
  · exact copySt_framed

theorem execFtst_steady : Steady s (execFtst s) :=
  run_steady (.bind enterFpu_framed fun _ => needSt_framed underflowCompare_framed compareWith_framed)

theorem execFxch_steady {o : Fin 8} : Steady s (execFxch o s) :=
  run_steady (.bind enterFpu_framed fun _ => .bind getFpu_framed fun _ => .ite (.bind stackFault_framed fun _ =>
    .bind freeCodes_framed fun _ => .ite (.bind getFpu_framed fun _ => modifyFpu_framed) .pure) (.bind .pure fun _ =>
    .bind freeCodes_framed fun _ => .ite (.bind getFpu_framed fun _ => modifyFpu_framed) .pure))

theorem execFxtract_steady : Steady s (execFxtract s) :=
  run_steady (.bind enterFpu_framed fun _ => .bind freeCodes_framed fun _ => needTwo_framed (.bind xEnv_framed fun _ =>
    .bind freeValue_framed fun _ => .bind argSt_framed fun _ => deliverTwo_framed))

theorem execIdiv_steady {o : RmOp} : Steady s (execIdiv o s) :=
  run_steady (.bind readRm_framed fun _ => .bind (ensure_framed raiseDE_framed) fun _ => .bind readDouble_framed fun _ =>
    .bind (ensure_framed raiseDE_framed) fun _ => .bind writeQuotRem_framed fun _ => clobberStatus_framed)

theorem execImul_steady {o : ImulOps} : Steady s (execImul o s) := by
  refine run_steady ?_
  split
  · exact .bind readRm_framed fun _ => .bind readReg_framed fun _ => .bind writeDouble_framed fun _ => setProductFlags_framed
  · exact .bind readRm_framed fun _ => .bind readReg_framed fun _ => .bind writeReg_framed fun _ => setProductFlags_framed
  · exact .bind readRm_framed fun _ => .bind writeReg_framed fun _ => setProductFlags_framed

theorem execInp_steady {o : IoOps} : Steady s (execInp o s) :=
  run_steady (.getBind fun _ _ => .bind ioCheck_framed fun _ => .bind portRead_framed fun _ => writeReg_framed)

theorem execInsertps_steady {o : XXI} : Steady s (execInsertps o s) :=
  run_steady (.bind needSse_framed fun _ => .bind insertPsSource_framed fun _ => .bind readXmm_framed fun _ => writeXmm_framed)

theorem execVinsertps_steady {o : VVXI} : Steady s (execVinsertps o s) :=
  run_steady (.bind needVex_framed fun _ => .bind insertPsSource_framed fun _ => .bind readXmm_framed fun _ => writeVec_framed)

theorem execInto_steady : Steady s (execInto s) := by
  unfold execInto
  split
  · exact run_steady raiseUD_framed
  · split
    · exact takeSoftware_steady
    · exact run_steady .pure

theorem execInvpcid_steady {o : RegMem} : Steady s (execInvpcid o s) :=
  run_steady (.bind needFeature_framed fun _ => .bind needCpl0_framed fun _ => .bind readMem_framed fun _ =>
    .bind readReg_framed fun _ => .getBind fun _ _ => ensure_framed raiseGP_framed)

theorem execJmpNear_steady {o : JmpOps} : Steady s (execJmpNear o s) := by
  refine run_steady ?_
  split
  · exact .bind relTarget_framed fun _ => jumpNear_framed
  · exact .bind readRm_framed fun _ => jumpNear_framed

theorem execJmpFar_steady {o : FarOps} : Steady s (execJmpFar o s) := by
  refine run_steady ?_
  split
  · exact .bind farPtr_framed fun ⟨_, _⟩ => jmpFar_framed
  · exact .bind readFarPtr_framed fun ⟨_, _⟩ => jmpFar_framed

theorem execLar_steady {o : RegRm} : Steady s (execLar o s) := by
  refine run_steady (.bind needProtected_framed fun _ => .bind readRm_framed fun _ => .getBind fun _ _ => .bind inspect_framed
    fun _ => ?_)
  split
  · exact setZf_framed
  · exact .ite (.bind freeValue_framed fun _ => .bind writeReg_framed fun _ => setZf_framed) setZf_framed

theorem execLddqu_steady {o : XMem} : Steady s (execLddqu o s) :=
  run_steady (.bind needSse_framed fun _ => .bind readXm_framed fun _ => writeXmm_framed)

theorem execVlddqu_steady {o : VXMem} : Steady s (execVlddqu o s) :=
  run_steady (.bind needVex_framed fun _ => .bind readXm_framed fun _ => writeVec_framed)

theorem execLdmxcsr_steady {o : MemRef} : Steady s (execLdmxcsr o s) :=
  run_steady (.bind needSse_framed fun _ => loadMxcsr_framed)

theorem execVldmxcsr_steady {o : MemRef} : Steady s (execVldmxcsr o s) :=
  run_steady (.bind needVex_framed fun _ => loadMxcsr_framed)

theorem execLeave_steady {w : Width} : Steady s (execLeave w s) :=
  run_steady (.getBind fun _ _ => .bind (ensure_framed raiseGP_framed) fun _ => .bind writeSp_framed fun _ => .bind pop_framed
    fun _ => writeReg_framed)

theorem execLgdt_steady {o : FarMem} : Steady s (execLgdt o s) :=
  run_steady_privileged (.bind needCpl0_framed fun _ => .bind readTable_framed fun _ => .modify fun _ h => h.withSys _)
    blocked_needCpl0.bind

theorem execLidt_steady {o : FarMem} : Steady s (execLidt o s) :=
  run_steady_privileged (.bind needCpl0_framed fun _ => .bind readTable_framed fun _ => .modify fun _ h => h.withSys _)
    blocked_needCpl0.bind

theorem execLldt_steady {o : Rm} : Steady s (execLldt o s) :=
  run_steady_privileged (.bind needProtected_framed fun _ => .bind needCpl0_framed fun _ => .bind readRm_framed fun _ =>
    .ite (.modify fun _ h => h.withSys _) (.bind gdtSystem_framed fun ⟨_, _⟩ => .bind (ensure_framed raiseGP_framed) fun _ =>
      .bind (ensure_framed raiseNP_framed) fun _ => .modify fun _ h => h.withSys _))
    (.after blocked_needCpl0.bind checks_needProtected)

theorem execLmsw_steady {o : Rm} : Steady s (execLmsw o s) :=
  run_steady_privileged (.bind needCpl0_framed fun _ => .bind readRm_framed fun _ => .modify fun _ h => h.withSys _)
    blocked_needCpl0.bind

theorem execLtr_steady {o : Rm} : Steady s (execLtr o s) :=
  run_steady_privileged (.bind needProtected_framed fun _ => .bind needCpl0_framed fun _ => .bind readRm_framed fun _ =>
    .bind (ensure_framed raiseGP_framed) fun _ => .bind gdtSystem_framed fun ⟨_, _⟩ => .getBind fun _ _ =>
    .bind (ensure_framed raiseGP_framed) fun _ => .bind (ensure_framed raiseGP_framed) fun _ =>
    .bind (ensure_framed raiseNP_framed) fun _ => .bind sysResolve_framed fun _ => .bind physRead_framed fun _ =>
    .bind physWrite_framed fun _ => .modify fun _ h => h.withSys _)
    (.after blocked_needCpl0.bind checks_needProtected)

theorem execLsl_steady {o : RegRm} : Steady s (execLsl o s) := by
  refine run_steady (.bind needProtected_framed fun _ => .bind readRm_framed fun _ => .getBind fun _ _ => .bind inspect_framed
    fun _ => ?_)
  split
  · exact setZf_framed
  · exact .ite (.bind writeReg_framed fun _ => setZf_framed) setZf_framed

theorem execMaskmovdqu_steady {o : XMask} : Steady s (execMaskmovdqu o s) :=
  run_steady (.bind needSse_framed fun _ => .bind readXmm_framed fun _ => .bind readXmm_framed fun _ => maskStore_framed)

theorem execVmaskmovdqu_steady {o : XMask} : Steady s (execVmaskmovdqu o s) :=
  run_steady (.bind needVex_framed fun _ => .bind readXmm_framed fun _ => .bind readXmm_framed fun _ => maskStore_framed)

theorem execMaskmovq_steady {o : MMask} : Steady s (execMaskmovq o s) :=
  run_steady (.bind needMmx_framed fun _ => .bind readMm_framed fun _ => .bind readMm_framed fun _ => .bind maskStore_framed
    fun _ => enterMmx_framed)

theorem execMonitor_steady {o : MonOps} : Steady s (execMonitor o s) :=
  run_steady (.bind needMonitor_framed fun _ => .bind monitorExt_framed fun _ => .bind (ensure_framed raiseGP_framed) fun _ =>
    .bind readAddr_framed fun _ => .bind resolve_framed fun _ => .modify fun _ h => h)

theorem execMovSeg_steady {o : MovSegOps} : Steady s (execMovSeg o s) := by
  refine run_steady ?_
  split
  · exact .bind (ensure_framed raiseUD_framed) fun _ => .bind readRm_framed fun _ => .bind loadSeg_framed fun _ =>
      inhibitAfterSs_framed
  · exact .getBind fun _ _ => writeGp_framed
  · exact .getBind fun _ _ => writeRm_framed

theorem execMovCr_steady {o : MovCrOps} : Steady s (execMovCr o s) := by
  cases o with
  | store _ _ =>
    exact run_steady (.bind needCr_framed fun _ => .bind needCpl0_framed fun _ => .getBind fun _ _ => .bind writeReg_framed fun _ =>
      clobberStatus_framed)
  | load _ _ =>
    exact run_steady_privileged (.bind needCr_framed fun _ => .bind needCpl0_framed fun _ => .getBind fun _ _ =>
      .bind readReg_framed fun _ => .bind writeCr_framed fun _ => clobberStatus_framed)
      (.after blocked_needCpl0.bind checks_needCr)

theorem execMovDr_steady {o : MovDrOps} : Steady s (execMovDr o s) := by
  cases o with
  | store _ _ =>
    exact run_steady (.bind openDr_framed fun _ => .getBind fun _ _ => .bind writeReg_framed fun _ => clobberStatus_framed)
  | load _ _ =>
    exact run_steady_privileged (.bind openDr_framed fun _ => .getBind fun _ _ => .bind readReg_framed fun _ =>
      .bind (ensure_framed raiseGP_framed) fun _ => .bind (.modify fun _ h => h.withSys _) fun _ => clobberStatus_framed)
      blocked_needCpl0.bind.bind

theorem execMovbe_steady {o : MovbeOps} : Steady s (execMovbe o s) := by
  refine run_steady (.bind needFeature_framed fun _ => ?_)
  split
  · exact .bind readRm_framed fun _ => writeReg_framed
  · exact .bind readReg_framed fun _ => writeRm_framed

theorem execVmovddup_steady {o : VX} : Steady s (execVmovddup o s) := by
  refine run_steady (.bind needVex_framed fun _ => ?_)
  split
  · exact .bind readXm_framed fun _ => writeVec_framed
  · exact .bind readXm_framed fun _ => writeVec_framed

theorem execMovdq2q_steady {o : Dq2qOps} : Steady s (execMovdq2q o s) :=
  run_steady (.bind needSse_framed fun _ => .bind needNoPending_framed fun _ => .bind readXmm_framed fun _ =>
    .bind writeMm_framed fun _ => enterMmx_framed)

theorem execMovhlps_steady {o : XReg} : Steady s (execMovhlps o s) :=
  run_steady (.bind needSse_framed fun _ => .bind readXmm_framed fun _ => .bind readXmm_framed fun _ => writeXmm_framed)

theorem execVmovhlps_steady {o : VReg3} : Steady s (execVmovhlps o s) :=
  run_steady (.bind needVex_framed fun _ => .bind readXmm_framed fun _ => .bind readXmm_framed fun _ => writeVec_framed)

theorem execMovlhps_steady {o : XReg} : Steady s (execMovlhps o s) :=
  run_steady (.bind needSse_framed fun _ => .bind readXmm_framed fun _ => .bind readXmm_framed fun _ => writeXmm_framed)

theorem execVmovlhps_steady {o : VReg3} : Steady s (execVmovlhps o s) :=
  run_steady (.bind needVex_framed fun _ => .bind readXmm_framed fun _ => .bind readXmm_framed fun _ => writeVec_framed)

theorem execMovmskpd_steady {o : XReg} : Steady s (execMovmskpd o s) :=
  run_steady (.bind needSse_framed fun _ => .bind readXmm_framed fun _ => signMask_framed)

theorem execVmovmskpd_steady {o : VGMask} : Steady s (execVmovmskpd o s) :=
  run_steady (.bind needVex_framed fun _ => .bind readVec_framed fun _ => signMask_framed)

theorem execMovmskps_steady {o : XReg} : Steady s (execMovmskps o s) :=
  run_steady (.bind needSse_framed fun _ => .bind readXmm_framed fun _ => signMask_framed)

theorem execVmovmskps_steady {o : VGMask} : Steady s (execVmovmskps o s) :=
  run_steady (.bind needVex_framed fun _ => .bind readVec_framed fun _ => signMask_framed)

theorem execMovntdqa_steady {o : XMem} : Steady s (execMovntdqa o s) :=
  run_steady (.bind needSse_framed fun _ => .bind readXm_framed fun _ => writeXmm_framed)

theorem execVmovntdqa_steady {o : VXMem} : Steady s (execVmovntdqa o s) :=
  run_steady (.bind needVex_framed fun _ => .bind readXm_framed fun _ => writeVec_framed)

theorem execMovnti_steady {o : RegMem} : Steady s (execMovnti o s) :=
  run_steady (.bind needFeature_framed fun _ => .bind readReg_framed fun _ => writeRm_framed)

theorem execMovntq_steady {o : MemM} : Steady s (execMovntq o s) :=
  run_steady (.bind needMmx_framed fun _ => .bind resolveMem_framed fun _ => .bind readMm_framed fun _ => .bind physWrite_framed
    fun _ => enterMmx_framed)

theorem execMovq2dq_steady {o : Q2dqOps} : Steady s (execMovq2dq o s) :=
  run_steady (.bind needSse_framed fun _ => .bind needNoPending_framed fun _ => .bind readMm_framed fun _ =>
    .bind writeXmm_framed fun _ => enterMmx_framed)

theorem execVmpsadbw_steady {o : VVXI} : Steady s (execVmpsadbw o s) :=
  run_steady (.bind needVex_framed fun _ => .bind readVx_framed fun _ => .bind readVec_framed fun _ => writeVec_framed)

theorem execMul_steady {o : RmOp} : Steady s (execMul o s) :=
  run_steady (.bind readRm_framed fun _ => .bind readReg_framed fun _ => .bind writeDouble_framed fun _ => .bind freeBit_framed
    fun _ => setProductFlags_framed)

theorem execMulx_steady {o : Vg3} : Steady s (execMulx o s) :=
  run_steady (.bind needVexGpr_framed fun _ => .bind readRm_framed fun _ => .bind readReg_framed fun _ => .bind writeReg_framed
    fun _ => writeReg_framed)

theorem execMwait_steady : Steady s (execMwait s) :=
  run_steady (.bind needMonitor_framed fun _ => .bind monitorExt_framed fun _ => .getBind fun _ _ => .bind (ensure_framed
    raiseGP_framed) fun _ => .modify fun _ h => .choose h h)

theorem execOut_steady {o : IoOps} : Steady s (execOut o s) :=
  run_steady (.getBind fun _ _ => .bind ioCheck_framed fun _ => .bind readReg_framed fun _ => portWrite_framed)

theorem execPalignr_steady {o : MXI} : Steady s (execPalignr o s) := by
  refine run_steady ?_
  split
  · exact mxRun_framed
  · exact mxRun_framed

theorem execPblendvb_steady {o : XX} : Steady s (execPblendvb o s) :=
  run_steady (.bind needSse_framed fun _ => .bind readXm_framed fun _ => .bind readXmm_framed fun _ => .bind readXmm_framed
    fun _ => writeXmm_framed)

theorem execVpblendvb_steady {o : VVXR} : Steady s (execVpblendvb o s) :=
  run_steady (.bind needVex_framed fun _ => .bind readVx_framed fun _ => .bind readVec_framed fun _ => .bind readVec_framed
    fun _ => writeVec_framed)

theorem execPcmpestri_steady {o : StrCmp} : Steady s (execPcmpestri o s) :=
  run_steady (.bind needSse_framed fun _ => .bind strOperands_framed fun ⟨_, _⟩ => .bind readReg_framed fun _ =>
    .bind readReg_framed fun _ => strToIndex_framed)

theorem execVpcmpestri_steady {o : VXI} : Steady s (execVpcmpestri o s) :=
  run_steady (.bind needVex_framed fun _ => .bind strOperands_framed fun ⟨_, _⟩ => .bind readReg_framed fun _ =>
    .bind readReg_framed fun _ => strToIndex_framed)

theorem execPcmpestrm_steady {o : StrCmp} : Steady s (execPcmpestrm o s) :=
  run_steady (.bind needSse_framed fun _ => .bind strOperands_framed fun ⟨_, _⟩ => .bind readReg_framed fun _ =>
    .bind readReg_framed fun _ => strToMask_framed)

theorem execVpcmpestrm_steady {o : VXI} : Steady s (execVpcmpestrm o s) :=
  run_steady (.bind needVex_framed fun _ => .bind strOperands_framed fun ⟨_, _⟩ => .bind readReg_framed fun _ =>
    .bind readReg_framed fun _ => strToMask_framed)

theorem execPcmpistri_steady {o : StrCmp} : Steady s (execPcmpistri o s) :=
  run_steady (.bind needSse_framed fun _ => .bind strOperands_framed fun ⟨_, _⟩ => strToIndex_framed)

theorem execVpcmpistri_steady {o : VXI} : Steady s (execVpcmpistri o s) :=
  run_steady (.bind needVex_framed fun _ => .bind strOperands_framed fun ⟨_, _⟩ => strToIndex_framed)

theorem execPcmpistrm_steady {o : XXI} : Steady s (execPcmpistrm o s) :=
  run_steady (.bind needSse_framed fun _ => .bind strOperands_framed fun ⟨_, _⟩ => strToMask_framed)

theorem execVpcmpistrm_steady {o : VXI} : Steady s (execVpcmpistrm o s) :=
  run_steady (.bind needVex_framed fun _ => .bind strOperands_framed fun ⟨_, _⟩ => strToMask_framed)

theorem execPdep_steady {o : Vg3} : Steady s (execPdep o s) :=
  run_steady (.bind needVexGpr_framed fun _ => .bind readRm_framed fun _ => .bind readReg_framed fun _ => writeReg_framed)

theorem execPext_steady {o : Vg3} : Steady s (execPext o s) :=
  run_steady (.bind needVexGpr_framed fun _ => .bind readRm_framed fun _ => .bind readReg_framed fun _ => writeReg_framed)

theorem execPextrw_steady {o : PextrwOps} : Steady s (execPextrw o s) := by
  refine run_steady ?_
  split
  · exact .bind needMmx_framed fun _ => .bind readMm_framed fun _ => .bind writeWide_framed fun _ => enterMmx_framed
  · exact extractRun_framed needSse_framed
  · exact extractRun_framed needSse_framed

theorem execPinsrw_steady {o : PinsrwOps} : Steady s (execPinsrw o s) := by
  refine run_steady ?_
  split
  · exact .bind needMmx_framed fun _ => .bind readInsert_framed fun _ => .bind readMm_framed fun _ => .bind writeMm_framed
      fun _ => enterMmx_framed
  · exact insertRun_framed

theorem execPmovmskb_steady {o : GMask} : Steady s (execPmovmskb o s) := by
  refine run_steady ?_
  split
  · exact .bind needMmx_framed fun _ => .bind readMm_framed fun _ => .bind writeWide_framed fun _ => enterMmx_framed
  · exact .bind needSse_framed fun _ => .bind readXmm_framed fun _ => writeWide_framed

theorem execVpmovmskb_steady {o : VGMask} : Steady s (execVpmovmskb o s) :=
  run_steady (.bind needVex_framed fun _ => .bind readVec_framed fun _ => writeWide_framed)

theorem execPop_steady {o : RmOp} : Steady s (execPop o s) := by
  refine run_steady ?_
  split
  · exact .bind pop_framed fun _ => writeGp_framed
  · exact .getBind fun _ _ => .bind pop_framed fun _ => .ite (.bind .throw fun _ => writeRm_framed) writeRm_framed

theorem execPopSeg_steady {o : SegOp} : Steady s (execPopSeg o s) :=
  run_steady (.getBind fun _ _ => .bind (ensure_framed raiseUD_framed) fun _ => .bind stackPeek_framed fun _ =>
    .bind loadSeg_framed fun _ => .bind (.modify fun _ h => h) fun _ => inhibitAfterSs_framed)

theorem execPopcnt_steady {o : RegRm} : Steady s (execPopcnt o s) :=
  run_steady (.bind needFeature_framed fun _ => .bind readRm_framed fun _ => .bind modifyFlags_framed fun _ => writeReg_framed)

theorem execPshufw_steady {o : MMI} : Steady s (execPshufw o s) :=
  run_steady (.bind needMmx_framed fun _ => .bind readMmM_framed fun _ => .bind writeMm_framed fun _ => enterMmx_framed)

theorem execPtest_steady {o : XX} : Steady s (execPtest o s) :=
  run_steady (.bind needSse_framed fun _ => .bind readXm_framed fun _ => .bind readXmm_framed fun _ => setTest_framed)

theorem execVptest_steady {o : VX} : Steady s (execVptest o s) :=
  run_steady (.bind needVex_framed fun _ => .bind readVx_framed fun _ => .bind readVec_framed fun _ => setTest_framed)

theorem execPush_steady {o : PushOps} : Steady s (execPush o s) := by
  refine run_steady ?_
  split
  · exact .bind readRm_framed fun _ => push_framed
  · exact push_framed
  · exact .getBind fun _ _ => .bind (ensure_framed raiseUD_framed) fun _ => .ite pushSel32_framed push_framed

theorem execRdmsr_steady : Steady s (execRdmsr s) := by
  refine run_steady (.bind needCpl0_framed fun _ => .bind readReg_framed fun _ => .ite (.bind readTsc_framed fun _ =>
    writeEdxEax_framed) (.getBind fun _ _ => ?_))
  split
  · exact raiseGP_framed
  · exact writeEdxEax_framed

theorem execRdpkru_steady : Steady s (execRdpkru s) :=
  run_steady (.bind needPke_framed fun _ => .bind readReg_framed fun _ => .bind (ensure_framed raiseGP_framed) fun _ =>
    .getBind fun _ _ => writeEdxEax_framed)

theorem execRdpmc_steady : Steady s (execRdpmc s) :=
  run_steady (.getBind fun _ h => .bind (ensure_framed raiseGP_framed) fun _ => .bind readReg_framed fun _ =>
    .bind (ensure_framed raiseGP_framed) fun _ => .bind (.set h) fun _ => .bind writeReg_framed fun _ => writeReg_framed)

theorem execRdtsc_steady : Steady s (execRdtsc s) :=
  run_steady (.bind needFeature_framed fun _ => .bind needTsc_framed fun _ => .bind readTsc_framed fun _ => writeEdxEax_framed)

theorem execRdtscp_steady : Steady s (execRdtscp s) :=
  run_steady (.bind needFeature_framed fun _ => .bind needTsc_framed fun _ => .bind readTsc_framed fun _ =>
    .bind writeEdxEax_framed fun _ => .getBind fun _ _ => writeReg_framed)

theorem execRep_steady {o : RepOp} : Steady s (execRep o s) := by
  unfold execRep
  split
  · exact repRun_steady insItem_framed
  · exact repRun_steady movsItem_framed
  · exact repRun_steady outsItem_framed
  · exact repRun_steady lodsItem_framed
  · exact repRun_steady stosItem_framed

theorem execRepe_steady {o : RepCmpOp} : Steady s (execRepe o s) := repRun_steady cmpItem_framed

theorem execRepne_steady {o : RepCmpOp} : Steady s (execRepne o s) := repRun_steady cmpItem_framed

theorem execRetNear_steady {o : RetOps} : Steady s (execRetNear o s) :=
  run_steady (.bind pop_framed fun _ => .bind checkTarget_framed fun _ => .getBind fun _ _ => .bind writeSp_framed fun _ =>
    setRip_framed)

theorem execRorx_steady {o : RorxOps} : Steady s (execRorx o s) :=
  run_steady (.bind needVexGpr_framed fun _ => .bind readRm_framed fun _ => writeReg_framed)

theorem execSahf_steady : Steady s (execSahf s) :=
  run_steady (.bind needLahf_framed fun _ => .bind readGp_framed fun _ => modifyFlags_framed)

theorem execVshufpd_steady {o : VVXI} : Steady s (execVshufpd o s) :=
  run_steady (.bind needVex_framed fun _ => .bind readVx_framed fun _ => .bind readVec_framed fun _ => writeVec_framed)

theorem execSldt_steady {o : RmOp} : Steady s (execSldt o s) :=
  run_steady (.bind needProtected_framed fun _ => .getBind fun _ _ => storeWord_framed)

theorem execSmsw_steady {o : RmOp} : Steady s (execSmsw o s) := by
  refine run_steady (.getBind fun _ _ => ?_)
  split
  · exact .bind freeValue_framed fun _ => writeGp_framed
  · exact storeWord_framed

theorem execStc_steady : Steady s (execStc s) := run_steady modifyFlags_framed

theorem execStd_steady : Steady s (execStd s) := run_steady modifyFlags_framed

theorem execSti_steady : Steady s (execSti s) := by
  refine run_steady (.getBind fun _ h => ?_)
  split
  · exact .set h
  · exact .bind (ensure_framed raiseGP_framed) fun _ => modifyFlags_framed
  · exact raiseGP_framed

theorem execStmxcsr_steady {o : MemRef} : Steady s (execStmxcsr o s) :=
  run_steady (.bind needSse_framed fun _ => storeMxcsr_framed)

theorem execVstmxcsr_steady {o : MemRef} : Steady s (execVstmxcsr o s) :=
  run_steady (.bind needVex_framed fun _ => storeMxcsr_framed)

theorem execStr_steady {o : RmOp} : Steady s (execStr o s) :=
  run_steady (.bind needProtected_framed fun _ => .getBind fun _ _ => storeWord_framed)

theorem execSwapgs_steady : Steady s (execSwapgs s) :=
  run_steady (.getBind fun _ h => .bind (ensure_framed raiseUD_framed) fun _ => .bind (ensure_framed raiseGP_framed) fun _ =>
    .set h)

theorem execSyscall_steady : Steady s (execSyscall s) :=
  run_steady (.bind needFeature_framed fun _ => .getBind fun _ h => .bind (ensure_framed raiseUD_framed) fun _ => .set h)

theorem execSysenter_steady : Steady s (execSysenter s) :=
  run_steady (.bind needFeature_framed fun _ => .getBind fun _ h => .bind (ensure_framed raiseGP_framed) fun _ => .set h)

theorem execSysexit_steady {w : Width} : Steady s (execSysexit w s) :=
  run_steady (.bind needFeature_framed fun _ => .getBind fun _ h => .bind (ensure_framed raiseGP_framed) fun _ =>
    .bind (ensure_framed raiseGP_framed) fun _ => .set h)

theorem execSysret_steady {w : Width} : Steady s (execSysret w s) :=
  run_steady (.bind needFeature_framed fun _ => .getBind fun _ h => .bind (ensure_framed raiseUD_framed) fun _ =>
    .bind (ensure_framed raiseGP_framed) fun _ => .set h)

theorem execVcvtph2ps_steady {o : VX} : Steady s (execVcvtph2ps o s) :=
  run_steady (.bind needVex_framed fun _ => .bind readXm_framed fun _ => .bind fpEnv_framed fun _ => .bind commit_framed
    fun _ => writeVec_framed)

theorem execVcvtps2ph_steady {o : VExtOps} : Steady s (execVcvtps2ph o s) := by
  refine run_steady (.bind needVex_framed fun _ => .bind readVec_framed fun _ => ?_)
  split
  · exact .bind fpEnv_framed fun _ => .bind commit_framed fun _ => writeVec_framed
  · exact .getBind fun _ _ => .bind resolve_framed fun _ => .bind fpEnv_framed fun _ => .bind commit_framed fun _ =>
      .modify fun _ h => h.physWrite _ _

theorem execVpblendd_steady {o : VVXI} : Steady s (execVpblendd o s) :=
  run_steady (.bind needVex_framed fun _ => .bind readVx_framed fun _ => .bind readVec_framed fun _ => writeVec_framed)

theorem execVpermilpd_steady {o : VPermil} : Steady s (execVpermilpd o s) := by
  refine run_steady (.bind needVex_framed fun _ => ?_)
  split
  · exact .bind readVx_framed fun _ => .bind readVec_framed fun _ => writeVec_framed
  · exact .bind readVx_framed fun _ => writeVec_framed

theorem execVpermilps_steady {o : VPermil} : Steady s (execVpermilps o s) := by
  refine run_steady (.bind needVex_framed fun _ => ?_)
  split
  · exact .bind readVx_framed fun _ => .bind readVec_framed fun _ => writeVec_framed
  · exact .bind readVx_framed fun _ => writeVec_framed

theorem execWrmsr_steady : Steady s (execWrmsr s) :=
  run_steady_privileged (.bind needCpl0_framed fun _ => .bind readReg_framed fun _ => .bind readEdxEax_framed fun _ =>
    .getBind fun _ _ => .bind (ensure_framed raiseGP_framed) fun _ => .bind (ensure_framed raiseGP_framed) fun _ =>
    .bind (ensure_framed raiseGP_framed) fun _ => .bind (ensure_framed raiseGP_framed) fun _ => .modify fun _ h => h.setMsr _ _)
    blocked_needCpl0.bind

theorem execWrpkru_steady : Steady s (execWrpkru s) :=
  run_steady (.bind needPke_framed fun _ => .bind readReg_framed fun _ => .bind readReg_framed fun _ => .bind (ensure_framed
    raiseGP_framed) fun _ => .bind readReg_framed fun _ => .modify fun _ h => h.withPkru _)

theorem execXacquire_steady {o : AcquireOp} : Steady s (execXacquire o s) := by
  refine run_steady ?_
  split
  · exact lockBody_framed
  · exact xchgBody_framed

theorem execXrelease_steady {o : ReleaseOp} : Steady s (execXrelease o s) := by
  refine run_steady ?_
  split
  · exact lockBody_framed
  · exact xchgBody_framed
  · exact movBody_framed
  · exact movBody_framed

theorem execXgetbv_steady : Steady s (execXgetbv s) :=
  run_steady (.bind needOsXsave_framed fun _ => .getBind fun _ _ => .bind readReg_framed fun _ => .ite writeEdxEax_framed (.ite
    writeEdxEax_framed raiseGP_framed))

theorem execXsetbv_steady : Steady s (execXsetbv s) :=
  run_steady_privileged (.bind needOsXsave_framed fun _ => .bind needCpl0_framed fun _ => .bind readEdxEax_framed fun _ =>
    .bind readReg_framed fun _ => .bind (ensure_framed raiseGP_framed) fun _ => .bind (ensure_framed raiseGP_framed) fun _ =>
    .modify fun _ h => h.withSys _)
    (.after blocked_needCpl0.bind checks_needOsXsave)

theorem execXtest_steady : Steady s (execXtest s) :=
  run_steady (.getBind fun _ _ => .bind (ensure_framed raiseUD_framed) fun _ => modifyFlags_framed)

/-- Every instruction makes a step that keeps memory canonical, and outside CPL 0 the system registers. -/
theorem exec_steady (i : Instr) (s : State) : Steady s (exec i s) := by
  cases i with
  | aaa => exact execAaa_steady
  | aad _ => exact execAad_steady
  | aam _ => exact execAam_steady
  | aas => exact execAas_steady
  | adc _ => exact run_steady (aluRun_framed fun _ _ _ => opAdc_framed)
  | adcx _ => exact execAdcx_steady
  | add _ => exact run_steady (aluRun_framed fun _ _ _ => opAdd_framed)
  | addpd _ => exact run_steady xxFp_framed
  | vaddpd _ => exact run_steady vvxFp_framed
  | addps _ => exact run_steady xxFp_framed
  | vaddps _ => exact run_steady vvxFp_framed
  | addsd _ => exact run_steady xxScalar_framed
  | vaddsd _ => exact run_steady vvxScalar_framed
  | addss _ => exact run_steady xxScalar_framed
  | vaddss _ => exact run_steady vvxScalar_framed
  | addsubpd _ => exact run_steady xxFp_framed
  | vaddsubpd _ => exact run_steady vvxFp_framed
  | addsubps _ => exact run_steady xxFp_framed
  | vaddsubps _ => exact run_steady vvxFp_framed
  | adox _ => exact execAdox_steady
  | aesdec _ => exact run_steady xxRun_framed
  | vaesdec _ => exact run_steady vvxRun_framed
  | aesdeclast _ => exact run_steady xxRun_framed
  | vaesdeclast _ => exact run_steady vvxRun_framed
  | aesenc _ => exact run_steady xxRun_framed
  | vaesenc _ => exact run_steady vvxRun_framed
  | aesenclast _ => exact run_steady xxRun_framed
  | vaesenclast _ => exact run_steady vvxRun_framed
  | aesimc _ => exact run_steady xxRun_framed
  | vaesimc _ => exact run_steady vxRun_framed
  | aeskeygenassist _ => exact run_steady xxiRun_framed
  | vaeskeygenassist _ => exact run_steady vxiRun_framed
  | and _ => exact run_steady (aluRun_framed fun _ _ _ => opAnd_framed)
  | andn _ => exact execAndn_steady
  | andpd _ => exact run_steady xxRun_framed
  | vandpd _ => exact run_steady vvxRun_framed
  | andps _ => exact run_steady xxRun_framed
  | vandps _ => exact run_steady vvxRun_framed
  | andnpd _ => exact run_steady xxRun_framed
  | vandnpd _ => exact run_steady vvxRun_framed
  | andnps _ => exact run_steady xxRun_framed
  | vandnps _ => exact run_steady vvxRun_framed
  | arpl _ => exact execArpl_steady
  | blendpd _ => exact run_steady xxiRun_framed
  | vblendpd _ => exact execVblendpd_steady
  | bextr _ => exact execBextr_steady
  | blendps _ => exact run_steady xxiRun_framed
  | vblendps _ => exact execVblendps_steady
  | blendvpd _ => exact execBlendvpd_steady
  | vblendvpd _ => exact execVblendvpd_steady
  | blendvps _ => exact execBlendvps_steady
  | vblendvps _ => exact execVblendvps_steady
  | blsi _ => exact run_steady lowestBit_framed
  | blsmsk _ => exact run_steady lowestBit_framed
  | blsr _ => exact run_steady lowestBit_framed
  | bound _ => exact execBound_steady
  | bsf _ => exact run_steady bitScan_framed
  | bsr _ => exact run_steady bitScan_framed
  | bswap _ => exact execBswap_steady
  | bt _ => exact run_steady bitTest_framed
  | btc _ => exact run_steady bitChange_framed
  | btr _ => exact run_steady bitChange_framed
  | bts _ => exact run_steady bitChange_framed
  | bzhi _ => exact execBzhi_steady
  | call _ => exact execCall_steady
  | cbw => exact run_steady (.bind readReg_framed fun _ => writeReg_framed)
  | cwde => exact run_steady (.bind readReg_framed fun _ => writeReg_framed)
  | cdqe => exact run_steady (.bind readReg_framed fun _ => writeReg_framed)
  | clac => exact run_steady (.bind needSmapRing0_framed fun _ => modifyFlags_framed)
  | clc => exact execClc_steady
  | cld => exact execCld_steady
  | clflush _ => exact execClflush_steady
  | cli => exact execCli_steady
  | clts => exact execClts_steady
  | cmc => exact execCmc_steady
  | cmovo _ => exact run_steady cmovBody_framed
  | cmovno _ => exact run_steady cmovBody_framed
  | cmovb _ => exact run_steady cmovBody_framed
  | cmovae _ => exact run_steady cmovBody_framed
  | cmove _ => exact run_steady cmovBody_framed
  | cmovne _ => exact run_steady cmovBody_framed
  | cmovbe _ => exact run_steady cmovBody_framed
  | cmova _ => exact run_steady cmovBody_framed
  | cmovs _ => exact run_steady cmovBody_framed
  | cmovns _ => exact run_steady cmovBody_framed
  | cmovp _ => exact run_steady cmovBody_framed
  | cmovnp _ => exact run_steady cmovBody_framed
  | cmovl _ => exact run_steady cmovBody_framed
  | cmovge _ => exact run_steady cmovBody_framed
  | cmovle _ => exact run_steady cmovBody_framed
  | cmovg _ => exact run_steady cmovBody_framed
  | cmp _ => exact run_steady (aluTest_framed fun _ _ _ => opSub_framed)
  | cmppd _ => exact run_steady cmpPacked_framed
  | vcmppd _ => exact run_steady vcmpPacked_framed
  | cmpps _ => exact run_steady cmpPacked_framed
  | vcmpps _ => exact run_steady vcmpPacked_framed
  | cmps _ => exact run_steady cmpsItem_framed
  | cmpsb _ => exact run_steady cmpsItem_framed
  | cmpsw _ => exact run_steady cmpsItem_framed
  | cmpsdStr _ => exact run_steady cmpsItem_framed
  | cmpsq _ => exact run_steady cmpsItem_framed
  | cmpsdSse _ => exact run_steady cmpScalar_framed
  | vcmpsd _ => exact run_steady vcmpScalar_framed
  | cmpss _ => exact run_steady cmpScalar_framed
  | vcmpss _ => exact run_steady vcmpScalar_framed
  | cmpxchg _ => exact run_steady cmpxchgBody_framed
  | cmpxchg8b _ => exact run_steady cmpxchg8bBody_framed
  | cmpxchg16b _ => exact run_steady cmpxchg16bBody_framed
  | comisd _ => exact run_steady comi_framed
  | vcomisd _ => exact run_steady vcomi_framed
  | comiss _ => exact run_steady comi_framed
  | vcomiss _ => exact run_steady vcomi_framed
  | cpuid => exact execCpuid_steady
  | crc32 _ => exact execCrc32_steady
  | cvtdq2pd _ => exact run_steady xCvt_framed
  | vcvtdq2pd _ => exact run_steady vCvt_framed
  | cvtdq2ps _ => exact run_steady xCvt_framed
  | vcvtdq2ps _ => exact run_steady vCvt_framed
  | cvtpd2dq _ => exact run_steady xCvt_framed
  | vcvtpd2dq _ => exact run_steady vCvt_framed
  | cvtpd2ps _ => exact run_steady xCvt_framed
  | vcvtpd2ps _ => exact run_steady vCvt_framed
  | cvtps2dq _ => exact run_steady xCvt_framed
  | vcvtps2dq _ => exact run_steady vCvt_framed
  | cvtps2pd _ => exact run_steady xCvt_framed
  | vcvtps2pd _ => exact run_steady vCvt_framed
  | cvttpd2dq _ => exact run_steady xCvt_framed
  | vcvttpd2dq _ => exact run_steady vCvt_framed
  | cvttps2dq _ => exact run_steady xCvt_framed
  | vcvttps2dq _ => exact run_steady vCvt_framed
  | cvtpd2pi _ => exact run_steady mxCvt_framed
  | cvttpd2pi _ => exact run_steady mxCvt_framed
  | cvtpi2pd _ => exact execCvtpi2pd_steady
  | cvtpi2ps _ => exact execCvtpi2ps_steady
  | cvtps2pi _ => exact run_steady mxCvt_framed
  | cvttps2pi _ => exact run_steady mxCvt_framed
  | cvtsd2si _ => exact run_steady (gxCvt_framed needSse_framed)
  | vcvtsd2si _ => exact run_steady (gxCvt_framed needVex_framed)
  | cvttsd2si _ => exact run_steady (gxCvt_framed needSse_framed)
  | vcvttsd2si _ => exact run_steady (gxCvt_framed needVex_framed)
  | cvtss2si _ => exact run_steady (gxCvt_framed needSse_framed)
  | vcvtss2si _ => exact run_steady (gxCvt_framed needVex_framed)
  | cvttss2si _ => exact run_steady (gxCvt_framed needSse_framed)
  | vcvttss2si _ => exact run_steady (gxCvt_framed needVex_framed)
  | cvtsi2sd _ => exact run_steady xgCvt_framed
  | vcvtsi2sd _ => exact run_steady vxgCvt_framed
  | cvtsi2ss _ => exact run_steady xgCvt_framed
  | vcvtsi2ss _ => exact run_steady vxgCvt_framed
  | cvtsd2ss _ => exact run_steady xxScalar_framed
  | vcvtsd2ss _ => exact run_steady vvxScalar_framed
  | cvtss2sd _ => exact run_steady xxScalar_framed
  | vcvtss2sd _ => exact run_steady vvxScalar_framed
  | cwd => exact run_steady spreadSign_framed
  | cdq => exact run_steady spreadSign_framed
  | cqo => exact run_steady spreadSign_framed
  | daa => exact execDaa_steady
  | das => exact execDas_steady
  | dec _ => exact run_steady (unRun_framed fun _ _ => opDec_framed)
  | div _ => exact execDiv_steady
  | divpd _ => exact run_steady xxFp_framed
  | vdivpd _ => exact run_steady vvxFp_framed
  | divps _ => exact run_steady xxFp_framed
  | vdivps _ => exact run_steady vvxFp_framed
  | divsd _ => exact run_steady xxScalar_framed
  | vdivsd _ => exact run_steady vvxScalar_framed
  | divss _ => exact run_steady xxScalar_framed
  | vdivss _ => exact run_steady vvxScalar_framed
  | dppd _ => exact run_steady xDot_framed
  | vdppd _ => exact run_steady vDot_framed
  | dpps _ => exact run_steady xDot_framed
  | vdpps _ => exact run_steady vDot_framed
  | emms => exact run_steady (.bind needMmx_framed fun _ => .modify fun _ h => h)
  | enter _ => exact execEnter_steady
  | extractps _ => exact run_steady (extractRun_framed needSse_framed)
  | vextractps _ => exact run_steady (extractRun_framed needVex_framed)
  | f2xm1 => exact run_steady (fpUnary_framed xEnv_framed)
  | fabs => exact run_steady fpSign_framed
  | fadd _ => exact run_steady fpArith_framed
  | faddp _ => exact run_steady fpArithPop_framed
  | fiadd _ => exact run_steady fpArithInt_framed
  | fbld _ => exact execFbld_steady
  | fbstp _ => exact run_steady storeSt_framed
  | fchs => exact run_steady fpSign_framed
  | fnclex => exact run_steady clearExceptions_framed
  | fclex => exact run_steady (afterWait_framed clearExceptions_framed)
  | fcmovb _ => exact run_steady condMove_framed
  | fcmove _ => exact run_steady condMove_framed
  | fcmovbe _ => exact run_steady condMove_framed
  | fcmovu _ => exact run_steady condMove_framed
  | fcmovnb _ => exact run_steady condMove_framed
  | fcmovne _ => exact run_steady condMove_framed
  | fcmovnbe _ => exact run_steady condMove_framed
  | fcmovnu _ => exact run_steady condMove_framed
  | fcom _ => exact run_steady compareFp_framed
  | fcomp _ => exact run_steady compareFp_framed
  | fcompp => exact run_steady compareSt_framed
  | fcomi _ => exact run_steady compareEflags_framed
  | fcomip _ => exact run_steady compareEflags_framed
  | fucomi _ => exact run_steady compareEflags_framed
  | fucomip _ => exact run_steady compareEflags_framed
  | fcos => exact run_steady (trigOne_framed freeBit_framed)
  | fdecstp => exact execFdecstp_steady
  | fdiv _ => exact run_steady fpArith_framed
  | fdivp _ => exact run_steady fpArithPop_framed
  | fidiv _ => exact run_steady fpArithInt_framed
  | fdivr _ => exact run_steady fpArith_framed
  | fdivrp _ => exact run_steady fpArithPop_framed
  | fidivr _ => exact run_steady fpArithInt_framed
  | ffree _ => exact execFfree_steady
  | ficom _ => exact run_steady compareInt_framed
  | ficomp _ => exact run_steady compareInt_framed
  | fild _ => exact execFild_steady
  | fincstp => exact execFincstp_steady
  | fninit => exact run_steady initFpu_framed
  | finit => exact run_steady (afterWait_framed initFpu_framed)
  | fist _ => exact run_steady storeInt_framed
  | fistp _ => exact execFistp_steady
  | fisttp _ => exact execFisttp_steady
  | fld _ => exact execFld_steady
  | fld1 => exact run_steady pushExact_framed
  | fldl2t => exact run_steady pushConst_framed
  | fldl2e => exact run_steady pushConst_framed
  | fldpi => exact run_steady pushConst_framed
  | fldlg2 => exact run_steady pushConst_framed
  | fldln2 => exact run_steady pushConst_framed
  | fldz => exact run_steady pushExact_framed
  | fldcw _ => exact run_steady loadCw_framed
  | fldenv _ => exact execFldenv_steady
  | fmul _ => exact run_steady fpArith_framed
  | fmulp _ => exact run_steady fpArithPop_framed
  | fimul _ => exact run_steady fpArithInt_framed
  | fnop => exact run_steady (.bind enterFpu_framed fun _ => freeAllCodes_framed)
  | fpatan => exact run_steady fpBinaryPop_framed
  | fprem => exact run_steady partialRem_framed
  | fprem1 => exact run_steady partialRem_framed
  | fptan => exact execFptan_steady
  | frndint => exact run_steady (fpUnary_framed xEnv_framed)
  | frstor _ => exact execFrstor_steady
  | fnsave _ => exact run_steady saveState_framed
  | fsave _ => exact run_steady (afterWait_framed saveState_framed)
  | fscale => exact execFscale_steady
  | fsin => exact run_steady (trigOne_framed .pure)
  | fsincos => exact execFsincos_steady
  | fsqrt => exact run_steady (fpUnary_framed xEnvPc_framed)
  | fst _ => exact execFst_steady
  | fstp _ => exact execFstp_steady
  | fnstcw _ => exact run_steady storeCw_framed
  | fstcw _ => exact run_steady (afterWait_framed storeCw_framed)
  | fnstenv _ => exact run_steady storeEnv_framed
  | fstenv _ => exact run_steady (afterWait_framed storeEnv_framed)
  | fnstsw _ => exact run_steady storeSw_framed
  | fstsw _ => exact run_steady (afterWait_framed storeSw_framed)
  | fsub _ => exact run_steady fpArith_framed
  | fsubp _ => exact run_steady fpArithPop_framed
  | fisub _ => exact run_steady fpArithInt_framed
  | fsubr _ => exact run_steady fpArith_framed
  | fsubrp _ => exact run_steady fpArithPop_framed
  | fisubr _ => exact run_steady fpArithInt_framed
  | ftst => exact execFtst_steady
  | fucom _ => exact run_steady compareSt_framed
  | fucomp _ => exact run_steady compareSt_framed
  | fucompp => exact run_steady compareSt_framed
  | fxam => exact run_steady (.bind enterFpu_framed fun _ => modifyFpu_framed)
  | fxch _ => exact execFxch_steady
  | fxrstor _ => exact run_steady fxrstor_framed
  | fxrstor64 _ => exact run_steady fxrstor_framed
  | fxsave _ => exact run_steady fxsave_framed
  | fxsave64 _ => exact run_steady fxsave_framed
  | fxtract => exact execFxtract_steady
  | fyl2x => exact run_steady fpBinaryPop_framed
  | fyl2xp1 => exact run_steady fpBinaryPop_framed
  | haddpd _ => exact run_steady xxFp_framed
  | vhaddpd _ => exact run_steady vvxFp_framed
  | haddps _ => exact run_steady xxFp_framed
  | vhaddps _ => exact run_steady vvxFp_framed
  | hsubpd _ => exact run_steady xxFp_framed
  | vhsubpd _ => exact run_steady vvxFp_framed
  | hsubps _ => exact run_steady xxFp_framed
  | vhsubps _ => exact run_steady vvxFp_framed
  | hlt => exact run_steady (.bind needCpl0_framed fun _ => .modify fun _ h => h)
  | idiv _ => exact execIdiv_steady
  | imul _ => exact execImul_steady
  | inp _ => exact execInp_steady
  | ins _ => exact run_steady insItem_framed
  | insb _ => exact run_steady insItem_framed
  | insw _ => exact run_steady insItem_framed
  | insd _ => exact run_steady insItem_framed
  | inc _ => exact run_steady (unRun_framed fun _ _ => opInc_framed)
  | insertps _ => exact execInsertps_steady
  | vinsertps _ => exact execVinsertps_steady
  | intN _ => exact takeSoftware_steady
  | int3 => exact takeSoftware_steady
  | into => exact execInto_steady
  | invd => exact run_steady needCpl0_framed
  | invlpg _ => exact run_steady needCpl0_framed
  | invpcid _ => exact execInvpcid_steady
  | iret => exact run_steady iretBody_framed
  | iretd => exact run_steady iretBody_framed
  | iretq => exact run_steady iretBody_framed
  | jo _ => exact run_steady jccBody_framed
  | jno _ => exact run_steady jccBody_framed
  | jb _ => exact run_steady jccBody_framed
  | jae _ => exact run_steady jccBody_framed
  | je _ => exact run_steady jccBody_framed
  | jne _ => exact run_steady jccBody_framed
  | jbe _ => exact run_steady jccBody_framed
  | ja _ => exact run_steady jccBody_framed
  | js _ => exact run_steady jccBody_framed
  | jns _ => exact run_steady jccBody_framed
  | jp _ => exact run_steady jccBody_framed
  | jnp _ => exact run_steady jccBody_framed
  | jl _ => exact run_steady jccBody_framed
  | jge _ => exact run_steady jccBody_framed
  | jle _ => exact run_steady jccBody_framed
  | jg _ => exact run_steady jccBody_framed
  | jcxz _ => exact run_steady jcxzBody_framed
  | jecxz _ => exact run_steady jcxzBody_framed
  | jrcxz _ => exact run_steady jcxzBody_framed
  | jmpNear _ => exact execJmpNear_steady
  | jmpFar _ => exact execJmpFar_steady
  | lahf => exact run_steady (.bind needLahf_framed fun _ => .getBind fun _ _ => writeGp_framed)
  | lar _ => exact execLar_steady
  | lddqu _ => exact execLddqu_steady
  | vlddqu _ => exact execVlddqu_steady
  | ldmxcsr _ => exact execLdmxcsr_steady
  | vldmxcsr _ => exact execVldmxcsr_steady
  | lds _ => exact run_steady (.bind notInLong_framed fun _ => loadFarPtr_framed)
  | les _ => exact run_steady (.bind notInLong_framed fun _ => loadFarPtr_framed)
  | lfs _ => exact run_steady loadFarPtr_framed
  | lgs _ => exact run_steady loadFarPtr_framed
  | lss _ => exact run_steady loadFarPtr_framed
  | lea _ => exact run_steady (.getBind fun _ _ => writeReg_framed)
  | leave _ => exact execLeave_steady
  | lfence => exact run_steady needFeature_framed
  | lgdt _ => exact execLgdt_steady
  | lidt _ => exact execLidt_steady
  | lldt _ => exact execLldt_steady
  | lmsw _ => exact execLmsw_steady
  | ltr _ => exact execLtr_steady
  | lock _ => exact run_steady lockBody_framed
  | lods _ => exact run_steady lodsItem_framed
  | lodsb _ => exact run_steady lodsItem_framed
  | lodsw _ => exact run_steady lodsItem_framed
  | lodsd _ => exact run_steady lodsItem_framed
  | lodsq _ => exact run_steady lodsItem_framed
  | loop _ => exact run_steady loopBody_framed
  | loope _ => exact run_steady loopBody_framed
  | loopne _ => exact run_steady loopBody_framed
  | lsl _ => exact execLsl_steady
  | lzcnt _ => exact run_steady (.getBind fun _ _ => .ite bitCount_framed bitScan_framed)
  | maskmovdqu _ => exact execMaskmovdqu_steady
  | vmaskmovdqu _ => exact execVmaskmovdqu_steady
  | maskmovq _ => exact execMaskmovq_steady
  | maxpd _ => exact run_steady xxFp_framed
  | vmaxpd _ => exact run_steady vvxFp_framed
  | maxps _ => exact run_steady xxFp_framed
  | vmaxps _ => exact run_steady vvxFp_framed
  | maxsd _ => exact run_steady xxScalar_framed
  | vmaxsd _ => exact run_steady vvxScalar_framed
  | maxss _ => exact run_steady xxScalar_framed
  | vmaxss _ => exact run_steady vvxScalar_framed
  | minpd _ => exact run_steady xxFp_framed
  | vminpd _ => exact run_steady vvxFp_framed
  | minps _ => exact run_steady xxFp_framed
  | vminps _ => exact run_steady vvxFp_framed
  | minsd _ => exact run_steady xxScalar_framed
  | vminsd _ => exact run_steady vvxScalar_framed
  | minss _ => exact run_steady xxScalar_framed
  | vminss _ => exact run_steady vvxScalar_framed
  | mfence => exact run_steady needFeature_framed
  | monitor _ => exact execMonitor_steady
  | mov _ => exact run_steady movBody_framed
  | movSeg _ => exact execMovSeg_steady
  | movCr _ => exact execMovCr_steady
  | movDr _ => exact execMovDr_steady
  | movapd _ => exact run_steady xmovRun_framed
  | vmovapd _ => exact run_steady vmovRun_framed
  | movaps _ => exact run_steady xmovRun_framed
  | vmovaps _ => exact run_steady vmovRun_framed
  | movbe _ => exact execMovbe_steady
  | movd _ => exact run_steady movdRun_framed
  | movqGp _ => exact run_steady movdRun_framed
  | vmovd _ => exact run_steady vmovdRun_framed
  | vmovqGp _ => exact run_steady vmovdRun_framed
  | movddup _ => exact run_steady xnRun_framed
  | vmovddup _ => exact execVmovddup_steady
  | movdqa _ => exact run_steady xmovRun_framed
  | vmovdqa _ => exact run_steady vmovRun_framed
  | movdqu _ => exact run_steady xmovRun_framed
  | vmovdqu _ => exact run_steady vmovRun_framed
  | movdq2q _ => exact execMovdq2q_steady
  | movhlps _ => exact execMovhlps_steady
  | vmovhlps _ => exact execVmovhlps_steady
  | movhpd _ => exact run_steady halfMov_framed
  | vmovhpd _ => exact run_steady vhalfMov_framed
  | movhps _ => exact run_steady halfMov_framed
  | vmovhps _ => exact run_steady vhalfMov_framed
  | movlhps _ => exact execMovlhps_steady
  | vmovlhps _ => exact execVmovlhps_steady
  | movlpd _ => exact run_steady halfMov_framed
  | vmovlpd _ => exact run_steady vhalfMov_framed
  | movlps _ => exact run_steady halfMov_framed
  | vmovlps _ => exact run_steady vhalfMov_framed
  | movmskpd _ => exact execMovmskpd_steady
  | vmovmskpd _ => exact execVmovmskpd_steady
  | movmskps _ => exact execMovmskps_steady
  | vmovmskps _ => exact execVmovmskps_steady
  | movntdqa _ => exact execMovntdqa_steady
  | vmovntdqa _ => exact execVmovntdqa_steady
  | movntdq _ => exact run_steady ntStore_framed
  | vmovntdq _ => exact run_steady vntStore_framed
  | movnti _ => exact execMovnti_steady
  | movntpd _ => exact run_steady ntStore_framed
  | vmovntpd _ => exact run_steady vntStore_framed
  | movntps _ => exact run_steady ntStore_framed
  | vmovntps _ => exact run_steady vntStore_framed
  | movntq _ => exact execMovntq_steady
  | movqX _ => exact run_steady movqRun_framed
  | vmovqX _ => exact run_steady vmovqRun_framed
  | movq2dq _ => exact execMovq2dq_steady
  | movs _ => exact run_steady movsItem_framed
  | movsb _ => exact run_steady movsItem_framed
  | movsw _ => exact run_steady movsItem_framed
  | movsdStr _ => exact run_steady movsItem_framed
  | movsq _ => exact run_steady movsItem_framed
  | movsdSse _ => exact run_steady scalarMov_framed
  | vmovsd _ => exact run_steady vscalarMov_framed
  | movshdup _ => exact run_steady xxRun_framed
  | vmovshdup _ => exact run_steady vxRun_framed
  | movsldup _ => exact run_steady xxRun_framed
  | vmovsldup _ => exact run_steady vxRun_framed
  | movss _ => exact run_steady scalarMov_framed
  | vmovss _ => exact run_steady vscalarMov_framed
  | movsx _ => exact run_steady (.bind readRm_framed fun _ => writeReg_framed)
  | movsxd _ => exact run_steady (.bind readRm_framed fun _ => writeReg_framed)
  | movupd _ => exact run_steady xmovRun_framed
  | vmovupd _ => exact run_steady vmovRun_framed
  | movups _ => exact run_steady xmovRun_framed
  | vmovups _ => exact run_steady vmovRun_framed
  | movzx _ => exact run_steady (.bind readRm_framed fun _ => writeReg_framed)
  | mpsadbw _ => exact run_steady xxiRun_framed
  | vmpsadbw _ => exact execVmpsadbw_steady
  | mul _ => exact execMul_steady
  | mulpd _ => exact run_steady xxFp_framed
  | vmulpd _ => exact run_steady vvxFp_framed
  | mulps _ => exact run_steady xxFp_framed
  | vmulps _ => exact run_steady vvxFp_framed
  | mulsd _ => exact run_steady xxScalar_framed
  | vmulsd _ => exact run_steady vvxScalar_framed
  | mulss _ => exact run_steady xxScalar_framed
  | vmulss _ => exact run_steady vvxScalar_framed
  | mulx _ => exact execMulx_steady
  | mwait => exact execMwait_steady
  | neg _ => exact run_steady (unRun_framed fun _ _ => opNeg_framed)
  | nop _ => exact run_steady (.getBind fun _ _ => ensure_framed raiseUD_framed)
  | not _ => exact run_steady (unRun_framed fun _ _ => opNot_framed)
  | or _ => exact run_steady (aluRun_framed fun _ _ _ => opOr_framed)
  | orpd _ => exact run_steady xxRun_framed
  | vorpd _ => exact run_steady vvxRun_framed
  | orps _ => exact run_steady xxRun_framed
  | vorps _ => exact run_steady vvxRun_framed
  | out _ => exact execOut_steady
  | outs _ => exact run_steady outsItem_framed
  | outsb _ => exact run_steady outsItem_framed
  | outsw _ => exact run_steady outsItem_framed
  | outsd _ => exact run_steady outsItem_framed
  | pabsb _ => exact run_steady mxRun_framed
  | vpabsb _ => exact run_steady vxRun_framed
  | pabsw _ => exact run_steady mxRun_framed
  | vpabsw _ => exact run_steady vxRun_framed
  | pabsd _ => exact run_steady mxRun_framed
  | vpabsd _ => exact run_steady vxRun_framed
  | packsswb _ => exact run_steady mxRun_framed
  | vpacksswb _ => exact run_steady vvxRun_framed
  | packssdw _ => exact run_steady mxRun_framed
  | vpackssdw _ => exact run_steady vvxRun_framed
  | packusdw _ => exact run_steady xxRun_framed
  | vpackusdw _ => exact run_steady vvxRun_framed
  | packuswb _ => exact run_steady mxRun_framed
  | vpackuswb _ => exact run_steady vvxRun_framed
  | paddb _ => exact run_steady mxRun_framed
  | vpaddb _ => exact run_steady vvxRun_framed
  | paddw _ => exact run_steady mxRun_framed
  | vpaddw _ => exact run_steady vvxRun_framed
  | paddd _ => exact run_steady mxRun_framed
  | vpaddd _ => exact run_steady vvxRun_framed
  | paddq _ => exact run_steady mxRun_framed
  | vpaddq _ => exact run_steady vvxRun_framed
  | paddsb _ => exact run_steady mxRun_framed
  | vpaddsb _ => exact run_steady vvxRun_framed
  | paddsw _ => exact run_steady mxRun_framed
  | vpaddsw _ => exact run_steady vvxRun_framed
  | paddusb _ => exact run_steady mxRun_framed
  | vpaddusb _ => exact run_steady vvxRun_framed
  | paddusw _ => exact run_steady mxRun_framed
  | vpaddusw _ => exact run_steady vvxRun_framed
  | palignr _ => exact execPalignr_steady
  | vpalignr _ => exact run_steady vvxiRun_framed
  | pand _ => exact run_steady mxRun_framed
  | vpand _ => exact run_steady vvxRun_framed
  | pandn _ => exact run_steady mxRun_framed
  | vpandn _ => exact run_steady vvxRun_framed
  | pause => exact run_steady (.pure (a := ()))
  | pavgb _ => exact run_steady mxRun_framed
  | vpavgb _ => exact run_steady vvxRun_framed
  | pavgw _ => exact run_steady mxRun_framed
  | vpavgw _ => exact run_steady vvxRun_framed
  | pblendvb _ => exact execPblendvb_steady
  | vpblendvb _ => exact execVpblendvb_steady
  | pblendw _ => exact run_steady xxiRun_framed
  | vpblendw _ => exact run_steady vvxiRun_framed
  | pclmulqdq _ => exact run_steady xxiRun_framed
  | vpclmulqdq _ => exact run_steady vvxiRun_framed
  | pcmpeqb _ => exact run_steady mxRun_framed
  | vpcmpeqb _ => exact run_steady vvxRun_framed
  | pcmpeqw _ => exact run_steady mxRun_framed
  | vpcmpeqw _ => exact run_steady vvxRun_framed
  | pcmpeqd _ => exact run_steady mxRun_framed
  | vpcmpeqd _ => exact run_steady vvxRun_framed
  | pcmpeqq _ => exact run_steady xxRun_framed
  | vpcmpeqq _ => exact run_steady vvxRun_framed
  | pcmpgtb _ => exact run_steady mxRun_framed
  | vpcmpgtb _ => exact run_steady vvxRun_framed
  | pcmpgtw _ => exact run_steady mxRun_framed
  | vpcmpgtw _ => exact run_steady vvxRun_framed
  | pcmpgtd _ => exact run_steady mxRun_framed
  | vpcmpgtd _ => exact run_steady vvxRun_framed
  | pcmpgtq _ => exact run_steady xxRun_framed
  | vpcmpgtq _ => exact run_steady vvxRun_framed
  | pcmpestri _ => exact execPcmpestri_steady
  | vpcmpestri _ => exact execVpcmpestri_steady
  | pcmpestrm _ => exact execPcmpestrm_steady
  | vpcmpestrm _ => exact execVpcmpestrm_steady
  | pcmpistri _ => exact execPcmpistri_steady
  | vpcmpistri _ => exact execVpcmpistri_steady
  | pcmpistrm _ => exact execPcmpistrm_steady
  | vpcmpistrm _ => exact execVpcmpistrm_steady
  | pdep _ => exact execPdep_steady
  | pext _ => exact execPext_steady
  | pextrb _ => exact run_steady (extractRun_framed needSse_framed)
  | vpextrb _ => exact run_steady (extractRun_framed needVex_framed)
  | pextrd _ => exact run_steady (extractRun_framed needSse_framed)
  | vpextrd _ => exact run_steady (extractRun_framed needVex_framed)
  | pextrq _ => exact run_steady (extractRun_framed needSse_framed)
  | vpextrq _ => exact run_steady (extractRun_framed needVex_framed)
  | pextrw _ => exact execPextrw_steady
  | vpextrw _ => exact run_steady (extractRun_framed needVex_framed)
  | phaddw _ => exact run_steady mxRun_framed
  | vphaddw _ => exact run_steady vvxRun_framed
  | phaddd _ => exact run_steady mxRun_framed
  | vphaddd _ => exact run_steady vvxRun_framed
  | phaddsw _ => exact run_steady mxRun_framed
  | vphaddsw _ => exact run_steady vvxRun_framed
  | phminposuw _ => exact run_steady xxRun_framed
  | vphminposuw _ => exact run_steady vxRun_framed
  | phsubw _ => exact run_steady mxRun_framed
  | vphsubw _ => exact run_steady vvxRun_framed
  | phsubd _ => exact run_steady mxRun_framed
  | vphsubd _ => exact run_steady vvxRun_framed
  | phsubsw _ => exact run_steady mxRun_framed
  | vphsubsw _ => exact run_steady vvxRun_framed
  | pinsrb _ => exact run_steady insertRun_framed
  | vpinsrb _ => exact run_steady vinsertRun_framed
  | pinsrd _ => exact run_steady insertRun_framed
  | vpinsrd _ => exact run_steady vinsertRun_framed
  | pinsrq _ => exact run_steady insertRun_framed
  | vpinsrq _ => exact run_steady vinsertRun_framed
  | pinsrw _ => exact execPinsrw_steady
  | vpinsrw _ => exact run_steady vinsertRun_framed
  | pmaddubsw _ => exact run_steady mxRun_framed
  | vpmaddubsw _ => exact run_steady vvxRun_framed
  | pmaddwd _ => exact run_steady mxRun_framed
  | vpmaddwd _ => exact run_steady vvxRun_framed
  | pmaxsb _ => exact run_steady xxRun_framed
  | vpmaxsb _ => exact run_steady vvxRun_framed
  | pmaxsd _ => exact run_steady xxRun_framed
  | vpmaxsd _ => exact run_steady vvxRun_framed
  | pmaxsw _ => exact run_steady mxRun_framed
  | vpmaxsw _ => exact run_steady vvxRun_framed
  | pmaxub _ => exact run_steady mxRun_framed
  | vpmaxub _ => exact run_steady vvxRun_framed
  | pmaxud _ => exact run_steady xxRun_framed
  | vpmaxud _ => exact run_steady vvxRun_framed
  | pmaxuw _ => exact run_steady xxRun_framed
  | vpmaxuw _ => exact run_steady vvxRun_framed
  | pminsb _ => exact run_steady xxRun_framed
  | vpminsb _ => exact run_steady vvxRun_framed
  | pminsd _ => exact run_steady xxRun_framed
  | vpminsd _ => exact run_steady vvxRun_framed
  | pminsw _ => exact run_steady mxRun_framed
  | vpminsw _ => exact run_steady vvxRun_framed
  | pminub _ => exact run_steady mxRun_framed
  | vpminub _ => exact run_steady vvxRun_framed
  | pminud _ => exact run_steady xxRun_framed
  | vpminud _ => exact run_steady vvxRun_framed
  | pminuw _ => exact run_steady xxRun_framed
  | vpminuw _ => exact run_steady vvxRun_framed
  | pmovmskb _ => exact execPmovmskb_steady
  | vpmovmskb _ => exact execVpmovmskb_steady
  | pmovsxbw _ => exact run_steady xnRun_framed
  | vpmovsxbw _ => exact run_steady vnRun_framed
  | pmovsxbd _ => exact run_steady xnRun_framed
  | vpmovsxbd _ => exact run_steady vnRun_framed
  | pmovsxbq _ => exact run_steady xnRun_framed
  | vpmovsxbq _ => exact run_steady vnRun_framed
  | pmovsxwd _ => exact run_steady xnRun_framed
  | vpmovsxwd _ => exact run_steady vnRun_framed
  | pmovsxwq _ => exact run_steady xnRun_framed
  | vpmovsxwq _ => exact run_steady vnRun_framed
  | pmovsxdq _ => exact run_steady xnRun_framed
  | vpmovsxdq _ => exact run_steady vnRun_framed
  | pmovzxbw _ => exact run_steady xnRun_framed
  | vpmovzxbw _ => exact run_steady vnRun_framed
  | pmovzxbd _ => exact run_steady xnRun_framed
  | vpmovzxbd _ => exact run_steady vnRun_framed
  | pmovzxbq _ => exact run_steady xnRun_framed
  | vpmovzxbq _ => exact run_steady vnRun_framed
  | pmovzxwd _ => exact run_steady xnRun_framed
  | vpmovzxwd _ => exact run_steady vnRun_framed
  | pmovzxwq _ => exact run_steady xnRun_framed
  | vpmovzxwq _ => exact run_steady vnRun_framed
  | pmovzxdq _ => exact run_steady xnRun_framed
  | vpmovzxdq _ => exact run_steady vnRun_framed
  | pmuldq _ => exact run_steady xxRun_framed
  | vpmuldq _ => exact run_steady vvxRun_framed
  | pmulhrsw _ => exact run_steady mxRun_framed
  | vpmulhrsw _ => exact run_steady vvxRun_framed
  | pmulhuw _ => exact run_steady mxRun_framed
  | vpmulhuw _ => exact run_steady vvxRun_framed
  | pmulhw _ => exact run_steady mxRun_framed
  | vpmulhw _ => exact run_steady vvxRun_framed
  | pmulld _ => exact run_steady xxRun_framed
  | vpmulld _ => exact run_steady vvxRun_framed
  | pmullw _ => exact run_steady mxRun_framed
  | vpmullw _ => exact run_steady vvxRun_framed
  | pmuludq _ => exact run_steady mxRun_framed
  | vpmuludq _ => exact run_steady vvxRun_framed
  | pop _ => exact execPop_steady
  | popSeg _ => exact execPopSeg_steady
  | popa => exact run_steady popAll_framed
  | popad => exact run_steady popAll_framed
  | popcnt _ => exact execPopcnt_steady
  | popf => exact run_steady popFlags_framed
  | popfd => exact run_steady popFlags_framed
  | popfq => exact run_steady popFlags_framed
  | por _ => exact run_steady mxRun_framed
  | vpor _ => exact run_steady vvxRun_framed
  | pxor _ => exact run_steady mxRun_framed
  | vpxor _ => exact run_steady vvxRun_framed
  | prefetcht0 _ => exact run_steady (.pure (a := ()))
  | prefetcht1 _ => exact run_steady (.pure (a := ()))
  | prefetcht2 _ => exact run_steady (.pure (a := ()))
  | prefetchnta _ => exact run_steady (.pure (a := ()))
  | prefetchw _ => exact run_steady (.pure (a := ()))
  | prefetchwt1 _ => exact run_steady (.pure (a := ()))
  | psadbw _ => exact run_steady mxRun_framed
  | vpsadbw _ => exact run_steady vvxRun_framed
  | pshufb _ => exact run_steady mxRun_framed
  | vpshufb _ => exact run_steady vvxRun_framed
  | pshufd _ => exact run_steady xxiRun_framed
  | vpshufd _ => exact run_steady vxiRun_framed
  | pshufhw _ => exact run_steady xxiRun_framed
  | vpshufhw _ => exact run_steady vxiRun_framed
  | pshuflw _ => exact run_steady xxiRun_framed
  | vpshuflw _ => exact run_steady vxiRun_framed
  | pshufw _ => exact execPshufw_steady
  | psignb _ => exact run_steady mxRun_framed
  | vpsignb _ => exact run_steady vvxRun_framed
  | psignw _ => exact run_steady mxRun_framed
  | vpsignw _ => exact run_steady vvxRun_framed
  | psignd _ => exact run_steady mxRun_framed
  | vpsignd _ => exact run_steady vvxRun_framed
  | pslldq _ => exact run_steady byteShiftRun_framed
  | vpslldq _ => exact run_steady vbyteShiftRun_framed
  | psrldq _ => exact run_steady byteShiftRun_framed
  | vpsrldq _ => exact run_steady vbyteShiftRun_framed
  | psllw _ => exact run_steady packedShift_framed
  | vpsllw _ => exact run_steady vpackedShift_framed
  | pslld _ => exact run_steady packedShift_framed
  | vpslld _ => exact run_steady vpackedShift_framed
  | psllq _ => exact run_steady packedShift_framed
  | vpsllq _ => exact run_steady vpackedShift_framed
  | psraw _ => exact run_steady packedShift_framed
  | vpsraw _ => exact run_steady vpackedShift_framed
  | psrad _ => exact run_steady packedShift_framed
  | vpsrad _ => exact run_steady vpackedShift_framed
  | psrlw _ => exact run_steady packedShift_framed
  | vpsrlw _ => exact run_steady vpackedShift_framed
  | psrld _ => exact run_steady packedShift_framed
  | vpsrld _ => exact run_steady vpackedShift_framed
  | psrlq _ => exact run_steady packedShift_framed
  | vpsrlq _ => exact run_steady vpackedShift_framed
  | psubb _ => exact run_steady mxRun_framed
  | vpsubb _ => exact run_steady vvxRun_framed
  | psubw _ => exact run_steady mxRun_framed
  | vpsubw _ => exact run_steady vvxRun_framed
  | psubd _ => exact run_steady mxRun_framed
  | vpsubd _ => exact run_steady vvxRun_framed
  | psubq _ => exact run_steady mxRun_framed
  | vpsubq _ => exact run_steady vvxRun_framed
  | psubsb _ => exact run_steady mxRun_framed
  | vpsubsb _ => exact run_steady vvxRun_framed
  | psubsw _ => exact run_steady mxRun_framed
  | vpsubsw _ => exact run_steady vvxRun_framed
  | psubusb _ => exact run_steady mxRun_framed
  | vpsubusb _ => exact run_steady vvxRun_framed
  | psubusw _ => exact run_steady mxRun_framed
  | vpsubusw _ => exact run_steady vvxRun_framed
  | ptest _ => exact execPtest_steady
  | vptest _ => exact execVptest_steady
  | punpckhbw _ => exact run_steady mxRun_framed
  | vpunpckhbw _ => exact run_steady vvxRun_framed
  | punpckhwd _ => exact run_steady mxRun_framed
  | vpunpckhwd _ => exact run_steady vvxRun_framed
  | punpckhdq _ => exact run_steady mxRun_framed
  | vpunpckhdq _ => exact run_steady vvxRun_framed
  | punpckhqdq _ => exact run_steady xxRun_framed
  | vpunpckhqdq _ => exact run_steady vvxRun_framed
  | punpcklbw _ => exact run_steady mxnRun_framed
  | vpunpcklbw _ => exact run_steady vvxRun_framed
  | punpcklwd _ => exact run_steady mxnRun_framed
  | vpunpcklwd _ => exact run_steady vvxRun_framed
  | punpckldq _ => exact run_steady mxnRun_framed
  | vpunpckldq _ => exact run_steady vvxRun_framed
  | punpcklqdq _ => exact run_steady xxRun_framed
  | vpunpcklqdq _ => exact run_steady vvxRun_framed
  | push _ => exact execPush_steady
  | pusha => exact run_steady pushAll_framed
  | pushad => exact run_steady pushAll_framed
  | pushf => exact run_steady pushFlags_framed
  | pushfd => exact run_steady pushFlags_framed
  | pushfq => exact run_steady pushFlags_framed
  | rcl _ => exact run_steady (shiftRun_framed fun _ _ _ _ => opRcl_framed)
  | rcr _ => exact run_steady (shiftRun_framed fun _ _ _ _ => opRcr_framed)
  | rol _ => exact run_steady (shiftRun_framed fun _ _ _ _ => opRol_framed)
  | ror _ => exact run_steady (shiftRun_framed fun _ _ _ _ => opRor_framed)
  | rcpps _ => exact run_steady xApprox_framed
  | vrcpps _ => exact run_steady vApprox_framed
  | rcpss _ => exact run_steady xApproxScalar_framed
  | vrcpss _ => exact run_steady vApproxScalar_framed
  | rdfsbase _ => exact run_steady readSegBase_framed
  | rdgsbase _ => exact run_steady readSegBase_framed
  | rdmsr => exact execRdmsr_steady
  | rdpkru => exact execRdpkru_steady
  | rdpmc => exact execRdpmc_steady
  | rdrand _ => exact run_steady (.bind needFeature_framed fun _ => readRandom_framed)
  | rdseed _ => exact run_steady (.bind needFeature_framed fun _ => readRandom_framed)
  | rdtsc => exact execRdtsc_steady
  | rdtscp => exact execRdtscp_steady
  | rep _ => exact execRep_steady
  | repe _ => exact execRepe_steady
  | repne _ => exact execRepne_steady
  | retNear _ => exact execRetNear_steady
  | retFar _ => exact run_steady (.getBind fun _ _ => .ite retFarLegacy_framed retFarTable_framed)
  | rorx _ => exact execRorx_steady
  | roundpd _ => exact run_steady xFp1_framed
  | vroundpd _ => exact run_steady vFp1_framed
  | roundps _ => exact run_steady xFp1_framed
  | vroundps _ => exact run_steady vFp1_framed
  | roundsd _ => exact run_steady xxScalar_framed
  | vroundsd _ => exact run_steady vvxScalar_framed
  | roundss _ => exact run_steady xxScalar_framed
  | vroundss _ => exact run_steady vvxScalar_framed
  | rsm => exact run_steady raiseUD_framed
  | rsqrtps _ => exact run_steady xApprox_framed
  | vrsqrtps _ => exact run_steady vApprox_framed
  | rsqrtss _ => exact run_steady xApproxScalar_framed
  | vrsqrtss _ => exact run_steady vApproxScalar_framed
  | sahf => exact execSahf_steady
  | sal _ => exact run_steady (shiftRun_framed fun _ _ _ _ => opShl_framed)
  | sar _ => exact run_steady (shiftRun_framed fun _ _ _ _ => opSar_framed)
  | shl _ => exact run_steady (shiftRun_framed fun _ _ _ _ => opShl_framed)
  | shr _ => exact run_steady (shiftRun_framed fun _ _ _ _ => opShr_framed)
  | sarx _ => exact run_steady shiftX_framed
  | shlx _ => exact run_steady shiftX_framed
  | shrx _ => exact run_steady shiftX_framed
  | sbb _ => exact run_steady (aluRun_framed fun _ _ _ => opSbb_framed)
  | scas _ => exact run_steady scasItem_framed
  | scasb _ => exact run_steady scasItem_framed
  | scasw _ => exact run_steady scasItem_framed
  | scasd _ => exact run_steady scasItem_framed
  | scasq _ => exact run_steady scasItem_framed
  | seto _ => exact run_steady setBody_framed
  | setno _ => exact run_steady setBody_framed
  | setb _ => exact run_steady setBody_framed
  | setae _ => exact run_steady setBody_framed
  | sete _ => exact run_steady setBody_framed
  | setne _ => exact run_steady setBody_framed
  | setbe _ => exact run_steady setBody_framed
  | seta _ => exact run_steady setBody_framed
  | sets _ => exact run_steady setBody_framed
  | setns _ => exact run_steady setBody_framed
  | setp _ => exact run_steady setBody_framed
  | setnp _ => exact run_steady setBody_framed
  | setl _ => exact run_steady setBody_framed
  | setge _ => exact run_steady setBody_framed
  | setle _ => exact run_steady setBody_framed
  | setg _ => exact run_steady setBody_framed
  | sfence => exact run_steady needFeature_framed
  | sgdt _ => exact run_steady (.getBind fun _ _ => storeTable_framed)
  | shld _ => exact run_steady doubleShift_framed
  | shrd _ => exact run_steady doubleShift_framed
  | shufpd _ => exact run_steady xxiRun_framed
  | vshufpd _ => exact execVshufpd_steady
  | shufps _ => exact run_steady xxiRun_framed
  | vshufps _ => exact run_steady vvxiRun_framed
  | sidt _ => exact run_steady (.getBind fun _ _ => storeTable_framed)
  | sldt _ => exact execSldt_steady
  | smsw _ => exact execSmsw_steady
  | sqrtpd _ => exact run_steady xFp1_framed
  | vsqrtpd _ => exact run_steady vFp1_framed
  | sqrtps _ => exact run_steady xFp1_framed
  | vsqrtps _ => exact run_steady vFp1_framed
  | sqrtsd _ => exact run_steady xxScalar_framed
  | vsqrtsd _ => exact run_steady vvxScalar_framed
  | sqrtss _ => exact run_steady xxScalar_framed
  | vsqrtss _ => exact run_steady vvxScalar_framed
  | stac => exact run_steady (.bind needSmapRing0_framed fun _ => modifyFlags_framed)
  | stc => exact execStc_steady
  | std => exact execStd_steady
  | sti => exact execSti_steady
  | stmxcsr _ => exact execStmxcsr_steady
  | vstmxcsr _ => exact execVstmxcsr_steady
  | stos _ => exact run_steady stosItem_framed
  | stosb _ => exact run_steady stosItem_framed
  | stosw _ => exact run_steady stosItem_framed
  | stosd _ => exact run_steady stosItem_framed
  | stosq _ => exact run_steady stosItem_framed
  | str _ => exact execStr_steady
  | sub _ => exact run_steady (aluRun_framed fun _ _ _ => opSub_framed)
  | subpd _ => exact run_steady xxFp_framed
  | vsubpd _ => exact run_steady vvxFp_framed
  | subps _ => exact run_steady xxFp_framed
  | vsubps _ => exact run_steady vvxFp_framed
  | subsd _ => exact run_steady xxScalar_framed
  | vsubsd _ => exact run_steady vvxScalar_framed
  | subss _ => exact run_steady xxScalar_framed
  | vsubss _ => exact run_steady vvxScalar_framed
  | swapgs => exact execSwapgs_steady
  | syscall => exact execSyscall_steady
  | sysenter => exact execSysenter_steady
  | sysexit _ => exact execSysexit_steady
  | sysret _ => exact execSysret_steady
  | test _ => exact run_steady (aluTest_framed fun _ _ _ => opAnd_framed)
  | tzcnt _ => exact run_steady (.getBind fun _ _ => .ite bitCount_framed bitScan_framed)
  | ucomisd _ => exact run_steady comi_framed
  | vucomisd _ => exact run_steady vcomi_framed
  | ucomiss _ => exact run_steady comi_framed
  | vucomiss _ => exact run_steady vcomi_framed
  | ud2 => exact run_steady raiseUD_framed
  | unpckhpd _ => exact run_steady xxRun_framed
  | vunpckhpd _ => exact run_steady vvxRun_framed
  | unpckhps _ => exact run_steady xxRun_framed
  | vunpckhps _ => exact run_steady vvxRun_framed
  | unpcklpd _ => exact run_steady xxRun_framed
  | vunpcklpd _ => exact run_steady vvxRun_framed
  | unpcklps _ => exact run_steady xxRun_framed
  | vunpcklps _ => exact run_steady vvxRun_framed
  | vbroadcastss _ => exact run_steady broadcastRun_framed
  | vbroadcastsd _ => exact run_steady broadcastRun_framed
  | vbroadcastf128 _ => exact run_steady broadcast128_framed
  | vcvtph2ps _ => exact execVcvtph2ps_steady
  | vcvtps2ph _ => exact execVcvtps2ph_steady
  | verr _ => exact run_steady verify_framed
  | verw _ => exact run_steady verify_framed
  | vextractf128 _ => exact run_steady extract128_framed
  | vextracti128 _ => exact run_steady extract128_framed
  | vfmadd132pd _ => exact run_steady fmaPacked_framed
  | vfmadd213pd _ => exact run_steady fmaPacked_framed
  | vfmadd231pd _ => exact run_steady fmaPacked_framed
  | vfmadd132ps _ => exact run_steady fmaPacked_framed
  | vfmadd213ps _ => exact run_steady fmaPacked_framed
  | vfmadd231ps _ => exact run_steady fmaPacked_framed
  | vfmadd132sd _ => exact run_steady fmaScalar_framed
  | vfmadd213sd _ => exact run_steady fmaScalar_framed
  | vfmadd231sd _ => exact run_steady fmaScalar_framed
  | vfmadd132ss _ => exact run_steady fmaScalar_framed
  | vfmadd213ss _ => exact run_steady fmaScalar_framed
  | vfmadd231ss _ => exact run_steady fmaScalar_framed
  | vfmaddsub132pd _ => exact run_steady fmaPacked_framed
  | vfmaddsub213pd _ => exact run_steady fmaPacked_framed
  | vfmaddsub231pd _ => exact run_steady fmaPacked_framed
  | vfmaddsub132ps _ => exact run_steady fmaPacked_framed
  | vfmaddsub213ps _ => exact run_steady fmaPacked_framed
  | vfmaddsub231ps _ => exact run_steady fmaPacked_framed
  | vfmsubadd132pd _ => exact run_steady fmaPacked_framed
  | vfmsubadd213pd _ => exact run_steady fmaPacked_framed
  | vfmsubadd231pd _ => exact run_steady fmaPacked_framed
  | vfmsubadd132ps _ => exact run_steady fmaPacked_framed
  | vfmsubadd213ps _ => exact run_steady fmaPacked_framed
  | vfmsubadd231ps _ => exact run_steady fmaPacked_framed
  | vfmsub132pd _ => exact run_steady fmaPacked_framed
  | vfmsub213pd _ => exact run_steady fmaPacked_framed
  | vfmsub231pd _ => exact run_steady fmaPacked_framed
  | vfmsub132ps _ => exact run_steady fmaPacked_framed
  | vfmsub213ps _ => exact run_steady fmaPacked_framed
  | vfmsub231ps _ => exact run_steady fmaPacked_framed
  | vfmsub132sd _ => exact run_steady fmaScalar_framed
  | vfmsub213sd _ => exact run_steady fmaScalar_framed
  | vfmsub231sd _ => exact run_steady fmaScalar_framed
  | vfmsub132ss _ => exact run_steady fmaScalar_framed
  | vfmsub213ss _ => exact run_steady fmaScalar_framed
  | vfmsub231ss _ => exact run_steady fmaScalar_framed
  | vfnmadd132pd _ => exact run_steady fmaPacked_framed
  | vfnmadd213pd _ => exact run_steady fmaPacked_framed
  | vfnmadd231pd _ => exact run_steady fmaPacked_framed
  | vfnmadd132ps _ => exact run_steady fmaPacked_framed
  | vfnmadd213ps _ => exact run_steady fmaPacked_framed
  | vfnmadd231ps _ => exact run_steady fmaPacked_framed
  | vfnmadd132sd _ => exact run_steady fmaScalar_framed
  | vfnmadd213sd _ => exact run_steady fmaScalar_framed
  | vfnmadd231sd _ => exact run_steady fmaScalar_framed
  | vfnmadd132ss _ => exact run_steady fmaScalar_framed
  | vfnmadd213ss _ => exact run_steady fmaScalar_framed
  | vfnmadd231ss _ => exact run_steady fmaScalar_framed
  | vfnmsub132pd _ => exact run_steady fmaPacked_framed
  | vfnmsub213pd _ => exact run_steady fmaPacked_framed
  | vfnmsub231pd _ => exact run_steady fmaPacked_framed
  | vfnmsub132ps _ => exact run_steady fmaPacked_framed
  | vfnmsub213ps _ => exact run_steady fmaPacked_framed
  | vfnmsub231ps _ => exact run_steady fmaPacked_framed
  | vfnmsub132sd _ => exact run_steady fmaScalar_framed
  | vfnmsub213sd _ => exact run_steady fmaScalar_framed
  | vfnmsub231sd _ => exact run_steady fmaScalar_framed
  | vfnmsub132ss _ => exact run_steady fmaScalar_framed
  | vfnmsub213ss _ => exact run_steady fmaScalar_framed
  | vfnmsub231ss _ => exact run_steady fmaScalar_framed
  | vgatherdpd _ => exact run_steady gatherRun_framed
  | vgatherqpd _ => exact run_steady gatherRun_framed
  | vgatherdps _ => exact run_steady gatherRun_framed
  | vgatherqps _ => exact run_steady gatherRun_framed
  | vpgatherdd _ => exact run_steady gatherRun_framed
  | vpgatherqd _ => exact run_steady gatherRun_framed
  | vpgatherdq _ => exact run_steady gatherRun_framed
  | vpgatherqq _ => exact run_steady gatherRun_framed
  | vinsertf128 _ => exact run_steady insert128_framed
  | vinserti128 _ => exact run_steady insert128_framed
  | vmaskmovps _ => exact run_steady maskMov_framed
  | vmaskmovpd _ => exact run_steady maskMov_framed
  | vpblendd _ => exact execVpblendd_steady
  | vpbroadcastb _ => exact run_steady broadcastRun_framed
  | vpbroadcastw _ => exact run_steady broadcastRun_framed
  | vpbroadcastd _ => exact run_steady broadcastRun_framed
  | vpbroadcastq _ => exact run_steady broadcastRun_framed
  | vbroadcasti128 _ => exact run_steady broadcast128_framed
  | vpermd _ => exact run_steady permDwords_framed
  | vpermpd _ => exact run_steady permQwords_framed
  | vpermps _ => exact run_steady permDwords_framed
  | vpermq _ => exact run_steady permQwords_framed
  | vperm2i128 _ => exact run_steady perm128_framed
  | vperm2f128 _ => exact run_steady perm128_framed
  | vpermilpd _ => exact execVpermilpd_steady
  | vpermilps _ => exact execVpermilps_steady
  | vpmaskmovd _ => exact run_steady maskMov_framed
  | vpmaskmovq _ => exact run_steady maskMov_framed
  | vpsllvd _ => exact run_steady varShift_framed
  | vpsllvq _ => exact run_steady varShift_framed
  | vpsravd _ => exact run_steady varShift_framed
  | vpsrlvd _ => exact run_steady varShift_framed
  | vpsrlvq _ => exact run_steady varShift_framed
  | vtestps _ => exact run_steady signTest_framed
  | vtestpd _ => exact run_steady signTest_framed
  | vzeroall => exact run_steady (.bind needVex_framed fun _ => .modify fun _ h => h)
  | vzeroupper => exact run_steady (.bind needVex_framed fun _ => .modify fun _ h => h)
  | wait => exact run_steady waitOnly_framed
  | fwait => exact run_steady waitOnly_framed
  | wbinvd => exact run_steady needCpl0_framed
  | wrfsbase _ => exact run_steady writeSegBase_framed
  | wrgsbase _ => exact run_steady writeSegBase_framed
  | wrmsr => exact execWrmsr_steady
  | wrpkru => exact execWrpkru_steady
  | xacquire _ => exact execXacquire_steady
  | xrelease _ => exact execXrelease_steady
  | xabort _ => exact execXabort_steady
  | xadd _ => exact run_steady xaddBody_framed
  | xbegin _ => exact execXbegin_steady
  | xchg _ => exact run_steady xchgBody_framed
  | xend => exact execXend_steady
  | xgetbv => exact execXgetbv_steady
  | xlat _ => exact run_steady xlatBody_framed
  | xlatb _ => exact run_steady xlatBody_framed
  | xor _ => exact run_steady (aluRun_framed fun _ _ _ => opXor_framed)
  | xorpd _ => exact run_steady xxRun_framed
  | vxorpd _ => exact run_steady vvxRun_framed
  | xorps _ => exact run_steady xxRun_framed
  | vxorps _ => exact run_steady vvxRun_framed
  | xrstor _ => exact run_steady xrestore_framed
  | xrstor64 _ => exact run_steady xrestore_framed
  | xrstors _ => exact run_steady xrestore_framed
  | xrstors64 _ => exact run_steady xrestore_framed
  | xsave _ => exact run_steady xsaveStd_framed
  | xsave64 _ => exact run_steady xsaveStd_framed
  | xsavec _ => exact run_steady xsaveCompact_framed
  | xsavec64 _ => exact run_steady xsaveCompact_framed
  | xsaveopt _ => exact run_steady xsaveStd_framed
  | xsaveopt64 _ => exact run_steady xsaveStd_framed
  | xsaves _ => exact run_steady xsaveCompact_framed
  | xsaves64 _ => exact run_steady xsaveCompact_framed
  | xsetbv => exact execXsetbv_steady
  | xtest => exact execXtest_steady

end Sys2Proof.Machine
end

section
/-! The invariant of memory and the promise about the system registers, for every step. -/

namespace Sys2Proof.Machine

variable {s t u : State} {o : Host.Outcome State Fault Refusal}

theorem fetchBytes_framed {p : Prop} {s₀ : State} {n : Nat} : Framed p s₀ (fetchBytes n) := by
  refine .getBind fun _ _ => .ite ?_ raiseGP_framed
  exact .bind translateRange_framed fun _ => .pure

theorem fetch_framed {p : Prop} {s₀ : State} : Framed p s₀ fetch := by
  refine .getBind fun _ _ => ?_
  dsimp only
  split
  · exact .bind fetchBytes_framed fun _ => .pure
  · exact .bind fetchBytes_framed fun _ => raiseGP_framed
  · exact .bind fetchBytes_framed fun _ => raiseGP_framed
  · exact .bind fetchBytes_framed fun _ => raiseUD_framed

/-- A fetch that passes changed what its access may change. -/
theorem fetch_accessOnly {d : Decoded} (h : Passes fetch s d t) : AccessOnly s t := by
  unfold fetch at h
  rw [passes_get_bind] at h
  dsimp only at h
  split at h
  · obtain ⟨_, u, h1, h2⟩ := passes_bind_iff.1 h
    obtain ⟨-, rfl⟩ := passes_pure_iff.1 h2
    exact fetchBytes_accessOnly h1
  · obtain ⟨_, u, -, h2⟩ := passes_bind_iff.1 h
    exact absurd h2 (by simp [raiseGP, passes_raise_iff])
  · obtain ⟨_, u, -, h2⟩ := passes_bind_iff.1 h
    exact absurd h2 (by simp [raiseGP, passes_raise_iff])
  · obtain ⟨_, u, -, h2⟩ := passes_bind_iff.1 h
    exact absurd h2 (by simp [raiseUD, passes_raise_iff])

theorem SysKept.trans (h : SysKept s t) (h2 : SysKept t u) : SysKept s u := by
  obtain ⟨hs, he⟩ := h
  obtain ⟨hs2, he2⟩ := h2
  refine ⟨?_, he2.trans he⟩
  rw [hs2, hs]

/-- A step may start a little later: the frame so far and the frame from there on make one. -/
theorem Steady.after (h : Steady t o) (hp : s.privileged = false → t.privileged = false) (hf : Frame (s.privileged = false) s t) :
    Steady s o := by
  intro u hu
  obtain ⟨hc, hk⟩ := h u hu
  refine ⟨fun h0 => hc (hf.canonical h0), fun hs hn => (hf.2.2 hs).trans (hk (hp hs) ?_)⟩
  rw [hf.2.1]
  exact hn

theorem runInstr_steady (s : State) : Steady s (runInstr s) := by
  have hf : Framed (s.privileged = false) s fetch := fetch_framed
  have hd := hf s (.refl _ s)
  unfold runInstr
  split
  · rename_i d t ht
    have ha : AccessOnly s t := fetch_accessOnly ht
    have hp : (t.atInstr d.len d.fop).privileged = s.privileged := by obtain ⟨m, p, q, rfl⟩ := ha; rfl
    exact Steady.after (exec_steady d.instr _) (fun h => hp.trans h) ((hd.1 _ _ ht).of_eq rfl rfl rfl rfl)
  · rename_i ht
    exact takeException_steady (hd.2 _ _ ht)
  · exact steady_fault _
  · exact steady_refused _

/-! The steps of which an instruction is no part. -/

theorem Steady.canonical (h : Steady s (.next t)) (hc : s.Canonical) : t.Canonical := (h t rfl).1 hc

theorem doReset_canonical (h : s.Canonical) : s.doReset.Canonical := by
  refine ⟨?_, fun n hn => by cases hn⟩
  show (match s.rtm.snapshot with | some n => n.mem | none => s.mem : Memory).wf = true
  split
  · rename_i n hn
    exact h.2 n hn
  · exact h.1

theorem doInit_canonical (h : s.Canonical) : s.doInit.Canonical :=
  ⟨(rtmAbort_canonical h).1, fun n hn => by cases hn⟩

/-- Delivery from a state with a canonical memory. -/
theorem deliver_canonical {k : Nat} {e : Event} (h : s.Canonical) (hd : deliver k e s = .next t) : t.Canonical :=
  Steady.canonical (s := s) (by rw [← hd]; exact deliver_steady (.refl _ s)) h

theorem takeDebugTrap_canonical (h : s.Canonical) (hd : takeDebugTrap s = .next t) : t.Canonical :=
  deliver_canonical (s := { s with act := { s.act with pendingDb := 0 } }) h hd

theorem takeExternal_canonical {k : EventKind} {v : BitVec 8} (h : s.Canonical) (hd : takeExternal k v s = .next t) : t.Canonical :=
  deliver_canonical (rtmAbort_canonical h) hd

theorem takeBreakpoint_canonical {b : BitVec 16} (h : s.Canonical) (hd : takeBreakpoint b s = .next t) : t.Canonical := by
  unfold takeBreakpoint at hd
  split at hd
  · cases hd
    exact rtmAbort_canonical h
  · exact deliver_canonical h hd

theorem waitStep_canonical (h : s.Canonical) : (waitStep s).Canonical := by
  unfold waitStep
  split
  · exact h
  · exact h

/-- Settles O43: the branches of `step`. -/
theorem memoryCanonicalKept : Obligations.MemoryCanonicalKept := by
  unfold Obligations.MemoryCanonicalKept
  intro s t h hs
  have hp : ∀ (q : Pins), State.Canonical { s with pins := q } := fun _ => h
  unfold step at hs
  split at hs
  · cases hs; exact doReset_canonical h
  split at hs
  · cases hs; exact doInit_canonical h
  split at hs
  · cases hs; exact h
  split at hs
  · cases hs; exact h
  split at hs
  · exact takeDebugTrap_canonical h hs
  split at hs
  · exact takeExternal_canonical (hp _) hs
  split at hs
  · exact takeExternal_canonical (hp _) hs
  split at hs
  · cases hs; exact rtmAbort_canonical (hp _)
  split at hs
  · cases hs; exact waitStep_canonical h
  split at hs
  · exact takeBreakpoint_canonical h hs
  · exact (runInstr_steady s t hs).1 h

/-- Settles O54: an undisturbed step runs an instruction. -/
theorem unprivilegedStepKeepsSystemState : Obligations.UnprivilegedStepKeepsSystemState := by
  unfold Obligations.UnprivilegedStepKeepsSystemState
  intro s t hu hp hn hs
  rw [hu.step_eq] at hs
  exact (runInstr_steady s t hs).2 hp hn

end Sys2Proof.Machine
end

section
/-! What the checks of an operand leave unchanged (obligation O47). Every step of such a check keeps what `AccessTouches` says
of the state it started from; the one step that stores is the end of a page walk. -/

namespace Sys2Proof.Machine

variable {s₀ s : State}

/-- The value of a byte after accessed and dirty bits were set in it. -/
def MarkedFrom (old new : Byte) : Prop := ∃ x ∈ ([0, 0x20, 0x60] : List Byte), new = old ||| x

/-- Every byte of the memory is the old one but for accessed and dirty bits. -/
def Memory.MarkedFrom (m₀ m : Memory) : Prop := m.wf = true ∧ ∀ a, Machine.MarkedFrom (m₀.read a) (m.read a)

theorem MarkedFrom.refl (b : Byte) : MarkedFrom b b := ⟨0, by decide, by simp⟩

/-- Two marks are one mark. -/
theorem MarkedFrom.trans {a b c : Byte} (h : MarkedFrom a b) (h' : MarkedFrom b c) : MarkedFrom a c := by
  obtain ⟨x, hx, rfl⟩ := h
  obtain ⟨y, hy, rfl⟩ := h'
  have hclosed : ∀ x ∈ ([0, 0x20, 0x60] : List Byte), ∀ y ∈ ([0, 0x20, 0x60] : List Byte),
      x ||| y ∈ ([0, 0x20, 0x60] : List Byte) := by decide
  exact ⟨x ||| y, hclosed x hx y hy, BitVec.or_assoc ..⟩

theorem Memory.MarkedFrom.refl {m : Memory} (h : m.wf = true) : m.MarkedFrom m := ⟨h, fun _ => .refl _⟩

/-- Marking one more byte. -/
theorem Memory.MarkedFrom.write {m₀ m : Memory} (h : m₀.MarkedFrom m) (a : Nat) {x : Byte}
    (hx : x ∈ ([0, 0x20, 0x60] : List Byte)) : m₀.MarkedFrom (m.write a (m.read a ||| x)) := by
  obtain ⟨hwf, hread⟩ := h
  refine ⟨Memory.write_wf m a _ hwf, fun b => ?_⟩
  by_cases hb : b = a
  · subst hb
    rw [Memory.read_write_same m b _ hwf]
    exact (hread b).trans ⟨x, hx, rfl⟩
  · rw [Memory.read_write_other m _ hwf hb]
    exact hread b

/-- Marking the entries of a walk. -/
theorem Memory.MarkedFrom.markUsed {m₀ m : Memory} (h : m₀.MarkedFrom m) (w : Bool) (entries : List Nat) :
    m₀.MarkedFrom (m.markUsed w entries) := by
  cases entries with
  | nil => exact h
  | cons leaf tables =>
    have hleaf : (if w then 0x60 else 0x20) ∈ ([0, 0x20, 0x60] : List Byte) := by cases w <;> decide
    have h1 := h.write leaf hleaf
    unfold Memory.markUsed
    dsimp only
    generalize m.write leaf (m.read leaf ||| (if w then 0x60 else 0x20)) = m1 at h1
    induction tables generalizing m1 with
    | nil => exact h1
    | cons a tables ih => exact ih _ (h1.write a (by decide))

/-- What `AccessTouches` says, with the canonical form of the memory, on which later marks build. -/
def Touched (s₀ s : State) : Prop := AccessTouches s₀ s ∧ (s₀.mem.wf = true → s₀.mem.MarkedFrom s.mem)

theorem Touched.refl (s : State) : Touched s s :=
  ⟨⟨.refl s, fun _ => ⟨rfl, rfl⟩, id, ⟨0, by simp⟩, fun hwf => (Memory.MarkedFrom.refl hwf).2⟩, Memory.MarkedFrom.refl⟩

/-- No check changes the paging mode. -/
theorem AccessOnly.paging (h : AccessOnly s₀ s) : s.paging = s₀.paging := by
  obtain ⟨m, b, q, rfl⟩ := h
  rfl

/-- The end of a page walk, which happens with paging on only. -/
theorem Touched.walked (h : Touched s₀ s) (hp : s.paging ≠ .off) (w : Bool) (entries : List Nat) :
    Touched s₀ (s.walked w entries) := by
  obtain ⟨⟨honly, _, harmed, hdb, _⟩, hmarked⟩ := h
  have hmarked' : s₀.mem.wf = true → s₀.mem.MarkedFrom (s.walked w entries).mem := fun hwf => (hmarked hwf).markUsed w entries
  have hpaging : s₀.paging ≠ .off := honly.paging ▸ hp
  refine ⟨⟨honly.trans ⟨_, _, _, rfl⟩, fun hoff => absurd hoff hpaging, fun ha => ?_, hdb, fun hwf => (hmarked' hwf).2⟩, hmarked'⟩
  exact harmed (Bool.and_eq_true_iff.1 ha).1

/-- A debug condition noted. -/
theorem Touched.noted (h : Touched s₀ s) (b : BitVec 16) :
    Touched s₀ { s with act := { s.act with pendingDb := s.act.pendingDb ||| b } } := by
  obtain ⟨⟨honly, hoff, harmed, ⟨c, hc⟩, hread⟩, hmarked⟩ := h
  refine ⟨⟨honly.trans ⟨_, _, _, rfl⟩, hoff, harmed, ⟨c ||| b, ?_⟩, hread⟩, hmarked⟩
  dsimp only
  rw [hc, BitVec.or_assoc]

/-! The checks, from the page walk up. -/

theorem raise_touched {α : Type} {e : Exc} : Maintains (Touched s₀) (raise e : M α) := .throw

theorem physRead_touched {as : List Nat} : Maintains (Touched s₀) (physRead as) := .getBind fun _ _ => .pure

theorem notePending_touched {b : BitVec 16} : Maintains (Touched s₀) (notePending b) := .modify fun _ h => h.noted b

theorem translate_touched {k : Kind} {user sup : Bool} {lin : Word} : Maintains (Touched s₀) (translate k user sup lin) := by
  refine .getBind fun s h => ?_
  split
  · exact raise_touched
  · exact raise_touched
  · split
    · exact .pure
    · rename_i hp
      split
      · exact raise_touched
      · exact raise_touched
      · exact .bind (.set (h.walked hp _ _)) fun _ => .pure

theorem translateRange_touched {trunc : Word → Word} {k : Kind} {user sup : Bool} {lin : Word} {n : Nat} :
    Maintains (Touched s₀) (translateRange trunc k user sup lin n) :=
  .ite (.bind translate_touched fun _ => .pure) (.bind translate_touched fun _ => .bind translate_touched fun _ => .pure)

theorem resolveIn_touched {r : SReg} {c : SegCache} {user : Bool} {k : Kind} {nat must : Nat} {off : Word} {n : Nat} :
    Maintains (Touched s₀) (resolveIn r c user k nat must off n) := by
  refine .getBind fun _ _ => ?_
  split
  · exact raise_touched
  · exact .ite raise_touched raise_touched
  · exact .ite raise_touched (.ite raise_touched (.bind translateRange_touched fun _ => .bind notePending_touched fun _ => .pure))

theorem resolve_touched {r : SReg} {k : Kind} {nat must : Nat} {off : Word} {n : Nat} :
    Maintains (Touched s₀) (resolve r k nat must off n) := .getBind fun _ _ => resolveIn_touched

theorem resolveMem_touched {k : Kind} {m : MemRef} {n : Nat} : Maintains (Touched s₀) (resolveMem k m n) :=
  .getBind fun _ _ => resolve_touched

theorem resolveAligned_touched {k : Kind} {m : MemRef} {n must : Nat} :
    Maintains (Touched s₀) (resolveAligned k m n must) := .getBind fun _ _ => resolve_touched

theorem resolveLoose_touched {k : Kind} {m : MemRef} {n nat : Nat} : Maintains (Touched s₀) (resolveLoose k m n nat) :=
  .getBind fun _ _ => resolve_touched

theorem resolveVec_touched {k : Kind} {al : Align} {m : MemRef} {n : Nat} :
    Maintains (Touched s₀) (resolveVec k al m n) := by
  cases al with
  | free => exact resolveMem_touched
  | size => exact resolveAligned_touched
  | loose => exact .getBind fun _ _ => resolveLoose_touched
  | silent => exact resolveLoose_touched

theorem readMem_touched {m : MemRef} {n : Nat} : Maintains (Touched s₀) (readMem m n) :=
  .bind resolveMem_touched fun _ => physRead_touched

theorem place_touched {k : Kind} {w : Width} {o : Rm} : Maintains (Touched s₀) (place k w o) := by
  cases o with
  | reg _ => exact .pure
  | mem _ => exact .bind resolveMem_touched fun _ => .pure

theorem readRm_touched {w : Width} {o : Rm} : Maintains (Touched s₀) (readRm w o) :=
  .bind place_touched fun _ => .getBind fun _ _ => .pure

theorem readXm_touched {al : Align} {n : Nat} {o : Xm} : Maintains (Touched s₀) (readXm al n o) := by
  cases o with
  | reg _ => exact .getBind fun _ _ => .pure
  | mem _ => exact .bind resolveVec_touched fun _ => .bind physRead_touched fun _ => .pure

theorem readMmM_touched {n : Nat} {o : Mm} : Maintains (Touched s₀) (readMmM n o) := by
  cases o with
  | reg _ => exact .getBind fun _ _ => .pure
  | mem _ => exact .bind readMem_touched fun _ => .pure

/-- A check that passes touches what every state on its way may differ in. -/
theorem Maintains.accessTouches {α : Type} {m : M α} {a : α} {u : State} (hm : Maintains (Touched s) m) (h : Passes m s a u) :
    AccessTouches s u := ((hm s (.refl s)).1 a u h).1

/-- Settles O47: each of the checks maintains `Touched`. -/
theorem accessFrame : Obligations.AccessFrame := by
  intro s u
  exact ⟨fun _ _ _ _ _ _ _ => resolve_touched.accessTouches, fun _ _ _ _ => place_touched.accessTouches,
    fun _ _ _ => readRm_touched.accessTouches, fun _ _ _ _ => readXm_touched.accessTouches,
    fun _ _ _ => readMmM_touched.accessTouches, fun _ _ _ _ _ => resolveAligned_touched.accessTouches,
    fun _ _ _ => readMem_touched.accessTouches⟩

end Sys2Proof.Machine
end

section
/-! What the encoder writes, the decoder reads: the readers of bytes and numbers, the prefixes and the opcode, and how a
reader that takes exactly the bytes of an encoding gives the decoded instruction (spec/30_encoding.md rules R302 to R312). -/

namespace Sys2Proof

variable {α β : Type} {m : CMode} {c : Dec}

/-- The reader takes exactly the bytes `bs` and gives `a`, whatever stands behind them. -/
def Reads (p : P α) (bs : List Byte) (a : α) : Prop := ∀ rest, p (bs ++ rest) = .ok (a, rest)

namespace Reads

theorem pure (a : α) : Reads (Pure.pure a : P α) [] a := fun _ => rfl

theorem bind {p : P α} {f : α → P β} {xs ys : List Byte} {a : α} {b : β} (hp : Reads p xs a) (hf : Reads (f a) ys b) :
    Reads (p >>= f) (xs ++ ys) b := by
  intro rest
  have hrun : (p >>= f) (xs ++ ys ++ rest) = (p (xs ++ (ys ++ rest)) >>= fun r => f r.1 r.2) := by
    rw [List.append_assoc]
    rfl
  rw [hrun, hp]
  exact hf rest

/-- A reader that goes on after some bytes without reading. -/
theorem bindPure {p : P α} {f : α → β} {xs : List Byte} {a : α} (hp : Reads p xs a) :
    Reads (p >>= fun a => Pure.pure (f a)) xs (f a) := by
  have h := hp.bind (f := fun a => Pure.pure (f a)) (pure (f a))
  rwa [List.append_nil] at h

theorem byte (b : Byte) : Reads P.byte [b] b := fun _ => rfl

end Reads

/-! Numbers. -/

/-- A number of n bytes is read back, cut to them. -/
theorem reads_le (n v : Nat) : Reads (P.le n) (leBytes n v) (v % 256 ^ n) := by
  induction n generalizing v with
  | zero =>
    rw [Nat.pow_zero, Nat.mod_one]
    exact .pure 0
  | succ n ih =>
    have hvalue : (BitVec.ofNat 8 v).toNat + 256 * (v / 256 % 256 ^ n) = v % 256 ^ (n + 1) := by
      rw [Nat.pow_succ', Nat.mod_mul]
      rfl
    have hread : Reads (P.le (n + 1)) (leBytes (n + 1) v) ((BitVec.ofNat 8 v).toNat + 256 * (v / 256 % 256 ^ n)) :=
      (Reads.byte (BitVec.ofNat 8 v)).bind (ih (v / 256)).bindPure
    rwa [hvalue] at hread

theorem length_leBytes (n v : Nat) : (leBytes n v).length = n := by
  induction n generalizing v with
  | zero => rfl
  | succ n ih =>
    show (leBytes n (v / 256)).length + 1 = n + 1
    rw [ih]

/-! Immediates (rule R303). -/

/-- The word read from the n bytes of a number. -/
theorem reads_leWord (n v : Nat) :
    Reads (do return BitVec.ofNat 64 (← P.le n)) (leBytes n v) (BitVec.ofNat 64 (v % 256 ^ n)) := (reads_le n v).bindPure

theorem reads_immIb (v : Nat) : Reads (c.imm .ib) (leBytes 1 v) (BitVec.ofNat 64 (v % 256 ^ 1)) := reads_leWord 1 v

theorem reads_immIz16 (h : c.osz = .w16) (v : Nat) : Reads (c.imm .iz) (leBytes 2 v) (BitVec.ofNat 64 (v % 256 ^ 2)) := by
  have himm : c.imm .iz = (do return BitVec.ofNat 64 (← P.le 2)) := by
    unfold Dec.imm
    rw [h]
    rfl
  rw [himm]
  exact reads_leWord 2 v

theorem reads_immIz32 (h : c.osz ≠ .w16) (v : Nat) : Reads (c.imm .iz) (leBytes 4 v) (BitVec.ofNat 64 (v % 256 ^ 4)) := by
  have himm : c.imm .iz = (do return BitVec.ofNat 64 (← P.le 4)) := by
    unfold Dec.imm
    rw [if_neg h]
  rw [himm]
  exact reads_leWord 4 v

/-- A byte cut from a word read from one byte. -/
theorem setWidth_ofNat_byte (v : BitVec 8) : (BitVec.ofNat 64 (v.toNat % 256 ^ 1)).setWidth 8 = v := by
  apply BitVec.eq_of_toNat_eq
  simp
  omega

/-- The low byte of a sign-extended byte. -/
theorem sext8_ofNat {v : BitVec 32} (h : signedIn 8 v = true) : sext8 (BitVec.ofNat 64 (v.toNat % 256 ^ 1)) = v := by
  have hlow : (BitVec.ofNat 64 (v.toNat % 256 ^ 1)).setWidth 8 = v.setWidth 8 := by
    apply BitVec.eq_of_toNat_eq
    simp
  unfold sext8
  rw [hlow]
  exact of_decide_eq_true h

/-- The low word of a sign-extended word. -/
theorem sext16_ofNat {v : BitVec 32} (h : signedIn 16 v = true) :
    ((BitVec.ofNat 64 (v.toNat % 256 ^ 2)).setWidth 16).signExtend 32 = v := by
  have hlow : (BitVec.ofNat 64 (v.toNat % 256 ^ 2)).setWidth 16 = v.setWidth 16 := by
    apply BitVec.eq_of_toNat_eq
    simp
  rw [hlow]
  exact of_decide_eq_true h

theorem setWidth_ofNat_dword (v : BitVec 32) : (BitVec.ofNat 64 (v.toNat % 256 ^ 4)).setWidth 32 = v := by
  apply BitVec.eq_of_toNat_eq
  simp
  omega

/-! Sizes (rules R320, R321). -/

/-- The operand size that 66H and REX.W give back is the width that asked for them. -/
theorem osz_of (hm : c.m = m) (w : Width) (hw : m.osize w = true) (ho : c.opsz = m.need66 w) (hW : c.w = decide (w = .w64)) :
    c.osz = w := by
  unfold Dec.osz
  rw [hm, ho, hW]
  obtain ⟨long, d32, vex⟩ := m
  cases w with
  | w8 => cases hw
  | w16 => cases long <;> cases d32 <;> rfl
  | w32 => cases long <;> cases d32 <;> rfl
  | w64 =>
    cases long with
    | false => cases hw
    | true => rfl

/-- The address size that 67H gives back. -/
theorem asz_of (hm : c.m = m) (a : ASize) (ha : m.addr a = true) (h67 : c.adsz = m.need67 a) : c.asz = a := by
  unfold Dec.asz
  rw [hm, h67]
  obtain ⟨long, d32, vex⟩ := m
  cases a with
  | a16 =>
    cases long with
    | false => cases d32 <;> rfl
    | true => cases ha
  | a32 => cases long <;> cases d32 <;> rfl
  | a64 =>
    cases long with
    | false => cases ha
    | true => rfl

/-- The operand size of a near branch, for which REX.W is not needed. -/
theorem bsz_of (hm : c.m = m) (w : Width) (hw : m.branch w = true) (ho : c.opsz = m.need66 w) (hW : c.w = false) :
    c.bsz = w := by
  unfold Dec.bsz Dec.osz
  rw [hm, ho, hW]
  obtain ⟨long, d32, vex⟩ := m
  cases w with
  | w8 => cases long <;> cases hw
  | w16 =>
    cases long with
    | false => cases d32 <;> rfl
    | true => cases hw
  | w32 =>
    cases long with
    | false => cases d32 <;> rfl
    | true => cases hw
  | w64 =>
    cases long with
    | false => cases hw
    | true => rfl

/-! The prefixes (rules R310, R350). -/

/-- What the decoder knows after the legacy prefixes: no LOCK, F2H or F3H among them. -/
def Dec.after (m : CMode) (ovr : Option SReg) (a67 opsz : Bool) : Dec := { m := m, seg := ovr, adsz := a67, opsz := opsz }

/-- The REX bits recorded; without a REX byte they are all clear. -/
def Dec.rexed (c : Dec) (w r x b keep : Bool) : Dec := { c with rex := w || r || x || b || keep, w := w, r := r, x := x, b := b }

/-- The byte begins the opcode: it is neither one of rule R310 nor, in 64-bit mode, REX. -/
structure NoPrefix (m : CMode) (b : Byte) : Prop where
  note (c : Dec) : c.note b = none
  notRex : (m.long && decide (b.toNat / 16 = 4)) = false

theorem NoPrefix.readPfx {b : Byte} (h : NoPrefix m b) (hm : c.m = m) (bs : List Byte) : readPfx c (b :: bs) = (c, b :: bs) := by
  unfold Sys2Proof.readPfx
  rw [h.note c, hm]
  dsimp only
  rw [h.notRex]
  rfl

/-- A REX byte, which no rule of the legacy prefixes claims, is recorded in 64-bit mode. -/
theorem readPfx_rexByte {b : Byte} (hm : c.m.long = true) (hn : ∀ c : Dec, c.note b = none) (hb : b.toNat / 16 = 4)
    (bs : List Byte) : readPfx c (b :: bs) = readPfx (c.withRex b) bs := by
  conv_lhs => unfold Sys2Proof.readPfx
  rw [hn c, hm, hb]
  rfl

/-- The legacy prefixes are recorded in the order in which the encoder writes them. -/
theorem readPfx_pfxBytes {ovr : Option SReg} (h : m.ovr ovr = true) (a67 opsz : Bool) (bs : List Byte) :
    readPfx { m := m } (pfxBytes ovr a67 opsz none false ++ bs) = readPfx (.after m ovr a67 opsz) bs := by
  obtain ⟨long, d32, vex⟩ := m
  cases ovr with
  | none => cases a67 <;> cases opsz <;> rfl
  | some r =>
    cases long with
    | false => cases r <;> cases a67 <;> cases opsz <;> rfl
    | true =>
      cases r with
      | es => cases h
      | cs => cases h
      | ds => cases h
      | ss => cases a67 <;> cases opsz <;> rfl
      | fs => cases a67 <;> cases opsz <;> rfl
      | gs => cases a67 <;> cases opsz <;> rfl

/-- REX is recorded in 64-bit mode; elsewhere the encoding must do without it. -/
theorem readPfx_rexBytes {ovr : Option SReg} {a67 opsz w r x b keep : Bool}
    (h : m.long = true ∨ (w || r || x || b || keep) = false) (bs : List Byte) :
    readPfx (.after m ovr a67 opsz) (rexBytes w r x b keep ++ bs) =
      readPfx ((Dec.after m ovr a67 opsz).rexed w r x b keep) bs := by
  cases hany : w || r || x || b || keep with
  | false =>
    simp only [Bool.or_eq_false_iff] at hany
    obtain ⟨⟨⟨⟨rfl, rfl⟩, rfl⟩, rfl⟩, rfl⟩ := hany
    rfl
  | true =>
    have hlong : m.long = true := h.resolve_right (by rw [hany]; exact Bool.true_eq_false.mp)
    unfold rexBytes Dec.rexed
    rw [hany, if_pos rfl, List.singleton_append]
    cases w <;> cases r <;> cases x <;> cases b <;> exact readPfx_rexByte hlong (fun _ => rfl) rfl bs

/-- What stands before the opcode of a legacy encoding is read back. -/
theorem readPfx_encoded {ovr : Option SReg} {a67 opsz w r x b keep : Bool} {op : Byte} (hovr : m.ovr ovr = true)
    (h : m.long = true ∨ (w || r || x || b || keep) = false) (hop : NoPrefix m op) (bs : List Byte) :
    readPfx { m := m } (pfxBytes ovr a67 opsz none false ++ (rexBytes w r x b keep ++ op :: bs)) =
      ((Dec.after m ovr a67 opsz).rexed w r x b keep, op :: bs) := by
  rw [readPfx_pfxBytes hovr, readPfx_rexBytes h]
  exact hop.readPfx rfl bs

theorem length_rexBytes_le (w r x b keep : Bool) : (rexBytes w r x b keep).length ≤ 1 := by
  unfold rexBytes
  split <;> simp

theorem length_pfxBytes_le (ovr : Option SReg) (a67 opsz : Bool) : (pfxBytes ovr a67 opsz none false).length ≤ 3 := by
  cases ovr <;> cases a67 <;> cases opsz <;> simp [pfxBytes]

/-! Opcodes and decoding (rule R302). -/

/-- A form that is selected and whose immediate is read gives the instruction it builds. -/
theorem Reads.form {f : Form} {md : Modrm} {bs : List Byte} {v : Word} {i : Instr} (himm : Reads (c.imm f.imm) bs v)
    (hlock : c.lock = false) (hsel : (f.build c md 0).isSome = true) (hbuild : f.build c md v = some i) :
    Reads (c.form f md) bs i := by
  unfold Dec.form Form.selected
  rw [hsel, hlock]
  change Reads (c.imm f.imm >>= _) bs i
  rw [← List.append_nil bs]
  refine himm.bind ?_
  rw [hbuild]
  exact .pure i

/-- A form without ModRM. -/
theorem Reads.direct {f : Form} {bs : List Byte} {i : Instr} (h : Reads (c.form f {}) bs i) : Reads (c.entry (.direct f)) bs i := h

/-- An opcode of the one-byte map, with what its entry reads. -/
theorem OpcodeByte.reads {op : Byte} (h : OpcodeByte op) {bs : List Byte} {i : Instr}
    (he : Reads (c.entry (oneByte op.toNat)) bs i) : Reads c.opcode (op :: bs) i := by
  intro rest
  exact (h.opcode c (bs ++ rest)).trans (he rest)

/-- Bytes of which the decoder reads the prefixes and then all the rest decode, with their length. -/
theorem decode_of_reads {pfx body : List Byte} {i : Instr} (hp : readPfx { m := m } (pfx ++ body) = (c, body))
    (hi : Reads c.opcode body i) (hlen : (pfx ++ body).length ≤ 15) (hfop : fopOf body = 0) :
    decode m (pfx ++ body) = .ok ⟨i, (pfx ++ body).length, 0⟩ := by
  have hrun : c.opcode body = .ok (i, []) := by
    have h := hi []
    rwa [List.append_nil] at h
  unfold decode
  dsimp only
  rw [List.take_of_length_le hlen, hp]
  dsimp only
  rw [hrun, hfop]
  rfl

end Sys2Proof
end

section
/-! Near transfers with a relative target are read back as they were written (obligation O41): 66H and 67H, one or two opcode
bytes, and an offset of the operand's size (spec/30_encoding.md rules R303, R321). -/

namespace Sys2Proof

variable {m : CMode} {c : Dec}

/-- A one-byte opcode is read as one, in every mode. -/
theorem OpcodeByte.noPrefix {b : Byte} (h : OpcodeByte b) : NoPrefix m b :=
  ⟨h.note, by rw [decide_eq_false h.notRex, Bool.and_false]⟩

/-- What the encoder writes before the opcode of a near transfer, and what the decoder reads behind it. -/
theorem decode_unrexed {a67 opsz : Bool} {b : Byte} {bs : List Byte} {i : Instr} (hb : NoPrefix m b)
    (hi : Reads (Dec.after m none a67 opsz).opcode (b :: bs) i) (hlen : bs.length ≤ 11) (hfop : fopOf (b :: bs) = 0) :
    decode m (pfxBytes none a67 opsz none false ++ b :: bs) =
      .ok ⟨i, (pfxBytes none a67 opsz none false ++ b :: bs).length, 0⟩ := by
  have hpfx : readPfx { m := m } (pfxBytes none a67 opsz none false ++ b :: bs) = (.after m none a67 opsz, b :: bs) :=
    (readPfx_pfxBytes rfl a67 opsz _).trans (hb.readPfx rfl bs)
  refine decode_of_reads hpfx hi ?_ hfop
  have := length_pfxBytes_le none a67 opsz
  rw [List.length_append, List.length_cons]
  omega

/-- A near transfer needs no REX byte. -/
theorem plain_head64 (w : Width) (op : Byte) (esc imm : List Byte) :
    plain (m.head64 w op esc) false imm = pfxBytes none false (m.need66 w) none false ++ (esc ++ op :: imm) := by
  simp [plain, CMode.head64, rexBytes]

/-- An opcode of the two-byte map whose entry asks for no byte before it and no ModRM byte. -/
theorem reads_twoByte {b : Byte} {f : Form} {bs : List Byte} {i : Instr} (h38 : b ≠ 0x38#8) (h3A : b ≠ 0x3A#8)
    (he : twoByte c b.toNat = .direct f) (hi : Reads (c.entry (.direct f)) bs i) : Reads c.opcode (0x0F :: b :: bs) i := by
  intro rest
  have hentry : legacyEntry c .m0F b.toNat = .direct f := by
    unfold legacyEntry
    dsimp only
    rw [he]
  have hrun : c.opcode (0x0F :: b :: (bs ++ rest)) = c.entry (legacyEntry c .m0F b.toNat) (bs ++ rest) := by
    simp [Dec.opcode, Dec.isVex, P.byte, h38, h3A, bind, StateT.bind, Except.bind, get, getThe,
      MonadStateOf.get, StateT.get, Pure.pure, Except.pure]
  exact hrun.trans (hentry ▸ hi rest)

/-! Offsets. -/

/-- The target offset the bytes of a form give: four bytes in 64-bit mode, else of the operand size. -/
def Dec.offset (c : Dec) (v : Word) : BitVec 32 := if c.m.long then v.setWidth 32 else c.sextZ v

/-- The form reads as many bytes as the encoder writes. -/
theorem offset_bytes {w : Width} (hm : c.m = m) (hw : m.branch w = true) (hb : c.bsz = w) :
    (if c.m.long || decide (c.osz = .w32) then 4 else 2) = (if w = .w16 then 2 else 4) := by
  unfold CMode.branch at hw
  unfold Dec.bsz at hb
  rw [hm] at hb ⊢
  cases hlong : m.long with
  | true =>
    rw [hlong] at hw
    have hw64 : w = .w64 := of_decide_eq_true hw
    rw [hw64]
    rfl
  | false =>
    rw [hlong] at hw hb
    rw [show c.osz = w from hb]
    obtain rfl | rfl : w = .w16 ∨ w = .w32 := of_decide_eq_true hw
    · rfl
    · rfl

/-- These bytes give the offset. -/
theorem offset_ofNat {w : Width} {d : BitVec 32} (hm : c.m = m) (hw : m.branch w = true)
    (hd : (m.long || immOk w d) = true) (hb : c.bsz = w) :
    c.offset (BitVec.ofNat 64 (d.toNat % 256 ^ (if w = .w16 then 2 else 4))) = d := by
  unfold CMode.branch at hw
  unfold Dec.bsz at hb
  unfold Dec.offset Dec.sextZ
  rw [hm] at hb ⊢
  cases hlong : m.long with
  | true =>
    rw [hlong] at hw
    have hw64 : w = .w64 := of_decide_eq_true hw
    rw [hw64]
    exact setWidth_ofNat_dword d
  | false =>
    rw [hlong] at hw hb hd
    rw [show c.osz = w from hb]
    obtain rfl | rfl : w = .w16 ∨ w = .w32 := of_decide_eq_true hw
    · exact sext16_ofNat hd
    · exact setWidth_ofNat_dword d

/-- The offset of a near transfer is read back. -/
theorem reads_offset {w : Width} {d : BitVec 32} (hm : c.m = m) (hw : m.branch w = true)
    (hd : (m.long || immOk w d) = true) (hb : c.bsz = w) : ∃ v, Reads (c.imm .jz) (relZ w d) v ∧ c.offset v = d := by
  refine ⟨_, ?_, offset_ofNat hm hw hd hb⟩
  have himm : c.imm .jz = (do return BitVec.ofNat 64 (← P.le (if w = .w16 then 2 else 4))) := by
    unfold Dec.imm
    dsimp only
    rw [offset_bytes hm hw hb]
  rw [himm]
  exact reads_leWord _ _

/-- A form with an offset gives the transfer to it. -/
theorem reads_relative {w : Width} {d : BitVec 32} (k : Width → BitVec 32 → Instr) (hm : c.m = m) (hlock : c.lock = false)
    (hw : m.branch w = true) (hd : (m.long || immOk w d) = true) (hb : c.bsz = w) :
    Reads (c.entry (.get .jz fun c v => some (k c.bsz (if c.m.long then v.setWidth 32 else c.sextZ v)))) (relZ w d) (k w d) := by
  obtain ⟨v, hread, hoffset⟩ := reads_offset hm hw hd hb
  refine Reads.direct (Reads.form hread hlock rfl ?_)
  rw [← hb, ← hoffset]
  rfl


/-- An offset has at most four bytes. -/
theorem length_relZ_le (w : Width) (d : BitVec 32) : (relZ w d).length ≤ 4 := by
  unfold relZ
  rw [length_leBytes]
  split <;> decide

/-! The transfers with an offset of the operand's size: the conditional jumps, JMP and CALL. -/

/-- What the decoder knows before the opcode of such a transfer. -/
theorem bsz_after {w : Width} {a67 : Bool} (hw : m.branch w = true) : (Dec.after m none a67 (m.need66 w)).bsz = w :=
  bsz_of rfl w hw rfl rfl

theorem twoByte_jcc (c : Dec) (n : Fin 16) :
    twoByte c (BitVec.ofNat 8 (0x80 + n.val)).toNat =
      .get .jz fun c v => some (jccInstr n ⟨c.bsz, if c.m.long then v.setWidth 32 else c.sextZ v⟩) := by
  fin_cases n <;> rfl

theorem encode_jcc (n : Fin 16) (o : JccOps) : encode m (jccInstr n o) = encJcc m n o := by
  fin_cases n <;> rfl

theorem wf_jcc (n : Fin 16) (o : JccOps) : (jccInstr n o).wf m = o.ok m := by
  fin_cases n <;> rfl

/-- The sixteen conditional jumps in the order of their conditions. -/
theorem jccs_eq : ([.jo, .jno, .jb, .jae, .je, .jne, .jbe, .ja, .js, .jns, .jp, .jnp, .jl, .jge, .jle, .jg] :
    List (JccOps → Instr)) = (List.finRange 16).map jccInstr := rfl

theorem decode_jcc (n : Fin 16) (o : JccOps) (h : (jccInstr n o).wf m = true) :
    decode m (encode m (jccInstr n o)) = .ok ⟨jccInstr n o, (encode m (jccInstr n o)).length, 0⟩ := by
  obtain ⟨w, rel⟩ := o
  rw [wf_jcc, JccOps.ok, Bool.and_eq_true] at h
  obtain ⟨hw, hrel⟩ := h
  rw [encode_jcc, encJcc, plain_head64]
  have hescape : NoPrefix m 0x0F := ⟨fun _ => rfl, by simp⟩
  have h38 : ∀ n : Fin 16, BitVec.ofNat 8 (0x80 + n.val) ≠ 0x38#8 := by decide
  have h3A : ∀ n : Fin 16, BitVec.ofNat 8 (0x80 + n.val) ≠ 0x3A#8 := by decide
  have hread := reads_relative (fun w d => jccInstr n ⟨w, d⟩) (c := .after m none false (m.need66 w)) rfl rfl hw hrel (bsz_after hw)
  refine decode_unrexed hescape (reads_twoByte (h38 n) (h3A n) (twoByte_jcc _ n) hread) ?_ rfl
  have := length_relZ_le w rel
  show (relZ w rel).length + 1 ≤ 11
  omega

/-- JMP and CALL, whose opcode stands in the one-byte map. -/
theorem decode_relative {op : Byte} {w : Width} {d : BitVec 32} (k : Width → BitVec 32 → Instr) (hop : OpcodeByte op)
    (he : oneByte op.toNat = .get .jz fun c v => some (k c.bsz (if c.m.long then v.setWidth 32 else c.sextZ v)))
    (hw : m.branch w = true) (hd : (m.long || immOk w d) = true) (hfop : ∀ bs, fopOf (op :: bs) = 0) :
    decode m (plain (m.head64 w op) false (relZ w d)) = .ok ⟨k w d, (plain (m.head64 w op) false (relZ w d)).length, 0⟩ := by
  have hread := reads_relative k (c := .after m none false (m.need66 w)) rfl rfl hw hd (bsz_after hw)
  rw [plain_head64]
  refine decode_unrexed hop.noPrefix (hop.reads (he ▸ hread)) ?_ (hfop _)
  have := length_relZ_le w d
  omega

/-! The loops and the jumps on rCX, with an offset of one byte. -/

theorem reads_immByte (v : Byte) : Reads (c.imm .ib) [v] (BitVec.ofNat 64 (v.toNat % 256 ^ 1)) := by
  have hbyte : leBytes 1 v.toNat = [v] := by simp [leBytes]
  rw [← hbyte]
  exact reads_immIb v.toNat

theorem reads_loop {w : Width} {a : ASize} (k : Width → ASize → Byte → Instr) (rel : Byte) (hb : c.bsz = w) (ha : c.asz = a)
    (hlock : c.lock = false) :
    Reads (c.entry (.get .ib fun c v => some (k c.bsz c.asz (v.setWidth 8)))) [rel] (k w a rel) := by
  refine Reads.direct (Reads.form (reads_immByte rel) hlock rfl ?_)
  show some (k c.bsz c.asz _) = _
  rw [hb, ha, setWidth_ofNat_byte]

/-- An instruction of an opcode byte and an offset byte, with the sizes its prefixes give. -/
theorem decode_loop {op : Byte} {o : LoopOps} (k : Width → ASize → Byte → Instr) (hop : OpcodeByte op)
    (he : oneByte op.toNat = .get .ib fun c v => some (k c.bsz c.asz (v.setWidth 8))) (h : o.ok m = true)
    (hfop : ∀ bs, fopOf (op :: bs) = 0) :
    decode m (encLoop m op o) = .ok ⟨k o.w o.a o.rel, (encLoop m op o).length, 0⟩ := by
  obtain ⟨w, a, rel⟩ := o
  rw [LoopOps.ok, Bool.and_eq_true] at h
  obtain ⟨hw, ha⟩ := h
  have hread := reads_loop k rel (c := .after m none (m.need67 a) (m.need66 w)) (bsz_after hw) (asz_of rfl a ha rfl) rfl
  exact decode_unrexed hop.noPrefix (hop.reads (he ▸ hread)) (by simp) (hfop _)

theorem opcodeByte_E8 : OpcodeByte 0xE8 := ⟨fun _ => rfl, by decide, by decide, by decide⟩
theorem opcodeByte_E9 : OpcodeByte 0xE9 := ⟨fun _ => rfl, by decide, by decide, by decide⟩
theorem opcodeByte_E0 : OpcodeByte 0xE0 := ⟨fun _ => rfl, by decide, by decide, by decide⟩
theorem opcodeByte_E1 : OpcodeByte 0xE1 := ⟨fun _ => rfl, by decide, by decide, by decide⟩
theorem opcodeByte_E2 : OpcodeByte 0xE2 := ⟨fun _ => rfl, by decide, by decide, by decide⟩
theorem opcodeByte_E3 : OpcodeByte 0xE3 := ⟨fun _ => rfl, by decide, by decide, by decide⟩

/-- An opcode that is no x87 escape leaves the opcode register 0. -/
theorem fopOf_cons {op : Byte} (h : op.toNat / 8 ≠ 27) (bs : List Byte) : fopOf (op :: bs) = 0 := by
  cases bs with
  | nil => rfl
  | cons b bs => exact if_neg h

/-- JCXZ, JECXZ and JRCXZ are one opcode; the address size says which. -/
noncomputable def jcxzInstr (w : Width) (a : ASize) (rel : Byte) : Instr :=
  match a with
  | .a16 => .jcxz ⟨w, rel⟩
  | .a32 => .jecxz ⟨w, rel⟩
  | .a64 => .jrcxz ⟨w, rel⟩

theorem decode_jcxz {a : ASize} {o : JcxzOps} (h : o.ok m a = true) :
    decode m (encJcxz m a o) = .ok ⟨jcxzInstr o.w a o.rel, (encJcxz m a o).length, 0⟩ :=
  decode_loop jcxzInstr opcodeByte_E3 rfl h (fopOf_cons (by decide))

/-- Settles O41: the conditional jumps by their condition, the others one by one. -/
theorem encodeDecodeNearTransfers : Obligations.EncodeDecodeNearTransfers := by
  intro m
  refine ⟨fun k hk o h => ?jcc, fun w d i hi h => ?relative, fun o i hi h => ?loop, fun o i hi h => ?jcxz⟩
  case jcc =>
    rw [jccs_eq] at hk
    obtain ⟨n, -, rfl⟩ := List.mem_map.1 hk
    exact decode_jcc n o h
  case relative =>
    simp only [List.mem_cons, List.not_mem_nil, or_false] at hi
    obtain rfl | rfl := hi
    · obtain ⟨hw, hd⟩ := Bool.and_eq_true_iff.1 (h : JmpOps.ok m (.rel w d) = true)
      exact decode_relative (fun w d => .jmpNear (.rel w d)) opcodeByte_E9 rfl hw hd (fopOf_cons (by decide))
    · obtain ⟨hw, hd⟩ := Bool.and_eq_true_iff.1 (h : CallOps.ok m (.rel w d) = true)
      exact decode_relative (fun w d => .call (.rel w d)) opcodeByte_E8 rfl hw hd (fopOf_cons (by decide))
  case loop =>
    simp only [List.mem_cons, List.not_mem_nil, or_false] at hi
    obtain rfl | rfl | rfl := hi
    · exact decode_loop (fun w a d => .loop ⟨w, a, d⟩) opcodeByte_E2 rfl h (fopOf_cons (by decide))
    · exact decode_loop (fun w a d => .loope ⟨w, a, d⟩) opcodeByte_E1 rfl h (fopOf_cons (by decide))
    · exact decode_loop (fun w a d => .loopne ⟨w, a, d⟩) opcodeByte_E0 rfl h (fopOf_cons (by decide))
  case jcxz =>
    simp only [List.mem_cons, List.not_mem_nil, or_false] at hi
    obtain rfl | rfl | rfl := hi
    · exact decode_jcxz h
    · exact decode_jcxz h
    · exact decode_jcxz h

end Sys2Proof
end

section
/-! ModRM, SIB and displacement are read back as the operand they were written for (spec/30_encoding.md rules R330 to R335). -/

namespace Sys2Proof

variable {m : CMode} {c : Dec}

/-! The fields of a byte. -/

theorem fields233_toNat {x y z : Nat} (hx : x < 4) (hy : y < 8) (hz : z < 8) :
    (fields233 x y z).toNat = 64 * x + 8 * y + z := by
  unfold fields233
  rw [BitVec.toNat_ofNat]
  omega

theorem modField_fields233 {x y z : Nat} (hx : x < 4) (hy : y < 8) (hz : z < 8) : modField (fields233 x y z) = x := by
  unfold modField
  rw [fields233_toNat hx hy hz]
  omega

theorem field3_reg {x y z : Nat} (hx : x < 4) (hy : y < 8) (hz : z < 8) : field3 (fields233 x y z) 3 = ⟨y, hy⟩ := by
  apply Fin.ext
  show (fields233 x y z).toNat / 2 ^ 3 % 8 = y
  rw [fields233_toNat hx hy hz]
  omega

theorem field3_rm {x y z : Nat} (hx : x < 4) (hy : y < 8) (hz : z < 8) : field3 (fields233 x y z) 0 = ⟨z, hz⟩ := by
  apply Fin.ext
  show (fields233 x y z).toNat / 2 ^ 0 % 8 = z
  rw [fields233_toNat hx hy hz]
  omega

/-- The low three bits of a register number. -/
def low (r : Reg) : Fin 8 := ⟨loBits r, Nat.mod_lt _ (by decide)⟩

theorem extReg_low (r : Reg) : extReg (hiBit r) (low r) = r := by
  revert r
  decide

/-! Displacements. -/

theorem reads_disp16 {v : BitVec 32} (h : signedIn 16 v = true) : Reads (P.disp 2 2) (leBytes 2 v.toNat) v := by
  have hread : Reads (P.disp 2 2) (leBytes 2 v.toNat) ((BitVec.ofNat 16 (v.toNat % 256 ^ 2)).signExtend 32) :=
    (reads_le 2 v.toNat).bindPure (f := fun n => (BitVec.ofNat 16 n).signExtend 32)
  have hvalue : BitVec.ofNat 16 (v.toNat % 256 ^ 2) = v.setWidth 16 := by
    apply BitVec.eq_of_toNat_eq
    simp
  rw [hvalue, show (v.setWidth 16).signExtend 32 = v from of_decide_eq_true h] at hread
  exact hread

theorem reads_disp32 (v : BitVec 32) : Reads (P.disp 2 4) (leBytes 4 v.toNat) v := by
  have hread : Reads (P.disp 2 4) (leBytes 4 v.toNat) (BitVec.ofNat 32 (v.toNat % 256 ^ 4)) :=
    (reads_le 4 v.toNat).bindPure (f := fun n => BitVec.ofNat 32 n)
  have hvalue : BitVec.ofNat 32 (v.toNat % 256 ^ 4) = v := by
    apply BitVec.eq_of_toNat_eq
    simp
    omega
  rwa [hvalue] at hread

/-! Memory operands. -/

/-- The pairs of 16-bit addressing and their r/m numbers. -/
theorem base16_rm16 {b i : Option Reg} (h : pair16 b i = true) (hb : b.isSome = true) :
    ∃ hlt : rm16 b i < 8, base16 ⟨rm16 b i, hlt⟩ = (b, i) := by
  obtain ⟨b, rfl⟩ := Option.isSome_iff_exists.1 hb
  cases i with
  | none =>
    obtain rfl | rfl | rfl | rfl : b = 3 ∨ b = 5 ∨ b = 6 ∨ b = 7 := of_decide_eq_true h
    · exact ⟨by decide, rfl⟩
    · exact ⟨by decide, rfl⟩
    · exact ⟨by decide, rfl⟩
    · exact ⟨by decide, rfl⟩
  | some i =>
    obtain ⟨rfl | rfl, rfl | rfl⟩ : (b = 3 ∨ b = 5) ∧ (i = 6 ∨ i = 7) := of_decide_eq_true h
    · exact ⟨by decide, rfl⟩
    · exact ⟨by decide, rfl⟩
    · exact ⟨by decide, rfl⟩
    · exact ⟨by decide, rfl⟩

/-- 16-bit addressing without registers. -/
theorem reads_mem16_none {d : BitVec 32} (ha : c.asz = .a16) (hd : signedIn 16 d = true) :
    Reads (c.mem 0 6) (leBytes 2 d.toNat) ⟨c.seg, .a16, none, none, 0, d, false⟩ := by
  unfold Dec.mem
  rw [ha]
  exact (reads_disp16 hd).bindPure (f := fun d => (⟨c.seg, .a16, none, none, 0, d, false⟩ : MemRef))

/-- 16-bit addressing with a base and perhaps an index. -/
theorem reads_mem16 {b i : Option Reg} {d : BitVec 32} (ha : c.asz = .a16) (hd : signedIn 16 d = true) {rm : Fin 8}
    (hrm : base16 rm = (b, i)) :
    Reads (c.mem 2 rm) (leBytes 2 d.toNat) ⟨c.seg, .a16, b, i, 0, d, false⟩ := by
  unfold Dec.mem
  rw [ha]
  dsimp only
  rw [hrm]
  exact (reads_disp16 hd).bindPure (f := fun d => (⟨c.seg, .a16, b, i, 0, d, false⟩ : MemRef))

/-- RIP-relative addressing in 64-bit mode. -/
theorem reads_memRip {d : BitVec 32} (ha : c.asz ≠ .a16) :
    Reads (c.mem 0 5) (leBytes 4 d.toNat) ⟨c.seg, c.asz, none, none, 0, d, c.m.long⟩ := by
  have hread := (reads_disp32 d).bindPure (f := fun d => (⟨c.seg, c.asz, none, none, 0, d, c.m.long⟩ : MemRef))
  unfold Dec.mem
  split
  · contradiction
  · exact hread

/-- The index number in a SIB byte; 4 stands for no index. -/
def indexNum (i : Option Reg) : Nat := (i.map loBits).getD 4

theorem indexNum_lt (i : Option Reg) : indexNum i < 8 := by
  cases i with
  | none => decide
  | some r => exact (low r).isLt

/-- The index and scale a SIB byte was written for: 4 is no index register, and without one the scale is 0. -/
structure Indexed (i : Option Reg) (scale : Fin 4) : Prop where
  ne4 : ∀ r, i = some r → r ≠ 4
  scale0 : i = none → scale = 0

/-- The register number the SIB byte and REX.X give. -/
theorem index_read {i : Option Reg} {scale : Fin 4} (h : Indexed i scale) :
    (if extReg (i.any hiBit) ⟨indexNum i, indexNum_lt i⟩ = 4 then none
      else some (extReg (i.any hiBit) ⟨indexNum i, indexNum_lt i⟩)) = i := by
  cases i with
  | none => rfl
  | some r =>
    have hr : extReg (hiBit r) (low r) = r := extReg_low r
    show (if extReg (hiBit r) (low r) = 4 then none else some (extReg (hiBit r) (low r))) = some r
    rw [hr, if_neg (h.ne4 r rfl)]

theorem scale_read {i : Option Reg} {scale : Fin 4} (h : Indexed i scale) {n : Nat} {hn : n < 4} (hs : n = scale.val) :
    (if extReg (i.any hiBit) ⟨indexNum i, indexNum_lt i⟩ = 4 then 0 else ⟨n, hn⟩) = scale := by
  subst hs
  cases i with
  | none => exact (h.scale0 rfl).symm
  | some r =>
    have hr : extReg (hiBit r) (low r) = r := extReg_low r
    show (if extReg (hiBit r) (low r) = 4 then 0 else scale) = scale
    rw [hr, if_neg (h.ne4 r rfl)]

/-- A SIB byte with a base. -/
theorem reads_memSib {b : Reg} {i : Option Reg} {scale : Fin 4} {d : BitVec 32} (ha : c.asz ≠ .a16) (hi : Indexed i scale)
    (hx : c.x = i.any hiBit) (hb : c.b = hiBit b) :
    Reads (c.mem 2 4) (fields233 scale.val (indexNum i) (loBits b) :: leBytes 4 d.toNat)
      ⟨c.seg, c.asz, some b, i, scale, d, false⟩ := by
  have hlt : loBits b < 8 := (low b).isLt
  have hscale : (fields233 scale.val (indexNum i) (loBits b)).toNat / 64 % 4 = scale.val := by
    rw [fields233_toNat scale.isLt (indexNum_lt i) hlt]
    have := indexNum_lt i
    omega
  unfold Dec.mem
  split
  · contradiction
  · refine (Reads.byte _).bind (ys := leBytes 4 d.toNat) ?_
    dsimp only
    simp only [field3_reg scale.isLt (indexNum_lt i) hlt, field3_rm scale.isLt (indexNum_lt i) hlt, hx, hb,
      index_read hi, scale_read hi hscale]
    rw [if_neg (fun h => absurd h.2 (by decide)), show extReg (hiBit b) ⟨loBits b, hlt⟩ = b from extReg_low b]
    exact (reads_disp32 d).bindPure (f := fun d => (⟨c.seg, c.asz, some b, i, scale, d, false⟩ : MemRef))

/-- A SIB byte without a base. -/
theorem reads_memSib_none {i : Option Reg} {scale : Fin 4} {d : BitVec 32} (ha : c.asz ≠ .a16) (hi : Indexed i scale)
    (hx : c.x = i.any hiBit) :
    Reads (c.mem 0 4) (fields233 scale.val (indexNum i) 5 :: leBytes 4 d.toNat)
      ⟨c.seg, c.asz, none, i, scale, d, false⟩ := by
  have hlt : 5 < 8 := by decide
  have hscale : (fields233 scale.val (indexNum i) 5).toNat / 64 % 4 = scale.val := by
    rw [fields233_toNat scale.isLt (indexNum_lt i) hlt]
    have := indexNum_lt i
    omega
  unfold Dec.mem
  split
  · contradiction
  · refine (Reads.byte _).bind (ys := leBytes 4 d.toNat) ?_
    dsimp only
    simp only [field3_reg scale.isLt (indexNum_lt i) hlt, field3_rm scale.isLt (indexNum_lt i) hlt, hx,
      index_read hi, scale_read hi hscale]
    rw [if_pos ⟨rfl, trivial⟩]
    exact (reads_disp32 d).bindPure (f := fun d => (⟨c.seg, c.asz, none, i, scale, d, false⟩ : MemRef))

/-! ModRM. -/

/-- A ModRM byte with its register operand. -/
theorem reads_modrmReg {reg : Nat} (hreg : reg < 8) (n : Reg) :
    Reads c.modrm ((Loc.reg n).bytes reg) ⟨⟨reg, hreg⟩, .reg (low n)⟩ := by
  have hlt : loBits n < 8 := (low n).isLt
  unfold Dec.modrm
  refine (Reads.byte _).bind (ys := []) ?_
  dsimp only
  rw [field3_reg (by decide) hreg hlt, field3_rm (by decide) hreg hlt, modField_fields233 (by decide) hreg hlt, if_pos rfl]
  exact .pure _

/-- A ModRM byte with the memory operand behind it. -/
theorem reads_modrmMem {reg : Nat} (hreg : reg < 8) {mod : Nat} (hmod : mod < 3) {rm : Fin 8} {bs : List Byte} {a : MemRef}
    (h : Reads (c.mem mod rm) bs a) : Reads c.modrm (fields233 mod reg rm.val :: bs) ⟨⟨reg, hreg⟩, .mem a⟩ := by
  have hmod4 : mod < 4 := by omega
  unfold Dec.modrm
  refine (Reads.byte _).bind (ys := bs) ?_
  dsimp only
  rw [field3_reg hmod4 hreg rm.isLt, field3_rm hmod4 hreg rm.isLt, modField_fields233 hmod4 hreg rm.isLt, if_neg (by omega)]
  exact h.bindPure (f := fun a => (⟨⟨reg, hreg⟩, .mem a⟩ : Modrm))

/-- The prefixes the decoder knows are those a memory operand was written with. -/
structure Dec.Fits (c : Dec) (a : MemRef) : Prop where
  seg : c.seg = a.ovr
  asz : c.asz = a.asz
  x : c.x = (Loc.mem a).x
  b : c.b = (Loc.mem a).b

/-! The bytes of a memory operand, form by form. -/

theorem bytes_mem16_none {ovr : Option SReg} {i : Option Reg} {scale : Fin 4} {d : BitVec 32} {rip : Bool} (reg : Nat) :
    (Loc.mem ⟨ovr, .a16, none, i, scale, d, rip⟩).bytes reg = fields233 0 reg 6 :: leBytes 2 d.toNat := rfl

theorem bytes_mem16 {ovr : Option SReg} {b : Reg} {i : Option Reg} {scale : Fin 4} {d : BitVec 32} {rip : Bool} (reg : Nat) :
    (Loc.mem ⟨ovr, .a16, some b, i, scale, d, rip⟩).bytes reg = fields233 2 reg (rm16 (some b) i) :: leBytes 2 d.toNat := rfl

theorem bytes_memRip {ovr : Option SReg} {asz : ASize} {b i : Option Reg} {scale : Fin 4} {d : BitVec 32} (ha : asz ≠ .a16)
    (reg : Nat) : (Loc.mem ⟨ovr, asz, b, i, scale, d, true⟩).bytes reg = fields233 0 reg 5 :: leBytes 4 d.toNat := by
  cases asz with
  | a16 => contradiction
  | a32 => rfl
  | a64 => rfl

theorem bytes_memSib {ovr : Option SReg} {asz : ASize} {b : Reg} {i : Option Reg} {scale : Fin 4} {d : BitVec 32}
    (ha : asz ≠ .a16) (reg : Nat) : (Loc.mem ⟨ovr, asz, some b, i, scale, d, false⟩).bytes reg =
      fields233 2 reg 4 :: fields233 scale.val (indexNum i) (loBits b) :: leBytes 4 d.toNat := by
  cases asz with
  | a16 => contradiction
  | a32 => rfl
  | a64 => rfl

theorem bytes_memSib_none {ovr : Option SReg} {asz : ASize} {i : Option Reg} {scale : Fin 4} {d : BitVec 32}
    (ha : asz ≠ .a16) (reg : Nat) : (Loc.mem ⟨ovr, asz, none, i, scale, d, false⟩).bytes reg =
      fields233 0 reg 4 :: fields233 scale.val (indexNum i) 5 :: leBytes 4 d.toNat := by
  cases asz with
  | a16 => contradiction
  | a32 => rfl
  | a64 => rfl

/-- A memory operand with 16-bit addressing is read back. -/
theorem reads_modrm_mem16 {b i : Option Reg} {d : BitVec 32} (ha : c.asz = .a16) (hp : pair16 b i = true)
    (hd : signedIn 16 d = true) {reg : Nat} (hreg : reg < 8) :
    Reads c.modrm ((Loc.mem ⟨c.seg, .a16, b, i, 0, d, false⟩).bytes reg) ⟨⟨reg, hreg⟩, .mem ⟨c.seg, .a16, b, i, 0, d, false⟩⟩ := by
  cases b with
  | none =>
    have hi : i = none := by
      cases i with
      | none => rfl
      | some _ => cases hp
    subst hi
    rw [bytes_mem16_none]
    exact reads_modrmMem hreg (by decide) (reads_mem16_none ha hd)
  | some b =>
    obtain ⟨hlt, hrm⟩ := base16_rm16 hp rfl
    rw [bytes_mem16]
    exact reads_modrmMem (rm := ⟨_, hlt⟩) hreg (by decide) (reads_mem16 ha hd hrm)

/-- A memory operand with 32- or 64-bit addressing is read back. -/
theorem reads_modrm_memWide {b i : Option Reg} {scale : Fin 4} {d : BitVec 32} (ha : c.asz ≠ .a16) (hi : Indexed i scale)
    (hx : c.x = i.any hiBit) (hb : c.b = b.any hiBit) {reg : Nat} (hreg : reg < 8) :
    Reads c.modrm ((Loc.mem ⟨c.seg, c.asz, b, i, scale, d, false⟩).bytes reg)
      ⟨⟨reg, hreg⟩, .mem ⟨c.seg, c.asz, b, i, scale, d, false⟩⟩ := by
  cases b with
  | none =>
    rw [bytes_memSib_none ha]
    exact reads_modrmMem (rm := 4) hreg (by decide) (reads_memSib_none ha hi hx)
  | some b =>
    rw [bytes_memSib ha]
    exact reads_modrmMem (rm := 4) hreg (by decide) (reads_memSib ha hi hx hb)

/-- A RIP-relative operand is read back. -/
theorem reads_modrm_memRip {d : BitVec 32} (ha : c.asz ≠ .a16) (hlong : c.m.long = true) {reg : Nat} (hreg : reg < 8) :
    Reads c.modrm ((Loc.mem ⟨c.seg, c.asz, none, none, 0, d, true⟩).bytes reg)
      ⟨⟨reg, hreg⟩, .mem ⟨c.seg, c.asz, none, none, 0, d, true⟩⟩ := by
  have hread := reads_memRip (d := d) ha
  rw [hlong] at hread
  rw [bytes_memRip ha]
  exact reads_modrmMem (rm := 5) hreg (by decide) hread

/-- What makes a memory operand encodable, taken apart. -/
structure MemRef.Encodable (m : CMode) (a : MemRef) : Prop where
  ovr : m.ovr a.ovr = true
  addr : m.addr a.asz = true
  base : a.base.all m.reg = true
  index : ∀ r, a.index = some r → m.reg r = true ∧ r ≠ 4
  scale : a.index = none → a.scale = 0
  rip : a.rip = true → m.long = true ∧ a.base = none ∧ a.index = none
  pair : a.asz = .a16 → pair16 a.base a.index = true ∧ a.scale = 0 ∧ signedIn 16 a.disp = true

theorem MemRef.encodable {a : MemRef} (h : a.ok m = true) : a.Encodable m := by
  obtain ⟨ovr, asz, base, index, scale, disp, rip⟩ := a
  simp only [MemRef.ok, Bool.and_eq_true] at h
  obtain ⟨⟨⟨⟨⟨⟨hovr, hasz⟩, hbase⟩, hindex⟩, hscale⟩, hrip⟩, h16⟩ := h
  refine ⟨hovr, hasz, hbase, ?index, ?scale, ?rip, ?pair⟩
  case index =>
    rintro r rfl
    simpa using hindex
  case scale =>
    rintro rfl
    simpa using hscale
  case rip =>
    rintro rfl
    simpa [and_assoc] using hrip
  case pair =>
    rintro rfl
    simpa [and_assoc] using h16

/-- A memory operand is read back. -/
theorem reads_modrm_mem {a : MemRef} (hm : c.m = m) (h : a.ok m = true) (hc : c.Fits a) {reg : Nat} (hreg : reg < 8) :
    Reads c.modrm ((Loc.mem a).bytes reg) ⟨⟨reg, hreg⟩, .mem a⟩ := by
  obtain ⟨-, haddr, -, hindex, hscale, hrip, hpair⟩ := MemRef.encodable h
  obtain ⟨ovr, asz, base, index, scale, disp, rip⟩ := a
  obtain ⟨rfl, rfl, hx, hb⟩ := hc
  by_cases h16 : c.asz = .a16
  · obtain ⟨hp, rfl, hd⟩ := hpair h16
    have hlong : m.long = false := by
      unfold CMode.addr at haddr
      dsimp only at haddr
      rw [h16] at haddr
      cases hl : m.long with
      | false => rfl
      | true => rw [hl] at haddr; cases haddr
    have hr : rip = false := by
      cases rip with
      | false => rfl
      | true => exact absurd (hrip rfl).1 (by simp [hlong])
    subst hr
    have hread := reads_modrm_mem16 h16 hp hd hreg
    rwa [← h16] at hread
  · cases rip with
    | false => exact reads_modrm_memWide h16 ⟨fun r hr => (hindex r hr).2, hscale⟩ hx hb hreg
    | true =>
      obtain ⟨hlong, rfl, rfl⟩ : m.long = true ∧ base = none ∧ index = none := hrip rfl
      obtain rfl : scale = 0 := hscale rfl
      exact reads_modrm_memRip h16 (hm ▸ hlong) hreg

end Sys2Proof
end

section
/-! The eight instructions of group 1 are read back as they were written, in every operand form (obligation O42): opcodes 00H to
3BH with a register, 80H and 81H with an immediate (spec/31_opcode_maps.md rules R401, R377). -/

namespace Sys2Proof

variable {m : CMode} {c : Dec} {w : Width}

/-! What the decoder knows before the opcode, and the operands it makes of ModRM. -/

/-- What the prefixes of a legacy encoding say. -/
def Dec.before (m : CMode) (h : Head) (reg : Reg) (l : Loc) : Dec :=
  (Dec.after m l.ovr (l.a67 m) h.opsz).rexed h.w (hiBit reg) l.x l.b h.keep

/-- A general register is read back: AH to BH without REX, SPL to DIL with one. -/
theorem gp_num {g : Gp} (hhigh : g.high = true → w = .w8 ∧ c.rex = false) (hkeep : g.keep w = true → c.rex = true) :
    c.gp w g.num = g := by
  cases g with
  | hi r =>
    obtain ⟨hw, hrex⟩ := hhigh rfl
    unfold Dec.gp
    rw [dif_pos ⟨hw, hrex, Nat.le_add_left _ _, Nat.add_lt_add_right r.isLt 4⟩]
    rfl
  | lo r =>
    have hlow : ¬(w = .w8 ∧ c.rex = false ∧ 4 ≤ r.val ∧ r.val < 8) := by
      rintro ⟨hw, hrex, h4, -⟩
      have hk : (Gp.lo r).keep w = true := by simp [Gp.keep, hw, h4]
      rw [hkeep hk] at hrex
      cases hrex
    exact dif_neg hlow

/-- The ModRM bytes of an operand, and what is read from them. -/
def Rm.raw : Rm → RawRm
  | .reg g => .reg (low g.num)
  | .mem a => .mem a

theorem reads_modrm {d : Rm} (h : Head) (r : Reg) (hd : d.ok m w = true) :
    Reads (Dec.before m h r d.loc).modrm (d.loc.bytes (loBits r)) ⟨low r, d.raw⟩ := by
  cases d with
  | reg g => exact reads_modrmReg (low r).isLt g.num
  | mem a =>
    have hasz : (Dec.before m h r (Rm.mem a).loc).asz = a.asz := asz_of (m := m) rfl _ (MemRef.encodable hd).addr rfl
    exact reads_modrm_mem (m := m) rfl hd ⟨rfl, hasz, rfl, rfl⟩ (low r).isLt

/-- The r/m operand is read back. -/
theorem rm_raw {d : Rm} {r : Fin 8} (hb : c.b = d.loc.b) (hhigh : d.high = true → w = .w8 ∧ c.rex = false)
    (hkeep : d.keep w = true → c.rex = true) : c.rm w ⟨r, d.raw⟩ = d := by
  cases d with
  | mem a => rfl
  | reg g =>
    show Rm.reg (c.gp w (extReg c.b (low g.num))) = Rm.reg g
    rw [hb, show extReg (Rm.reg g).loc.b (low g.num) = g.num from extReg_low _, gp_num hhigh hkeep]

/-- The register operand is read back. -/
theorem gpR_low {g : Gp} {x : RawRm} (hr : c.r = hiBit g.num) (hhigh : g.high = true → w = .w8 ∧ c.rex = false)
    (hkeep : g.keep w = true → c.rex = true) : c.gpR w ⟨low g.num, x⟩ = g := by
  show c.gp w (extReg c.r (low g.num)) = g
  rw [hr, extReg_low, gp_num hhigh hkeep]

/-! Widths. -/

/-- The low bit of an opcode: set for operands wider than a byte. -/
def wideBit (w : Width) : Fin 2 := if w = .w8 then 0 else 1

theorem wOp_eq (op : Nat) (w : Width) : wOp op w = BitVec.ofNat 8 (op + (wideBit w).val) := by
  cases w <;> rfl

/-- The opcode's low bit and the operand size give the width back. -/
theorem wOf_wideBit {op : Nat} (hop : op % 2 = 0) (hw : m.width w = true) (hm : c.m = m) (ho : c.opsz = m.need66 w)
    (hW : c.w = decide (w = .w64)) : c.wOf (op + (wideBit w).val) = w := by
  unfold Dec.wOf wideBit
  by_cases h8 : w = .w8
  · rw [if_pos h8, h8]
    exact if_pos hop
  · have hosz : m.osize w = true := by simp [CMode.osize, h8, hw]
    have hodd : (op + 1) % 2 ≠ 0 := by omega
    rw [if_neg h8]
    exact (if_neg hodd).trans (osz_of hm w hosz ho hW)

/-- An immediate of an operand width is read back. -/
theorem reads_immZ {i : BitVec 32} (hw : m.width w = true) (hi : immOk w i = true) (hm : c.m = m) (ho : c.opsz = m.need66 w)
    (hW : c.w = decide (w = .w64)) :
    ∃ v, Reads (c.imm (if w = .w8 then .ib else .iz)) (immZ w i) v ∧ (if w = .w8 then sext8 v else c.sextZ v) = i := by
  cases w with
  | w8 => exact ⟨_, reads_immIb _, sext8_ofNat hi⟩
  | w16 =>
    have hosz : c.osz = .w16 := osz_of hm .w16 (by simp [CMode.osize, hw]) ho hW
    refine ⟨_, reads_immIz16 hosz _, ?_⟩
    unfold Dec.sextZ
    rw [if_neg (by decide), if_pos hosz]
    exact sext16_ofNat hi
  | w32 =>
    have hosz : c.osz = .w32 := osz_of hm .w32 (by simp [CMode.osize, hw]) ho hW
    have hne : c.osz ≠ .w16 := by rw [hosz]; decide
    refine ⟨_, reads_immIz32 hne _, ?_⟩
    unfold Dec.sextZ
    rw [if_neg (by decide), if_neg hne]
    exact setWidth_ofNat_dword i
  | w64 =>
    have hosz : c.osz = .w64 := osz_of hm .w64 (by simp [CMode.osize, hw]) ho hW
    have hne : c.osz ≠ .w16 := by rw [hosz]; decide
    refine ⟨_, reads_immIz32 hne _, ?_⟩
    unfold Dec.sextZ
    rw [if_neg (by decide), if_neg hne]
    exact setWidth_ofNat_dword i

/-! REX. -/

/-- A register needs REX for its fourth bit, or as SPL to DIL. -/
theorem Gp.rex_eq (g : Gp) : g.rex w = (hiBit g.num || g.keep w) := by
  cases g with
  | lo r => rfl
  | hi r =>
    have h : ∀ r : Fin 4, hiBit (Gp.hi r).num = false := by decide
    rw [h r]
    rfl

/-- So does an operand, for one of its registers. -/
theorem Rm.rex_eq (d : Rm) : d.rex w = (d.loc.x || d.loc.b || d.keep w) := by
  cases d with
  | reg g => exact g.rex_eq
  | mem a =>
    show (a.base.any hiBit || a.index.any hiBit) = (a.index.any hiBit || a.base.any hiBit || false)
    rw [Bool.or_false, Bool.or_comm]

theorem Gp.rex_of_high {g : Gp} (h : g.high = true) : g.rex w = false := by
  cases g with
  | lo r => cases h
  | hi r => rfl

theorem Rm.rex_of_high {d : Rm} (h : d.high = true) : d.rex w = false := by
  cases d with
  | reg g => exact Gp.rex_of_high h
  | mem a => cases h

theorem Gp.w8_of_high {g : Gp} (hok : g.ok m w = true) (h : g.high = true) : w = .w8 := by
  cases g with
  | lo r => cases h
  | hi r => exact of_decide_eq_true hok

theorem Rm.w8_of_high {d : Rm} (hok : d.ok m w = true) (h : d.high = true) : w = .w8 := by
  cases d with
  | reg g => exact Gp.w8_of_high hok h
  | mem a => cases h

/-- Outside 64-bit mode a register number has three bits. -/
theorem CMode.reg_lt {r : Reg} (hl : m.long = false) (h : m.reg r = true) : hiBit r = false := by
  unfold CMode.reg at h
  rw [hl, Bool.false_or] at h
  exact decide_eq_false (Nat.not_le.2 (of_decide_eq_true h))

/-- Outside 64-bit mode no encodable operand needs REX. -/
theorem Gp.rex_of_legacy {g : Gp} (hl : m.long = false) (h : g.ok m w = true) : g.rex w = false := by
  cases g with
  | hi r => rfl
  | lo r =>
    unfold Gp.ok at h
    rw [hl, Bool.false_or, Bool.and_eq_true, Bool.or_eq_true, decide_eq_true_eq, decide_eq_true_eq] at h
    obtain ⟨hr, hw⟩ := h
    have hhi : hiBit r = false := CMode.reg_lt hl hr
    have hkeep : (Gp.lo r).keep w = false := by
      unfold Gp.keep
      rcases hw with hw | hw
      · simp [hw]
      · simp [hw]
    rw [Gp.rex_eq, hkeep, Bool.or_false]
    exact hhi

theorem any_hiBit_of_legacy {r : Option Reg} (hl : m.long = false) (h : r.all m.reg = true) : r.any hiBit = false := by
  cases r with
  | none => rfl
  | some r => exact CMode.reg_lt hl h

theorem Rm.rex_of_legacy {d : Rm} (hl : m.long = false) (h : d.ok m w = true) : d.rex w = false := by
  cases d with
  | reg g => exact Gp.rex_of_legacy hl h
  | mem a =>
    have he := MemRef.encodable h
    have hindex : a.index.all m.reg = true := by
      rw [Option.all_eq_true]
      exact fun r hr => (he.index r hr).1
    show (a.base.any hiBit || a.index.any hiBit) = false
    rw [any_hiBit_of_legacy hl he.base, any_hiBit_of_legacy hl hindex]
    rfl

theorem CMode.width_legacy (hl : m.long = false) (h : m.width w = true) : decide (w = .w64) = false := by
  unfold CMode.width at h
  rw [hl, Bool.false_or] at h
  exact decide_eq_false (of_decide_eq_true h)

/-! An encoding with ModRM as a whole. -/

/-- The entry of an opcode with ModRM. -/
theorem Reads.modrm {sel : Bool → Fin 8 → Fin 8 → Option Form} {f : Form} {md : Modrm} {xs ys : List Byte} {i : Instr}
    (hmd : Reads c.modrm xs md) (hsel : sel md.isMem md.reg md.low = some f) (hform : Reads (c.form f md) ys i) :
    Reads (c.entry (.modrm sel)) (xs ++ ys) i := by
  refine hmd.bind ?_
  rw [hsel]
  exact hform

theorem Rm.ovr_ok {d : Rm} (h : d.ok m w = true) : m.ovr d.loc.ovr = true := by
  cases d with
  | reg g => rfl
  | mem a => exact (MemRef.encodable h).ovr

/-- ModRM, SIB and displacement have at most six bytes. -/
theorem length_bytes_le (d : Rm) (r : Nat) : (d.loc.bytes r).length ≤ 6 := by
  cases d with
  | reg g => exact Nat.le_of_ble_eq_true rfl
  | mem a =>
    obtain ⟨ovr, asz, base, index, scale, disp, rip⟩ := a
    show ((Loc.mem ⟨ovr, asz, base, index, scale, disp, rip⟩).bytes r).length ≤ 6
    by_cases h16 : asz = .a16
    · subst h16
      cases base <;> simp [bytes_mem16, bytes_mem16_none, length_leBytes]
    · cases rip with
      | true => simp [bytes_memRip h16, length_leBytes]
      | false => cases base <;> simp [bytes_memSib h16, bytes_memSib_none h16, length_leBytes]

/-- What the encoder writes for a one-byte opcode with ModRM, the decoder reads. -/
theorem decode_legacy {op : Byte} {keep : Bool} {reg : Reg} {d : Rm} {imm : List Byte}
    {sel : Bool → Fin 8 → Fin 8 → Option Form} {f : Form} {i : Instr} (hop : OpcodeByte op) (hfop : op.toNat / 8 ≠ 27)
    (hd : d.ok m w = true)
    (hrex : m.long = true ∨ (decide (w = .w64) || hiBit reg || d.loc.x || d.loc.b || keep) = false)
    (he : oneByte op.toNat = .modrm sel) (hsel : ∀ isMem lo, sel isMem (low reg) lo = some f)
    (hform : Reads ((Dec.before m (m.head w op [] keep) reg d.loc).form f ⟨low reg, d.raw⟩) imm i) (hlen : imm.length ≤ 4) :
    decode m (legacy m (m.head w op [] keep) reg d.loc imm) =
      .ok ⟨i, (legacy m (m.head w op [] keep) reg d.loc imm).length, 0⟩ := by
  have hbytes : legacy m (m.head w op [] keep) reg d.loc imm =
      (pfxBytes d.loc.ovr (d.loc.a67 m) (m.need66 w) none false ++
        rexBytes (decide (w = .w64)) (hiBit reg) d.loc.x d.loc.b keep) ++ op :: (d.loc.bytes (loBits reg) ++ imm) := by
    simp [legacy, CMode.head]
  have hpfx := readPfx_encoded (a67 := d.loc.a67 m) (opsz := m.need66 w) (Rm.ovr_ok hd) hrex hop.noPrefix
    (d.loc.bytes (loBits reg) ++ imm)
  have hread := hop.reads (he ▸ Reads.modrm (reads_modrm (m.head w op [] keep) reg hd) (hsel _ _) hform)
  rw [hbytes]
  refine decode_of_reads ((List.append_assoc ..).symm ▸ hpfx) hread ?_ (fopOf_cons hfop _)
  have h1 := length_pfxBytes_le d.loc.ovr (d.loc.a67 m) (m.need66 w)
  have h2 := length_rexBytes_le (decide (w = .w64)) (hiBit reg) d.loc.x d.loc.b keep
  have h3 := length_bytes_le d (loBits reg)
  simp only [List.length_append, List.length_cons]
  omega

/-! Group 1 (rules R401, R377). -/

/-- The opcode bytes of a register form: 8 n + k, one more for operands wider than a byte. -/
theorem opcodeByte_alu (n : Fin 8) (k : Fin 4) : OpcodeByte (BitVec.ofNat 8 (8 * n.val + k.val)) := by
  refine ⟨fun c => ?_, ?_, ?_, ?_⟩
  · fin_cases n <;> fin_cases k <;> rfl
  · revert n k; decide
  · revert n k; decide
  · revert n k; decide

theorem alu_no_escape (n : Fin 8) (k : Fin 4) : (BitVec.ofNat 8 (8 * n.val + k.val)).toNat / 8 ≠ 27 := by
  revert n k
  decide

theorem oneByte_alu (n : Fin 8) (k : Fin 4) : oneByte (BitVec.ofNat 8 (8 * n.val + k.val)).toNat = aluEntry n k.val := by
  fin_cases n <;> fin_cases k <;> rfl

/-- Without LOCK the plain instruction is built. -/
theorem aluMr_unlocked (h : c.lock = false) (n : Fin 8) (d : Rm) (g : Gp) : aluMr c n w d g = aluInstr n (.mr w d g) := by
  unfold aluMr Dec.locked
  rw [h]
  split <;> rfl

theorem aluMi_unlocked (h : c.lock = false) (n : Fin 8) (d : Rm) (i : BitVec 32) : aluMi c n w d i = aluInstr n (.mi w d i) := by
  unfold aluMi Dec.locked
  rw [h]
  split <;> rfl

/-- What makes r/m with a register encodable, taken apart. -/
structure PairEncodable (m : CMode) (w : Width) (d : Rm) (g : Gp) : Prop where
  rm : d.ok m w = true
  reg : g.ok m w = true
  rmHigh : d.high = true → g.rex w = false
  regHigh : g.high = true → d.rex w = false

theorem pairEncodable {d : Rm} {g : Gp} (h : pairOk m w d w g = true) : PairEncodable m w d g := by
  simp only [pairOk, Bool.and_eq_true, Bool.not_eq_true', Bool.and_eq_false_iff] at h
  obtain ⟨⟨⟨hd, hg⟩, hdh⟩, hgh⟩ := h
  refine ⟨hd, hg, fun hh => ?_, fun hh => ?_⟩
  · exact hdh.resolve_left (by simp [hh])
  · exact hgh.resolve_left (by simp [hh])

/-- What the prefixes before r/m with a register say. -/
abbrev Dec.pair (m : CMode) (op : Byte) (w : Width) (d : Rm) (g : Gp) : Dec :=
  .before m (m.head w op [] (d.keep w || g.keep w)) g.num d.loc

theorem rex_pair {op : Byte} {d : Rm} {g : Gp} : (Dec.pair m op w d g).rex = (decide (w = .w64) || g.rex w || d.rex w) := by
  rw [Gp.rex_eq, Rm.rex_eq]
  show (decide (w = .w64) || hiBit g.num || d.loc.x || d.loc.b || (d.keep w || g.keep w)) = _
  ac_rfl

/-- AH to BH are byte registers, and stand beside no operand that needs REX. -/
theorem rex_pair_of_high {op : Byte} {d : Rm} {g : Gp} (h : PairEncodable m w d g) (hh : d.high = true ∨ g.high = true) :
    w = .w8 ∧ (Dec.pair m op w d g).rex = false := by
  rcases hh with hd | hg
  · have hw := Rm.w8_of_high h.rm hd
    rw [rex_pair, h.rmHigh hd, Rm.rex_of_high hd, hw]
    exact ⟨rfl, rfl⟩
  · have hw := Gp.w8_of_high h.reg hg
    rw [rex_pair, h.regHigh hg, Gp.rex_of_high hg, hw]
    exact ⟨rfl, rfl⟩

theorem rm_pair {op : Byte} {d : Rm} {g : Gp} (h : PairEncodable m w d g) :
    (Dec.pair m op w d g).rm w ⟨low g.num, d.raw⟩ = d := by
  refine rm_raw rfl (fun hh => rex_pair_of_high h (.inl hh)) fun hk => ?_
  rw [rex_pair, Rm.rex_eq, hk]
  simp

theorem gpR_pair {op : Byte} {d : Rm} {g : Gp} (h : PairEncodable m w d g) :
    (Dec.pair m op w d g).gpR w ⟨low g.num, d.raw⟩ = g := by
  refine gpR_low rfl (fun hh => rex_pair_of_high h (.inr hh)) fun hk => ?_
  rw [rex_pair, Gp.rex_eq, hk]
  simp

/-- Outside 64-bit mode no REX byte is written. -/
theorem rex_pair_legacy {d : Rm} {g : Gp} (hw : m.width w = true) (h : PairEncodable m w d g) :
    m.long = true ∨ (decide (w = .w64) || hiBit g.num || d.loc.x || d.loc.b || (d.keep w || g.keep w)) = false := by
  cases hl : m.long with
  | true => exact .inl rfl
  | false =>
    have hrex := rex_pair (m := m) (op := 0) (w := w) (d := d) (g := g)
    rw [Gp.rex_of_legacy hl h.reg, Rm.rex_of_legacy hl h.rm, CMode.width_legacy hl hw] at hrex
    exact .inr hrex

/-- Group 1 with r/m and a register, in either direction: `op` is 8 n for a destination in r/m, 8 n + 2 for one in a register. -/
theorem decode_pair {op : Nat} {d : Rm} {g : Gp} {f : Form} {i : Instr} (hop : OpcodeByte (wOp op w))
    (hfop : (wOp op w).toNat / 8 ≠ 27) (hw : m.width w = true) (h : PairEncodable m w d g)
    (he : oneByte (wOp op w).toNat = .all f) (hform : Reads ((Dec.pair m (wOp op w) w d g).form f ⟨low g.num, d.raw⟩) [] i) :
    decode m (encMr m {} op [] w d g) = .ok ⟨i, (encMr m {} op [] w d g).length, 0⟩ :=
  decode_legacy hop hfop h.rm (rex_pair_legacy hw h) he (fun _ _ => rfl) hform (by decide)

/-- A destination in r/m. -/
theorem aluEntry_mr (n : Fin 8) (k : Fin 2) : aluEntry n k.val = .all (form .no (aluLock n).isSome fun c md _ =>
    some (aluMr c n (c.wOf k.val) (c.rm (c.wOf k.val) md) (c.gpR (c.wOf k.val) md))) := by
  fin_cases k <;> rfl

/-- A destination in a register. -/
theorem aluEntry_rm (n : Fin 8) (k : Fin 2) : aluEntry n (2 + k.val) = .all (form .no false fun c md _ =>
    some (aluInstr n (.rm (c.wOf (2 + k.val)) (c.gpR (c.wOf (2 + k.val)) md) (c.rm (c.wOf (2 + k.val)) md)))) := by
  fin_cases k <;> rfl

theorem decode_aluMr (n : Fin 8) {d : Rm} {g : Gp} (h : (AluOps.mr w d g).ok m = true) :
    decode m (encAlu m n (.mr w d g)) = .ok ⟨aluInstr n (.mr w d g), (encAlu m n (.mr w d g)).length, 0⟩ := by
  obtain ⟨hw, hpair⟩ := Bool.and_eq_true_iff.1 h
  have hp := pairEncodable hpair
  have hk : (wideBit w).val < 4 := by omega
  have hbyte : wOp (8 * n.val) w = BitVec.ofNat 8 (8 * n.val + (wideBit w).val) := wOp_eq _ _
  have hentry := (oneByte_alu n ⟨_, hk⟩).trans (aluEntry_mr n (wideBit w))
  have hwOf : (Dec.pair m (wOp (8 * n.val) w) w d g).wOf (wideBit w).val = w := by
    have := wOf_wideBit (op := 0) (c := .pair m (wOp (8 * n.val) w) w d g) rfl hw rfl rfl rfl
    rwa [Nat.zero_add] at this
  refine decode_pair (hbyte ▸ opcodeByte_alu n ⟨_, hk⟩) (hbyte ▸ alu_no_escape n ⟨_, hk⟩) hw hp (hbyte ▸ hentry) ?_
  refine Reads.form (.pure 0) rfl rfl ?_
  show some (aluMr _ n _ _ _) = _
  rw [hwOf, rm_pair hp, gpR_pair hp, aluMr_unlocked rfl]

theorem decode_aluRm (n : Fin 8) {d : Rm} {g : Gp} (h : (AluOps.rm w g d).ok m = true) :
    decode m (encAlu m n (.rm w g d)) = .ok ⟨aluInstr n (.rm w g d), (encAlu m n (.rm w g d)).length, 0⟩ := by
  obtain ⟨hw, hpair⟩ := Bool.and_eq_true_iff.1 h
  have hp := pairEncodable hpair
  have hk : 2 + (wideBit w).val < 4 := by omega
  have hbyte : wOp (8 * n.val + 2) w = BitVec.ofNat 8 (8 * n.val + (2 + (wideBit w).val)) := by
    rw [wOp_eq, Nat.add_assoc]
  have hentry := (oneByte_alu n ⟨_, hk⟩).trans (aluEntry_rm n (wideBit w))
  have hwOf : (Dec.pair m (wOp (8 * n.val + 2) w) w d g).wOf (2 + (wideBit w).val) = w :=
    wOf_wideBit rfl hw rfl rfl rfl
  refine decode_pair (hbyte ▸ opcodeByte_alu n ⟨_, hk⟩) (hbyte ▸ alu_no_escape n ⟨_, hk⟩) hw hp (hbyte ▸ hentry) ?_
  refine Reads.form (.pure 0) rfl rfl ?_
  show some (aluInstr n (.rm _ _ _)) = _
  rw [hwOf, rm_pair hp, gpR_pair hp]

/-! An immediate: 80H for bytes, 81H for wider operands. -/

theorem opcodeByte_group1 (w : Width) : OpcodeByte (wOp 0x80 w) := by
  refine ⟨fun c => ?_, ?_, ?_, ?_⟩
  · cases w <;> rfl
  · cases w <;> decide
  · cases w <;> decide
  · cases w <;> decide

/-- The form of group 1 whose immediate has the operand's width, at most four bytes. -/
noncomputable def aluImmForm (w : Width) (n : Fin 8) : Form :=
  form (if w = .w8 then .ib else .iz) (aluLock n).isSome fun c md v =>
    some (aluMi c n (c.wOf (0x80 + (wideBit w).val)) (c.rm (c.wOf (0x80 + (wideBit w).val)) md)
      (if w = .w8 then sext8 v else c.sextZ v))

theorem oneByte_group1 (w : Width) : oneByte (wOp 0x80 w).toNat = .modrm fun _ reg _ => some (aluImmForm w reg) := by
  cases w <;> rfl

theorem low_digit (n : Fin 8) : low (digit n) = n := by
  revert n
  decide

theorem hiBit_digit (n : Fin 8) : hiBit (digit n) = false := by
  revert n
  decide

/-- What the prefixes before an operand alone say. -/
abbrev Dec.single (m : CMode) (op : Byte) (w : Width) (d : Rm) (n : Fin 8) : Dec :=
  .before m (m.head w op [] (d.keep w)) (digit n) d.loc

theorem rex_single {op : Byte} {d : Rm} {n : Fin 8} : (Dec.single m op w d n).rex = (decide (w = .w64) || d.rex w) := by
  rw [Rm.rex_eq]
  show (decide (w = .w64) || hiBit (digit n) || d.loc.x || d.loc.b || d.keep w) = _
  rw [hiBit_digit, Bool.or_false]
  ac_rfl

theorem rm_single {op : Byte} {d : Rm} {n : Fin 8} (hd : d.ok m w = true) :
    (Dec.single m op w d n).rm w ⟨low (digit n), d.raw⟩ = d := by
  refine rm_raw rfl (fun hh => ?_) fun hk => ?_
  · have hw := Rm.w8_of_high hd hh
    rw [rex_single, Rm.rex_of_high hh, hw]
    exact ⟨rfl, rfl⟩
  · rw [rex_single, Rm.rex_eq, hk]
    simp

theorem rex_single_legacy {d : Rm} {n : Fin 8} (hw : m.width w = true) (hd : d.ok m w = true) :
    m.long = true ∨ (decide (w = .w64) || hiBit (digit n) || d.loc.x || d.loc.b || d.keep w) = false := by
  cases hl : m.long with
  | true => exact .inl rfl
  | false =>
    have hrex := rex_single (m := m) (op := 0) (w := w) (d := d) (n := n)
    rw [Rm.rex_of_legacy hl hd, CMode.width_legacy hl hw] at hrex
    exact .inr hrex

theorem length_immZ_le (w : Width) (i : BitVec 32) : (immZ w i).length ≤ 4 := by
  unfold immZ
  rw [length_leBytes]
  cases w <;> decide

theorem decode_aluMi (n : Fin 8) {d : Rm} {i : BitVec 32} (h : (AluOps.mi w d i).ok m = true) :
    decode m (encAlu m n (.mi w d i)) = .ok ⟨aluInstr n (.mi w d i), (encAlu m n (.mi w d i)).length, 0⟩ := by
  simp only [AluOps.ok, Bool.and_eq_true] at h
  obtain ⟨⟨hw, hd⟩, hi⟩ := h
  obtain ⟨v, hread, hv⟩ := reads_immZ (c := .single m (wOp 0x80 w) w d n) hw hi rfl rfl rfl
  have hfop : (wOp 0x80 w).toNat / 8 ≠ 27 := by cases w <;> decide
  have hwOf : (Dec.single m (wOp 0x80 w) w d n).wOf (0x80 + (wideBit w).val) = w := wOf_wideBit rfl hw rfl rfl rfl
  have hform : Reads ((Dec.single m (wOp 0x80 w) w d n).form (aluImmForm w n) ⟨low (digit n), d.raw⟩) (immZ w i)
      (aluInstr n (.mi w d i)) := by
    refine Reads.form hread rfl rfl ?_
    show some (aluMi _ _ _ _ _) = _
    rw [hwOf, rm_single hd, hv, aluMi_unlocked rfl]
  refine decode_legacy (opcodeByte_group1 w) hfop hd (rex_single_legacy hw hd) (oneByte_group1 w) (fun _ _ => ?_) hform
    (length_immZ_le w i)
  rw [low_digit]

/-! The eight instructions by their number. -/

theorem encode_alu (n : Fin 8) (o : AluOps) : encode m (aluInstr n o) = encAlu m n o := by
  fin_cases n <;> rfl

theorem wf_alu (n : Fin 8) (o : AluOps) : (aluInstr n o).wf m = o.ok m := by
  fin_cases n <;> rfl

theorem alus_eq : ([.add, .or, .adc, .sbb, .and, .sub, .xor, .cmp] : List (AluOps → Instr)) =
    (List.finRange 8).map aluInstr := rfl

/-- Settles O42: by the operand form, for each of the eight instructions alike. -/
theorem encodeDecodeArithmetic : Obligations.EncodeDecodeArithmetic := by
  intro m k hk o h
  rw [alus_eq] at hk
  obtain ⟨n, -, rfl⟩ := List.mem_map.1 hk
  rw [wf_alu] at h
  rw [encode_alu]
  cases o with
  | mr w d g => exact decode_aluMr n h
  | rm w g d => exact decode_aluRm n h
  | mi w d i => exact decode_aluMi n h

end Sys2Proof
end
